-- ==== Sys2Proof/Word.lean ====
section
/-! DEFINITION. The words of the FJ1: bytes, 32-bit register words, 64-bit scalars, and their plainest arithmetic. -/

namespace Sys2Proof

/-- One byte. -/
abbrev Byte := BitVec 8
/-- A register word (00_scope R12) or an FP32/INT32 lane. -/
abbrev W32 := BitVec 32
/-- A scalar register, an address, a tide. -/
abbrev W64 := BitVec 64
/-- An XF40 value (03_number_formats R88). -/
abbrev W40 := BitVec 40

/-- The bytes of `v`, `n` of them, least significant first (everything in the FJ1 is little-endian). -/
def bytesLE (n : Nat) (v : Nat) : List Byte :=
  match n with
  | 0 => []
  | k + 1 => BitVec.ofNat 8 v :: bytesLE k (v / 256)

/-- The number whose little-endian bytes are `bs`. -/
def natLE : List Byte → Nat
  | [] => 0
  | b :: bs => b.toNat + 256 * natLE bs

/-- `n` bytes of `bs` from byte `i`, as a number; bytes past the end count as zero. -/
def fieldLE (bs : List Byte) (i n : Nat) : Nat := natLE ((bs.drop i).take n)

/-- Bits `[lo + w - 1 : lo]` of a number. -/
def bitsOf (v lo w : Nat) : Nat := v / 2 ^ lo % 2 ^ w

/-- `v` with bits `[lo + w - 1 : lo]` replaced by the low bits of `x`. -/
def setBits (v lo w x : Nat) : Nat :=
  v % 2 ^ lo + (x % 2 ^ w) * 2 ^ lo + v / 2 ^ (lo + w) * 2 ^ (lo + w)

/-- The least multiple of `g` at or above `n`. -/
def roundUp (n g : Nat) : Nat := (n + g - 1) / g * g

/-- Quotient rounded up. -/
def ceilDiv (n d : Nat) : Nat := (n + d - 1) / d

/-- Add one to a counter that saturates at all ones of `w` bits. -/
def satInc (w n : Nat) : Nat := if n + 1 < 2 ^ w then n + 1 else 2 ^ w - 1

/-- `n` added to a counter that saturates at all ones of 32 bits. -/
def satAdd32 (a n : Nat) : Nat := if a + n < 2 ^ 32 then a + n else 2 ^ 32 - 1

/-- All ones of 64 bits: "until resumed", "none". -/
def allOnes64 : W64 := BitVec.ofNat 64 (2 ^ 64 - 1)

end Sys2Proof
end

