-- ==== Sys2Proof/Syntax.lean ====
section
/-! DEFINITION. The commands of the FJ1 and their operands: what a host, a link, a pin or one of the chip's own units does to
the chip in one whole step. -/

namespace Sys2Proof

/-- A core id (00_scope R1): die [11:9], cluster [8:6], core number [5:0]. -/
abbrev CoreId := BitVec 12

/-- One host write of one register word: the function (0 the PF, n the VF n), whether it came on that function's IDE stream,
its byte enables and its data (17_register_pages R433, R441). -/
structure Access where
  func : Fin 17
  ide : Bool
  be : BitVec 4
  data : W32
deriving DecidableEq, Repr

/-- The three windows of a function (17_register_pages R432). -/
inductive Bar where
  | bar0 | bar4
deriving DecidableEq, Repr

/-- A request through the memory window (17_register_pages R443): a read of bytes, or a write of them. -/
inductive WinOp where
  | read (n : Nat)
  | write (bytes : List Byte)
deriving DecidableEq, Repr

/-- Where a consignment arrives (02_quay_line, Landing and confirmation): a link, or the local port of a die. -/
inductive Arrival where
  | link (n : Fin 16)
  | die (n : Fin 8)
deriving DecidableEq, Repr

/-- What names a consignment: source node, kind, STREAM and SEQ (02 R55, R62; 09 R239; 10 R271). -/
structure ConsKey where
  src : BitVec 16
  kind : BitVec 4
  stream : BitVec 16
  seq : BitVec 32
deriving DecidableEq, Repr

/-- The two kinds of shadowed pairs (02 R73). -/
inductive PairKind where
  | tile | rows
deriving DecidableEq, Repr

/-- The REG layout without MAJOR and MINOR (06 R159). -/
structure RegF where
  d : BitVec 6
  a : BitVec 6
  b : BitVec 6
  c : BitVec 6
  mask : BitVec 4
  rm : BitVec 2
  sat : BitVec 1
  zm : BitVec 1
  lane : BitVec 7
  fmt : BitVec 4
  rsv : BitVec 7
deriving DecidableEq, Repr

/-- The IMM layout without MAJOR and MINOR (06 R160). -/
structure ImmF where
  d : BitVec 6
  a : BitVec 6
  b : BitVec 6
  rsv : BitVec 2
  imm : BitVec 32
deriving DecidableEq, Repr

/-- The VMEM layout without MAJOR (06 R167). -/
structure VmemF where
  v : BitVec 6
  a : BitVec 6
  b : BitVec 6
  slot : BitVec 4
  space : BitVec 1
  fmt : BitVec 4
  rm : BitVec 2
  sat : BitVec 1
  mx : BitVec 1
  mask : BitVec 4
  nm1 : BitVec 7
  imm : BitVec 16
deriving DecidableEq, Repr

/-- The MMA layout without MAJOR (06 R171). -/
structure MmaF where
  tile : BitVec 4
  ba : BitVec 4
  bb : BitVec 4
  fmta : BitVec 4
  fmtb : BitVec 4
  mxa : BitVec 1
  mxb : BitVec 1
  mm1 : BitVec 7
  nm1 : BitVec 7
  km1 : BitVec 16
  rsv : BitVec 6
deriving DecidableEq, Repr

/-- The MOVE layout without MAJOR (06 R177). -/
structure MoveF where
  d : BitVec 6
  a : BitVec 6
  b : BitVec 6
  c : BitVec 6
  v : BitVec 6
  dk : BitVec 2
  sk : BitVec 2
  fmt : BitVec 4
  sat : BitVec 1
  rsv : BitVec 19
deriving DecidableEq, Repr

/-- What one end of a training link reports for the step it has completed (11 R298, R299, R303, R34): the step, its good
receive lanes (step 3), its node id and link index (step 5), the one-way latency in 1/16 tick (step 6). -/
structure TrainReport where
  step : Fin 7
  lanes : BitVec 9
  node : BitVec 16
  link : BitVec 4
  lat16 : BitVec 24
deriving DecidableEq, Repr

/-- A routed attempt's or message's header (11 R305): who sends it, where it goes, its class and virtual channel, and the
consignment it carries, if it carries one. -/
structure RouteMsg where
  dst : BitVec 16
  cls : Nat
  vc : BitVec 2
  key : Option ConsKey
  id : Nat
deriving DecidableEq, Repr

/-- What a reading, a trip or a report names (16 R423, R427, R428). -/
inductive HeatUnit where
  | stack (k : Fin 32)
  | die (n : Fin 8)
  | isroth
deriving DecidableEq, Repr

/-- A unit whose reset completes (15 R410). -/
inductive ResetUnit where
  | core (id : CoreId)
  | cluster (c : Fin 64)
  | partition (n : Fin 8)
deriving DecidableEq, Repr

/-- What the steps of bring-up find in the silicon (15 R396, R397, R402, R403). A step whose findings are not asked for
leaves the lists empty. `failed`: physical cores that fail self-test, as core ids; `spares`: (cluster, spare) that pass;
`banks`: (cluster, bank) that fail; `lanes`: (link, lane) that fail loopback; `rows`: (stack, rows repaired, granules withheld,
PHY trained). -/
structure StageReport where
  isrothOk : Bool
  pufOk : Bool
  certPresent : Bool
  strap : BitVec 2
  failed : List CoreId
  spares : List (Nat × Nat)
  banks : List (Nat × Nat)
  lanes : List (Nat × Nat)
  rows : List (Nat × Nat × List Nat × Bool)
deriving DecidableEq, Repr


/-- The commands of the FJ1: one constructor per row of spec/opcode_table.json, in its order. -/
inductive Instr where
  -- The tide (01_tide).
  /-- RUN (R26). -/
  | run (a : Access)
  /-- INIT_LOAD (R26). -/
  | initLoad
  /-- ROOT (R30). -/
  | root (a : Access)
  /-- TIDE_SYNC (R27). -/
  | tideSync
  /-- REF_LOSS (R28). -/
  | refLoss
  /-- ROOT_REF_RETURN (R28). -/
  | rootRefReturn
  /-- WRAP (R23). -/
  | wrap
  /-- BEACON_SEND (R31). -/
  | beaconSend
  /-- BEACON (R36). -/
  | beacon (link : Fin 16) (bytes : List Byte) (proc16 : BitVec 32)
  /-- LOCKED (R43). -/
  | locked
  /-- UPSTREAM_CHANGE (R35). -/
  | upstreamChange
  /-- HOLDOVER (R40). -/
  | holdover
  /-- LOST (R41). -/
  | lost
  /-- SCHEDULE (R44). -/
  | schedule (a : Access)
  /-- STAND_RESUME (R49). -/
  | standResume (a : Access)
  /-- CANCEL (R50). -/
  | cancel (a : Access)
  /-- STAND_NOTICE (R45). -/
  | standNotice (link : Fin 16) (bytes : List Byte)
  /-- STAND_BEGIN (R46). -/
  | standBegin
  /-- STAND_END (R48). -/
  | standEnd
  -- Consignments and the quay line (02_quay_line, 11_brosko).
  /-- CONSIGNMENT_HEADER (R82). -/
  | consignmentHeader (arr : Arrival) (cslot : Fin 16) (hdr sealBlk : List Byte)
  /-- FLIT_RECEIVE (R294). -/
  | flitReceive (link : Fin 16) (bytes : List Byte)
  /-- CONSIGNMENT_TRAILER (R59). -/
  | consignmentTrailer (arr : Arrival) (key : ConsKey) (crc : BitVec 32) (tag : BitVec 128)
  /-- CONFIRMED (R59). -/
  | confirmed (key : ConsKey)
  /-- CONFIRM_NOTICE (R58). -/
  | confirmNotice (key : ConsKey)
  /-- REPLAY_REQUEST (R62). -/
  | replayRequest (key : ConsKey) (attempt : BitVec 8)
  /-- EXHAUSTED_NOTICE (R63). -/
  | exhaustedNotice (key : ConsKey)
  /-- ABSORBED_NOTICE (R65). -/
  | absorbedNotice (key : ConsKey)
  /-- PAIR_REFRESH (R76). -/
  | pairRefresh (core : CoreId) (kind : PairKind) (pair : Fin 8)
  /-- SPEC_EN (R74). -/
  | specEn (core : CoreId) (a : Access)
  /-- SPEC_EN_EFFECT (R74). -/
  | specEnEffect (core : CoreId)
  /-- QWIN (R84). -/
  | qwin (port : Fin 24) (a : Access)
  /-- BLOCK_CLOSE (R83). -/
  | blockClose (port : Fin 24)
  -- Scalar instructions (06 R164, R165).
  /-- ADD (R164). -/
  | add (core : CoreId) (f : RegF)
  /-- SUB (R164). -/
  | sub (core : CoreId) (f : RegF)
  /-- AND (R164). -/
  | and (core : CoreId) (f : RegF)
  /-- OR (R164). -/
  | or (core : CoreId) (f : RegF)
  /-- XOR (R164). -/
  | xor (core : CoreId) (f : RegF)
  /-- SHL (R164). -/
  | shl (core : CoreId) (f : RegF)
  /-- SHR (R164). -/
  | shr (core : CoreId) (f : RegF)
  /-- SRA (R164). -/
  | sra (core : CoreId) (f : RegF)
  /-- SLT (R164). -/
  | slt (core : CoreId) (f : RegF)
  /-- SLTU (R164). -/
  | sltu (core : CoreId) (f : RegF)
  /-- MIN (R164). -/
  | min (core : CoreId) (f : RegF)
  /-- MINU (R164). -/
  | minu (core : CoreId) (f : RegF)
  /-- MAX (R164). -/
  | max (core : CoreId) (f : RegF)
  /-- MAXU (R164). -/
  | maxu (core : CoreId) (f : RegF)
  /-- MUL (R164). -/
  | mul (core : CoreId) (f : RegF)
  /-- MULH (R164). -/
  | mulh (core : CoreId) (f : RegF)
  /-- MULHU (R164). -/
  | mulhu (core : CoreId) (f : RegF)
  /-- DIV (R164). -/
  | div (core : CoreId) (f : RegF)
  /-- DIVU (R164). -/
  | divu (core : CoreId) (f : RegF)
  /-- REM (R164). -/
  | rem (core : CoreId) (f : RegF)
  /-- REMU (R164). -/
  | remu (core : CoreId) (f : RegF)
  /-- ADDI (R164). -/
  | addi (core : CoreId) (f : ImmF)
  /-- SUBI (R164). -/
  | subi (core : CoreId) (f : ImmF)
  /-- ANDI (R164). -/
  | andi (core : CoreId) (f : ImmF)
  /-- ORI (R164). -/
  | ori (core : CoreId) (f : ImmF)
  /-- XORI (R164). -/
  | xori (core : CoreId) (f : ImmF)
  /-- SHLI (R164). -/
  | shli (core : CoreId) (f : ImmF)
  /-- SHRI (R164). -/
  | shri (core : CoreId) (f : ImmF)
  /-- SRAI (R164). -/
  | srai (core : CoreId) (f : ImmF)
  /-- SLTI (R164). -/
  | slti (core : CoreId) (f : ImmF)
  /-- SLTUI (R164). -/
  | sltui (core : CoreId) (f : ImmF)
  /-- MINI (R164). -/
  | mini (core : CoreId) (f : ImmF)
  /-- MINUI (R164). -/
  | minui (core : CoreId) (f : ImmF)
  /-- MAXI (R164). -/
  | maxi (core : CoreId) (f : ImmF)
  /-- MAXUI (R164). -/
  | maxui (core : CoreId) (f : ImmF)
  /-- SETHI (R164). -/
  | sethi (core : CoreId) (f : ImmF)
  /-- LD8 (R164). -/
  | ld8 (core : CoreId) (f : ImmF)
  /-- LD8U (R164). -/
  | ld8u (core : CoreId) (f : ImmF)
  /-- LD16 (R164). -/
  | ld16 (core : CoreId) (f : ImmF)
  /-- LD16U (R164). -/
  | ld16u (core : CoreId) (f : ImmF)
  /-- LD32 (R164). -/
  | ld32 (core : CoreId) (f : ImmF)
  /-- LD32U (R164). -/
  | ld32u (core : CoreId) (f : ImmF)
  /-- LD64 (R164). -/
  | ld64 (core : CoreId) (f : ImmF)
  /-- ST8 (R164). -/
  | st8 (core : CoreId) (f : ImmF)
  /-- ST16 (R164). -/
  | st16 (core : CoreId) (f : ImmF)
  /-- ST32 (R164). -/
  | st32 (core : CoreId) (f : ImmF)
  /-- ST64 (R164). -/
  | st64 (core : CoreId) (f : ImmF)
  /-- BEQ (R165). -/
  | beq (core : CoreId) (f : ImmF)
  /-- BNE (R165). -/
  | bne (core : CoreId) (f : ImmF)
  /-- BLT (R165). -/
  | blt (core : CoreId) (f : ImmF)
  /-- BGE (R165). -/
  | bge (core : CoreId) (f : ImmF)
  /-- BLTU (R165). -/
  | bltu (core : CoreId) (f : ImmF)
  /-- BGEU (R165). -/
  | bgeu (core : CoreId) (f : ImmF)
  /-- JAL (R165). -/
  | jal (core : CoreId) (f : ImmF)
  /-- JALR (R165). -/
  | jalr (core : CoreId) (f : ImmF)
  -- Vector instructions (06 R166 to R170).
  /-- VADD (R166). -/
  | vadd (core : CoreId) (f : RegF)
  /-- VSUB (R166). -/
  | vsub (core : CoreId) (f : RegF)
  /-- VMUL (R166). -/
  | vmul (core : CoreId) (f : RegF)
  /-- VFMA (R166). -/
  | vfma (core : CoreId) (f : RegF)
  /-- VFNMA (R166). -/
  | vfnma (core : CoreId) (f : RegF)
  /-- VMAX (R166). -/
  | vmax (core : CoreId) (f : RegF)
  /-- VMIN (R166). -/
  | vmin (core : CoreId) (f : RegF)
  /-- VABS (R166). -/
  | vabs (core : CoreId) (f : RegF)
  /-- VNEG (R166). -/
  | vneg (core : CoreId) (f : RegF)
  /-- VMOV (R166). -/
  | vmov (core : CoreId) (f : RegF)
  /-- VSEL (R166). -/
  | vsel (core : CoreId) (f : RegF)
  /-- VMULX (R166). -/
  | vmulx (core : CoreId) (f : RegF)
  /-- VMULS (R166). -/
  | vmuls (core : CoreId) (f : RegF)
  /-- VADDS (R166). -/
  | vadds (core : CoreId) (f : RegF)
  /-- VBCAST (R166). -/
  | vbcast (core : CoreId) (f : RegF)
  /-- VIADD (R166). -/
  | viadd (core : CoreId) (f : RegF)
  /-- VISUB (R166). -/
  | visub (core : CoreId) (f : RegF)
  /-- VIMUL (R166). -/
  | vimul (core : CoreId) (f : RegF)
  /-- VAND (R166). -/
  | vand (core : CoreId) (f : RegF)
  /-- VOR (R166). -/
  | vor (core : CoreId) (f : RegF)
  /-- VXOR (R166). -/
  | vxor (core : CoreId) (f : RegF)
  /-- VSHL (R166). -/
  | vshl (core : CoreId) (f : RegF)
  /-- VSHR (R166). -/
  | vshr (core : CoreId) (f : RegF)
  /-- VSRA (R166). -/
  | vsra (core : CoreId) (f : RegF)
  /-- VIMAX (R166). -/
  | vimax (core : CoreId) (f : RegF)
  /-- VIMIN (R166). -/
  | vimin (core : CoreId) (f : RegF)
  /-- VIDX (R166). -/
  | vidx (core : CoreId) (f : RegF)
  /-- VEXT (R166). -/
  | vext (core : CoreId) (f : RegF)
  /-- FEQ (R166). -/
  | feq (core : CoreId) (f : RegF)
  /-- FNE (R166). -/
  | fne (core : CoreId) (f : RegF)
  /-- FLT (R166). -/
  | flt (core : CoreId) (f : RegF)
  /-- FLE (R166). -/
  | fle (core : CoreId) (f : RegF)
  /-- IEQ (R166). -/
  | ieq (core : CoreId) (f : RegF)
  /-- INE (R166). -/
  | ine (core : CoreId) (f : RegF)
  /-- ILT (R166). -/
  | ilt (core : CoreId) (f : RegF)
  /-- ILE (R166). -/
  | ile (core : CoreId) (f : RegF)
  /-- ILTU (R166). -/
  | iltu (core : CoreId) (f : RegF)
  /-- MAND (R166). -/
  | mand (core : CoreId) (f : RegF)
  /-- MOR (R166). -/
  | mor (core : CoreId) (f : RegF)
  /-- MXOR (R166). -/
  | mxor (core : CoreId) (f : RegF)
  /-- MANDN (R166). -/
  | mandn (core : CoreId) (f : RegF)
  /-- MLEN (R166). -/
  | mlen (core : CoreId) (f : RegF)
  /-- VRSUM (R107). -/
  | vrsum (core : CoreId) (f : RegF)
  /-- VRMAX (R107). -/
  | vrmax (core : CoreId) (f : RegF)
  /-- VRMIN (R107). -/
  | vrmin (core : CoreId) (f : RegF)
  /-- VRISUM (R166). -/
  | vrisum (core : CoreId) (f : RegF)
  /-- F2I (R98). -/
  | f2i (core : CoreId) (f : RegF)
  /-- I2F (R97). -/
  | i2f (core : CoreId) (f : RegF)
  /-- QNT (R166). -/
  | qnt (core : CoreId) (f : RegF)
  /-- VLD (R168). -/
  | vld (core : CoreId) (f : VmemF)
  /-- VST (R169). -/
  | vst (core : CoreId) (f : VmemF)
  -- Matrix, accumulator and problem-list instructions (06 R171 to R173, 08).
  /-- MMA (R135). -/
  | mma (core : CoreId) (f : MmaF)
  /-- MMA_Z (R135). -/
  | mmaZ (core : CoreId) (f : MmaF)
  /-- AREAD (R173). -/
  | aread (core : CoreId) (f : RegF)
  /-- AWRITE (R173). -/
  | awrite (core : CoreId) (f : RegF)
  /-- AZERO (R173). -/
  | azero (core : CoreId) (f : RegF)
  /-- PLIST (R223). -/
  | plist (core : CoreId) (f : RegF)
  /-- PLIST_ENTRY (R219). -/
  | plistEntry (core : CoreId)
  -- Special functions and row statistics (07).
  /-- SFN (R181). -/
  | sfn (core : CoreId) (fn : BitVec 8) (f : RegF)
  /-- SFG (R190). -/
  | sfg (core : CoreId) (fn : BitVec 8) (f : RegF)
  /-- RSW (R203). -/
  | rsw (core : CoreId) (f : RegF)
  /-- RSC (R204). -/
  | rsc (core : CoreId) (f : RegF)
  /-- RSRD (R206). -/
  | rsrd (core : CoreId) (f : RegF)
  /-- RSCLR (R201). -/
  | rsclr (core : CoreId) (f : RegF)
  /-- SMX (R207). -/
  | smx (core : CoreId) (f : RegF)
  /-- SMXF (R209). -/
  | smxf (core : CoreId) (f : RegF)
  -- Tile mover, synchronisation, system and monitor instructions (06 R177 to R180).
  /-- MOVE (R177). -/
  | move (core : CoreId) (f : MoveF)
  /-- MOVE_DONE (R137). -/
  | moveDone (core : CoreId) (n : Fin 8)
  /-- MWAIT (R178). -/
  | mwait (core : CoreId) (f : ImmF)
  /-- BADD (R227). -/
  | badd (core : CoreId) (f : ImmF)
  /-- TWAIT (R138). -/
  | twait (core : CoreId) (f : ImmF)
  /-- TIDE_WAIT_DONE (R138). -/
  | tideWaitDone (core : CoreId)
  /-- RDTIDE (R140). -/
  | rdtide (core : CoreId) (f : ImmF)
  /-- CONFIRM (R141). -/
  | confirm (core : CoreId) (f : ImmF)
  /-- HALT (R148). -/
  | halt (core : CoreId) (f : ImmF)
  /-- SIGNAL (R148). -/
  | signal (core : CoreId) (f : ImmF)
  /-- FENCE (R131). -/
  | fence (core : CoreId) (f : ImmF)
  /-- SYNCI (R179). -/
  | synci (core : CoreId) (f : ImmF)
  /-- RDFL (R143). -/
  | rdfl (core : CoreId) (f : ImmF)
  /-- WRFL (R143). -/
  | wrfl (core : CoreId) (f : ImmF)
  /-- MRET (R180). -/
  | mret (core : CoreId) (f : ImmF)
  /-- MCSR (R180). -/
  | mcsr (core : CoreId) (f : ImmF)
  /-- MLOG (R180). -/
  | mlog (core : CoreId) (f : ImmF)
  /-- MTBL (R180). -/
  | mtbl (core : CoreId) (f : ImmF)
  -- Core page commands and core events (05).
  /-- DATA_ERROR (R152). -/
  | dataError (core : CoreId) (pc addr : BitVec 64)
  /-- START (R145). -/
  | start (core : CoreId) (a : Access)
  /-- STOP (R146). -/
  | stop (core : CoreId) (a : Access)
  /-- STOPPED (R146). -/
  | stopped (core : CoreId)
  /-- RESUME (R147). -/
  | resume (core : CoreId) (a : Access)
  -- Function commands and bollards (07 R199, 08 R231).
  /-- LOAD (R199). -/
  | fnLoad (b : Fin 16) (a : Access)
  /-- UNLOAD (R199). -/
  | fnUnload (b : Fin 16) (a : Access)
  /-- LOAD_STD (R199). -/
  | fnLoadStd (b : Fin 16) (a : Access)
  /-- FN_DONE (R199). -/
  | fnDone (b : Fin 16)
  /-- BOLLARD (R231). -/
  | bollard (cl : Fin 64) (n : Fin 64) (a : Access)
  -- Ferries (09).
  /-- ARM (R244). -/
  | arm (f : Fin 8) (a : Access)
  /-- APPEND (R259). -/
  | append (f : Fin 8) (a : Access)
  /-- VALIDATION_DONE (R244). -/
  | validationDone (f : Fin 8)
  /-- ABORT (R256). -/
  | abort (f : Fin 8) (a : Access)
  /-- SAIL (R240). -/
  | sail (f : Fin 8) (entry : Nat)
  /-- ZONE_OPEN (R248). -/
  | zoneOpen (f : Fin 8) (entry : Nat)
  /-- MARK (R257). -/
  | mark (f : Fin 8) (entry : Nat)
  /-- END (R242). -/
  | endEntry (f : Fin 8) (entry : Nat)
  /-- FERRY_OVERDUE (R253). -/
  | ferryOverdue (f : Fin 8) (entry : Nat)
  -- Groups and collectives (10).
  /-- CREATE (R264). -/
  | create (g : Fin 64) (a : Access)
  /-- DELETE (R267). -/
  | delete (g : Fin 64) (a : Access)
  /-- CREATION_NOTICE (R265). -/
  | creationNotice (g : Fin 64) (sender : BitVec 16) (digest : BitVec 32) (ring : Bool)
  /-- TAIL (R268). -/
  | tail (g : Fin 64) (a : Access)
  /-- CQ_DB (R445). -/
  | cqDb (g : Fin 64) (a : Access)
  /-- DESCRIPTOR_TAKE (R270). -/
  | descriptorTake (g : Fin 64)
  /-- TRANSFER_LAUNCH (R275). -/
  | transferLaunch (g : Fin 64) (t : Nat)
  /-- CREDIT (R276). -/
  | credit (g : Fin 64) (t : Nat)
  /-- CHUNK_WRITTEN (R276). -/
  | chunkWritten (g : Fin 64) (t : Nat)
  /-- COLL_TIMEOUT (R282). -/
  | collTimeout (g : Fin 64) (t : Nat)
  /-- REFORM_NOTICE (R283). -/
  | reformNotice (g : Fin 64) (seq : BitVec 32) (suspect : BitVec 16) (at_ : BitVec 64)
  /-- REFORM (R284). -/
  | reform (g : Fin 64)
  /-- ABORT_NOTICE (R285). -/
  | abortNotice (g : Fin 64)
  -- Links and topology (11).
  /-- LINK_EN (R298). -/
  | linkEn (link : Fin 16) (a : Access)
  /-- RETRAIN (R300). -/
  | retrain (link : Fin 16) (a : Access)
  /-- TRAINING_PATTERN (R486). -/
  | trainingPattern (link : Fin 16)
  /-- TRAINING_MESSAGE (R486). -/
  | trainingMessage (link : Fin 16) (msg : TrainReport)
  /-- STEP_TIMEOUT (R486). -/
  | stepTimeout (link : Fin 16)
  /-- RETRY_TIMER (R300). -/
  | retryTimer (link : Fin 16)
  /-- LIGHT_LOSS (R300). -/
  | lightLoss (link : Fin 16) (lanes : BitVec 9) (lat16 : BitVec 24)
  /-- LANE_WINDOW (R301). -/
  | laneWindow (link : Fin 16) (farOver : BitVec 9) (lat16 : BitVec 24)
  /-- RETRAIN_LIMIT (R301). -/
  | retrainLimit (link : Fin 16)
  /-- ACK_TIMEOUT (R294). -/
  | ackTimeout (link : Fin 16)
  /-- LINK_STATE_ANNOUNCE (R305). -/
  | linkStateAnnounce (pos : Fin 3) (cube : BitVec 16)
  /-- ROUTE_HOP (R305). -/
  | routeHop (msg : RouteMsg)
  /-- APPLY (R304). -/
  | apply (a : Access)
  /-- SELF (R302). -/
  | self (a : Access)
  -- Memory tiers (12).
  /-- TIER_EN (R316). -/
  | tierEn (a : Access)
  /-- OTAB_READY (R316). -/
  | otabReady
  /-- TQ_TAIL (R320). -/
  | tqTail (b : Fin 16) (a : Access)
  /-- TQ_DB (R445). -/
  | tqDb (b : Fin 16) (a : Access)
  /-- HQ_TAIL (R320). -/
  | hqTail (a : Access)
  /-- HQ_DB (R445). -/
  | hqDb (a : Access)
  /-- ALLOC (R322). -/
  | alloc (ring : Fin 17) (pos : BitVec 16)
  /-- ALLOC_DONE (R322). -/
  | allocDone (obj : BitVec 20)
  /-- FREE (R322). -/
  | free (ring : Fin 17) (pos : BitVec 16)
  /-- TIER_MOVE (R324). -/
  | tierMove (ring : Fin 17) (pos : BitVec 16)
  /-- PIN (R322). -/
  | pin (ring : Fin 17) (pos : BitVec 16)
  /-- UNPIN (R322). -/
  | unpin (ring : Fin 17) (pos : BitVec 16)
  /-- RESTORE (R336). -/
  | restore (ring : Fin 17) (pos : BitVec 16)
  /-- SUPPLIED (R322). -/
  | supplied (ring : Fin 17) (pos : BitVec 16)
  /-- SHARE (R322). -/
  | share (ring : Fin 17) (pos : BitVec 16)
  /-- WAIT (R322). -/
  | wait (ring : Fin 17) (pos : BitVec 16)
  /-- TILE_SAIL (R323). -/
  | tileSail (obj : BitVec 20) (tile : Nat)
  /-- FLIP (R324). -/
  | flip (obj : BitVec 20)
  /-- FLASH_READ (R334). -/
  | flashRead (obj : BitVec 20) (tile : Nat) (retries : Fin 17) (good : Bool)
  /-- FLASH_PROGRAM (R333). -/
  | flashProgram (obj : BitVec 20) (tile : Nat) (good : Bool)
  /-- FTL_MAINT (R337). -/
  | ftlMaint (wear starts : Bool)
  /-- FLASH_EN (R337). -/
  | flashEn (a : Access)
  /-- TEST (R330). -/
  | test (k : Fin 32) (a : Access)
  /-- GO (R330). -/
  | go (k ch : Fin 32) (a : Access)
  /-- GENERATOR_DONE (R330). -/
  | generatorDone (k ch : Fin 32) (errors : BitVec 32) (first : BitVec 23)
  -- Sketch search (13).
  /-- INDEX_CREATE (R351). -/
  | indexCreate (a : Access)
  /-- MERGE (R368). -/
  | merge (a : Access)
  /-- INDEX_CHECK_DONE (R351). -/
  | indexCheckDone (ix : Fin 64)
  /-- SWITCHED (R368). -/
  | switched (ix : Fin 64)
  /-- RETIRE (R369). -/
  | retire (a : Access)
  /-- RETIRED (R369). -/
  | retired (ix : Fin 64)
  /-- DESTROY (R370). -/
  | destroy (a : Access)
  /-- DESTROYED (R370). -/
  | destroyed (ix : Fin 64)
  /-- SEARCH (R358). -/
  | search (cl : Fin 64)
  /-- INSERT (R359). -/
  | insert (cl : Fin 64)
  /-- SKETCH_DELETE (R359). -/
  | sketchDelete (cl : Fin 64)
  /-- SIDE_ENTRY_VALID (R359). -/
  | sideEntryValid (cl : Fin 64)
  /-- SNAPSHOT (R358). -/
  | snapshot (cl : Fin 64)
  /-- SHARE_REQUEST (R365). -/
  | shareRequest (leader helper : Fin 64)
  /-- SHARE_RESULT (R365). -/
  | shareResult (leader helper : Fin 64)
  -- Berths, keys and attestation (14).
  /-- OPEN (R380). -/
  | berthOpen (b : Fin 16) (a : Access)
  /-- BIND (R375). -/
  | bind (b : Fin 16) (a : Access)
  /-- UNBIND (R376). -/
  | unbind (b : Fin 16) (a : Access)
  /-- TEARDOWN (R376). -/
  | teardown (b : Fin 16) (a : Access)
  /-- REBIND_START (R377). -/
  | rebindStart (b : Fin 16)
  /-- REBIND_DONE (R377). -/
  | rebindDone (b : Fin 16) (us : BitVec 12)
  /-- OPEN_SESSION (R384). -/
  | openSession (b : Fin 16) (msg : List Byte)
  /-- LINK_EXPORT (R383). -/
  | linkExport (b : Fin 16) (msg : List Byte)
  /-- LINK_IMPORT (R383). -/
  | linkImport (b : Fin 16) (msg : List Byte)
  /-- KEYLOCK (R391). -/
  | keylock (b : Fin 16) (page : BitVec 14) (set : Bool)
  /-- IDE_KM (R386). -/
  | ideKm (b : Fin 16) (msg : List Byte)
  /-- GET_VERSION (R388). -/
  | getVersion (func : Fin 17) (msg : List Byte)
  /-- GET_CAPABILITIES (R388). -/
  | getCapabilities (func : Fin 17) (msg : List Byte)
  /-- NEGOTIATE_ALGORITHMS (R388). -/
  | negotiateAlgorithms (func : Fin 17) (msg : List Byte)
  /-- GET_DIGESTS (R388). -/
  | getDigests (func : Fin 17) (msg : List Byte)
  /-- GET_CERTIFICATE (R388). -/
  | getCertificate (func : Fin 17) (msg : List Byte)
  /-- SPDM_CHALLENGE (R388). -/
  | spdmChallenge (func : Fin 17) (msg : List Byte)
  /-- GET_MEASUREMENTS (R389). -/
  | getMeasurements (func : Fin 17) (msg : List Byte)
  /-- CHUNK_SEND (R388). -/
  | chunkSend (func : Fin 17) (msg : List Byte)
  /-- CHUNK_GET (R388). -/
  | chunkGet (func : Fin 17) (msg : List Byte)
  /-- VENDOR_DEFINED_REQUEST (R388). -/
  | vendorDefinedRequest (func : Fin 17) (msg : List Byte)
  /-- RNG_FAIL (R380). -/
  | rngFail
  /-- IDE_FAIL (R392). -/
  | ideFail (func : Fin 17)
  -- Bring-up and reset (15, 18).
  /-- COLD_START (R395). -/
  | coldStart (strap : BitVec 2)
  /-- PERST_ASSERT (R463). -/
  | perstAssert
  /-- PERST_DEASSERT (R463). -/
  | perstDeassert (strap : BitVec 2)
  /-- STAGE_DONE (R396). -/
  | stageDone (r : StageReport)
  /-- VERIFY (R399). -/
  | verify (a : Access)
  /-- VERIFY_DONE (R399). -/
  | verifyDone
  /-- AWAIT_RELAY (R409). -/
  | awaitRelay (a : Access)
  /-- RELAY_IMAGE (R409). -/
  | relayImage (link : Fin 16) (bytes : List Byte)
  /-- NACK_LIST (R407). -/
  | nackList (missed : List (CoreId × BitVec 16))
  /-- CHIP_RESET (R410). -/
  | chipReset (a : Access)
  /-- CLEAR_MAP (R404). -/
  | clearMap (a : Access)
  /-- CORE_RESET (R410). -/
  | coreReset (cl : Fin 64) (a : Access)
  /-- CLUSTER_RESET (R410). -/
  | clusterReset (cl : Fin 64) (a : Access)
  /-- PRESET (R410). -/
  | preset (die : Fin 8) (a : Access)
  /-- RESET_DONE (R412). -/
  | resetDone (unit : ResetUnit)
  /-- HOT_RESET (R463). -/
  | hotReset
  /-- PCIE_LINK_DOWN (R463). -/
  | pcieLinkDown
  /-- FLR (R463). -/
  | flr (func : Fin 17)
  -- Power and heat (16).
  /-- INPUT_RANGE (R429). -/
  | inputRange (mv : BitVec 16)
  /-- POWER_READING (R429). -/
  | powerReading (mv watts : BitVec 16) (joules : BitVec 64)
  /-- THERMTRIP (R428). -/
  | thermtrip (unit : HeatUnit) (temp : BitVec 8)
  /-- MODULE (R419). -/
  | module (a : Access)
  /-- PARTITION (R419). -/
  | partition (a : Access)
  /-- CEILING (R422). -/
  | ceiling (a : Access)
  /-- SCHEDULED_ACTION (R421). -/
  | scheduledAction (slot : Fin 16)
  /-- SLOT_CANCEL (R421). -/
  | slotCancel (a : Access)
  /-- TRANSITION_DONE (R420). -/
  | transitionDone
  /-- TEMP_READING (R423). -/
  | tempReading (unit : HeatUnit) (temp : BitVec 8)
  /-- STACK_STOP (R424). -/
  | stackStop (k : Fin 32)
  -- Register pages (17).
  /-- PAIR_LO_READ (R13). -/
  | pairLoRead (func : Fin 17) (page : BitVec 14) (off : BitVec 12)
  /-- PAIR_HI_READ (R13). -/
  | pairHiRead (func : Fin 17) (page : BitVec 14) (off : BitVec 12)
  /-- PAIR_LO_WRITE (R14). -/
  | pairLoWrite (page : BitVec 14) (off : BitVec 12) (a : Access)
  /-- PAIR_HI_WRITE (R14). -/
  | pairHiWrite (page : BitVec 14) (off : BitVec 12) (a : Access)
  /-- REGISTER_WRITE (R433). -/
  | registerWrite (bar : Bar) (addr : BitVec 26) (a : Access)
  /-- EVT_CLEAR (R438). -/
  | evtClear (page : BitVec 14) (a : Access)
  /-- EVT_SET (R438). -/
  | evtSet (page : BitVec 14) (a : Access)
  /-- REARM (R447). -/
  | rearm (k : Fin 8) (a : Access)
  /-- MSIX_UNMASK (R447). -/
  | msixUnmask (func : Fin 17) (vector : Option (BitVec 8))
  -- The logbook and field access (19).
  /-- LOG_STORE (R469). -/
  | logStore
  /-- RELEASE (R472). -/
  | release (a : Access)
  /-- RD_WORD (R472). -/
  | rdWord (func : Fin 17)
  /-- THRESH (R481). -/
  | thresh (a : Access)
  /-- DMA_START (R473). -/
  | dmaStart (a : Access)
  /-- DMA_DONE (R473). -/
  | dmaDone
  /-- CHALLENGE (R476). -/
  | challenge (a : Access)
  /-- RESPOND (R477). -/
  | respond (a : Access)
  /-- OPENED (R477). -/
  | opened
  /-- CLOSE (R478). -/
  | close (a : Access)
  /-- DEBUG_EXPIRY (R478). -/
  | debugExpiry
  /-- STEP (R479). -/
  | obsStep (a : Access)
  -- Test port and I3C (18, 19).
  /-- TAP_RESET (R465). -/
  | tapReset
  /-- IDCODE (R465). -/
  | idcode
  /-- BYPASS (R465). -/
  | bypass
  /-- SAMPLE_PRELOAD (R480). -/
  | samplePreload (pins shiftIn : BitVec 10)
  /-- EXTEST (R480). -/
  | extest (shiftIn : BitVec 10)
  /-- SCAN (R480). -/
  | scan
  /-- MBIST (R480). -/
  | mbist (die : Fin 8)
  /-- ENTDAA (R464). -/
  | entdaa (addr : BitVec 7)
  /-- SETDASA (R464). -/
  | setdasa (static dynamic : BitVec 7)
  /-- RSTDAA (R464). -/
  | rstdaa
  /-- GETPID (R464). -/
  | getpid
  /-- GETBCR (R464). -/
  | getbcr
  /-- GETDCR (R464). -/
  | getdcr
  /-- GETSTATUS (R464). -/
  | getstatus
  /-- ENEC (R464). -/
  | enec
  /-- DISEC (R464). -/
  | disec
  /-- I3C_WRITE (R464). -/
  | i3cWrite (bytes : List Byte)
  /-- I3C_READ (R464). -/
  | i3cRead (n : Nat)
  -- Register reads, the memory window and late rows.
  /-- REGISTER_READ (R15). -/
  | registerRead (bar : Bar) (addr : BitVec 26) (func : Fin 17)
  /-- WINDOW_ACCESS (R443). -/
  | windowAccess (func : Fin 17) (ide : Bool) (off : BitVec 36) (op : WinOp)
  /-- TRAINING_STEP_COMPLETE (R486). -/
  | trainingStepComplete (link : Fin 16) (msg : TrainReport)
  /-- SOURCE_RESET_ANNOUNCED (R64). -/
  | sourceResetAnnounced (key : ConsKey)
  /-- P48_REMOVED (R417). -/
  | p48Removed
deriving DecidableEq, Repr

end Sys2Proof
end

