-- ==== Sys2Proof/Decode.lean ====
section
/-! DEFINITION. Reading words. The rows of spec/opcode_table.json give no bits, so no table word spells a command. A core's 64-bit
instruction words (06_core_encoding) are decoded for STEP (19 R479), which fetches one from memory. -/

namespace Sys2Proof

/-- The command that a word spells by the table's bits: the table gives none. -/
def decodeTableWord (_nbits _w : Nat) : Option Instr := none

/-- Bits [lo + w - 1 : lo] of a word. -/
def wordField (w : W64) (lo n : Nat) : BitVec n := w.extractLsb' lo n

/-- The REG layout (06 R159). -/
def regFields (w : W64) : RegF :=
  { d := wordField w 52 6, a := wordField w 46 6, b := wordField w 40 6, c := wordField w 34 6, mask := wordField w 22 4,
    rm := wordField w 20 2, sat := wordField w 19 1, zm := wordField w 18 1, lane := wordField w 11 7, fmt := wordField w 7 4,
    rsv := wordField w 0 7 }
/-- The IMM layout (06 R160). -/
def immFields (w : W64) : ImmF :=
  { d := wordField w 52 6, a := wordField w 46 6, b := wordField w 40 6, rsv := wordField w 32 2, imm := wordField w 0 32 }
/-- The VMEM layout (06 R167). -/
def vmemFields (w : W64) : VmemF :=
  { v := wordField w 52 6, a := wordField w 46 6, b := wordField w 40 6, slot := wordField w 36 4, space := wordField w 35 1,
    fmt := wordField w 31 4, rm := wordField w 29 2, sat := wordField w 28 1, mx := wordField w 27 1, mask := wordField w 23 4,
    nm1 := wordField w 16 7, imm := wordField w 0 16 }
/-- The MMA layout (06 R171). -/
def mmaFields (w : W64) : MmaF :=
  { tile := wordField w 54 4, ba := wordField w 50 4, bb := wordField w 46 4, fmta := wordField w 42 4, fmtb := wordField w 38 4,
    mxa := wordField w 37 1, mxb := wordField w 36 1, mm1 := wordField w 29 7, nm1 := wordField w 22 7, km1 := wordField w 6 16,
    rsv := wordField w 0 6 }
/-- The MOVE layout (06 R177). -/
def moveFields (w : W64) : MoveF :=
  { d := wordField w 52 6, a := wordField w 46 6, b := wordField w 40 6, c := wordField w 34 6, v := wordField w 28 6,
    dk := wordField w 26 2, sk := wordField w 24 2, fmt := wordField w 20 4, sat := wordField w 19 1, rsv := wordField w 0 19 }

/-- MAJOR 0x00 (06 R164). -/
def decodeSalu (core : CoreId) (f : RegF) (minor : Nat) : Option Instr :=
  match minor with
  | 0 => some (.add core f)
  | 1 => some (.sub core f)
  | 2 => some (.and core f)
  | 3 => some (.or core f)
  | 4 => some (.xor core f)
  | 5 => some (.shl core f)
  | 6 => some (.shr core f)
  | 7 => some (.sra core f)
  | 8 => some (.slt core f)
  | 9 => some (.sltu core f)
  | 10 => some (.min core f)
  | 11 => some (.minu core f)
  | 12 => some (.max core f)
  | 13 => some (.maxu core f)
  | 16 => some (.mul core f)
  | 17 => some (.mulh core f)
  | 18 => some (.mulhu core f)
  | 20 => some (.div core f)
  | 21 => some (.divu core f)
  | 22 => some (.rem core f)
  | 23 => some (.remu core f)
  | _ => none

/-- MAJOR 0x01 (06 R164). -/
def decodeSalui (core : CoreId) (f : ImmF) (minor : Nat) : Option Instr :=
  match minor with
  | 0 => some (.addi core f)
  | 1 => some (.subi core f)
  | 2 => some (.andi core f)
  | 3 => some (.ori core f)
  | 4 => some (.xori core f)
  | 5 => some (.shli core f)
  | 6 => some (.shri core f)
  | 7 => some (.srai core f)
  | 8 => some (.slti core f)
  | 9 => some (.sltui core f)
  | 10 => some (.mini core f)
  | 11 => some (.minui core f)
  | 12 => some (.maxi core f)
  | 13 => some (.maxui core f)
  | _ => none

/-- MAJOR 0x04. -/
def decodeLd (core : CoreId) (f : ImmF) (minor : Nat) : Option Instr :=
  match minor with
  | 0 => some (.ld8 core f)
  | 1 => some (.ld8u core f)
  | 2 => some (.ld16 core f)
  | 3 => some (.ld16u core f)
  | 4 => some (.ld32 core f)
  | 5 => some (.ld32u core f)
  | 6 => some (.ld64 core f)
  | _ => none

/-- MAJOR 0x05. -/
def decodeSt (core : CoreId) (f : ImmF) (minor : Nat) : Option Instr :=
  match minor with
  | 0 => some (.st8 core f)
  | 1 => some (.st16 core f)
  | 2 => some (.st32 core f)
  | 3 => some (.st64 core f)
  | _ => none

/-- MAJOR 0x08 (06 R165). -/
def decodeBr (core : CoreId) (f : ImmF) (minor : Nat) : Option Instr :=
  match minor with
  | 0 => some (.beq core f)
  | 1 => some (.bne core f)
  | 2 => some (.blt core f)
  | 3 => some (.bge core f)
  | 4 => some (.bltu core f)
  | 5 => some (.bgeu core f)
  | _ => none

/-- MAJOR 0x10 (06 R166). -/
def decodeVfp (core : CoreId) (f : RegF) (minor : Nat) : Option Instr :=
  match minor with
  | 0 => some (.vadd core f)
  | 1 => some (.vsub core f)
  | 2 => some (.vmul core f)
  | 3 => some (.vfma core f)
  | 4 => some (.vfnma core f)
  | 5 => some (.vmax core f)
  | 6 => some (.vmin core f)
  | 7 => some (.vabs core f)
  | 8 => some (.vneg core f)
  | 9 => some (.vmov core f)
  | 10 => some (.vsel core f)
  | 11 => some (.vmulx core f)
  | 12 => some (.vmuls core f)
  | 13 => some (.vadds core f)
  | 14 => some (.vbcast core f)
  | _ => none

/-- MAJOR 0x11. -/
def decodeVint (core : CoreId) (f : RegF) (minor : Nat) : Option Instr :=
  match minor with
  | 0 => some (.viadd core f)
  | 1 => some (.visub core f)
  | 2 => some (.vimul core f)
  | 3 => some (.vand core f)
  | 4 => some (.vor core f)
  | 5 => some (.vxor core f)
  | 6 => some (.vshl core f)
  | 7 => some (.vshr core f)
  | 8 => some (.vsra core f)
  | 9 => some (.vimax core f)
  | 10 => some (.vimin core f)
  | 11 => some (.vidx core f)
  | 12 => some (.vext core f)
  | _ => none

/-- MAJOR 0x12. -/
def decodeVcmp (core : CoreId) (f : RegF) (minor : Nat) : Option Instr :=
  match minor with
  | 0 => some (.feq core f)
  | 1 => some (.fne core f)
  | 2 => some (.flt core f)
  | 3 => some (.fle core f)
  | 4 => some (.ieq core f)
  | 5 => some (.ine core f)
  | 6 => some (.ilt core f)
  | 7 => some (.ile core f)
  | 8 => some (.iltu core f)
  | 16 => some (.mand core f)
  | 17 => some (.mor core f)
  | 18 => some (.mxor core f)
  | 19 => some (.mandn core f)
  | 20 => some (.mlen core f)
  | _ => none

/-- MAJOR 0x13. -/
def decodeVred (core : CoreId) (f : RegF) (minor : Nat) : Option Instr :=
  match minor with
  | 0 => some (.vrsum core f)
  | 1 => some (.vrmax core f)
  | 2 => some (.vrmin core f)
  | 3 => some (.vrisum core f)
  | _ => none

/-- MAJOR 0x14. -/
def decodeVcvt (core : CoreId) (f : RegF) (minor : Nat) : Option Instr :=
  match minor with
  | 0 => some (.f2i core f)
  | 1 => some (.i2f core f)
  | 2 => some (.qnt core f)
  | _ => none

/-- MAJOR 0x23 (06 R173). -/
def decodeAcc (core : CoreId) (f : RegF) (minor : Nat) : Option Instr :=
  match minor with
  | 0 => some (.aread core f)
  | 1 => some (.awrite core f)
  | 2 => some (.azero core f)
  | _ => none

/-- MAJOR 0x2A (06 R176). -/
def decodeRstat (core : CoreId) (f : RegF) (minor : Nat) : Option Instr :=
  match minor with
  | 0 => some (.rsw core f)
  | 1 => some (.rsc core f)
  | 2 => some (.rsrd core f)
  | 3 => some (.rsclr core f)
  | 4 => some (.smx core f)
  | 5 => some (.smxf core f)
  | _ => none

/-- MAJOR 0x3C (06 R179). -/
def decodeSys (core : CoreId) (f : ImmF) (minor : Nat) : Option Instr :=
  match minor with
  | 0 => some (.halt core f)
  | 1 => some (.signal core f)
  | 2 => some (.fence core f)
  | 3 => some (.synci core f)
  | 4 => some (.rdfl core f)
  | 5 => some (.wrfl core f)
  | _ => none

/-- MAJOR 0x3D (06 R180). -/
def decodeMon (core : CoreId) (f : ImmF) (minor : Nat) : Option Instr :=
  match minor with
  | 0 => some (.mret core f)
  | 1 => some (.mcsr core f)
  | 2 => some (.mlog core f)
  | 3 => some (.mtbl core f)
  | _ => none

/-- The function numbers of SFN and SFG (06 R174). -/
def fnListed (fn : Nat) : Bool := fn < 2 || (0x10 ≤ fn && fn ≤ 0x16) || (0x40 ≤ fn && fn < 0x80)

/-- A core's instruction word (06 R158). None: a reserved MAJOR, or a MINOR or FN that its MAJOR does not list (06 R161). -/
def decodeCoreWord (core : CoreId) (w : W64) : Option Instr :=
  let r := regFields w
  let i := immFields w
  let rminor := (wordField w 26 8).toNat
  let iminor := (wordField w 34 6).toNat
  match (wordField w 58 6).toNat with
  | 0x00 => decodeSalu core r rminor
  | 0x01 => decodeSalui core i iminor
  | 0x02 => if iminor = 0 then some (.sethi core i) else none
  | 0x04 => decodeLd core i iminor
  | 0x05 => decodeSt core i iminor
  | 0x08 => decodeBr core i iminor
  | 0x09 => if iminor = 0 then some (.jal core i) else none
  | 0x0A => if iminor = 0 then some (.jalr core i) else none
  | 0x10 => decodeVfp core r rminor
  | 0x11 => decodeVint core r rminor
  | 0x12 => decodeVcmp core r rminor
  | 0x13 => decodeVred core r rminor
  | 0x14 => decodeVcvt core r rminor
  | 0x18 => some (.vld core (vmemFields w))
  | 0x19 => some (.vst core (vmemFields w))
  | 0x20 => some (.mma core (mmaFields w))
  | 0x21 => some (.mmaZ core (mmaFields w))
  | 0x23 => decodeAcc core r rminor
  | 0x24 => if rminor = 0 then some (.plist core r) else none
  | 0x28 => if fnListed rminor then some (.sfn core (wordField w 26 8) r) else none
  | 0x29 => if fnListed rminor then some (.sfg core (wordField w 26 8) r) else none
  | 0x2A => decodeRstat core r rminor
  | 0x30 => some (.move core (moveFields w))
  | 0x31 => if iminor = 0 then some (.mwait core i) else none
  | 0x38 => if iminor = 0 then some (.badd core i) else none
  | 0x39 => if iminor = 0 then some (.twait core i) else if iminor = 1 then some (.rdtide core i) else none
  | 0x3A => if iminor = 0 then some (.confirm core i) else none
  | 0x3C => decodeSys core i iminor
  | 0x3D => decodeMon core i iminor
  | _ => none

/-! The words of a core's instructions, from the same layouts. -/

/-- The REG layout (06 R159). -/
def encodeReg (major : BitVec 6) (minor : BitVec 8) (f : RegF) : W64 :=
  major ++ f.d ++ f.a ++ f.b ++ f.c ++ minor ++ f.mask ++ f.rm ++ f.sat ++ f.zm ++ f.lane ++ f.fmt ++ f.rsv

/-- The IMM layout (06 R160). -/
def encodeImm (major minor : BitVec 6) (f : ImmF) : W64 := major ++ f.d ++ f.a ++ f.b ++ minor ++ f.rsv ++ f.imm

/-- The VMEM layout (06 R167). -/
def encodeVmem (major : BitVec 6) (f : VmemF) : W64 :=
  major ++ f.v ++ f.a ++ f.b ++ f.slot ++ f.space ++ f.fmt ++ f.rm ++ f.sat ++ f.mx ++ f.mask ++ f.nm1 ++ f.imm

/-- The MMA layout (06 R171). -/
def encodeMma (major : BitVec 6) (f : MmaF) : W64 :=
  major ++ f.tile ++ f.ba ++ f.bb ++ f.fmta ++ f.fmtb ++ f.mxa ++ f.mxb ++ f.mm1 ++ f.nm1 ++ f.km1 ++ f.rsv

/-- The MOVE layout (06 R177). -/
def encodeMove (major : BitVec 6) (f : MoveF) : W64 :=
  major ++ f.d ++ f.a ++ f.b ++ f.c ++ f.v ++ f.dk ++ f.sk ++ f.fmt ++ f.sat ++ f.rsv

/-- The core that runs an instruction and the word that spells it (06 R158): none for the commands that no word spells, and for a
function number that SFN and SFG do not list. -/
def encodeCoreWord (i : Instr) : Option (CoreId × W64) :=
  match i with
  | .add core f => some (core, encodeReg 0x00 0 f)
  | .sub core f => some (core, encodeReg 0x00 1 f)
  | .and core f => some (core, encodeReg 0x00 2 f)
  | .or core f => some (core, encodeReg 0x00 3 f)
  | .xor core f => some (core, encodeReg 0x00 4 f)
  | .shl core f => some (core, encodeReg 0x00 5 f)
  | .shr core f => some (core, encodeReg 0x00 6 f)
  | .sra core f => some (core, encodeReg 0x00 7 f)
  | .slt core f => some (core, encodeReg 0x00 8 f)
  | .sltu core f => some (core, encodeReg 0x00 9 f)
  | .min core f => some (core, encodeReg 0x00 10 f)
  | .minu core f => some (core, encodeReg 0x00 11 f)
  | .max core f => some (core, encodeReg 0x00 12 f)
  | .maxu core f => some (core, encodeReg 0x00 13 f)
  | .mul core f => some (core, encodeReg 0x00 16 f)
  | .mulh core f => some (core, encodeReg 0x00 17 f)
  | .mulhu core f => some (core, encodeReg 0x00 18 f)
  | .div core f => some (core, encodeReg 0x00 20 f)
  | .divu core f => some (core, encodeReg 0x00 21 f)
  | .rem core f => some (core, encodeReg 0x00 22 f)
  | .remu core f => some (core, encodeReg 0x00 23 f)
  | .addi core f => some (core, encodeImm 0x01 0 f)
  | .subi core f => some (core, encodeImm 0x01 1 f)
  | .andi core f => some (core, encodeImm 0x01 2 f)
  | .ori core f => some (core, encodeImm 0x01 3 f)
  | .xori core f => some (core, encodeImm 0x01 4 f)
  | .shli core f => some (core, encodeImm 0x01 5 f)
  | .shri core f => some (core, encodeImm 0x01 6 f)
  | .srai core f => some (core, encodeImm 0x01 7 f)
  | .slti core f => some (core, encodeImm 0x01 8 f)
  | .sltui core f => some (core, encodeImm 0x01 9 f)
  | .mini core f => some (core, encodeImm 0x01 10 f)
  | .minui core f => some (core, encodeImm 0x01 11 f)
  | .maxi core f => some (core, encodeImm 0x01 12 f)
  | .maxui core f => some (core, encodeImm 0x01 13 f)
  | .ld8 core f => some (core, encodeImm 0x04 0 f)
  | .ld8u core f => some (core, encodeImm 0x04 1 f)
  | .ld16 core f => some (core, encodeImm 0x04 2 f)
  | .ld16u core f => some (core, encodeImm 0x04 3 f)
  | .ld32 core f => some (core, encodeImm 0x04 4 f)
  | .ld32u core f => some (core, encodeImm 0x04 5 f)
  | .ld64 core f => some (core, encodeImm 0x04 6 f)
  | .st8 core f => some (core, encodeImm 0x05 0 f)
  | .st16 core f => some (core, encodeImm 0x05 1 f)
  | .st32 core f => some (core, encodeImm 0x05 2 f)
  | .st64 core f => some (core, encodeImm 0x05 3 f)
  | .beq core f => some (core, encodeImm 0x08 0 f)
  | .bne core f => some (core, encodeImm 0x08 1 f)
  | .blt core f => some (core, encodeImm 0x08 2 f)
  | .bge core f => some (core, encodeImm 0x08 3 f)
  | .bltu core f => some (core, encodeImm 0x08 4 f)
  | .bgeu core f => some (core, encodeImm 0x08 5 f)
  | .vadd core f => some (core, encodeReg 0x10 0 f)
  | .vsub core f => some (core, encodeReg 0x10 1 f)
  | .vmul core f => some (core, encodeReg 0x10 2 f)
  | .vfma core f => some (core, encodeReg 0x10 3 f)
  | .vfnma core f => some (core, encodeReg 0x10 4 f)
  | .vmax core f => some (core, encodeReg 0x10 5 f)
  | .vmin core f => some (core, encodeReg 0x10 6 f)
  | .vabs core f => some (core, encodeReg 0x10 7 f)
  | .vneg core f => some (core, encodeReg 0x10 8 f)
  | .vmov core f => some (core, encodeReg 0x10 9 f)
  | .vsel core f => some (core, encodeReg 0x10 10 f)
  | .vmulx core f => some (core, encodeReg 0x10 11 f)
  | .vmuls core f => some (core, encodeReg 0x10 12 f)
  | .vadds core f => some (core, encodeReg 0x10 13 f)
  | .vbcast core f => some (core, encodeReg 0x10 14 f)
  | .viadd core f => some (core, encodeReg 0x11 0 f)
  | .visub core f => some (core, encodeReg 0x11 1 f)
  | .vimul core f => some (core, encodeReg 0x11 2 f)
  | .vand core f => some (core, encodeReg 0x11 3 f)
  | .vor core f => some (core, encodeReg 0x11 4 f)
  | .vxor core f => some (core, encodeReg 0x11 5 f)
  | .vshl core f => some (core, encodeReg 0x11 6 f)
  | .vshr core f => some (core, encodeReg 0x11 7 f)
  | .vsra core f => some (core, encodeReg 0x11 8 f)
  | .vimax core f => some (core, encodeReg 0x11 9 f)
  | .vimin core f => some (core, encodeReg 0x11 10 f)
  | .vidx core f => some (core, encodeReg 0x11 11 f)
  | .vext core f => some (core, encodeReg 0x11 12 f)
  | .feq core f => some (core, encodeReg 0x12 0 f)
  | .fne core f => some (core, encodeReg 0x12 1 f)
  | .flt core f => some (core, encodeReg 0x12 2 f)
  | .fle core f => some (core, encodeReg 0x12 3 f)
  | .ieq core f => some (core, encodeReg 0x12 4 f)
  | .ine core f => some (core, encodeReg 0x12 5 f)
  | .ilt core f => some (core, encodeReg 0x12 6 f)
  | .ile core f => some (core, encodeReg 0x12 7 f)
  | .iltu core f => some (core, encodeReg 0x12 8 f)
  | .mand core f => some (core, encodeReg 0x12 16 f)
  | .mor core f => some (core, encodeReg 0x12 17 f)
  | .mxor core f => some (core, encodeReg 0x12 18 f)
  | .mandn core f => some (core, encodeReg 0x12 19 f)
  | .mlen core f => some (core, encodeReg 0x12 20 f)
  | .vrsum core f => some (core, encodeReg 0x13 0 f)
  | .vrmax core f => some (core, encodeReg 0x13 1 f)
  | .vrmin core f => some (core, encodeReg 0x13 2 f)
  | .vrisum core f => some (core, encodeReg 0x13 3 f)
  | .f2i core f => some (core, encodeReg 0x14 0 f)
  | .i2f core f => some (core, encodeReg 0x14 1 f)
  | .qnt core f => some (core, encodeReg 0x14 2 f)
  | .aread core f => some (core, encodeReg 0x23 0 f)
  | .awrite core f => some (core, encodeReg 0x23 1 f)
  | .azero core f => some (core, encodeReg 0x23 2 f)
  | .rsw core f => some (core, encodeReg 0x2A 0 f)
  | .rsc core f => some (core, encodeReg 0x2A 1 f)
  | .rsrd core f => some (core, encodeReg 0x2A 2 f)
  | .rsclr core f => some (core, encodeReg 0x2A 3 f)
  | .smx core f => some (core, encodeReg 0x2A 4 f)
  | .smxf core f => some (core, encodeReg 0x2A 5 f)
  | .halt core f => some (core, encodeImm 0x3C 0 f)
  | .signal core f => some (core, encodeImm 0x3C 1 f)
  | .fence core f => some (core, encodeImm 0x3C 2 f)
  | .synci core f => some (core, encodeImm 0x3C 3 f)
  | .rdfl core f => some (core, encodeImm 0x3C 4 f)
  | .wrfl core f => some (core, encodeImm 0x3C 5 f)
  | .mret core f => some (core, encodeImm 0x3D 0 f)
  | .mcsr core f => some (core, encodeImm 0x3D 1 f)
  | .mlog core f => some (core, encodeImm 0x3D 2 f)
  | .mtbl core f => some (core, encodeImm 0x3D 3 f)
  | .sethi core f => some (core, encodeImm 0x02 0 f)
  | .jal core f => some (core, encodeImm 0x09 0 f)
  | .jalr core f => some (core, encodeImm 0x0A 0 f)
  | .mwait core f => some (core, encodeImm 0x31 0 f)
  | .badd core f => some (core, encodeImm 0x38 0 f)
  | .twait core f => some (core, encodeImm 0x39 0 f)
  | .rdtide core f => some (core, encodeImm 0x39 1 f)
  | .confirm core f => some (core, encodeImm 0x3A 0 f)
  | .plist core f => some (core, encodeReg 0x24 0 f)
  | .vld core f => some (core, encodeVmem 0x18 f)
  | .vst core f => some (core, encodeVmem 0x19 f)
  | .mma core f => some (core, encodeMma 0x20 f)
  | .mmaZ core f => some (core, encodeMma 0x21 f)
  | .sfn core fn f => if fnListed fn.toNat then some (core, encodeReg 0x28 fn f) else none
  | .sfg core fn f => if fnListed fn.toNat then some (core, encodeReg 0x29 fn f) else none
  | .move core f => some (core, encodeMove 0x30 f)
  | _ => none

end Sys2Proof
end

