-- ==== Sys2Proof/Config.lean ====
section
/-! DEFINITION. What an implementation fixes and the values the spec leaves open, as uninterpreted constants. -/

namespace Sys2Proof.Config

/-- The free values of registers and memory that the spec calls undefined (02 R79, 10 R284, 18 R453, …): the n-th fresh
value; `State.fresh` counts them (log 6). -/
opaque freeValue : Nat → BitVec 64

/-- The XF40/FP32 working value of a function whose tables only the vendor holds (07 R194, R195), as FP32 bits of the class
result: function number, output class, rounding mode, saturation, FP32 input (log 20). -/
opaque functionValue : (fn cls rm : Nat) → (sat : Bool) → BitVec 32 → BitVec 32

/-- The AFLAGS contribution of that rounding (07 R191; log 20). -/
opaque functionFlags : (fn cls rm : Nat) → (sat : Bool) → BitVec 32 → BitVec 32

/-- The gated product of SFG for such a function: as `functionValue`, with the gate's FP32 bits first (07 R190; log 20). -/
opaque gatedValue : (gate : BitVec 32) → (fn cls rm : Nat) → (sat : Bool) → BitVec 32 → BitVec 32

/-- The AFLAGS contribution of that gated rounding (log 20). -/
opaque gatedFlags : (gate : BitVec 32) → (fn cls rm : Nat) → (sat : Bool) → BitVec 32 → BitVec 32

/-- The table space, in KiB, of a standard function, which the manual does not give (07 R198, R199; log 20). -/
opaque stdSpace : (fn : Nat) → Nat

/-- AES-256-GCM key stream of a link key, as 32-bit words: key, 96-bit nonce, word index (11 R309; log 21). -/
opaque keystream : (key : Nat) → BitVec 96 → Nat → BitVec 32

/-- AES-256-GCM tag: key, nonce, additional data, ciphertext words (11 R309; log 21). -/
opaque gcmTag : (key : Nat) → BitVec 96 → List Byte → List (BitVec 32) → BitVec 128

/-- AES-256-XTS ciphertext byte of one 32-byte unit: key, tweak, the unit's bytes, byte index (14 R381; log 21). -/
opaque xtsByte : (key : Nat) → BitVec 128 → List Byte → Nat → Byte

/-- SHAKE256 with `n` bytes of output (11, 14, 15, 19; log 21). -/
opaque shake256 : List Byte → (n : Nat) → List Byte

/-- Falcon-1024 verification: key bytes, message, signature (15 R399, 19 R477; log 21). -/
opaque falconVerify : List Byte → List Byte → List Byte → Bool

/-- The vendor's public key in the boot ROM (15 R399; log 21). -/
opaque vendorKey : List Byte

/-- Falcon-1024 signature by the identity key over a transcript (14 R389; log 21). -/
opaque identitySign : List Byte → List Byte

/-- The identity digest shown in IDENT (14 R387; log 21). -/
opaque identityDigest : List Byte

/-- The certificate chain of slot 0 (14 R387, R388; log 21). -/
opaque certificate : List Byte

/-- The n-th value of the random bit generator, as bytes (14 R380; log 21). -/
opaque drbg : (n len : Nat) → List Byte

/-- The encapsulation key of the berth key pair with identifier `k` (14 R380; log 21). -/
opaque encapsKey : (k : Nat) → List Byte

/-- ML-KEM-1024 decapsulation by key pair `k`: the shared secret, or none when it fails (14 R384; log 21). -/
opaque decaps : (k : Nat) → List Byte → Option (List Byte)

/-- Sealed link-key blob for an encapsulation key (14 R383; log 21). -/
opaque sealKey : (linkKey : Nat) → List Byte → List Byte

/-- The link key installed by a blob on key pair `k`, or none when its checks fail (14 R383; log 21). -/
opaque unsealKey : (k : Nat) → List Byte → Option Nat

/-- Whether a session message's tag is good under session `n` (14 R384; log 21). -/
opaque sessionTagOk : (n : Nat) → List Byte → Bool

/-- The confirmation tag answered by OPEN_SESSION (14 R384; log 21). -/
opaque sessionConfirm : List Byte → List Byte

/-- The boot ROM's digest, measurement 1 (14 R389; log 21). -/
opaque romDigest : List Byte

/-- The berth that a PF measurement request names, which the manual leaves to the request's index (14 R389; log 22). -/
opaque measuredBerth : List Byte → Option (Fin 16)

/-- The bytes of an SPDM response body that the SPDM specification, not the manual, fixes (14 R388; log 22). -/
opaque spdmBody : (code : Nat) → List Byte → List Byte

/-- The 48-bit provisioned identifier, bus characteristics and device characteristics answered on I3C, which the manual does
not give (18 R464; log 23). -/
opaque i3cPid : BitVec 48
opaque i3cBcr : Byte
opaque i3cDcr : Byte
/-- The two status bytes of GETSTATUS (18 R464; log 23). -/
opaque i3cStatus : BitVec 16

/-- The 32-bit result of MBIST on a die (19 R480 gives its width only; log 23). -/
opaque mbistResult : (die : Nat) → BitVec 32

/-- The creation digest's byte layout is internal (10 R265): the digest of this chip's group entry; arguments: member ids,
COUNT, KEEL, SIZED, DEPTH, CHUNK_LOG2, THRESH as one list (log 24). -/
opaque digestBytes : List Nat → List Byte

/-- Whether a channel's checker finds a mismatch is silicon; the pattern words themselves are the spec's. The extents a flash
object of a size gets as its handle (12 R317 gives the handle's width only; log 25). -/
opaque flashHandle : (obj gen : Nat) → BitVec 32

end Sys2Proof.Config
end

