-- ==== Sys2Proof/Machine/RegMap.lean ====
section
/-! DEFINITION. The register pages of BAR0 (17_register_pages R437, R451 and the page tables of every chapter): which page lies at
an index, and for each kind of page its registers: offset, access, the bits a write stores, reset value. -/

namespace Sys2Proof.Machine

/-- The kinds of page (17 R451). -/
inductive PageKind where
  | global | ident | boot | tide | power | therm | sec | debug | log | berth | lnk | topo | cq | gtab | hs | flash | ftl
  | tier | sketch | cl | cd | ferry | slip | core
deriving DecidableEq, Repr

/-- Page indexes of the pages that exist once (17 R451). -/
abbrev pgGlobal : Nat := 0x000
abbrev pgIdent : Nat := 0x001
abbrev pgBoot : Nat := 0x002
abbrev pgTide : Nat := 0x004
abbrev pgPower : Nat := 0x008
abbrev pgTherm : Nat := 0x00C
abbrev pgSec : Nat := 0x010
abbrev pgDebug : Nat := 0x014
abbrev pgLog : Nat := 0x018
abbrev pgTopo : Nat := 0x050
abbrev pgFlash : Nat := 0x220
abbrev pgFtl : Nat := 0x221
abbrev pgTier : Nat := 0x230
abbrev pgSketch : Nat := 0x240
/-- Page indexes of the pages that exist once per unit. -/
def pgBerth (b : Nat) : Nat := 0x020 + b
def pgLnk (n : Nat) : Nat := 0x040 + n
def pgCq (g : Nat) : Nat := 0x100 + g
def pgGtab (g : Nat) : Nat := 0x140 + g / 8
def pgHs (k : Nat) : Nat := 0x200 + k
def pgCl (n : Nat) : Nat := 0x300 + n
def pgCd (n : Nat) : Nat := 0x340 + n
def pgFerry (f : Nat) : Nat := 0x400 + 32 * f
def pgCore (id : Nat) : Nat := 0x1000 + id
/-- The page with the port block of port `p`: a link's page or a die's (02 R82). -/
def pgPort (p : Nat) : Nat := if p < 16 then pgLnk p else pgCd (p - 16)

/-- The page at an index, with its instance (17 R451); none where no page lies. -/
def pageAt (p : Nat) : Option (PageKind × Nat) :=
  if p = 0x000 then some (.global, 0)
  else if p = 0x001 then some (.ident, 0)
  else if p = 0x002 then some (.boot, 0)
  else if p = 0x004 then some (.tide, 0)
  else if p = 0x008 then some (.power, 0)
  else if p = 0x00C then some (.therm, 0)
  else if p = 0x010 then some (.sec, 0)
  else if p = 0x014 then some (.debug, 0)
  else if p = 0x018 then some (.log, 0)
  else if 0x020 ≤ p && p < 0x030 then some (.berth, p - 0x020)
  else if 0x040 ≤ p && p < 0x050 then some (.lnk, p - 0x040)
  else if p = 0x050 then some (.topo, 0)
  else if 0x100 ≤ p && p < 0x140 then some (.cq, p - 0x100)
  else if 0x140 ≤ p && p < 0x148 then some (.gtab, p - 0x140)
  else if 0x200 ≤ p && p < 0x220 then some (.hs, p - 0x200)
  else if p = 0x220 then some (.flash, 0)
  else if p = 0x221 then some (.ftl, 0)
  else if p = 0x230 then some (.tier, 0)
  else if p = 0x240 then some (.sketch, 0)
  else if 0x300 ≤ p && p < 0x340 then some (.cl, p - 0x300)
  else if 0x340 ≤ p && p < 0x348 then some (.cd, p - 0x340)
  else if 0x400 ≤ p && p < 0x500 then
    (if (p - 0x400) % 32 = 0 then some (.ferry, (p - 0x400) / 32) else some (.slip, p - 0x400))
  else if 0x1000 ≤ p && p < 0x2000 then
    (if (p - 0x1000) % 64 < 48 then some (.core, p - 0x1000) else none)
  else none

/-- ID.TYPE (17 R451). -/
def pageType : PageKind → Nat
  | .global => 0x001 | .ident => 0x002 | .boot => 0x003 | .tide => 0x004 | .power => 0x005 | .therm => 0x006
  | .sec => 0x007 | .debug => 0x008 | .log => 0x009 | .berth => 0x010 | .lnk => 0x011 | .topo => 0x012 | .cq => 0x013
  | .gtab => 0x014 | .hs => 0x020 | .flash => 0x021 | .ftl => 0x022 | .tier => 0x023 | .sketch => 0x024 | .cl => 0x030
  | .cd => 0x031 | .ferry => 0x040 | .slip => 0x041 | .core => 0x050

/-- ID.INSTANCE: the core number for a core page, the unit's index otherwise (17 R451). -/
def pageInstance (k : PageKind) (n : Nat) : Nat :=
  match k with
  | .core => n % 64
  | .ferry => n
  | .slip => n
  | .global | .ident | .boot | .tide | .power | .therm | .sec | .debug | .log | .berth | .lnk | .topo | .cq | .gtab
  | .hs | .flash | .ftl | .tier | .sketch | .cl | .cd => n

/-- The ID word (17 R437): revision 0x01, layout 1, instance, type. -/
def pageId (k : PageKind) (n : Nat) : Nat := 0x101 + pageInstance k n * 2 ^ 12 + pageType k * 2 ^ 20

/-- The CAPS word of each kind of page, from the field tables of its chapter. -/
def pageCaps : PageKind → Nat
  | .global => 16384 + 16 * 2 ^ 16 + 148 * 2 ^ 21
  | .ident => 0
  | .boot => 32768 + 15 * 2 ^ 16 + 192 * 2 ^ 20
  | .tide => 2 * 2 ^ 5 + 200 * 2 ^ 9 + 16 * 2 ^ 17 + 20 * 2 ^ 22 + 16 * 2 ^ 27
  | .power => 16 + 1200 * 2 ^ 8 + 3300 * 2 ^ 20
  | .therm => 32 + 95 * 2 ^ 8 + 105 * 2 ^ 16
  | .sec => 16 + 2 ^ 5
  | .debug => 3 + 16 * 2 ^ 2 + 42 * 2 ^ 7
  | .log => 32768 + 32 * 2 ^ 16
  | .berth => 16
  | .lnk => 8 + 2 ^ 4 + 64 * 2 ^ 8
  | .topo => 16 + 4 * 2 ^ 5 + 14 * 2 ^ 8 + 17 * 2 ^ 12
  | .cq => 16 + 4 * 2 ^ 5
  | .gtab => 8 + 8 * 2 ^ 8 + 2 * 2 ^ 12 + 8 * 2 ^ 16 + 18 * 2 ^ 20 + 24 * 2 ^ 25
  | .hs => 32 + 64 * 2 ^ 8 + 3200 * 2 ^ 16
  | .flash => 16
  | .ftl => 0
  | .tier => 64 + 16 * 2 ^ 8 + 20 * 2 ^ 16
  | .sketch => 64 + 0xF * 2 ^ 7 + 24 * 2 ^ 11 + 24 * 2 ^ 16
  | .cl => 48 + 4 * 2 ^ 6 + 352 * 2 ^ 9 + 11 * 2 ^ 18
  | .cd => 8 + 4 * 2 ^ 4
  | .ferry => 1953 + 20 * 2 ^ 16 + 8 * 2 ^ 24
  | .slip => 0
  | .core => 2 + 16 * 2 ^ 8 + 8 * 2 ^ 16

/-- The implemented EVT bits of each kind of page (R52, R85, R157, R262, R289, R312, R332, R339, R340, R372, R393, R394, R415,
R416, R430, R431, R449, R481, R482 and the event tables beside them). -/
def pageEvtMask : PageKind → Nat
  | .global => 0x1 | .ident => 0 | .boot => 0x3F | .tide => 0xFFF | .power => 0x1F | .therm => 0x3F | .sec => 0x1F
  | .debug => 0x7 | .log => 0xF | .berth => 0x1F | .lnk => 0xF00000FF | .topo => 0x7 | .cq => 0x7F | .gtab => 0x3F
  | .hs => 0x7 | .flash => 0x7 | .ftl => 0x1 | .tier => 0x1F | .sketch => 0x7F | .cl => 0xF | .cd => 0xF0000001
  | .ferry => 0x7F | .slip => 0 | .core => 0x1F

/-- The codes an EVT bit can carry, lowest first; none for a bit without a code. Where the list is longer than one, which code
a forced bit loads (R438) is open (log 30). -/
def evtCodes (k : PageKind) (bit : Nat) : List Nat :=
  match k with
  | .global => if bit = 0 then [0x1008] else []
  | .boot => match bit with
    | 0 => [0xB001, 0xB002, 0xB003] | 2 => [0xB004] | 3 => [0xB005] | 4 => [0xB009] | 5 => [0xB00B] | _ => []
  | .tide => if bit < 9 then [0x4001 + bit] else []
  | .power => match bit with
    | 1 => [0xA001] | 2 => [0xA002] | 3 => [0xA008] | 4 => [0xA009] | _ => []
  | .therm => match bit with
    | 0 => [0xA003] | 1 => [0xA004] | 2 => [0xA005] | 4 => [0xA006] | 5 => [0xA007] | _ => []
  | .sec => match bit with
    | 0 => [0x9001] | 1 => [0x9004] | 2 => [0x9005] | 3 => [0x9006] | 4 => [0x9007] | _ => []
  | .berth => match bit with
    | 1 => [0x9002] | 3 => [0x9003] | 4 => [0x9005] | _ => []
  | .lnk => match bit with
    | 1 => [0x5001] | 2 => [0x5002] | 3 => [0x5003] | 4 => [0x5004] | 5 => [0x5005] | 6 => [0x5007] | 7 => [0x5009]
    | 28 => [0x3002] | 29 => [0x3001, 0x3006] | 30 => [0x3003, 0x3004] | 31 => [0x3005] | _ => []
  | .topo => match bit with
    | 1 => [0x5008] | 2 => [0x5006] | _ => []
  | .cq => match bit with
    | 1 => [0x6201] | 2 => [0x6202] | 3 => [0x6204] | 4 => [0x6002] | 5 => [0x6001] | 6 => [0x6206] | _ => []
  | .gtab => match bit with
    | 1 => [0x6203] | 2 => [0x6002] | 3 => [0x6001] | 4 => [0x6205] | 5 => [0x6207] | _ => []
  | .hs => match bit with
    | 0 => [0x700A] | 2 => [0x700B] | _ => []
  | .flash => match bit with
    | 0 => [0x7001] | 1 => [0x700C] | 2 => [0x7008] | _ => []
  | .ftl => if bit = 0 then [0x7009] else []
  | .tier => match bit with
    | 1 => [0x7001] | 2 => [0x7002] | 3 => [0x2107, 0x7007] | 4 => [0x7006] | _ => []
  | .sketch => match bit with
    | 3 => [0x8005] | 4 => [0x8001] | 5 => [0x8002] | 6 => [0x8004] | _ => []
  | .cl => match bit with
    | 1 => [0xB006] | 2 => [0xB007] | 3 => [0xB008] | _ => []
  | .cd => match bit with
    | 28 => [0x3002] | 29 => [0x3001, 0x3006] | 30 => [0x3003, 0x3004] | 31 => [0x3005] | _ => []
  | .ferry => match bit with
    | 1 => [0x6101] | 2 => [0x6102] | 3 => [0x6001] | 4 => [0x6103] | 5 => [0x6104] | 6 => [0x6105] | _ => []
  | .core => match bit with
    | 2 => [0x1001, 0x1002, 0x1003, 0x1004, 0x1005, 0x1006, 0x2101, 0x2102, 0x2103, 0x2104, 0x2105, 0x2106, 0x400A,
        0x400B, 0xC001]
    | 4 => [0x1007] | _ => []
  | .ident | .debug | .log | .slip => []

/-- Access of a register to software (17 R433): RO, RW, RWL (RW unless KEYLOCK holds the page, R441), WO. -/
inductive RegKind where
  | ro | rw | rwl | wo
deriving DecidableEq, Repr

/-- One row of a page's table: `n` registers from `off`, `stride` bytes apart; `pair`: a LO/HI pair (00 R13), with mask and
reset of 64 bits; `mask`: the bits a write stores, so that reserved bits and bits stored as zero stay zero; `resetStep`: what
the reset value adds from one register to the next. -/
structure RegRow where
  off : Nat
  n : Nat
  stride : Nat
  kind : RegKind
  pair : Bool
  mask : Nat
  reset : Nat
  resetStep : Nat
deriving DecidableEq, Repr

def rowRo (off : Nat) (n : Nat := 1) (stride : Nat := 4) (reset : Nat := 0) : RegRow :=
  { off := off, n := n, stride := stride, kind := .ro, pair := false, mask := 0, reset := reset, resetStep := 0 }
def rowRo64 (off : Nat) (n : Nat := 1) (stride : Nat := 8) : RegRow :=
  { off := off, n := n, stride := stride, kind := .ro, pair := true, mask := 0, reset := 0, resetStep := 0 }
def rowRw (off mask : Nat) (reset : Nat := 0) (n : Nat := 1) (stride : Nat := 4) : RegRow :=
  { off := off, n := n, stride := stride, kind := .rw, pair := false, mask := mask, reset := reset, resetStep := 0 }
def rowRw64 (off mask : Nat) (n : Nat := 1) (stride : Nat := 8) : RegRow :=
  { off := off, n := n, stride := stride, kind := .rw, pair := true, mask := mask, reset := 0, resetStep := 0 }
def rowRwl (off mask : Nat) (reset : Nat := 0) (n : Nat := 1) (stride : Nat := 4) : RegRow :=
  { off := off, n := n, stride := stride, kind := .rwl, pair := false, mask := mask, reset := reset, resetStep := 0 }
def rowRwl64 (off mask : Nat) (n : Nat := 1) (stride : Nat := 8) : RegRow :=
  { off := off, n := n, stride := stride, kind := .rwl, pair := true, mask := mask, reset := 0, resetStep := 0 }
def rowWo (off : Nat) (n : Nat := 1) (stride : Nat := 4) : RegRow :=
  { off := off, n := n, stride := stride, kind := .wo, pair := false, mask := 0, reset := 0, resetStep := 0 }

/-- All ones of 32 and of 64 bits. -/
abbrev m32 : Nat := 0xFFFFFFFF
abbrev m64 : Nat := 0xFFFFFFFFFFFFFFFF

/-- CTRL of each kind of page: access, stored bits, reset. -/
def ctrlRow : PageKind → RegRow
  | .tide => rowRw 0x008 0xFF07 0xC804
  | .ferry => rowRwl 0x008 0x3F03
  | .cq => rowRwl 0x008 1
  | .lnk => rowRw 0x008 0x1B 2
  | .topo => rowRw 0x008 3 3
  | .hs => rowRw 0x008 1
  | .flash => rowRw 0x008 1
  | .ftl => rowRw 0x008 1 1
  | .tier => rowRw 0x008 0xFF01 0x4000
  | .sec => rowRw 0x008 1
  | .boot => rowRw 0x008 1 1
  | .log => rowRw 0x008 1
  | .core => rowWo 0x008
  | .global | .ident | .power | .therm | .debug | .berth | .gtab | .sketch | .cl | .cd | .slip => rowRo 0x008

/-- The header of every page (17 R437). -/
def headerRows (k : PageKind) : List RegRow :=
  [ rowRo 0x000, rowRo 0x004, ctrlRow k, rowRo 0x00C, rowRw 0x010 0, rowRw 0x014 (pageEvtMask k), rowWo 0x018, rowRo 0x01C,
    rowRo64 0x020, rowRo 0x028, rowRo 0x02C, rowRo 0x030 4 ]

/-- The port block (02, The quay registers): QWIN, QTHRESH, QBLOCK, QLAST, CONFIRMED, REPLAYS, EXHAUSTED, HELD. -/
def portRows : List RegRow :=
  [ rowRw 0x400 0x107 0x144, rowRw 0x404 m32 0x00100040, rowRo 0x408, rowRo 0x40C, rowRo64 0x410, rowRo64 0x418, rowRo 0x420,
    rowRo 0x424 ]

/-- The block fields of each kind of page, in the order of its chapter's table. -/
def blockRows : PageKind → List RegRow
  | .global => [ rowRo 0x040, rowRo 0x044, rowRo 0x048, rowRw 0x04C m32 ]
  | .ident =>
    [ rowRo 0x040 8, rowRo 0x060 1 4 0x0F0100A1, rowRo 0x064,
      rowRo 0x100 1 4 0x00000100, rowRo 0x104 1 4 0x00004030, rowRo 0x108 1 4 0x000EC000, rowRo 0x10C 1 4 0x0A4B0CE4,
      rowRo 0x110 1 4 0x00002020, rowRo 0x114 1 4 0x00402010, rowRo 0x118 1 4 0x20104080, rowRo 0x11C 1 4 0x060C8080,
      rowRo 0x120 1 4 0x180C0810, rowRo 0x124 1 4 0x00000F10, rowRo 0x128 1 4 0x0002C000, rowRo 0x12C 1 4 0x2124000C,
      rowRo 0x130 1 4 0x3E801210, rowRo 0x134 1 4 0x31282840, rowRo 0x138 1 4 0x200C2040, rowRo 0x13C 1 4 0x003A6AB0,
      rowRo 0x140 1 4 0x00057FFF, rowRo 0x144 1 4 0x00100440, rowRo 0x148 1 4 0x00000010, rowRo 0x14C 1 4 0x00004090,
      rowRo 0x150 1 4 0x0018800F, rowRo 0x154 1 4 0x00400C80, rowRo 0x158 1 4 0x00004020, rowRo 0x15C 41 ]
  | .boot =>
    [ rowRw 0x040 0xFFFFF000, rowRo 0x044, rowRo 0x048, rowRo 0x04C 8, rowRo 0x06C, rowRo 0x070, rowRo 0x074,
      rowRw 0x078 0xFFFF, rowRw 0x07C 3 3, rowWo 0x080 ]
  | .tide =>
    [ rowRo64 0x040, rowRw64 0x048 0xFFFFFFFFFFF00000, rowRw64 0x050 m64, rowRw 0x058 m32, rowWo 0x05C, rowRo64 0x060,
      rowRo64 0x068, rowRo 0x070, rowRo 0x074, rowRo 0x078, rowRw 0x07C 0xFFFF 64, rowRw 0x080 0xFFFF 256, rowRo 0x084,
      rowRo 0x100 16 ]
  | .power =>
    [ rowWo 0x040, rowRw64 0x044 m64, rowRo 0x04C, rowRw 0x050 0xF, rowRo 0x054, rowRo64 0x058, rowWo 0x060,
      rowRo 0x064 8 4 3300, rowRo 0x084, rowRo 0x088, rowRw 0x08C 0xFFFF 9500, rowRo64 0x090 ]
  | .therm =>
    [ rowRw 0x040 0xFFFFFF 0x005A5550, rowRw 0x044 0x7F 75, rowRw 0x048 m32 2000000, rowRw 0x04C 0xFF 100, rowRo 0x050,
      rowRo 0x054, rowRo 0x058, rowRo 0x05C 8, rowRo 0x07C, rowRo 0x080 ]
  | .sec => [ rowRo 0x040, rowRo 0x044, rowRo 0x048, rowRo 0x04C, rowRo 0x050 ]
  | .debug =>
    [ rowRw 0x040 0x3, rowRw64 0x044 m64, rowWo 0x04C, rowRo 0x050 24, rowRo64 0x0B0, rowRw 0x0C0 m32, rowRo 0x0C4,
      rowWo 0x0C8, rowRw 0x100 m32 0 448, rowRw 0x800 m32 0 320 ]
  | .log =>
    [ rowRo 0x040, rowRo 0x044, rowWo 0x048, rowRo 0x04C, rowRw 0x050 m32, rowRo 0x054 8, rowRw64 0x074 0xFFFFFFFFFFFFFFC0,
      rowRw 0x07C 0xFFFF, rowWo 0x080, rowRw 0x084 0xFFFF 0x8000 ]
  | .berth =>
    [ rowRo64 0x040, rowRw 0x048 0x1F, rowWo 0x04C, rowRo 0x050, rowRo 0x054, rowRo 0x058,
      rowRw64 0x100 0xFFFFFFFFFFFF0000 16 16, rowRw 0x108 0x1FFFFF 0 16 16, rowRw 0x10C 1 0 16 16,
      rowRwl64 0x600 m64, rowRwl 0x608 m32, rowRwl 0x60C 0, rowRo 0x610, rowRo 0x614, rowRo64 0x618,
      rowRo 0x620 1 4 0x10000000,
      rowRw 0x640 0x3FFFF, rowRw 0x644 0x1FFFFF, rowRw 0x648 0x3FFFF, rowRo 0x64C, rowRo 0x650, rowRo 0x654,
      rowRwl64 0x658 0xFFFFFFFFFFFFFFC0, rowRwl 0x660 0x1F 6, rowRo 0x664, rowRwl 0x668 0xFFFF ]
  | .lnk =>
    [ rowRw 0x040 0xFFFF 16, rowRw 0x044 0xFF 4, rowRo 0x048, rowRo 0x04C, rowRo64 0x050, rowRo64 0x058, rowRo 0x060,
      rowRo 0x064, rowRo 0x080 9 ] ++ portRows
  | .topo =>
    [ rowRw 0x040 0xFFFFC, rowRo 0x044, rowRo 0x048, rowWo 0x04C, rowRo 0x050 16,
      { rowRw 0x090 0xF 0 16 with resetStep := 1 }, rowRo 0x0D0 16, rowRo 0x110 ]
  | .cq =>
    [ rowRwl64 0x040 0xFFFFFFFFFFFFFFC0, rowRwl 0x048 0x1F 4, rowRo 0x04C, rowRwl 0x050 0x1FFFF, rowRo 0x054, rowRo 0x058,
      rowRo 0x05C, rowRo 0x060 1 4 0x7FFFFFFF, rowRo 0x064, rowRo 0x068 ]
  | .gtab =>
    [ rowRw64 0x040 0xFFFFFFFFFFFFFFC0 8 0x40, rowRw 0x048 0x1FF3FFFF 0x16220000 8 0x40,
      rowRw64 0x04C 0xFFFFFFFFFFFF0000 8 0x40, rowRw 0x054 m32 0 8 0x40, rowRw 0x058 m32 0x00080000 8 0x40,
      rowWo 0x05C 8 0x40, rowRo 0x060 8 0x40, rowRo 0x064 8 0x40, rowRo 0x068 8 0x40, rowRo 0x06C 8 0x40,
      rowRw 0x070 0xFF 0xFF 8 0x40, rowRo 0x074 8 0x40, rowRo 0x078 8 0x40, rowRo 0x07C 8 0x40, rowRo 0x240 ]
  | .hs =>
    [ rowRo 0x040, rowRo 0x044, rowRo 0x048, rowRo 0x04C, rowRo 0x050, rowRo 0x054, rowRo64 0x058, rowRo64 0x060,
      rowRw 0x400 0xFFFF 0x3200 32 32, rowRw 0x404 0x7FFFFF 0 32 32, rowRw 0x408 0xFFFFFF 0 32 32,
      rowRw 0x40C 0x7FFFFF 1 32 32, rowRw 0x410 0xFFFF 1 32 32, rowRo 0x414 32 32, rowRo 0x418 32 32, rowRo 0x41C 32 32 ]
  | .flash =>
    [ rowRo 0x040, rowRo 0x044 1 4 238418, rowRo 0x048, rowRo 0x04C, rowRo 0x050, rowRo 0x054, rowRo 0x058, rowRo 0x05C ]
  | .ftl =>
    [ rowRw 0x040 m32 200000, rowRw 0x044 0xFFFF 2000, rowRw 0x048 0xFF 10, rowRw 0x04C 0xF 15, rowRw 0x050 0xFFFFF 1024,
      rowRo 0x054, rowRo 0x058, rowRo 0x05C, rowRo 0x060 ]
  | .tier =>
    [ rowRw64 0x040 0xFFFFFFFFFFE00000, rowRw 0x048 0x1FFFFF, rowRw64 0x04C 0xFFFFFFFFFFFFFFC0, rowRw 0x054 0x1F 6,
      rowRo 0x058, rowRw 0x05C 0xFFFF, rowRw 0x060 0xFFFFF, rowRo 0x064 8, rowRo 0x084, rowRo 0x088, rowRo 0x08C,
      rowRo 0x090, rowRo 0x094 ]
  | .sketch =>
    [ rowRw 0x040 0x3F, rowRw64 0x044 0xFFFFFFFFFFFFFFC0, rowRw 0x04C 0xFF 0xFF, rowRw64 0x050 m64, rowRw64 0x058 m64,
      rowWo 0x060, rowRo 0x064, rowRo 0x068, rowRo 0x06C, rowRo 0x070, rowRo 0x074 1 4 0xFF, rowRo64 0x078, rowRo 0x080,
      rowRo 0x084 ]
  | .cl =>
    [ rowRo64 0x040, rowRo 0x048, rowRo 0x04C, rowWo 0x050, rowRwl 0x800 m32 0 64,
      rowRwl64 0xA00 0xFFFFFFFFFFFFFFC0, rowRwl 0xA08 0x803F3F0F 0x00010004, rowRo 0xA0C, rowRo 0xA10, rowRo 0xA14,
      rowRo64 0xA18 ]
  | .cd => [ rowWo 0x040, rowRo 0x044 ] ++ portRows
  | .ferry =>
    [ rowRwl64 0x040 0xFFFFFFFFFFFFFFC0, rowRwl 0x048 0x1FFFFF, rowRwl 0x04C 0x1FFFFF, rowRwl 0x050 m32,
      rowRwl 0x054 0xFFFF, rowRwl64 0x058 m64, rowRwl 0x060 m32, rowRwl 0x064 m32, rowRwl 0x068 0x1FFFFF, rowWo 0x06C,
      rowRo 0x070, rowRo 0x074, rowRo 0x078, rowRo 0x07C, rowRo 0x080, rowRo64 0x084, rowRo 0x08C,
      rowRo 0x090 1 4 0x7FFFFFFF, rowRo 0x094, rowRo 0x098 ]
  | .slip =>
    [ rowRwl64 0x040 m64 63 64, rowRwl64 0x048 m64 63 64, rowRwl64 0x050 m64 63 64, rowRwl 0x058 m32 0 63 64,
      rowRwl 0x05C 0x07FFFFFF 0 63 64, rowRwl 0x060 m32 0 63 64, rowRwl 0x064 m32 0 63 64,
      rowRwl64 0x068 0x3FFFFFFFFFFFF 63 64, rowRo 0x070 63 64, rowRo 0x074 63 64, rowRo 0x078 63 64, rowRo 0x07C 63 64 ]
  | .core =>
    [ rowRw64 0x040 0xFFFFFFFFFFFFFFF8, rowRw64 0x048 m64, rowRw64 0x050 m64, rowRo64 0x058, rowRo 0x060, rowRo64 0x064,
      rowRw 0x06C 0xFF, rowRo 0x070, rowRo64 0x078, rowRo64 0x080, rowRw64 0x100 m64 32, rowRo 0x800 64, rowRo64 0x900,
      rowRw 0x200 1, rowRo 0x204, rowRo64 0x208, rowRo64 0x210, rowRo64 0x218, rowRo 0x220, rowRo 0x224 ]

/-- Find the row that lists an offset: the row, the register's number in it, and whether the offset is the HI word of a pair. -/
def findRow (rows : List RegRow) (off : Nat) : Option (RegRow × Nat × Bool) :=
  match rows with
  | [] => none
  | r :: rs =>
    if r.off ≤ off && (off - r.off) / r.stride < r.n && ((off - r.off) % r.stride == 0) then
      some (r, (off - r.off) / r.stride, false)
    else if r.off ≤ off && r.pair && (off - r.off) / r.stride < r.n && ((off - r.off) % r.stride == 4) then
      some (r, (off - r.off) / r.stride, true)
    else findRow rs off

/-- The row of an offset of an implemented page. -/
def rowAt (page off : Nat) : Option (RegRow × Nat × Bool) :=
  match pageAt page with
  | none => none
  | some (k, _) => if off < 0x040 then findRow (headerRows k) off else findRow (blockRows k) off

/-- The reset value of a register, from its page's table; 0 where none is listed. -/
def regReset (page off : Nat) : W32 :=
  match rowAt page off with
  | none => 0
  | some (r, i, hi) =>
    let v := r.reset + i * r.resetStep
    BitVec.ofNat 32 (if hi then v / 2 ^ 32 else v)

/-- A field of a register: page, offset, lowest bit, width. -/
structure Fld where
  page : Nat
  off : Nat
  lo : Nat
  width : Nat
deriving DecidableEq, Repr

end Sys2Proof.Machine
end

