-- ==== Sys2Proof/Machine/Store.lean ====
section
/-! DEFINITION. Sparse plain data: lists of key and value in one canonical form (keys strictly rising, no value equal to what
an unlisted key reads as). -/

namespace Sys2Proof.Machine

/-- Sparse data by key. -/
abbrev Store (α : Type) := List (Nat × α)

/-- The value at key `k`; an unlisted key reads as `d`. -/
def storeGet {α : Type} (m : Store α) (k : Nat) (d : α) : α :=
  match m with
  | [] => d
  | (j, v) :: r => if j = k then v else storeGet r k d

/-- List `v` at key `k`, before the first key above it. -/
def storeSet {α : Type} (m : Store α) (k : Nat) (v : α) : Store α :=
  match m with
  | [] => [(k, v)]
  | (j, w) :: r =>
    if k < j then (k, v) :: (j, w) :: r
    else if k = j then (k, v) :: r
    else (j, w) :: storeSet r k v

/-- Write `v` at key `k`, keeping the canonical form; `d` is what `k` reads as unlisted. -/
def storePut {α : Type} [DecidableEq α] (m : Store α) (k : Nat) (v d : α) : Store α :=
  if v = d then m.filter (fun x => x.1 != k) else storeSet m k v

/-- Every listed key lies strictly above `lo`, keys rise, and no value is its key's unlisted value. -/
def storeAbove {α : Type} [DecidableEq α] (dflt : Nat → α) : Nat → Store α → Bool
  | _, [] => true
  | lo, (j, v) :: r => decide (lo < j) && decide (v ≠ dflt j) && storeAbove dflt j r

/-- The canonical form. -/
def storeWf {α : Type} [DecidableEq α] (dflt : Nat → α) : Store α → Bool
  | [] => true
  | (j, v) :: r => decide (v ≠ dflt j) && storeAbove dflt j r

/-- Keep only the keys that satisfy `p`. -/
def storeKeep {α : Type} (p : Nat → Bool) (m : Store α) : Store α := m.filter (fun x => p x.1)

end Sys2Proof.Machine
end

