-- ==== Sys2Proof/Machine/State.lean ====
section
/-! DEFINITION. The state of one FJ1, as plain data, and the state after reset. Registers that software sees are words of the
register file `regs` (key: page index × 4096 + offset; an unlisted register reads its reset value, `regReset` of
Machine/RegMap.lean); what the units hold besides is in the structures below. -/

namespace Sys2Proof.Machine

/-- Why a command stops the machine. -/
inductive Fault where
  /-- Raised by a command whose operands are no such command at all (a beacon that is not 40 bytes, a core number of 48 to
  63 …: `Instr.wellFormed`); the spec has no such event, so stopping is safe. -/
  | illFormed (mnemonic : String)
deriving DecidableEq, Repr

/-- Why a command has no meaning. -/
inductive Refusal where
  /-- Raised by an arm of `exec` whose command has no meaning yet (safe). -/
  | notModelled (mnemonic : String)
deriving DecidableEq, Repr

/-- The last usable beacon heard on a link (01 R33, R35). -/
structure Heard where
  link : Nat
  hops : Nat
  root : BitVec 16
  interval : Nat
deriving DecidableEq, Repr

/-- The tide unit (01_tide) beyond its page. -/
structure Tide where
  /-- The local tide (R19), its 32 fraction bits, and the correction `c` in units of 2^-32 (R36). -/
  now : W64
  frac : W32
  corr : Int
  /-- The integral of offsets, 1/16 tick (R36). -/
  sum16 : Int
  /-- Consecutive upstream beacons with |e| at most 1 tick (R38, R40, R43). -/
  goodRun : Nat
  /-- The loop is held at SLEW_MAX (R37). -/
  aligned : Bool
  /-- Free-running tide clocks (R487). -/
  clock : Nat
  /-- Multiples of 2^16 passed by the running count (R35). -/
  intervals : Nat
  heard : List Heard
  /-- The interval in which HOLDOVER began (R41). -/
  holdSince : Nat
  /-- The tide clock at which INIT is loaded in ROOT_OSC, and whether the root waits for a TIDE_SYNC edge (R26). -/
  loadAt : Option Nat
  loadOnSync : Bool
  /-- Successive TIDE_SYNC edges with the reference present (R28). -/
  syncRun : Nat
  /-- The recorded stand (R44 to R51): S, RESUME_AT, whether its length is fixed, the stand count and its fraction, how far
  past S this chip stood, whether any STAND_SEQ has been recorded. -/
  standS : W64
  resumeAt : W64
  standFixed : Bool
  /-- A stand told of and not begun: its S and RESUME_AT. -/
  pendS : W64
  pendResume : W64
  /-- The remaining root that a former root follows (R29). -/
  follow : Option (BitVec 16)
  /-- The beacon of the running count as it stands has been sent (R31). -/
  sent : Bool
  /-- The last tide clock carried two ticks, and the second is still to come (R19, R20). -/
  owed : Bool
  standCount : W64
  standFrac : W32
  lateBy : W64
  seqKnown : Bool
deriving DecidableEq, Repr

/-- The states of a consignment at its landing chip (02, Landing and confirmation). -/
inductive LandState where
  | landing | checked | confirmed | replaying | exhausted
deriving DecidableEq, Repr

/-- What an arriving consignment is matched to (09 R249, 10 R271, 12 R323, 15 R409). -/
inductive LandTarget where
  | ferry (f iter entry : Nat)
  | coll (g t part : Nat)
  | tile (obj tile : Nat)
  | relay
  /-- Matched to nothing: absorbed (02 R65). -/
  | absorbed
deriving DecidableEq, Repr

/-- One arriving consignment. -/
structure Landing where
  key : ConsKey
  /-- Header and seal block of the current attempt (02 R55, 11 R309). -/
  hdr : List Byte
  sealBlk : List Byte
  /-- Receiving port (0 to 15 by leader, 16 + n for die n), arrival link and CSLOT. -/
  port : Nat
  link : Nat
  cslot : Nat
  st : LandState
  attempt : Nat
  /-- The words of the attempt as received, in order. -/
  words : List W32
  /-- The attempt has failed; its further words are dropped (02 R62). -/
  failed : Bool
  target : LandTarget
  /-- The local tide when the check completed, if it was valid (R59, R66; 09 R251). -/
  checkedAt : Option W64
  /-- Place address of the landing; none where it lands in the harbour buffer, in flash or nowhere. -/
  addr : Option Nat
deriving DecidableEq, Repr

/-- One consignment held at its source (02 R58). -/
structure Held where
  key : ConsKey
  hdr : List Byte
  port : Nat
  attempt : Nat
  crc : W32
  /-- Departure stamp (09 R254). -/
  stamp : W64
  /-- The source bytes held: a place address and a length (0 for a source that is no memory of R126). -/
  addr : Nat
  len : Nat
deriving DecidableEq, Repr

/-- The states of a core (05 R144). -/
inductive CoreState where
  | off | running | stopping | stopped | monitor | faulted | fenced
deriving DecidableEq, Repr

/-- One outstanding move (05 R137, 06 R177): its fields and the register values it was issued with. -/
structure MoveJob where
  pc : W64
  dk : BitVec 2
  sk : BitVec 2
  fmt : BitVec 4
  sat : BitVec 1
  dst : W64
  src : W64
  shape : W64
  pitch : W64
  valid : Option W64
  /-- It was issued while the core was at sea. -/
  sea : Bool
deriving DecidableEq, Repr

/-- A problem-list launch in progress (08 R223). -/
structure PlistRun where
  base : W64
  count : Nat
  index : Nat
deriving DecidableEq, Repr

/-- One core (05 R122) with its quay state (02 R67 to R80). Vector lane i of v_r is key 128 r + i; tile element (t, row, col)
is key 16384 t + 128 row + col; byte o of row-statistics block k is key 4096 k + o; byte o of slot b is key 32768 b + o. While
speculation is in effect tile n + 6 holds the shadow half of pair n, and block k + 8 that of pair k (R73). -/
structure Core where
  state : CoreState
  wait : Nat
  pc : W64
  sreg : Store W64
  vreg : Store W32
  mreg : Store (BitVec 128)
  tiles : Store W40
  rows : Store Byte
  slots : Store Byte
  aflags : W32
  shadowFlags : W32
  /-- The hold set H, each with its port. -/
  hold : List (ConsKey × Nat)
  ckPc : W64
  ckSreg : Store W64
  ckMreg : Store (BitVec 128)
  rdV : BitVec 64
  wrV : BitVec 64
  rdB : BitVec 16
  wrB : BitVec 16
  taintV : BitVec 64
  taintB : BitVec 16
  taintT : BitVec 16
  taintR : BitVec 16
  /-- Pairs written at sea, and pairs marked for refresh (R75, R76). -/
  seaT : BitVec 16
  seaR : BitVec 16
  refT : BitVec 16
  refR : BitVec 16
  specOn : Bool
  /-- The consignment whose replay a discarded core waits for (R79). -/
  redo : Option ConsKey
  /-- Instructions retired at sea, not yet counted (05, RETIRED). -/
  seaRetired : Nat
  moves : List MoveJob
  plist : Option PlistRun
  twait : Option W64
  /-- The monitor's own scalar registers (05 R151; log 12). -/
  monReg : Store W64
  /-- Core cycles so far, in thousandths (MHz × ticks). -/
  cycles : Nat
  /-- The fetch queue: addresses and words fetched and not yet issued (05 R125). -/
  fetchq : List (Nat × W64)
  /-- The consignments the waiting instruction waits for (02 R80). -/
  waitOn : List ConsKey
  /-- A data error met at sea, which waits at the quay line: PC, data address, problem-list index (05 R150, R152). -/
  seaFault : Option (W64 × Nat × Option Nat)
deriving DecidableEq, Repr

/-- A core after core reset (15 R412). -/
def Core.reset : Core :=
  { state := .off, wait := 0, pc := 0, sreg := [], vreg := [], mreg := [], tiles := [], rows := [], slots := [],
    aflags := 0, shadowFlags := 0, hold := [], ckPc := 0, ckSreg := [], ckMreg := [], rdV := 0, wrV := 0, rdB := 0,
    wrB := 0, taintV := 0, taintB := 0, taintT := 0, taintR := 0, seaT := 0, seaR := 0, refT := 0, refR := 0,
    specOn := false, redo := none, seaRetired := 0, moves := [], plist := none, twait := none, monReg := [],
    cycles := 0, fetchq := [], waitOn := [], seaFault := none }

/-- One link beyond its page (11_brosko). -/
structure LinkRun where
  /-- Training step in progress, 0 for none, and which ends have completed it (R298, R486). -/
  step : Nat
  ownDone : Bool
  farDone : Bool
  /-- Good receive lanes found at this end and at the far end (R299). -/
  ownLanes : BitVec 9
  farLanes : BitVec 9
  /-- Tide clocks of the retrains (R301), and whether RETRAIN_MAX holds the link MISSING. -/
  retrains : List Nat
  limited : Bool
  /-- UP or NARROW before the training in progress. -/
  wasUp : Bool
  /-- Tide clock at which the link became MISSING, and at which the step began (R300, R298). -/
  missingAt : Nat
  stepAt : Nat
  /-- Last FSEQ accepted, next FSEQ to send, last ACK received, its tide clock, sends of the oldest flit (R294). -/
  rxSeq : BitVec 12
  txSeq : BitVec 12
  ackSeq : BitVec 12
  ackAt : Nat
  fails : Nat
  /-- Flits of the window so far and their LANE_PAR errors by lane (R301), and the previous flit's lane parities. -/
  winFlits : Nat
  winErr : Store Nat
  prevPar : BitVec 8
  /-- Credits held per channel, pilot to bulk (R296). -/
  credits : List Nat
  /-- The slots bound on this link as receiver: (channel, CSLOT, consignment) (R293). -/
  slots : List (Nat × Nat × ConsKey)
  /-- Bad lanes as self-test left them (15 R402); lanes that have failed in service since training (R300, R301). -/
  loopBad : BitVec 9
  dark : BitVec 9
  /-- The training in progress is a retrain (R300). -/
  retraining : Bool
deriving DecidableEq, Repr

/-- A link after chip reset. -/
def LinkRun.reset : LinkRun :=
  { step := 0, ownDone := false, farDone := false, ownLanes := 0, farLanes := 0, retrains := [], limited := false,
    wasUp := false, missingAt := 0, stepAt := 0, rxSeq := BitVec.ofNat 12 4095, txSeq := 0, ackSeq := BitVec.ofNat 12 4095,
    ackAt := 0, fails := 0, winFlits := 0, winErr := [], prevPar := 0, credits := [], slots := [], loopBad := 0, dark := 0, retraining := false }

/-- One ferry beyond its pages (09): what has happened to its entries, each named by iteration and index, and the command being
validated. -/
structure FerryRun where
  opened : List (Nat × Nat)
  sailed : List (Nat × Nat)
  heldOnce : List (Nat × Nat)
  done : List (Nat × Nat)
  /-- 0 none, 1 ARM, 2 APPEND. -/
  validating : Nat
  /-- What the validation found as the schedule stood at the command: the entry and cause that fail, if any. -/
  verdict : Option (Nat × Nat)
  /-- The last iteration has been taken to its END or past its last entry. -/
  ended : Bool
deriving DecidableEq, Repr

/-- A ferry after reset. -/
def FerryRun.reset : FerryRun :=
  { opened := [], sailed := [], heldOnce := [], done := [], validating := 0, verdict := none, ended := false }

/-- The collective a queue runs (10 R270 to R278). -/
structure Coll where
  desc : List Byte
  addr : Nat
  /-- Transfers launched, transfers whose sent parts are all confirmed, parts landed and confirmed (t, part), chunks written,
  transfers for which the receiver has granted credit. -/
  launched : List Nat
  sentOk : List (Nat × Nat)
  landedOk : List (Nat × Nat)
  written : List Nat
  credit : List Nat
  heldOnce : Bool
  late : Bool
  nonfinite : Bool
  /-- Launching has stopped (R283, R287). -/
  stopped : Bool
  /-- The first copy of SRC has been made (R279). -/
  begun : Bool
  /-- Partials of a fall-back reduce-scatter, whose DST holds one segment only (R281; log 45). -/
  work : Store Byte
deriving DecidableEq, Repr

/-- One group beyond its page entry (10). -/
structure GroupRun where
  members : List (BitVec 16)
  /-- Creation notices received: sender, digest, ring bit. -/
  notices : List (BitVec 16 × W32 × Bool)
  removal : List (BitVec 16)
  reformAt : Option W64
  /-- SEQ of the collective that re-forms, and whether R has passed and fresh notices are awaited (R284). -/
  reformSeq : W32
  reforming : Bool
  coll : Option Coll
  /-- Credits that came before this chip took the collective (R276). -/
  early : List Nat
  /-- A DELETE waits for the step mark, or for completion (R287). -/
  deleting : Bool
  deleteMark : Option W64
  /-- Staging granules charged to the berth. -/
  charged : Nat
deriving DecidableEq, Repr

/-- A FREE group. -/
def GroupRun.reset : GroupRun :=
  { members := [], notices := [], removal := [], reformAt := none, reformSeq := 0, reforming := false, coll := none,
    early := [], deleting := false,
    deleteMark := none, charged := 0 }

/-- One object-table entry (12 R317). -/
structure ObjEntry where
  home : W64
  size : Nat
  state : Nat
  tier : Nat
  tileLog2 : Nat
  owner : Nat
  pins : Nat
  share : BitVec 16
  lastCode : BitVec 16
  gen : BitVec 32
  progress : Nat
  /-- The code that made the object LOST (12 R336); the engine's own. -/
  lossCode : BitVec 16
deriving DecidableEq, Repr

/-- A FREE entry: every byte zero (12 R316). -/
def ObjEntry.free : ObjEntry :=
  { home := 0, size := 0, state := 0, tier := 0, tileLog2 := 0, owner := 0, pins := 0, share := 0, lastCode := 0, gen := 0,
    progress := 0, lossCode := 0 }

/-- A tier request taken from its ring (12 R320). -/
structure TierReq where
  ring : Nat
  pos : Nat
  obj : Nat
  op : Nat
  dtier : Nat
  dplace : Nat
  tileLog2 : Nat
  arg : W64
  /-- Every reserved field of the request is zero. -/
  clean : Bool
  /-- The request is being carried out (ALLOC zeroing, MOVE). -/
  active : Bool
deriving DecidableEq, Repr

/-- What has happened to a tile of a move (12 R323 to R325): `staged`: read from flash into the harbour buffer; `landed`: in the
harbour buffer, to be programmed into flash (R333). -/
inductive TileState where
  | waiting | staged | sailing | landed | confirmed | dirty
deriving DecidableEq, Repr

/-- A move in flight (12 R324). -/
structure TierMove where
  obj : Nat
  dtier : Nat
  dplace : Nat
  /-- Destination address, or flash handle. -/
  dst : W64
  tiles : Store TileState
  requeued : Nat
deriving DecidableEq, Repr

/-- One generation of an index (13 R345, R368): its header's 128 bytes, the header's address, start tide and cutoff. -/
structure IndexGen where
  hdr : List Byte
  at_ : Nat
  start : W64
  cutoff : Option W64
deriving DecidableEq, Repr

/-- One sketch index (13 R345 to R370). -/
structure Index where
  state : Nat
  owner : Nat
  /-- Newest first. -/
  gens : List IndexGen
  tail : W32
  low : W32
  /-- The command in progress: 0 none, 1 CREATE, 2 MERGE, 3 RETIRE, 4 DESTROY. -/
  busy : Nat
  /-- The header a CREATE or MERGE names, its cutoff and its switch tide. -/
  newHdr : Nat
  newCutoff : W64
  newSwitch : W64
  newOwner : Nat
  started : W32
  cause : Nat
deriving DecidableEq, Repr

/-- A FREE index. -/
def Index.reset : Index :=
  { state := 0, owner := 255, gens := [], tail := 0, low := 0, busy := 0, newHdr := 0, newCutoff := 0, newSwitch := 0,
    newOwner := 255, started := 0, cause := 0 }

/-- What a sketch engine is doing (13 R353 to R367). -/
structure EngineWork where
  /-- The descriptor's address and its 64 bytes. -/
  addr : Nat
  desc : List Byte
  /-- 1 waiting for the snapshot, 2 searching, 3 inserting or deleting. -/
  phase : Nat
  /-- The start tide of the generation searched. -/
  genStart : W64
  /-- The deciding side-list entries: their positions (R360), as they stood when the snapshot was reached. -/
  seen : List Nat
  /-- The side-list position reserved by an insert or delete. -/
  pos : W32
  /-- Shares handed out, and what they returned: (helper, list of (distance, id, place address of the full code)). -/
  asked : List Nat
  answers : List (Nat × List (Nat × Nat × Nat))
deriving DecidableEq, Repr

/-- One sketch engine. -/
structure Engine where
  work : Option EngineWork
  /-- The leader whose share it serves. -/
  helping : Option Nat
deriving DecidableEq, Repr

/-- An idle engine. -/
def Engine.reset : Engine := { work := none, helping := none }

/-- One berth beyond its page (14). Keys are identifiers of what the crypto engines hold; 0 is no key. -/
structure BerthRun where
  prior : Nat
  /-- The BCMD word being carried out, and whether its steps have begun (R376, R377). -/
  job : Option W32
  begun : Bool
  /-- What the request is deferred for: ferry f as f, group g as 8 + g with the step mark that ends the wait (R257, R287). -/
  waits : List (Nat × Option W64)
  linkKey : Nat
  objKey : Nat
  kemKey : Nat
  session : Nat
  /-- Region keys by region (R380). -/
  regionKey : Store Nat
  /-- The VF of the berth completes requests with Unsupported Request (R377 step 1). -/
  closed : Bool
  /-- Micro-program images loaded in slots 0 to 63, by slot (07 R199), as bytes; and the pending function command. -/
  slots : Store (List Byte)
  fnJob : Option W32
deriving DecidableEq, Repr

/-- A FREE berth. -/
def BerthRun.reset : BerthRun :=
  { prior := 0, job := none, begun := false, waits := [], linkKey := 0, objKey := 0, kemKey := 0, session := 0, regionKey := [],
    closed := false, slots := [], fnJob := none }

/-- The defect map of retained SRAM (15 R404). -/
structure DefectMap where
  /-- (cluster, spare, core number). -/
  subst : List (Nat × Nat × Nat)
  fenced : List CoreId
  /-- (cluster, bank) withheld, and (cluster, group) whose spare bank is used. -/
  withheld : List (Nat × Nat)
  spareBanks : List (Nat × Nat)
  lanes : List (Nat × Nat)
  /-- (stack, rows repaired, granules withheld, in service). -/
  hbm : List (Nat × Nat × List Nat × Bool)
  crcGood : Bool
  part : Nat
deriving DecidableEq, Repr

/-- Where the module is between 48 V and running (15 R395, 18 R462). -/
inductive Phase where
  /-- 48 V absent. -/
  | off
  /-- 48 V stable, PERST# asserted or a chip reset in progress. -/
  | held
  /-- The cold sequence has begun. -/
  | running
  /-- THERMTRIP_N asserted: clocks gated, lasers dark (16 R428). -/
  | tripped
  /-- SCAN has stopped every clock (19 R480). -/
  | scanning
deriving DecidableEq, Repr

/-- Bring-up (15) beyond its page. -/
structure Boot where
  phase : Phase
  perst : Bool
  /-- TRIAD_POS as sampled for I3C and at step 1 (18 R458). -/
  i3cStrap : BitVec 2
  strap : BitVec 2
  /-- The path asked for by VERIFY or AWAIT_RELAY. -/
  fastAsked : Bool
  map : Option DefectMap
  /-- What the sequence in progress has found or applied so far, and the spares (cluster, index) that passed and stand for no
  core. -/
  found : DefectMap
  sparesLeft : List (Nat × Nat)
  /-- OPKEY_HASH of the verified image (R398). -/
  opKey : List Byte
  /-- Broadcast (R406 to R408): cores still missing chunks, repair rounds used, the last attempt (0 none, 1 after a core reset, 2 on
  a spare), whether a repair round has begun. -/
  missing : List (CoreId × BitVec 16)
  rounds : Nat
  lastTry : Nat
  repairBegun : Bool
  /-- Resets in progress (R410 to R413). -/
  resets : List ResetUnit
deriving DecidableEq, Repr

/-- An empty defect map for this part. -/
def DefectMap.empty : DefectMap :=
  { subst := [], fenced := [], withheld := [], spareBanks := [], lanes := [], hbm := [], crcGood := true, part := 0x0F0100A1 }

/-- An entry of the logbook, stored or waiting (19 R467). -/
structure LogEntry where
  code : BitVec 16
  source : BitVec 14
  kind : BitVec 2
  bit : BitVec 5
  forced : Bool
  stand : Bool
  ends : Bool
  tide : W64
  d0 : W32
  d1 : W32
  d2 : W32
  d3 : W32
deriving DecidableEq, Repr

/-- The logbook (19 R467 to R474). -/
structure Logbook where
  /-- Retained SRAM: slot → entry. -/
  slots : Store (Option LogEntry)
  next : W32
  oldest : W32
  discarded : W32
  /-- Entries waiting for the write port, in the order they were queued, and per source the entries lost since its queue
  became full with the stamp of the first (R470). -/
  queue : List LogEntry
  lost : Store (Nat × W64)
  /-- The copy in progress: next sequence number, entries left, first sequence number copied, RELEASE_AFTER. -/
  dma : Option (W32 × Nat × Bool)
deriving DecidableEq, Repr

/-- What the chip sends out of itself: the model's record of its outputs (log 4). -/
inductive Out where
  /-- A beacon or a stand notice (its 40 bytes) on a link. -/
  | beacon (link : Nat) (bytes : List Byte)
  /-- A consignment attempt sails on a port: header, seal block, trailer CRC, and what it carries (address, bytes). -/
  | sail (port : Nat) (hdr sealBlk : List Byte) (crc : W32)
  | confirmNotice (key : ConsKey)
  | replayRequest (key : ConsKey) (attempt : Nat)
  | exhaustedNotice (key : ConsKey)
  | absorbedNotice (key : ConsKey)
  /-- The source cannot replay: it has been reset (02 R64). -/
  | sourceReset (key : ConsKey)
  | creationNotice (g : Nat) (dst : BitVec 16) (digest : W32) (ring : Bool)
  | credit (g : Nat) (dst : BitVec 16) (t : Nat)
  | reformNotice (g : Nat) (dst : BitVec 16) (seq : W32) (suspect : BitVec 16) (tide : W64)
  | abortNotice (g : Nat) (dst : BitVec 16)
  | linkState (pos : Nat) (cube : BitVec 16)
  | train (link step : Nat)
  | ack (link : Nat) (fseq : BitVec 12) (nak : Bool)
  | resend (link : Nat) (fromSeq : BitVec 12)
  | switchLane (link lane : Nat) (fseq : BitVec 12)
  | forward (link cls vc : Nat) (dst : BitVec 16) (id : Nat)
  | lasers (link : Nat) (lit : Bool)
  /-- A board store or load that leaves for another chip of the board (00 R5, 11 R308). -/
  | board (pos : Nat) (addr : W64) (write : Bool) (bytes : List Byte)
  /-- The answer to a register read or a window read. -/
  | readData (func : Nat) (value : W32)
  | readBytes (func : Nat) (bytes : List Byte)
  | completerAbort (func : Nat)
  | msix (func vector : Nat)
  | dma (addr : W64) (bytes : List Byte)
  | spdm (func code : Nat) (body : List Byte)
  | session (b : Nat) (bytes : List Byte)
  | i3c (bytes : List Byte)
  | inBand (alert : Byte)
  | tdo (bits : Nat) (value : Nat)
  | pin (cells : BitVec 10)
deriving DecidableEq, Repr

/-- The machine: one FJ1 and the commands waiting for it. -/
structure State where
  /-- Commands waiting, first in, first out. -/
  pending : List Instr
  /-- The register file. -/
  regs : Store W32
  /-- R13 read latches and R14 write holds: key function × 2^26 + page × 4096 + offset of LO. -/
  pairRead : Store (Option W32)
  pairWrite : Store (Option W32)
  tide : Tide
  landing : List Landing
  held : List Held
  /-- Ports whose block of 4096 outcomes is full and not yet closed, with its replays (02 R83). -/
  fullBlocks : List (Nat × Nat)
  /-- Seal counters by link key (11 R309). -/
  sealCtr : Store Nat
  cores : Store Core
  links : Store LinkRun
  /-- PORTCFG in effect (11 R304), by link. -/
  ports : Store Nat
  /-- Routed traffic that found no hop and waits, and own consignments for which 0x5006 has been raised (11 R305). -/
  routeWait : List RouteMsg
  noRouted : List ConsKey
  /-- A deferred APPLY and what it waits for, as in `BerthRun.waits` (11 R304). -/
  applyWaits : Option (List (Nat × Option W64))
  ferries : Store FerryRun
  groups : Store GroupRun
  objects : Store ObjEntry
  tierQ : List TierReq
  tierMoves : List TierMove
  indexes : Store Index
  engines : Store Engine
  berths : Store BerthRun
  boot : Boot
  /-- Commanded states of partitions n and, at key 8 + n, their commanded ceilings in MHz (16 R418, R422); scheduled actions by
  slot (PCMD word, tide); the transition in progress. -/
  partCmd : Store Nat
  powerSlots : Store (Option (W32 × W64))
  transition : Option W32
  /-- By stack that has turned critical, the tide at which issue to it is to stop (16 R424). -/
  critAt : Store (Option W64)
  /-- BAR4 words: key function × 2^24 + offset; pending bits of MSI-X; functions masked whole; classes pending per function
  (key function × 256 + class) (17 R444, R447). -/
  bar4 : Store W32
  pba : List (Nat × Nat)
  fmask : List Nat
  pend : List Nat
  /-- Bus Master Enable of the physical function, a bit of its PCIe configuration (19 R473). DESIGN CHOICE: set at reset; no command
  of the table writes it (log 53). -/
  busMaster : Bool
  log : Logbook
  /-- A RESPOND is being verified (19 R477). -/
  responding : Bool
  /-- Host link key (0 none), random values drawn so far, and the DOE responder of each function: bit 0 version, 1
  capabilities, 2 algorithms; large messages being received (14 R383, R380, R388). -/
  hostKey : Nat
  drawn : Nat
  doe : Store Nat
  doeBuf : Store (List Byte)
  /-- ALERT_N as last driven (16 R427). -/
  alert : Bool
  /-- I3C target (18 R464): dynamic address, byte offset, in-band interrupts enabled. -/
  i3cDyn : Option (BitVec 7)
  i3cOff : BitVec 4
  i3cIbi : Bool
  /-- TAP (18 R465, 19 R480): instruction register and boundary cells. -/
  tapIr : BitVec 5
  cells : BitVec 10
  /-- Memory of the chip by place address, bits [47:0] (05 R126); the 32-byte units that hold uncorrectable data (12 R328). -/
  mem : List Host.Cell
  poison : List Nat
  /-- Ranges of memory whose unlisted bytes are undefined: first address, bytes, number of the first free value (14 R379,
  15 R484; log 6). -/
  blurred : List (Nat × Nat × Nat)
  /-- The image area of the harbour buffer (15 R398). -/
  image : List Host.Cell
  /-- Flash contents: key handle × 2^36 + byte (12 R333). -/
  flash : List Host.Cell
  /-- Granules withheld from every tier (12 R329, 15 R402): (tier, granule). -/
  withheld : List (Nat × Nat)
  /-- What has been sent out, oldest first (the model's own). -/
  out : List Out
  /-- Free values drawn so far (the model's own; log 6). -/
  fresh : Nat
deriving DecidableEq, Repr

/-- The tide unit after chip reset (01, page reset values; 01 R20). -/
def Tide.reset : Tide :=
  { now := 0, frac := 0, corr := 0, sum16 := 0, goodRun := 0, aligned := false, clock := 0, intervals := 0, heard := [],
    holdSince := 0, loadAt := none, loadOnSync := false, syncRun := 0, standS := 0, resumeAt := 0, standFixed := false, pendS := 0,
    pendResume := 0, follow := none, sent := false, owed := false,
    standCount := 0, standFrac := 0, lateBy := 0, seqKnown := false }

/-- Bring-up at the beginning of the cold sequence (15 R395, R396). -/
def Boot.reset : Boot :=
  { phase := .running, perst := false, i3cStrap := 0, strap := 0, fastAsked := false, map := none,
    found := DefectMap.empty, sparesLeft := [], opKey := [], missing := [], rounds := 0, lastTry := 0,
    repairBegun := false, resets := [] }

/-- An empty logbook (19 R474). -/
def Logbook.reset : Logbook :=
  { slots := [], next := 0, oldest := 0, discarded := 0, queue := [], lost := [], dma := none }

/-- The machine at the beginning of the cold sequence after 48 V has been applied and PERST# deasserted (15 R395, R396):
STAGE is ROM, every register at its reset value, memory with nothing listed. -/
def State.reset : State :=
  { pending := [], regs := [], pairRead := [], pairWrite := [], tide := Tide.reset, landing := [], held := [], fullBlocks := [], sealCtr := [],
    cores := [], links := [], ports := [], routeWait := [], noRouted := [], applyWaits := none, ferries := [], groups := [], objects := [], tierQ := [], tierMoves := [],
    indexes := [], engines := [], berths := [], boot := Boot.reset, partCmd := [], powerSlots := [], transition := none,
    critAt := [], bar4 := [], pba := [], fmask := [], pend := [], busMaster := true, log := Logbook.reset, responding := false, hostKey := 0,
    drawn := 0, doe := [], doeBuf := [], alert := false, i3cDyn := none, i3cOff := 0, i3cIbi := false, tapIr := BitVec.ofNat 5 1, cells := 0,
    mem := [], poison := [], blurred := [], image := [], flash := [], withheld := [], out := [], fresh := 0 }

end Sys2Proof.Machine
end

