-- ==== Sys2Proof/Machine/Ops.lean ====
section
/-! DEFINITION. The named operations every command is written over: registers and their fields, units by number, memory bytes,
free values, outputs, the logbook's queue, raising an event, refusing an access, and interrupt signalling. -/

namespace Sys2Proof.Machine

/-- What a command answers. -/
abbrev Result := Host.Outcome State Fault Refusal

/-- The key of a register in the register file. -/
def regKey (page off : Nat) : Nat := page * 4096 + off

/-- The value a register of the file reads as while it is unlisted. -/
def regDefault (key : Nat) : W32 := regReset (key / 4096) (key % 4096)

/-- Read a register word of the file. -/
def State.rd (s : State) (page off : Nat) : W32 := storeGet s.regs (regKey page off) (regReset page off)

/-- Write a register word of the file. -/
def State.wr (s : State) (page off : Nat) (v : W32) : State :=
  { s with regs := storePut s.regs (regKey page off) v (regReset page off) }

/-- A register word as a number. -/
def State.rdN (s : State) (page off : Nat) : Nat := (s.rd page off).toNat

/-- Write a number into a register word (modulo 2^32). -/
def State.wrN (s : State) (page off v : Nat) : State := s.wr page off (BitVec.ofNat 32 v)

/-- The value of a LO/HI pair (00 R13). -/
def State.rd64 (s : State) (page off : Nat) : W64 := s.rd page (off + 4) ++ s.rd page off

/-- Write a LO/HI pair. -/
def State.wr64 (s : State) (page off : Nat) (v : W64) : State :=
  (s.wr page off (v.setWidth 32)).wr page (off + 4) ((v >>> 32).setWidth 32)

/-- A field of a register as a number. -/
def State.get (s : State) (f : Fld) : Nat := bitsOf (s.rdN f.page f.off) f.lo f.width

/-- A one-bit field. -/
def State.bit (s : State) (f : Fld) : Bool := s.get f != 0

/-- Write a field of a register. -/
def State.put (s : State) (f : Fld) (v : Nat) : State :=
  s.wrN f.page f.off (setBits (s.rdN f.page f.off) f.lo f.width v)

/-- Write a one-bit field. -/
def State.putBit (s : State) (f : Fld) (b : Bool) : State := s.put f (if b then 1 else 0)

/-- Add one to a 32-bit register that saturates. -/
def State.incSat (s : State) (page off : Nat) : State := s.wrN page off (satInc 32 (s.rdN page off))

/-- Add to a 32-bit register that saturates. -/
def State.addSat (s : State) (page off n : Nat) : State := s.wrN page off (satAdd32 (s.rdN page off) n)

/-- Add to a 64-bit counter pair. -/
def State.add64 (s : State) (page off n : Nat) : State := s.wr64 page off (s.rd64 page off + BitVec.ofNat 64 n)

/-! Units by number. -/

def State.core (s : State) (id : CoreId) : Core := storeGet s.cores id.toNat Core.reset
def State.setCore (s : State) (id : CoreId) (c : Core) : State :=
  { s with cores := storePut s.cores id.toNat c Core.reset }
def State.link (s : State) (n : Nat) : LinkRun := storeGet s.links n LinkRun.reset
def State.setLink (s : State) (n : Nat) (l : LinkRun) : State := { s with links := storePut s.links n l LinkRun.reset }
def State.ferry (s : State) (f : Nat) : FerryRun := storeGet s.ferries f FerryRun.reset
def State.setFerry (s : State) (f : Nat) (r : FerryRun) : State :=
  { s with ferries := storePut s.ferries f r FerryRun.reset }
def State.group (s : State) (g : Nat) : GroupRun := storeGet s.groups g GroupRun.reset
def State.setGroup (s : State) (g : Nat) (r : GroupRun) : State := { s with groups := storePut s.groups g r GroupRun.reset }
def State.obj (s : State) (o : Nat) : ObjEntry := storeGet s.objects o ObjEntry.free
def State.setObj (s : State) (o : Nat) (e : ObjEntry) : State := { s with objects := storePut s.objects o e ObjEntry.free }
def State.index (s : State) (i : Nat) : Index := storeGet s.indexes i Index.reset
def State.setIndex (s : State) (i : Nat) (x : Index) : State := { s with indexes := storePut s.indexes i x Index.reset }
def State.engine (s : State) (n : Nat) : Engine := storeGet s.engines n Engine.reset
def State.setEngine (s : State) (n : Nat) (e : Engine) : State := { s with engines := storePut s.engines n e Engine.reset }
def State.berth (s : State) (b : Nat) : BerthRun := storeGet s.berths b BerthRun.reset
def State.setBerth (s : State) (b : Nat) (r : BerthRun) : State := { s with berths := storePut s.berths b r BerthRun.reset }

/-! Memory, by place address (bits [47:0]). -/

/-- What an unlisted byte of a blurred range reads as; 0 elsewhere. -/
def blurAt : List (Nat × Nat × Nat) → Nat → Byte
  | [], _ => 0
  | (b, n, f) :: r, a => if b ≤ a && a < b + n then (Config.freeValue (f + (a - b))).setWidth 8 else blurAt r a

/-- What an unlisted byte of memory reads as: zero (15 R484 for scratchpad; log 2 for HBM), or a free value where the contents have
become undefined. -/
def State.blank (s : State) (a : Nat) : Byte := blurAt s.blurred a

/-- A byte of memory. -/
def State.byte (s : State) (a : Nat) : Byte := storeGet s.mem a (s.blank a)

/-- `n` bytes from `a`. -/
def State.bytes (s : State) (a n : Nat) : List Byte := (List.range n).map (fun i => s.byte (a + i))

/-- The little-endian number in `n` bytes from `a`. -/
def State.loadN (s : State) (a n : Nat) : Nat := natLE (s.bytes a n)

/-- Store one byte. -/
def State.storeByte (s : State) (a : Nat) (v : Byte) : State := { s with mem := storePut s.mem a v (s.blank a) }

/-- Store bytes in rising addresses. -/
def State.storeBytes (s : State) (a : Nat) : List Byte → State
  | [] => s
  | b :: bs => (s.storeByte a b).storeBytes (a + 1) bs

/-- Store a number in `n` bytes, little-endian. -/
def State.storeN (s : State) (a n v : Nat) : State := s.storeBytes a (bytesLE n v)

/-- Blurred ranges without the bytes `n` from `a`. -/
def cutBlur (a n : Nat) (l : List (Nat × Nat × Nat)) : List (Nat × Nat × Nat) :=
  (l.map (fun r =>
    (if r.1 < a then [(r.1, min r.2.1 (a - r.1), r.2.2)] else [])
      ++ (if a + n < r.1 + r.2.1 then [(max r.1 (a + n), r.1 + r.2.1 - max r.1 (a + n), r.2.2 + (max r.1 (a + n) - r.1))] else []))).flatten

/-- Bytes `n` from `a` become zero: they are no longer listed, and no longer blurred. -/
def State.zeroRange (s : State) (a n : Nat) : State :=
  { s with mem := storeKeep (fun k => k < a || a + n ≤ k) s.mem, blurred := cutBlur a n s.blurred }

/-- Bytes `n` from `a` become undefined: free values, one for each byte (log 6). -/
def State.blurRange (s : State) (a n : Nat) : State :=
  { s with mem := storeKeep (fun k => k < a || a + n ≤ k) s.mem, blurred := cutBlur a n s.blurred ++ [(a, n, s.fresh)],
           fresh := s.fresh + n }

/-- The harbour buffer's image area (15 R398); its bytes read zero until written (log 2). -/
def State.imageByte (s : State) (a : Nat) : Byte := storeGet s.image a 0
def State.imageBytes (s : State) (a n : Nat) : List Byte := (List.range n).map (fun i => s.imageByte (a + i))
def State.storeImage (s : State) (a : Nat) : List Byte → State
  | [] => s
  | b :: bs => ({ s with image := storePut s.image a b 0 }).storeImage (a + 1) bs

/-! Free values, random values, outputs. -/

/-- Draw the next free value (log 6). -/
def State.draw (s : State) : W64 × State := (Config.freeValue s.fresh, { s with fresh := s.fresh + 1 })

/-- Draw the next value of the random bit generator, as `n` bytes (14 R380). -/
def State.random (s : State) (n : Nat) : List Byte × State :=
  (Config.drbg s.drawn n, { s with drawn := s.drawn + 1 })

/-- A fresh key identifier: nonzero, never used before. -/
def State.newKey (s : State) : Nat × State := (s.drawn + 1, { s with drawn := s.drawn + 1 })

/-- Record an output (log 4). -/
def State.emit (s : State) (o : Out) : State := { s with out := s.out ++ [o] }

/-! The tide's registers that everything reads. -/

abbrev fTideState : Fld := ⟨pgTide, 0x00C, 0, 3⟩
abbrev fTideValid : Fld := ⟨pgTide, 0x00C, 3, 1⟩
abbrev fStanding : Fld := ⟨pgTide, 0x00C, 4, 1⟩
abbrev fStandPending : Fld := ⟨pgTide, 0x00C, 5, 1⟩

def State.tideValid (s : State) : Bool := s.bit fTideValid
def State.standing (s : State) : Bool := s.bit fStanding

/-- The local tide as everything but the stand reads it: S during a stand (01 R47; `now` holds still at S). -/
def State.now (s : State) : W64 := s.tide.now

/-- The stamp of an event (17 R440, 19 R467). -/
def State.stamp (s : State) : W64 := if s.tideValid then s.tide.now else 0

/-- The tide T is reached at t (01 R21): (t − T) mod 2^64 lies below 2^63. -/
def tideReached (t target : W64) : Bool := (t - target).toNat < 2 ^ 63

/-! Ownership of pages (17 R442, R451) and the function that sees them. -/

/-- The berth a cluster is bound to, or 0xFF (14 R373). -/
def clusterOwner (s : State) (cl : Nat) : Nat :=
  match (List.range 16).find? (fun b => (s.rd64 (pgBerth b) 0x040).getLsbD cl) with
  | some b => b
  | none => 0xFF

/-- GTAB registers of a group: offset within its entry (10, The GTAB pages). -/
def gOff (g o : Nat) : Nat := 0x040 + 0x40 * (g % 8) + o

/-- The berth or host (0xFF) that owns a group and its queue: GBERTH. -/
def groupOwner (s : State) (g : Nat) : Nat := s.rdN (pgGtab g) (gOff g 0x30)

/-- The keel group a ferry names (09, CTRL.GROUP). -/
def ferryGroup (s : State) (f : Nat) : Nat := s.get ⟨pgFerry f, 0x008, 8, 6⟩

/-- The owner of a ferry: the berth of its keel group, or 0xFF (17 R451). -/
def ferryOwner (s : State) (f : Nat) : Nat :=
  let g := ferryGroup s f
  if s.bit ⟨pgGtab g, gOff g 0x08, 16, 1⟩ then groupOwner s g else 0xFF

/-- BSTAT.STATE of a berth (14 R374). -/
def berthState (s : State) (b : Nat) : Nat := s.get ⟨pgBerth b, 0x050, 0, 3⟩

/-- The OWNER field of a page (17 R451). -/
def pageOwner (s : State) (page : Nat) : Nat :=
  match pageAt page with
  | some (.berth, b) => if 1 ≤ berthState s b && berthState s b ≤ 3 then b else 0xFF
  | some (.cq, g) => groupOwner s g
  | some (.cl, c) => clusterOwner s c
  | some (.core, id) => clusterOwner s (id / 64)
  | some (.ferry, f) => ferryOwner s f
  | some (.slip, j) => ferryOwner s (j / 32)
  | _ => 0xFF

/-- The VF of a berth that exists (14 R373): BCFG.VF, 0 for none. -/
def berthVf (s : State) (b : Nat) : Nat := if berthState s b = 0 then 0 else s.get ⟨pgBerth b, 0x048, 0, 5⟩

/-- The berth that holds VF n (17 R432). -/
def vfBerth (s : State) (vf : Nat) : Option Nat :=
  (List.range 16).find? (fun b => berthState s b != 0 && berthVf s b == vf)

/-- The function a page's events signal to (17 R446). -/
def pageFunc (s : State) (page : Nat) : Nat :=
  match pageAt page with
  | some (.berth, _) => 0
  | _ => let o := pageOwner s page
         if o < 16 then berthVf s o else 0

/-- The interrupt class of a page (17 R446). -/
def pageClass (page : Nat) : Nat :=
  match pageAt page with
  | some (.global, _) | some (.ident, _) | some (.boot, _) => 0
  | some (.tide, _) => 1
  | some (.power, _) => 2
  | some (.therm, _) => 3
  | some (.sec, _) => 4
  | some (.debug, _) => 5
  | some (.log, _) => 6
  | some (.topo, _) => 7
  | some (.lnk, n) => 8 + n
  | some (.hs, _) => 24
  | some (.flash, _) | some (.ftl, _) => 25
  | some (.tier, _) => 26
  | some (.sketch, _) => 27
  | some (.gtab, p) => 28 + p
  | some (.cd, n) => 36 + n
  | some (.cl, n) => 44 + n / 8
  | some (.core, id) => 52 + id / 512
  | some (.ferry, f) => 60 + f
  | some (.slip, j) => 60 + j / 32
  | some (.berth, b) => 68 + b
  | some (.cq, g) => 84 + g
  | none => 255

/-! BAR4 and interrupt signalling (17 R444 to R448). -/

/-- Reset value of a BAR4 word: ROUTE's bytes are their class numbers; the vectors are masked, as PCIe resets them (log 31). -/
def bar4Reset (off : Nat) : W32 :=
  if 0x100 ≤ off && off < 0x200 then
    let k := off - 0x100
    BitVec.ofNat 32 (k + (k + 1) * 2 ^ 8 + (k + 2) * 2 ^ 16 + (k + 3) * 2 ^ 24)
  else if 0x10000 ≤ off && off < 0x11000 && off % 16 == 12 then 1
  else 0

def bar4Key (func off : Nat) : Nat := func * 2 ^ 24 + off
def State.rdBar4 (s : State) (func off : Nat) : W32 := storeGet s.bar4 (bar4Key func off) (bar4Reset off)
def State.wrBar4 (s : State) (func off : Nat) (v : W32) : State :=
  { s with bar4 := storePut s.bar4 (bar4Key func off) v (bar4Reset off) }

/-- The vector of a class for a function: its byte of ROUTE. -/
def classVector (s : State) (func cls : Nat) : Nat :=
  bitsOf (s.rdBar4 func (0x100 + 4 * (cls / 4))).toNat (8 * (cls % 4)) 8

/-- Insert into a strictly rising list. -/
def insertSorted (x : Nat) : List Nat → List Nat
  | [] => [x]
  | y :: ys => if x < y then x :: y :: ys else if x = y then y :: ys else y :: insertSorted x ys

/-- The pages whose EVT AND EVT_EN is not zero, read off the listed EVT registers. -/
def pendingPages (s : State) : List Nat :=
  s.regs.filterMap (fun x =>
    if x.1 % 4096 = 0x010 && (x.2 &&& s.rd (x.1 / 4096) 0x014) ≠ 0 then some (x.1 / 4096) else none)

/-- The PEND bits that are 1: function × 256 + class (17 R447). -/
def pendingClasses (s : State) : List Nat :=
  (pendingPages s).foldl (fun l p => insertSorted (pageFunc s p * 256 + pageClass p) l) []

/-- Send one MSI-X message, or set the vector's PBA bit while it or its function is masked (17 R447). -/
def sendVector (s : State) (func vec : Nat) : State :=
  if s.fmask.contains func || (s.rdBar4 func (0x10000 + 16 * vec + 12)).getLsbD 0 then
    (if s.pba.contains (func, vec) then s else { s with pba := s.pba ++ [(func, vec)] })
  else s.emit (.msix func vec)

/-- Send on each vector once. -/
def sendVectors (s : State) (fv : List (Nat × Nat)) : State :=
  (fv.dedup).foldl (fun t x => sendVector t x.1 x.2) s

/-- ALERT_N is asserted while a THERM or POWER event bit is set and enabled (16 R427). -/
def alertN (s : State) : Bool := (pendingPages s).any (fun p => p == pgTherm || p == pgPower)

/-- The ALERT byte of the I3C target (18 R464). -/
def alertByte (s : State) : Byte :=
  BitVec.ofNat 8 ((if alertN s then 1 else 0) + (if s.boot.phase = .tripped then 2 else 0))

/-- Drive ALERT_N; its assertion raises an in-band interrupt where ENEC has enabled it (18 R464). -/
def driveAlert (s : State) : State :=
  let a := alertN s
  let rose := a && !s.alert
  let s := { s with alert := a }
  if rose && s.i3cIbi then s.emit (.inBand (alertByte s)) else s

/-- Take the PEND bits as they now stand and send for each that rose (17 R447). Every command ends with it. -/
def signal (s : State) : State :=
  let now := pendingClasses s
  let rose := now.filter (fun c => !s.pend.contains c)
  driveAlert (sendVectors { s with pend := now } (rose.map (fun c => (c / 256, classVector s (c / 256) (c % 256)))))

/-- A command's end: its effect, then the interrupts that follow from it. -/
def finish (s : State) : Result := .next (signal s)

/-! The logbook's queue (19 R467 to R470). -/

/-- Entries of one source that wait for the write port. -/
def queuedOf (s : State) (page : Nat) : Nat := (s.log.queue.filter (fun e => e.source.toNat == page)).length

/-- Queue an entry; past 64 waiting it is counted as lost (19 R470). -/
def logAdd (s : State) (e : LogEntry) : State :=
  let p := e.source.toNat
  if queuedOf s p < 64 then { s with log := { s.log with queue := s.log.queue ++ [e] } }
  else
    let old := storeGet s.log.lost p (0, 0)
    let new := if old.1 = 0 then (1, e.tide) else (old.1 + 1, old.2)
    { s with log := { s.log with lost := storePut s.log.lost p new (0, 0) } }

/-- The entry that a source's event makes. -/
def logEntry (s : State) (page kind code bit : Nat) (forced ends : Bool) (d : W32 × W32 × W32 × W32) : LogEntry :=
  { code := BitVec.ofNat 16 code, source := BitVec.ofNat 14 page, kind := BitVec.ofNat 2 kind, bit := BitVec.ofNat 5 bit,
    forced := forced, stand := s.standing, ends := ends, tide := s.stamp, d0 := d.1, d1 := d.2.1, d2 := d.2.2.1,
    d3 := d.2.2.2 }

/-- An adaptation of 00 R8 begins or ends (00 R10): an ADAPT entry of the page that reports it. -/
def logAdapt (s : State) (page : Nat) (ends : Bool) (d0 : Nat := 0) : State :=
  logAdd s (logEntry s page 2 0 0 false ends (BitVec.ofNat 32 d0, 0, 0, 0))

/-! Events (17 R438 to R440). -/

/-- Set an EVT bit: EVT_TIDE is stamped when EVT was zero, and a coded bit loads ERRCODE or sets MORE. -/
def setEvt (s : State) (page bit code : Nat) (forced : Bool) : State :=
  let evt := s.rd page 0x010
  let s := if evt = 0 then s.wr64 page 0x020 s.stamp else s
  let s := s.wr page 0x010 (evt ||| BitVec.ofNat 32 (2 ^ bit))
  if code = 0 then s
  else if s.get ⟨page, 0x01C, 0, 16⟩ = 0 then
    s.wrN page 0x01C (code + bit * 2 ^ 16 + (if forced then 2 ^ 30 else 0))
  else s.put ⟨page, 0x01C, 31, 1⟩ 1

/-- The default data words of an entry (19 R468): EVT after the setting; DEBUG's words under R482. -/
def evtData (s : State) (page : Nat) : W32 × W32 × W32 × W32 :=
  if page = pgDebug then (s.rd pgDebug 0x00C, s.rd pgDebug 0x0B0, s.rd pgDebug 0x0B4, 0) else (s.rd page 0x010, 0, 0, 0)

/-- Raise an event with the data words its rule names. The LOG page's own events are never logged. -/
def raiseWith (s : State) (page bit code : Nat) (d : W32 × W32 × W32 × W32) : State :=
  let t := setEvt s page bit code false
  if page = pgLog then t else logAdd t (logEntry t page 0 code bit false false d)

/-- Raise an event whose rule names no data words. -/
def raise (s : State) (page bit code : Nat) : State :=
  let t := setEvt s page bit code false
  if page = pgLog then t else logAdd t (logEntry t page 0 code bit false false (evtData t page))

/-- Clear EVT bits (17 R438 to R440): clearing the bit named by ERRCODE.BIT clears ERRCODE; EVT_TIDE reads zero while EVT is
zero. -/
def clearEvt (s : State) (page : Nat) (bits : W32) : State :=
  let evt := s.rd page 0x010 &&& ~~~bits
  let held := s.get ⟨page, 0x01C, 0, 16⟩ != 0 && bits.getLsbD (s.get ⟨page, 0x01C, 16, 5⟩)
  let s := s.wr page 0x010 evt
  let s := if held then s.wr page 0x01C 0 else s
  if evt = 0 then s.wr64 page 0x020 0 else s

/-- An access that a rule refuses (17 R449): GLOBAL.EVT.ACCESS, its counter, and the access that loaded ERRCODE. `bar` is 0, 1 or
2 for BAR0, BAR2, BAR4; `page` the page index or offset bits [27:12]. -/
def accessRefused (s : State) (func bar page off : Nat) (write : Bool) : State :=
  let what := page % 2 ^ 16 + off % 4096 * 2 ^ 16 + (if write then 2 ^ 28 else 0)
  let src := func + bar * 2 ^ 5
  let s := s.incSat pgGlobal 0x048
  let s := if s.get ⟨pgGlobal, 0x01C, 0, 16⟩ = 0 then (s.wrN pgGlobal 0x040 what).wrN pgGlobal 0x044 src else s
  raiseWith s pgGlobal 0 0x1008 (BitVec.ofNat 32 what, BitVec.ofNat 32 src, 0, 0)

/-- A refused write of a BAR0 register. -/
def writeRefused (s : State) (page off : Nat) (a : Access) : State := accessRefused s a.func.val 0 page off true

/-! Small list helpers. -/

/-- The element at a position, if there is one. -/
def nth {α : Type} (l : List α) (i : Nat) : Option α :=
  match l, i with
  | [], _ => none
  | x :: _, 0 => some x
  | _ :: xs, i + 1 => nth xs i

/-- Fold over 0 … n − 1. -/
def iterate {α : Type} (n : Nat) (f : Nat → α → α) (a : α) : α := (List.range n).foldl (fun x i => f i x) a

end Sys2Proof.Machine
end

