-- ==== Sys2Proof/Machine/AddrMap.lean ====
section
/-! DEFINITION. The address space of a chip and who may reach what in it: places (05 R126), regions (05 R127, 12 R319, 14 R373),
frozen ranges (09 R247, 13 R352), stopped stacks (16 R425), and HBM's check code (12 R328). -/

namespace Sys2Proof.Machine

/-! Node, power and boot facts that addresses need. -/

/-- This chip's node id (11 R302): TRIAD in [15:2], position in [1:0]. -/
def nodeId (s : State) : Nat := s.get ⟨pgTopo, 0x040, 2, 14⟩ * 4 + s.boot.strap.toNat

/-- Effective state of partition n (16 R418): POWER.STATUS.PSTATE. -/
def partState (s : State) (n : Nat) : Nat := s.get ⟨pgPower, 0x00C, 8 + 2 * n, 2⟩

/-- BOOT.STATUS.STAGE (15 R396). -/
abbrev fStage : Fld := ⟨pgBoot, 0x00C, 0, 4⟩
def stageReady (s : State) : Bool := s.get fStage == 10

/-- The module runs: 48 V is there and no reset holds it (15 R395, 16 R428, 19 R480). -/
def running (s : State) : Bool := decide (s.boot.phase = .running)

/-! Places (05 R126). -/

/-- Where a place address [47:0] lies: an offset in a cluster's scratchpad, or in a stack. -/
inductive Place where
  | scratch (cl off : Nat)
  | hbm (k off : Nat)
deriving DecidableEq, Repr

/-- Bytes of a cluster's scratchpad, and of a stack. -/
abbrev scratchSize : Nat := 0xB000000
abbrev stackSize : Nat := 0x1000000000
abbrev hbmBase : Nat := 0x010000000000

/-- The place of an address's bits [47:0]; none where unmapped. -/
def placeOf (a : Nat) : Option Place :=
  if a < 64 * 0x100000000 then
    (if a % 0x100000000 < scratchSize then some (.scratch (a / 0x100000000) (a % 0x100000000)) else none)
  else if hbmBase ≤ a && a < hbmBase + 32 * stackSize then
    some (.hbm ((a - hbmBase) / stackSize) ((a - hbmBase) % stackSize))
  else none

/-- The place address of an offset in a cluster's scratchpad, and in a stack. -/
def scratchAddr (cl off : Nat) : Nat := cl * 0x100000000 + off
def stackAddr (k off : Nat) : Nat := hbmBase + k * stackSize + off

/-- Every byte of `n` from `a` lies in one place (05 R126). -/
def onePlace (a n : Nat) : Bool :=
  match placeOf a with
  | some (.scratch _ off) => off + n ≤ scratchSize
  | some (.hbm _ off) => off + n ≤ stackSize
  | none => false

/-- An address with bits [63:50] zero that selects this chip: by 3 in [49:48], or by its position (05 R126). -/
def ownChip (s : State) (a : Nat) : Bool := a / 2 ^ 48 == 3 || a / 2 ^ 48 == s.boot.strap.toNat

/-- Bits [47:0]. -/
def placeBits (a : Nat) : Nat := a % 2 ^ 48

/-- An address under R126 on this chip, with [63:50] zero. -/
def onThisChip (s : State) (a : Nat) : Bool := decide (a < 2 ^ 50) && ownChip s a

/-! Regions (05 R127, 12 R319, 14 R373). -/

/-- Registers of region n of berth b (14, The BERTH pages). -/
def regionBase (s : State) (b n : Nat) : Nat := placeBits (s.rd64 (pgBerth b) (0x100 + 16 * n)).toNat
def regionTier (s : State) (b n : Nat) : Nat := s.get ⟨pgBerth b, 0x10C + 16 * n, 0, 1⟩
def regionBound (s : State) (b n : Nat) : Bool := s.bit ⟨pgBerth b, 0x10C + 16 * n, 1, 1⟩
/-- Quota granule of a tier (12 R313). -/
def granule : Nat → Nat
  | 0 => 0x10000
  | 1 => 0x200000
  | _ => 0x4000000
def regionLen (s : State) (b n : Nat) : Nat :=
  s.get ⟨pgBerth b, 0x108 + 16 * n, 0, 21⟩ * granule (regionTier s b n)

/-- Byte `a` lies in [base, base + len). -/
def inRange (a base len : Nat) : Bool := base ≤ a && a < base + len
/-- Two ranges share a byte. -/
def overlap (a n b m : Nat) : Bool := a < b + m && b < a + n && n != 0 && m != 0

/-- Byte `a` lies in a direct region bound to berth b. -/
def inDirectRegion (s : State) (b a : Nat) : Bool :=
  (List.range 16).any (fun n => regionBound s b n && inRange a (regionBase s b n) (regionLen s b n))

/-- The home of an object in tier 0 or 1 (12 R317), as a place address and a length; none without one. -/
def homeRange (e : ObjEntry) : Option (Nat × Nat) :=
  if (e.state = 1 || e.state = 2 || e.state = 4) && e.tier < 2 then some (placeBits e.home.toNat, e.size) else none

/-- Byte `a` lies in the home of an object of `owner`. -/
def inOwnHome (s : State) (owner a : Nat) : Bool :=
  s.objects.any (fun x => x.2.owner == owner &&
    match homeRange x.2 with
    | some (b, n) => inRange a b (roundUp n (granule x.2.tier))
    | none => false)

/-- Byte `a` lies in the home of a HOME object that shares it with berth b (12 R319). -/
def inSharedHome (s : State) (b a : Nat) : Bool :=
  s.objects.any (fun x => x.2.state == 1 && x.2.share.getLsbD b &&
    match homeRange x.2 with
    | some (h, n) => inRange a h (roundUp n (granule x.2.tier))
    | none => false)

/-- Byte `a` lies in the object table (12 R316): its granules are in no region while the tier unit is enabled. -/
def inObjectTable (s : State) (a : Nat) : Bool :=
  s.bit ⟨pgTier, 0x008, 0, 1⟩ &&
    inRange a (placeBits (s.rd64 pgTier 0x040).toNat) (roundUp (32 * s.get ⟨pgTier, 0x048, 0, 21⟩) (granule 1))

/-- A stack is in service, as this bring-up left it (15 R403). -/
def stackInService (s : State) (k : Nat) : Bool := !s.boot.found.hbm.any (fun x => x.1 == k && !x.2.2.2)

/-- Byte `a` lies in a granule withheld at bring-up (12 R329, 15 R402, R403). -/
def inWithheld (s : State) (a : Nat) : Bool :=
  (match placeOf a with
    | some (.hbm k _) => !stackInService s k
    | _ => false)
  || s.withheld.any (fun x => inRange a (x.2 * granule x.1) (granule x.1) &&
    (match placeOf a with
      | some (.scratch _ _) => x.1 == 0
      | some (.hbm _ _) => x.1 == 1
      | none => false))

/-- Byte `a` belongs to the regions of `owner` (a berth 0 to 15, or 0xFF for the host), for reading or for writing (05 R127). -/
def inRegions (s : State) (owner a : Nat) (write : Bool) : Bool :=
  match placeOf a with
  | none => false
  | some p =>
    if owner < 16 then
      (match p with
        | .scratch cl _ => clusterOwner s cl == owner
        | .hbm _ _ => false)
      || inDirectRegion s owner a || inOwnHome s owner a || (!write && inSharedHome s owner a)
    else
      match p with
      | .scratch cl _ => clusterOwner s cl == 0xFF || inOwnHome s 0xFF a
      | .hbm _ _ =>
        inOwnHome s 0xFF a ||
          (!(List.range 16).any (fun b => inDirectRegion s b a || inOwnHome s b a)
            && !inObjectTable s a && !inWithheld s a)

/-- Every byte of `n` from `a` belongs to the regions of `owner`: regions are whole 64 KiB granules, so one byte of each granule
touched decides. -/
def rangeInRegions (s : State) (owner a n : Nat) (write : Bool) : Bool :=
  n == 0 || ((List.range ((a + n - 1) / 0x10000 + 1 - a / 0x10000)).all
    (fun i => inRegions s owner (if i = 0 then a else (a / 0x10000 + i) * 0x10000) write))

/-! Frozen ranges. -/

/-- FERRY.STATUS.STATE (09 R243). -/
def ferryState (s : State) (f : Nat) : Nat := s.get ⟨pgFerry f, 0x00C, 0, 3⟩

/-- The frozen bytes of a schedule in HBM: from ARM until DONE, ABORTED or REFUSED (09 R247). -/
def ferryFrozen (s : State) (f : Nat) : List (Nat × Nat) :=
  if s.bit ⟨pgFerry f, 0x008, 0, 1⟩ &&
      (ferryState s f == 1 || ferryState s f == 2 || (s.ferry f).validating == 1) then
    [(placeBits (s.rd64 (pgFerry f) 0x040).toNat, 64 * s.get ⟨pgFerry f, 0x048, 0, 21⟩)]
  else []

/-- Bits of a sketch and of a full code named by an index header (13 R342, R346). -/
def hdrSkb (h : List Byte) : Nat := 64 * 2 ^ (fieldLE h 5 1 % 4)
def hdrFb (h : List Byte) : Nat := 64 * fieldLE h 6 1

/-- Every range an index header names, the header at `at_` included (13 R346 to R349). -/
def headerRanges (at_ : Nat) (h : List Byte) : List (Nat × Nat) :=
  let items := fieldLE h 8 8
  let side := 2 ^ fieldLE h 80 1
  let sk := hdrSkb h / 8
  let fb := hdrFb h / 8
  ([(at_, 128), (fieldLE h 16 8, 16 * 2 ^ fieldLE h 7 1), (fieldLE h 24 8, items * sk), (fieldLE h 32 8, items * fb),
    (fieldLE h 40 8, 8 * items), (fieldLE h 48 8, 4 * items), (fieldLE h 56 8, 32 * side), (fieldLE h 64 8, side * sk),
    (fieldLE h 72 8, side * fb)].map (fun x => (placeBits x.1, x.2))).filter (fun x => x.2 != 0)

/-- The frozen ranges of one index: its generations, and a header accepted but not yet switched to (13 R352, R368). -/
def indexFrozen (x : Index) : List (Nat × Nat) :=
  if x.state = 0 then []
  else (x.gens.map (fun g => headerRanges g.at_ g.hdr)).flatten

/-- GSTAT.STATE of a group (10, The GTAB pages). -/
def groupState (s : State) (g : Nat) : Nat := s.get ⟨pgGtab g, gOff g 0x20, 0, 3⟩

/-- The member array of a created group, until DELETE (10 R265, R267). -/
def groupFrozen (s : State) (g : Nat) : List (Nat × Nat) :=
  if 1 ≤ groupState s g && groupState s g ≤ 6 then
    [(placeBits (s.rd64 (pgGtab g) (gOff g 0x00)).toNat, 4 * s.get ⟨pgGtab g, gOff g 0x08, 0, 16⟩)]
  else []

/-- Every frozen range of the chip. -/
def frozenRanges (s : State) : List (Nat × Nat) :=
  ((List.range 8).map (ferryFrozen s)).flatten ++ ((List.range 64).map (groupFrozen s)).flatten
    ++ (s.indexes.map (fun x => indexFrozen x.2)).flatten

/-- Some byte of `n` from `a` is frozen. -/
def frozen (s : State) (a n : Nat) : Bool := (frozenRanges s).any (fun r => overlap a n r.1 r.2)

/-- Issue to the stack is stopped, or its die is in P2 (16 R418, R424, R425). -/
def stackStopped (s : State) (k : Nat) : Bool := s.bit ⟨pgTherm, 0x058, k, 1⟩ || partState s (k / 4) == 2

/-- The place lies in a stopped stack, or in a cluster whose die is in P2. -/
def placeStopped (s : State) (a : Nat) : Bool :=
  match placeOf a with
  | some (.hbm k _) => stackStopped s k
  | some (.scratch cl _) => partState s (cl / 8) == 2
  | none => false

/-- The place lies in a cluster or partition whose reset is in progress (15 R411): writes are absorbed, reads end ABSORBED. -/
def placeResetting (s : State) (a : Nat) : Bool :=
  s.boot.resets.any (fun r => match r, placeOf a with
    | .cluster c, some (.scratch cl _) => c.val == cl
    | .partition n, some (.scratch cl _) => n.val == cl / 8
    | .partition n, some (.hbm k _) => n.val == k / 4
    | _, _ => false)

/-- A reset covers the cluster, or the core (15 R410). -/
def clusterResetting (s : State) (cl : Nat) : Bool :=
  s.boot.resets.any (fun r => match r with
    | .core _ => false
    | .cluster c => c.val == cl
    | .partition n => n.val == cl / 8)
def coreResetting (s : State) (id : CoreId) : Bool :=
  clusterResetting s (id.toNat / 64) || s.boot.resets.contains (.core id)

/-! Checks of one core access (05 R127, R126; 08 R224). -/

/-- The fault code of an access of `n` bytes at the 64-bit address `a` by `owner`, or none. Alignment is the caller's. -/
def accessFault (s : State) (owner a n : Nat) (write : Bool) : Option Nat :=
  if 2 ^ 50 ≤ a then some 0x1002
  else
    let p := placeBits a
    if !onePlace p (if n = 0 then 1 else n) then some 0x1002
    else if !ownChip s a then none
    else if !inRegions s owner p write then some 0x1002
    else if !rangeInRegions s owner p n write then
      (match placeOf p with
        | some (.scratch _ _) => some 0x2106
        | _ => some 0x1002)
    else if write && frozen s p n then some 0x1002
    else none

/-! HBM's check code (12 R328) over the memory operations. -/

/-- The 32-byte units an access touches. -/
def unitsOf (a n : Nat) : List Nat := if n = 0 then [] else (List.range ((a + n - 1) / 32 + 1 - a / 32)).map (fun i => a / 32 + i)

/-- Some unit of the access holds uncorrectable data. -/
def poisoned (s : State) (a n : Nat) : Bool := s.poison.any (fun u => (unitsOf a n).contains u)

/-- Count bytes moved by a stack (HS BYTES_RD, BYTES_WR). -/
def countHbm (s : State) (a n off : Nat) : State :=
  match placeOf a with
  | some (.hbm k _) => s.add64 (pgHs k) off n
  | _ => s

/-- An uncorrectable read at `a` (12 R328): UE_COUNT and 0x700A on the stack's page. -/
def uncorrectable (s : State) (a : Nat) : State :=
  match placeOf a with
  | some (.hbm k _) => raise (s.incSat (pgHs k) 0x044) (pgHs k) 0 0x700A
  | _ => s

/-- A write lands in tiles of objects that are moving: a tile already copied becomes dirty (12 R325). -/
def dirtyTiles (s : State) (a n : Nat) : State :=
  { s with tierMoves := s.tierMoves.map (fun m =>
      let e := s.obj m.obj
      match homeRange e with
      | none => m
      | some (b, size) =>
        if overlap a n b size then
          { m with tiles := m.tiles.map (fun x =>
              if x.2 = .confirmed && overlap a n (b + x.1 * 2 ^ e.tileLog2) (2 ^ e.tileLog2) then (x.1, .dirty) else x) }
        else m) }

/-- Write bytes at a place: a unit that is uncorrectable stays so unless all 32 of its bytes are written, and its merge read is an
uncorrectable read (12 R328). -/
def memWrite (s : State) (a : Nat) (bs : List Byte) : State :=
  let n := bs.length
  let whole := fun u => a ≤ 32 * u && 32 * u + 32 ≤ a + n
  let bad := s.poison.filter (fun u => (unitsOf a n).contains u && !whole u)
  let s := countHbm s a n 0x060
  let s := if bad.isEmpty then s.storeBytes a bs
    else bs.zipIdx.foldl (fun t x => if bad.contains ((a + x.2) / 32) then t else t.storeByte (a + x.2) x.1) s
  let s := { s with poison := s.poison.filter (fun u => !((unitsOf a n).contains u && whole u)) }
  let s := dirtyTiles s a n
  bad.foldl (fun t u => uncorrectable t (32 * u)) s

/-- Read bytes at a place, counting them. -/
def memRead (s : State) (a n : Nat) : List Byte × State := (s.bytes a n, countHbm s a n 0x058)

/-- Mark a unit uncorrectable. -/
def markPoison (s : State) (a : Nat) : State := { s with poison := insertSorted (a / 32) s.poison }

end Sys2Proof.Machine
end

