-- ==== Sys2Proof/Machine/Access.lean ====
section
/-! DEFINITION. What every host write of a register meets first (17 R432 to R436, R441), and operations many chapters share:
CRC-32C, trained links, the closing of debug access, and the three cases of a scheduled tide (01 R21, R22). -/

namespace Sys2Proof.Machine

/-! CRC-32C. -/

/-- The eight shifts of one byte, reflected polynomial 0x82F63B78. -/
def crcShift (n : Nat) (c : W32) : W32 :=
  match n with
  | 0 => c
  | k + 1 => crcShift k (if c.getLsbD 0 then (c >>> 1) ^^^ BitVec.ofNat 32 0x82F63B78 else c >>> 1)

/-- The running CRC over more bytes, without the final complement. -/
def crcBytes (c : W32) : List Byte → W32
  | [] => c
  | b :: bs => crcBytes (crcShift 8 (c ^^^ b.setWidth 32)) bs

/-- CRC-32C of bytes: initial value and final complement all ones. -/
def crc32c (bs : List Byte) : W32 := ~~~(crcBytes (BitVec.allOnes 32) bs)

/-! The host. -/

/-- The PCIe link is up: step 3 of bring-up has been reached (15 R396). -/
def hostUp (s : State) : Bool := running s && decide (2 ≤ s.get fStage)

/-- What becomes of a host write. -/
inductive Gate where
  | take | drop | refuse
deriving DecidableEq, Repr

/-- Registers that only the PF writes, on pages a berth may own: the BERTH page but for its function block and ring, RESET_CMD
(12 R315, 14 R375, 15 The CL pages). -/
def pfOnly (k : PageKind) (off : Nat) : Bool :=
  match k with
  | .berth => off == 0x048 || off == 0x04C || (0x100 ≤ off && off < 0x200) || off == 0x640 || off == 0x644 || off == 0x648
  | .cl => off == 0x050
  | .global | .ident | .boot | .tide | .power | .therm | .sec | .debug | .log | .lnk | .topo | .cq | .gtab | .hs | .flash
  | .ftl | .tier | .sketch | .cd | .ferry | .slip | .core => false

/-- The page is a cluster's or a core's whose partition's effective state is P2 (17 R436). -/
def pageInP2 (s : State) (k : PageKind) (n : Nat) : Bool :=
  match k with
  | .cl => partState s (n / 8) == 2
  | .core => partState s (n / 512) == 2
  | .global | .ident | .boot | .tide | .power | .therm | .sec | .debug | .log | .berth | .lnk | .topo | .cq | .gtab | .hs
  | .flash | .ftl | .tier | .sketch | .cd | .ferry | .slip => false

/-- KEYLOCK.LOCK of a page; a page of the host reads 0 (17 R441). -/
def pageLocked (s : State) (page : Nat) : Bool := pageOwner s page != 0xFF && s.bit ⟨page, 0x028, 0, 1⟩

/-- The write comes on the IDE stream of the berth that owns the page (14 R391). -/
def onOwnersStream (s : State) (page : Nat) (a : Access) : Bool :=
  a.ide && a.func.val != 0 && vfBerth s a.func.val == some (pageOwner s page)

/-- The function is a VF whose berth is being torn down: its requests complete with Unsupported Request (14 R377). -/
def vfClosed (s : State) (f : Nat) : Bool :=
  f != 0 && (match vfBerth s f with
    | some b => (s.berth b).closed
    | none => false)

/-- The gate of a write of one BAR0 word (00 R15; 17 R432 to R436, R441). -/
def writeGate (s : State) (page off : Nat) (a : Access) : Gate :=
  let f := a.func.val
  if vfClosed s f then .drop
  else if a.be ≠ 15 then .refuse
  else if f ≠ 0 && vfBerth s f == none then .refuse
  else match pageAt page, rowAt page off with
    | some (k, n), some (r, _, _) =>
      if f ≠ 0 && decide (k = .ident) then .drop
      else if f ≠ 0 && vfBerth s f != some (pageOwner s page) then .refuse
      else if pageInP2 s k n then .refuse
      else if f ≠ 0 && pfOnly k off then .refuse
      else match r.kind with
        | .ro => .drop
        | .rw => .take
        | .wo => .take
        | .rwl => if pageLocked s page && !onOwnersStream s page a then .refuse else .take
    | _, _ => .refuse

/-- A host write of one BAR0 word: `effect` is what the register does with the data. -/
def hostWrite (page off : Nat) (a : Access) (effect : State → W32 → State) (s : State) : Result :=
  if !hostUp s then .next s
  else match writeGate s page off a with
    | .take => finish (effect s a.data)
    | .drop => .next s
    | .refuse => finish (writeRefused s page off a)

/-- A host write of a doorbell of BAR4, which is a write of the named TAIL on `page` (17 R444, R445). -/
def doorbellWrite (page off : Nat) (a : Access) (effect : State → W32 → State) (s : State) : Result :=
  let f := a.func.val
  if !hostUp s || vfClosed s f then .next s
  else if a.be ≠ 15 || (f ≠ 0 && (vfBerth s f == none || vfBerth s f != some (pageOwner s page)))
      || (pageLocked s page && !onOwnersStream s page a) then finish (accessRefused s f 2 (off / 4096) off true)
  else finish (effect s a.data)

/-! Links. -/

/-- LNKn.STATUS.STATE is UP or NARROW (11 R298). -/
def linkState (s : State) (n : Nat) : Nat := s.get ⟨pgLnk n, 0x00C, 0, 3⟩
def trained (s : State) (n : Nat) : Bool := linkState s n == 2 || linkState s n == 3
def trainedLinks (s : State) : List Nat := (List.range 16).filter (trained s)

/-! Debug access (19 R475 to R478). -/

abbrev fDebugLevel : Fld := ⟨pgDebug, 0x00C, 0, 2⟩
abbrev fChalValid : Fld := ⟨pgDebug, 0x00C, 2, 1⟩
abbrev fDebugBusy : Fld := ⟨pgDebug, 0x00C, 3, 1⟩
abbrev fDebugCause : Fld := ⟨pgDebug, 0x00C, 4, 4⟩
abbrev fNoExpiry : Fld := ⟨pgDebug, 0x00C, 8, 1⟩
def debugLevel (s : State) : Nat := s.get fDebugLevel

/-- Open access closes (19 R478): the TAP resets, OBS_SEL returns to zero, a pending RESPOND is abandoned with its challenge. -/
def shutDebug (s : State) : State :=
  let s := ((s.put fDebugLevel 0).put fNoExpiry 0).wr pgDebug 0x0C0 0
  let s := if s.responding then (s.put fDebugBusy 0).put fChalValid 0 else s
  { s with responding := false, tapIr := 1 }

/-- Close and raise CLOSED, if access is open. -/
def closeDebug (s : State) : State := if debugLevel s = 0 then s else raise (shutDebug s) pgDebug 1 0

/-- The tide becomes valid: access opened with EXPIRY all ones closes (19 R478). -/
def tideBecameValid (s : State) : State := if s.bit fNoExpiry then closeDebug s else s

/-! Scheduled tides. -/

/-- TIDE.STATUS.STATE. -/
def tideState (s : State) : Nat := s.get fTideState

/-- Events scheduled at a tide take place: the tide is valid and the chip neither in ACQUIRE nor in LOST (01 R39, R42, R485). -/
def tideRuns (s : State) : Bool := s.tideValid && tideState s != 1 && tideState s != 4

/-- A scheduled tide is reached and its event may take place (01 R21, R42, R46). -/
def reachedNow (s : State) (target : W64) : Bool := tideRuns s && tideReached s.now target

/-- What R22 makes of an event scheduled at a tide. -/
inductive TideCase where
  | invalid | reached | ahead | range
deriving DecidableEq, Repr

def tideCase (s : State) (target : W64) : TideCase :=
  if !s.tideValid then .invalid
  else if tideReached s.now target then .reached
  else if (target - s.now).toNat < 2 ^ 62 then .ahead
  else .range

/-- The tide is refused under R22. -/
def refusedR22 (s : State) (target : W64) : Bool := tideCase s target == .invalid || tideCase s target == .range

end Sys2Proof.Machine
end

