-- ==== Sys2Proof/Machine/FerrySched.lean ====
section
/-! DEFINITION. Ferry schedules as data (09 R238, R242): the entries of a schedule, the values of the current iteration, and the
zones now expected. -/

namespace Sys2Proof.Machine

/-- A schedule entry (09 R238). `clean`: every reserved field is zero. -/
structure Sched where
  depart : W64
  due : W64
  addr : Nat
  seq : BitVec 32
  peer : BitVec 16
  len : Nat
  kind : Nat
  port : Nat
  routed : Bool
  gateEn : Bool
  gate : Nat
  gateVal : BitVec 32
  dest : Nat
  clean : Bool
deriving DecidableEq, Repr

abbrev skMark : Nat := 0
abbrev skSail : Nat := 1
abbrev skLand : Nat := 2
abbrev skEnd : Nat := 3

/-- An entry from its 64 bytes. MARK and END use only DEPART and KIND; an END whose DEPART is zero acts with the entry before it
(log 41). -/
def schedOf (b : List Byte) : Sched :=
  let ctrl := fieldLE b 32 4
  let kind := bitsOf ctrl 0 2
  let rest := fieldLE b 8 24 + fieldLE b 36 12 + bitsOf ctrl 2 30
  let own := match kind with
    | 0 => rest == 0
    | 3 => rest == 0
    | 1 => bitsOf ctrl 8 1 == 0 && bitsOf ctrl 9 6 == 0 && fieldLE b 36 4 == 0
    | _ => fieldLE b 40 8 == 0 && (bitsOf ctrl 8 1 == 1 || (fieldLE b 36 4 == 0 && bitsOf ctrl 9 6 == 0))
  { depart := BitVec.ofNat 64 (fieldLE b 0 8), due := BitVec.ofNat 64 (fieldLE b 8 8),
    addr := fieldLE b 16 8 % 2 ^ 50, seq := BitVec.ofNat 32 (fieldLE b 24 4), peer := BitVec.ofNat 16 (fieldLE b 28 2),
    len := fieldLE b 30 2 % 2 ^ 11, kind := kind, port := bitsOf ctrl 2 5, routed := bitsOf ctrl 7 1 == 1,
    gateEn := bitsOf ctrl 8 1 == 1, gate := bitsOf ctrl 9 6, gateVal := BitVec.ofNat 32 (fieldLE b 36 4),
    dest := fieldLE b 40 8 % 2 ^ 50,
    clean := own && fieldLE b 16 8 / 2 ^ 50 == 0 && fieldLE b 30 2 / 2 ^ 11 == 0 && bitsOf ctrl 15 17 == 0
      && fieldLE b 40 8 / 2 ^ 50 == 0 && fieldLE b 48 16 == 0 }

/-- The page and offset of slip entry j (09, The FERRY pages). -/
def slipPage (f j : Nat) : Nat := pgFerry f + 1 + j / 63
def slipOff (j : Nat) : Nat := 0x040 + 64 * (j % 63)

/-- The 64 bytes of slip entry j. -/
def slipBytes (s : State) (f j : Nat) : List Byte :=
  ((List.range 16).map (fun w => bytesLE 4 (s.rdN (slipPage f j) (slipOff j + 4 * w)))).flatten

/-- The ferry runs from HBM (CTRL.SOURCE = 1). -/
def ferryHbm (s : State) (f : Nat) : Bool := s.bit ⟨pgFerry f, 0x008, 0, 1⟩
def schedLen (s : State) (f : Nat) : Nat := s.get ⟨pgFerry f, 0x048, 0, 21⟩
def schedBase (s : State) (f : Nat) : Nat := placeBits (s.rd64 (pgFerry f) 0x040).toNat

/-- The 64 bytes of schedule entry k. -/
def entryBytes (s : State) (f k : Nat) : List Byte :=
  if ferryHbm s f then s.bytes (schedBase s f + 64 * k) 64 else slipBytes s f k

/-- Entry k as written. -/
def rawEntry (s : State) (f k : Nat) : Sched := schedOf (entryBytes s f k)

/-- The raw DEPART of entry k: an END's zero DEPART stands for that of the entry before it. -/
def rawDepart (s : State) (f k : Nat) : W64 :=
  let e := rawEntry s f k
  if e.kind = skEnd && e.depart = 0 && 0 < k then (rawEntry s f (k - 1)).depart else e.depart

/-- Entry k in iteration i (09 R242). -/
def entryAt (s : State) (f i k : Nat) : Sched :=
  let e := rawEntry s f k
  let p := s.rd64 (pgFerry f) 0x058 * BitVec.ofNat 64 i
  { e with depart := rawDepart s f k + p, due := e.due + p,
           seq := e.seq + s.rd (pgFerry f) 0x060 * BitVec.ofNat 32 i,
           gateVal := e.gateVal + s.rd (pgFerry f) 0x064 * BitVec.ofNat 32 i }

/-- The current iteration, ITER. -/
def ferryIter (s : State) (f : Nat) : Nat := s.get ⟨pgFerry f, 0x074, 0, 16⟩

/-- The oldest iteration in which entry k is not in a list, if there is one up to the current. -/
def oldestLeft (s : State) (f k : Nat) (l : List (Nat × Nat)) : Option Nat :=
  (List.range (ferryIter s f + 1)).find? (fun i => !l.contains (i, k))

/-- The zones now expected and not yet confirmed: ferry, iteration, entry, place address, bytes (09 R248). -/
def openZones (s : State) : List (Nat × Nat × Nat × Nat × Nat) :=
  ((List.range 8).map (fun f =>
    if ferryState s f = 2 then
      ((s.ferry f).opened.filter (fun k => !(s.ferry f).done.contains k)).map (fun k =>
        let e := entryAt s f k.1 k.2
        (f, k.1, k.2, placeBits e.addr, e.len * 4096))
    else [])).flatten

/-- Bytes of the payload that a landing expects. -/
def landLen (l : Landing) : Nat := fieldLE l.hdr 16 2 * 4096
/-- The landing address of a consignment that lands in memory. -/
def landAddr (l : Landing) : Option Nat := l.addr

/-- Granule g (4 KiB) of a landing has landed whole in the current attempt. -/
def granuleLanded (l : Landing) (g : Nat) : Bool :=
  (l.st = .landing || l.st = .checked || l.st = .confirmed) && !l.failed && decide ((g + 1) * 1024 ≤ l.words.length)

/-- The unconfirmed landings whose area an access touches. -/
def landingsAt (s : State) (a n : Nat) : List Landing :=
  s.landing.filter (fun l => l.st != .confirmed && (match l.target with
      | .absorbed => false
      | .ferry f i k => (s.ferry f).opened.contains (i, k)
      | _ => true) &&
    match landAddr l with
    | some b => overlap a n b (landLen l)
    | none => false)

/-- The bytes of an access that a landing covers have all landed. -/
def landedFor (l : Landing) (a n : Nat) : Bool :=
  match landAddr l with
  | none => true
  | some b =>
    let lo := if a ≤ b then 0 else (a - b) / 4096
    let hi := (min (a + n) (b + landLen l) - b - 1) / 4096
    (List.range (hi + 1 - lo)).all (fun i => granuleLanded l (lo + i))

/-- A read touches an expected granule of an open zone whose consignment has not begun to land (09 R248). -/
def zoneUnlanded (s : State) (a n : Nat) : Bool :=
  (openZones s).any (fun z => overlap a n z.2.2.2.1 z.2.2.2.2 &&
    !s.landing.any (fun l => l.target == .ferry z.1 z.2.1 z.2.2.1 && l.st != .exhausted))

/-- The consignments that an access waits for: those landing in its bytes, and those its open zones expect (02 R80). -/
def waitKeys (s : State) (a n : Nat) : List ConsKey :=
  (landingsAt s a n).map (fun l => l.key) ++
    ((openZones s).filter (fun z => overlap a n z.2.2.2.1 z.2.2.2.2)).map (fun z =>
      let e := entryAt s z.1 z.2.1 z.2.2.1
      { src := e.peer, kind := 1, stream := BitVec.ofNat 16 (ferryGroup s z.1), seq := e.seq })

/-- A write touches bytes that a held consignment sails from: it waits until the source is released (02 R58). -/
def heldBlocks (s : State) (a n : Nat) : Bool := s.held.any (fun h => overlap a n h.addr h.len)

end Sys2Proof.Machine
end

