-- ==== Sys2Proof/Machine/Flags.lean ====
section
/-! DEFINITION. Number formats, exact values, and the one rounding function of the FJ1 with the arithmetic flags it sets
(03_number_formats). -/

namespace Sys2Proof.Machine

/-! The bits of AFLAGS (03 R100), as numbers to be joined by bitwise or. -/

abbrev afInvalid : Nat := 1
abbrev afDivzero : Nat := 2
abbrev afOverflow : Nat := 4
abbrev afUnderflow : Nat := 8
abbrev afInexact : Nat := 16
abbrev afSaturated : Nat := 32
abbrev afFlushed : Nat := 64
abbrev afMxnan : Nat := 128

/-- An exact value: NaN, an infinity, or (−1)^neg × m × 2^e. A zero keeps its sign. -/
inductive Num where
  | nan
  | inf (neg : Bool)
  | fin (neg : Bool) (m : Nat) (e : Int)
deriving DecidableEq, Repr

/-- A floating format (03 R86): exponent and fraction bits, bias, what it can hold; `mmax`, `qmax`: its largest finite value is
mmax × 2^qmax; `nanBits`: its canonical NaN (R89). -/
structure FloatFmt where
  eb : Nat
  fb : Nat
  bias : Nat
  hasInf : Bool
  hasNan : Bool
  hasSub : Bool
  mmax : Nat
  qmax : Int
  nanBits : Nat
deriving DecidableEq, Repr

def fmtFp32 : FloatFmt := ⟨8, 23, 127, true, true, true, 2 ^ 24 - 1, 104, 0x7FC00000⟩
def fmtFp16 : FloatFmt := ⟨5, 10, 15, true, true, true, 2 ^ 11 - 1, 5, 0x7E00⟩
def fmtBf16 : FloatFmt := ⟨8, 7, 127, true, true, true, 2 ^ 8 - 1, 120, 0x7FC0⟩
def fmtE4m3 : FloatFmt := ⟨4, 3, 7, false, true, true, 14, 5, 0x7F⟩
def fmtE5m2 : FloatFmt := ⟨5, 2, 15, true, true, true, 7, 13, 0x7E⟩
def fmtE3m2 : FloatFmt := ⟨3, 2, 3, false, false, true, 7, 2, 0⟩
def fmtE2m3 : FloatFmt := ⟨2, 3, 1, false, false, true, 15, -1, 0⟩
def fmtE2m1 : FloatFmt := ⟨2, 1, 1, false, false, true, 3, 1, 0⟩
def fmtXf40 : FloatFmt := ⟨8, 31, 127, true, true, false, 2 ^ 32 - 1, 96, 0x7FC0000000⟩

/-- Format codes (03 R86). -/
abbrev cFp32 : Nat := 0x0
abbrev cInt32 : Nat := 0x8
abbrev cE8m0 : Nat := 0xC
abbrev cBit : Nat := 0xD
abbrev cXf40 : Nat := 0xE

/-- The floating format of a code (03 R86); E8M0 and the integer formats are none. -/
def floatFmt : Nat → Option FloatFmt
  | 0 => some fmtFp32 | 1 => some fmtFp16 | 2 => some fmtBf16 | 3 => some fmtE4m3 | 4 => some fmtE5m2 | 5 => some fmtE3m2
  | 6 => some fmtE2m3 | 7 => some fmtE2m1 | 14 => some fmtXf40 | _ => none

/-- The width in bits of an integer format's code; 0 for the others. -/
def intWidth : Nat → Nat
  | 8 => 32 | 9 => 16 | 10 => 8 | 11 => 4 | _ => 0

/-- The width in bits of an element of a format (03 R86). -/
def fmtBits : Nat → Nat
  | 0 => 32 | 1 => 16 | 2 => 16 | 3 => 8 | 4 => 8 | 5 => 6 | 6 => 6 | 7 => 4 | 8 => 32 | 9 => 16 | 10 => 8 | 11 => 4
  | 12 => 8 | 13 => 1 | 14 => 40 | _ => 0

/-- The formats that take block scaling (03 R91). -/
def isMx (c : Nat) : Bool := 3 ≤ c && c ≤ 7

/-- The exponent of an MX element format's largest normal value (03 R94). -/
def mxEmax : Nat → Int
  | 3 => 8 | 4 => 15 | 5 => 4 | 6 => 2 | 7 => 2 | _ => 0

/-- The exact value of the bits of a floating format (03 R86 to R89). -/
def floatValue (f : FloatFmt) (bits : Nat) : Num :=
  let frac := bitsOf bits 0 f.fb
  let ex := bitsOf bits f.fb f.eb
  let neg := bitsOf bits (f.fb + f.eb) 1 == 1
  let top := 2 ^ f.eb - 1
  if f.hasInf && ex == top then (if frac = 0 then .inf neg else .nan)
  else if f.hasNan && !f.hasInf && ex == top && frac == 2 ^ f.fb - 1 then .nan
  else if ex = 0 then
    (if f.hasSub then .fin neg frac (1 - (f.bias : Int) - (f.fb : Int)) else .fin neg 0 0)
  else .fin neg (2 ^ f.fb + frac) ((ex : Int) - (f.bias : Int) - (f.fb : Int))

/-- Two's-complement value of `w` bits. -/
def signedOf (w bits : Nat) : Int :=
  let v := bits % 2 ^ w
  if v < 2 ^ (w - 1) then (v : Int) else (v : Int) - 2 ^ w

/-- An integer as an exact value; zero is +0. -/
def numOfInt (v : Int) : Num := .fin (v < 0) v.natAbs 0

/-- The exact value of an element of any format but BIT (03 R86, R87, R105). -/
def elemValue (code bits : Nat) : Num :=
  match floatFmt code with
  | some f => floatValue f bits
  | none =>
    if code = cE8m0 then (if bits % 256 = 255 then .nan else .fin false 1 ((bits % 256 : Nat) - 127))
    else numOfInt (signedOf (intWidth code) bits)

/-- Is the value a zero? -/
def numIsZero : Num → Bool
  | .fin _ 0 _ => true
  | _ => false

def numNeg : Num → Num
  | .nan => .nan
  | .inf n => .inf (!n)
  | .fin n m e => .fin (!n) m e

/-- The sign of a value; false for NaN. -/
def numSign : Num → Bool
  | .nan => false
  | .inf n => n
  | .fin n _ _ => n

/-- Exact product (03 R103 for the special values). -/
def numMul (x y : Num) : Num :=
  match x, y with
  | .nan, _ => .nan
  | _, .nan => .nan
  | .inf a, .inf b => .inf (a != b)
  | .inf a, .fin b m _ => if m = 0 then .nan else .inf (a != b)
  | .fin a m _, .inf b => if m = 0 then .nan else .inf (a != b)
  | .fin a m e, .fin b n f => .fin (a != b) (m * n) (e + f)

/-- (−1)^neg × m × 2^e at the exponent `e0 ≤ e`, as an integer. -/
def numAt (neg : Bool) (m : Nat) (e e0 : Int) : Int :=
  let v : Int := (m * 2 ^ (e - e0).toNat : Nat)
  if neg then -v else v

/-- Exact sum; `zneg`: the sign of a sum that is zero without both terms being zeros of one sign. -/
def numAdd (zneg : Bool) (x y : Num) : Num :=
  match x, y with
  | .nan, _ => .nan
  | _, .nan => .nan
  | .inf a, .inf b => if a = b then .inf a else .nan
  | .inf a, .fin _ _ _ => .inf a
  | .fin _ _ _, .inf b => .inf b
  | .fin a m e, .fin b n f =>
    if m = 0 && n = 0 then .fin (if a = b then a else zneg) 0 0
    else if m = 0 then .fin b n f
    else if n = 0 then .fin a m e
    else
      let e0 := if e ≤ f then e else f
      let v := numAt a m e e0 + numAt b n f e0
      if v = 0 then .fin zneg 0 0 else .fin (v < 0) v.natAbs e0

/-- Order of two values that are not NaN: x < y, as IEEE 754 (the zeros are equal). -/
def numLt (x y : Num) : Bool :=
  match x, y with
  | .nan, _ => false
  | _, .nan => false
  | .inf a, .inf b => a && !b
  | .inf a, .fin _ _ _ => a
  | .fin _ _ _, .inf b => !b
  | .fin a m e, .fin b n f =>
    let e0 := if e ≤ f then e else f
    numAt a m e e0 < numAt b n f e0

def numEq (x y : Num) : Bool :=
  match x, y with
  | .nan, _ => false
  | _, .nan => false
  | x, y => !numLt x y && !numLt y x

/-! Rounding. -/

/-- Rounding modes (03 R95). -/
abbrev rmRNE : Nat := 0
abbrev rmRTZ : Nat := 1
abbrev rmRDN : Nat := 2
abbrev rmRUP : Nat := 3

/-- Round n / 2^sh to an integer in mode `rm` for a value of sign `neg`; the second part says whether it was exact. -/
def roundShift (rm : Nat) (neg : Bool) (n sh : Nat) : Nat × Bool :=
  let q := n / 2 ^ sh
  let r := n % 2 ^ sh
  if r = 0 then (q, true)
  else
    let up := match rm with
      | 0 => 2 ^ sh < 2 * r || (2 * r == 2 ^ sh && q % 2 == 1)
      | 1 => false
      | 2 => neg
      | _ => !neg
    (if up then q + 1 else q, false)

/-- A result and the flags it sets. -/
structure Rounded where
  bits : Nat
  flags : Nat
deriving DecidableEq, Repr

/-- The bits of a zero, an infinity, the largest finite value of a format. -/
def signBit (f : FloatFmt) (neg : Bool) : Nat := if neg then 2 ^ (f.eb + f.fb) else 0
def infBits (f : FloatFmt) (neg : Bool) : Nat := signBit f neg + (2 ^ f.eb - 1) * 2 ^ f.fb
/-- The bits of m × 2^q, normalized to at most fb + 1 bits, q at least the subnormal exponent. -/
def packBits (f : FloatFmt) (neg : Bool) (m : Nat) (q : Int) : Nat :=
  if m < 2 ^ f.fb then signBit f neg + m
  else signBit f neg + (q + (f.fb : Int) + (f.bias : Int)).toNat * 2 ^ f.fb + (m - 2 ^ f.fb)
def maxBits (f : FloatFmt) (neg : Bool) : Nat := packBits f neg f.mmax f.qmax

/-- Does mode `rm` round away from zero at overflow for this sign (03 R97, second table)? -/
def roundsAway (rm : Nat) (neg : Bool) : Bool :=
  match rm with
  | 0 => true
  | 1 => false
  | 2 => neg
  | _ => !neg

/-- Overflow of a conversion (03 R97, second table): formats without NaN always give their largest value. -/
def overflowTo (f : FloatFmt) (rm : Nat) (sat neg : Bool) : Rounded :=
  if sat || !f.hasNan then ⟨maxBits f neg, afOverflow + afInexact + afSaturated⟩
  else if roundsAway rm neg then
    (if f.hasInf then ⟨infBits f neg, afOverflow + afInexact⟩ else ⟨f.nanBits, afOverflow + afInexact⟩)
  else ⟨maxBits f neg, afOverflow + afInexact⟩

/-- Conversion of an exact value to a floating format (03 R97; R88 for XF40, which has no subnormals). -/
def convertTo (f : FloatFmt) (rm : Nat) (sat : Bool) (x : Num) : Rounded :=
  match x with
  | .nan => if f.hasNan then ⟨f.nanBits, 0⟩ else ⟨0, afInvalid⟩
  | .inf neg =>
    if f.hasInf then ⟨infBits f neg, 0⟩
    else if f.hasNan && !sat then ⟨f.nanBits, afInvalid⟩
    else ⟨maxBits f neg, afSaturated⟩
  | .fin neg 0 _ => ⟨signBit f neg, 0⟩
  | .fin neg m e =>
    let top := (Nat.log2 m : Int) + e
    let qmin := 1 - (f.bias : Int) - (f.fb : Int)
    let q0 := top - (f.fb : Int)
    let q := if f.hasSub && decide (q0 < qmin) then qmin else q0
    let r := if q ≤ e then (m * 2 ^ (e - q).toNat, true) else roundShift rm neg m (q - e).toNat
    let mant := if r.1 = 2 ^ (f.fb + 1) then 2 ^ f.fb else r.1
    let q := if r.1 = 2 ^ (f.fb + 1) then q + 1 else q
    if mant = 0 then ⟨signBit f neg, afInexact + afUnderflow⟩
    else if q > f.qmax || (q = f.qmax && mant > f.mmax) then overflowTo f rm sat neg
    else if q < qmin then ⟨signBit f neg, afFlushed + afInexact + afUnderflow⟩
    else
      let flags := if r.2 then 0 else if mant < 2 ^ f.fb then afInexact + afUnderflow else afInexact
      ⟨packBits f neg mant q, flags⟩

/-- Conversion of a value to a two's-complement integer of `w` bits (03 R98): the bits, and the flags. -/
def convertInt (w rm : Nat) (x : Num) : Rounded :=
  match x with
  | .nan => ⟨0, afInvalid⟩
  | .inf neg => ⟨if neg then 2 ^ (w - 1) else 2 ^ (w - 1) - 1, afInvalid⟩
  | .fin neg m e =>
    let r := if 0 ≤ e then (m * 2 ^ e.toNat, true) else roundShift rm neg m (-e).toNat
    let lim := if neg then 2 ^ (w - 1) else 2 ^ (w - 1) - 1
    if r.1 > lim then ⟨lim, afSaturated + afInexact⟩
    else ⟨if neg then (2 ^ w - r.1) % 2 ^ w else r.1, if r.2 then 0 else afInexact⟩

/-- Conversion of a value to an element of format `code` (03 R97, R98). -/
def narrowTo (code rm : Nat) (sat : Bool) (x : Num) : Rounded :=
  match floatFmt code with
  | some f => convertTo f rm sat x
  | none => convertInt (intWidth code) rm x

/-! FP32 lanes and XF40 values. -/

def fp32 (w : W32) : Num := floatValue fmtFp32 w.toNat
def xf40 (w : W40) : Num := floatValue fmtXf40 w.toNat
def toFp32 (rm : Nat) (sat : Bool) (x : Num) : Rounded := convertTo fmtFp32 rm sat x
/-- Rounding into XF40 is always RNE (03 R96); overflow gives an infinity (03 R103). -/
def toXf40 (x : Num) : Rounded := convertTo fmtXf40 rmRNE false x
/-- An XF40 value as FP32 (05 R134): RNE, the instruction's SAT. -/
def xfToFp32 (sat : Bool) (w : W40) : Rounded := toFp32 rmRNE sat (xf40 w)
/-- An FP32 lane as XF40 (03 R99). -/
def fp32ToXf (w : W32) : Rounded := toXf40 (fp32 w)

/-- INVALID when the result is NaN and no input was (03 R100). -/
def madeNan (r : Num) (inputs : List Num) : Nat :=
  if r = .nan && !inputs.contains .nan then afInvalid else 0

/-- A rounded FP32 operation on exact operands, with its flags. -/
def fpResult (rm : Nat) (sat : Bool) (r : Num) (inputs : List Num) : Rounded :=
  let c := toFp32 rm sat r
  ⟨c.bits, c.flags ||| madeNan r inputs⟩

/-- a × b + c exactly; a zero sum is −0 only in RDN, as IEEE 754 (03 R105). -/
def numFma (rm : Nat) (a b c : Num) : Num := numAdd (rm == rmRDN) (numMul a b) c

/-- MAX and MIN (03 R106): NaN when either is NaN; −0 lies below +0. -/
def numMax (x y : Num) : Num :=
  if x = .nan || y = .nan then .nan
  else if numLt x y then y
  else if numLt y x then x
  else if numSign x then y else x
def numMin (x y : Num) : Num :=
  if x = .nan || y = .nan then .nan
  else if numLt x y then x
  else if numLt y x then y
  else if numSign x then x else y

/-! Packed elements (03 R90). -/

/-- The bits of element `k` of a packed row whose bytes are read by `byteAt`. -/
def elemBits (code : Nat) (byteAt : Nat → Byte) (k : Nat) : Nat :=
  let w := fmtBits code
  let lo := k * w
  let n := (lo % 8 + w + 7) / 8
  bitsOf (natLE ((List.range n).map (fun i => byteAt (lo / 8 + i)))) (lo % 8) w

/-- Bytes of a row of `n` elements: sub-byte rows are completed (03 R90). -/
def rowBytes (code n : Nat) : Nat :=
  match fmtBits code with
  | 6 => roundUp n 4 * 6 / 8
  | w => ceilDiv (n * w) 8

/-- The scale of E8M0 byte `e` (03 R91, R93): NaN for 0xFF. -/
def mxScale (e : Byte) : Num := elemValue cE8m0 e.toNat

/-- The block formation of 03 R94 for one block of values: scale byte, element bits, flags. -/
def mxBlock (code rm : Nat) (xs : List Num) : Nat × List Nat × Nat :=
  if xs.any (fun x => match x with | .nan => true | .inf _ => true | .fin _ _ _ => false) then
    (0xFF, xs.map (fun _ => 0), afInvalid)
  else if xs.all numIsZero then
    (0x7F, xs.map (fun x => (narrowTo code rmRNE true x).bits), 0)
  else
    let big : Int := xs.foldl (fun (b : Int) x => match x with
      | .fin _ 0 _ => b
      | .fin _ m e => max b ((Nat.log2 m : Int) + e)
      | _ => b) (-100000)
    let sc := max (-127) (min 127 (big - mxEmax code))
    let rs := xs.map (fun x => narrowTo code rm true (numMul x (.fin false 1 (-sc))))
    ((sc + 127).toNat, rs.map (·.bits), rs.foldl (fun a r => a ||| r.flags) 0)

/-! Trees over lanes (03 R107). -/

/-- Combine neighbours (2i, 2i + 1) of a list, keeping flags. -/
def pairUp (op : Nat → Nat → Rounded) : List Nat → List Nat × Nat
  | a :: b :: r =>
    let x := op a b
    let y := pairUp op r
    (x.bits :: y.1, x.flags ||| y.2)
  | l => (l, 0)

/-- Seven levels of pairwise combination of 128 lanes. -/
def reduceTree (op : Nat → Nat → Rounded) : Nat → List Nat → Rounded
  | 0, l => ⟨l.headD 0, 0⟩
  | n + 1, l =>
    let x := pairUp op l
    let y := reduceTree op n x.1
    ⟨y.bits, x.2 ||| y.flags⟩

end Sys2Proof.Machine
end

