-- ==== Sys2Proof/Machine/Operands.lean ====
section
/-! DEFINITION. The operands of a core's instructions: scalar, vector and mask registers, accumulator tiles and row-statistics
blocks with their shadow halves, operand slots, and the fields of a word as numbers (05 R122, 02 R73 to R75, 06 R158 to R177). -/

namespace Sys2Proof.Machine

/-- A core is at sea while its hold set is not empty (02 R67). -/
def Core.atSea (c : Core) : Bool := !c.hold.isEmpty

/-- Replace the keys of one block by given values. -/
def putBlock {α : Type} [DecidableEq α] (size k : Nat) (vals : List α) (d : α) (m : Store α) : Store α :=
  m.filter (fun x => x.1 / size < k) ++
    ((vals.zipIdx.map (fun x => (k * size + x.2, x.1))).filter (fun x => decide (x.2 ≠ d))) ++
    m.filter (fun x => k < x.1 / size)

/-! Registers. -/

/-- Scalar register r; s0 reads zero (05 R122). -/
def Core.s (c : Core) (r : Nat) : W64 := if r = 0 then 0 else storeGet c.sreg r 0
/-- Write scalar register r; a write of s0 is discarded (05 R123). -/
def Core.setS (c : Core) (r : Nat) (v : W64) : Core := if r = 0 then c else { c with sreg := storePut c.sreg r v 0 }
/-- The same over the monitor's own registers (log 12). -/
def Core.mon (c : Core) (r : Nat) : W64 := if r = 0 then 0 else storeGet c.monReg r 0
def Core.setMon (c : Core) (r : Nat) (v : W64) : Core := if r = 0 then c else { c with monReg := storePut c.monReg r v 0 }

/-- Lane i of vector register r. -/
def Core.lane (c : Core) (r i : Nat) : W32 := storeGet c.vreg (128 * r + i) 0
def Core.setLane (c : Core) (r i : Nat) (v : W32) : Core := { c with vreg := storePut c.vreg (128 * r + i) v 0 }
/-- Write all 128 lanes. -/
def Core.setVreg (c : Core) (r : Nat) (vals : List W32) : Core := { c with vreg := putBlock 128 r vals 0 c.vreg }
/-- All 128 lanes. -/
def Core.lanes (c : Core) (r : Nat) : List W32 := (List.range 128).map (c.lane r)
/-- Write lanes from lane i on. -/
def Core.setLanes (c : Core) (r i : Nat) : List W32 → Core
  | [] => c
  | v :: vs => (c.setLane r i v).setLanes r (i + 1) vs

/-- Mask register r; m0 reads all ones (05 R122). -/
def Core.mask (c : Core) (r : Nat) : BitVec 128 := if r = 0 then BitVec.allOnes 128 else storeGet c.mreg r 0
/-- Write mask register r; a write of m0 is discarded (05 R123). -/
def Core.setMask (c : Core) (r : Nat) (v : BitVec 128) : Core :=
  if r = 0 then c else { c with mreg := storePut c.mreg r v 0 }

/-! Accumulator tiles. While speculation is in effect pair n is tile n (confirmed) and tile n + 6 (shadow). -/

/-- Accumulator tiles and row-statistics blocks a program may name (02 R73). -/
def Core.tileLimit (c : Core) : Nat := if c.specOn then 6 else 12
def Core.rowLimit (c : Core) : Nat := if c.specOn then 8 else 16

/-- The tile a read of pair t reads (02 R75). -/
def Core.tileRd (c : Core) (t : Nat) : Nat := if c.specOn && c.atSea then t + 6 else t
/-- The tiles a write of tile t writes (02 R75). -/
def Core.tileWr (c : Core) (t : Nat) : List Nat := if c.specOn then (if c.atSea then [t + 6] else [t, t + 6]) else [t]
def tileKey (t row col : Nat) : Nat := 16384 * t + 128 * row + col

def Core.elem (c : Core) (t row col : Nat) : W40 := storeGet c.tiles (tileKey (c.tileRd t) row col) 0
def Core.setElem (c : Core) (t row col : Nat) (v : W40) : Core :=
  { c with tiles := (c.tileWr t).foldl (fun m u => storePut m (tileKey u row col) v 0) c.tiles }
/-- Every element of a tile becomes +0. -/
def Core.zeroTile (c : Core) (t : Nat) : Core :=
  { c with tiles := (c.tileWr t).foldl (fun m u => storeKeep (fun k => k / 16384 != u) m) c.tiles }

/-! Row-statistics blocks (07 R200): row r lies at byte 32 r. -/

def Core.rowRd (c : Core) (k : Nat) : Nat := if c.specOn && c.atSea then k + 8 else k
def Core.rowWr (c : Core) (k : Nat) : List Nat := if c.specOn then (if c.atSea then [k + 8] else [k, k + 8]) else [k]
def rowKey (k r o : Nat) : Nat := 4096 * k + 32 * r + o

/-- The 32 bytes of a row. -/
def Core.rowBytes (c : Core) (k r : Nat) : List Byte :=
  (List.range 32).map (fun o => storeGet c.rows (rowKey (c.rowRd k) r o) 0)
def putRow (m : Store Byte) (k r o : Nat) : List Byte → Store Byte
  | [] => m
  | b :: bs => putRow (storePut m (rowKey k r o) b 0) k r (o + 1) bs
def Core.setRowBytes (c : Core) (k r : Nat) (bs : List Byte) : Core :=
  { c with rows := (c.rowWr k).foldl (fun m u => putRow m u r 0 bs) c.rows }
/-- Every byte of a block becomes zero. -/
def Core.zeroRows (c : Core) (k : Nat) : Core :=
  { c with rows := (c.rowWr k).foldl (fun m u => storeKeep (fun x => x / 4096 != u) m) c.rows }

/-! Operand slots. -/

abbrev slotSize : Nat := 32768
def Core.slotByte (c : Core) (b o : Nat) : Byte := storeGet c.slots (slotSize * b + o) 0
def Core.setSlotByte (c : Core) (b o : Nat) (v : Byte) : Core := { c with slots := storePut c.slots (slotSize * b + o) v 0 }
def Core.setSlotBytes (c : Core) (b o : Nat) : List Byte → Core
  | [] => c
  | v :: vs => (c.setSlotByte b o v).setSlotBytes b (o + 1) vs
def Core.slotBytes (c : Core) (b o n : Nat) : List Byte := (List.range n).map (fun i => c.slotByte b (o + i))

/-! What an instruction touches, for the quay line and the scoreboard. -/

/-- Registers, slots, tiles and blocks read and written; `toScalar`: the instruction writes a scalar or mask register from them;
`outside`: it is one that waits at sea whether tainted or not (02 R70). -/
structure Touch where
  rdV : List Nat := []
  wrV : List Nat := []
  rdB : List Nat := []
  wrB : List Nat := []
  rdT : List Nat := []
  wrT : List Nat := []
  rdR : List Nat := []
  wrR : List Nat := []
  toScalar : Bool := false
  outside : Bool := false
deriving DecidableEq, Repr

/-- Some listed bit is set. -/
def anyBit {w : Nat} (v : BitVec w) (l : List Nat) : Bool := l.any (fun i => v.getLsbD i)
/-- Set the listed bits. -/
def setBitsOf {w : Nat} (v : BitVec w) (l : List Nat) : BitVec w := l.foldl (fun x i => x ||| BitVec.ofNat w (2 ^ i)) v
/-- Clear the listed bits. -/
def clearBitsOf {w : Nat} (v : BitVec w) (l : List Nat) : BitVec w := l.foldl (fun x i => x &&& ~~~(BitVec.ofNat w (2 ^ i))) v

/-- Some input is tainted (02 R69). Tiles and blocks are tainted pair by pair. -/
def tainted (c : Core) (t : Touch) : Bool :=
  anyBit c.taintV t.rdV || anyBit c.taintB t.rdB || anyBit c.taintT t.rdT || anyBit c.taintR t.rdR

/-- The instruction waits at the quay line (02 R70). -/
def quayWaits (c : Core) (t : Touch) : Bool :=
  c.atSea &&
    (t.outside || (t.toScalar && tainted c t)
      || t.wrV.any (fun r => (c.rdV.getLsbD r || t.rdV.contains r) && !c.wrV.getLsbD r)
      || t.wrB.any (fun b => (c.rdB.getLsbD b || t.rdB.contains b) && !c.wrB.getLsbD b))

/-- Record reads and writes at sea, and where taint goes (02 R69, R70, R75). -/
def markSea (c : Core) (t : Touch) : Core :=
  if !c.atSea then c
  else
    let bad := tainted c t
    { c with
      rdV := setBitsOf c.rdV (t.rdV.filter (fun r => !c.wrV.getLsbD r))
      rdB := setBitsOf c.rdB (t.rdB.filter (fun b => !c.wrB.getLsbD b))
      wrV := setBitsOf c.wrV t.wrV
      wrB := setBitsOf c.wrB t.wrB
      taintV := if bad then setBitsOf c.taintV t.wrV else clearBitsOf c.taintV t.wrV
      taintB := if bad then setBitsOf c.taintB t.wrB else c.taintB
      taintT := if bad then setBitsOf c.taintT t.wrT else c.taintT
      taintR := if bad then setBitsOf c.taintR t.wrR else c.taintR
      seaT := if c.specOn then setBitsOf c.seaT t.wrT else c.seaT
      seaR := if c.specOn then setBitsOf c.seaR t.wrR else c.seaR }

/-- Slots and tiles that an outstanding move reads or writes (06 R177): kind 1 is a slot, kind 2 an accumulator tile. -/
def moveReadsSlot (m : MoveJob) : List Nat := if m.sk = 1 then [m.src.toNat % 16] else []
def moveWritesSlot (m : MoveJob) : List Nat := if m.dk = 1 then [m.dst.toNat % 16] else []
def moveReadsTile (m : MoveJob) : List Nat := if m.sk = 2 then [m.src.toNat % 16] else []

/-- The scoreboard holds the instruction for an outstanding move, or for a pair whose refresh is not finished (05 R129, 02 R76). -/
def scoreboardHolds (c : Core) (t : Touch) : Bool :=
  c.moves.any (fun m =>
    (t.rdB ++ t.wrB).any (fun b => (moveWritesSlot m).contains b) || t.wrB.any (fun b => (moveReadsSlot m).contains b)
      || t.wrT.any (fun a => (moveReadsTile m).contains a))
  || anyBit c.refT t.wrT || anyBit c.refR t.wrR
  || (c.atSea && (anyBit c.refT t.rdT || anyBit c.refR t.rdR))

/-- Flags join AFLAGS, or the shadow flag word when an input is tainted (02 R71, 03 R100). -/
def addFlags (c : Core) (bad : Bool) (f : Nat) : Core :=
  if bad && c.atSea then { c with shadowFlags := c.shadowFlags ||| BitVec.ofNat 32 f }
  else { c with aflags := c.aflags ||| BitVec.ofNat 32 f }

/-! Fields. -/

/-- A field that names a scalar register (06 R161). -/
def isS (r : BitVec 6) : Bool := r.toNat < 32
/-- A field that names a mask register, an accumulator tile or a row-statistics block. -/
def is16 (r : BitVec 6) : Bool := r.toNat < 16

/-- Sign extension of an immediate. -/
def sext32 (v : BitVec 32) : W64 := v.signExtend 64
def sext16 (v : BitVec 16) : W64 := v.signExtend 64

end Sys2Proof.Machine
end

