-- ==== Sys2Proof/WellFormed.lean ====
section
/-! DEFINITION. Which commands can occur at all: a command that fails names no such event (a core number of 48 to 63, a beacon
that is not 40 bytes), and stops the machine with `Fault.illFormed`. -/

namespace Sys2Proof

/-- Core numbers 48 to 63 are not assigned (00 R1). -/
def coreOk (id : CoreId) : Bool := id.toNat % 64 < 48

/-- The command is one that the spec has. -/
def Instr.wellFormed (i : Instr) : Bool :=
  match i with
  | .run _ => true
  | .initLoad => true
  | .root _ => true
  | .tideSync => true
  | .refLoss => true
  | .rootRefReturn => true
  | .wrap => true
  | .beaconSend => true
  | .beacon _ bytes _ => bytes.length == 40
  | .locked => true
  | .upstreamChange => true
  | .holdover => true
  | .lost => true
  | .schedule _ => true
  | .standResume _ => true
  | .cancel _ => true
  | .standNotice _ bytes => bytes.length == 40
  | .standBegin => true
  | .standEnd => true
  | .consignmentHeader _ _ hdr sealBlk => hdr.length == 48 && sealBlk.length == 16
  | .flitReceive _ bytes => bytes.length == 275
  | .consignmentTrailer _ _ _ _ => true
  | .confirmed _ => true
  | .confirmNotice _ => true
  | .replayRequest _ _ => true
  | .exhaustedNotice _ => true
  | .absorbedNotice _ => true
  | .pairRefresh core _ _ => coreOk core
  | .specEn core _ => coreOk core
  | .specEnEffect core => coreOk core
  | .qwin _ _ => true
  | .blockClose _ => true
  | .add core _ => coreOk core
  | .sub core _ => coreOk core
  | .and core _ => coreOk core
  | .or core _ => coreOk core
  | .xor core _ => coreOk core
  | .shl core _ => coreOk core
  | .shr core _ => coreOk core
  | .sra core _ => coreOk core
  | .slt core _ => coreOk core
  | .sltu core _ => coreOk core
  | .min core _ => coreOk core
  | .minu core _ => coreOk core
  | .max core _ => coreOk core
  | .maxu core _ => coreOk core
  | .mul core _ => coreOk core
  | .mulh core _ => coreOk core
  | .mulhu core _ => coreOk core
  | .div core _ => coreOk core
  | .divu core _ => coreOk core
  | .rem core _ => coreOk core
  | .remu core _ => coreOk core
  | .addi core _ => coreOk core
  | .subi core _ => coreOk core
  | .andi core _ => coreOk core
  | .ori core _ => coreOk core
  | .xori core _ => coreOk core
  | .shli core _ => coreOk core
  | .shri core _ => coreOk core
  | .srai core _ => coreOk core
  | .slti core _ => coreOk core
  | .sltui core _ => coreOk core
  | .mini core _ => coreOk core
  | .minui core _ => coreOk core
  | .maxi core _ => coreOk core
  | .maxui core _ => coreOk core
  | .sethi core _ => coreOk core
  | .ld8 core _ => coreOk core
  | .ld8u core _ => coreOk core
  | .ld16 core _ => coreOk core
  | .ld16u core _ => coreOk core
  | .ld32 core _ => coreOk core
  | .ld32u core _ => coreOk core
  | .ld64 core _ => coreOk core
  | .st8 core _ => coreOk core
  | .st16 core _ => coreOk core
  | .st32 core _ => coreOk core
  | .st64 core _ => coreOk core
  | .beq core _ => coreOk core
  | .bne core _ => coreOk core
  | .blt core _ => coreOk core
  | .bge core _ => coreOk core
  | .bltu core _ => coreOk core
  | .bgeu core _ => coreOk core
  | .jal core _ => coreOk core
  | .jalr core _ => coreOk core
  | .vadd core _ => coreOk core
  | .vsub core _ => coreOk core
  | .vmul core _ => coreOk core
  | .vfma core _ => coreOk core
  | .vfnma core _ => coreOk core
  | .vmax core _ => coreOk core
  | .vmin core _ => coreOk core
  | .vabs core _ => coreOk core
  | .vneg core _ => coreOk core
  | .vmov core _ => coreOk core
  | .vsel core _ => coreOk core
  | .vmulx core _ => coreOk core
  | .vmuls core _ => coreOk core
  | .vadds core _ => coreOk core
  | .vbcast core _ => coreOk core
  | .viadd core _ => coreOk core
  | .visub core _ => coreOk core
  | .vimul core _ => coreOk core
  | .vand core _ => coreOk core
  | .vor core _ => coreOk core
  | .vxor core _ => coreOk core
  | .vshl core _ => coreOk core
  | .vshr core _ => coreOk core
  | .vsra core _ => coreOk core
  | .vimax core _ => coreOk core
  | .vimin core _ => coreOk core
  | .vidx core _ => coreOk core
  | .vext core _ => coreOk core
  | .feq core _ => coreOk core
  | .fne core _ => coreOk core
  | .flt core _ => coreOk core
  | .fle core _ => coreOk core
  | .ieq core _ => coreOk core
  | .ine core _ => coreOk core
  | .ilt core _ => coreOk core
  | .ile core _ => coreOk core
  | .iltu core _ => coreOk core
  | .mand core _ => coreOk core
  | .mor core _ => coreOk core
  | .mxor core _ => coreOk core
  | .mandn core _ => coreOk core
  | .mlen core _ => coreOk core
  | .vrsum core _ => coreOk core
  | .vrmax core _ => coreOk core
  | .vrmin core _ => coreOk core
  | .vrisum core _ => coreOk core
  | .f2i core _ => coreOk core
  | .i2f core _ => coreOk core
  | .qnt core _ => coreOk core
  | .vld core _ => coreOk core
  | .vst core _ => coreOk core
  | .mma core _ => coreOk core
  | .mmaZ core _ => coreOk core
  | .aread core _ => coreOk core
  | .awrite core _ => coreOk core
  | .azero core _ => coreOk core
  | .plist core _ => coreOk core
  | .plistEntry core => coreOk core
  | .sfn core _ _ => coreOk core
  | .sfg core _ _ => coreOk core
  | .rsw core _ => coreOk core
  | .rsc core _ => coreOk core
  | .rsrd core _ => coreOk core
  | .rsclr core _ => coreOk core
  | .smx core _ => coreOk core
  | .smxf core _ => coreOk core
  | .move core _ => coreOk core
  | .moveDone core _ => coreOk core
  | .mwait core _ => coreOk core
  | .badd core _ => coreOk core
  | .twait core _ => coreOk core
  | .tideWaitDone core => coreOk core
  | .rdtide core _ => coreOk core
  | .confirm core _ => coreOk core
  | .halt core _ => coreOk core
  | .signal core _ => coreOk core
  | .fence core _ => coreOk core
  | .synci core _ => coreOk core
  | .rdfl core _ => coreOk core
  | .wrfl core _ => coreOk core
  | .mret core _ => coreOk core
  | .mcsr core _ => coreOk core
  | .mlog core _ => coreOk core
  | .mtbl core _ => coreOk core
  | .dataError core _ _ => coreOk core
  | .start core _ => coreOk core
  | .stop core _ => coreOk core
  | .stopped core => coreOk core
  | .resume core _ => coreOk core
  | .fnLoad _ _ => true
  | .fnUnload _ _ => true
  | .fnLoadStd _ _ => true
  | .fnDone _ => true
  | .bollard _ _ _ => true
  | .arm _ _ => true
  | .append _ _ => true
  | .validationDone _ => true
  | .abort _ _ => true
  | .sail _ _ => true
  | .zoneOpen _ _ => true
  | .mark _ _ => true
  | .endEntry _ _ => true
  | .ferryOverdue _ _ => true
  | .create _ _ => true
  | .delete _ _ => true
  | .creationNotice _ _ _ _ => true
  | .tail _ _ => true
  | .cqDb _ _ => true
  | .descriptorTake _ => true
  | .transferLaunch _ _ => true
  | .credit _ _ => true
  | .chunkWritten _ _ => true
  | .collTimeout _ _ => true
  | .reformNotice _ _ _ _ => true
  | .reform _ => true
  | .abortNotice _ => true
  | .linkEn _ _ => true
  | .retrain _ _ => true
  | .trainingPattern _ => true
  | .trainingMessage _ _ => true
  | .stepTimeout _ => true
  | .retryTimer _ => true
  | .lightLoss _ _ _ => true
  | .laneWindow _ _ _ => true
  | .retrainLimit _ => true
  | .ackTimeout _ => true
  | .linkStateAnnounce _ _ => true
  | .routeHop _ => true
  | .apply _ => true
  | .self _ => true
  | .tierEn _ => true
  | .otabReady => true
  | .tqTail _ _ => true
  | .tqDb _ _ => true
  | .hqTail _ => true
  | .hqDb _ => true
  | .alloc _ _ => true
  | .allocDone _ => true
  | .free _ _ => true
  | .tierMove _ _ => true
  | .pin _ _ => true
  | .unpin _ _ => true
  | .restore _ _ => true
  | .supplied _ _ => true
  | .share _ _ => true
  | .wait _ _ => true
  | .tileSail _ _ => true
  | .flip _ => true
  | .flashRead _ _ _ _ => true
  | .flashProgram _ _ _ => true
  | .ftlMaint _ _ => true
  | .flashEn _ => true
  | .test _ _ => true
  | .go _ _ _ => true
  | .generatorDone _ _ _ _ => true
  | .indexCreate _ => true
  | .merge _ => true
  | .indexCheckDone _ => true
  | .switched _ => true
  | .retire _ => true
  | .retired _ => true
  | .destroy _ => true
  | .destroyed _ => true
  | .search _ => true
  | .insert _ => true
  | .sketchDelete _ => true
  | .sideEntryValid _ => true
  | .snapshot _ => true
  | .shareRequest _ _ => true
  | .shareResult _ _ => true
  | .berthOpen _ _ => true
  | .bind _ _ => true
  | .unbind _ _ => true
  | .teardown _ _ => true
  | .rebindStart _ => true
  | .rebindDone _ _ => true
  | .openSession _ _ => true
  | .linkExport _ _ => true
  | .linkImport _ _ => true
  | .keylock _ _ _ => true
  | .ideKm _ _ => true
  | .getVersion _ _ => true
  | .getCapabilities _ _ => true
  | .negotiateAlgorithms _ _ => true
  | .getDigests _ _ => true
  | .getCertificate _ _ => true
  | .spdmChallenge _ _ => true
  | .getMeasurements _ _ => true
  | .chunkSend _ _ => true
  | .chunkGet _ _ => true
  | .vendorDefinedRequest _ _ => true
  | .rngFail => true
  | .ideFail _ => true
  | .coldStart _ => true
  | .perstAssert => true
  | .perstDeassert _ => true
  | .stageDone _ => true
  | .verify _ => true
  | .verifyDone => true
  | .awaitRelay _ => true
  | .relayImage _ _ => true
  | .nackList missed => missed.all (fun x => coreOk x.1)
  | .chipReset _ => true
  | .clearMap _ => true
  | .coreReset _ _ => true
  | .clusterReset _ _ => true
  | .preset _ _ => true
  | .resetDone unit => (match unit with | .core id => coreOk id | .cluster _ => true | .partition _ => true)
  | .hotReset => true
  | .pcieLinkDown => true
  | .flr _ => true
  | .inputRange _ => true
  | .powerReading _ _ _ => true
  | .thermtrip _ _ => true
  | .module _ => true
  | .partition _ => true
  | .ceiling _ => true
  | .scheduledAction _ => true
  | .slotCancel _ => true
  | .transitionDone => true
  | .tempReading _ _ => true
  | .stackStop _ => true
  | .pairLoRead _ _ _ => true
  | .pairHiRead _ _ _ => true
  | .pairLoWrite _ _ _ => true
  | .pairHiWrite _ _ _ => true
  | .registerWrite _ _ _ => true
  | .evtClear _ _ => true
  | .evtSet _ _ => true
  | .rearm _ _ => true
  | .msixUnmask _ _ => true
  | .logStore => true
  | .release _ => true
  | .rdWord _ => true
  | .thresh _ => true
  | .dmaStart _ => true
  | .dmaDone => true
  | .challenge _ => true
  | .respond _ => true
  | .opened => true
  | .close _ => true
  | .debugExpiry => true
  | .obsStep _ => true
  | .tapReset => true
  | .idcode => true
  | .bypass => true
  | .samplePreload _ _ => true
  | .extest _ => true
  | .scan => true
  | .mbist _ => true
  | .entdaa _ => true
  | .setdasa _ _ => true
  | .rstdaa => true
  | .getpid => true
  | .getbcr => true
  | .getdcr => true
  | .getstatus => true
  | .enec => true
  | .disec => true
  | .i3cWrite _ => true
  | .i3cRead _ => true
  | .registerRead _ _ _ => true
  | .windowAccess _ _ _ _ => true
  | .trainingStepComplete _ _ => true
  | .sourceResetAnnounced _ => true
  | .p48Removed => true

end Sys2Proof
end

