-- ==== Sys2Proof/Machine/CoreExec.lean ====
section
/-! DEFINITION. How a core issues one instruction: whether it may issue, the fetch check, the order of faults (06 R162), taking a
fault (05 R149 to R151), waiting at the quay line, at the scoreboard and for memory, going to sea (02 R67, R68), retiring. -/

namespace Sys2Proof.Machine

/-- A fault a core is about to take: code, data address (zero when none), problem-list index. -/
structure FaultRec where
  code : Nat
  addr : Nat := 0
  index : Option Nat := none
deriving DecidableEq, Repr

/-- The place of a code in the order of R162, steps 7 and 8. -/
def faultRank (code : Nat) : Nat := if code = 0x1003 then 0 else if code = 0x1002 then 1 else if code / 0x1000 = 2 then 2 else 3

/-- Of several faults found, the one to report (06 R162). -/
def firstFault (l : List (Option FaultRec)) : Option FaultRec :=
  l.foldl (fun b x => match b, x with
    | none, x => x
    | some r, some q => if faultRank q.code < faultRank r.code then some q else some r
    | some r, none => some r) none

/-- The berth or host whose regions bind a core (05 R127). -/
def coreOwner (s : State) (id : CoreId) : Nat := clusterOwner s (id.toNat / 64)
def coreCluster (id : CoreId) : Nat := id.toNat / 64
def coreDie (id : CoreId) : Nat := id.toNat / 512
def corePage (id : CoreId) : Nat := pgCore id.toNat

/-- A triad link to a chip of this board is trained: directly or through the third chip (11 R308). -/
def boardPath (s : State) : Bool :=
  (List.range 16).any (fun n =>
    (s.get ⟨pgLnk n, 0x00C, 0, 3⟩ == 2 || s.get ⟨pgLnk n, 0x00C, 0, 3⟩ == 3) && s.get ⟨pgTopo, 0x050 + 4 * n, 20, 2⟩ == 1)

/-- The core issues instructions: RUNNING, clocked, not in REDO_WAIT, in a tide wait or in a problem list (05 R144, R138; 08 R223;
16 R418). -/
def canIssue (s : State) (id : CoreId) : Bool :=
  let c := s.core id
  running s && !coreResetting s id && decide (c.state = .running) && decide (c.redo = none) && decide (c.seaFault = none) && decide (c.twait = none) && decide (c.plist = none)
    && partState s (coreDie id) == 0

/-- The fetch check of R162 step 1 (05 R124, R125, R127). -/
def fetchFault (s : State) (id : CoreId) : Option FaultRec :=
  let pc := (s.core id).pc.toNat
  if pc % 8 ≠ 0 then some { code := 0x1003, addr := pc }
  else if 2 ^ 50 ≤ pc || !ownChip s pc || !onePlace (placeBits pc) 8 then some { code := 0x1004 }
  else match placeOf (placeBits pc) with
    | some (.scratch cl _) =>
      if cl ≠ coreCluster id then some { code := 0x1004 }
      else if !inRegions s (coreOwner s id) (placeBits pc) false then some { code := 0x1002, addr := pc } else none
    | some (.hbm _ _) =>
      if !inRegions s (coreOwner s id) (placeBits pc) false then some { code := 0x1002, addr := pc } else none
    | none => some { code := 0x1004 }

/-- The word at PC cannot be fetched yet: a stopped stack, or bytes of an unconfirmed consignment. -/
def fetchBlocked (s : State) (id : CoreId) : Bool :=
  let a := placeBits (s.core id).pc.toNat
  placeStopped s a || !(landingsAt s a 8).isEmpty || zoneUnlanded s a 8

/-- FAULT_INFO of a fault (05, the core page). -/
def faultInfo (r : FaultRec) (imprecise : Bool) : Nat :=
  (match r.index with
    | some i => i % 4096 + 2 ^ 12
    | none => 0) + (if imprecise then 2 ^ 13 else 0)

/-- Taking a fault (05 R151): the core enters MONITOR; FAULT_PC, FAULT_INFO and FAULT_ADDR are written; EVT.FAULT is raised with
its code and logged. Registers, slots, tiles and flags keep their values. -/
def takeFault (s : State) (id : CoreId) (pc : W64) (r : FaultRec) (imprecise : Bool) : State :=
  let p := corePage id
  let s := s.setCore id { s.core id with state := .monitor, wait := 0, waitOn := [], twait := none, plist := none, redo := none, seaFault := none }
  let s := s.wr64 p 0x058 pc
  let s := s.wrN p 0x060 (faultInfo r imprecise)
  let s := s.wr64 p 0x064 (BitVec.ofNat 64 r.addr)
  let s := s.wrN p 0x00C 5
  raiseWith s p 2 r.code (BitVec.ofNat 32 (faultInfo r imprecise), pc.setWidth 32, (pc >>> 32).setWidth 32,
    BitVec.ofNat 32 r.addr)

/-- An uncorrectable read reached the core (05 R152): it stops, and the monitor reports 0x1006, imprecise; at sea that waits at the
quay line (05 R150). -/
def dataErrorFault (s : State) (id : CoreId) (pc : W64) (a : Nat) (index : Option Nat) : State :=
  let s := uncorrectable s (placeBits a)
  if (s.core id).atSea then s.setCore id { s.core id with seaFault := some (pc, a, index), wait := 1 }
  else takeFault s id pc { code := 0x1006, addr := a, index := index } true

/-- The core waits; STATUS.WAIT says for what (05, the core page). -/
def waitAt (s : State) (id : CoreId) (w : Nat) (on : List ConsKey := []) : Result :=
  finish (s.setCore id { s.core id with wait := w, waitOn := on })

/-- A fault found at issue: at sea it waits at the quay line (05 R150), else it is taken at PC. -/
def faultAt (s : State) (id : CoreId) (r : FaultRec) : Result :=
  if (s.core id).atSea then waitAt s id 1 else finish (takeFault s id (s.core id).pc r false)

/-- The fetch queue without the word at PC (05 R125). -/
def popFetch (c : Core) : List (Nat × W64) :=
  match c.fetchq with
  | (a, _) :: r => if a = c.pc.toNat then r else []
  | [] => []

/-- One instruction retires: PC moves on, the wait ends; RETIRED counts now, or at commit when at sea (05, RETIRED). -/
def retire (s : State) (id : CoreId) : State :=
  let c := s.core id
  let s := s.setCore id { c with pc := c.pc + 8, wait := 0, waitOn := [], fetchq := popFetch c, seaRetired := if c.atSea then c.seaRetired + 1 else c.seaRetired }
  if c.atSea then s else s.add64 (corePage id) 0x080 1

/-- Change the core's own state. -/
def updCore (s : State) (id : CoreId) (f : Core → Core) : State := s.setCore id (f (s.core id))

/-! Going to sea. -/

/-- The port's current window (02 R82): QWIN.WINDOW. -/
def portWindow (s : State) (port : Nat) : Nat := s.get ⟨pgPort port, 0x400, 4, 3⟩

/-- What a read of some ranges that may go to sea meets (02 R61, R67, R72): it may proceed and adds these consignments to the
hold set, or it waits. -/
def seaRead (s : State) (c : Core) (rs : List (Nat × Nat)) : Option (List (ConsKey × Nat)) :=
  let ls := (rs.map (fun r => landingsAt s r.1 r.2)).flatten
  if rs.any (fun r => zoneUnlanded s r.1 r.2) then none
  else if ls.isEmpty then some []
  else if !rs.all (fun r => (landingsAt s r.1 r.2).all (fun l => landedFor l r.1 r.2)) then none
  else if !c.specOn then none
  else
    let new := ((ls.map (fun l => (l.key, l.port))).dedup).filter (fun k => !c.hold.any (fun h => h.1 == k.1))
    let hold := c.hold ++ new
    if 16 < hold.length then none
    else if new.any (fun k => portWindow s k.2 < (hold.filter (fun h => h.2 == k.2)).length) then none
    else some new

/-- The read touches bytes of unconfirmed consignments: what it loads is tainted (02 R69). -/
def readsSea (s : State) (rs : List (Nat × Nat)) : Bool := rs.any (fun r => !(landingsAt s r.1 r.2).isEmpty)

/-- A read that never goes to sea waits for every unconfirmed consignment it touches (02 R61). -/
def shoreBlocked (s : State) (a n : Nat) : Bool := zoneUnlanded s a n || !(landingsAt s a n).isEmpty

/-- The core adds consignments to its hold set; the first of them takes the checkpoint at PC (02 R67, R68). -/
def goSea (c : Core) (new : List (ConsKey × Nat)) : Core :=
  if new.isEmpty then c
  else if c.atSea then { c with hold := c.hold ++ new }
  else { c with hold := new, ckPc := c.pc, ckSreg := c.sreg, ckMreg := c.mreg }

/-- Issue one instruction (06 R162 for the order). `legal`: the word is no illegal encoding. `fault`: steps 3 to 8 of R162.
`touch`: what it reads and writes. `block`: a wait on memory or another unit, by its WAIT code, with the consignments it waits
for. `effect`: what it does; it is given
the state after the instruction has retired, and the core as it stood at issue. `sea`: the consignments that its reads add to the
hold set (02 R67): its own reads count as reads at sea (02 R70). `keep`: it has begun and is not over, and PC stays at it. -/
def issue (mn : String) (id : CoreId) (s : State) (legal : Bool) (fault : State → Core → Option FaultRec)
    (touch : Core → Touch) (block : State → Core → Option (Nat × List ConsKey)) (effect : Core → State → State)
    (sea : State → Core → List (ConsKey × Nat) := fun _ _ => []) (keep : State → Core → Bool := fun _ _ => false) : Result :=
  if !coreOk id then .fault (.illFormed mn)
  else if !canIssue s id then .next s
  else
    let c := s.core id
    match fetchFault s id with
    | some r => faultAt s id r
    | none =>
      if fetchBlocked s id then waitAt s id 5
      else if !legal then faultAt s id { code := 0x1001 }
      else match fault s c with
        | some r => faultAt s id r
        | none =>
          if quayWaits (goSea c (sea s c)) (touch c) then waitAt s id 1
          else if scoreboardHolds c (touch c) then waitAt s id 7
          else match block s c with
            | some w => waitAt s id w.1 w.2
            | none =>
              let t := updCore s id (fun c => { markSea (goSea c (sea s c)) (touch c) with wait := 0, waitOn := [] })
              finish (effect c (if keep s c then t else retire t id))

/-- No fault, nothing touched, no wait. -/
def noFault (_ : State) (_ : Core) : Option FaultRec := none
def noTouch (_ : Core) : Touch := {}
def noBlock (_ : State) (_ : Core) : Option (Nat × List ConsKey) := none

/-- The fault of an access of `n` bytes by a core of `id`: address and region, then no route to another chip (11 R308), then a unit
in reset, whose reads end ABSORBED (15 R411). -/
def coreAccessFault (s : State) (id : CoreId) (a n : Nat) (write : Bool) : Option Nat :=
  match accessFault s (coreOwner s id) a n write with
  | some e => some e
  | none =>
    if ownChip s a then (if !write && placeResetting s (placeBits a) then some 0xB00A else none)
    else if boardPath s then none else some 0x5006

/-- Read n bytes by a core: from this chip's memory, or free values from another chip of the board (log 7). -/
def coreRead (s : State) (a n : Nat) : List Byte × State :=
  if ownChip s a then memRead s (placeBits a) n
  else
    ((List.range n).map (fun i => ((Config.freeValue (s.fresh + i / 8)) >>> (8 * (i % 8))).setWidth 8),
     { s with fresh := s.fresh + (n + 7) / 8 }.emit (.board (a / 2 ^ 48) (BitVec.ofNat 64 a) false (bytesLE n 0)))

/-- Write bytes by a core: to this chip's memory, or as a board store (00 R5); a unit in reset absorbs them (15 R411). -/
def coreStore (s : State) (a : Nat) (bs : List Byte) : State :=
  if !ownChip s a then s.emit (.board (a / 2 ^ 48) (BitVec.ofNat 64 a) true bs)
  else if placeResetting s (placeBits a) then s
  else memWrite s (placeBits a) bs

/-- The memory waits of a read by the core: a stopped place (WAIT 4). -/
def readBlocked (s : State) (a n : Nat) : Bool := placeStopped s a || (n != 0 && placeStopped s (a + n - 1))

/-- The memory waits of a write by the core: a stopped place, or a held consignment source (02 R58). -/
def writeBlocked (s : State) (a n : Nat) : Bool := placeStopped s a || heldBlocks s a n

/-- Byte ranges of memory that an outstanding move reads or writes, one per row (06 R177; 08 R213). -/
def moveRows (m : MoveJob) : Nat := bitsOf m.shape.toNat 24 16
def moveRowBytes (m : MoveJob) : Nat := bitsOf m.shape.toNat 0 24
def moveValidRows (m : MoveJob) : Nat :=
  match m.valid with
  | none => moveRows m
  | some v => min (bitsOf v.toNat 24 16) (moveRows m)
def moveValidBytes (m : MoveJob) : Nat :=
  match m.valid with
  | none => moveRowBytes m
  | some v => min (bitsOf v.toNat 0 24) (moveRowBytes m)
/-- Source and destination row addresses at a memory end. -/
def moveSrcRow (m : MoveJob) (r : Nat) : Nat := m.src.toNat + r * bitsOf m.pitch.toNat 0 32
def moveDstRow (m : MoveJob) (r : Nat) : Nat := m.dst.toNat + r * bitsOf m.pitch.toNat 32 32

def moveReadsMem (m : MoveJob) (a n : Nat) : Bool :=
  m.sk == 0 && (List.range (moveValidRows m)).any (fun r => overlap a n (placeBits (moveSrcRow m r)) (moveValidBytes m))
def moveWritesMem (m : MoveJob) (a n : Nat) : Bool :=
  m.dk == 0 && (List.range (moveRows m)).any (fun r => overlap a n (placeBits (moveDstRow m r)) (moveRowBytes m))

/-- An access overlaps an outstanding move's memory: the later access waits (05 R130). -/
def movesOverlap (c : Core) (a n : Nat) (write : Bool) : Bool :=
  c.moves.any (fun m => moveWritesMem m a n || (write && moveReadsMem m a n))
/-- An access of own-chip memory waits: for a stopped place, a held source, an overlapping move. -/
def readWaits (s : State) (c : Core) (a n : Nat) : Bool :=
  ownChip s a && (readBlocked s (placeBits a) n || movesOverlap c (placeBits a) n false)
def writeWaits (s : State) (c : Core) (a n : Nat) : Bool :=
  ownChip s a && (writeBlocked s (placeBits a) n || movesOverlap c (placeBits a) n true)


end Sys2Proof.Machine
end

