-- ==== Sys2Proof/Machine/Route.lean ====
section
/-! DEFINITION. Logical ports and routes (11 R302 to R307): members and width of a port, who lies at its far end, and the next hop
of routed traffic. -/

namespace Sys2Proof.Machine

/-- The leader of link n's port as it stands (R304). -/
def portOf (s : State) (n : Nat) : Nat := storeGet s.ports n n
/-- The trained members of the port that link l leads. -/
def portMembers (s : State) (l : Nat) : List Nat := (List.range 16).filter (fun n => portOf s n == l && trained s n)

/-- LNKn.STATUS.WIDTH. -/
def linkWidth (s : State) (n : Nat) : Nat := s.get ⟨pgLnk n, 0x00C, 8, 4⟩

/-- The port's effective width in eighths of a link: members × the narrowest member's lanes (R304). -/
def portWidth8 (s : State) (l : Nat) : Nat :=
  match portMembers s l with
  | [] => 0
  | m :: ms => (m :: ms).length * (ms.foldl (fun w n => min w (linkWidth s n)) (linkWidth s m))

/-- LINKMAP fields of link n: far node id, far link index, ROLE, DIM. -/
def farNode (s : State) (n : Nat) : Nat := s.get ⟨pgTopo, 0x050 + 4 * n, 0, 16⟩
def linkRole (s : State) (n : Nat) : Nat := s.get ⟨pgTopo, 0x050 + 4 * n, 20, 2⟩
def linkDim (s : State) (n : Nat) : Nat := s.get ⟨pgTopo, 0x050 + 4 * n, 22, 4⟩

/-- The leader of a trained port that reaches a node directly. -/
def portTo (s : State) (node : Nat) : Option Nat :=
  (List.range 16).find? (fun l => (portMembers s l).any (fun n => farNode s n == node && (linkRole s n == 1 || linkRole s n == 2)))

/-- The node across dimension d (R303). -/
def cubeFar (node d : Nat) : Nat := (node / 4 ^^^ 2 ^ d) * 4 + (node % 4 + d) % 3

/-- The lowest set bit of a number below 2^16. -/
def lowBit (n : Nat) : Nat := ((List.range 16).find? (fun d => n.testBit d)).getD 0

/-- What this chip knows of dimension d at position q of its own triad: its own ports, or what its neighbour announced (R305). -/
def knownCube (s : State) (q d : Nat) : Bool :=
  let p := nodeId s % 4
  if q = p then (portTo s (cubeFar (nodeId s) d)).isSome
  else s.bit ⟨pgTopo, 0x110, (if q = (p + 1) % 3 then 0 else 16) + d, 1⟩

/-- The other two positions of a triad, lower first. -/
def otherPositions (p : Nat) : List Nat := (List.range 3).filter (fun q => q != p)

/-- The next hop of routed traffic at this chip for a destination, with its new class, and whether it is a detour (R305). The hop
is given as the next node. -/
def nextNode (s : State) (dst cls : Nat) : Option (Nat × Nat × Bool) :=
  let me := nodeId s
  let p := me % 4
  let D := me / 4 ^^^ dst / 4
  let triadTo := fun q => (portTo s (me / 4 * 4 + q)).isSome
  if D ≠ 0 then
    let d := lowBit D
    if knownCube s p d then some (cubeFar me d, cls, false)
    else match (otherPositions p).find? (fun q => triadTo q && knownCube s q d) with
      | some q => some (me / 4 * 4 + q, cls + 1, true)
      | none => none
  else if triadTo (dst % 4) then some (dst, cls + 1, false)
  else match (otherPositions p).find? (fun q => q != dst % 4 && triadTo q) with
    | some q => some (me / 4 * 4 + q, cls + 1, true)
    | none => none

abbrev fDetourEn : Fld := ⟨pgTopo, 0x008, 1, 1⟩

/-- The hop this chip takes: none where R305 finds none, or R306's envelope forbids it. The leader of the port and the class. -/
def nextHop (s : State) (dst cls : Nat) : Option (Nat × Nat) :=
  match nextNode s dst cls with
  | none => none
  | some (n, c, detour) =>
    if (detour && !s.bit fDetourEn) || 16 < c then none else (portTo s n).map (fun l => (l, c))

/-- Hops from a chip other than this one, all of whose ports are taken as trained (log 42). -/
def farHops : Nat → Nat → Nat → Nat
  | 0, _, _ => 0
  | fuel + 1, node, dst =>
    if node = dst then 0
    else if node / 4 = dst / 4 then 1
    else 1 + farHops fuel (cubeFar node (lowBit (node / 4 ^^^ dst / 4))) dst

/-- The route's hop count in TOPO, none where no hop is known (09 R245). -/
def routeHops (s : State) (dst : Nat) : Option Nat :=
  if dst = nodeId s then some 0
  else match nextHop s dst 0, nextNode s dst 0 with
    | some _, some (n, _, _) => some (1 + farHops 18 n dst)
    | _, _ => none

end Sys2Proof.Machine
end

