-- ==== Sys2Proof/Machine/Quay.lean ====
section
/-! DEFINITION. Consignments and the quay line as operations (02_quay_line, 11 R309): headers, sailing, commit and discard of a
core, port counters and windows, and the end of a landing. -/

namespace Sys2Proof.Machine

/-! Headers (R55, R57). -/

/-- A consignment header. -/
structure ConsHdr where
  kind : Nat
  stream : Nat
  seq : BitVec 32
  due : W64
  len : Nat
  attempt : Nat
  berth : Nat
  src : Nat
  dst : Nat
  srcPlace : Nat
  dstPlace : Nat
  addr : Nat
deriving DecidableEq, Repr

/-- Its 48 bytes. -/
def hdrBytes (h : ConsHdr) : List Byte :=
  bytesLE 2 h.kind ++ bytesLE 2 h.stream ++ bytesLE 4 h.seq.toNat ++ bytesLE 8 h.due.toNat ++ bytesLE 2 h.len
    ++ bytesLE 1 h.attempt ++ bytesLE 1 h.berth ++ bytesLE 2 h.src ++ bytesLE 2 h.dst ++ bytesLE 1 h.srcPlace
    ++ bytesLE 1 h.dstPlace ++ bytesLE 6 0 ++ bytesLE 8 h.addr ++ bytesLE 8 0

/-- The fields of 48 bytes. -/
def hdrOf (bs : List Byte) : ConsHdr :=
  { kind := fieldLE bs 0 2 % 16, stream := fieldLE bs 2 2, seq := BitVec.ofNat 32 (fieldLE bs 4 4),
    due := BitVec.ofNat 64 (fieldLE bs 8 8), len := fieldLE bs 16 2, attempt := fieldLE bs 18 1, berth := fieldLE bs 19 1,
    src := fieldLE bs 20 2, dst := fieldLE bs 22 2, srcPlace := fieldLE bs 24 1, dstPlace := fieldLE bs 25 1,
    addr := fieldLE bs 32 8 }

/-- What names the consignment. -/
def keyOf (h : ConsHdr) : ConsKey :=
  { src := BitVec.ofNat 16 h.src, kind := BitVec.ofNat 4 h.kind, stream := BitVec.ofNat 16 h.stream, seq := h.seq }

/-- LEN, KIND and reserved bits are as R54 asks. -/
def hdrGood (bs : List Byte) : Bool :=
  let h := hdrOf bs
  1 ≤ h.kind && h.kind ≤ 4 && fieldLE bs 0 2 / 16 == 0 && 1 ≤ h.len && h.len ≤ 1024 && h.attempt ≤ 4
    && h.srcPlace / 128 == 0 && h.dstPlace / 128 == 0 && fieldLE bs 26 6 == 0 && fieldLE bs 40 8 == 0

/-- The header with another ATTEMPT. -/
def withAttempt (bs : List Byte) (n : Nat) : List Byte := bs.take 18 ++ bytesLE 1 n ++ bs.drop 19

/-- The trailer's CRC (R57). -/
def consCrc (hdr payload : List Byte) : W32 := crc32c (withAttempt hdr 0 ++ payload)

/-- SRC_PLACE and DST_PLACE of an address: its cluster, or for HBM the first cluster of the stack's die (12 R323; log 43). -/
def placeCode (a : Nat) : Nat :=
  match placeOf (placeBits a) with
  | some (.scratch cl _) => cl
  | some (.hbm k _) => 8 * (k / 4)
  | none => 64

/-! Sealing on links (11 R309). -/

/-- The link key of a consignment's BERTH. -/
def linkKeyOf (s : State) (berth : Nat) : Nat := if berth < 16 then (s.berth berth).linkKey else s.hostKey

/-- The nonce: SRC, zero, counter. -/
def sealNonce (src ctr : Nat) : BitVec 96 := BitVec.ofNat 96 (ctr % 2 ^ 64 + src % 2 ^ 16 * 2 ^ 80)

/-- The 16-byte block: key index, reserved, counter. -/
def sealBlkOf (berth ctr : Nat) : List Byte := bytesLE 8 (berth % 256) ++ bytesLE 8 ctr

/-- The words of a payload. -/
def wordsOf : List Byte → List W32
  | a :: b :: c :: d :: r => BitVec.ofNat 32 (natLE [a, b, c, d]) :: wordsOf r
  | _ => []

/-- Words as bytes. -/
def bytesOfWords (l : List W32) : List Byte := (l.map (fun w => bytesLE 4 w.toNat)).flatten

/-- Word i of a payload under a key: encryption and decryption alike. -/
def cryptWord (key : Nat) (nonce : BitVec 96) (i : Nat) (w : W32) : W32 := w ^^^ Config.keystream key nonce i

/-! Sailing (R54, R58). -/

/-- Flits sent and not yet acknowledged (11 R294). -/
def unacked (l : LinkRun) : Nat := (l.txSeq - l.ackSeq - 1).toNat

/-- `n` more flits of a link are sent and wait for their ACK; at most 2,048 are kept, so older ones have had theirs (11 R294). -/
def sendFlits (s : State) (link n : Nat) : State :=
  let l := s.link link
  let tx := l.txSeq + BitVec.ofNat 12 n
  (s.add64 (pgLnk link) 0x050 n).setLink link
    { l with txSeq := tx, ackSeq := if unacked l + n ≤ 2048 then l.ackSeq else tx - BitVec.ofNat 12 2049,
             ackAt := if unacked l = 0 then s.tide.clock else l.ackAt }

/-- Flits of one attempt: data flits are counted on the members in turn (11 R292, R304; log 44). -/
def countFlits (s : State) (port len : Nat) : State :=
  let ms := portMembers s port
  ms.zipIdx.foldl (fun t x => sendFlits t x.1 ((16 * len + ms.length - 1 - x.2) / ms.length)) s

/-- Send one attempt of a held consignment: sealed on a link, plain within the chip, and plain when it
relays an image (02 R488, 11 R309, 15 R409). -/
def sendAttempt (s : State) (h : Held) : State :=
  let hd := hdrOf h.hdr
  if h.port < 16 && hd.kind = 4 then
    (countFlits s h.port hd.len).emit (.sail h.port (withAttempt h.hdr h.attempt) (sealBlkOf 255 0) h.crc)
  else if h.port < 16 then
    let k := linkKeyOf s hd.berth
    let ctr := storeGet s.sealCtr k 0
    let s := { s with sealCtr := storePut s.sealCtr k (ctr + 1) 0 }
    let s := countFlits s h.port hd.len
    s.emit (.sail h.port (withAttempt h.hdr h.attempt) (sealBlkOf hd.berth ctr) h.crc)
  else s.emit (.sail h.port (withAttempt h.hdr h.attempt) (sealBlkOf 0 0) h.crc)

/-- A new consignment sails from a port, or is refused with 0x3005 FORMAT at that port and never sails (R54). -/
def sailNew (s : State) (port : Nat) (hdr payload : List Byte) (addr len : Nat) (stamp : W64) : Bool × State :=
  let hd := hdrOf hdr
  if !hdrGood hdr || (port < 16 && 2 ^ 64 ≤ storeGet s.sealCtr (linkKeyOf s hd.berth) 0 + 1) then
    (false, raise s (pgPort port) 31 0x3005)
  else
    let h : Held := { key := keyOf hd, hdr := hdr, port := port, attempt := 0, crc := consCrc hdr payload, stamp := stamp,
                      addr := addr, len := len }
    (true, sendAttempt { s with held := s.held ++ [h] } h)

/-! Landings. -/

def findLanding (s : State) (k : ConsKey) : Option Landing := s.landing.find? (fun l => l.key == k)
def setLanding (s : State) (l : Landing) : State :=
  { s with landing := s.landing.map (fun x => if x.key = l.key then l else x) }
def dropLanding (s : State) (k : ConsKey) : State := { s with landing := s.landing.filter (fun x => x.key != k) }

/-- Its header. -/
def landHdr (l : Landing) : ConsHdr := hdrOf l.hdr

/-! Shadowed pairs (R73 to R77). -/

/-- Blocks of `size` keys, `n` of them, each taken from block `src` of the old store. -/
def moveBlocks {α : Type} (size n : Nat) (src : Nat → Nat) (m : Store α) : Store α :=
  ((List.range n).map (fun t =>
    (m.filter (fun x => x.1 / size == src t)).map (fun x => (t * size + x.1 % size, x.2)))).flatten

/-- Pair n of the marked ones exchanges its halves, which lie `d` apart. -/
def swapSrc {w : Nat} (marks : BitVec w) (d t : Nat) : Nat :=
  if t < d then (if marks.getLsbD t then t + d else t) else if marks.getLsbD (t - d) then t - d else t

/-- The marked pairs' first halves are copied into their second. -/
def copySrc {w : Nat} (marks : BitVec w) (d t : Nat) : Nat := if d ≤ t && marks.getLsbD (t - d) then t - d else t

/-- Copy one pair's confirmed half into its shadow half. -/
def refreshTile (c : Core) (n : Nat) : Core :=
  { c with tiles := moveBlocks 16384 12 (copySrc (BitVec.ofNat 16 (2 ^ n)) 6) c.tiles, refT := clearBitsOf c.refT [n] }
def refreshRows (c : Core) (n : Nat) : Core :=
  { c with rows := moveBlocks 4096 16 (copySrc (BitVec.ofNat 16 (2 ^ n)) 8) c.rows, refR := clearBitsOf c.refR [n] }

/-- What commit and discard both clear: taint, RD, WR, H, the pairs written at sea. -/
def clearSea (c : Core) : Core :=
  { c with hold := [], rdV := 0, wrV := 0, rdB := 0, wrB := 0, taintV := 0, taintB := 0, taintT := 0, taintR := 0,
           refT := c.refT ||| c.seaT, refR := c.refR ||| c.seaR, seaT := 0, seaR := 0, shadowFlags := 0, seaRetired := 0,
           wait := if c.wait = 1 then 0 else c.wait, seaFault := none }

/-- Commit (R77): halves written at sea become the confirmed ones. -/
def committed (c : Core) : Core :=
  clearSea { c with tiles := moveBlocks 16384 12 (swapSrc c.seaT 6) c.tiles, rows := moveBlocks 4096 16 (swapSrc c.seaR 8) c.rows,
                    aflags := c.aflags ||| c.shadowFlags, moves := c.moves.map (fun m => { m with sea := false }) }

/-- The core commits. A data error met at sea is reported now (05 R150). -/
def commitCore (s : State) (id : CoreId) : State :=
  let c := s.core id
  let s := s.setCore id (committed c)
  let s := (s.add64 (corePage id) 0x210 1).add64 (corePage id) 0x080 c.seaRetired
  match c.seaFault with
  | some (pc, a, ix) => takeFault s id pc { code := 0x1006, addr := a, index := ix } true
  | none => s

/-- Vector register r and slot b hold undefined values: free values from number `n` on (R79; log 6). -/
def freeVreg (c : Core) (r n : Nat) : Core :=
  { c with vreg := putBlock 128 r ((List.range 128).map (fun i => (Config.freeValue (n + i)).setWidth 32)) 0 c.vreg }
def freeSlot (c : Core) (b n : Nat) : Core :=
  let vals := (List.range 32768).map (fun i => ((Config.freeValue (n + i / 8)) >>> (8 * (i % 8))).setWidth 8)
  { c with slots := putBlock 32768 b vals 0 c.slots }

/-- Everything the core wrote at sea in registers and slots becomes undefined; the state pays for the values drawn. -/
def loseSeaWrites (s : State) (id : CoreId) : State :=
  let c := s.core id
  let s := ((List.range 64).filter (fun r => c.wrV.getLsbD r)).foldl
    (fun t r => { (updCore t id (fun k => freeVreg k r t.fresh)) with fresh := t.fresh + 128 }) s
  ((List.range 16).filter (fun b => c.wrB.getLsbD b)).foldl
    (fun t b => { (updCore t id (fun k => freeSlot k b t.fresh)) with fresh := t.fresh + 4096 }) s

/-- Discard (R78): back to the checkpoint. -/
def discarded (c : Core) : Core :=
  clearSea { c with pc := c.ckPc, sreg := c.ckSreg, mreg := c.ckMreg, moves := c.moves.filter (fun m => !m.sea), fetchq := [],
                    twait := none, wait := 0, waitOn := [] }

/-- The core discards because of a consignment. `fault`: its code when it is exhausted (R80); otherwise a running core waits for the
replay (R79), and a stopping one does not redo (05 R146). -/
def discardCore (s : State) (id : CoreId) (k : ConsKey) (port : Nat) (fault : Option Nat) : State :=
  let s := loseSeaWrites s id
  let s := updCore s id discarded
  let s := s.add64 (corePage id) 0x218 1
  let s := (s.wrN (corePage id) 0x220 k.seq.toNat).wrN (corePage id) 0x224 (k.stream.toNat + port % 32 * 2 ^ 16)
  if (s.core id).state = .running then
    match fault with
    | some code => takeFault s id (s.core id).pc { code := code } false
    | none => s.setCore id { s.core id with redo := some k, wait := 6 }
  else s

/-- The cores of a state that satisfy a test, by id. -/
def coresWith (s : State) (p : Core → Bool) : List CoreId := (s.cores.filter (fun x => p x.2)).map (fun x => BitVec.ofNat 12 x.1)

/-- A consignment of H is confirmed while no landing of it is left. -/
def holdConfirmed (s : State) (c : Core) : Bool := c.hold.all (fun h => (findLanding s h.1).isNone)

/-- The outcome reaches every core that read the consignment: those whose whole hold set is now confirmed commit (R60, R77). -/
def coresConfirm (s : State) (k : ConsKey) : State :=
  (coresWith s (fun c => c.hold.any (fun h => h.1 == k) && holdConfirmed s c)).foldl commitCore s

/-- A failed attempt reaches them: they discard (R78). -/
def coresFail (s : State) (k : ConsKey) (port : Nat) : State :=
  (coresWith s (fun c => c.hold.any (fun h => h.1 == k))).foldl (fun t id => discardCore t id k port none) s

/-- An exhausted consignment reaches them: they discard and fault; cores that wait for its replay or for its granules fault where
they are (R80). -/
def coresExhaust (s : State) (k : ConsKey) (port code : Nat) : State :=
  let sea := coresWith s (fun c => c.hold.any (fun h => h.1 == k))
  let redo := coresWith s (fun c => c.redo == some k)
  let waiting := coresWith s (fun c => !c.atSea && c.wait != 0 && c.waitOn.contains k && decide (c.state = .running))
  let s := sea.foldl (fun t id => discardCore t id k port (some code)) s
  let s := redo.foldl (fun t id => takeFault t id (t.core id).pc { code := code } false) s
  waiting.foldl (fun t id =>
    let c := t.core id
    let ea := match c.plist with
      | some p => p.base.toNat + 32 * p.index
      | none => 0
    takeFault t id c.pc { code := code, addr := ea, index := c.plist.map (fun p => p.index) } false) s

/-- The replay has been checked: cores in REDO_WAIT for it resume (R79). -/
def coresRedo (s : State) (k : ConsKey) : State :=
  (coresWith s (fun c => c.redo == some k)).foldl (fun t id => updCore t id (fun c => { c with redo := none, wait := 0 })) s

/-! Ports: counters, blocks and windows (R81 to R84). -/

abbrev fWindowMax (p : Nat) : Fld := ⟨pgPort p, 0x400, 0, 3⟩
abbrev fWindow (p : Nat) : Fld := ⟨pgPort p, 0x400, 4, 3⟩
abbrev fAuto (p : Nat) : Fld := ⟨pgPort p, 0x400, 8, 1⟩
abbrev fClosed (p : Nat) : Fld := ⟨pgPort p, 0x400, 9, 1⟩

/-- The window opens again (R83, R84). -/
def reopenWindow (s : State) (p : Nat) : State :=
  let s := (s.put (fClosed p) 0).put (fWindow p) (s.get (fWindowMax p))
  logAdapt (raise s (pgPort p) 30 0x3004) (pgPort p) true

/-- The window closes (R83). -/
def closeWindow (s : State) (p : Nat) : State :=
  let s := (s.put (fClosed p) 1).put (fWindow p) 0
  logAdapt (raise s (pgPort p) 30 0x3003) (pgPort p) false

/-- A full block closes: QLAST, and the comparison of R83. -/
def closeBlock (s : State) (p : Nat) : State :=
  match s.fullBlocks.find? (fun x => x.1 == p) with
  | none => s
  | some (_, n) =>
    let s := { s with fullBlocks := s.fullBlocks.filter (fun x => x.1 != p) }
    let s := s.wrN (pgPort p) 0x40C (n % 2 ^ 16)
    let hi := s.get ⟨pgPort p, 0x404, 0, 16⟩
    let lo := s.get ⟨pgPort p, 0x404, 16, 16⟩
    if !s.bit (fClosed p) && s.bit (fAuto p) && hi < n then closeWindow s p
    else if s.bit (fClosed p) && n ≤ lo then reopenWindow s p
    else s

/-- One outcome is counted on its port: REPLAYS adds the final ATTEMPT, and the block fills (R81, R83). -/
def countOutcome (s : State) (p attempt : Nat) : State :=
  let s := if attempt = 0 then s else s.add64 (pgPort p) 0x418 attempt
  let n := s.get ⟨pgPort p, 0x408, 0, 12⟩ + 1
  let r := s.get ⟨pgPort p, 0x408, 16, 16⟩ + attempt
  if n = 4096 then
    let s := closeBlock s p
    { (s.wrN (pgPort p) 0x408 0) with fullBlocks := s.fullBlocks ++ [(p, r)] }
  else s.wrN (pgPort p) 0x408 (n + r * 2 ^ 16)

/-- A consignment ends exhausted (R63, R64, R256): `quay`: the port raises EVT.EXHAUSTED. What it means to a ferry, a collective or
a tier move is for their chapters. -/
def exhaustLanding (s : State) (l : Landing) (code : Nat) (quay : Bool) : State :=
  let s := setLanding s { l with st := .exhausted, words := [], failed := true }
  let s := s.incSat (pgPort l.port) 0x420
  let s := countOutcome s l.port l.attempt
  let s := if quay then raise s (pgPort l.port) 29 code else s
  let s := s.emit (.exhaustedNotice l.key)
  coresExhaust s l.key l.port code

/-- An attempt fails (R62, R63): attempts 0 to 3 ask for a replay. The result says whether the consignment is now exhausted. -/
def failAttempt (s : State) (l : Landing) : Bool × State :=
  if 4 ≤ l.attempt then (true, exhaustLanding s l 0x3001 true)
  else
    let s := setLanding s { l with st := .replaying, words := [], failed := true }
    let s := s.emit (.replayRequest l.key l.attempt)
    let s := raise s (pgPort l.port) 28 0x3002
    (false, coresFail s l.key l.port)

/-- Absorb a landing: its words are dropped and the source is told (R65). -/
def absorbLanding (s : State) (l : Landing) : State :=
  (setLanding s { l with target := .absorbed, words := [], failed := true }).emit (.absorbedNotice l.key)

/-- Release a held consignment (R58). -/
def releaseHeld (s : State) (k : ConsKey) : State := { s with held := s.held.filter (fun h => h.key != k) }

/-! Commands of this chapter that touch cores and ports alone. -/

/-- PAIR_REFRESH (R76): the lowest marked pair of its kind. -/
def execPairRefresh (core : CoreId) (kind : PairKind) (pair : Fin 8) (s : State) : Result :=
  if !coreOk core then .fault (.illFormed "PAIR_REFRESH")
  else
    let c := s.core core
    let lowest := fun (m : BitVec 16) => m.getLsbD pair.val && (List.range pair.val).all (fun i => !m.getLsbD i)
    match kind with
    | .tile => if lowest c.refT then finish (updCore s core (fun c => refreshTile c pair.val)) else .next s
    | .rows => if lowest c.refR then finish (updCore s core (fun c => refreshRows c pair.val)) else .next s

abbrev fSpecEn (id : CoreId) : Fld := ⟨corePage id, 0x200, 0, 1⟩

/-- SPEC_EN (R74): QCTRL takes the setting; it takes effect once the core is not at sea. -/
def writeQctrl (id : CoreId) (s : State) (v : W32) : State := s.putBit (fSpecEn id) (v.getLsbD 0)

def execSpecEn (core : CoreId) (a : Access) (s : State) : Result :=
  if !coreOk core then .fault (.illFormed "SPEC_EN")
  else hostWrite (corePage core) 0x200 a (writeQctrl core) s

/-- The setting takes effect (R74): enabling loses the upper halves, which then shadow the lower; disabling zeroes them. -/
def specEffect (c : Core) (on : Bool) : Core :=
  if on then
    { c with specOn := true, tiles := moveBlocks 16384 12 (fun t => if 6 ≤ t then t - 6 else t) c.tiles,
             rows := moveBlocks 4096 16 (fun t => if 8 ≤ t then t - 8 else t) c.rows }
  else
    { c with specOn := false, tiles := storeKeep (fun k => k / 16384 < 6) c.tiles, rows := storeKeep (fun k => k / 4096 < 8) c.rows,
             refT := 0, refR := 0 }

def specDue (s : State) (id : CoreId) : Bool := (s.core id).specOn != s.bit (fSpecEn id) && !(s.core id).atSea

def execSpecEnEffect (core : CoreId) (s : State) : Result :=
  if !coreOk core then .fault (.illFormed "SPEC_EN_EFFECT")
  else if specDue s core then finish (updCore s core (fun c => specEffect c (s.bit (fSpecEn core)))) else .next s

/-- The block of a link page is live only in its port's leader (the port block). -/
def portLive (s : State) (p : Nat) : Bool := 16 ≤ p || portOf s p == p

/-- QWIN (R84). -/
def writeQwin (p : Nat) (s : State) (v : W32) : State :=
  if !portLive s p then s
  else
    let s := (s.put (fWindowMax p) (min 4 (v.toNat % 8))).putBit (fAuto p) (v.getLsbD 8)
    if !s.bit (fClosed p) then s.put (fWindow p) (s.get (fWindowMax p))
    else if !s.bit (fAuto p) then reopenWindow s p
    else s

/-- QTHRESH: RATE_LO is at most RATE_HI. -/
def writeQthresh (p : Nat) (s : State) (v : W32) : State :=
  if !portLive s p then s
  else
    let hi := v.toNat % 2 ^ 16
    s.wrN (pgPort p) 0x404 (hi + min hi (v.toNat / 2 ^ 16) * 2 ^ 16)

def execQwin (port : Fin 24) (a : Access) (s : State) : Result := hostWrite (pgPort port.val) 0x400 a (writeQwin port.val) s

def execBlockClose (port : Fin 24) (s : State) : Result :=
  if s.fullBlocks.any (fun x => x.1 == port.val) then finish (closeBlock s port.val) else .next s

end Sys2Proof.Machine
end

