-- ==== Sys2Proof/Machine/Mover.lean ====
section
/-! DEFINITION. The tile mover: MOVE, its completion, and MWAIT (05 R137; 06 R177, R178; 08 R213 to R215). -/

namespace Sys2Proof.Machine

/-! The job a MOVE names. -/

/-- The job of a MOVE with the registers as they stand. -/
def moveJob (f : MoveF) (c : Core) : MoveJob :=
  { pc := c.pc, dk := f.dk, sk := f.sk, fmt := f.fmt, sat := f.sat, dst := c.s f.d.toNat, src := c.s f.a.toNat,
    shape := c.s f.b.toNat, pitch := c.s f.c.toNat, valid := if f.v = 0 then none else some (c.s f.v.toNat), sea := c.atSea }

/-- Formats that a move out of an accumulator tile produces (R177, R483). -/
def moveFmtOk (code : Nat) : Bool := code ≤ 11 || code == cXf40

def moveLegal (f : MoveF) : Bool :=
  isS f.d && isS f.a && isS f.b && isS f.c && isS f.v && f.dk.toNat ≤ 1 && f.sk.toNat ≤ 2
    && (if f.sk = 2 then moveFmtOk f.fmt.toNat else f.fmt == 0 && f.sat == 0) && f.rsv == 0

/-- Bits of a packed register that the second table of R177 does not list. -/
def unlisted (kind : BitVec 2) (v : W64) : Bool :=
  match kind.toNat with
  | 1 => v.toNat / 2 ^ 31 != 0 || bitsOf v.toNat 4 12 != 0
  | 2 => v.toNat / 2 ^ 31 != 0 || bitsOf v.toNat 4 12 != 0 || bitsOf v.toNat 23 1 != 0
  | _ => false

/-- Slot and byte offset of a slot end; first row and column of an accumulator source. -/
def slotNo (v : W64) : Nat := v.toNat % 16
def slotOff (v : W64) : Nat := bitsOf v.toNat 16 15
def accRow (v : W64) : Nat := bitsOf v.toNat 16 7
def accCol (v : W64) : Nat := bitsOf v.toNat 24 7

/-- Rows and bytes per row that the move reads: none when either is zero (R213). -/
def readRows (m : MoveJob) : Nat := if moveValidBytes m = 0 then 0 else moveValidRows m
def readBytes (m : MoveJob) : Nat := if moveValidRows m = 0 then 0 else moveValidBytes m

/-- Some register holds bits that must be zero (R177). -/
def moveBadBits (m : MoveJob) : Bool :=
  m.shape.toNat / 2 ^ 40 != 0 || (match m.valid with
    | some v => v.toNat / 2 ^ 40 != 0
    | none => false)
  || unlisted m.sk m.src || unlisted m.dk m.dst
  || (m.sk != 0 && bitsOf m.pitch.toNat 0 32 != 0) || (m.dk != 0 && bitsOf m.pitch.toNat 32 32 != 0)

/-- The shape is empty: the move completes at once. -/
def moveEmpty (m : MoveJob) : Bool := moveRows m == 0 || moveRowBytes m == 0

/-- Faults of a memory end: rows of `n` bytes from `a`, `pitch` apart. -/
def memEndFaults (s : State) (id : CoreId) (a pitch rows n : Nat) (write : Bool) : List (Option FaultRec) :=
  if rows = 0 || n = 0 then []
  else if a % 64 ≠ 0 || pitch % 64 ≠ 0 then [some { code := 0x1003, addr := a }]
  else (List.range rows).map (fun r =>
    (coreAccessFault s id (a + r * pitch) n write).map (fun e => { code := e, addr := a + r * pitch }))

/-- Faults of a slot end. -/
def slotEndFaults (off rows stride last : Nat) : List (Option FaultRec) :=
  if rows = 0 then []
  else [if off % 64 ≠ 0 then some { code := 0x1003 } else none,
        if slotSize < off + (rows - 1) * stride + last then some { code := 0x2105 } else none]

/-- Faults of an accumulator source: whole elements, inside the tile, a tile that there is. -/
def accEndFaults (c : Core) (m : MoveJob) : List (Option FaultRec) :=
  let w := fmtBits m.fmt.toNat
  let bits := 8 * moveRowBytes m
  [if bits % w ≠ 0 || 128 < accRow m.src + moveRows m || 128 < accCol m.src + bits / w then some { code := 0x1002 } else none,
   if c.tileLimit ≤ m.src.toNat % 16 then some { code := 0x2101 } else none]

/-- The fault of a MOVE, in the order of R162. -/
def moveFault (f : MoveF) (id : CoreId) (s : State) (c : Core) : Option FaultRec :=
  let m := moveJob f c
  let bad : List (Option FaultRec) := [if moveBadBits m then some { code := 0x1002 } else none]
  if moveEmpty m then firstFault bad
  else
    firstFault (bad
      ++ (match m.sk.toNat with
        | 0 => memEndFaults s id m.src.toNat (bitsOf m.pitch.toNat 0 32) (readRows m) (readBytes m) false
        | 1 => slotEndFaults (slotOff m.src) (readRows m) (moveRowBytes m) (readBytes m)
        | _ => accEndFaults c m)
      ++ (match m.dk.toNat with
        | 0 => memEndFaults s id m.dst.toNat (bitsOf m.pitch.toNat 32 32) (moveRows m) (moveRowBytes m) true
        | _ => slotEndFaults (slotOff m.dst) (moveRows m) (moveRowBytes m) (moveRowBytes m)))

/-- Its source rows in memory, and its destination rows. -/
def moveSrcRanges (m : MoveJob) : List (Nat × Nat) :=
  if m.sk = 0 then (List.range (readRows m)).map (fun r => (moveSrcRow m r, readBytes m)) else []
def moveDstRanges (m : MoveJob) : List (Nat × Nat) :=
  if m.dk = 0 then (List.range (moveRows m)).map (fun r => (moveDstRow m r, moveRowBytes m)) else []
/-- The ranges of the source that lie on this chip, as place addresses. -/
def moveSrcPlaces (s : State) (m : MoveJob) : List (Nat × Nat) :=
  ((moveSrcRanges m).filter (fun r => ownChip s r.1)).map (fun r => (placeBits r.1, r.2))

def moveTouch (f : MoveF) (c : Core) : Touch :=
  let m := moveJob f c
  if moveEmpty m then {}
  else { rdB := moveReadsSlot m, wrB := moveWritesSlot m, rdT := moveReadsTile m, outside := m.dk == 0 }

/-- What a MOVE waits for: a ninth move, memory, unconfirmed bytes that may not take the core to sea. -/
def moveBlock (f : MoveF) (s : State) (c : Core) : Option (Nat × List ConsKey) :=
  let m := moveJob f c
  let ps := moveSrcPlaces s m
  if moveEmpty m then none
  else if 8 ≤ c.moves.length then some (4, [])
  else if (moveSrcRanges m).any (fun r => readWaits s c r.1 r.2) || (moveDstRanges m).any (fun r => writeWaits s c r.1 r.2)
      || (if m.dk = 0 then ps.any (fun r => shoreBlocked s r.1 r.2) else (seaRead s c ps).isNone) then
    some (4, (ps.map (fun r => waitKeys s r.1 r.2)).flatten)
  else none

/-- The consignments that a load of a slot adds to the hold set. -/
def moveSea (f : MoveF) (s : State) (c : Core) : List (ConsKey × Nat) :=
  let m := moveJob f c
  if moveEmpty m || m.dk = 0 then [] else (seaRead s c (moveSrcPlaces s m)).getD []

/-- The move is outstanding; a slot loaded from unconfirmed bytes is tainted (02 R69). -/
def moveStart (f : MoveF) (id : CoreId) (c : Core) (t : State) : State :=
  let m := moveJob f c
  if moveEmpty m then t
  else
    let fromSea := m.dk != 0 && readsSea t (moveSrcPlaces t m)
    updCore t id (fun k =>
      let k := if fromSea then { k with taintB := setBitsOf k.taintB (moveWritesSlot m) } else k
      { k with moves := k.moves ++ [{ m with sea := k.atSea }] })

/-- MOVE (R137, R177). -/
def execMove (core : CoreId) (f : MoveF) (s : State) : Result :=
  issue "MOVE" core s (moveLegal f) (moveFault f core) (moveTouch f) (moveBlock f) (moveStart f core) (moveSea f)

/-! Completion. -/

/-- An accumulator element in the format of a move: RNE, the move's SAT; XF40 is copied (03 R96; 06 R177). -/
def accElem (code : Nat) (sat : Bool) (w : W40) : Rounded :=
  if code = cXf40 then ⟨w.toNat, 0⟩ else narrowTo code rmRNE sat (xf40 w)

/-- Elements packed into bytes, least significant first (03 R90). -/
def packElems (code : Nat) (l : List Nat) : List Byte :=
  bytesLE (ceilDiv (l.length * fmtBits code) 8) (l.zipIdx.foldl (fun n x => n + x.1 * 2 ^ (fmtBits code * x.2)) 0)

/-- The half of a pair that an outstanding move reads (02 R75). -/
def moveTile (c : Core) (m : MoveJob) : Nat := if c.specOn && m.sea then m.src.toNat % 16 + 6 else m.src.toNat % 16

/-- The valid bytes of source row r, the flags of their conversion, and the state after the read. -/
def moveReadRow (m : MoveJob) (c : Core) (s : State) (r : Nat) : List Byte × Nat × State :=
  match m.sk.toNat with
  | 0 =>
    let x := coreRead s (moveSrcRow m r) (readBytes m)
    (x.1, 0, x.2)
  | 1 => (c.slotBytes (slotNo m.src) (slotOff m.src + r * moveRowBytes m) (readBytes m), 0, s)
  | _ =>
    let n := readBytes m * 8 / fmtBits m.fmt.toNat
    let es := (List.range n).map (fun j =>
      accElem m.fmt.toNat (m.sat == 1) (storeGet c.tiles (tileKey (moveTile c m) (accRow m.src + r) (accCol m.src + j)) 0))
    (packElems m.fmt.toNat (es.map (fun e => e.bits)), es.foldl (fun a e => a ||| e.flags) 0, s)

/-- Every valid row, in order. -/
def moveReadAll (m : MoveJob) (c : Core) (s : State) : List (List Byte) × Nat × State :=
  (List.range (readRows m)).foldl (fun x r =>
    let y := moveReadRow m c x.2.2 r
    (x.1 ++ [y.1], x.2.1 ||| y.2.1, y.2.2)) ([], 0, s)

/-- A row of the destination: valid bytes, then zeros (R213). -/
def moveRowOut (m : MoveJob) (rows : List (List Byte)) (r : Nat) : List Byte :=
  let b := rows.getD r []
  b ++ List.replicate (moveRowBytes m - b.length) 0

/-- Write the destination. -/
def moveWriteAll (m : MoveJob) (id : CoreId) (rows : List (List Byte)) (s : State) : State :=
  (List.range (moveRows m)).foldl (fun t r =>
    let b := moveRowOut m rows r
    if m.dk = 0 then coreStore t (moveDstRow m r) b
    else updCore t id (fun k => k.setSlotBytes (slotNo m.dst) (slotOff m.dst + r * moveRowBytes m) b)) s

/-- Remove the n-th outstanding move. -/
def dropMove (c : Core) (n : Nat) : Core := { c with moves := c.moves.take n ++ c.moves.drop (n + 1) }

/-- The core can take a data error: it still runs or drains. -/
def takesError (c : Core) : Bool := decide (c.state = .running) || decide (c.state = .stopping)

/-- The completion of an outstanding move. -/
def moveFinish (m : MoveJob) (n : Nat) (id : CoreId) (s : State) : State :=
  let c := s.core id
  let s := updCore s id (fun k => dropMove k n)
  match (moveSrcRanges m).find? (fun r => ownChip s r.1 && poisoned s (placeBits r.1) r.2) with
  | some r => if takesError c then dataErrorFault s id m.pc r.1 none else uncorrectable s (placeBits r.1)
  | none =>
    let x := moveReadAll m c s
    let s := moveWriteAll m id x.1 x.2.2
    updCore s id (fun k => addFlags k (m.sea && anyBit c.taintT (moveReadsTile m)) x.2.1)

/-- The completion cannot come yet: stopped memory, a held source, or a data error that waits at the quay line (05 R150). -/
def moveHeld (s : State) (c : Core) (m : MoveJob) : Bool :=
  (moveSrcRanges m).any (fun r => ownChip s r.1 && readBlocked s (placeBits r.1) r.2)
    || (moveDstRanges m).any (fun r => ownChip s r.1 && writeBlocked s (placeBits r.1) r.2)
    || (c.atSea && !m.sea && (moveSrcRanges m).any (fun r => ownChip s r.1 && poisoned s (placeBits r.1) r.2))

/-- MOVE_DONE (R137): the n-th of the outstanding moves completes. -/
def execMoveDone (core : CoreId) (n : Fin 8) (s : State) : Result :=
  if !coreOk core then .fault (.illFormed "MOVE_DONE")
  else
    let c := s.core core
    match nth c.moves n.val with
    | none => .next s
    | some m =>
      if !running s || partState s (coreDie core) != 0 || moveHeld s c m then .next s
      else finish (moveFinish m n.val core s)

/-- MWAIT (R178): at most n moves outstanding. -/
def execMwait (core : CoreId) (f : ImmF) (s : State) : Result :=
  issue "MWAIT" core s (f.d == 0 && f.a == 0 && f.b == 0 && f.rsv == 0 && f.imm.toNat < 16) noFault noTouch
    (fun _ c => if 8 ≤ f.imm.toNat || c.moves.length ≤ f.imm.toNat then none else some (4, []))
    (fun _ t => t)

end Sys2Proof.Machine
end

