-- ==== Sys2Proof/Machine/Sync.lean ====
section
/-! DEFINITION. Synchronisation and system instructions: bollards, tide waits, CONFIRM, HALT, SIGNAL, FENCE, SYNCI, the flag word
(05 R131, R138 to R143, R148; 06 R179; 08 R227 to R230). -/

namespace Sys2Proof.Machine

/-- Every field but those named is zero. -/
def immOnly (f : ImmF) (d a b : Bool) : Bool :=
  (if d then isS f.d else f.d == 0) && (if a then isS f.a else f.a == 0) && (if b then isS f.b else f.b == 0) && f.rsv == 0

/-- An instruction that waits at the quay line while the core is at sea (02 R70). -/
def atQuay (_ : Core) : Touch := { outside := true }

/-- It waits until every earlier write, or access, of the core has completed (05 R131): accesses complete as they issue, but for
the moves outstanding. -/
def drained (_ : State) (c : Core) : Option (Nat × List ConsKey) := if c.moves.isEmpty then none else some (4, [])

/-! Bollards. -/

/-- Bollard b of a cluster. -/
def bollard (s : State) (cl b : Nat) : W32 := s.rd (pgCl cl) (0x800 + 4 * b)

/-- The claim of a core is recorded (08 R229). -/
def recordClaim (s : State) (id : CoreId) (b : Nat) (v : W32) : State :=
  let p := corePage id
  let s := s.wr p (0x800 + 4 * b) v
  s.wr64 p 0x900 (s.rd64 p 0x900 ||| BitVec.ofNat 64 (2 ^ b))

/-- BADD: sD = the old value, the bollard gains sB. -/
def execBadd (core : CoreId) (f : ImmF) (s : State) : Result :=
  issue "BADD" core s (immOnly f true false true && f.imm.toNat < 64) noFault atQuay
    (fun _ c => if c.moves.isEmpty then none else some (3, []))
    (fun c t =>
      let cl := coreCluster core
      let b := f.imm.toNat
      let old := bollard t cl b
      let add : W32 := (c.s f.b.toNat).setWidth 32
      let t := t.wr (pgCl cl) (0x800 + 4 * b) (old + add)
      let t := if add = 0 then t else recordClaim t core b old
      updCore t core (fun k => k.setS f.d.toNat (old.setWidth 64)))

/-! The tide. -/

/-- Where a TWAIT waits for: sA + sext(IMM32). -/
def waitTarget (f : ImmF) (c : Core) : W64 := c.s f.a.toNat + sext32 f.imm

/-- TWAIT (R138): an invalid tide, then one too far ahead. -/
def twaitFault (f : ImmF) (s : State) (c : Core) : Option FaultRec :=
  match tideCase s (waitTarget f c) with
  | .invalid => some { code := 0x400B }
  | .range => some { code := 0x400A }
  | .reached => none
  | .ahead => none

def execTwait (core : CoreId) (f : ImmF) (s : State) : Result :=
  issue "TWAIT" core s (immOnly f false true false) (twaitFault f) noTouch noBlock
    (fun c t =>
      if reachedNow s (waitTarget f c) then t
      else updCore t core (fun k => { k with twait := some (waitTarget f c), wait := 2 }))
    (keep := fun s c => !reachedNow s (waitTarget f c))

/-- TIDE_WAIT_DONE (R138): the awaited tide is reached, or the tide has become invalid. -/
def execTideWaitDone (core : CoreId) (s : State) : Result :=
  if !coreOk core then .fault (.illFormed "TIDE_WAIT_DONE")
  else
    let c := s.core core
    match c.twait with
    | none => .next s
    | some t =>
      if !running s || partState s (coreDie core) != 0 || decide (c.state ≠ .running) then .next s
      else if !s.tideValid then faultAt s core { code := 0x400B }
      else if reachedNow s t then finish (retire (updCore s core (fun k => { k with twait := none })) core)
      else .next s

/-- RDTIDE (R140). -/
def execRdtide (core : CoreId) (f : ImmF) (s : State) : Result :=
  issue "RDTIDE" core s (immOnly f true false false && f.imm == 0) noFault noTouch noBlock
    (fun _ t => updCore t core (fun k => k.setS f.d.toNat t.now))

/-! The quay line and memory. -/

/-- CONFIRM (R141). -/
def execConfirm (core : CoreId) (f : ImmF) (s : State) : Result :=
  issue "CONFIRM" core s (immOnly f false false false && f.imm == 0) noFault atQuay noBlock (fun _ t => t)

/-- FENCE (R131). -/
def execFence (core : CoreId) (f : ImmF) (s : State) : Result :=
  issue "FENCE" core s (immOnly f false false false && f.imm == 0) noFault noTouch drained (fun _ t => t)

/-- SYNCI (R125): the fetch queue is discarded. -/
def execSynci (core : CoreId) (f : ImmF) (s : State) : Result :=
  issue "SYNCI" core s (immOnly f false false false && f.imm == 0) noFault noTouch drained
    (fun _ t => updCore t core (fun k => { k with fetchq := [] }))

/-! Ending and signalling. -/

/-- HALT (R148). -/
def execHalt (core : CoreId) (f : ImmF) (s : State) : Result :=
  issue "HALT" core s (immOnly f false false false && f.imm == 0) noFault atQuay drained
    (fun _ t => raise (updCore t core (fun k => { k with state := .stopped })) (corePage core) 0 0)

/-- SIGNAL (R148). -/
def execSignal (core : CoreId) (f : ImmF) (s : State) : Result :=
  issue "SIGNAL" core s (immOnly f false false false && f.imm.toNat < 2 ^ 16) noFault atQuay drained
    (fun _ t => raise (t.wrN (corePage core) 0x070 f.imm.toNat) (corePage core) 3 0)

/-! The flag word (R143): every earlier contribution has been made once no move out of a tile is outstanding. -/

def flagsSettled (_ : State) (c : Core) : Option (Nat × List ConsKey) :=
  if c.moves.any (fun m => m.sk == 2) then some (7, []) else none

def execRdfl (core : CoreId) (f : ImmF) (s : State) : Result :=
  issue "RDFL" core s (immOnly f true false false && f.imm == 0) noFault atQuay flagsSettled
    (fun _ t => updCore t core (fun k => k.setS f.d.toNat (k.aflags.setWidth 64)))

/-- Bits [31:8] of AFLAGS are reserved. -/
def aflagsMask : W32 := 0xFF

def execWrfl (core : CoreId) (f : ImmF) (s : State) : Result :=
  issue "WRFL" core s (immOnly f false true false && f.imm == 0) noFault atQuay flagsSettled
    (fun c t => updCore t core (fun k => { k with aflags := (c.s f.a.toNat).setWidth 32 &&& aflagsMask }))

end Sys2Proof.Machine
end

