-- ==== Sys2Proof/Machine/CoreCtl.lean ====
section
/-! DEFINITION. The core page and the core monitor: START, STOP, RESUME, data errors, and the monitor's instructions (05 R144 to
R157, R180). -/

namespace Sys2Proof.Machine

/-! The words of the core page that the core's own state holds. -/

/-- STATUS.STATE (R144). -/
def coreStateCode : CoreState → Nat
  | .off => 0 | .running => 1 | .stopping => 2 | .stopped => 3 | .monitor => 4 | .faulted => 5 | .fenced => 6
def coreStateOf : Nat → Option CoreState
  | 0 => some .off | 1 => some .running | 2 => some .stopping | 3 => some .stopped | 4 => some .monitor | 5 => some .faulted
  | 6 => some .fenced | _ => none

/-- QSTAT (02, The quay registers). -/
def qstat (c : Core) : Nat :=
  (if c.atSea then 1 else 0) + (if c.specOn then 2 else 0) + (if c.wait = 1 then 4 else 0) + (if c.redo.isSome then 8 else 0)
    + 16 * c.hold.length

/-- A 64-bit value's half. -/
def half (v : W64) (hi : Bool) : W32 := if hi then (v >>> 32).setWidth 32 else v.setWidth 32

/-- A word of the core page, whoever reads it. -/
def coreWord (s : State) (id : CoreId) (off : Nat) : W32 :=
  let c := s.core id
  if off = 0x00C then BitVec.ofNat 32 (coreStateCode c.state + 16 * c.wait)
  else if off = 0x050 || off = 0x054 then half c.pc (off == 0x054)
  else if off = 0x06C then c.aflags
  else if 0x100 ≤ off && off < 0x200 then half (c.s ((off - 0x100) / 8)) (off % 8 == 4)
  else if off = 0x204 then BitVec.ofNat 32 (qstat c)
  else if off = 0x208 || off = 0x20C then half c.ckPc (off == 0x20C)
  else s.rd (corePage id) off

/-- PC, SREG and AFLAGS, which software reaches only in OFF, STOPPED or FAULTED (R156). -/
def coreOwn (off : Nat) : Bool := off == 0x050 || off == 0x054 || off == 0x06C || (0x100 ≤ off && off < 0x200)
def coreQuiet (c : Core) : Bool := decide (c.state = .off) || decide (c.state = .stopped) || decide (c.state = .faulted)

/-- Write half of a 64-bit value. -/
def setHalf (v : W64) (hi : Bool) (w : W32) : W64 := if hi then w ++ v.setWidth 32 else half v true ++ w

/-- Write a 64-bit register of the core's own: PC keeps bits [2:0] zero (R122). -/
def writeCore64 (id : CoreId) (off : Nat) (v : W64) (s : State) : State :=
  updCore s id (fun c => if off = 0x050 then { c with pc := v &&& ~~~7 } else c.setS ((off - 0x100) / 8) v)

/-! Commands (R145 to R147). -/

/-- A command that the state does not accept. -/
def refuseCore (s : State) (id : CoreId) : State := raise s (corePage id) 4 0x1007

/-- The core at START. -/
def startCore (s : State) (id : CoreId) (c : Core) : Core :=
  { c with state := .running, wait := 0, waitOn := [], pc := s.rd64 (corePage id) 0x040 &&& ~~~7,
           sreg := storePut (storePut (storePut [] 1 (s.rd64 (corePage id) 0x048) 0) 2 (id.setWidth 64) 0) 3
             (BitVec.ofNat 64 (nodeId s)) 0,
           mreg := [], aflags := 0, shadowFlags := 0, redo := none, plist := none, twait := none, fetchq := [],
           seaFault := none }

/-- The claims of a core are cleared (R157). -/
def clearClaims (s : State) (id : CoreId) : State :=
  let p := corePage id
  (iterate 64 (fun b t => t.wr p (0x800 + 4 * b) 0) s).wr64 p 0x900 0

/-- START (R145; 15 R397). -/
def startCommand (s : State) (id : CoreId) : State :=
  if coreQuiet (s.core id) && stageReady s then clearClaims (updCore s id (startCore s id)) id else refuseCore s id

/-- The core is STOPPED and says so. -/
def nowStopped (s : State) (id : CoreId) : State :=
  raise (updCore s id (fun c => { c with state := .stopped, wait := 0, waitOn := [], redo := none })) (corePage id) 1 0

/-- STOP (R146). -/
def stopCommand (s : State) (id : CoreId) : State :=
  let c := s.core id
  if decide (c.state ≠ .running) then refuseCore s id
  else if c.redo.isSome then nowStopped s id
  else updCore s id (fun c => { c with state := .stopping, twait := none, wait := 0, waitOn := [] })

/-- RESUME (R147). -/
def resumeCommand (s : State) (id : CoreId) : State :=
  let c := s.core id
  if decide (c.state = .stopped) || (decide (c.state = .faulted) && !s.bit ⟨corePage id, 0x060, 13, 1⟩) then
    updCore s id (fun c => { c with state := .running, wait := 0, waitOn := [] })
  else refuseCore s id

/-- CTRL: one command at most. -/
def writeCoreCtrl (id : CoreId) (s : State) (v : W32) : State :=
  match v.toNat % 8 with
  | 0 => s
  | 1 => startCommand s id
  | 2 => stopCommand s id
  | 4 => resumeCommand s id
  | _ => refuseCore s id

/-- A write of CTRL by the host. -/
def coreCtrl (mn : String) (id : CoreId) (a : Access) (s : State) : Result :=
  if !coreOk id then .fault (.illFormed mn) else hostWrite (corePage id) 0x008 a (writeCoreCtrl id) s

def execStart (core : CoreId) (a : Access) (s : State) : Result := coreCtrl "START" core a s
def execStop (core : CoreId) (a : Access) (s : State) : Result := coreCtrl "STOP" core a s
def execResume (core : CoreId) (a : Access) (s : State) : Result := coreCtrl "RESUME" core a s

/-- STOPPED (R146): the drain is over. -/
def execStopped (core : CoreId) (s : State) : Result :=
  if !coreOk core then .fault (.illFormed "STOPPED")
  else
    let c := s.core core
    if decide (c.state = .stopping) && c.moves.isEmpty && !c.atSea && c.plist.isNone && running s then finish (nowStopped s core)
    else .next s

/-- DATA_ERROR (R152): uncorrectable data reaches a load or move of a core that runs or drains. -/
def execDataError (core : CoreId) (pc addr : BitVec 64) (s : State) : Result :=
  if !coreOk core then .fault (.illFormed "DATA_ERROR")
  else if running s && takesError (s.core core) && (s.core core).seaFault.isNone
      && (if ownChip s addr.toNat then poisoned s (placeBits addr.toNat) 1 else boardPath s) then
    finish (if ownChip s addr.toNat then dataErrorFault s core pc addr.toNat none
      else if (s.core core).atSea then updCore s core (fun c => { c with seaFault := some (pc, addr.toNat, none), wait := 1 })
      else takeFault s core pc { code := 0x1006, addr := addr.toNat } true)
  else .next s

/-! The monitor (R151, R180). -/

/-- A monitor instruction: the monitor's own while it handles a fault; in any other state the word faults (R180). -/
def monIssue (mn : String) (id : CoreId) (legal : Bool) (effect : State → State) (s : State) : Result :=
  if !coreOk id then .fault (.illFormed mn)
  else if decide ((s.core id).state = .monitor) then
    (if legal && running s && partState s (coreDie id) == 0 then finish (effect s) else .next s)
  else issue mn id s legal (fun _ _ => some { code := 0x1005 }) noTouch noBlock (fun _ t => t)

/-- MRET: the core leaves MONITOR for the state the monitor set. -/
def leaveMonitor (id : CoreId) (s : State) : State :=
  match coreStateOf (s.get ⟨corePage id, 0x00C, 0, 3⟩) with
  | some x => updCore s id (fun c => { c with state := x })
  | none => s

def execMret (core : CoreId) (f : ImmF) (s : State) : Result :=
  monIssue "MRET" core (immOnly f false false false && f.imm == 0) (leaveMonitor core) s

/-- The monitor writes a word of the core page: its own state, or a register of the page; STATUS is the state MRET is to leave
for. -/
def monWrite (id : CoreId) (off : Nat) (w : W32) (s : State) : State :=
  if off = 0x050 || off = 0x054 then writeCore64 id 0x050 (setHalf (s.core id).pc (off == 0x054) w) s
  else if off = 0x06C then updCore s id (fun c => { c with aflags := w &&& aflagsMask })
  else if 0x100 ≤ off && off < 0x200 then
    writeCore64 id (off / 8 * 8) (setHalf ((s.core id).s ((off - 0x100) / 8)) (off % 8 == 4) w) s
  else if off = 0x204 || off = 0x208 || off = 0x20C then s
  else match rowAt (corePage id) off with
    | some _ => s.wr (corePage id) off w
    | none => s

/-- MCSR: a core-page register into sD, then sA into it when B is 1. -/
def monCsr (id : CoreId) (f : ImmF) (s : State) : State :=
  let off := (sext32 f.imm).toNat
  let listed := decide (off < 4096) && off % 4 == 0 && (rowAt (corePage id) off).isSome
  let old := if listed then coreWord s id off else 0
  let v := (s.core id).mon f.a.toNat
  let s := updCore s id (fun c => c.setMon f.d.toNat (old.setWidth 64))
  if f.b = 1 && listed then monWrite id off (v.setWidth 32) s else s

def execMcsr (core : CoreId) (f : ImmF) (s : State) : Result :=
  monIssue "MCSR" core (isS f.d && isS f.a && f.b.toNat ≤ 1 && f.rsv == 0) (monCsr core f) s

/-- MLOG: a RECORD entry with code sA[15:0] and data from sB and sD (19 R468). -/
def monLog (id : CoreId) (f : ImmF) (s : State) : State :=
  let c := s.core id
  let b := c.mon f.b.toNat
  let d := c.mon f.d.toNat
  logAdd s (logEntry s (corePage id) 1 ((c.mon f.a.toNat).toNat % 2 ^ 16) 0 false false
    (half b false, half b true, half d false, half d true))

def execMlog (core : CoreId) (f : ImmF) (s : State) : Result :=
  monIssue "MLOG" core (immOnly f true true true && f.imm == 0) (monLog core f) s

end Sys2Proof.Machine
end

