-- ==== Sys2Proof/Machine/Series.lean ====
section
/-! DEFINITION. The mathematical functions of 07 R194 enclosed between two binary fractions, and the exact rounding that 07 R188
promises for the short classes. An enclosure is a pair of numerators over 2^P; the value lies strictly between them. -/

namespace Sys2Proof.Machine

/-- Fraction bits of every enclosure: enough to decide the rounding of every FP32 input into every short class. -/
def encP : Nat := 1024
/-- One. -/
def encOne : Nat := 2 ^ encP

/-- Lower and upper numerators. -/
structure Encl where
  lo : Nat
  hi : Nat
deriving DecidableEq, Repr

/-- Product and quotient of enclosures of positive values. -/
def enclMul (a b : Encl) : Encl := ⟨a.lo * b.lo / encOne, a.hi * b.hi / encOne + 1⟩
def enclDiv (a b : Encl) : Encl := ⟨a.lo * encOne / b.hi, a.hi * encOne / b.lo + 1⟩
def enclAdd (a b : Encl) : Encl := ⟨a.lo + b.lo, a.hi + b.hi⟩
def enclSub (a b : Encl) : Encl := ⟨a.lo - b.hi, a.hi - b.lo⟩
def enclScale (n : Nat) (a : Encl) : Encl := ⟨n * a.lo, n * a.hi⟩
def enclOf (n : Nat) : Encl := ⟨n, n⟩

/-- Σ x^n / n! with the terms' own bounds; the last term bounds the rest. -/
def expTerms : Nat → Nat → Encl → Encl → Encl → Encl
  | 0, _, _, t, sum => ⟨sum.lo, sum.hi + t.hi + 1⟩
  | k + 1, n, x, t, sum =>
    let t : Encl := ⟨t.lo * x.lo / (n * encOne), t.hi * x.hi / (n * encOne) + 1⟩
    expTerms k (n + 1) x t (enclAdd sum t)
/-- e^x for x from 0 to 200. -/
def exE (x : Encl) : Encl := expTerms 1400 1 x (enclOf encOne) (enclOf encOne)
/-- e^−x. -/
def exNegE (x : Encl) : Encl := enclDiv (enclOf encOne) (exE x)

/-- Σ z^(2j+1) / (2j+1). -/
def atanhTerms : Nat → Nat → Encl → Encl → Encl → Encl
  | 0, _, _, p, sum => ⟨sum.lo, sum.hi + p.hi + 1⟩
  | k + 1, j, z2, p, sum =>
    atanhTerms k (j + 2) z2 (enclMul p z2) ⟨sum.lo + p.lo / j, sum.hi + p.hi / j + 1⟩
/-- atanh z for z at most 1/3. -/
def atanhE (z : Encl) : Encl := atanhTerms 340 1 (enclMul z z) z ⟨0, 0⟩
/-- ln 2 = 2 atanh (1/3). -/
def ln2E : Encl := enclScale 2 (atanhE ⟨encOne / 3, encOne / 3 + 1⟩)

/-- atan (1/n) over 2^(2 P): positive and negative terms apart. -/
def atanTerms : Nat → Nat → Nat → Bool → Encl → Encl → Encl × Encl
  | 0, _, _, _, pos, neg => (⟨pos.lo, pos.hi + 1⟩, ⟨neg.lo, neg.hi + 1⟩)
  | k + 1, n, j, plus, pos, neg =>
    let q := 2 ^ (2 * encP) / (j * n ^ j)
    let add := fun (s : Encl) => (⟨s.lo + q, s.hi + q + 1⟩ : Encl)
    atanTerms k n (j + 2) (!plus) (if plus then add pos else pos) (if plus then neg else add neg)
def atanInvE (n : Nat) : Encl :=
  let x := atanTerms 460 n 1 true ⟨0, 0⟩ ⟨0, 0⟩
  enclSub x.1 x.2
/-- π over 2^(2 P), by Machin's formula. -/
def piE : Encl := enclSub (enclScale 16 (atanInvE 5)) (enclScale 4 (atanInvE 239))

/-- The integer square root of n below 2^(2 b + 2), bit by bit. -/
def isqrt : Nat → Nat → Nat → Nat
  | 0, r, n => if (r + 1) * (r + 1) ≤ n then r + 1 else r
  | b + 1, r, n => isqrt b (if (r + 2 ^ (b + 1)) * (r + 2 ^ (b + 1)) ≤ n then r + 2 ^ (b + 1) else r) n
/-- √(2π). -/
def sqrt2PiE : Encl := ⟨isqrt (encP + 2) 0 (2 * piE.lo), isqrt (encP + 2) 0 (2 * piE.hi) + 1⟩

/-- Σ x^(2n+1) / (2n+1)!!. -/
def phiTerms : Nat → Nat → Encl → Encl → Encl → Encl
  | 0, _, _, t, sum => ⟨sum.lo, sum.hi + t.hi + 1⟩
  | k + 1, n, x2, t, sum =>
    let t : Encl := ⟨t.lo * x2.lo / (n * encOne), t.hi * x2.hi / (n * encOne) + 1⟩
    phiTerms k (n + 2) x2 t (enclAdd sum t)

/-- 1 / (1 + e^−x) of ±x. -/
def sigmaE (neg : Bool) (x : Encl) : Encl :=
  let e := exE x
  let d := enclAdd e (enclOf encOne)
  if neg then enclDiv (enclOf encOne) d else ⟨e.lo * encOne / (e.lo + encOne), e.hi * encOne / (e.hi + encOne) + 1⟩

/-- ½ (1 + erf (±x / √2)). -/
def gaussE (neg : Bool) (x : Encl) : Encl :=
  let x2 := enclMul x x
  let sum := phiTerms 1400 3 x2 x x
  let a := enclDiv sum (enclMul (exE ⟨x2.lo / 2, x2.hi / 2 + 1⟩) sqrt2PiE)
  if neg then enclSub (enclOf (encOne / 2)) a else enclAdd (enclOf (encOne / 2)) a

/-- ln (1 + w) for w at most 1. -/
def ln1pE (w : Encl) : Encl :=
  enclScale 2 (atanhE ⟨w.lo * encOne / (2 * encOne + w.lo), w.hi * encOne / (2 * encOne + w.hi) + 1⟩)

/-- ln (m × 2^e): its sign and its magnitude. -/
def lnE (m : Nat) (e : Int) : Bool × Encl :=
  let t := Nat.log2 m
  let k := (t : Int) + e
  let z : Encl := ⟨(m - 2 ^ t) * encOne / (m + 2 ^ t), (m - 2 ^ t) * encOne / (m + 2 ^ t) + 1⟩
  let lm := enclScale 2 (atanhE z)
  if 0 ≤ k then (false, enclAdd (enclScale k.toNat ln2E) lm) else (true, enclSub (enclScale (-k).toNat ln2E) lm)

/-- 1/√(m × 2^e). -/
def rsqrtE (m : Nat) (e : Int) : Encl :=
  let r := isqrt (encP + 80) 0 (2 ^ ((2 * encP : Nat) - e).toNat / m)
  ⟨r, r + 1⟩

/-- The sign and the enclosure of f(±m × 2^e), m not zero, for the functions of R194 (by FN), at a point where f is no binary
fraction of few bits. Beyond the range in which a series is taken, the tail's bound stands for it. -/
def fnEncl (fn : Nat) (neg : Bool) (m : Nat) (e : Int) : Option (Bool × Encl) :=
  let x := m * 2 ^ ((encP : Int) + e).toNat
  let xe := enclOf x
  let tiny := encOne / 2 ^ 200
  let far := fun (n : Nat) => decide (n * encOne < x)
  let one := encOne
  match fn with
  | 0x00 => some (neg, if far 40 then ⟨one - one / 2 ^ 100, one⟩ else
      let t := exE (enclScale 2 xe)
      ⟨(t.lo - one) * one / (t.lo + one), (t.hi - one) * one / (t.hi + one) + 1⟩)
  | 0x01 => some (false, if far 200 then (if neg then ⟨0, tiny⟩ else ⟨one - tiny, one⟩) else sigmaE neg xe)
  | 0x10 => some (false, if far 200 then (if neg then ⟨0, tiny⟩ else ⟨2 ^ 200 * one, 2 ^ 201 * one⟩)
      else if neg then exNegE xe else exE xe)
  | 0x11 => some (false, if far 200 then (if neg then ⟨0, tiny⟩ else ⟨2 ^ 200 * one, 2 ^ 201 * one⟩)
      else if neg then exNegE (enclMul xe ln2E) else exE (enclMul xe ln2E))
  | 0x12 => if neg then none else some (lnE m e)
  | 0x13 => some (false, if far 200 then (if neg then ⟨0, tiny⟩ else ⟨x, x + tiny⟩)
      else if neg then ln1pE (exNegE xe) else enclAdd xe (ln1pE (exNegE xe)))
  | 0x14 => some (neg, if far 200 then (if neg then ⟨0, tiny⟩ else ⟨x - tiny, x⟩) else enclMul xe (sigmaE neg xe))
  | 0x15 => some (neg, if far 20 then (if neg then ⟨0, tiny⟩ else ⟨x - tiny, x⟩) else enclMul xe (gaussE neg xe))
  | 0x16 => if neg then none else some (false, rsqrtE m e)
  | _ => none

/-- Round a value that lies strictly inside an enclosure: none if its ends round apart. -/
def enclRound (code rm : Nat) (sat : Bool) (x : Bool × Encl) : Option Rounded :=
  let a := narrowTo code rm sat (.fin x.1 (2 * x.2.lo + 1) (-((encP : Int) + 1)))
  let b := narrowTo code rm sat (.fin x.1 (2 * x.2.hi - 1) (-((encP : Int) + 1)))
  if a = b then some a else none

/-- The points where f is a binary fraction, but for those that R194 lists: 2^x at whole x, ln 1, 1/√(4^j). -/
def fnExact (fn : Nat) (neg : Bool) (m : Nat) (e : Int) : Option Num :=
  let t := Nat.log2 m
  let top := (t : Int) + e
  if fn = 0x11 && (0 ≤ e || m % 2 ^ (-e).toNat == 0) && decide (top ≤ 8) then
    let n := if 0 ≤ e then m * 2 ^ e.toNat else m / 2 ^ (-e).toNat
    some (.fin false 1 (if neg then -(n : Int) else n))
  else if fn = 0x12 && !neg && m == 2 ^ t && decide (top = 0) then some (.fin false 0 0)
  else if fn = 0x16 && !neg && m == 2 ^ t && decide (top % 2 = 0) then some (.fin false 1 (-(top / 2)))
  else none

end Sys2Proof.Machine
end

