-- ==== Sys2Proof/Machine/Vector.lean ====
section
/-! DEFINITION. Vector arithmetic, comparisons, mask operations, reductions and conversions (06 R166; 03 R97, R98, R105 to R107). -/

namespace Sys2Proof.Machine

/-! One lane at a time. -/

/-- The instruction keeps lanes of its destination. -/
def keepsLanes (c : Core) (mask : BitVec 4) (zm : BitVec 1) : Bool := zm == 0 && c.mask mask.toNat != BitVec.allOnes 128

/-- What a vector instruction with these vector sources touches. -/
def vecTouch (f : RegF) (rd : List (BitVec 6)) (c : Core) : Touch :=
  { rdV := rd.map (fun r => r.toNat) ++ (if keepsLanes c f.mask f.zm then [f.d.toNat] else []), wrV := [f.d.toNat] }

/-- The 128 lanes of the destination: `lane` where MASK is 1, else kept, or +0 with ZM. -/
def vecLanes (c : Core) (f : RegF) (lane : Nat → Rounded) : List Rounded :=
  (List.range 128).map (fun i =>
    if (c.mask f.mask.toNat).getLsbD i then lane i
    else if f.zm = 1 then ⟨0, 0⟩ else ⟨(c.lane f.d.toNat i).toNat, 0⟩)

/-- Flags of a list of results. -/
def joinFlags (l : List Rounded) : Nat := l.foldl (fun a r => a ||| r.flags) 0
def wordsOfResults (l : List Rounded) : List W32 := l.map (fun r => BitVec.ofNat 32 r.bits)

/-- A vector instruction that writes register D lane by lane. -/
def vecExec (mn : String) (id : CoreId) (f : RegF) (legal : Bool) (rd : List (BitVec 6)) (lane : Core → Nat → Rounded)
    (s : State) : Result :=
  issue mn id s legal noFault (vecTouch f rd) noBlock
    (fun c t => updCore t id (fun k =>
      let ls := vecLanes c f (lane c)
      addFlags (k.setVreg f.d.toNat (wordsOfResults ls)) (tainted c (vecTouch f rd c)) (joinFlags ls)))

/-- LANE, FMT and the reserved bits are zero. -/
def laneFree (f : RegF) : Bool := f.lane == 0 && f.fmt == 0 && f.rsv == 0
/-- So are RM and SAT, in an instruction that does not round. -/
def noRound (f : RegF) : Bool := laneFree f && f.rm == 0 && f.sat == 0

def rmOf (f : RegF) : Nat := f.rm.toNat
def satOf (f : RegF) : Bool := f.sat == 1
def laneA (f : RegF) (c : Core) (i : Nat) : W32 := c.lane f.a.toNat i
def laneB (f : RegF) (c : Core) (i : Nat) : W32 := c.lane f.b.toNat i

/-! Floating point (MAJOR 0x10). -/

/-- vD = vA op vB, rounded by RM. -/
def fpBinary (mn : String) (op : Nat → Num → Num → Num) (id : CoreId) (f : RegF) (s : State) : Result :=
  vecExec mn id f (laneFree f && f.c == 0) [f.a, f.b] (fun c i =>
    let x := fp32 (laneA f c i)
    let y := fp32 (laneB f c i)
    fpResult (rmOf f) (satOf f) (op (rmOf f) x y) [x, y]) s

def opAdd (rm : Nat) (x y : Num) : Num := numAdd (rm == rmRDN) x y
def opSub (rm : Nat) (x y : Num) : Num := numAdd (rm == rmRDN) x (numNeg y)
def opMul (_ : Nat) (x y : Num) : Num := numMul x y

def execVadd (core : CoreId) (f : RegF) (s : State) : Result := fpBinary "VADD" opAdd core f s
def execVsub (core : CoreId) (f : RegF) (s : State) : Result := fpBinary "VSUB" opSub core f s
def execVmul (core : CoreId) (f : RegF) (s : State) : Result := fpBinary "VMUL" opMul core f s

/-- vD = ±(vA × vB) + vC, one rounding. -/
def fpFused (mn : String) (neg : Bool) (id : CoreId) (f : RegF) (s : State) : Result :=
  vecExec mn id f (laneFree f) [f.a, f.b, f.c] (fun c i =>
    let x := fp32 (laneA f c i)
    let y := fp32 (laneB f c i)
    let z := fp32 (c.lane f.c.toNat i)
    fpResult (rmOf f) (satOf f) (numFma (rmOf f) (if neg then numNeg x else x) y z) [x, y, z]) s

def execVfma (core : CoreId) (f : RegF) (s : State) : Result := fpFused "VFMA" false core f s
def execVfnma (core : CoreId) (f : RegF) (s : State) : Result := fpFused "VFNMA" true core f s

/-- MAX and MIN (03 R106) set no flag. -/
def fpPick (mn : String) (op : Num → Num → Num) (id : CoreId) (f : RegF) (s : State) : Result :=
  vecExec mn id f (noRound f && f.c == 0) [f.a, f.b] (fun c i =>
    ⟨(toFp32 rmRNE false (op (fp32 (laneA f c i)) (fp32 (laneB f c i)))).bits, 0⟩) s

def execVmax (core : CoreId) (f : RegF) (s : State) : Result := fpPick "VMAX" numMax core f s
def execVmin (core : CoreId) (f : RegF) (s : State) : Result := fpPick "VMIN" numMin core f s

/-- A sign operation; a NaN gives the canonical NaN. -/
def fpSign (mn : String) (op : W32 → W32) (id : CoreId) (f : RegF) (s : State) : Result :=
  vecExec mn id f (noRound f && f.b == 0 && f.c == 0) [f.a] (fun c i =>
    let w := laneA f c i
    if fp32 w = .nan then ⟨fmtFp32.nanBits, 0⟩ else ⟨(op w).toNat, 0⟩) s

def execVabs (core : CoreId) (f : RegF) (s : State) : Result := fpSign "VABS" (fun w => w &&& 0x7FFFFFFF) core f s
def execVneg (core : CoreId) (f : RegF) (s : State) : Result := fpSign "VNEG" (fun w => w ^^^ 0x80000000) core f s

/-- VMOV: bit for bit. -/
def execVmov (core : CoreId) (f : RegF) (s : State) : Result :=
  vecExec "VMOV" core f (noRound f && f.b == 0 && f.c == 0) [f.a] (fun c i => ⟨(laneA f c i).toNat, 0⟩) s

/-- VSEL: vA where mC is 1, else vB. -/
def execVsel (core : CoreId) (f : RegF) (s : State) : Result :=
  vecExec "VSEL" core f (noRound f && is16 f.c) [f.a, f.b] (fun c i =>
    ⟨(if (c.mask f.c.toNat).getLsbD i then laneA f c i else laneB f c i).toNat, 0⟩) s

/-- VMULX: vA × vC[j], j = sB[6:0]. -/
def execVmulx (core : CoreId) (f : RegF) (s : State) : Result :=
  vecExec "VMULX" core f (laneFree f && isS f.b) [f.a, f.c] (fun c i =>
    let x := fp32 (laneA f c i)
    let y := fp32 (c.lane f.c.toNat ((c.s f.b.toNat).toNat % 128))
    fpResult (rmOf f) (satOf f) (numMul x y) [x, y]) s

/-- vD = vA op (FP32 in sB[31:0]). -/
def fpScalar (mn : String) (op : Nat → Num → Num → Num) (id : CoreId) (f : RegF) (s : State) : Result :=
  vecExec mn id f (laneFree f && isS f.b && f.c == 0) [f.a] (fun c i =>
    let x := fp32 (laneA f c i)
    let y := fp32 ((c.s f.b.toNat).setWidth 32)
    fpResult (rmOf f) (satOf f) (op (rmOf f) x y) [x, y]) s

def execVmuls (core : CoreId) (f : RegF) (s : State) : Result := fpScalar "VMULS" opMul core f s
def execVadds (core : CoreId) (f : RegF) (s : State) : Result := fpScalar "VADDS" opAdd core f s

/-- VBCAST: sA[31:0] in every lane. -/
def execVbcast (core : CoreId) (f : RegF) (s : State) : Result :=
  vecExec "VBCAST" core f (noRound f && isS f.a && f.b == 0 && f.c == 0) [] (fun c _ =>
    ⟨((c.s f.a.toNat).setWidth 32 : W32).toNat, 0⟩) s

/-! Integers (MAJOR 0x11). -/

/-- vD = vA op vB on INT32 lanes. -/
def intBinary (mn : String) (op : W32 → W32 → W32) (id : CoreId) (f : RegF) (s : State) : Result :=
  vecExec mn id f (noRound f && f.c == 0) [f.a, f.b] (fun c i => ⟨(op (laneA f c i) (laneB f c i)).toNat, 0⟩) s

def iMax (x y : W32) : W32 := if x.toInt ≤ y.toInt then y else x
def iMin (x y : W32) : W32 := if x.toInt ≤ y.toInt then x else y

def execViadd (core : CoreId) (f : RegF) (s : State) : Result := intBinary "VIADD" (fun x y => x + y) core f s
def execVisub (core : CoreId) (f : RegF) (s : State) : Result := intBinary "VISUB" (fun x y => x - y) core f s
def execVimul (core : CoreId) (f : RegF) (s : State) : Result := intBinary "VIMUL" (fun x y => x * y) core f s
def execVand (core : CoreId) (f : RegF) (s : State) : Result := intBinary "VAND" (fun x y => x &&& y) core f s
def execVor (core : CoreId) (f : RegF) (s : State) : Result := intBinary "VOR" (fun x y => x ||| y) core f s
def execVxor (core : CoreId) (f : RegF) (s : State) : Result := intBinary "VXOR" (fun x y => x ^^^ y) core f s
def execVshl (core : CoreId) (f : RegF) (s : State) : Result := intBinary "VSHL" (fun x y => x <<< (y.toNat % 32)) core f s
def execVshr (core : CoreId) (f : RegF) (s : State) : Result := intBinary "VSHR" (fun x y => x >>> (y.toNat % 32)) core f s
def execVsra (core : CoreId) (f : RegF) (s : State) : Result := intBinary "VSRA" (fun x y => x.sshiftRight (y.toNat % 32)) core f s
def execVimax (core : CoreId) (f : RegF) (s : State) : Result := intBinary "VIMAX" iMax core f s
def execVimin (core : CoreId) (f : RegF) (s : State) : Result := intBinary "VIMIN" iMin core f s

/-- VIDX: the lane number. -/
def execVidx (core : CoreId) (f : RegF) (s : State) : Result :=
  vecExec "VIDX" core f (noRound f && f.a == 0 && f.b == 0 && f.c == 0) [] (fun _ i => ⟨i, 0⟩) s

/-- VEXT: sD = sign-extended vA[j], j = sB[6:0]; a tainted value waits at the quay line (02 R70). -/
def execVext (core : CoreId) (f : RegF) (s : State) : Result :=
  issue "VEXT" core s (noRound f && isS f.d && isS f.b && f.c == 0 && f.mask == 0 && f.zm == 0) noFault
    (fun _ => { rdV := [f.a.toNat], toScalar := true }) noBlock
    (fun c t => updCore t core (fun k =>
      k.setS f.d.toNat ((laneA f c ((c.s f.b.toNat).toNat % 128)).signExtend 64)))

/-! Comparisons and masks (MAJOR 0x12). -/

/-- The new mask: `bit` where MASK is 1, else kept, or 0 with ZM. -/
def maskBits (c : Core) (f : RegF) (bit : Nat → Bool) : BitVec 128 :=
  BitVec.ofNat 128 ((List.range 128).foldl (fun m i =>
    if (if (c.mask f.mask.toNat).getLsbD i then bit i else f.zm == 0 && (c.mask f.d.toNat).getLsbD i) then m + 2 ^ i else m) 0)

/-- An instruction that writes mask register D. -/
def maskExec (mn : String) (id : CoreId) (f : RegF) (legal : Bool) (rd : List (BitVec 6)) (bit : Core → Nat → Bool)
    (s : State) : Result :=
  issue mn id s (legal && noRound f && is16 f.d && f.c == 0) noFault
    (fun _ => { rdV := rd.map (fun r => r.toNat), toScalar := true }) noBlock
    (fun c t => updCore t id (fun k => k.setMask f.d.toNat (maskBits c f (bit c))))

/-- mD[i] = a relation of vA and vB in FP32. -/
def fpCompare (mn : String) (rel : Num → Num → Bool) (id : CoreId) (f : RegF) (s : State) : Result :=
  maskExec mn id f true [f.a, f.b] (fun c i => rel (fp32 (laneA f c i)) (fp32 (laneB f c i))) s

def execFeq (core : CoreId) (f : RegF) (s : State) : Result := fpCompare "FEQ" numEq core f s
def execFne (core : CoreId) (f : RegF) (s : State) : Result := fpCompare "FNE" (fun x y => !numEq x y) core f s
def execFlt (core : CoreId) (f : RegF) (s : State) : Result := fpCompare "FLT" numLt core f s
def execFle (core : CoreId) (f : RegF) (s : State) : Result := fpCompare "FLE" (fun x y => numLt x y || numEq x y) core f s

/-- mD[i] = a relation of vA and vB in INT32. -/
def intCompare (mn : String) (rel : W32 → W32 → Bool) (id : CoreId) (f : RegF) (s : State) : Result :=
  maskExec mn id f true [f.a, f.b] (fun c i => rel (laneA f c i) (laneB f c i)) s

def execIeq (core : CoreId) (f : RegF) (s : State) : Result := intCompare "IEQ" (fun x y => x == y) core f s
def execIne (core : CoreId) (f : RegF) (s : State) : Result := intCompare "INE" (fun x y => x != y) core f s
def execIlt (core : CoreId) (f : RegF) (s : State) : Result := intCompare "ILT" (fun x y => decide (x.toInt < y.toInt)) core f s
def execIle (core : CoreId) (f : RegF) (s : State) : Result := intCompare "ILE" (fun x y => decide (x.toInt ≤ y.toInt)) core f s
def execIltu (core : CoreId) (f : RegF) (s : State) : Result := intCompare "ILTU" (fun x y => decide (x.toNat < y.toNat)) core f s

/-- mD = mA op mB. -/
def maskBinary (mn : String) (op : Bool → Bool → Bool) (id : CoreId) (f : RegF) (s : State) : Result :=
  maskExec mn id f (is16 f.a && is16 f.b) [] (fun c i =>
    op ((c.mask f.a.toNat).getLsbD i) ((c.mask f.b.toNat).getLsbD i)) s

def execMand (core : CoreId) (f : RegF) (s : State) : Result := maskBinary "MAND" (fun x y => x && y) core f s
def execMor (core : CoreId) (f : RegF) (s : State) : Result := maskBinary "MOR" (fun x y => x || y) core f s
def execMxor (core : CoreId) (f : RegF) (s : State) : Result := maskBinary "MXOR" (fun x y => x != y) core f s
def execMandn (core : CoreId) (f : RegF) (s : State) : Result := maskBinary "MANDN" (fun x y => x && !y) core f s

/-- MLEN: mD[i] = (i < sA), unsigned. -/
def execMlen (core : CoreId) (f : RegF) (s : State) : Result :=
  maskExec "MLEN" core f (isS f.a && f.b == 0) [] (fun c i => decide (i < (c.s f.a.toNat).toNat)) s

/-! Reductions (MAJOR 0x13; 03 R107). -/

/-- Reduce the active lanes of vA and write lane (sB[6:0] + LANE) mod 128 of vD; its other lanes stay. -/
def reduceExec (mn : String) (id : CoreId) (f : RegF) (legal : Bool) (idle : Nat) (op : Nat → Nat → Rounded) (s : State) : Result :=
  let touch : Touch := { rdV := [f.a.toNat, f.d.toNat], wrV := [f.d.toNat] }
  issue mn id s (legal && f.fmt == 0 && f.rsv == 0 && f.zm == 0 && isS f.b && f.c == 0) noFault (fun _ => touch) noBlock
    (fun c t => updCore t id (fun k =>
      let r := reduceTree op 7 ((List.range 128).map (fun i =>
        if (c.mask f.mask.toNat).getLsbD i then (laneA f c i).toNat else idle))
      let j := ((c.s f.b.toNat).toNat + f.lane.toNat) % 128
      addFlags (k.setLane f.d.toNat j (BitVec.ofNat 32 r.bits)) (tainted c touch) r.flags))

/-- One addition of VRSUM. -/
def sumStep (f : RegF) (a b : Nat) : Rounded :=
  let x := fp32 (BitVec.ofNat 32 a)
  let y := fp32 (BitVec.ofNat 32 b)
  fpResult (rmOf f) (satOf f) (opAdd (rmOf f) x y) [x, y]
/-- One step of VRMAX or VRMIN. -/
def pickStep (op : Num → Num → Num) (a b : Nat) : Rounded :=
  ⟨(toFp32 rmRNE false (op (fp32 (BitVec.ofNat 32 a)) (fp32 (BitVec.ofNat 32 b)))).bits, 0⟩

def execVrsum (core : CoreId) (f : RegF) (s : State) : Result := reduceExec "VRSUM" core f true 0 (sumStep f) s
def execVrmax (core : CoreId) (f : RegF) (s : State) : Result :=
  reduceExec "VRMAX" core f (f.rm == 0 && f.sat == 0) (infBits fmtFp32 true) (pickStep numMax) s
def execVrmin (core : CoreId) (f : RegF) (s : State) : Result :=
  reduceExec "VRMIN" core f (f.rm == 0 && f.sat == 0) (infBits fmtFp32 false) (pickStep numMin) s
def execVrisum (core : CoreId) (f : RegF) (s : State) : Result :=
  reduceExec "VRISUM" core f (f.rm == 0 && f.sat == 0) 0 (fun a b => ⟨(a + b) % 2 ^ 32, 0⟩) s

/-! Conversions (MAJOR 0x14). -/

def execF2i (core : CoreId) (f : RegF) (s : State) : Result :=
  vecExec "F2I" core f (laneFree f && f.b == 0 && f.c == 0) [f.a] (fun c i =>
    convertInt 32 (rmOf f) (fp32 (laneA f c i))) s
def execI2f (core : CoreId) (f : RegF) (s : State) : Result :=
  vecExec "I2F" core f (laneFree f && f.b == 0 && f.c == 0) [f.a] (fun c i =>
    toFp32 (rmOf f) (satOf f) (numOfInt (laneA f c i).toInt)) s

/-- The value of an element of a floating format as an FP32 lane: exact (05 R123). -/
def laneOf (code bits : Nat) : Nat := (toFp32 rmRNE false (elemValue code bits)).bits

/-- Round to a floating format and hold the value as FP32. -/
def quantize (code rm : Nat) (sat : Bool) (x : Num) : Rounded :=
  let r := narrowTo code rm sat x
  ⟨laneOf code r.bits, r.flags⟩

def execQnt (core : CoreId) (f : RegF) (s : State) : Result :=
  vecExec "QNT" core f (f.lane == 0 && f.rsv == 0 && 1 ≤ f.fmt.toNat && f.fmt.toNat ≤ 7 && f.b == 0 && f.c == 0) [f.a] (fun c i =>
    quantize f.fmt.toNat (rmOf f) (satOf f) (fp32 (laneA f c i))) s

end Sys2Proof.Machine
end

