-- ==== Sys2Proof/Machine/SFunc.lean ====
section
/-! DEFINITION. Special functions: micro-program images and their evaluation, the built-in and standard functions, SFN and SFG
(07 R181 to R199, R490; 06 R174, R175). -/

namespace Sys2Proof.Machine

/-! Output classes (R187). -/

def wideClass (c : Nat) : Bool := c == 0 || c == 1
/-- A class that SFN, SFG and SMX can name. -/
def outClass (c : Nat) : Bool := c ≤ 7 || c == 10
def shortClass (c : Nat) : Bool := outClass c && !wideClass c

/-! Exact arithmetic of the step words. -/

/-- Scale the exponent of a value. -/
def numExp2 (x : Num) (k : Int) : Num :=
  match x with
  | .fin n m e => .fin n m (e + k)
  | y => y

/-- The floor of a finite value. -/
def numFloor : Num → Int
  | .fin n m e =>
    if 0 ≤ e then (if n then -((m * 2 ^ e.toNat : Nat) : Int) else (m * 2 ^ e.toNat : Nat))
    else Int.fdiv (if n then -(m : Int) else m) ((2 ^ (-e).toNat : Nat) : Int)
  | .nan => 0
  | .inf _ => 0

def numSub (x y : Num) : Num := numAdd false x (numNeg y)
def numAbs : Num → Num
  | .fin _ m e => .fin false m e
  | .inf _ => .inf false
  | .nan => .nan
def numFinite : Num → Bool
  | .fin _ _ _ => true
  | _ => false

/-- ⌊2^32 × x / y⌋ of finite values, y positive and x not negative. -/
def ratio32 (x y : Num) : Nat :=
  match x, y with
  | .fin _ m e, .fin _ n f =>
    if e ≤ f then 2 ^ 32 * m / (n * 2 ^ (f - e).toNat) else 2 ^ 32 * m * 2 ^ (e - f).toNat / n
  | _, _ => 0

/-- 1/y rounded to 41 significant bits by RNE; a zero gives an infinity and DIVZERO (R182 RSEED). -/
def numRecip : Num → Num × Nat
  | .nan => (.nan, 0)
  | .inf n => (.fin n 0 0, 0)
  | .fin n 0 _ => (.inf n, afDivzero)
  | .fin n m e =>
    let t := Nat.log2 m + 41
    let q := 2 ^ t / m
    let r := 2 ^ t % m
    let q := if m < 2 * r || (m == 2 * r && q % 2 == 1) then q + 1 else q
    (.fin n q (-(t : Int) - e), 0)

/-! Images (R196, R197). -/

/-- One step word (R181). -/
structure FnStep where
  op : Nat
  mode : Nat
  arg : Nat
  rsv : Nat
  const : Nat
deriving DecidableEq, Repr

def fnStepOf (w : Nat) : FnStep :=
  { op := bitsOf w 60 4, mode := bitsOf w 56 4, arg := bitsOf w 48 8, rsv := bitsOf w 32 16, const := bitsOf w 0 32 }

def imgSteps (img : List Byte) : List FnStep :=
  (List.range (fieldLE img 5 1)).map (fun i => fnStepOf (fieldLE img (16 + 8 * i) 8))
/-- Seam i as FP32 bits. -/
def imgSeam (img : List Byte) (i : Nat) : Nat := fieldLE img (144 + 4 * i) 4
/-- The classes present, in ascending code, and where the table of one begins. -/
def imgClasses (img : List Byte) : List Nat := (List.range 16).filter (fun c => bitsOf (fieldLE img 8 2) c 1 == 1)
def imgTable (img : List Byte) (cls : Nat) : Nat := 448 + 1032 * ((imgClasses img).filter (fun c => decide (c < cls))).length
/-- Endpoint i (signed) and slope i of a class. -/
def imgY (img : List Byte) (cls i : Nat) : Int := signedOf 64 (fieldLE img (imgTable img cls + 8 * i) 8)
def imgS (img : List Byte) (cls i : Nat) : Nat := fieldLE img (imgTable img cls + 520 + 8 * i) 8
def imgEsc (img : List Byte) : Int := signedOf 8 (fieldLE img 10 1)
def imgFalls (img : List Byte) : Bool := bitsOf (fieldLE img 6 1) 0 1 == 1
def imgFlat (img : List Byte) : Nat := fieldLE img 7 1

/-- Segment i rises (R186). -/
def segRises (img : List Byte) (i : Nat) : Bool :=
  if imgFlat img != 0 && decide (imgFlat img - 1 < i) then imgFalls img else !imgFalls img

/-- A fence entry (R197). -/
structure Fence where
  seg : Nat
  down : Bool
  neg : Bool
  cls : Nat
  rm : Nat
  rsv : Bool
  tLo : Nat
  tHi : Nat
  kLo : Int
  kHi : Int
deriving DecidableEq, Repr

def imgNFence (img : List Byte) : Nat := fieldLE img 12 4
def imgFence (img : List Byte) (i : Nat) : Fence :=
  let b := 448 + 1032 * (imgClasses img).length + 16 * i
  { seg := bitsOf (fieldLE img b 1) 0 6, down := bitsOf (fieldLE img b 1) 6 1 == 1, neg := bitsOf (fieldLE img b 1) 7 1 == 1,
    cls := fieldLE img (b + 1) 1, rm := bitsOf (fieldLE img (b + 2) 1) 0 2,
    rsv := bitsOf (fieldLE img (b + 2) 1) 2 6 != 0 || fieldLE img (b + 3) 1 != 0, tLo := fieldLE img (b + 4) 4,
    tHi := fieldLE img (b + 8) 4, kLo := signedOf 16 (fieldLE img (b + 12) 2), kHi := signedOf 16 (fieldLE img (b + 14) 2) }

/-! Evaluation of an image (R182, R184 to R186). -/

/-- The state between step words: reduced argument, exponent, sign, segment and offset, working value, flags. -/
structure FnRun where
  v : Num
  k : Int
  neg : Bool
  seg : Option (Nat × Nat)
  y : Num
  flags : Nat
deriving DecidableEq, Repr

/-- The largest finite FP32 value. -/
def fp32Max (neg : Bool) : Num := .fin neg fmtFp32.mmax fmtFp32.qmax

/-- The input as a berth's program receives it (R184). -/
def fnInput (x : Num) : Num :=
  match x with
  | .inf n => fp32Max n
  | y => y

/-- The pole rule (R184): the result at a pole, or none. -/
def poleRule (falls : Bool) (x : Num) : Option (Num × Nat) :=
  match x with
  | .nan => some (.nan, 0)
  | .inf true => some (.nan, afInvalid)
  | .inf false => some (if falls then .fin false 0 0 else .inf false, 0)
  | .fin n 0 _ => some (if falls then .inf n else .inf true, afDivzero)
  | .fin true _ _ => some (.nan, afInvalid)
  | .fin false _ _ => none

/-- RRED: the reduced argument, none where the spec states no value (a constant that is not finite). -/
def stepReduce (w : FnStep) (x : Num) : Option FnRun :=
  let c := floatValue fmtFp32 w.const
  if !numFinite c then none
  else match w.mode with
    | 0 =>
      let u := numMul (fnInput x) c
      let u := if numLt (numAbs u) (.fin false 1 15) then u else .fin (numSign u) 1 15
      let k := numFloor u
      some ⟨numSub u (numOfInt k), k, false, none, .fin false 0 0, 0⟩
    | 1 => some ⟨numMul (numAbs (fnInput x)) c, 0, numSign x, none, .fin false 0 0, 0⟩
    | _ =>
      match x with
      | .fin _ m e =>
        let top := (Nat.log2 m : Int) + e
        let k := if w.arg = 2 then 2 * Int.fdiv top 2 else top
        some ⟨.fin false m (e - k), k, false, none, .fin false 0 0, 0⟩
      | _ => none

/-- SEG: the segment and its offset (R185); none past the last seam. -/
def stepSegment (img : List Byte) (v : Num) : Option (Nat × Nat) :=
  let seam := fun i => floatValue fmtFp32 (imgSeam img i)
  let n := ((List.range 65).filter (fun i => !numLt v (seam i))).length
  if n = 65 then none
  else if n = 0 then some (0, 0)
  else some (n - 1, ratio32 (numSub v (seam (n - 1))) (numSub (seam n) (seam (n - 1))))

/-- The interpolated value (R186). -/
def interpolate (img : List Byte) (cls : Nat) (seg : Option (Nat × Nat)) : Num :=
  match seg with
  | none => numExp2 (numOfInt (imgY img cls 64)) (imgEsc img)
  | some (i, t) =>
    let d : Int := ((imgS img cls i * t : Nat) : Int)
    numExp2 (numOfInt (imgY img cls i * 2 ^ 32 + (if segRises img i then d else -d))) (imgEsc img - 32)

/-- LERP: interpolation, symmetry, KADD. -/
def stepLerp (img : List Byte) (cls : Nat) (w : FnStep) (x : Num) (r : FnRun) : FnRun :=
  let y := interpolate img cls r.seg
  let y := match w.mode with
    | 1 => if r.neg then numNeg y else y
    | 2 => if r.neg then y else numSub (.fin false 1 0) y
    | 3 => if r.neg then y else numAdd false (fnInput x) y
    | _ => y
  { r with y := if w.arg % 2 = 1 then numAdd false y (numMul (numOfInt r.k) (floatValue fmtFp32 w.const)) else y }

/-- SCALE, RSEED and FENCE. A halved odd exponent has no stated value. -/
def stepTail (w : FnStep) (x : Num) (r : FnRun) : Option FnRun :=
  match w.op with
  | 4 => (match w.mode with
    | 0 => some { r with y := numExp2 r.y r.k }
    | 1 => if r.k % 2 = 0 then some { r with y := numExp2 r.y (-(r.k / 2)) } else none
    | _ => some { r with y := numMul r.y (fnInput x) })
  | 5 =>
    let z := numRecip r.y
    some { r with y := z.1, flags := r.flags ||| z.2 }
  | _ => some r

def stepsTail : List FnStep → Num → FnRun → Option FnRun
  | [], _, r => some r
  | w :: ws, x, r =>
    match stepTail w x r with
    | some r => stepsTail ws x r
    | none => none

/-- The whole program on a number: the run at its end; none where the spec states no value. A pole ends it at once. -/
def evalImage (img : List Byte) (cls : Nat) (x : Num) : Option FnRun :=
  match imgSteps img with
  | w1 :: _ :: w3 :: ws =>
    let pole := if w1.mode = 2 then poleRule (imgFalls img) x else none
    match pole with
    | some p => some ⟨.fin false 0 0, 0, false, none, p.1, p.2⟩
    | none =>
      match stepReduce w1 x with
      | none => none
      | some r =>
        let r := { r with seg := stepSegment img r.v }
        stepsTail ws x (stepLerp img cls w3 x r)
  | _ => none

/-- The program ends with a fence. -/
def imgFenced (img : List Byte) : Bool := (imgSteps img).getLast?.map (fun w => w.op) == some 6

/-! The final rounding and the fence (R187 to R189). -/

/-- The place of a finite value in the ordered set of its class; the zeros are one point. -/
def ordinal (cls bits : Nat) : Int :=
  match floatFmt cls with
  | some f => let m : Int := (bits % 2 ^ (f.eb + f.fb) : Nat)
              if bitsOf bits (f.eb + f.fb) 1 = 1 then -m else m
  | none => signedOf (intWidth cls) bits
/-- The largest and the smallest place. -/
def ordinalMax (cls : Nat) : Int :=
  match floatFmt cls with
  | some f => (maxBits f false : Nat)
  | none => 2 ^ (intWidth cls - 1) - 1
def ordinalMin (cls : Nat) : Int :=
  match floatFmt cls with
  | some f => -(maxBits f false : Nat)
  | none => -(2 ^ (intWidth cls - 1))
/-- The bits at a place; a zero takes the sign `neg`. -/
def ordinalBits (cls : Nat) (neg : Bool) (o : Int) : Nat :=
  match floatFmt cls with
  | some f => if o = 0 then signBit f neg else signBit f (decide (o < 0)) + o.natAbs
  | none => (o % 2 ^ intWidth cls).toNat

/-- The flags that a rounding of `x` to these bits would set. -/
def flagsOfRounding (cls bits : Nat) (x : Num) : Nat :=
  if numEq (elemValue cls bits) x then 0
  else match floatFmt cls with
    | some f => if bits % 2 ^ (f.eb + f.fb) < 2 ^ f.fb && f.hasSub then afInexact + afUnderflow else afInexact
    | none => afInexact

/-- Move a rounded result one place (R189). -/
def moveOnePlace (cls : Nat) (down : Bool) (r : Rounded) (x : Num) : Rounded :=
  let o := ordinal cls r.bits
  let o2 := if down then o - 1 else o + 1
  if !numFinite (elemValue cls r.bits) || ordinalMax cls < o2 || o2 < ordinalMin cls then r
  else
    let b := ordinalBits cls (numSign (elemValue cls r.bits)) o2
    ⟨b, flagsOfRounding cls b x⟩

/-- The fence that matches (R189). -/
def matchingFence (img : List Byte) (cls rm : Nat) (x : Num) (r : FnRun) : Option Fence :=
  match r.seg with
  | none => none
  | some (i, t) =>
    ((List.range (imgNFence img)).map (imgFence img)).find? (fun f =>
      f.seg == i && f.cls == cls && f.rm == rm && f.neg == numSign x && decide (f.tLo ≤ t) && decide (t ≤ f.tHi)
        && decide (f.kLo ≤ r.k) && decide (r.k ≤ f.kHi))

/-- The result of a berth's program in a class: bits of the class and flags. -/
def imageResult (img : List Byte) (cls rm : Nat) (sat : Bool) (x : Num) : Option Rounded :=
  (evalImage img cls x).map (fun r =>
    let z := narrowTo cls rm sat r.y
    let z := if shortClass cls && imgFenced img then
        (match matchingFence img cls rm x r with
          | some f => moveOnePlace cls f.down z r.y
          | none => z)
      else z
    ⟨z.bits, z.flags ||| r.flags⟩)

/-! The functions of R194. -/

/-- Their results at NaN, at ±0 and at the infinities, with the flags of the pole rule. -/
def fnPoint (fn : Nat) (x : Num) : Option (Num × Nat) :=
  let zero := fun n => (Num.fin n 0 0, 0)
  match fn, x with
  | _, .nan => some (.nan, 0)
  | 0x12, x => poleRule false x
  | 0x16, x => poleRule true x
  | 0x00, .inf n => some (.fin n 1 0, 0)
  | 0x00, .fin n 0 _ => some (zero n)
  | 0x01, .inf n => some (if n then zero false else (.fin false 1 0, 0))
  | 0x01, .fin _ 0 _ => some (.fin false 1 (-1), 0)
  | 0x10, .inf n => some (if n then zero false else (.inf false, 0))
  | 0x10, .fin _ 0 _ => some (.fin false 1 0, 0)
  | 0x11, .inf n => some (if n then zero false else (.inf false, 0))
  | 0x11, .fin _ 0 _ => some (.fin false 1 0, 0)
  | 0x13, .inf n => some (if n then zero false else (.inf false, 0))
  | 0x14, .inf n => some (if n then zero true else (.inf false, 0))
  | 0x14, .fin n 0 _ => some (zero n)
  | 0x15, .inf n => some (if n then zero true else (.inf false, 0))
  | 0x15, .fin n 0 _ => some (zero n)
  | _, _ => none

/-- The exactly rounded value in a short class (R188); softplus at ±0 is ln 2. -/
def shortValue (fn cls rm : Nat) (sat : Bool) (x : Num) : Option Rounded :=
  match x with
  | .fin neg m e =>
    if m = 0 then (if fn = 0x13 then enclRound cls rm sat (false, ln2E) else none)
    else match fnExact fn neg m e with
      | some v => some (narrowTo cls rm sat v)
      | none => (fnEncl fn neg m e).bind (enclRound cls rm sat)
  | _ => none

/-- The lane of a result of a class. -/
def classLane (cls : Nat) (r : Rounded) : Rounded := ⟨laneOf cls r.bits, r.flags⟩

/-- The lane that the vendor's tables give, which the spec does not state (log 20). -/
def tableLane (fn cls rm : Nat) (sat : Bool) (x : W32) : Rounded :=
  ⟨(Config.functionValue fn cls rm sat x).toNat, (Config.functionFlags fn cls rm sat x).toNat % 256⟩

/-- A function of R194 on one FP32 lane: the listed results, the exact rounding in a short class, the tables in a wide one. -/
def stdLane (fn cls rm : Nat) (sat : Bool) (x : W32) : Rounded :=
  match fnPoint fn (fp32 x) with
  | some (v, fl) =>
    let r := narrowTo cls rm sat v
    classLane cls ⟨r.bits, r.flags ||| fl⟩
  | none =>
    if wideClass cls then tableLane fn cls rm sat x
    else match shortValue fn cls rm sat (fp32 x) with
      | some r => classLane cls r
      | none => tableLane fn cls rm sat x

/-- A berth's program on one FP32 lane. -/
def imageLane (img : List Byte) (fn cls rm : Nat) (sat : Bool) (x : W32) : Rounded :=
  if fp32 x = .nan then classLane cls (narrowTo cls rm sat .nan)
  else match imageResult img cls rm sat (fp32 x) with
    | some r => classLane cls r
    | none => tableLane fn cls rm sat x

/-- The gated product of SFG (R190) from an exact working value. -/
def gateValue (cls rm : Nat) (sat : Bool) (g : Num) (y : Num) (fl : Nat) : Rounded :=
  let p := numMul g y
  let r := narrowTo cls rm sat p
  classLane cls ⟨r.bits, r.flags ||| fl ||| madeNan p [g, y]⟩

/-- The gated product where only the tables give the working value (log 20). -/
def tableGate (fn cls rm : Nat) (sat : Bool) (g x : W32) : Rounded :=
  if fp32 g = .nan then classLane cls (narrowTo cls rm sat .nan)
  else ⟨(Config.gatedValue g fn cls rm sat x).toNat, (Config.gatedFlags g fn cls rm sat x).toNat % 256⟩

/-! Which functions there are (R174, R175, R199, R490). -/

def builtIn (fn : Nat) : Bool := fn ≤ 1
def stdFn (fn : Nat) : Bool := 0x10 ≤ fn && fn ≤ 0x16
def slotFn (fn : Nat) : Bool := 0x40 ≤ fn && fn ≤ 0x7F
/-- An FN that is not reserved. -/
def fnListedCode (fn : Nat) : Bool := builtIn fn || stdFn fn || slotFn fn

/-- The image in a slot of a berth. -/
def fnSlot (s : State) (b fn : Nat) : Option (List Byte) :=
  if slotFn fn then
    (match storeGet (s.berth b).slots (fn - 0x40) [] with
      | [] => none
      | img => some img)
  else none

/-- The function is loaded for the core's berth, in the class asked for. -/
def fnPresent (s : State) (owner fn cls : Nat) : Bool :=
  if builtIn fn then true
  else if owner = 0xFF then stdFn fn
  else if stdFn fn then s.bit ⟨pgBerth owner, 0x614, fn - 0x10, 1⟩
  else match fnSlot s owner fn with
    | some img => (imgClasses img).contains cls
    | none => false

/-- One lane of SFN. -/
def sfnLane (s : State) (owner fn cls rm : Nat) (sat : Bool) (x : W32) : Rounded :=
  match fnSlot s owner fn with
  | some img => imageLane img fn cls rm sat x
  | none => stdLane fn cls rm sat x

/-- One lane of SFG. -/
def sfgLane (s : State) (owner fn cls rm : Nat) (sat : Bool) (g x : W32) : Rounded :=
  match fnSlot s owner fn with
  | some img =>
    if fp32 x = .nan then gateValue cls rm sat (fp32 g) .nan 0
    else (match evalImage img cls (fp32 x) with
      | some r => gateValue cls rm sat (fp32 g) r.y r.flags
      | none => tableGate fn cls rm sat g x)
  | none =>
    match fnPoint fn (fp32 x) with
    | some (v, fl) => gateValue cls rm sat (fp32 g) v fl
    | none => tableGate fn cls rm sat g x

/-- The word of SFN or SFG is no illegal encoding (06 R174). -/
def sfLegal (fn : BitVec 8) (f : RegF) : Bool :=
  fnListedCode fn.toNat && outClass f.fmt.toNat && f.c == 0 && f.lane == 0 && f.rsv == 0

/-- The function must be loaded (06 R175). -/
def sfFault (fn : BitVec 8) (f : RegF) (id : CoreId) (s : State) (_ : Core) : Option FaultRec :=
  if fnPresent s (coreOwner s id) fn.toNat f.fmt.toNat then none else some { code := 0xC001 }

/-- A special function over the active lanes. -/
def sfExec (mn : String) (id : CoreId) (fn : BitVec 8) (f : RegF) (legal : Bool) (rd : List (BitVec 6))
    (lane : State → Core → Nat → Rounded) (s : State) : Result :=
  issue mn id s (sfLegal fn f && legal) (sfFault fn f id) (vecTouch f rd) noBlock
    (fun c t => updCore t id (fun k =>
      let ls := vecLanes c f (lane t c)
      addFlags (k.setVreg f.d.toNat (wordsOfResults ls)) (tainted c (vecTouch f rd c)) (joinFlags ls)))

/-- SFN: vD = f(vA). -/
def execSfn (core : CoreId) (fn : BitVec 8) (f : RegF) (s : State) : Result :=
  sfExec "SFN" core fn f (f.b == 0) [f.a] (fun t c i =>
    sfnLane t (coreOwner t core) fn.toNat f.fmt.toNat (rmOf f) (satOf f) (laneA f c i)) s

/-- SFG: vD = vB × f(vA), rounded once. -/
def execSfg (core : CoreId) (fn : BitVec 8) (f : RegF) (s : State) : Result :=
  sfExec "SFG" core fn f true [f.a, f.b] (fun t c i =>
    sfgLane t (coreOwner t core) fn.toNat f.fmt.toNat (rmOf f) (satOf f) (laneB f c i) (laneA f c i)) s

end Sys2Proof.Machine
end

