-- ==== Sys2Proof/Machine/Functions.lean ====
section
/-! DEFINITION. Function tables: the checks of an image and the commands of a berth's function block, MTBL, and a host's write of a
bollard (07 R196 to R199; 06 R180; 08 R231). -/

namespace Sys2Proof.Machine

/-! Checks of an image (R199 step 3). -/

/-- One step word is well formed (R181, R182). -/
def stepGood (w : FnStep) : Bool :=
  w.rsv == 0 &&
  (match w.op with
    | 1 => (w.mode ≤ 1 && w.arg == 0) || (w.mode == 2 && (w.arg == 1 || w.arg == 2) && w.const == 0)
    | 2 => w.mode == 0 && w.arg == 0 && w.const == 0
    | 3 => w.mode ≤ 3 && w.arg ≤ 1 && (w.arg == 1 || w.const == 0)
    | 4 => w.mode ≤ 2 && w.arg == 0 && w.const == 0
    | 5 => w.mode == 0 && w.arg == 0 && w.const == 0
    | 6 => w.mode == 0 && w.arg == 0 && w.const == 0
    | _ => false)

/-- The order of R183: RRED, SEG, LERP, then SCALE and RSEED, and FENCE last if at all. -/
def stepsOrdered (l : List FnStep) : Bool :=
  match l with
  | a :: b :: c :: r =>
    a.op == 1 && b.op == 2 && c.op == 3 &&
      (r.zipIdx.all (fun x => x.1.op == 4 || x.1.op == 5 || (x.1.op == 6 && x.2 + 1 == r.length)))
  | _ => false

/-- Seams are finite and rise (R185). -/
def seamsGood (img : List Byte) : Bool :=
  (List.range 65).all (fun i => numFinite (floatValue fmtFp32 (imgSeam img i))) &&
    (List.range 64).all (fun i => numLt (floatValue fmtFp32 (imgSeam img i)) (floatValue fmtFp32 (imgSeam img (i + 1))))

/-- Slopes are the endpoints' differences, with the signs of R186. -/
def slopesGood (img : List Byte) (cls : Nat) : Bool :=
  (List.range 64).all (fun i =>
    let d := imgY img cls (i + 1) - imgY img cls i
    d.natAbs == imgS img cls i &&
      (if imgFlat img == i + 1 then d == 0 else if segRises img i then decide (0 ≤ d) else decide (d ≤ 0)))

/-- The period condition of the program's reduction (R192). -/
def periodGood (img : List Byte) (cls : Nat) : Bool :=
  let st := imgSteps img
  let y0 := imgY img cls 0
  let y64 := imgY img cls 64
  match st with
  | a :: _ :: c :: r =>
    (!(a.mode == 0 && r.any (fun w => w.op == 4 && w.mode == 0)) || y64 == 2 * y0) &&
    (!(a.mode == 2 && a.arg == 2 && r.any (fun w => w.op == 4 && w.mode == 1)) || 2 * y64 == y0) &&
    (!(a.mode == 2 && c.arg == 1) ||
      numEq (numExp2 (numOfInt (y64 - y0)) (imgEsc img)) (floatValue fmtFp32 c.const))
  | _ => false

/-- A fence entry is well formed (R197, R199). -/
def fenceGood (img : List Byte) (f : Fence) : Bool :=
  shortClass f.cls && (imgClasses img).contains f.cls && !f.rsv && decide (f.tLo ≤ f.tHi) && decide (f.kLo ≤ f.kHi)

/-- Two entries match one input. -/
def fencesMeet (a b : Fence) : Bool :=
  a.seg == b.seg && a.cls == b.cls && a.rm == b.rm && a.neg == b.neg && decide (a.tLo ≤ b.tHi) && decide (b.tLo ≤ a.tHi)
    && decide (a.kLo ≤ b.kHi) && decide (b.kLo ≤ a.kHi)

def fencesApart : List Fence → Bool
  | [] => true
  | f :: fs => !fs.any (fencesMeet f) && fencesApart fs

/-- The image passes every check. -/
def imageGood (img : List Byte) : Bool :=
  let fs := (List.range (imgNFence img)).map (imgFence img)
  decide (448 ≤ img.length) && fieldLE img 0 4 == 0x4C464B48 && fieldLE img 4 1 == 1
    && decide (1 ≤ fieldLE img 5 1) && decide (fieldLE img 5 1 ≤ 16) && bitsOf (fieldLE img 6 1) 1 7 == 0
    && decide (imgFlat img ≤ 64) && fieldLE img 11 1 == 0 && decide (imgNFence img ≤ 65536)
    && (imgClasses img).all outClass
    && (List.range 16).all (fun i => decide (i < fieldLE img 5 1) || fieldLE img (16 + 8 * i) 8 == 0)
    && fieldLE img 404 44 == 0
    && (imgSteps img).all stepGood && stepsOrdered (imgSteps img)
    && decide (img.length = 448 + 1032 * (imgClasses img).length + 16 * imgNFence img)
    && seamsGood img && (imgClasses img).all (slopesGood img) && (imgClasses img).all (periodGood img)
    && fs.all (fenceGood img) && fencesApart fs

/-! The function block (R198, R199). -/

abbrev fFnBusy (b : Nat) : Fld := ⟨pgBerth b, 0x610, 0, 1⟩
abbrev fFnCode (b : Nat) : Fld := ⟨pgBerth b, 0x610, 16, 16⟩

/-- Some core of a cluster bound to the berth is in a state other than OFF, STOPPED, FAULTED or FENCED. -/
def berthCoresBusy (s : State) (b : Nat) : Bool :=
  s.cores.any (fun x => (s.rd64 (pgBerth b) 0x040).getLsbD (x.1 / 64) && !(coreQuiet x.2 || decide (x.2.state = .fenced)))

/-- The table space a berth uses, in KiB: its own slots and the standard functions loaded (log 20). -/
def fnSpaceUsed (s : State) (b : Nat) : Nat :=
  ceilDiv ((s.berth b).slots.foldl (fun n x => n + x.2.length) 0) 1024 +
    ((List.range 7).filter (fun j => s.bit ⟨pgBerth b, 0x614, j, 1⟩)).foldl (fun n j => n + Config.stdSpace (0x10 + j)) 0

/-- FN_SPACE shows it. -/
def showSpace (s : State) (b : Nat) : State := s.put ⟨pgBerth b, 0x620, 0, 16⟩ (fnSpaceUsed s b)

/-- A command ends with a result, which is logged (R199; log 52). -/
def fnResult (s : State) (b code : Nat) : State :=
  let s := s.put (fFnCode b) code
  logAdd s (logEntry s (pgBerth b) 1 code 0 false false (evtData s (pgBerth b)))

/-- FN_CMD: an operation is refused at once while busy, else it is begun. -/
def writeFnCmd (b : Nat) (s : State) (v : W32) : State :=
  if v.toNat % 4 = 0 then s
  else if s.bit (fFnBusy b) || berthCoresBusy s b then fnResult s b 0xC003
  else (s.put (fFnBusy b) 1).setBerth b { s.berth b with fnJob := some v }

def execFnLoad (b : Fin 16) (a : Access) (s : State) : Result := hostWrite (pgBerth b.val) 0x60C a (writeFnCmd b.val) s
def execFnUnload (b : Fin 16) (a : Access) (s : State) : Result := hostWrite (pgBerth b.val) 0x60C a (writeFnCmd b.val) s
def execFnLoadStd (b : Fin 16) (a : Access) (s : State) : Result := hostWrite (pgBerth b.val) 0x60C a (writeFnCmd b.val) s

/-- The image's address and length lie in the berth's HBM on this chip. -/
def imageInBerth (s : State) (b a n : Nat) : Bool :=
  onThisChip s a && onePlace (placeBits a) n && rangeInRegions s b (placeBits a) n false &&
    (match placeOf (placeBits a) with
      | some (.hbm _ _) => true
      | _ => false)

/-- A slot of a berth takes an image, or loses one. -/
def setSlot (s : State) (b slot : Nat) (img : List Byte) : State :=
  let r := s.berth b
  let s := s.setBerth b { r with slots := storePut r.slots slot img [] }
  let bits := s.rd64 (pgBerth b) 0x618
  s.wr64 (pgBerth b) 0x618 (if img.isEmpty then clearBitsOf bits [slot] else setBitsOf bits [slot])

/-- LOAD: the image's checks, the space, the copy. -/
def fnLoadRun (s : State) (b fn : Nat) : State :=
  let a := (s.rd64 (pgBerth b) 0x600).toNat
  let n := s.rdN (pgBerth b) 0x608
  if !slotFn fn || !imageInBerth s b a n then fnResult s b 0xC002
  else if poisoned s (placeBits a) n then fnResult (uncorrectable s (placeBits a)) b 0xC002
  else
    let x := memRead s (placeBits a) n
    if !imageGood x.1 then fnResult x.2 b 0xC002
    else
      let t := showSpace (setSlot x.2 b (fn - 0x40) x.1) b
      if 4096 < fnSpaceUsed t b then fnResult x.2 b 0xC004 else fnResult t b 0

/-- UNLOAD. -/
def fnUnloadRun (s : State) (b fn : Nat) : State :=
  if slotFn fn then fnResult (showSpace (setSlot s b (fn - 0x40) []) b) b 0
  else if stdFn fn then fnResult (showSpace (s.put ⟨pgBerth b, 0x614, fn - 0x10, 1⟩ 0) b) b 0
  else fnResult s b 0xC002

/-- LOAD_STD. -/
def fnStdRun (s : State) (b : Nat) : State :=
  let t := showSpace (s.put ⟨pgBerth b, 0x614, 0, 7⟩ 0x7F) b
  if 4096 < fnSpaceUsed t b then fnResult s b 0xC004 else fnResult t b 0

/-- The command in progress is carried out. -/
def fnRun (s : State) (b : Nat) (v : W32) : State :=
  let fn := bitsOf v.toNat 8 7
  match v.toNat % 4 with
  | 1 => fnLoadRun s b fn
  | 2 => fnUnloadRun s b fn
  | _ => fnStdRun s b

/-- The image of a LOAD cannot be read yet. -/
def fnBlocked (s : State) (b : Nat) (v : W32) : Bool :=
  let a := placeBits (s.rd64 (pgBerth b) 0x600).toNat
  v.toNat % 4 == 1 && (placeStopped s a || shoreBlocked s a (s.rdN (pgBerth b) 0x608))

/-- FN_DONE (R199). -/
def execFnDone (b : Fin 16) (s : State) : Result :=
  match (s.berth b.val).fnJob with
  | none => .next s
  | some v =>
    if !running s || fnBlocked s b.val v then .next s
    else
      let s := (s.put (fFnBusy b.val) 0).setBerth b.val { s.berth b.val with fnJob := none }
      finish (fnRun s b.val v)

/-- MTBL (06 R180): the slot's tables go from the berth's region of the harbour buffer to the core's cluster. The model holds both
copies once (log 52), so the state stays as it is. -/
def execMtbl (core : CoreId) (f : ImmF) (s : State) : Result :=
  monIssue "MTBL" core (immOnly f false true false && f.imm.toNat < 64) (fun s => s) s

/-! Bollards by the host (08 R231). -/

def writeBollard (cl n : Nat) (s : State) (v : W32) : State := s.wr (pgCl cl) (0x800 + 4 * n) v

def execBollard (cl n : Fin 64) (a : Access) (s : State) : Result :=
  hostWrite (pgCl cl.val) (0x800 + 4 * n.val) a (writeBollard cl.val n.val) s

end Sys2Proof.Machine
end

