-- ==== Sys2Proof/Machine/Coll.lean ====
section
/-! DEFINITION. Collectives as plans (10 R269 to R281): a descriptor's fields, the steps of each algorithm at one rank, the chunks
and parts of a transfer, and the reduction of elements. Readings of the chapter that its words leave to inference are log 46. -/

namespace Sys2Proof.Machine

/-! Descriptors (R269). -/

/-- The fields of a descriptor's 64 bytes. -/
structure CollDesc where
  start : W64
  src : Nat
  dst : Nat
  size : Nat
  seq : BitVec 32
  op : Nat
  red : Nat
  fmt : Nat
  root : Nat
  period : Nat
  transit : Nat
  gateEn : Bool
  gate : Nat
  gateVal : BitVec 32
  /-- Every reserved field is zero. -/
  clean : Bool
deriving DecidableEq, Repr

def collDesc (b : List Byte) : CollDesc :=
  { start := BitVec.ofNat 64 (fieldLE b 0 8), src := fieldLE b 8 8 % 2 ^ 50, dst := fieldLE b 16 8 % 2 ^ 50,
    size := fieldLE b 24 8, seq := BitVec.ofNat 32 (fieldLE b 32 4), op := bitsOf (fieldLE b 36 2) 0 3,
    red := bitsOf (fieldLE b 36 2) 3 2, fmt := bitsOf (fieldLE b 36 2) 5 4, root := fieldLE b 38 2,
    period := fieldLE b 40 4, transit := fieldLE b 44 4, gateEn := bitsOf (fieldLE b 48 1) 0 1 == 1,
    gate := bitsOf (fieldLE b 48 1) 1 6, gateVal := BitVec.ofNat 32 (fieldLE b 52 4),
    clean := fieldLE b 8 8 / 2 ^ 50 == 0 && fieldLE b 16 8 / 2 ^ 50 == 0 && bitsOf (fieldLE b 36 2) 9 7 == 0
      && bitsOf (fieldLE b 48 1) 7 1 == 0 && fieldLE b 49 3 == 0 && fieldLE b 60 4 == 0 }

abbrev opAllReduce : Nat := 0
abbrev opReduceScatter : Nat := 1
abbrev opAllGather : Nat := 2
abbrev opBroadcast : Nat := 3
abbrev opAllToAll : Nat := 4

/-- The operation reduces. -/
def reduces (d : CollDesc) : Bool := d.op ≤ 1

/-- U of R270. -/
def unitU (fmt : Nat) : Nat := if fmt = cXf40 then 20480 else 4096

/-! Plans. -/

/-- Where a range of bytes lies: SRC, DST, or the engine's own buffer (log 45). -/
inductive Buf where
  | src | dst | work
deriving DecidableEq, Repr

/-- A range of a buffer. -/
structure Piece where
  buf : Buf
  off : Nat
  len : Nat
deriving DecidableEq, Repr

/-- The receiver's work: a copy, or a reduction with its own partial on the right or on the left. -/
inductive RecvWork where
  | copy
  | ownRight (own : Piece)
  | ownLeft (own : Piece)
deriving DecidableEq, Repr

/-- What one rank does at one step: chunks per transfer number, what it sends to which rank, what it receives from which. -/
structure CollStep where
  chunks : Nat
  send : Option (Nat × Piece)
  recv : Option (Nat × Piece × RecvWork)
deriving DecidableEq, Repr

/-- The shape of a collective at one rank: ranks, this rank, segment and message size, chunk size. -/
structure CollCtx where
  G : Nat
  r : Nat
  op : Nat
  root : Nat
  S : Nat
  U : Nat
  chunk : Nat
deriving DecidableEq, Repr

def CollCtx.seg (x : CollCtx) : Nat := x.S / x.G
def CollCtx.count (x : CollCtx) (n : Nat) : Nat := ceilDiv n x.chunk
/-- Segment j of a buffer. -/
def segPiece (x : CollCtx) (b : Buf) (j : Nat) : Piece := { buf := b, off := j % x.G * x.seg, len := x.seg }

/-! The ring (R279). Step numbers count from 1. -/

def ringReduceScatter (x : CollCtx) (s : Nat) : CollStep :=
  let own := segPiece x .src (x.r + 2 * x.G - 1 - s)
  let acc : Piece := { buf := .dst, off := 0, len := x.seg }
  { chunks := x.count x.seg,
    send := some ((x.r + 1) % x.G, if s = 1 then segPiece x .src (x.r + x.G - s) else acc),
    recv := some ((x.r + x.G - 1) % x.G, acc, .ownRight own) }

def ringAllReduce (x : CollCtx) (s : Nat) : CollStep :=
  let out := x.r + 2 * x.G - s
  let inn := x.r + 2 * x.G - 1 - s
  { chunks := x.count x.seg,
    send := some ((x.r + 1) % x.G, segPiece x (if s = 1 then .src else .dst) out),
    recv := some ((x.r + x.G - 1) % x.G, segPiece x .dst inn,
      if s < x.G then .ownRight (segPiece x .src inn) else .copy) }

def ringAllGather (x : CollCtx) (s : Nat) : CollStep :=
  { chunks := x.count x.seg, send := some ((x.r + 1) % x.G, segPiece x .dst (x.r + x.G + 1 - s)),
    recv := some ((x.r + x.G - 1) % x.G, segPiece x .dst (x.r + x.G - s), .copy) }

def ringBroadcast (x : CollCtx) (s : Nat) : CollStep :=
  let p := (x.r + x.G - x.root) % x.G
  { chunks := x.count x.S,
    send := if p + 1 = s then some ((x.r + 1) % x.G, { buf := if p = 0 then .src else .dst, off := 0, len := x.S }) else none,
    recv := if p = s then some ((x.r + x.G - 1) % x.G, { buf := .dst, off := 0, len := x.S }, .copy) else none }

def allToAllStep (x : CollCtx) (s : Nat) : CollStep :=
  { chunks := x.count x.seg, send := some ((x.r + s) % x.G, segPiece x .src (x.r + s)),
    recv := some ((x.r + x.G - s) % x.G, segPiece x .dst (x.r + x.G - s), .copy) }

/-- Steps 1 to n. -/
def stepsTo (n : Nat) (f : Nat → CollStep) : List CollStep := (List.range n).map (fun k => f (k + 1))

def ringPlan (x : CollCtx) : List CollStep :=
  match x.op with
  | 0 => stepsTo (2 * x.G - 2) (ringAllReduce x)
  | 1 => stepsTo (x.G - 1) (ringReduceScatter x)
  | 2 => stepsTo (x.G - 1) (ringAllGather x)
  | 3 => stepsTo (x.G - 1) (ringBroadcast x)
  | _ => stepsTo (x.G - 1) (allToAllStep x)

/-! The fall-back (R281). -/

/-- log2 of the greatest power of two not above G. -/
def levels (x : CollCtx) : Nat := Nat.log2 x.G
def CollCtx.G' (x : CollCtx) : Nat := 2 ^ levels x

/-- The buffer of partials: DST, or the engine's own where DST holds one segment only. -/
def accBuf (x : CollCtx) : Buf := if x.op = opReduceScatter then .work else .dst

/-- An exchange with a rank: the same step sends and receives. -/
def exchange (x : CollCtx) (peer n : Nat) (out inn : Piece) (w : RecvWork) : CollStep :=
  { chunks := x.count n, send := some (peer, out), recv := some (peer, inn, w) }

/-- Ranks of G′ and above first hand over their input (n bytes of it, to `into` at the receiver). -/
def preStep (x : CollCtx) : List CollStep :=
  if x.G = x.G' then []
  else
    let whole : Piece := { buf := accBuf x, off := 0, len := x.S }
    let src : Piece := { buf := .src, off := 0, len := x.S }
    let red : CollStep :=
      { chunks := x.count x.S, send := if x.G' ≤ x.r then some (x.r - x.G', src) else none,
        recv := if x.r + x.G' < x.G then some (x.r + x.G', whole, .ownLeft src) else none }
    match x.op with
    | 0 => [red]
    | 1 => [red]
    | 2 => [{ chunks := x.count x.seg, send := if x.G' ≤ x.r then some (x.r - x.G', { buf := .dst, off := x.r * x.seg, len := x.seg }) else none,
              recv := if x.r + x.G' < x.G then some (x.r + x.G', { buf := .dst, off := (x.r + x.G') * x.seg, len := x.seg }, .copy) else none }]
    | _ => [{ chunks := if x.G' ≤ x.root then x.count x.S else 0,
              send := if x.r = x.root && decide (x.G' ≤ x.r) then some (x.r - x.G', src) else none,
              recv := if x.r + x.G' = x.root then some (x.root, { buf := .dst, off := 0, len := x.S }, .copy) else none }]

/-- At the end they receive their result. -/
def postStep (x : CollCtx) : List CollStep :=
  if x.G = x.G' then []
  else
    let out : Nat → Piece := fun q => if x.op = opReduceScatter then { buf := .work, off := q * x.seg, len := x.seg }
      else { buf := if x.op = opBroadcast && decide (x.r = x.root) then .src else .dst, off := 0, len := x.S }
    let n := if x.op = opReduceScatter then x.seg else x.S
    [{ chunks := x.count n, send := if x.r + x.G' < x.G then some (x.r + x.G', out (x.r + x.G')) else none,
       recv := if x.G' ≤ x.r then some (x.r - x.G', { buf := .dst, off := 0, len := n }, .copy) else none }]

/-- The buffer that holds this rank's input to the first level. -/
def firstBuf (x : CollCtx) : Buf := if x.r + x.G' < x.G then accBuf x else .src

/-- The combination of level j: the lower-ranked set's partial is on the left. -/
def levelWork (x : CollCtx) (j : Nat) (own : Piece) : RecvWork := if x.r.testBit j then .ownRight own else .ownLeft own

/-- Recursive doubling: whole partials. -/
def doublingSteps (x : CollCtx) : List CollStep :=
  (List.range (levels x)).map (fun j =>
    let own : Piece := { buf := if j = 0 then firstBuf x else accBuf x, off := 0, len := x.S }
    exchange x (x.r ^^^ 2 ^ j) x.S own { buf := accBuf x, off := 0, len := x.S } (levelWork x j own))

/-- The part a rank holds after halving at levels L − 1 down to j: offset and length, split at multiples of U, the lower rank
keeping the lower and larger half. `n` levels are left to split. -/
def heldPart (U r : Nat) : (n l : Nat) → (off len : Nat) → Nat × Nat
  | 0, _, off, len => (off, len)
  | n + 1, l, off, len =>
    let lo := (len / U + 1) / 2 * U
    if r.testBit (l - 1) then heldPart U r n (l - 1) (off + lo) (len - lo) else heldPart U r n (l - 1) off lo

/-- The part of rank q held after level j. -/
def partAt (x : CollCtx) (q j : Nat) : Nat × Nat := heldPart x.U q (levels x - j) (levels x) 0 x.S

/-- The longest part any rank holds after level j. -/
def maxPart (x : CollCtx) (j : Nat) : Nat := ceilDiv (x.S / x.U) (2 ^ (levels x - j)) * x.U

/-- Halving at level j: send the half the partner keeps. -/
def halvingStep (x : CollCtx) (j : Nat) : CollStep :=
  let b := if j + 1 = levels x then firstBuf x else accBuf x
  let mine := partAt x x.r j
  let theirs := partAt x (x.r ^^^ 2 ^ j) j
  let own : Piece := { buf := b, off := mine.1, len := mine.2 }
  exchange x (x.r ^^^ 2 ^ j) (maxPart x j) { buf := b, off := theirs.1, len := theirs.2 }
    { buf := accBuf x, off := mine.1, len := mine.2 } (levelWork x j own)

/-- Doubling at level j: exchange the held parts. -/
def gatherStep (x : CollCtx) (j : Nat) : CollStep :=
  let mine := partAt x x.r j
  let theirs := partAt x (x.r ^^^ 2 ^ j) j
  exchange x (x.r ^^^ 2 ^ j) (maxPart x j) { buf := accBuf x, off := mine.1, len := mine.2 }
    { buf := accBuf x, off := theirs.1, len := theirs.2 } .copy

/-- All-gather at level j: the block of 2^j segments each partner holds, then those handed over by ranks of G′ and above. -/
def gatherBlocks (x : CollCtx) (j : Nat) : List CollStep :=
  let low := fun q => q / 2 ^ j * 2 ^ j
  let blk := fun q => ({ buf := .dst, off := low q * x.seg, len := 2 ^ j * x.seg } : Piece)
  let ext := fun q => ({ buf := .dst, off := (low q + x.G') * x.seg, len := (min (low q + 2 ^ j) (x.G - x.G') - low q) * x.seg } : Piece)
  let p := x.r ^^^ 2 ^ j
  exchange x p (2 ^ j * x.seg) (blk x.r) (blk p) .copy ::
    (if x.G = x.G' then [] else [exchange x p (min (2 ^ j) (x.G - x.G') * x.seg) (ext x.r) (ext p) .copy])

/-- The binomial tree at level j, in ranks relative to the root's. -/
def treeStep (x : CollCtx) (j : Nat) : CollStep :=
  let v := x.r ^^^ (x.root % x.G')
  let whole : Piece := { buf := if x.r = x.root then .src else .dst, off := 0, len := x.S }
  { chunks := x.count x.S, send := if v < 2 ^ j then some (x.r ^^^ 2 ^ j, whole) else none,
    recv := if 2 ^ j ≤ v && decide (v < 2 ^ (j + 1)) then some (x.r ^^^ 2 ^ j, { buf := .dst, off := 0, len := x.S }, .copy) else none }

/-- A step at which ranks of G′ and above do nothing. -/
def idleAbove (x : CollCtx) (st : CollStep) : CollStep := if x.r < x.G' then st else { st with send := none, recv := none }

/-- The fall-back's steps; `short`: S < THRESH. -/
def fallbackPlan (x : CollCtx) (short : Bool) : List CollStep :=
  let L := levels x
  let down := (List.range L).reverse.map (halvingStep x)
  let up := (List.range L).map (gatherStep x)
  let mid := match x.op with
    | 0 => if short then doublingSteps x else down ++ up
    | 1 => if short then doublingSteps x else if x.G = x.G' then down else down ++ up
    | 2 => ((List.range L).map (gatherBlocks x)).flatten
    | _ => (List.range L).map (treeStep x)
  if x.op = opAllToAll then stepsTo (x.G - 1) (allToAllStep x)
  else preStep x ++ mid.map (idleAbove x) ++ postStep x

/-! Chunks and parts (R274). -/

/-- Part size. -/
abbrev partSize : Nat := 0x400000

/-- Chunk i of a piece; its length is 0 past the end. -/
def chunkOf (x : CollCtx) (p : Piece) (i : Nat) : Piece :=
  { p with off := p.off + i * x.chunk, len := min x.chunk (p.len - i * x.chunk) }

/-- The step of a transfer number, that step's index, and the chunk. -/
def locate : List CollStep → Nat → Nat → Option (Nat × CollStep × Nat)
  | [], _, _ => none
  | st :: r, k, t => if t < st.chunks then some (k, st, t) else locate r (k + 1) (t - st.chunks)

/-- Transfer numbers in all. -/
def transferCount (plan : List CollStep) : Nat := plan.foldl (fun n st => n + st.chunks) 0

/-- What transfer t sends: step index, receiving rank, bytes. -/
def sendOf (x : CollCtx) (plan : List CollStep) (t : Nat) : Option (Nat × Nat × Piece) :=
  match locate plan 0 t with
  | some (k, st, i) =>
    match st.send with
    | some (q, p) => let c := chunkOf x p i
                     if c.len = 0 then none else some (k, q, c)
    | none => none
  | none => none

/-- The chunk of a receiver's own operand. -/
def workChunk (x : CollCtx) (i : Nat) : RecvWork → RecvWork
  | .copy => .copy
  | .ownRight p => .ownRight (chunkOf x p i)
  | .ownLeft p => .ownLeft (chunkOf x p i)

/-- What transfer t brings: step index, sending rank, where it goes, the work. -/
def recvOf (x : CollCtx) (plan : List CollStep) (t : Nat) : Option (Nat × Nat × Piece × RecvWork) :=
  match locate plan 0 t with
  | some (k, st, i) =>
    match st.recv with
    | some (q, p, w) => let c := chunkOf x p i
                        if c.len = 0 then none else some (k, q, c, workChunk x i w)
    | none => none
  | none => none

def sends (x : CollCtx) (plan : List CollStep) : List Nat :=
  (List.range (transferCount plan)).filter (fun t => (sendOf x plan t).isSome)
def recvs (x : CollCtx) (plan : List CollStep) : List Nat :=
  (List.range (transferCount plan)).filter (fun t => (recvOf x plan t).isSome)

/-- Parts of a chunk of n bytes: (part, offset in the chunk, bytes). -/
def partsOf (n : Nat) : List (Nat × Nat × Nat) :=
  (List.range (ceilDiv n partSize)).map (fun k => (k, k * partSize, min partSize (n - k * partSize)))

/-! Elements (R273). -/

/-- One element of the result. -/
def combineElem (fmt red a b : Nat) : Nat :=
  let x := elemValue fmt a
  let y := elemValue fmt b
  (narrowTo fmt rmRNE false (match red with
    | 0 => numAdd false x y
    | 1 => numMax x y
    | _ => numMin x y)).bits

/-- Bytes of an element of a reducing format. -/
def elemWidth (fmt : Nat) : Nat := fmtBits fmt / 8

/-- The first n elements of w bytes each. -/
def elemsOf (w : Nat) : Nat → List Byte → List Nat
  | 0, _ => []
  | n + 1, bs => natLE (bs.take w) :: elemsOf w n (bs.drop w)

/-- left ⊕ right, element by element. -/
def combineBytes (fmt red : Nat) (left right : List Byte) : List Byte :=
  let w := elemWidth fmt
  let n := left.length / w
  ((List.zipWith (combineElem fmt red) (elemsOf w n left) (elemsOf w n right)).map (bytesLE w)).flatten

/-- Some element is NaN or infinite. -/
def anyNonfinite (fmt : Nat) (bs : List Byte) : Bool :=
  (elemsOf (elemWidth fmt) (bs.length / elemWidth fmt) bs).any (fun e =>
    match elemValue fmt e with
    | .nan => true
    | .inf _ => true
    | .fin _ _ _ => false)

end Sys2Proof.Machine
end

