-- ==== Sys2Proof/Machine/FerryOps.lean ====
section
/-! DEFINITION. Ferries as operations (09): what an entry's state is, validation (R244 to R246), zones and gates, completion, and
the abort of one ferry. Readings of this chapter that its words leave to inference are log 47. -/

namespace Sys2Proof.Machine

/-! Registers of the page. -/

abbrev fFerryState (f : Nat) : Fld := ⟨pgFerry f, 0x00C, 0, 3⟩
abbrev fFerryBusy (f : Nat) : Fld := ⟨pgFerry f, 0x00C, 3, 1⟩
abbrev fFerryOpen (f : Nat) : Fld := ⟨pgFerry f, 0x008, 1, 1⟩
abbrev fFerryRepeat (f : Nat) : Fld := ⟨pgFerry f, 0x054, 0, 16⟩
def ferrySlack (s : State) (f : Nat) : Nat := s.rdN (pgFerry f) 0x050

/-- The state accepts ARM, and writes of the schedule registers (R244, R261). -/
def ferryIdle (s : State) (f : Nat) : Bool :=
  (ferryState s f == 0 || ferryState s f == 3 || ferryState s f == 4 || ferryState s f == 5) && !s.bit (fFerryBusy f)

/-- 0x6103 with an entry and a cause (R244). -/
def refuseFerry (s : State) (f entry cause : Nat) : State :=
  raise (s.wrN (pgFerry f) 0x078 (entry % 2 ^ 21 + cause * 2 ^ 24)) (pgFerry f) 4 0x6103

/-! Gates (R248). -/

/-- Bollard n of a cluster (08 R227). -/
def bollardValue (s : State) (cl n : Nat) : W32 := s.rd (pgCl cl) (0x800 + 4 * n)

/-- A bollard has reached a value (R248). -/
def gateReached (s : State) (cl n : Nat) (v : W32) : Bool := decide ((bollardValue s cl n - v).toNat < 2 ^ 31)

/-- The cluster of a scratchpad address. -/
def clusterOf (a : Nat) : Nat :=
  match placeOf (placeBits a) with
  | some (.scratch cl _) => cl
  | _ => 0

/-! Chains (R241). -/

/-- [a, a + n) lies wholly in [b, b + m). -/
def inside (a n b m : Nat) : Bool := b ≤ a && a + n ≤ b + m

/-- The range an entry names. -/
def entryRange (e : Sched) : Nat × Nat := (placeBits e.addr, e.len * 4096)

/-- SAIL k's source lies in LAND j's zone. -/
def chainsTo (l k : Sched) : Bool :=
  decide (l.kind = skLand) && inside (entryRange k).1 (entryRange k).2 (entryRange l).1 (entryRange l).2

/-- The LAND that SAIL k is chained to. -/
def chainOf (s : State) (f k : Nat) : Option Nat :=
  (List.range k).reverse.find? (fun j => chainsTo (rawEntry s f j) (rawEntry s f k))

/-! Validation. -/

/-- The entries of a schedule of n, with the tides R240 acts on. -/
def schedule (s : State) (f n : Nat) : List Sched := (List.range n).map (fun k => { rawEntry s f k with depart := rawDepart s f k })

/-- The largest LINK_LAT of a port's trained members, in ticks rounded up (R245). -/
def portLatency (s : State) (p : Nat) : Nat :=
  ceilDiv ((portMembers s p).foldl (fun m n => max m (s.get ⟨pgTide, 0x100 + 4 * n, 0, 24⟩)) 0) 16

/-- The minimum transit (R245); none where a routed sailing has no hop. -/
def minTransit (s : State) (e : Sched) : Option Nat :=
  if e.routed then (routeHops s e.peer.toNat).map (fun h => 4096 * h + e.len * 64)
  else some (portLatency s e.port + ceilDiv (e.len * 4096) (8 * portWidth8 s e.port))

/-- Cause 1. -/
def badFormat (e : Sched) : Bool :=
  !e.clean || ((e.kind == skSail || e.kind == skLand) &&
    (decide (16 ≤ e.port) || e.len == 0 || decide (1024 < e.len) || e.addr % 4096 != 0 || e.dest % 4096 != 0))

/-- The ferry's keel group is there. -/
def keelReady (s : State) (f : Nat) : Bool :=
  let g := ferryGroup s f
  s.bit ⟨pgGtab g, gOff g 0x08, 16, 1⟩ && (groupState s g == 2 || groupState s g == 3)

/-- Cause 2. -/
def badGroup (s : State) (f : Nat) (e : Sched) : Bool :=
  !keelReady s f || ((e.kind == skSail || e.kind == skLand) &&
    (!(s.group (ferryGroup s f)).members.contains e.peer || e.peer.toNat == nodeId s))

/-- Cause 3. -/
def badPort (s : State) (e : Sched) : Bool :=
  (e.kind == skSail || e.kind == skLand) && !e.routed &&
    (portOf s e.port != e.port || (portMembers s e.port).isEmpty ||
      !(portMembers s e.port).all (fun n => farNode s n == e.peer.toNat && (linkRole s n == 1 || linkRole s n == 2)))

/-- A tide that lies less than 65,536 ticks ahead. -/
def tooSoon (s : State) (t : W64) : Bool := tideReached s.now t || decide ((t - s.now).toNat < 65536)

/-- Some tide of the entry in some iteration is refused under R22. -/
def badTide (s : State) (f : Nat) (e : Sched) : Bool :=
  (List.range (s.get (fFerryRepeat f) + 1)).any (fun i =>
    let p := s.rd64 (pgFerry f) 0x058 * BitVec.ofNat 64 i
    refusedR22 s (e.depart + p) || ((e.kind == skSail || e.kind == skLand) && refusedR22 s (e.due + p)))

/-- Cause 7. -/
def badRegion (s : State) (f : Nat) (e : Sched) : Bool :=
  let o := ferryOwner s f
  let n := e.len * 4096
  let a := placeBits e.addr
  if e.kind = skSail then
    !ownChip s e.addr || !onePlace a n || !rangeInRegions s o a n false ||
      !onePlace (placeBits e.dest) n || decide (64 * 0x100000000 ≤ placeBits e.dest)
  else if e.kind = skLand then
    !ownChip s e.addr || !onePlace a n || decide (64 * 0x100000000 ≤ a) || !rangeInRegions s o a n true
  else false

/-- The window of an entry in iteration i (R246), as whole numbers. -/
def entryWindow (s : State) (f i : Nat) (e : Sched) : Nat × Nat :=
  let p := s.rd64 (pgFerry f) 0x058 * BitVec.ofNat 64 i
  ((e.depart + p).toNat, (e.due + p).toNat + ferrySlack s f)

/-- Entries j and k of given iterations collide (R246). -/
def collide (s : State) (f : Nat) (j k : Nat × Nat) : Bool :=
  let x := rawEntry s f j.2
  let y := rawEntry s f k.2
  let moves := fun (e : Sched) => e.kind == skSail || e.kind == skLand
  let w := entryWindow s f j.1 { x with depart := rawDepart s f j.2 }
  let v := entryWindow s f k.1 { y with depart := rawDepart s f k.2 }
  moves x && moves y && !(x.kind == skSail && y.kind == skSail)
    && overlap (entryRange x).1 (entryRange x).2 (entryRange y).1 (entryRange y).2
    && decide (w.1 ≤ v.2) && decide (v.1 ≤ w.2)
    && !(j.1 == k.1 && ((y.kind == skSail && chainOf s f k.2 == some j.2) || (x.kind == skSail && chainOf s f j.2 == some k.2)))

/-- Cause 8: entry k in some iteration collides with itself in another or with an entry before it. -/
def badZone (s : State) (f k : Nat) : Bool :=
  let its := List.range (s.get (fFerryRepeat f) + 1)
  its.any (fun i => its.any (fun i' =>
    (i != i' && collide s f (i', k) (i, k)) || (List.range k).any (fun j => collide s f (i', j) (i, k))))

/-- Cause 9. -/
def duplicated (s : State) (f k : Nat) (e : Sched) : Bool :=
  (e.kind == skSail || e.kind == skLand) && (List.range k).any (fun j =>
    let x := rawEntry s f j
    x.kind == e.kind && x.peer == e.peer && x.seq == e.seq)

/-- Cause 10, of the whole schedule. -/
def badRepeat (s : State) (f n : Nat) : Bool :=
  let es := (schedule s f n).filter (fun e => e.kind == skSail || e.kind == skLand)
  let all := schedule s f n
  let last := es.foldl (fun m e => max m e.due.toNat) 0
  let first := all.foldl (fun m e => min m e.depart.toNat) (2 ^ 64)
  let cap := if ferryHbm s f then s.get ⟨pgFerry f, 0x04C, 0, 21⟩ else 1953
  (s.get (fFerryRepeat f) != 0 &&
    (s.bit (fFerryOpen f) || decide ((s.rd64 (pgFerry f) 0x058).toNat + first ≤ last + ferrySlack s f)))
  || decide (cap < n) || decide (2 ^ 20 < n) || (ferryHbm s f && decide (2 ^ 20 < cap))

/-- Cause 11. -/
def badChain (s : State) (f k : Nat) (e : Sched) : Bool :=
  e.kind == skSail && (List.range k).any (fun j =>
    let l := rawEntry s f j
    l.kind == skLand && overlap (entryRange e).1 (entryRange e).2 (entryRange l).1 (entryRange l).2 && !chainsTo l e)

/-- The first cause, in ascending order, that entry k of a schedule of n fails; `lo` is the first entry under validation. -/
def entryCause (s : State) (f n lo k : Nat) : Option Nat :=
  let e := { rawEntry s f k with depart := rawDepart s f k }
  if badFormat e then some 1
  else if badGroup s f e then some 2
  else if badPort s e then some 3
  else if (decide (0 < k) && decide (e.depart.toNat < (rawDepart s f (k - 1)).toNat)) || (e.kind == skEnd && k + 1 != n) then some 4
  else if ((k == 0 || lo != 0) && tooSoon s e.depart) || badTide s f e then some 5
  else if e.kind == skSail && (match minTransit s e with
      | some t => decide (e.due.toNat < e.depart.toNat + t)
      | none => false) then some 6
  else if badRegion s f e then some 7
  else if badZone s f k then some 8
  else if duplicated s f k e then some 9
  else if k == lo && badRepeat s f n then some 10
  else if badChain s f k e then some 11
  else none

/-- What validation of entries lo to n − 1 finds: the first entry that fails, with its cause (R244, R259). -/
def validate (s : State) (f n lo : Nat) : Option (Nat × Nat) :=
  (List.range (n - lo)).foldl (fun r i => match r with
    | some x => some x
    | none => (entryCause s f n lo (lo + i)).map (fun c => (lo + i, c))) none

/-! Running. -/

def updFerry (s : State) (f : Nat) (h : FerryRun → FerryRun) : State := s.setFerry f (h (s.ferry f))

/-- The name of a ferry consignment (R239). -/
def ferryKey (s : State) (f : Nat) (src : BitVec 16) (seq : BitVec 32) : ConsKey :=
  { src := src, kind := 1, stream := BitVec.ofNat 16 (ferryGroup s f), seq := seq }

/-- Entry k of iteration i has been acted on: it sailed, opened, or passed. -/
def entryTaken (s : State) (f i k : Nat) : Bool :=
  let r := s.ferry f
  match (rawEntry s f k).kind with
  | 1 => r.sailed.contains (i, k)
  | 2 => r.opened.contains (i, k)
  | _ => r.done.contains (i, k)

/-- Entry k of iteration i is completed: a SAIL once its consignment is released, a LAND once confirmed (R243, R250). -/
def entryDone (s : State) (f i k : Nat) : Bool :=
  let e := entryAt s f i k
  if e.kind = skSail then
    (s.ferry f).sailed.contains (i, k) &&
      !s.held.any (fun h => h.key == ferryKey s f (BitVec.ofNat 16 (nodeId s)) e.seq)
  else (s.ferry f).done.contains (i, k)

/-- NEXT: the earliest uncompleted entry of the current iteration. -/
def ferryNext (s : State) (f : Nat) : Nat :=
  ((List.range (schedLen s f)).find? (fun k => !entryDone s f (ferryIter s f) k)).getD (schedLen s f)

/-- The current iteration is over: its END is passed, or without one its last entry is taken (R242). An open ferry's only ends
with an END (R259). -/
def iterOver (s : State) (f : Nat) : Bool :=
  let n := schedLen s f
  n != 0 && entryTaken s f (ferryIter s f) (n - 1) && ((rawEntry s f (n - 1)).kind == skEnd || !s.bit (fFerryOpen f))

/-- Every entry of every iteration is completed. -/
def allDone (s : State) (f : Nat) : Bool :=
  (List.range (s.get (fFerryRepeat f) + 1)).all (fun i => (List.range (schedLen s f)).all (fun k => entryDone s f i k))

/-- What follows of itself for a ferry: the first tide, the next iteration, DONE (R242, R243). -/
def ferrySettle (s : State) (f : Nat) : State :=
  let s := if ferryState s f = 1 && decide (schedLen s f ≠ 0) && reachedNow s (rawDepart s f 0) then s.put (fFerryState f) 2 else s
  let s := if ferryState s f = 1 && decide (schedLen s f = 0) && !s.bit (fFerryOpen f) then raise (s.put (fFerryState f) 3) (pgFerry f) 0 0 else s
  if ferryState s f ≠ 2 then s
  else
    let s := if iterOver s f then
        (if ferryIter s f < s.get (fFerryRepeat f) then s.put ⟨pgFerry f, 0x074, 0, 16⟩ (ferryIter s f + 1)
         else updFerry s f (fun r => { r with ended := true }))
      else s
    if (s.ferry f).ended && allDone s f then raise (s.put (fFerryState f) 3) (pgFerry f) 0 0 else s

/-- Every ferry. -/
def ferriesSettle (s : State) : State := iterate 8 (fun f t => ferrySettle t f) s

/-- The least margin so far, as a signed 32-bit register that saturates (R252, 10 R277). -/
def lowerMargin (s : State) (page off : Nat) (limit : W64) : State :=
  let m : Int := max (-(2 ^ 31)) (min (2 ^ 31 - 1) (limit - s.now).toInt)
  if m < (s.rd page off).toInt then s.wr page off (BitVec.ofInt 32 m) else s

/-- A chained SAIL that waits past DEPART is held: 0x6105 once (R241). -/
def sailHeld (s : State) (f i k : Nat) : State :=
  if (s.ferry f).heldOnce.contains (i, k) then s
  else
    let s := updFerry s f (fun r => { r with heldOnce := r.heldOnce ++ [(i, k)] })
    raise (s.incSat (pgFerry f) 0x080) (pgFerry f) 6 0x6105

/-- A LAND's consignment is confirmed (R250 to R252): `late` by so many ticks where it was checked after DUE. -/
def ferryConfirmed (s : State) (f i k attempt : Nat) (late : Option W64) : State :=
  let e := entryAt s f i k
  let s := (List.range (schedLen s f)).foldl (fun t j =>
      let q := entryAt t f i j
      if q.kind = skSail && chainOf t f j == some k && !(t.ferry f).sailed.contains (i, j) && reachedNow t q.depart
          && t.now != q.depart then sailHeld t f i j else t) s
  let s := updFerry s f (fun r => { r with done := r.done ++ [(i, k)] })
  let s := s.add64 (pgFerry f) 0x084 1
  let s := s.addSat (pgFerry f) 0x08C attempt
  let s := lowerMargin s (pgFerry f) 0x090 (e.due + BitVec.ofNat 64 (ferrySlack s f))
  let s := match late with
    | none => s
    | some t => raiseWith (s.incSat (pgFerry f) 0x07C) (pgFerry f) 1 0x6101 (e.seq, e.peer.setWidth 32, t.setWidth 32, (t >>> 32).setWidth 32)
  ferrySettle s f

/-- The uncompleted LAND of the current iteration that an arriving consignment names (R249): iteration and entry. -/
def landMatch (s : State) (f : Nat) (k : ConsKey) : Option (Nat × Nat) :=
  if (ferryState s f = 1 || ferryState s f = 2) && k.kind == 1 && k.stream.toNat == ferryGroup s f then
    (((List.range (ferryIter s f + 1)).map (fun i => (List.range (schedLen s f)).map (fun j => (i, j)))).flatten).find? (fun x =>
      let e := entryAt s f x.1 x.2
      e.kind == skLand && e.peer == k.src && e.seq == k.seq && !(s.ferry f).done.contains x)
  else none

/-- The zone of a LAND is open. -/
def zoneOpened (s : State) (f i k : Nat) : Bool := ferryState s f == 2 && (s.ferry f).opened.contains (i, k)

/-- One ferry aborts (R256): its sailings stop, its unconfirmed consignments end exhausted with 0x6001, cores that wait for a
granule of its zones fault, and it enters ABORTED. -/
def abortFerry (s : State) (f : Nat) : State :=
  if ferryState s f ≠ 1 && ferryState s f ≠ 2 then s
  else
    let mine := s.landing.filter (fun l => (match l.target with
      | .ferry g _ _ => g == f
      | _ => false) && l.st != .confirmed)
    let zones := (openZones s).filter (fun z => z.1 == f && !mine.any (fun l => l.target == .ferry f z.2.1 z.2.2.1))
    let s := mine.foldl (fun t l =>
      let t := if l.st = .exhausted then coresExhaust t l.key l.port 0x6001
        else (exhaustLanding t l 0x6001 false).addSat (pgFerry f) 0x08C l.attempt
      dropLanding t l.key) s
    let s := zones.foldl (fun t z =>
      let e := entryAt t f z.2.1 z.2.2.1
      coresExhaust t (ferryKey t f e.peer e.seq) e.port 0x6001) s
    raise ((s.put (fFerryState f) 4).put (fFerryBusy f) 0) (pgFerry f) 3 0x6001

/-- Every ferry of a group aborts. -/
def abortFerries (s : State) (g : Nat) : State := iterate 8 (fun f t => if ferryGroup t f = g then abortFerry t f else t) s

end Sys2Proof.Machine
end

