-- ==== Sys2Proof/Machine/Ports.lean ====
section
/-! DEFINITION. What a change of a link or a port does to the topology (11 R304 to R306), the bundling of links into ports, and
what defers a rebinding or an APPLY (09 R257, 10 R287). -/

namespace Sys2Proof.Machine

/-! Changes. -/

/-- The dimensions whose cube link this chip has trained (R305). -/
def cubeMask (s : State) : Nat :=
  (List.range 14).foldl (fun m d => if (portTo s (cubeFar (nodeId s) d)).isSome then m + 2 ^ d else m) 0

/-- What a change shows in: each link's state, each port's width. -/
def topoView (s : State) : List Nat := (List.range 16).map (linkState s) ++ (List.range 16).map (portWidth8 s)

/-- After a step: TOPO.EVT.CHANGE where a link's STATE or a port's W changed, and the announcement of the chip's cube links to its
two triad neighbours where they changed (R305, R306). -/
def noteTopo (before s : State) : State :=
  let s := if topoView before = topoView s then s else raise s pgTopo 0 0
  if cubeMask before = cubeMask s then s
  else (otherPositions (nodeId s % 4)).foldl (fun t q => t.emit (.linkState q (BitVec.ofNat 16 (cubeMask s)))) s

/-! Ports. -/

/-- PORTCFG of link n: the leader asked for. -/
def portCfg (s : State) (n : Nat) : Nat := s.get ⟨pgTopo, 0x090 + 4 * n, 0, 4⟩

/-- The links that have a classified neighbour. -/
def knownFar (s : State) (n : Nat) : Bool := linkRole s n == 1 || linkRole s n == 2

/-- A configuration R304 allows: leaders are lowest-indexed members, at most 4 members, one neighbour. -/
def portsLegal (s : State) : Bool :=
  (List.range 16).all (fun n => portCfg s n ≤ n && portCfg s (portCfg s n) == portCfg s n
    && decide (((List.range 16).filter (fun m => portCfg s m == portCfg s n)).length ≤ 4)
    && (!knownFar s n || (List.range 16).all (fun m =>
        portCfg s m != portCfg s n || !knownFar s m || farNode s m == farNode s n)))

/-- PORTCFG takes effect. -/
def applyPorts (s : State) : State :=
  let t := (s.put ⟨pgTopo, 0x00C, 1, 1⟩ 0)
  noteTopo s { t with ports := (List.range 16).foldl (fun m n => storePut m n (portCfg s n) n) t.ports, applyWaits := none }

/-- The leaders whose port PORTCFG would change. -/
def changedPorts (s : State) : List Nat :=
  (List.range 16).filter (fun l => (List.range 16).any (fun n => (portOf s n == l) != (portCfg s n == l)))

/-- Bundle links at training (R304): the trained links that reach link n's neighbour, four at a time in ascending index. -/
def bundle (s : State) (n : Nat) : State :=
  if !s.bit ⟨pgTopo, 0x008, 0, 1⟩ then s
  else
    let ls := (List.range 16).filter (fun m => trained s m && knownFar s m && farNode s m == farNode s n)
    ls.zipIdx.foldl (fun t x =>
      let lead := (nth ls (x.2 / 4 * 4)).getD x.1
      let t := t.wrN pgTopo (0x090 + 4 * x.1) lead
      { t with ports := storePut t.ports x.1 lead x.1 }) s

/-! Deferral. -/

/-- Remove what no longer holds a request back. -/
def dropWaits (gone : Nat × Option W64 → Bool) (l : List (Nat × Option W64)) : List (Nat × Option W64) :=
  l.filter (fun w => !gone w)

/-- Remove it everywhere; an APPLY that waits for nothing more takes place. -/
def settleWaits (s : State) (gone : Nat × Option W64 → Bool) : State :=
  let s := iterate 16 (fun b t => t.setBerth b { t.berth b with waits := dropWaits gone (t.berth b).waits }) s
  match s.applyWaits with
  | none => s
  | some l =>
    let l := dropWaits gone l
    if l.isEmpty then applyPorts s else { s with applyWaits := some l }

end Sys2Proof.Machine
end

