-- ==== Sys2Proof/Machine/Groups.lean ====
section
/-! DEFINITION. Groups and collectives (10): creation, queues, transfers, completion, re-forming and abort. Readings of this chapter
that its words leave to inference are log 46. -/

namespace Sys2Proof.Machine

/-! Registers. -/

abbrev fGroupState (g : Nat) : Fld := ⟨pgGtab g, gOff g 0x20, 0, 3⟩
abbrev fGroupFall (g : Nat) : Fld := ⟨pgGtab g, gOff g 0x20, 3, 1⟩
abbrev fGroupCause (g : Nat) : Fld := ⟨pgGtab g, gOff g 0x20, 4, 4⟩
abbrev fGroupRank (g : Nat) : Fld := ⟨pgGtab g, gOff g 0x20, 8, 16⟩
abbrev fGroupKeel (g : Nat) : Fld := ⟨pgGtab g, gOff g 0x08, 16, 1⟩
def groupCfg (s : State) (g lo w : Nat) : Nat := s.get ⟨pgGtab g, gOff g 0x08, lo, w⟩
def groupDepth (s : State) (g : Nat) : Nat := groupCfg s g 20 4
def groupChunk (s : State) (g : Nat) : Nat := 2 ^ groupCfg s g 24 5
def groupStage (s : State) (g : Nat) : Nat := (s.rd64 (pgGtab g) (gOff g 0x0C)).toNat
def groupSlack (s : State) (g : Nat) : Nat := s.rdN (pgGtab g) (gOff g 0x14)
def groupCount (s : State) (g : Nat) : Nat := s.rdN (pgGtab g) (gOff g 0x24)
def nextSeq (s : State) (g : Nat) : W32 := s.rd (pgGtab g) (gOff g 0x28)
def updGroup (s : State) (g : Nat) (h : GroupRun → GroupRun) : State := s.setGroup g (h (s.group g))

/-- An event of a GTAB page; EVT_GROUP names the entry whose event loads ERRCODE. -/
def groupEvent (s : State) (g bit code : Nat) : State :=
  let loads := code != 0 && s.get ⟨pgGtab g, 0x01C, 0, 16⟩ == 0
  let s := if loads then s.wrN (pgGtab g) 0x240 (g % 8) else s
  raise s (pgGtab g) bit code

def cqEvent (s : State) (g bit code : Nat) : State := raise s (pgCq g) bit code

/-- Keel groups on the chip (GTAB STATUS). -/
def keelUsed (s : State) : Nat :=
  ((List.range 64).filter (fun g => s.bit (fGroupKeel g) && groupState s g != 0 && groupState s g != 7)).length

/-! Creation (R263 to R266). -/

/-- The words of the member array. -/
def memberWords (s : State) (g : Nat) : List Nat :=
  (List.range (groupCfg s g 0 16)).map (fun i => s.loadN (placeBits (s.rd64 (pgGtab g) (gOff g 0x00)).toNat + 4 * i) 4)

/-- The member array lies in the HBM of the group's berth. -/
def memberArrayOk (s : State) (g : Nat) : Bool :=
  let a := (s.rd64 (pgGtab g) (gOff g 0x00)).toNat
  let n := 4 * groupCfg s g 0 16
  onThisChip s a && onePlace (placeBits a) n && (match placeOf (placeBits a) with
    | some (.hbm _ _) => true
    | _ => false) && rangeInRegions s (groupOwner s g) (placeBits a) n false

/-- Tier 0 granules of the staging range. -/
def stageGranules (s : State) (g : Nat) : Nat := ceilDiv (groupDepth s g * groupChunk s g) (granule 0)

/-- The staging range lies wholly in one cluster scratchpad bound to the berth, within its tier 0 quota. -/
def stageOk (s : State) (g : Nat) : Bool :=
  let a := groupStage s g
  let b := groupOwner s g
  onThisChip s a && onePlace (placeBits a) (groupDepth s g * groupChunk s g) && (match placeOf (placeBits a) with
    | some (.scratch cl _) => clusterOwner s cl == b
    | _ => false)
    && (decide (16 ≤ b) || decide (s.rdN (pgBerth b) 0x64C + stageGranules s g ≤ s.rdN (pgBerth b) 0x640))

/-- The first failing cause of CREATE, 0 for none (R264). -/
def createCause (s : State) (g : Nat) : Nat :=
  let n := groupCfg s g 0 16
  let b := groupOwner s g
  let ws := memberWords s g
  let me := nodeId s
  if n = 0 || 49152 < n || groupDepth s g < 2 || 8 < groupDepth s g || groupCfg s g 24 5 < 18 || 24 < groupCfg s g 24 5
      || (s.rd (pgGtab g) (gOff g 0x08) &&& BitVec.ofNat 32 0xE00C0000) ≠ 0 then 1
  else if b ≠ 0xFF && (decide (16 ≤ b) || berthState s b == 0) then 2
  else if !memberArrayOk s g || ws.any (fun w => decide (65536 ≤ w)) then 1
  else if (ws.filter (fun w => w == me)).length ≠ 1 || decide (ws.dedup.length ≠ ws.length) then 3
  else if s.bit (fGroupKeel g) && decide (8 ≤ keelUsed s) then 4
  else if !stageOk s g then 5
  else 0

/-- Charge or release staging granules (12 R314). -/
def chargeTier0 (s : State) (b n : Nat) : State := if b < 16 then s.wrN (pgBerth b) 0x64C (s.rdN (pgBerth b) 0x64C + n) else s
def releaseTier0 (s : State) (b n : Nat) : State := if b < 16 then s.wrN (pgBerth b) 0x64C (s.rdN (pgBerth b) 0x64C - n) else s

/-- Rank of this chip in a member list. -/
def rankIn (s : State) (ms : List (BitVec 16)) : Nat := (ms.zipIdx.find? (fun x => x.1.toNat == nodeId s)).elim 0 (fun x => x.2)

/-- Member of a rank. -/
def memberAt (s : State) (g r : Nat) : BitVec 16 := (nth (s.group g).members r).getD 0

/-- The CRC-32C digest of R265. -/
def groupDigest (s : State) (g : Nat) : W32 :=
  crc32c (Config.digestBytes ((s.group g).members.map (fun m => m.toNat) ++
    [groupCount s g, groupCfg s g 16 1, groupCfg s g 17 1, groupDepth s g, groupCfg s g 24 5, s.rdN (pgGtab g) (gOff g 0x18)]))

/-- This chip has a trained port to each of its ring neighbours. -/
def ringReady (s : State) (g : Nat) : Bool :=
  let n := groupCount s g
  let r := s.get (fGroupRank g)
  n < 2 || ((portTo s (memberAt s g ((r + 1) % n)).toNat).isSome && (portTo s (memberAt s g ((r + n - 1) % n)).toNat).isSome)

/-- Every other member. -/
def others (s : State) (g : Nat) : List (BitVec 16) := (s.group g).members.filter (fun m => m.toNat != nodeId s)

/-- Send the creation notice to every other member, and count this chip's own. -/
def sendNotices (s : State) (g : Nat) : State :=
  let dg := groupDigest s g
  let ring := ringReady s g
  let s := updGroup s g (fun r => { r with notices := r.notices.filter (fun x => x.1.toNat != nodeId s) ++ [(BitVec.ofNat 16 (nodeId s), dg, ring)] })
  (others s g).foldl (fun t m => t.emit (.creationNotice g m dg ring)) s

/-- Release what CREATE charged, and enter REFUSED with a cause. -/
def refuseGroup (s : State) (g cause : Nat) : State :=
  let s := releaseTier0 s (groupOwner s g) (s.group g).charged
  let s := s.setGroup g GroupRun.reset
  groupEvent ((s.put (fGroupState g) 7).put (fGroupCause g) cause) g 1 0x6203

/-- A command that the entry's state does not accept: cause 7; the entry keeps its state. -/
def refuseState (s : State) (g : Nat) : State := groupEvent (s.put (fGroupCause g) 7) g 1 0x6203

/-- The choice of fall-back begins or ends (R266, R10). -/
def fallEntry (s : State) (g : Nat) (ends : Bool) : State :=
  logAdd s (logEntry s (pgGtab g) 2 0x6207 0 false ends (BitVec.ofNat 32 g, 0, 0, 0))

/-- Set FALLBACK from the notices (R266). -/
def setFallback (s : State) (g : Nat) : State :=
  let fall := groupCfg s g 17 1 == 1 || (s.group g).notices.any (fun x => !x.2.2)
  let was := s.bit (fGroupFall g)
  let s := s.putBit (fGroupFall g) fall
  if fall && !was then fallEntry (groupEvent s g 5 0x6207) g false
  else if was && !fall then fallEntry s g true
  else s

/-- Every member's notice is here: the group becomes READY (R266), or REFUSED where a digest differs. -/
def noticesCheck (s : State) (g : Nat) : State :=
  let r := s.group g
  let waiting := groupState s g == 1 || (groupState s g == 4 && r.reforming)
  if !waiting then s
  else if r.notices.any (fun x => x.2.1 != groupDigest s g) then refuseGroup s g 6
  else if r.members.all (fun m => r.notices.any (fun x => x.1 == m)) then
    let s := (setFallback s g).put (fGroupState g) 2
    let s := updGroup s g (fun r => { r with notices := [], reforming := false, reformAt := none, removal := [] })
    groupEvent s g 0 0
  else s

/-- CREATE (R264, R265). -/
def createGroup (s : State) (g : Nat) : State :=
  if groupState s g ≠ 0 && groupState s g ≠ 7 then refuseState s g
  else
    let c := createCause s g
    if c ≠ 0 then refuseGroup s g c
    else
      let ms := (memberWords s g).map (BitVec.ofNat 16)
      let n := stageGranules s g
      let s := chargeTier0 s (groupOwner s g) n
      let s := s.setGroup g { GroupRun.reset with members := ms, charged := n }
      let s := ((s.wrN (pgGtab g) (gOff g 0x24) ms.length).wr (pgGtab g) (gOff g 0x28) 0).wr (pgGtab g) (gOff g 0x2C) 0
      let s := s.wrN (pgGtab g) (gOff g 0x20) (1 + rankIn s ms * 2 ^ 8)
      noticesCheck (sendNotices s g) g

/-! Queues (R268, R270, R278). -/

def qHead (s : State) (g : Nat) : Nat := s.rdN (pgCq g) 0x04C
def qTail (s : State) (g : Nat) : Nat := s.rdN (pgCq g) 0x050
def qSize (s : State) (g : Nat) : Nat := 2 ^ s.get ⟨pgCq g, 0x048, 0, 5⟩
def qEnabled (s : State) (g : Nat) : Bool := s.bit ⟨pgCq g, 0x008, 0, 1⟩
def descAddr (s : State) (g : Nat) : Nat := placeBits (s.rd64 (pgCq g) 0x040).toNat + 64 * (qHead s g % qSize s g)

/-- A write of TAIL (R268). -/
def writeCqTail (g : Nat) (s : State) (v : W32) : State :=
  let t := v.toNat % 2 ^ 17
  if qSize s g < (t + 2 ^ 17 - qHead s g) % 2 ^ 17 then cqEvent s g 2 0x6202
  else s.wrN (pgCq g) 0x050 t

/-- A descriptor completes (R270, R278): STATUS, HEAD and NEXT_SEQ, LAST_SEQ and LAST_CODE, the event. `flags`: FALLBACK,
NONFINITE, LATE as bits 1 to 3. -/
def completeDesc (s : State) (g addr : Nat) (d : CollDesc) (code cause flags : Nat) : State :=
  let st := code + 2 ^ 16 + flags * 2 ^ 16 + cause * 2 ^ 20
  let s := if onePlace addr 64 then memWrite s (addr + 56) (bytesLE 4 st) else s
  let s := s.wrN (pgCq g) 0x04C ((qHead s g + 1) % 2 ^ 17)
  let s := if cause = 2 then s else s.wr (pgGtab g) (gOff g 0x28) (nextSeq s g + 1)
  let s := (s.wr (pgCq g) 0x064 d.seq).wrN (pgCq g) 0x068 (code + cause * 2 ^ 16)
  match code with
  | 0 => cqEvent s g 0 0
  | 0x6202 => cqEvent s g 2 0x6202
  | 0x6002 => cqEvent s g 4 0x6002
  | _ => cqEvent s g 5 0x6001

/-! The collective in progress. -/

/-- Its shape at this rank. -/
def collCtx (s : State) (g : Nat) (d : CollDesc) : CollCtx :=
  let c := groupChunk s g
  { G := groupCount s g, r := s.get (fGroupRank g), op := d.op, root := d.root, S := d.size, U := unitU d.fmt,
    chunk := if d.fmt = cXf40 then c / 20480 * 20480 else c }

/-- Its steps at this rank. -/
def collPlan (s : State) (g : Nat) (d : CollDesc) : List CollStep :=
  let x := collCtx s g d
  if x.G ≤ 1 then []
  else if s.bit (fGroupFall g) then fallbackPlan x (decide (d.size < s.rdN (pgGtab g) (gOff g 0x18)))
  else ringPlan x

/-- L_t and D_t (R274). -/
def launchTide (d : CollDesc) (t : Nat) : W64 := d.start + BitVec.ofNat 64 (t * d.period)
def dueTide (d : CollDesc) (t : Nat) : W64 := launchTide d t + BitVec.ofNat 64 d.transit

/-- Address of the staging slot of transfer t (R276). -/
def slotAddr (s : State) (g t : Nat) : Nat := placeBits (groupStage s g) + t % groupDepth s g * groupChunk s g

/-- Bytes this rank reads at SRC and writes at DST (R272). -/
def srcBytes (x : CollCtx) : Nat :=
  if x.op = opAllGather then x.seg else if x.op = opBroadcast && decide (x.r ≠ x.root) then 0 else x.S
def dstBytes (x : CollCtx) : Nat := if x.op = opReduceScatter then x.seg else x.S

/-- The first copy of SRC: from, to, bytes (R272, R279, R284). -/
def firstCopy (x : CollCtx) : Option (Nat × Nat × Nat) :=
  if x.G = 1 then some (0, 0, x.S)
  else if x.op = opAllGather then some (0, x.r * x.seg, x.seg)
  else if x.op = opAllToAll then some (x.r * x.seg, x.r * x.seg, x.seg)
  else if x.op = opBroadcast && decide (x.r = x.root) then some (0, 0, x.S)
  else none

/-- The bytes of a piece. -/
def pieceBytes (s : State) (g : Nat) (d : CollDesc) (p : Piece) : List Byte :=
  match p.buf with
  | .src => s.bytes (placeBits d.src + p.off) p.len
  | .dst => s.bytes (placeBits d.dst + p.off) p.len
  | .work => (List.range p.len).map (fun i => storeGet (((s.group g).coll.elim [] (fun c => c.work)) : Store Byte) (p.off + i) 0)

/-- Its address in memory; none in the engine's buffer. -/
def pieceAddr (d : CollDesc) (p : Piece) : Option Nat :=
  match p.buf with
  | .src => some (placeBits d.src + p.off)
  | .dst => some (placeBits d.dst + p.off)
  | .work => none

def updColl (s : State) (g : Nat) (h : Coll → Coll) : State := updGroup s g (fun r => { r with coll := r.coll.map h })

/-- Write bytes at DST + off: what overlaps SRC becomes undefined (R273), free values (log 6); NONFINITE is noted for reductions. -/
def writeDst (s : State) (g : Nat) (d : CollDesc) (x : CollCtx) (off : Nat) (bs : List Byte) : State :=
  let a := placeBits d.dst + off
  let b := placeBits d.src
  let s := if reduces d && anyNonfinite d.fmt bs then updColl s g (fun c => { c with nonfinite := true }) else s
  if overlap a bs.length b (srcBytes x) then
    let out := bs.zipIdx.map (fun y => if inRange (a + y.2) b (srcBytes x) then (Config.freeValue (s.fresh + y.2)).setWidth 8 else y.1)
    memWrite { s with fresh := s.fresh + bs.length } a out
  else memWrite s a bs

/-- Store bytes in the engine's buffer. -/
def putBytes (m : Store Byte) (o : Nat) : List Byte → Store Byte
  | [] => m
  | b :: bs => putBytes (storePut m o b 0) (o + 1) bs

/-- Write a result where a piece lies. -/
def writePiece (s : State) (g : Nat) (d : CollDesc) (x : CollCtx) (p : Piece) (bs : List Byte) : State :=
  match p.buf with
  | .work => updColl s g (fun c => { c with work := putBytes c.work p.off bs })
  | _ => writeDst s g d x p.off bs

/-- The gate of the collective is open (R274). -/
def collGate (s : State) (g : Nat) (d : CollDesc) : Bool := !d.gateEn || gateReached s (clusterOf (groupStage s g)) d.gate d.gateVal

/-- Two pieces share bytes. -/
def piecesMeet (p q : Piece) : Bool := p.buf == q.buf && overlap p.off p.len q.off q.len

/-- The data of a send at step k is ready: every chunk of an earlier step that it carries is written (R275). -/
def dataReady (x : CollCtx) (plan : List CollStep) (c : Coll) (k : Nat) (p : Piece) : Bool :=
  (recvs x plan).all (fun t => match recvOf x plan t with
    | some (k', _, q, _) => !(decide (k' < k) && piecesMeet p q) || c.written.contains t
    | none => true)

/-- No send of a step up to k whose bytes a write would change is still to launch or unconfirmed. -/
def sendsClear (x : CollCtx) (plan : List CollStep) (c : Coll) (k : Nat) (q : Piece) : Bool :=
  (sends x plan).all (fun t => match sendOf x plan t with
    | some (k', _, p) => !(decide (k' ≤ k) && piecesMeet p q) ||
        (c.launched.contains t && (partsOf p.len).all (fun y => c.sentOk.contains (t, y.1)))
    | none => true)

/-- Every part of transfer t that this rank sends is confirmed. -/
def sentDone (x : CollCtx) (plan : List CollStep) (c : Coll) (t : Nat) : Bool :=
  match sendOf x plan t with
  | some (_, _, p) => c.launched.contains t && (partsOf p.len).all (fun y => c.sentOk.contains (t, y.1))
  | none => true

/-- Every part of transfer t that this rank receives has landed and is confirmed. -/
def landedDone (x : CollCtx) (plan : List CollStep) (c : Coll) (t : Nat) : Bool :=
  match recvOf x plan t with
  | some (_, _, p, _) => (partsOf p.len).all (fun y => c.landedOk.contains (t, y.1))
  | none => true

/-- Transfer t is complete at this rank. -/
def transferDone (x : CollCtx) (plan : List CollStep) (c : Coll) (t : Nat) : Bool :=
  sentDone x plan c t && ((recvOf x plan t).isNone || c.written.contains t)

/-- CUR: the lowest transfer not yet complete. -/
def collCur (s : State) (g : Nat) : Nat :=
  match (s.group g).coll with
  | none => s.rdN (pgCq g) 0x054
  | some c =>
    let d := collDesc c.desc
    let x := collCtx s g d
    let plan := collPlan s g d
    ((List.range (transferCount plan)).find? (fun t => !transferDone x plan c t)).getD (transferCount plan)

/-- The group's collective ends at this member: its landings still under way are dropped as stragglers (R271). -/
def dropColl (s : State) (g : Nat) : State :=
  let mine := s.landing.filter (fun l => match l.target with
    | .coll h _ _ => h == g
    | _ => false)
  let s := mine.foldl (fun t l => if l.st = .exhausted then dropLanding t l.key else absorbLanding t l) s
  updGroup s g (fun r => { r with coll := none, early := [] })

/-- DELETE takes place (R267). -/
def deleteGroup (s : State) (g : Nat) : State :=
  let queued := (qTail s g + 2 ^ 17 - qHead s g) % 2 ^ 17
  let s := iterate queued (fun _ t => completeDesc t g (descAddr t g) (collDesc (t.bytes (descAddr t g) 64)) 0x6202 7 0) s
  let s := if s.bit (fGroupFall g) then fallEntry s g true else s
  let s := releaseTier0 s (groupOwner s g) (s.group g).charged
  let s := s.setGroup g GroupRun.reset
  let s := ((s.wr (pgGtab g) (gOff g 0x20) 0).wr (pgGtab g) (gOff g 0x24) 0).wr (pgGtab g) (gOff g 0x28) 0
  s.wr (pgGtab g) (gOff g 0x2C) 0

/-- What holds a request back is over (R257, R287): a ferry that runs no more, a group that runs no collective or whose mark has
been reached. -/
def waitOver (s : State) (w : Nat × Option W64) : Bool :=
  if w.1 < 8 then ferryState s w.1 != 2
  else
    let g := w.1 - 8
    (groupState s g != 3 && groupState s g != 4) || (match w.2 with
      | some m => reachedNow s m
      | none => false)

/-- A deferred DELETE takes place. -/
def settleDelete (s : State) (g : Nat) : State :=
  let r := s.group g
  if r.deleting && waitOver s (8 + g, r.deleteMark) then deleteGroup (dropColl s g) g else s

/-- Deferred requests whose wait is over take place. -/
def settleAll (s : State) : State :=
  let s := iterate 64 (fun g t => settleDelete t g) s
  settleWaits s (waitOver s)

/-- The collective of a group is complete: DST of a fall-back reduce-scatter, STATUS and the rest of R278. -/
def tryComplete (s : State) (g : Nat) : State :=
  match (s.group g).coll with
  | none => s
  | some c =>
    let d := collDesc c.desc
    let x := collCtx s g d
    let plan := collPlan s g d
    if c.stopped || !(c.begun || (firstCopy x).isNone) || !(List.range (transferCount plan)).all (transferDone x plan c) then s
    else
      let s := if d.op = opReduceScatter && s.bit (fGroupFall g) && decide (x.r < x.G') && decide (1 < x.G) then
          writeDst s g d x 0 (pieceBytes s g d { buf := .work, off := x.r * x.seg, len := x.seg })
        else s
      let late := (s.group g).coll.elim false (fun c => c.late)
      let nonf := (s.group g).coll.elim false (fun c => c.nonfinite)
      let flags := (if s.bit (fGroupFall g) then 2 else 0) + (if nonf then 4 else 0) + (if late then 8 else 0)
      let s := s.wrN (pgCq g) 0x054 (transferCount plan)
      let s := completeDesc s g c.addr d 0 0 flags
      let s := updGroup s g (fun r => { r with coll := none })
      settleAll (s.put (fGroupState g) 2)

/-! Taking a descriptor (R270). -/

/-- Causes 1 to 5 that need the group's size are judged only where there is a group (log 46). -/
def descCause (s : State) (g : Nat) (d : CollDesc) : Nat :=
  let n := groupCount s g
  let there := groupState s g != 0 && groupState s g != 7
  let u := unitU d.fmt
  let x := collCtx s g d
  let o := groupOwner s g
  let bad := fun (a n : Nat) (w : Bool) => n != 0 &&
    (!onThisChip s a || !onePlace (placeBits a) n || !rangeInRegions s o (placeBits a) n w)
  if !d.clean || decide (4 < d.op) || d.red == 3 || (reduces d && d.fmt != 0 && d.fmt != 2 && d.fmt != 14)
      || (!reduces d && (d.red != 0 || d.fmt != 0)) || d.period == 0 || (there && decide (n ≤ d.root)) then 1
  else if d.seq ≠ nextSeq s g then 2
  else if d.size = 0 || (there && (d.size % (if d.op = opBroadcast then u else n * u) != 0
      || decide (2 ^ 18 < transferCount (collPlan s g d)))) then 3
  else if there && (bad d.src (srcBytes x) false || bad d.dst (dstBytes x) true) then 4
  else if refusedR22 s d.start then 5
  else if groupState s g = 1 then 6
  else if !there || (s.group g).deleting then 7
  else 0

/-- Grant the credit for transfer t to its sender (R276). -/
def grantCredit (s : State) (g : Nat) (d : CollDesc) (t : Nat) : State :=
  match recvOf (collCtx s g d) (collPlan s g d) t with
  | some (_, q, _, _) => s.emit (.credit g (memberAt s g q) t)
  | none => s

/-- A descriptor that passes is taken: the group is ACTIVE, and every slot's first transfer gets its credit. -/
def startColl (s : State) (g : Nat) (bs : List Byte) : State :=
  let d := collDesc bs
  let x := collCtx s g d
  let plan := collPlan s g d
  let early := (s.group g).early
  let c : Coll := { desc := bs, addr := descAddr s g, launched := [], sentOk := [], landedOk := [], written := [],
                    credit := early, heldOnce := false, late := false, nonfinite := false, stopped := false,
                    begun := false, work := [] }
  let s := updGroup s g (fun r => { r with coll := some c, early := [] })
  let s := (s.put (fGroupState g) 3).wrN (pgCq g) 0x054 0
  let rs := recvs x plan
  let first := rs.filter (fun t => !rs.any (fun u => decide (u < t) && u % groupDepth s g == t % groupDepth s g))
  tryComplete (first.foldl (fun t n => grantCredit t g d n) s) g

/-- A descriptor is there to be taken. -/
def takeDue (s : State) (g : Nat) : Bool :=
  qEnabled s g && qHead s g != qTail s g && (s.group g).coll.isNone && groupState s g != 3 && groupState s g != 4

def takeDesc (s : State) (g : Nat) : State :=
  let a := descAddr s g
  let bs := s.bytes a 64
  let d := collDesc bs
  if groupState s g = 5 then completeDesc s g a d 0x6001 0 0
  else if groupState s g = 6 then completeDesc s g a d 0x6002 0 0
  else
    let c := descCause s g d
    if c ≠ 0 then completeDesc s g a d 0x6202 c 0 else startColl s g bs

/-! Transfers (R275, R276). -/

/-- The first copy takes place at START with the gate open, once no held source blocks it. -/
def beginColl (s : State) (g : Nat) (c : Coll) : State :=
  let d := collDesc c.desc
  let x := collCtx s g d
  if c.begun || !reachedNow s d.start || !collGate s g d then s
  else match firstCopy x with
    | none => updColl s g (fun c => { c with begun := true })
    | some (a, b, n) =>
      if heldBlocks s (placeBits d.dst + b) n then s
      else writeDst (updColl s g (fun c => { c with begun := true })) g d x b (s.bytes (placeBits d.src + a) n)

/-- The port a transfer to a member leaves by: the ring's own port, else the route's next hop (R266, R279, R281). -/
def collPort (s : State) (g : Nat) (d : CollDesc) (dest : Nat) : Option Nat :=
  match (if s.bit (fGroupFall g) || d.op = opAllToAll then none else portTo s dest) with
  | some l => some l
  | none => (nextHop s dest 0).map (fun h => h.1)

/-- The name of part k of transfer t (R271). -/
def collKey (s : State) (g : Nat) (d : CollDesc) (src : BitVec 16) (t k : Nat) : ConsKey :=
  let _ := s
  { src := src, kind := 2, stream := BitVec.ofNat 16 g,
    seq := BitVec.ofNat 32 (d.seq.toNat % 4096 * 2 ^ 20 + t % 2 ^ 18 * 4 + k % 4) }

/-- Transfer t sails: each part is a consignment (R274). -/
def launchTransfer (s : State) (g : Nat) (d : CollDesc) (t port : Nat) (dest : BitVec 16) (p : Piece) : State :=
  let bs := pieceBytes s g d p
  (partsOf p.len).foldl (fun u y =>
    let a := (pieceAddr d p).map (fun a => a + y.2.1)
    let k := collKey u g d (BitVec.ofNat 16 (nodeId u)) t y.1
    let hdr : ConsHdr :=
      { kind := 2, stream := g, seq := k.seq, due := dueTide d t, len := ceilDiv y.2.2 4096, attempt := 0,
        berth := groupOwner u g, src := nodeId u, dst := dest.toNat,
        srcPlace := placeCode (a.getD (groupStage u g)), dstPlace := 0, addr := 0 }
    (sailNew u port (hdrBytes hdr) ((bs.drop y.2.1).take y.2.2) (a.getD 0) (if a.isSome then y.2.2 else 0) u.now).2) s

/-- TRANSFER_LAUNCH for transfer t: it launches when its tide, gate, data and credit allow (R275). -/
def tryLaunch (s : State) (g t : Nat) : State :=
  match (s.group g).coll with
  | none => s
  | some c =>
    if c.stopped then s
    else
      let d := collDesc c.desc
      let s := beginColl s g c
      let x := collCtx s g d
      let plan := collPlan s g d
      match (s.group g).coll, sendOf x plan t with
      | some c, some (k, q, p) =>
        let dest := memberAt s g q
        if c.launched.contains t || !reachedNow s (launchTide d t) || !collGate s g d || !c.begun
            || !dataReady x plan c k p || !c.credit.contains t then s
        else match collPort s g d dest.toNat with
          | none =>
            let key := collKey s g d (BitVec.ofNat 16 (nodeId s)) t 0
            if s.noRouted.contains key then s
            else raise { s with noRouted := s.noRouted ++ [key] } pgTopo 2 0x5006
          | some port =>
            let held := s.now != launchTide d t
            let s := if held then s.incSat (pgCq g) 0x05C else s
            let s := if held && !c.heldOnce then cqEvent (updColl s g (fun c => { c with heldOnce := true })) g 3 0x6204 else s
            launchTransfer (updColl s g (fun c => { c with launched := c.launched ++ [t] })) g d t port dest p
      | _, _ => tryComplete s g

/-- A chunk is confirmed and can be written now: nothing still holds the bytes it changes (R276; 02 R58). -/
def writable (s : State) (g : Nat) (c : Coll) (t : Nat) : Bool :=
  let d := collDesc c.desc
  let x := collCtx s g d
  let plan := collPlan s g d
  match recvOf x plan t with
  | none => false
  | some (k, _, p, _) =>
    !c.stopped && !c.written.contains t && landedDone x plan c t && sendsClear x plan c k p
      && (match pieceAddr d p with
        | some a => !heldBlocks s a p.len
        | none => true)

/-- The engine writes the chunk of transfer t, and grants its slot's next credit. -/
def writeChunk (s : State) (g : Nat) (c : Coll) (t : Nat) : State :=
  let d := collDesc c.desc
  let x := collCtx s g d
  let plan := collPlan s g d
  match recvOf x plan t with
  | none => s
  | some (_, _, p, w) =>
    let got := s.bytes (slotAddr s g t) p.len
    let out := match w with
      | .copy => got
      | .ownRight o => combineBytes d.fmt d.red got (pieceBytes s g d o)
      | .ownLeft o => combineBytes d.fmt d.red (pieceBytes s g d o) got
    let s := writePiece s g d x p out
    let s := updColl s g (fun c => { c with written := c.written ++ [t] })
    let next := (recvs x plan).find? (fun u => decide (t < u) && u % groupDepth s g == t % groupDepth s g)
    let s := match next with
      | some u => grantCredit s g d u
      | none => s
    tryComplete s g

/-- The part of a running collective that an arriving consignment names, with its landing address (R271). -/
def collMatch (s : State) (k : ConsKey) (len : Nat) : Option (Nat × Nat × Nat × Nat) :=
  let g := k.stream.toNat
  if k.kind ≠ 2 || decide (64 ≤ g) || groupState s g ≠ 3 then none
  else match (s.group g).coll with
    | none => none
    | some c =>
      let d := collDesc c.desc
      let x := collCtx s g d
      let t := k.seq.toNat / 4 % 2 ^ 18
      let part := k.seq.toNat % 4
      match recvOf x (collPlan s g d) t with
      | none => none
      | some (_, q, p, _) =>
        match (partsOf p.len).find? (fun y => y.1 == part) with
        | none => none
        | some (_, off, n) =>
          if k.seq.toNat / 2 ^ 20 = d.seq.toNat % 4096 && memberAt s g q == k.src && len * 4096 == n
              && !c.landedOk.contains (t, part) && !c.written.contains t then some (g, t, part, slotAddr s g t + off) else none

/-- A part of transfer t is confirmed at this chip (R277); `late`: it was checked after D_t. -/
def collConfirmed (s : State) (g t part : Nat) (late : Bool) : State :=
  match (s.group g).coll with
  | none => s
  | some c =>
    let d := collDesc c.desc
    let x := collCtx s g d
    let plan := collPlan s g d
    let s := updColl s g (fun c => { c with landedOk := c.landedOk ++ [(t, part)], late := c.late || late })
    let whole := (s.group g).coll.elim false (fun c => landedDone x plan c t)
    if !whole then s
    else
      let s := lowerMargin s (pgCq g) 0x060 (dueTide d t + BitVec.ofNat 64 (groupSlack s g))
      if late then cqEvent (s.incSat (pgCq g) 0x058) g 1 0x6201 else s

/-- The source of a part this chip sent is released with a confirm notice (R278). -/
def collSent (s : State) (k : ConsKey) : State :=
  let g := k.stream.toNat
  if k.kind ≠ 2 || decide (64 ≤ g) then s
  else match (s.group g).coll with
    | none => s
    | some c =>
      if k.seq.toNat / 2 ^ 20 = (collDesc c.desc).seq.toNat % 4096 then
        tryComplete (updColl s g (fun c => { c with sentOk := c.sentOk ++ [(k.seq.toNat / 4 % 2 ^ 18, k.seq.toNat % 4)] })) g
      else s

/-! Failure (R282 to R285). -/

/-- A keel group aborts at this member (R285). -/
def abortGroup (s : State) (g : Nat) : State :=
  if groupState s g ≠ 2 && groupState s g ≠ 3 then abortFerries s g
  else
    let mine := s.landing.filter (fun l => match l.target with
      | .coll h _ _ => h == g
      | _ => false)
    let s := mine.foldl (fun t l =>
      let t := if l.st = .exhausted then coresExhaust t l.key l.port 0x6001 else exhaustLanding t l 0x6001 false
      dropLanding t l.key) s
    let s := match (s.group g).coll with
      | none => s
      | some c => completeDesc (s.wrN (pgCq g) 0x054 (collCur s g)) g c.addr (collDesc c.desc) 0x6001 0 0
    let s := updGroup s g (fun r => { r with coll := none, early := [] })
    let s := groupEvent (s.put (fGroupState g) 5) g 3 0x6001
    settleAll (abortFerries s g)

/-- Start a keel abort here: the notice goes to every other member. -/
def startAbort (s : State) (g : Nat) : State :=
  abortGroup ((others s g).foldl (fun t m => t.emit (.abortNotice g m)) s) g

/-- A re-form notice takes effect here (R283): launching stops, the least R and the union of suspects are kept. -/
def takeReform (s : State) (g : Nat) (seq : W32) (suspect : BitVec 16) (at_ : W64) : State :=
  let r := s.group g
  let first := groupState s g != 4
  let least := match r.reformAt with
    | none => at_
    | some t => if first then at_ else if tideReached at_ t then t else at_
  let s := updGroup s g (fun r =>
    { r with reformAt := some least, removal := (if first then [] else r.removal.filter (fun m => m != suspect)) ++ [suspect],
             reformSeq := if first then seq else r.reformSeq, notices := if first then [] else r.notices,
             coll := r.coll.map (fun c => { c with stopped := true }) })
  s.put (fGroupState g) 4

/-- The tide at which transfer t times out (R282). -/
def overdueTide (s : State) (g : Nat) (d : CollDesc) (t : Nat) : W64 := dueTide d t + BitVec.ofNat 64 (groupSlack s g)

/-- The suspect of transfer t, if it has timed out (R282). -/
def suspectOf (s : State) (g t : Nat) : Option (BitVec 16) :=
  match (s.group g).coll with
  | none => none
  | some c =>
    let d := collDesc c.desc
    let x := collCtx s g d
    let plan := collPlan s g d
    if groupState s g ≠ 3 || c.stopped || !reachedNow s (overdueTide s g d t) then none
    else match recvOf x plan t, sendOf x plan t with
      | some (_, q, _, _), sd =>
        if !landedDone x plan c t then some (memberAt s g q)
        else (match sd with
          | some (_, q, _) => if !c.launched.contains t && !c.credit.contains t then some (memberAt s g q) else none
          | none => none)
      | none, some (_, q, _) => if !c.launched.contains t && !c.credit.contains t then some (memberAt s g q) else none
      | none, none => none

/-- A member times out on a collective (R283, R285). -/
def timeOut (s : State) (g : Nat) (suspect : BitVec 16) : State :=
  if s.bit (fGroupKeel g) then startAbort s g
  else
    let r := s.now + 131072
    let seq := (s.group g).coll.elim (nextSeq s g) (fun c => (collDesc c.desc).seq)
    takeReform ((others s g).foldl (fun t m => t.emit (.reformNotice g m seq suspect r)) s) g seq suspect r

/-- The re-form tide is reached. -/
def reformDue (s : State) (g : Nat) : Bool :=
  let r := s.group g
  groupState s g == 4 && !r.reforming && (match r.reformAt with
    | some t => reachedNow s t
    | none => false)

/-- The bytes of DST become undefined (R284): free values (log 6). -/
def loseDst (s : State) (a n : Nat) : State :=
  memWrite { s with fresh := s.fresh + n } a ((List.range n).map (fun i => (Config.freeValue (s.fresh + i)).setWidth 8))

/-- The member array's words in memory. -/
def memberBytes (ms : List (BitVec 16)) : List Byte := (ms.map (fun m => bytesLE 4 m.toNat)).flatten

/-- Re-forming at R (R284). -/
def reformGroup (s : State) (g : Nat) : State :=
  let r := s.group g
  let s := match r.coll with
    | none => s
    | some c =>
      let d := collDesc c.desc
      let x := collCtx s g d
      let s := loseDst (dropColl (s.wrN (pgCq g) 0x054 (collCur s g)) g) (placeBits d.dst) (dstBytes x)
      completeDesc s g c.addr d 0x6002 0 0
  let s := if (r.reformSeq + 1 - nextSeq s g).toNat < 2 ^ 31 then s.wr (pgGtab g) (gOff g 0x28) (r.reformSeq + 1) else s
  if r.removal.any (fun m => m.toNat == nodeId s) then
    let s := updGroup s g (fun r => { r with reformAt := none, removal := [], notices := [] })
    settleAll (groupEvent (s.put (fGroupState g) 6) g 4 0x6205)
  else
    let ms := r.members.filter (fun m => !r.removal.contains m)
    let s := memWrite s (placeBits (s.rd64 (pgGtab g) (gOff g 0x00)).toNat) (memberBytes ms)
    let s := (s.wrN (pgGtab g) (gOff g 0x24) ms.length).put (fGroupRank g) (rankIn s ms)
    let s := s.incSat (pgGtab g) (gOff g 0x2C)
    let s := updGroup s g (fun r => { r with members := ms, reforming := true })
    let s := groupEvent s g 2 0x6002
    settleAll (noticesCheck (sendNotices s g) g)

/-! Step marks (R287). -/

/-- The last transfer numbers of the steps. -/
def stepEnds : Nat → List CollStep → List Nat
  | _, [] => []
  | t, st :: r => (if st.chunks = 0 then [] else [t + st.chunks - 1]) ++ stepEnds (t + st.chunks) r

/-- The next step mark of the collective in flight, if one remains. -/
def nextMark (s : State) (g : Nat) : Option W64 :=
  match (s.group g).coll with
  | none => none
  | some c =>
    let d := collDesc c.desc
    ((stepEnds 0 (collPlan s g d)).map (overdueTide s g d)).find? (fun m => !tideReached s.now m)

/-- DELETE (R267, R287). -/
def deleteCmd (s : State) (g : Nat) : State :=
  let st := groupState s g
  if st = 0 then refuseState s g
  else if st = 3 || st = 4 then updGroup s g (fun r => { r with deleting := true, deleteMark := nextMark s g })
  else deleteGroup s g

/-- A write of GCMD. -/
def writeGcmd (g : Nat) (s : State) (v : W32) : State :=
  match v.toNat % 4 with
  | 0 => s
  | 1 => createGroup s g
  | 2 => deleteCmd s g
  | _ => refuseState s g

/-! Commands. -/

def execCreate (g : Fin 64) (a : Access) (s : State) : Result := hostWrite (pgGtab g.val) (gOff g.val 0x1C) a (writeGcmd g.val) s

def execDelete (g : Fin 64) (a : Access) (s : State) : Result := hostWrite (pgGtab g.val) (gOff g.val 0x1C) a (writeGcmd g.val) s

/-- CREATION_NOTICE (R265 to R267): recorded while the entry waits for notices; a stale one is discarded. -/
def execCreationNotice (g : Fin 64) (sender : BitVec 16) (digest : BitVec 32) (ring : Bool) (s : State) : Result :=
  let st := groupState s g.val
  if (st = 1 || st = 4) && (s.group g.val).members.contains sender then
    let s := updGroup s g.val (fun r => { r with notices := r.notices.filter (fun x => x.1 != sender) ++ [(sender, digest, ring)] })
    finish (noticesCheck s g.val)
  else .next s

def execTail (g : Fin 64) (a : Access) (s : State) : Result := hostWrite (pgCq g.val) 0x050 a (writeCqTail g.val) s

def execCqDb (g : Fin 64) (a : Access) (s : State) : Result := doorbellWrite (pgCq g.val) (0x1000 + 4 * g.val) a (writeCqTail g.val) s

def execDescriptorTake (g : Fin 64) (s : State) : Result := if takeDue s g.val then finish (takeDesc s g.val) else .next s

def execTransferLaunch (g : Fin 64) (t : Nat) (s : State) : Result :=
  if groupState s g.val = 3 then finish (tryLaunch s g.val t) else .next s

/-- CREDIT (R276): a credit that the collective in progress does not need yet belongs to the next. -/
def takeCredit (s : State) (g t : Nat) : State :=
  match (s.group g).coll with
  | none => updGroup s g (fun r => { r with early := r.early ++ [t] })
  | some c =>
    let d := collDesc c.desc
    if (sendOf (collCtx s g d) (collPlan s g d) t).isSome && !c.credit.contains t then
      updColl s g (fun c => { c with credit := c.credit ++ [t] })
    else updGroup s g (fun r => { r with early := r.early ++ [t] })

def execCredit (g : Fin 64) (t : Nat) (s : State) : Result :=
  if groupState s g.val = 2 || groupState s g.val = 3 then finish (takeCredit s g.val t) else .next s

def execChunkWritten (g : Fin 64) (t : Nat) (s : State) : Result :=
  match (s.group g.val).coll with
  | some c => if groupState s g.val = 3 && writable s g.val c t then finish (writeChunk s g.val c t) else .next s
  | none => .next s

def execCollTimeout (g : Fin 64) (t : Nat) (s : State) : Result :=
  match suspectOf s g.val t with
  | some m => finish (timeOut s g.val m)
  | none => .next s

/-- REFORM_NOTICE (R283). -/
def execReformNotice (g : Fin 64) (seq : BitVec 32) (suspect : BitVec 16) (at_ : BitVec 64) (s : State) : Result :=
  let st := groupState s g.val
  if (st = 2 || st = 3 || st = 4) && !s.bit (fGroupKeel g.val) && !(s.group g.val).reforming then finish (takeReform s g.val seq suspect at_)
  else .next s

def execReform (g : Fin 64) (s : State) : Result := if reformDue s g.val then finish (reformGroup s g.val) else .next s

def execAbortNotice (g : Fin 64) (s : State) : Result :=
  if s.bit (fGroupKeel g.val) && (groupState s g.val = 2 || groupState s g.val = 3) then finish (abortGroup s g.val) else .next s

end Sys2Proof.Machine
end

