-- ==== Sys2Proof/Machine/Ferry.lean ====
section
/-! DEFINITION. The commands of a ferry (09): ARM, APPEND, the end of validation, sailings, zones, marks, END, ABORT, overdue. -/

namespace Sys2Proof.Machine

/-- ARM (R244): counters return to their reset values, and validation begins on the schedule as it stands. -/
def armFerry (s : State) (f : Nat) : State :=
  if !ferryIdle s f then refuseFerry s f 0 15
  else
    let p := pgFerry f
    let s := [0x074, 0x07C, 0x080, 0x084, 0x088, 0x08C, 0x090].foldl (fun t o => t.wr p o (regReset p o)) s
    let v := validate s f (schedLen s f) 0
    let s := s.setFerry f { FerryRun.reset with validating := 1, verdict := v }
    s.put (fFerryBusy f) 1

/-- APPEND (R259). -/
def appendFerry (s : State) (f : Nat) : State :=
  let n := s.get ⟨pgFerry f, 0x068, 0, 21⟩
  if (ferryState s f ≠ 1 && ferryState s f ≠ 2) || !s.bit (fFerryOpen f) || !ferryHbm s f || s.bit (fFerryBusy f) then refuseFerry s f 0 15
  else
    let v := validate s f n (schedLen s f)
    (updFerry s f (fun r => { r with validating := 2, verdict := v })).put (fFerryBusy f) 1

/-- CMD.ABORT (R256): the keel abort of the ferry's group. -/
def abortCmd (s : State) (f : Nat) : State :=
  if ferryState s f ≠ 1 && ferryState s f ≠ 2 then s else startAbort s (ferryGroup s f)

/-- A write of CMD: one command, or 0x6103 with cause 15. -/
def writeFerryCmd (f : Nat) (s : State) (v : W32) : State :=
  match v.toNat % 8 with
  | 0 => s
  | 1 => armFerry s f
  | 2 => abortCmd s f
  | 4 => appendFerry s f
  | _ => refuseFerry s f 0 15

def execArm (f : Fin 8) (a : Access) (s : State) : Result := hostWrite (pgFerry f.val) 0x06C a (writeFerryCmd f.val) s
def execAppend (f : Fin 8) (a : Access) (s : State) : Result := hostWrite (pgFerry f.val) 0x06C a (writeFerryCmd f.val) s
def execAbort (f : Fin 8) (a : Access) (s : State) : Result := hostWrite (pgFerry f.val) 0x06C a (writeFerryCmd f.val) s

/-- Validation ends (R244, R259). -/
def endValidation (s : State) (f : Nat) : State :=
  let r := s.ferry f
  let s := (updFerry s f (fun r => { r with validating := 0, verdict := none })).put (fFerryBusy f) 0
  match r.validating, r.verdict with
  | 1, none => ferrySettle (s.put (fFerryState f) 1) f
  | 1, some (k, c) => refuseFerry (s.put (fFerryState f) 5) f k c
  | _, none => s.put ⟨pgFerry f, 0x048, 0, 21⟩ (s.get ⟨pgFerry f, 0x068, 0, 21⟩)
  | _, some (k, c) => refuseFerry s f k c

def execValidationDone (f : Fin 8) (s : State) : Result :=
  if (s.ferry f.val).validating = 0 then .next s else finish (endValidation s f.val)

/-- A SAIL may depart as far as the schedule goes: its tide is reached, its LAND confirmed, earlier SAILs of its port gone. -/
def sailTurn (s : State) (f i k : Nat) : Bool :=
  let e := entryAt s f i k
  (List.range (i + 1)).all (fun i' => (List.range (schedLen s f)).all (fun j =>
    let q := rawEntry s f j
    !(q.kind == skSail && !q.routed && !e.routed && q.port == e.port && (decide (i' < i) || decide (j < k)))
      || (s.ferry f).sailed.contains (i', j)))

/-- The port a SAIL leaves by: its own while a member is trained (R255), or the next hop of its route (R260). -/
def sailPort (s : State) (e : Sched) : Option Nat :=
  if e.routed then (nextHop s e.peer.toNat 0).map (fun h => h.1)
  else if (portMembers s e.port).isEmpty then none else some e.port

/-- The consignment sails with ATTEMPT 0 and the entry's DUE (R239, R240). -/
def sailEntry (s : State) (f i k port : Nat) : State :=
  let e := entryAt s f i k
  let n := e.len * 4096
  let a := placeBits e.addr
  let r := memRead s a n
  let s := if poisoned r.2 a n then uncorrectable r.2 a else r.2
  let hdr : ConsHdr :=
    { kind := 1, stream := ferryGroup s f, seq := e.seq, due := e.due, len := e.len, attempt := 0, berth := ferryOwner s f,
      src := nodeId s, dst := e.peer.toNat, srcPlace := placeCode e.addr, dstPlace := placeCode e.dest, addr := e.dest }
  let s := (sailNew s port (hdrBytes hdr) r.1 a n s.now).2
  ferrySettle (updFerry s f (fun r => { r with sailed := r.sailed ++ [(i, k)] })) f

/-- SAIL for entry k: in the oldest iteration in which it has not sailed. -/
def trySail (s : State) (f k : Nat) : State :=
  let s := ferrySettle s f
  if ferryState s f ≠ 2 || decide (schedLen s f ≤ k) || (rawEntry s f k).kind ≠ skSail then s
  else match oldestLeft s f k (s.ferry f).sailed with
    | none => s
    | some i =>
      let e := entryAt s f i k
      if !reachedNow s e.depart || !sailTurn s f i k then s
      else if (match chainOf s f k with
          | some j => !(s.ferry f).done.contains (i, j)
          | none => false) then (if s.now = e.depart then s else sailHeld s f i k)
      else if placeStopped s (placeBits e.addr) then s
      else match sailPort s e with
        | some p => sailEntry s f i k p
        | none =>
          let key := ferryKey s f (BitVec.ofNat 16 (nodeId s)) e.seq
          if e.routed && !s.noRouted.contains key then raise { s with noRouted := s.noRouted ++ [key] } pgTopo 2 0x5006 else s

def execSail (f : Fin 8) (entry : Nat) (s : State) : Result := if running s then finish (trySail s f.val entry) else .next s

/-- ZONE_OPEN for entry k (R248). -/
def tryOpen (s : State) (f k : Nat) : State :=
  let s := ferrySettle s f
  if ferryState s f ≠ 2 || decide (schedLen s f ≤ k) || (rawEntry s f k).kind ≠ skLand then s
  else match oldestLeft s f k (s.ferry f).opened with
    | none => s
    | some i =>
      let e := entryAt s f i k
      if reachedNow s e.depart && (!e.gateEn || gateReached s (clusterOf e.addr) e.gate e.gateVal) then
        ferrySettle (updFerry s f (fun r => { r with opened := r.opened ++ [(i, k)] })) f
      else s

def execZoneOpen (f : Fin 8) (entry : Nat) (s : State) : Result := if running s then finish (tryOpen s f.val entry) else .next s

/-- A MARK or END whose tide is reached is passed; a MARK closes a step for what waits on the ferry (R257). -/
def tryPass (s : State) (f k kind : Nat) : State :=
  let s := ferrySettle s f
  if ferryState s f ≠ 2 || decide (schedLen s f ≤ k) || (rawEntry s f k).kind ≠ kind then s
  else match oldestLeft s f k (s.ferry f).done with
    | none => s
    | some i =>
      if reachedNow s (entryAt s f i k).depart then
        let s := updFerry s f (fun r => { r with done := r.done ++ [(i, k)] })
        let s := ferrySettle s f
        if kind = skMark then settleWaits s (fun w => w.1 == f) else settleAll s
      else s

def execMark (f : Fin 8) (entry : Nat) (s : State) : Result := if running s then finish (tryPass s f.val entry skMark) else .next s
def execEndEntry (f : Fin 8) (entry : Nat) (s : State) : Result := if running s then finish (tryPass s f.val entry skEnd) else .next s

/-- The oldest iteration in which LAND k is overdue (R253). -/
def overdueIter (s : State) (f k : Nat) : Option Nat :=
  if ferryState s f ≠ 2 || decide (schedLen s f ≤ k) || (rawEntry s f k).kind ≠ skLand then none
  else match oldestLeft s f k (s.ferry f).done with
    | none => none
    | some i => if reachedNow s ((entryAt s f i k).due + BitVec.ofNat 64 (ferrySlack s f)) then some i else none

/-- An overdue LAND starts the keel abort of its group. -/
def ferryOverdue (s : State) (f i k : Nat) : State :=
  let e := entryAt s f i k
  let s := (s.wr (pgFerry f) 0x094 e.seq).wrN (pgFerry f) 0x098 e.peer.toNat
  let s := raiseWith s (pgFerry f) 2 0x6102 (e.seq, e.peer.setWidth 32, 0, 0)
  startAbort s (ferryGroup s f)

def execFerryOverdue (f : Fin 8) (entry : Nat) (s : State) : Result :=
  match overdueIter s f.val entry with
  | some i => finish (ferryOverdue s f.val i entry)
  | none => .next s

end Sys2Proof.Machine
end

