-- ==== Sys2Proof/Machine/Links.lean ====
section
/-! DEFINITION. Links and topology (11): training step by step, retraining, sparing, link retry, announcements, routing at a
transit chip, ports and the node's own identity. -/

namespace Sys2Proof.Machine

abbrev fLnkEn (n : Nat) : Fld := ⟨pgLnk n, 0x008, 0, 1⟩
abbrev fLnkSpareEn (n : Nat) : Fld := ⟨pgLnk n, 0x008, 1, 1⟩
abbrev fLnkMinWidth (n : Nat) : Fld := ⟨pgLnk n, 0x008, 3, 2⟩
abbrev fLnkState (n : Nat) : Fld := ⟨pgLnk n, 0x00C, 0, 3⟩
abbrev fSpareUsed (n : Nat) : Fld := ⟨pgLnk n, 0x00C, 3, 1⟩
abbrev fSparedLane (n : Nat) : Fld := ⟨pgLnk n, 0x00C, 4, 4⟩
abbrev fLnkWidth (n : Nat) : Fld := ⟨pgLnk n, 0x00C, 8, 4⟩
abbrev fLnkFail (n : Nat) : Fld := ⟨pgLnk n, 0x00C, 12, 3⟩
abbrev fLaneOk (n : Nat) : Fld := ⟨pgLnk n, 0x00C, 16, 9⟩
abbrev fCfgValid : Fld := ⟨pgTopo, 0x00C, 0, 1⟩
def lnkEvent (s : State) (n bit code : Nat) : State := raise s (pgLnk n) bit code
def updLink (s : State) (n : Nat) (f : LinkRun → LinkRun) : State := s.setLink n (f (s.link n))

/-- A latency in 1/16 tick is stored with VALID (01 R34). -/
def putLat (s : State) (n : Nat) (lat16 : BitVec 24) : State := s.wrN pgTide (0x100 + 4 * n) (lat16.toNat + 2 ^ 31)

/-! Lanes (R299, R301). -/

/-- The lanes that carry the link, in ascending place. -/
def activeLanes (s : State) (n : Nat) : List Nat :=
  let w := linkWidth s n
  if w = 8 then (List.range 8).map (fun i => if s.bit (fSpareUsed n) && s.get (fSparedLane n) == i then 8 else i)
  else ((List.range 9).filter (fun i => (s.get (fLaneOk n)).testBit i)).take w

/-- The spare stands by in service. -/
def spareStandsBy (s : State) (n : Nat) : Bool :=
  s.bit (fLnkSpareEn n) && linkWidth s n == 8 && !s.bit (fSpareUsed n) && (s.get (fLaneOk n)).testBit 8 && !(s.link n).dark.getLsbD 8

/-- Width of a link with g good lanes. -/
def widthOf (g : Nat) : Nat := if 8 ≤ g then 8 else if 4 ≤ g then 4 else if 2 ≤ g then 2 else g

/-! Training (R298, R486). -/

/-- A link begins to train: out of service, lasers lit, step 1. -/
def beginTraining (s : State) (n : Nat) : State :=
  let s := ((s.put (fLnkState n) 1).put (fLnkWidth n) 0).put (fLnkFail n) 0
  let s := (s.put (fSpareUsed n) 0).put (fSparedLane n) 0
  let s := s.put ⟨pgTide, 0x100 + 4 * n, 31, 1⟩ 0
  let s := updLink s n (fun l => { l with step := 1, ownDone := false, farDone := false, stepAt := s.tide.clock })
  (s.emit (.lasers n true)).emit (.train n 1)

/-- Retrains of the last 2^30 tide clocks (R301, R487). -/
def recentRetrains (s : State) (n : Nat) : List Nat := (s.link n).retrains.filter (fun t => decide (s.tide.clock - t < 2 ^ 30))

/-- A retrain (R300): 0x5004, RETRAINS, and one more against RETRAIN_MAX unless the link is held by RETRAIN_LIMIT. -/
def retrainLink (s : State) (n : Nat) (counts : Bool) : State :=
  let before := s
  let l := s.link n
  let s := if l.retraining then logAdapt s (pgLnk n) true else s
  let s := (lnkEvent s n 4 0x5004).incSat (pgLnk n) 0x048
  let s := logAdapt s (pgLnk n) false
  let up := if linkState s n = 1 then l.wasUp else trained s n
  let kept := recentRetrains s n
  let s := updLink s n (fun l =>
    { l with retraining := true, wasUp := up, retrains := if counts then kept ++ [s.tide.clock] else kept })
  noteTopo before (beginTraining s n)

/-- The training under way ends one way or the other. -/
def endRetrain (s : State) (n : Nat) : State :=
  let s := if (s.link n).retraining then logAdapt s (pgLnk n) true else s
  updLink s n (fun l => { l with step := 0, ownDone := false, farDone := false, wasUp := false, retraining := false })

/-- A step fails (R298): MISSING, and DOWN where the link was in service. -/
def failTraining (s : State) (n k : Nat) : State :=
  let before := s
  let wasUp := (s.link n).wasUp
  let s := ((s.put (fLnkState n) 4).put (fLnkFail n) k).put (fLnkWidth n) 0
  let s := if wasUp then lnkEvent s n 1 0x5001 else s
  noteTopo before (updLink (endRetrain s n) n (fun l => { l with missingAt := s.tide.clock }))

/-- Routed traffic that waits takes its hop where there now is one (R305). -/
def retryRoutes (s : State) : State :=
  let ready := s.routeWait.filter (fun m => (nextHop s m.dst.toNat m.cls).isSome)
  let s := { s with routeWait := s.routeWait.filter (fun m => (nextHop s m.dst.toNat m.cls).isNone) }
  ready.foldl (fun t m => match nextHop t m.dst.toNat m.cls with
    | some (l, c) => t.emit (.forward l c m.vc.toNat m.dst m.id)
    | none => t) s

/-- Step 6 completes (R298): UP or NARROW, credits granted (R296), lane counters zero, links bundled. -/
def trainedUp (s : State) (n : Nat) (lat16 : BitVec 24) : State :=
  let before := s
  let w := widthOf ((List.range 9).filter (fun i => (s.get (fLaneOk n)).testBit i)).length
  let s := (s.put (fLnkState n) (if w = 8 then 2 else 3)).put (fLnkWidth n) w
  let s := putLat s n lat16
  let s := iterate 9 (fun i t => t.wr (pgLnk n) (0x080 + 4 * i) 0) s
  let s := updLink (endRetrain s n) n (fun l =>
    { l with limited := false, dark := 0, winFlits := 0, winErr := [], prevPar := 0, credits := [128, 2560, 3072, 2432], fails := 0,
             ackAt := s.tide.clock })
  let s := lnkEvent s n 0 0
  let s := if w < 8 then lnkEvent s n 2 0x5002 else s
  retryRoutes (noteTopo before (bundle s n))

/-- The lanes are chosen (R299): good at both ends and at self-test. -/
def chooseLanes (s : State) (n : Nat) : State :=
  let l := s.link n
  let ok := (l.ownLanes &&& l.farLanes) &&& ~~~l.loopBad
  let g := ((List.range 9).filter (fun i => ok.getLsbD i)).length
  let bad := (List.range 8).find? (fun i => !ok.getLsbD i)
  let s := s.put (fLaneOk n) ok.toNat
  match bad with
  | some i => if g = 8 then (s.put (fSpareUsed n) 1).put (fSparedLane n) i else s
  | none => s

/-- Role and dimension of a far end (R303): 1 triad, 2 cube, 3 miscabled. -/
def classify (s : State) (far : Nat) : Nat × Nat :=
  let me := nodeId s
  let dims := s.get ⟨pgTopo, 0x040, 16, 4⟩
  if far / 4 = me / 4 && far % 4 ≠ me % 4 && far % 4 ≠ 3 then (1, 0)
  else match (List.range dims).find? (fun d => far == cubeFar me d) with
    | some d => (2, d)
    | none => (3, 0)

/-- Step 5 at this end: LINKMAP, or MISCABLED. -/
def identify (s : State) (n : Nat) (msg : TrainReport) : State :=
  let c := classify s msg.node.toNat
  let s := s.wrN pgTopo (0x050 + 4 * n) (msg.node.toNat + msg.link.toNat * 2 ^ 16 + c.1 * 2 ^ 20 + c.2 * 2 ^ 22)
  if c.1 = 3 then
    let t := endRetrain (lnkEvent (s.put (fLnkState n) 5) n 5 0x5005) n
    noteTopo s t
  else s

/-- The next step begins at this end. -/
def nextStep (s : State) (n k : Nat) : State :=
  (updLink s n (fun l => { l with step := k, ownDone := false, farDone := false, stepAt := s.tide.clock })).emit (.train n k)

/-- A step that both ends have completed is over (R486). -/
def advanceStep (s : State) (n : Nat) : State :=
  let l := s.link n
  if !(l.ownDone && l.farDone) then s
  else match l.step with
    | 3 =>
      let s := chooseLanes s n
      let w := widthOf ((List.range 9).filter (fun i => (s.get (fLaneOk n)).testBit i)).length
      if w = 0 || w < 2 ^ s.get (fLnkMinWidth n) then failTraining s n 3 else nextStep s n 4
    | 5 => if linkState s n = 5 then s else nextStep s n 6
    | 6 =>
      let lat := (s.rd pgTide (0x100 + 4 * n)).setWidth 24
      if 3584 * 16 < lat.toNat then failTraining s n 6 else trainedUp s n lat
    | k => if k = 0 then s else nextStep s n (k + 1)

/-- This end completes its own part of a step: the lanes it found good, the latency its echoes measured. -/
def ownStep (s : State) (n : Nat) (msg : TrainReport) : State :=
  let s := updLink s n (fun l => { l with ownDone := true, ownLanes := if l.step = 3 then msg.lanes else l.ownLanes })
  let s := if (s.link n).step = 6 then s.wrN pgTide (0x100 + 4 * n) msg.lat16.toNat else s
  advanceStep s n

/-- The far end reports its part: its good lanes, its identity. -/
def farStep (s : State) (n : Nat) (msg : TrainReport) : State :=
  let s := updLink s n (fun l => { l with farDone := true, farLanes := if l.step = 3 then msg.lanes else l.farLanes })
  advanceStep (if (s.link n).step = 5 then identify s n msg else s) n

/-- A link in training, at a step. -/
def inStep (s : State) (n : Nat) (msg : TrainReport) : Bool :=
  running s && linkState s n == 1 && (s.link n).step == msg.step.val && msg.step.val != 0

def execTrainingStepComplete (link : Fin 16) (msg : TrainReport) (s : State) : Result :=
  if inStep s link.val msg && !(s.link link.val).ownDone then finish (ownStep s link.val msg) else .next s
def execTrainingMessage (link : Fin 16) (msg : TrainReport) (s : State) : Result :=
  if inStep s link.val msg && !(s.link link.val).farDone then finish (farStep s link.val msg) else .next s

/-- The limits of R298's steps, in tide clocks. -/
def stepLimit : Nat → Nat
  | 1 => 1000000
  | 2 => 20000000
  | 3 => 18000000
  | 4 => 1000000
  | _ => 100000

def execStepTimeout (link : Fin 16) (s : State) : Result :=
  let l := s.link link.val
  if running s && linkState s link.val == 1 && decide (stepLimit l.step ≤ s.tide.clock - l.stepAt) then
    finish (failTraining s link.val l.step)
  else .next s

/-- The training pattern is detected (R486). -/
def seePattern (s : State) (n : Nat) : State :=
  if !s.bit (fLnkEn n) || !s.bit fCfgValid then s
  else if linkState s n = 4 || trained s n then retrainLink s n (!(s.link n).limited)
  else s

def execTrainingPattern (link : Fin 16) (s : State) : Result := if running s then finish (seePattern s link.val) else .next s

/-- Links train from step 9 of bring-up on, and for relay (15 R396, R409). -/
def linksLive (s : State) : Bool := let st := s.get fStage; decide (8 ≤ st) && st != 11

/-- A write of CTRL (R298, R300): EN, SPARE_EN, MIN_WIDTH are stored. -/
def writeLnkCtrl (n : Nat) (s : State) (v : W32) : State :=
  let was := s.bit (fLnkEn n)
  let s := s.wrN (pgLnk n) 0x008 (bitsOf v.toNat 0 2 + bitsOf v.toNat 3 2 * 8)
  if v.getLsbD 0 && !was then
    if s.bit fCfgValid && linksLive s then
      noteTopo s (beginTraining (updLink s n (fun l => { l with limited := false, wasUp := false, retraining := false })) n)
    else s
  else if !v.getLsbD 0 && was then
    let t := ((s.put (fLnkState n) 0).put (fLnkWidth n) 0).put ⟨pgTide, 0x100 + 4 * n, 31, 1⟩ 0
    let t := (t.put (fSpareUsed n) 0).put (fSparedLane n) 0
    noteTopo s ((updLink (endRetrain t n) n (fun l => { l with limited := false })).emit (.lasers n false))
  else if v.getLsbD 0 && v.getLsbD 2 && s.bit fCfgValid && linksLive s then
    retrainLink (updLink s n (fun l => { l with limited := false })) n true
  else s

def execLinkEn (link : Fin 16) (a : Access) (s : State) : Result := hostWrite (pgLnk link.val) 0x008 a (writeLnkCtrl link.val) s
def execRetrain (link : Fin 16) (a : Access) (s : State) : Result := hostWrite (pgLnk link.val) 0x008 a (writeLnkCtrl link.val) s

/-- RETRAIN_MAX: 0 is stored as 1. -/
def writeRetrainMax (n : Nat) (s : State) (v : W32) : State := s.wrN (pgLnk n) 0x044 (max 1 (v.toNat % 256))

/-- RETRAIN_MAX retrains lie within the window (R301). -/
def atRetrainMax (s : State) (n : Nat) : Bool := decide (s.rdN (pgLnk n) 0x044 ≤ (recentRetrains s n).length)

/-- The link is MISSING, enabled and not yet held. -/
def missingFree (s : State) (n : Nat) : Bool := running s && linkState s n == 4 && s.bit (fLnkEn n) && !(s.link n).limited

def execRetrainLimit (link : Fin 16) (s : State) : Result :=
  if missingFree s link.val && atRetrainMax s link.val then
    finish (lnkEvent (updLink s link.val (fun l => { l with limited := true })) link.val 7 0x5009)
  else .next s

def execRetryTimer (link : Fin 16) (s : State) : Result :=
  if missingFree s link.val && !atRetrainMax s link.val && s.bit fCfgValid
      && decide (2 ^ 27 ≤ s.tide.clock - (s.link link.val).missingAt) then
    finish (retrainLink s link.val true)
  else .next s

/-! Sparing (R300, R301). -/

/-- The spare takes over a lane; LINK_LAT is measured again. -/
def spareLane (s : State) (n lane : Nat) (lat16 : BitVec 24) : State :=
  let s := logAdapt s (pgLnk n) false lane
  let s := (s.put (fSpareUsed n) 1).put (fSparedLane n) lane
  let s := putLat (lnkEvent (s.incSat (pgLnk n) 0x04C) n 3 0x5003) n lat16
  logAdapt (s.emit (.switchLane n lane (s.link n).txSeq)) (pgLnk n) true lane

/-- Active lanes have failed: one is spared where the spare stands by, else the link retrains. -/
def lanesFailed (s : State) (n : Nat) (bad : List Nat) (lat16 : BitVec 24) : State :=
  match bad with
  | [] => s
  | [lane] => if spareStandsBy s n && lane < 8 then spareLane s n lane lat16 else retrainLink s n true
  | _ => retrainLink s n true

/-- Lanes lose light. -/
def loseLight (s : State) (n : Nat) (lanes : BitVec 9) (lat16 : BitVec 24) : State :=
  let bad := (activeLanes s n).filter (fun i => lanes.getLsbD i)
  lanesFailed (updLink s n (fun l => { l with dark := l.dark ||| lanes })) n bad lat16

def execLightLoss (link : Fin 16) (lanes : BitVec 9) (lat16 : BitVec 24) (s : State) : Result :=
  if running s && trained s link.val then finish (loseLight s link.val lanes lat16) else .next s

/-- A window of 2^20 flits closes: this end's counts and the lanes the far end found over LANE_THRESH. -/
def closeWindowOf (s : State) (n : Nat) (farOver : BitVec 9) (lat16 : BitVec 24) : State :=
  let l := s.link n
  let worn := (activeLanes s n).filter (fun i => decide (s.get ⟨pgLnk n, 0x040, 0, 16⟩ < storeGet l.winErr i 0) || farOver.getLsbD i)
  lanesFailed (updLink s n (fun l => { l with winFlits := 0, winErr := [] })) n worn lat16

def execLaneWindow (link : Fin 16) (farOver : BitVec 9) (lat16 : BitVec 24) (s : State) : Result :=
  if running s && trained s link.val && decide (2 ^ 20 ≤ (s.link link.val).winFlits) then
    finish (closeWindowOf s link.val farOver lat16)
  else .next s

/-! Link retry (R294). -/

/-- Every flit after ACK is sent again; the sixteenth failure of one flit retrains the link. -/
def resendFlits (s : State) (n : Nat) : State :=
  let l := s.link n
  let s := s.addSat (pgLnk n) 0x060 (unacked l)
  let s := s.emit (.resend n (l.ackSeq + 1))
  if 16 ≤ l.fails + 1 then
    retrainLink (lnkEvent (updLink s n (fun l => { l with fails := 0, ackAt := s.tide.clock })) n 6 0x5007) n true
  else updLink s n (fun l => { l with fails := l.fails + 1, ackAt := s.tide.clock })

/-- An ACK, or a NAK with the last good FSEQ, arrives. -/
def takeAck (s : State) (n : Nat) (ack : BitVec 12) (nak : Bool) : State :=
  let l := s.link n
  let fresh := decide ((ack - l.ackSeq).toNat ≤ unacked l) && ack != l.ackSeq
  let s := if fresh then updLink s n (fun l => { l with ackSeq := ack, ackAt := s.tide.clock, fails := 0 }) else s
  if nak && unacked (s.link n) ≠ 0 then resendFlits s n else s

def execAckTimeout (link : Fin 16) (s : State) : Result :=
  let l := s.link link.val
  if running s && trained s link.val && unacked l != 0 && decide (4096 ≤ s.tide.clock - l.ackAt) then finish (resendFlits s link.val)
  else .next s

/-! Routing (R305, R306). -/

/-- A triad neighbour's announcement. -/
def hearCube (s : State) (pos : Nat) (cube : BitVec 16) : State :=
  let p := nodeId s % 4
  if pos = p then s
  else
    let f : Fld := ⟨pgTopo, 0x110, if pos = (p + 1) % 3 then 0 else 16, 16⟩
    let t := s.put f cube.toNat
    retryRoutes (if s.get f = cube.toNat then t else raise t pgTopo 0 0)

def execLinkStateAnnounce (pos : Fin 3) (cube : BitVec 16) (s : State) : Result :=
  if running s then finish (hearCube s pos.val cube) else .next s

/-- The hop of a routed attempt or message at this chip; the destination itself takes it by the commands of its kind. -/
def routeHop (s : State) (m : RouteMsg) : State :=
  if m.dst.toNat = nodeId s then s
  else match nextHop s m.dst.toNat m.cls with
    | some (l, c) => s.emit (.forward l c m.vc.toNat m.dst m.id)
    | none =>
      let told := s.routeWait.contains m || (match m.key with
        | some k => s.noRouted.contains k
        | none => false)
      let s := { s with routeWait := if s.routeWait.contains m then s.routeWait else s.routeWait ++ [m],
                        noRouted := s.noRouted ++ (match m.key with
                          | some k => if told then [] else [k]
                          | none => []) }
      if told then s else raise s pgTopo 2 0x5006

def execRouteHop (msg : RouteMsg) (s : State) : Result := if running s then finish (routeHop s msg) else .next s

/-! TOPO (R302, R304). -/

/-- CFG_VALID follows TRIAD, DIMS and the strap; an invalid configuration raises 0x5008. -/
def judgeConfig (s : State) : State :=
  let ok := decide (s.get ⟨pgTopo, 0x040, 2, 14⟩ < 2 ^ s.get ⟨pgTopo, 0x040, 16, 4⟩) && s.boot.strap != 3
  let s := s.putBit fCfgValid ok
  if ok then s else raise s pgTopo 1 0x5008

/-- SELF takes writes only while every link has EN = 0. -/
def writeSelf (s : State) (v : W32) : State :=
  if (List.range 16).any (fun n => s.bit (fLnkEn n)) then s
  else judgeConfig (s.wrN pgTopo 0x040 (bitsOf v.toNat 2 14 * 4 + min 14 (bitsOf v.toNat 16 4) * 2 ^ 16))

def execSelf (a : Access) (s : State) : Result := hostWrite pgTopo 0x040 a writeSelf s

/-- A RUNNING ferry uses a port (09 R257): its schedule names it. -/
def ferryUsesPort (s : State) (f : Nat) (ports : List Nat) : Bool :=
  ferryState s f == 2 && (List.range (schedLen s f)).any (fun k =>
    let e := rawEntry s f k
    (e.kind == skSail || e.kind == skLand) && !e.routed && ports.contains e.port)

/-- A group that is ACTIVE or REFORMING uses a port (10 R287): one that reaches a member. -/
def groupUsesPort (s : State) (g : Nat) (ports : List Nat) : Bool :=
  (groupState s g == 3 || groupState s g == 4) && ports.any (fun l => (List.range 16).any (fun n =>
    portOf s n == l && (s.group g).members.contains (BitVec.ofNat 16 (farNode s n))))

/-- What a rebinding of ports waits for: ferries, and groups with the step mark that ends the wait, if they state one. -/
def portWaits (s : State) (mark : State → Nat → Option W64) (ports : List Nat) : List (Nat × Option W64) :=
  ((List.range 8).filter (fun f => ferryUsesPort s f ports)).map (fun f => (f, none))
    ++ ((List.range 64).filter (fun g => groupUsesPort s g ports)).map (fun g => (8 + g, mark s g))

end Sys2Proof.Machine
end

