-- ==== Sys2Proof/Machine/Tier.lean ====
section
/-! DEFINITION. Memory tiers (12): requests and their rings, runs of granules, moves tile by tile, lost objects, flash, and the
traffic generators of the stacks. Readings of this chapter that its words leave to inference are log 48. -/

namespace Sys2Proof.Machine

/-! Rings (R320). Ring 0 to 15 is a berth's, 16 the host's. -/

def ringOwner (ring : Nat) : Nat := if ring < 16 then ring else 0xFF
def ringBase (s : State) (ring : Nat) : Nat :=
  placeBits (if ring < 16 then s.rd64 (pgBerth ring) 0x658 else s.rd64 pgTier 0x04C).toNat
def ringLog2 (s : State) (ring : Nat) : Nat := if ring < 16 then s.get ⟨pgBerth ring, 0x660, 0, 5⟩ else s.get ⟨pgTier, 0x054, 0, 5⟩
def ringHead (s : State) (ring : Nat) : Nat := if ring < 16 then s.rdN (pgBerth ring) 0x664 else s.rdN pgTier 0x058
def ringTail (s : State) (ring : Nat) : Nat := if ring < 16 then s.rdN (pgBerth ring) 0x668 else s.rdN pgTier 0x05C
def setRingHead (s : State) (ring v : Nat) : State := if ring < 16 then s.wrN (pgBerth ring) 0x664 v else s.wrN pgTier 0x058 v
def setRingTail (s : State) (ring v : Nat) : State := if ring < 16 then s.wrN (pgBerth ring) 0x668 v else s.wrN pgTier 0x05C v
/-- Address of the request at a position. -/
def reqAddr (s : State) (ring pos : Nat) : Nat := ringBase s ring + 32 * (pos % 2 ^ ringLog2 s ring)

abbrev fTierReady : Fld := ⟨pgTier, 0x00C, 0, 1⟩
def otabLen (s : State) : Nat := s.get ⟨pgTier, 0x048, 0, 21⟩

/-- A request from its 32 bytes. -/
def tierReqOf (ring pos : Nat) (b : List Byte) : TierReq :=
  { ring := ring, pos := pos, obj := fieldLE b 0 4 % 2 ^ 20, op := fieldLE b 4 1, dtier := fieldLE b 5 1 % 4,
    dplace := fieldLE b 6 1, tileLog2 := fieldLE b 7 1, arg := BitVec.ofNat 64 (fieldLE b 8 8),
    clean := fieldLE b 0 4 / 2 ^ 20 == 0 && fieldLE b 5 1 / 4 == 0 && fieldLE b 28 4 == 0, active := false }

abbrev toAlloc : Nat := 1
abbrev toFree : Nat := 2
abbrev toMove : Nat := 3
abbrev toPin : Nat := 4
abbrev toUnpin : Nat := 5
abbrev toRestore : Nat := 6
abbrev toSupplied : Nat := 7
abbrev toShare : Nat := 8
abbrev toWait : Nat := 9

abbrev osFree : Nat := 0
abbrev osHome : Nat := 1
abbrev osMoving : Nat := 2
abbrev osLost : Nat := 3
abbrev osSupply : Nat := 4

/-! Granules (R313, R314). -/

/-- Granules that n bytes take in a tier. -/
def granules (tier n : Nat) : Nat := ceilDiv n (granule tier)

def usedOff (tier : Nat) : Nat := 0x64C + 4 * tier
def quotaOff (tier : Nat) : Nat := 0x640 + 4 * tier
def charge (s : State) (owner tier n : Nat) : State :=
  if owner < 16 then s.wrN (pgBerth owner) (usedOff tier) (s.rdN (pgBerth owner) (usedOff tier) + n) else s
def uncharge (s : State) (owner tier n : Nat) : State :=
  if owner < 16 then s.wrN (pgBerth owner) (usedOff tier) (s.rdN (pgBerth owner) (usedOff tier) - n) else s
def overQuota (s : State) (owner tier n : Nat) : Bool :=
  decide (owner < 16) && decide (s.rdN (pgBerth owner) (quotaOff tier) < s.rdN (pgBerth owner) (usedOff tier) + n)

/-- Every range of scratchpad and HBM that is taken: homes, destinations of moves, staging, bound regions, the object table, and
granules withheld at bring-up. -/
def takenRanges (s : State) : List (Nat × Nat) :=
  (s.objects.filterMap (fun x =>
      if x.2.home != 0 && decide (x.2.tier < 2) then some (placeBits x.2.home.toNat, granules x.2.tier x.2.size * granule x.2.tier) else none))
  ++ (s.tierMoves.filterMap (fun m =>
      if m.dtier < 2 then some (placeBits m.dst.toNat, granules m.dtier (s.obj m.obj).size * granule m.dtier) else none))
  ++ ((List.range 64).filterMap (fun g =>
      if 1 ≤ groupState s g && groupState s g ≤ 6 then
        some (placeBits (s.rd64 (pgGtab g) (gOff g 0x0C)).toNat,
          s.get ⟨pgGtab g, gOff g 0x08, 20, 4⟩ * 2 ^ s.get ⟨pgGtab g, gOff g 0x08, 24, 5⟩)
      else none))
  ++ (((List.range 16).map (fun b => (List.range 16).filterMap (fun n =>
      if regionBound s b n then some (regionBase s b n, regionLen s b n) else none))).flatten)
  ++ (if s.bit ⟨pgTier, 0x008, 0, 1⟩ then [(placeBits (s.rd64 pgTier 0x040).toNat, roundUp (32 * otabLen s) (granule 1))] else [])
  ++ s.withheld.map (fun x => (x.2 * granule x.1, granule x.1))

/-- A place's first address and its size. -/
def placeRange (tier place : Nat) : Nat × Nat := if tier = 0 then (scratchAddr place 0, scratchSize) else (stackAddr place 0, stackSize)

/-- Nothing taken lies in a range. -/
def rangeFree (s : State) (a n : Nat) : Bool := !(takenRanges s).any (fun r => overlap a n r.1 r.2)

/-- The lowest free run of a place that fits: it begins at the place's first address or where a taken range ends. -/
def lowestRun (s : State) (tier place n : Nat) : Option Nat :=
  let p := placeRange tier place
  let len := granules tier n * granule tier
  let starts := p.1 :: (takenRanges s).map (fun r => roundUp (r.1 + r.2) (granule tier))
  (starts.filter (fun a => decide (p.1 ≤ a) && decide (a + len ≤ p.1 + p.2) && rangeFree s a len)).foldl
    (fun (b : Option Nat) a => match b with
      | none => some a
      | some x => some (min x a)) none

/-- The run of a request: at ARG, or the lowest (R322). A stack in test accepts no allocation (R330). -/
def findRun (s : State) (tier place n : Nat) (arg : W64) : Option Nat :=
  if tier = 1 && s.bit ⟨pgHs place, 0x00C, 0, 1⟩ then none
  else if arg = 0 then lowestRun s tier place n
  else
    let p := placeRange tier place
    let a := placeBits arg.toNat
    let len := granules tier n * granule tier
    if ownChip s arg.toNat && arg.toNat / 2 ^ 50 == 0 && p.1 ≤ a && a + len ≤ p.1 + p.2 && rangeFree s a len then some a else none

/-- The address of a run as HOME shows it: [49:48] = 3. -/
def homeAddr (a : Nat) : W64 := BitVec.ofNat 64 (a + 3 * 2 ^ 48)

/-- Largest object of a tier (R313). -/
def largest (tier : Nat) : Nat := if tier = 0 then scratchSize else stackSize

/-! Completion. -/

def isReq (r q : TierReq) : Bool := r.ring == q.ring && r.pos == q.pos

/-- A request completes: STATUS in its ring, LAST_CODE of its object, the host ring's events (R320, R340). -/
def completeReq (s : State) (r : TierReq) (code cause : Nat) : State :=
  let a := reqAddr s r.ring r.pos
  let s := if onePlace a 32 then memWrite s (a + 24) (bytesLE 4 (code + 2 ^ 16 + cause * 2 ^ 17)) else s
  let s := { s with tierQ := s.tierQ.filter (fun q => !isReq q r) }
  let e := s.obj r.obj
  let s := if e.state = osFree then s else s.setObj r.obj { e with lastCode := BitVec.ofNat 16 code }
  if r.ring < 16 then s
  else if code = 0 then raise s pgTier 0 0
  else if code = 0x7007 || code = 0x2107 then
    let s := if s.get ⟨pgTier, 0x01C, 0, 16⟩ = 0 then s.wrN pgTier 0x094 r.obj else s
    raise s pgTier 3 code
  else s

/-- An event of the TIER page about an object. -/
def tierEvent (s : State) (bit code obj tile extent : Nat) : State :=
  let s := if s.get ⟨pgTier, 0x01C, 0, 16⟩ = 0 then s.wrN pgTier 0x094 obj else s
  raiseWith s pgTier bit code (BitVec.ofNat 32 obj, BitVec.ofNat 32 tile, BitVec.ofNat 32 extent, 0)

/-! Order (R321). -/

/-- A WAIT that has been checked and waits does not hold its object's order. -/
def parked (r : TierReq) : Bool := r.op == toWait && r.active

/-- The request at the head of an object's order. -/
def headReq (s : State) (obj : Nat) : Option TierReq := s.tierQ.find? (fun r => r.obj == obj && !parked r)

/-- A WAIT is answered: the object is HOME in its tier, has been lost, or is FREE again (R322, R336). -/
def waitAnswer (s : State) (r : TierReq) : Option (Nat × Nat) :=
  let e := s.obj r.obj
  if e.state = osHome && e.tier == r.dtier then some (0, 0)
  else if e.state = osLost then some (e.lossCode.toNat, 0)
  else if e.state = osFree then some (0x7007, 3)
  else none

/-- Every parked WAIT that is answered completes. -/
def settleTier (s : State) : State :=
  s.tierQ.foldl (fun t r => if parked r then
      (match waitAnswer t r with
        | some (c, k) => completeReq t r c k
        | none => t)
    else t) s

/-- OP is one of R320. -/
def opKnown (r : TierReq) : Bool := 1 ≤ r.op && r.op ≤ 9

/-- Take every posted request of a ring, in order; one with a reserved OP fails its check (R320, R321; log 48). -/
def takeRing (s : State) (ring : Nat) : State :=
  if !s.bit fTierReady then s
  else
    let n := (ringTail s ring + 2 ^ 16 - ringHead s ring) % 2 ^ 16
    iterate n (fun _ t =>
      let pos := ringHead t ring
      let r := tierReqOf ring pos (t.bytes (reqAddr t ring pos) 32)
      let t := setRingHead t ring ((pos + 1) % 2 ^ 16)
      let t := { t with tierQ := t.tierQ ++ [r] }
      if opKnown r && decide (r.obj < otabLen t) then t else completeReq t r 0x7007 1) s

/-- A write of TQ_TAIL or HQ_TAIL (R320 by the rule of R268): a TAIL past the ring's size is ignored. -/
def writeRingTail (ring : Nat) (s : State) (v : W32) : State :=
  let t := v.toNat % 2 ^ 16
  if 2 ^ ringLog2 s ring < (t + 2 ^ 16 - ringHead s ring) % 2 ^ 16 then s
  else takeRing (setRingTail s ring t) ring

def execTqTail (b : Fin 16) (a : Access) (s : State) : Result := hostWrite (pgBerth b.val) 0x668 a (writeRingTail b.val) s
def execTqDb (b : Fin 16) (a : Access) (s : State) : Result := doorbellWrite (pgBerth b.val) (0x1100 + 4 * b.val) a (writeRingTail b.val) s
def execHqTail (a : Access) (s : State) : Result := hostWrite pgTier 0x05C a (writeRingTail 16) s
def execHqDb (a : Access) (s : State) : Result := doorbellWrite pgTier 0x1140 a (writeRingTail 16) s

/-! The object table (R316). -/

/-- A write of CTRL: EN stays set until chip reset; REQUEUE_MAX is at least 1. -/
def writeTierCtrl (s : State) (v : W32) : State :=
  let s := s.put ⟨pgTier, 0x008, 8, 8⟩ (max 1 (bitsOf v.toNat 8 8))
  if v.getLsbD 0 then s.put ⟨pgTier, 0x008, 0, 1⟩ 1 else s

def execTierEn (a : Access) (s : State) : Result := hostWrite pgTier 0x008 a writeTierCtrl s

def execOtabReady (s : State) : Result :=
  if s.bit ⟨pgTier, 0x008, 0, 1⟩ && !s.bit fTierReady then
    finish (iterate 17 (fun ring t => takeRing t ring) ({ s with objects := [] }.put fTierReady 1))
  else .next s

/-! Checks (R321, R322). -/

/-- States in which an operation is accepted. -/
def accepted (op st : Nat) : Bool :=
  match op with
  | 1 => st == osFree
  | 2 => st == osHome || st == osLost || st == osSupply
  | 3 => st == osHome
  | 4 => st == osHome
  | 5 => st == osHome
  | 6 => st == osLost
  | 7 => st == osSupply
  | 8 => st == osHome || st == osSupply
  | _ => st != osFree

/-- The size that cause 4 judges: ALLOC's ARG, the object's own otherwise. -/
def reqSize (s : State) (r : TierReq) : Nat := if r.op = toAlloc then r.arg.toNat else (s.obj r.obj).size

/-- The operation places an object. -/
def placing (r : TierReq) : Bool := r.op == toAlloc || r.op == toMove || r.op == toRestore

/-- Cause 1. -/
def reqFormat (r : TierReq) : Bool :=
  !r.clean || !opKnown r
    || (r.op == toAlloc && (decide (r.tileLog2 < 12) || decide (22 < r.tileLog2)))
    || (r.op != toAlloc && r.tileLog2 != 0)
    || ((r.op == toMove || r.op == toRestore) && r.arg.toNat % granule r.dtier != 0)
    || (r.op == toShare && r.arg.toNat / 2 ^ 16 != 0)
    || ((r.op == toFree || r.op == toPin || r.op == toUnpin || r.op == toSupplied || r.op == toWait) && r.arg != 0)

/-- Cause 2; a FREE object has no owner. -/
def reqPermission (s : State) (r : TierReq) : Bool :=
  let e := s.obj r.obj
  e.state != osFree && e.owner != ringOwner r.ring &&
    !(decide (r.ring < 16) && e.share.getLsbD r.ring && (r.op == toPin || r.op == toUnpin || r.op == toWait))

/-- Cause 4. -/
def reqSizeBad (s : State) (r : TierReq) : Bool :=
  let n := reqSize s r
  let tl := if r.op = toAlloc then r.tileLog2 else (s.obj r.obj).tileLog2
  placing r && (n == 0 || n % 2 ^ tl != 0 || decide (largest r.dtier < n))

/-- Cause 5. -/
def reqPlaceBad (s : State) (r : TierReq) : Bool :=
  let owner := if r.op = toAlloc then ringOwner r.ring else (s.obj r.obj).owner
  placing r && (match r.dtier with
    | 0 => decide (64 ≤ r.dplace) || clusterOwner s r.dplace != owner
    | 1 => decide (32 ≤ r.dplace) || !stackInService s r.dplace
    | 2 => r.dplace != 0 || r.op != toMove
    | _ => true)

/-- The first failing cause, 0 for none. -/
def reqCause (s : State) (r : TierReq) : Nat :=
  let e := s.obj r.obj
  if reqFormat r then 1
  else if reqPermission s r then 2
  else if !accepted r.op e.state || (r.op == toPin && e.pins == 255) || (r.op == toUnpin && e.pins == 0) then 3
  else if reqSizeBad s r then 4
  else if reqPlaceBad s r then 5
  else 0

/-- Serve the request at a ring position when it stands at the head of its object's order and asks for `op`: `effect` is what it
does once it has passed the checks. -/
def serve (ring : Fin 17) (pos : BitVec 16) (op : Nat) (effect : TierReq → ObjEntry → State → State) (s : State) : Result :=
  match s.tierQ.find? (fun r => r.ring == ring.val && r.pos == pos.toNat) with
  | none => .next s
  | some r =>
    if r.op ≠ op || r.active || headReq s r.obj ≠ some r then .next s
    else
      let c := reqCause s r
      if c ≠ 0 then finish (settleTier (completeReq s r 0x7007 c))
      else finish (settleTier (effect r (s.obj r.obj) s))

/-- Mark the request as being carried out. -/
def activate (s : State) (r : TierReq) : State :=
  { s with tierQ := s.tierQ.map (fun q => if isReq q r then { q with active := true } else q) }

/-- Write zeros over a range, whole units of the check code included. -/
def zeroWrite (s : State) (a n : Nat) : State :=
  let s := countHbm (s.zeroRange a n) a n 0x060
  { s with poison := s.poison.filter (fun u => !(decide (a ≤ 32 * u) && decide (32 * u + 32 ≤ a + n))) }

/-! ALLOC, FREE, PIN, UNPIN, RESTORE, SUPPLIED, SHARE, WAIT (R322). -/

def doAlloc (r : TierReq) (_ : ObjEntry) (s : State) : State :=
  let owner := ringOwner r.ring
  let n := granules r.dtier r.arg.toNat
  if overQuota s owner r.dtier n then completeReq s r 0x2107 0
  else match findRun s r.dtier r.dplace r.arg.toNat 0 with
    | none => completeReq s r 0x7003 0
    | some a =>
      let s := charge s owner r.dtier n
      let s := s.setObj r.obj { ObjEntry.free with home := homeAddr a, size := r.arg.toNat, tier := r.dtier, tileLog2 := r.tileLog2, owner := owner }
      activate s r

def execAlloc (ring : Fin 17) (pos : BitVec 16) (s : State) : Result := serve ring pos toAlloc doAlloc s

/-- ALLOC_DONE: the run is zero and the object enters HOME. -/
def execAllocDone (obj : BitVec 20) (s : State) : Result :=
  match headReq s obj.toNat with
  | none => .next s
  | some r =>
    if r.op ≠ toAlloc || !r.active then .next s
    else
      let e := s.obj obj.toNat
      let s := zeroWrite s (placeBits e.home.toNat) (granules e.tier e.size * granule e.tier)
      let s := s.setObj obj.toNat { e with state := osHome }
      finish (settleTier (completeReq s r 0 0))

/-- Erase an object's bytes in flash. -/
def eraseFlash (s : State) (handle : Nat) : State := { s with flash := storeKeep (fun k => k / 2 ^ 36 != handle) s.flash }

/-- Release an object's home. -/
def releaseHome (s : State) (e : ObjEntry) : State :=
  let s := if e.home = 0 then s else uncharge s e.owner e.tier (granules e.tier e.size)
  if e.tier = 2 && e.home != 0 then eraseFlash s e.home.toNat else s

def doFree (r : TierReq) (e : ObjEntry) (s : State) : State :=
  if 0 < e.pins then completeReq s r 0x7004 0
  else
    let s := completeReq s r 0 0
    (releaseHome s e).setObj r.obj ObjEntry.free

def execFree (ring : Fin 17) (pos : BitVec 16) (s : State) : Result := serve ring pos toFree doFree s

def doPin (r : TierReq) (e : ObjEntry) (s : State) : State := completeReq (s.setObj r.obj { e with pins := e.pins + 1 }) r 0 0
def execPin (ring : Fin 17) (pos : BitVec 16) (s : State) : Result := serve ring pos toPin doPin s

def doUnpin (r : TierReq) (e : ObjEntry) (s : State) : State := completeReq (s.setObj r.obj { e with pins := e.pins - 1 }) r 0 0
def execUnpin (ring : Fin 17) (pos : BitVec 16) (s : State) : Result := serve ring pos toUnpin doUnpin s

def doRestore (r : TierReq) (e : ObjEntry) (s : State) : State :=
  let n := granules r.dtier e.size
  if overQuota s e.owner r.dtier n then completeReq s r 0x2107 0
  else match findRun s r.dtier r.dplace e.size r.arg with
    | none => completeReq s r 0x7003 0
    | some a =>
      let s := charge s e.owner r.dtier n
      completeReq (s.setObj r.obj { e with state := osSupply, home := homeAddr a, tier := r.dtier, progress := 0 }) r 0 0

def execRestore (ring : Fin 17) (pos : BitVec 16) (s : State) : Result := serve ring pos toRestore doRestore s

def doSupplied (r : TierReq) (e : ObjEntry) (s : State) : State :=
  completeReq (s.setObj r.obj { e with state := osHome, gen := e.gen + 1 }) r 0 0
def execSupplied (ring : Fin 17) (pos : BitVec 16) (s : State) : Result := serve ring pos toSupplied doSupplied s

/-- The owner's own bit of SHARE is not stored. -/
def shareMask (owner : Nat) (arg : W64) : BitVec 16 :=
  let m : BitVec 16 := arg.setWidth 16
  if owner < 16 then m &&& ~~~(BitVec.ofNat 16 (2 ^ owner)) else m

def doShare (r : TierReq) (e : ObjEntry) (s : State) : State := completeReq (s.setObj r.obj { e with share := shareMask e.owner r.arg }) r 0 0
def execShare (ring : Fin 17) (pos : BitVec 16) (s : State) : Result := serve ring pos toShare doShare s

/-- WAIT is parked; `settleTier` answers it. -/
def doWait (r : TierReq) (_ : ObjEntry) (s : State) : State := activate s r
def execWait (ring : Fin 17) (pos : BitVec 16) (s : State) : Result := serve ring pos toWait doWait s

/-! Moves (R323 to R326). -/

/-- The flash's spares are low (R338). -/
def spareLow (s : State) : Bool := decide (s.rdN pgFlash 0x050 < s.rdN pgFtl 0x050)

/-- Extents not charged to any object (FLASH.FREE_EXT). -/
def freeExtents (s : State) : Nat :=
  if s.bit ⟨pgFlash, 0x00C, 0, 1⟩ then
    s.rdN pgFlash 0x044 - ((s.objects.map (fun x => if x.2.tier = 2 && x.2.home != 0 then granules 2 x.2.size else 0)).sum
      + (s.tierMoves.map (fun m => if m.dtier = 2 then granules 2 (s.obj m.obj).size else 0)).sum)
  else 0

/-- The object already lives where a MOVE asks. -/
def alreadyThere (e : ObjEntry) (r : TierReq) : Bool :=
  e.tier == r.dtier && (r.arg == 0 || r.arg == e.home) && (match r.dtier with
    | 2 => true
    | t => let p := placeRange t r.dplace
           inRange (placeBits e.home.toNat) p.1 p.2)

/-- A destination: an address in scratchpad or HBM, a handle in flash. -/
def findDst (s : State) (r : TierReq) (e : ObjEntry) : Option W64 :=
  if r.dtier = 2 then
    (if spareLow s || decide (freeExtents s < granules 2 e.size) then none else some ((Config.flashHandle r.obj (e.gen.toNat + 1)).setWidth 64))
  else (findRun s r.dtier r.dplace e.size r.arg).map homeAddr

def doMove (r : TierReq) (e : ObjEntry) (s : State) : State :=
  if 0 < e.pins then completeReq s r 0x7004 0
  else if alreadyThere e r then completeReq s r 0 0
  else if overQuota s e.owner r.dtier (granules r.dtier e.size) then completeReq s r 0x2107 0
  else if 64 ≤ s.tierMoves.length then s
  else match findDst s r e with
    | none => completeReq s r 0x7003 0
    | some d =>
      let s := charge s e.owner r.dtier (granules r.dtier e.size)
      let s := s.setObj r.obj { e with state := osMoving, progress := 0 }
      activate { s with tierMoves := s.tierMoves ++ [{ obj := r.obj, dtier := r.dtier, dplace := r.dplace, dst := d, tiles := [], requeued := 0 }] } r

def execTierMove (ring : Fin 17) (pos : BitVec 16) (s : State) : Result := serve ring pos toMove doMove s

def moveOf (s : State) (obj : Nat) : Option TierMove := s.tierMoves.find? (fun m => m.obj == obj)
def setMove (s : State) (m : TierMove) : State := { s with tierMoves := s.tierMoves.map (fun x => if x.obj = m.obj then m else x) }
def tileState (m : TierMove) (t : Nat) : TileState := storeGet m.tiles t .waiting
def setTile (s : State) (m : TierMove) (t : Nat) (x : TileState) : State := setMove s { m with tiles := storePut m.tiles t x .waiting }
def tileCount (e : ObjEntry) : Nat := e.size / 2 ^ e.tileLog2
/-- Tiles in flight. -/
def inFlight (m : TierMove) : Nat := (m.tiles.filter (fun x => x.2 == .sailing || x.2 == .landed)).length

/-- The name of a tile's consignment (R323). -/
def tileKey' (s : State) (obj tile : Nat) : ConsKey :=
  { src := BitVec.ofNat 16 (nodeId s), kind := 3, stream := BitVec.ofNat 16 obj,
    seq := BitVec.ofNat 32 (obj / 2 ^ 16 * 2 ^ 28 + tile % 2 ^ 28) }

/-- A move is over: its consignments under way are dropped on both sides, its destination is as `keep` says. -/
def endMove (s : State) (m : TierMove) (keep : Bool) : State :=
  let mine := fun (k : ConsKey) => k.kind == 3 && k.src.toNat == nodeId s && k.stream.toNat == m.obj % 2 ^ 16
    && k.seq.toNat / 2 ^ 28 == m.obj / 2 ^ 16
  let e := s.obj m.obj
  let s := { s with tierMoves := s.tierMoves.filter (fun x => x.obj != m.obj), held := s.held.filter (fun h => !mine h.key),
                    landing := s.landing.filter (fun l => !mine l.key) }
  if keep then s
  else
    let s := uncharge s e.owner m.dtier (granules m.dtier e.size)
    if m.dtier = 2 then eraseFlash s m.dst.toNat else s

/-- A move fails and the object stays HOME in its source (R325, R326). -/
def failMove (s : State) (m : TierMove) (code : Nat) : State :=
  let s := endMove s m false
  let s := s.setObj m.obj { s.obj m.obj with state := osHome, progress := 0 }
  match headReq s m.obj with
  | some r => settleTier (if r.op = toMove && r.active then completeReq s r code 0 else s)
  | none => settleTier s

/-- The object is lost (R335): the move, and every request queued on it, complete with the code. -/
def loseObject (s : State) (m : TierMove) (code tile : Nat) : State :=
  let s := endMove s m false
  let e := s.obj m.obj
  let s := releaseHome s e
  let s := s.setObj m.obj { e with state := osLost, home := 0, tier := 0, progress := 0, lossCode := BitVec.ofNat 16 code }
  let s := (s.tierQ.filter (fun r => r.obj == m.obj)).foldl (fun t r => completeReq t r code 0) s
  let s := s.incSat pgTier 0x090
  tierEvent s (if code = 0x7001 then 1 else 2) code m.obj tile (tile * 2 ^ e.tileLog2 / granule 2)

/-- Source and destination of a tile in memory; none at a flash end. -/
def tileSrc (e : ObjEntry) (t : Nat) : Option Nat := if e.tier < 2 then some (placeBits e.home.toNat + t * 2 ^ e.tileLog2) else none
def tileDst (m : TierMove) (e : ObjEntry) (t : Nat) : Option Nat := if m.dtier < 2 then some (placeBits m.dst.toNat + t * 2 ^ e.tileLog2) else none

/-- Bytes of a tile as its source gives them. -/
def tileBytes (s : State) (e : ObjEntry) (t : Nat) : List Byte :=
  match tileSrc e t with
  | some a => s.bytes a (2 ^ e.tileLog2)
  | none => (List.range (2 ^ e.tileLog2)).map (fun i => storeGet s.flash (e.home.toNat * 2 ^ 36 + t * 2 ^ e.tileLog2 + i) 0)

/-- The compute die of a place address. -/
def dieOf (a : Nat) : Nat :=
  match placeOf a with
  | some (.scratch cl _) => cl / 8
  | some (.hbm k _) => k / 4
  | none => 0

/-- The die whose local port a tile arrives at: the destination's; for a flash end, which has no compute die, the source's (log 48). -/
def tileDie (m : TierMove) (e : ObjEntry) (t : Nat) : Nat :=
  match tileDst m e t with
  | some a => dieOf a
  | none => match tileSrc e t with
    | some a => dieOf a
    | none => 0

/-- Nothing holds the tile back: no held source or frozen range in it, no stopped place at either end (R325). -/
def tileClear (s : State) (m : TierMove) (e : ObjEntry) (t : Nat) : Bool :=
  (match tileSrc e t with
    | some a => !heldBlocks s a (2 ^ e.tileLog2) && !frozen s a (2 ^ e.tileLog2) && !placeStopped s a
    | none => true)
  && (match tileDst m e t with
    | some a => !placeStopped s a
    | none => true)

/-- The tile may sail: staged from flash, not yet sailed, or dirty, and every tile before it has sailed (R323). -/
def tileReady (m : TierMove) (e : ObjEntry) (t : Nat) : Bool :=
  let now := tileState m t
  let first := if e.tier = 2 then TileState.staged else .waiting
  decide (t < tileCount e) &&
    (now == .dirty || (now == first && (List.range t).all (fun u => tileState m u != .waiting && tileState m u != .staged)))

/-- The tile sails (R323), or the object is lost with its source's uncorrectable data (R335). -/
def sailTile (s : State) (m : TierMove) (t : Nat) : State :=
  let e := s.obj m.obj
  let again := tileState m t == .dirty
  let m := if again then { m with requeued := m.requeued + 1 } else m
  if again && decide (s.get ⟨pgTier, 0x008, 8, 8⟩ < m.requeued) then tierEvent (failMove s m 0x7006) 4 0x7006 m.obj t 0
  else
    let bad := match tileSrc e t with
      | some a => poisoned s a (2 ^ e.tileLog2)
      | none => false
    if bad then loseObject (uncorrectable s ((tileSrc e t).getD 0)) m 0x7002 t
    else
      let s := match tileSrc e t with
        | some a => countHbm s a (2 ^ e.tileLog2) 0x058
        | none => s
      let k := tileKey' s m.obj t
      let place := fun (a : Option Nat) => match a with
        | some x => placeCode x
        | none => 64
      let hdr : ConsHdr :=
        { kind := 3, stream := m.obj % 2 ^ 16, seq := k.seq, due := s.now, len := 2 ^ (e.tileLog2 - 12), attempt := 0, berth := e.owner,
          src := nodeId s, dst := nodeId s, srcPlace := place (tileSrc e t), dstPlace := place (tileDst m e t),
          addr := match tileDst m e t with
            | some a => (homeAddr a).toNat
            | none => 0 }
      let s := (sailNew s (16 + tileDie m e t) (hdrBytes hdr) (tileBytes s e t) ((tileSrc e t).getD 0)
        (if (tileSrc e t).isSome then 2 ^ e.tileLog2 else 0) s.now).2
      setTile s m t .sailing

def execTileSail (obj : BitVec 20) (tile : Nat) (s : State) : Result :=
  match moveOf s obj.toNat with
  | none => .next s
  | some m =>
    let e := s.obj obj.toNat
    if running s && tileReady m e tile && tileClear s m e tile && decide (inFlight m < 16)
        && decide ((s.tierMoves.map inFlight).sum < 256) then finish (sailTile s m tile)
    else .next s

/-- PROGRESS: tiles confirmed. -/
def setProgress (s : State) (obj : Nat) : State :=
  match moveOf s obj with
  | none => s
  | some m => s.setObj obj { s.obj obj with progress := (m.tiles.filter (fun x => x.2 == .confirmed)).length }

/-- A tile's consignment is confirmed: in memory it is done, in the harbour buffer it waits to be programmed (R324). -/
def tileConfirmed (s : State) (obj tile : Nat) : State :=
  match moveOf s obj with
  | none => s
  | some m => setProgress (setTile s m tile (if m.dtier = 2 then .landed else .confirmed)) obj

/-- A tile is exhausted: the move ends with the consignment's code (R325). -/
def tileExhausted (s : State) (obj code : Nat) : State :=
  match moveOf s obj with
  | none => s
  | some m => failMove s m code

/-- The move a tile consignment belongs to: object and tile, with its landing address (R323). -/
def tileMatch (s : State) (k : ConsKey) (len : Nat) : Option (Nat × Nat × Option Nat) :=
  let obj := k.seq.toNat / 2 ^ 28 * 2 ^ 16 + k.stream.toNat
  let t := k.seq.toNat % 2 ^ 28
  match moveOf s obj with
  | none => none
  | some m =>
    let e := s.obj obj
    if k.kind = 3 && k.src.toNat == nodeId s && tileState m t == .sailing && len == 2 ^ (e.tileLog2 - 12) then some (obj, t, tileDst m e t)
    else none

/-- Every tile is confirmed and none dirty (R324). -/
def flipDue (s : State) (m : TierMove) : Bool :=
  (List.range (tileCount (s.obj m.obj))).all (fun t => tileState m t == .confirmed)

/-- The flip. -/
def flipMove (s : State) (m : TierMove) : State :=
  let e := s.obj m.obj
  let s := endMove s m true
  let s := releaseHome s e
  let s := s.setObj m.obj { e with state := osHome, home := m.dst, tier := m.dtier, gen := e.gen + 1 }
  match headReq s m.obj with
  | some r => settleTier (if r.op = toMove && r.active then completeReq s r 0 0 else s)
  | none => settleTier s

def execFlip (obj : BitVec 20) (s : State) : Result :=
  match moveOf s obj.toNat with
  | some m => if flipDue s m then finish (flipMove s m) else .next s
  | none => .next s

/-! Flash (R333 to R338). -/

/-- FLASH_READ: the tile is in the staging area, or the object is lost. -/
def execFlashRead (obj : BitVec 20) (tile : Nat) (retries : Fin 17) (good : Bool) (s : State) : Result :=
  match moveOf s obj.toNat with
  | none => .next s
  | some m =>
    let e := s.obj obj.toNat
    if e.tier ≠ 2 || decide (tileCount e ≤ tile) || (tileState m tile != .waiting && tileState m tile != .dirty) then .next s
    else
      let s := s.addSat pgFlash 0x058 retries.val
      if good then finish (setTile s m tile .staged)
      else
        let s := s.incSat pgFlash 0x05C
        finish (loseObject (raise s pgFlash 0 0x7001) m 0x7001 tile)

/-- Store a tile's bytes in flash. -/
def programTile (s : State) (handle : Nat) (off : Nat) : List Byte → State
  | [] => s
  | b :: bs => programTile { s with flash := storePut s.flash (handle * 2 ^ 36 + off) b 0 } handle (off + 1) bs

/-- A program fails: the block is retired, and spares may fall below SPARE_MIN (R333, R338). -/
def programFailed (s : State) : State :=
  let was := spareLow s
  let s := (s.incSat pgFlash 0x054).incSat pgFlash 0x04C
  let s := s.wrN pgFlash 0x050 (s.rdN pgFlash 0x050 - 1)
  let s := raise s pgFlash 1 0x700C
  if !was && spareLow s then raise s pgFlash 2 0x7008 else s

def execFlashProgram (obj : BitVec 20) (tile : Nat) (good : Bool) (s : State) : Result :=
  match moveOf s obj.toNat with
  | none => .next s
  | some m =>
    let e := s.obj obj.toNat
    if m.dtier ≠ 2 || tileState m tile != .landed then .next s
    else if good then
      finish (setProgress (setTile (programTile s m.dst.toNat (tile * 2 ^ e.tileLog2) (tileBytes s e tile)) m tile .confirmed) obj.toNat)
    else finish (programFailed s)

/-- A maintenance run begins or ends (R337); the erase counts it leaves are not the manual's to give (log 6). -/
def maintain (s : State) (wear starts : Bool) : State :=
  let s := s.putBit ⟨pgFtl, 0x00C, 0, 1⟩ starts
  let s := if starts then s
    else
      let s := s.incSat pgFtl (if wear then 0x058 else 0x054)
      let a := s.draw
      let b := a.2.draw
      (b.2.wr pgFtl 0x05C (a.1.setWidth 32)).wr pgFtl 0x060 (b.1.setWidth 32)
  logAdapt (raise s pgFtl 0 0x7009) pgFtl (!starts)

def execFtlMaint (wear starts : Bool) (s : State) : Result :=
  let active := s.bit ⟨pgFtl, 0x00C, 0, 1⟩
  if (starts && s.bit ⟨pgFtl, 0x008, 0, 1⟩ && s.bit ⟨pgFlash, 0x00C, 0, 1⟩ && !active) || (!starts && active) then finish (maintain s wear starts)
  else .next s

/-- FLASH.CTRL.EN: the flash comes into service; the channels, blocks and spares it finds are free values (log 6). -/
def writeFlashCtrl (s : State) (v : W32) : State :=
  let on := v.getLsbD 0
  let was := s.bit ⟨pgFlash, 0x008, 0, 1⟩
  let s := s.putBit ⟨pgFlash, 0x008, 0, 1⟩ on
  if on && !was then
    let a := s.draw
    let b := a.2.draw
    let c := b.2.draw
    ((c.2.wrN pgFlash 0x040 (a.1.toNat % 2 ^ 16)).wr pgFlash 0x04C (b.1.setWidth 32)).wr pgFlash 0x050 (c.1.setWidth 32)
      |>.put ⟨pgFlash, 0x00C, 0, 1⟩ 1
  else if !on then s.put ⟨pgFlash, 0x00C, 0, 1⟩ 0
  else s

def execFlashEn (a : Access) (s : State) : Result := hostWrite pgFlash 0x008 a writeFlashCtrl s

/-! Traffic generators (R330, R332). -/

abbrev fTest (k : Nat) : Fld := ⟨pgHs k, 0x008, 0, 1⟩
abbrev fInTest (k : Nat) : Fld := ⟨pgHs k, 0x00C, 0, 1⟩
def genOff (ch o : Nat) : Nat := 0x400 + 32 * ch + o

/-- Some granule of the stack is taken by an object, a berth or the object table. -/
def stackTaken (s : State) (k : Nat) : Bool :=
  (takenRanges { s with withheld := [] }).any (fun r => overlap r.1 r.2 (stackAddr k 0) stackSize)

/-- A write of HSk.CTRL. -/
def writeTest (k : Nat) (s : State) (v : W32) : State :=
  if v.getLsbD 0 then
    (if s.bit (fTest k) then s
     else if stackTaken s k then raiseWith s pgTier 3 0x7007 (3, BitVec.ofNat 32 k, 0, 0)
     else (s.put (fTest k) 1).put (fInTest k) 1)
  else iterate 32 (fun ch t => t.put ⟨pgHs k, genOff ch 0x14, 0, 1⟩ 0) ((s.put (fTest k) 0).put (fInTest k) 0)

def execTest (k : Fin 32) (a : Access) (s : State) : Result := hostWrite (pgHs k.val) 0x008 a (writeTest k.val) s

/-- A write of GMODE: READ_PCT is at most 100; GO starts the generator while the stack is in test. -/
def writeGmode (k ch : Nat) (s : State) (v : W32) : State :=
  let n := v.toNat
  let s := s.wrN (pgHs k) (genOff ch 0) (n % 256 + min 100 (bitsOf n 8 8) * 256)
  if v.getLsbD 31 && s.bit (fTest k) then
    ((s.wrN (pgHs k) (genOff ch 0x14) 1).wr (pgHs k) (genOff ch 0x18) 0).wr (pgHs k) (genOff ch 0x1C) 0
  else s

def execGo (k ch : Fin 32) (a : Access) (s : State) : Result := hostWrite (pgHs k.val) (genOff ch.val 0) a (writeGmode k.val ch.val) s

/-- The units a generator visits in a pass; with RANDOM, those of its range (log 48). -/
def genUnits (s : State) (k ch : Nat) : List Nat :=
  let base := s.rdN (pgHs k) (genOff ch 4)
  let stride := if s.bit ⟨pgHs k, genOff ch 0, 7, 1⟩ then 1 else s.rdN (pgHs k) (genOff ch 0xC)
  (List.range (s.rdN (pgHs k) (genOff ch 8))).map (fun i => (base + i * stride) % 2 ^ 23)

/-- Place address of a unit of a channel (R327). -/
def unitAddr (k ch u : Nat) : Nat := stackAddr k (u * 8192 + ch * 256)

/-- What a generator has written: zeros or ones where it writes its whole range in order with that pattern, free values otherwise
(log 6). -/
def genWrites (s : State) (k ch : Nat) : State :=
  let mode := s.rdN (pgHs k) (genOff ch 0)
  let op := bitsOf mode 0 2
  let pat := bitsOf mode 2 3
  let plain := (op == 1 || op == 2) && (pat == 2 || pat == 3) && bitsOf mode 5 2 == 3 && bitsOf mode 7 1 == 0
  if op = 0 then s
  else (genUnits s k ch).foldl (fun t u =>
    if plain then memWrite t (unitAddr k ch u) (List.replicate 256 (if pat = 2 then 0 else 0xFF))
    else memWrite { t with fresh := t.fresh + 256 } (unitAddr k ch u)
      ((List.range 256).map (fun i => (Config.freeValue (t.fresh + i)).setWidth 8))) s

/-- A generator ends: DONE, or FAIL with the mismatches its checker found (only OP 2 checks). -/
def endGenerator (s : State) (k ch : Nat) (errors : W32) (first : BitVec 23) : State :=
  let fail := errors != 0 && bitsOf (s.rdN (pgHs k) (genOff ch 0)) 0 2 == 2
  let s := genWrites s k ch
  if fail then
    let s := (s.wrN (pgHs k) (genOff ch 0x14) 4).addSat (pgHs k) (genOff ch 0x18) errors.toNat
    raise (s.wrN (pgHs k) (genOff ch 0x1C) first.toNat) (pgHs k) 2 0x700B
  else
    let s := s.wrN (pgHs k) (genOff ch 0x14) 2
    if (List.range 32).all (fun c => s.rdN (pgHs k) (genOff c 0x14) == 0 || s.rdN (pgHs k) (genOff c 0x14) == 2) then raise s (pgHs k) 1 0 else s

def execGeneratorDone (k ch : Fin 32) (errors : BitVec 32) (first : BitVec 23) (s : State) : Result :=
  if s.bit ⟨pgHs k.val, genOff ch.val 0x14, 0, 1⟩ then finish (endGenerator s k.val ch.val errors first) else .next s

end Sys2Proof.Machine
end

