-- ==== Sys2Proof/Machine/Consign.lean ====
section
/-! DEFINITION. Consignments at their landing chip and at their source (02 R53 to R66, 11 R292 to R294, R309): headers, flits,
trailers, confirmation, the notices that come back; and TOPO.CMD.APPLY (11 R304). -/

namespace Sys2Proof.Machine

/-! Outcomes. -/

/-- DUE is reached (R59; 01 R485). A relay consignment's is, while the tide is invalid (15 R409). -/
def dueReached (s : State) (l : Landing) : Bool := reachedNow s (landHdr l).due || (l.target == .relay && !s.tideValid)

/-- Ticks by which a landing was checked after DUE (09 R251, 10 R277). -/
def lateBy (l : Landing) : Option W64 :=
  match l.checkedAt with
  | none => none
  | some t => if tideReached t (landHdr l).due && t != (landHdr l).due then some (t - (landHdr l).due) else none

/-- The plaintext word i of a landing as received: relay and local consignments travel unsealed (11 R309, 15 R409, 02 R488). -/
def plainWord (s : State) (l : Landing) (i : Nat) (w : W32) : W32 :=
  if 16 ≤ l.port || l.target == .relay then w
  else
    let h := landHdr l
    cryptWord (linkKeyOf s h.berth) (sealNonce h.src (fieldLE l.sealBlk 8 8)) i w

/-- The payload of a landing. -/
def plainBytes (s : State) (l : Landing) : List Byte :=
  bytesOfWords (l.words.zipIdx.map (fun x => plainWord s l x.2 x.1))

/-- A consignment is confirmed (R59, R60, R77, R81): counters, the notice, the cores that read it, and its chapter's consequence. -/
def confirmLanding (s : State) (l : Landing) : State :=
  let image := plainBytes s l
  let s := dropLanding s l.key
  let s := s.add64 (pgPort l.port) 0x410 1
  let s := countOutcome s l.port l.attempt
  let s := s.emit (.confirmNotice l.key)
  let s := coresConfirm s l.key
  match l.target with
  | .ferry f i k => ferryConfirmed s f i k l.attempt (lateBy l)
  | .coll g t part => collConfirmed s g t part (lateBy l).isSome
  | .tile obj tile => tileConfirmed s obj tile
  | .relay => s.storeImage ((landHdr l).addr % 2 ^ 27) image
  | .absorbed => s

/-- A consignment has ended exhausted: its tier move ends, its ferry counts the replays, a collective waits for its slack (R63). -/
def exhaustEnd (s : State) (l : Landing) (code : Nat) : State :=
  match l.target with
  | .tile obj _ => tileExhausted (dropLanding s l.key) obj code
  | .ferry f _ _ => s.addSat (pgFerry f) 0x08C l.attempt
  | .coll _ _ _ => s
  | .relay => dropLanding s l.key
  | .absorbed => dropLanding s l.key

/-- An attempt fails, with what follows when it was the last (R62, R63). -/
def failLanding (s : State) (l : Landing) : State :=
  let r := failAttempt s l
  if r.1 then exhaustEnd r.2 l 0x3001 else r.2

/-! The header (R55, R82; 09 R249, 10 R271, 12 R323, 15 R409). -/

/-- The landing unit of a place is in reset, or a cluster's die is in P2 (R65; 15 R411, 16 R418). -/
def placeAway (s : State) (a : Nat) : Bool :=
  placeResetting s a || (match placeOf a with
    | some (.scratch cl _) => partState s (cl / 8) == 2
    | _ => false)

/-- A ferry arrival matches nothing (09 R249). -/
def ferryUnexpected (s : State) (k : ConsKey) : State :=
  let f := ((List.range 8).find? (fun f => ferryGroup s f == k.stream.toNat)).getD 0
  raiseWith s (pgFerry f) 5 0x6104 (k.src.setWidth 32, k.stream.setWidth 32, k.seq, 0)

/-- A chunk matches nothing (10 R271). -/
def collUnexpected (s : State) (k : ConsKey) : State :=
  raiseWith s (pgCq (k.stream.toNat % 64)) 6 0x6206 (k.src.setWidth 32, k.stream.setWidth 32, k.seq, 0)

/-- What an arrival is for, where it lands, and the state after the event it raises when it is for nothing. -/
def matchArrival (s : State) (h : ConsHdr) : LandTarget × Option Nat × State :=
  let k := keyOf h
  match h.kind with
  | 1 =>
    match (List.range 8).findSome? (fun f => (landMatch s f k).map (fun x => (f, x.1, x.2))) with
    | some (f, i, j) =>
      let e := entryAt s f i j
      if e.len = h.len then (.ferry f i j, some (placeBits e.addr), s) else (.absorbed, none, ferryUnexpected s k)
    | none => (.absorbed, none, ferryUnexpected s k)
  | 2 =>
    match collMatch s k (h.len * 4096) with
    | some (g, t, part, a) => (.coll g t part, some a, s)
    | none => (.absorbed, none, collUnexpected s k)
  | 3 =>
    match tileMatch s k h.len with
    | some (obj, tile, a) => (.tile obj tile, a, s)
    | none => (.absorbed, none, s)
  | _ => if s.get fStage = 12 then (.relay, none, s) else (.absorbed, none, s)

/-- The channel of a kind (11 R292). -/
def kindChannel (k : Nat) : Nat := if k = 1 then 1 else if k = 2 then 2 else 3

/-- Free the slots of some links that a test names. -/
def freeSlots (s : State) (gone : Nat → Nat × Nat × ConsKey → Bool) : State :=
  iterate 16 (fun n t =>
    let l := t.link n
    if l.slots.any (gone n) then t.setLink n { l with slots := l.slots.filter (fun x => !gone n x) } else t) s

/-- Bind a CSLOT of a link to a consignment (11 R293); whatever held the slot, or the consignment held, is freed. -/
def bindSlot (s : State) (link chan cslot : Nat) (k : ConsKey) : State :=
  let s := freeSlots s (fun n x => x.2.2 == k || (portOf s n == portOf s link && x.1 == chan && x.2.1 == cslot))
  updLink s link (fun l => { l with slots := l.slots ++ [(chan, cslot, k)] })

/-- The receiving port and link of an arrival (R82). -/
def arrivalPort (s : State) : Arrival → Nat × Nat
  | .link n => (portOf s n.val, n.val)
  | .die n => (16 + n.val, 16)

/-- The arrival can take place: a trained link, or for a local one that SRC names this chip (R488). -/
def arrivalOk (s : State) (arr : Arrival) (h : ConsHdr) : Bool :=
  running s && h.dst == nodeId s && 1 ≤ h.kind && h.kind ≤ 4 && 1 ≤ h.len && h.len ≤ 1024 &&
    match arr with
    | .link n => trained s n.val && h.src != nodeId s
    | .die _ => h.src == nodeId s && h.kind == 3

/-- The header of an attempt arrives. -/
def takeHeader (s : State) (arr : Arrival) (cslot : Nat) (hdr sealBlk : List Byte) : State :=
  let h := hdrOf hdr
  let k := keyOf h
  let p := arrivalPort s arr
  let fresh := fun (s : State) (tgt : LandTarget) (addr : Option Nat) =>
    let l : Landing := { key := k, hdr := hdr, sealBlk := sealBlk, port := p.1, link := p.2, cslot := cslot, st := .landing,
                         attempt := h.attempt, words := [], failed := false, target := tgt, checkedAt := none, addr := addr }
    let s := { (dropLanding s k) with landing := (dropLanding s k).landing ++ [l] }
    let s := if p.2 < 16 then bindSlot s p.2 (kindChannel h.kind) cslot k else s
    if tgt = .absorbed then absorbLanding s l else s
  let anew := fun (s : State) =>
    let m := matchArrival s h
    match m.2.1 with
    | some a => if placeAway s a then fresh s .absorbed none else fresh m.2.2 m.1 m.2.1
    | none => fresh m.2.2 m.1 m.2.1
  match findLanding s k with
  | none => anew s
  | some l =>
    if l.target = .absorbed then anew s
    else if l.st = .replaying && h.attempt = l.attempt + 1 then fresh s l.target l.addr
    else s

def execConsignmentHeader (arr : Arrival) (cslot : Fin 16) (hdr sealBlk : List Byte) (s : State) : Result :=
  if hdr.length ≠ 48 || sealBlk.length ≠ 16 then .fault (.illFormed "CONSIGNMENT_HEADER")
  else if arrivalOk s arr (hdrOf hdr) then finish (takeHeader s arr cslot.val hdr sealBlk)
  else .next s

/-! Flits (11 R292 to R294). -/

/-- The fields of a flit's seven header bytes. -/
structure FlitHdr where
  vc : Nat
  type : Nat
  fseq : BitVec 12
  ack : BitVec 12
  nak : Bool
  crvc : Nat
  credits : Nat
  cslot : Nat
  last : Bool
  lanePar : Nat
deriving DecidableEq, Repr

def flitHdr (bytes : List Byte) : FlitHdr :=
  let h := fieldLE bytes 0 7
  { vc := bitsOf h 0 2, type := bitsOf h 2 2, fseq := BitVec.ofNat 12 (bitsOf h 4 12), ack := BitVec.ofNat 12 (bitsOf h 16 12),
    nak := h.testBit 28, crvc := bitsOf h 29 2, credits := bitsOf h 31 6, cslot := bitsOf h 42 4, last := h.testBit 46,
    lanePar := bitsOf h 47 8 }

/-- FCRC matches. -/
def flitGood (bytes : List Byte) : Bool := (crc32c (bytes.take 271)).toNat == fieldLE bytes 271 4

/-- A word and its parity bit hold an odd number of ones (02 R56). -/
def oddParity (w : W32) (p : Bool) : Bool := ((List.range 32).foldl (fun x i => x != w.getLsbD i) p)

/-- Every word of a flit has good parity. -/
def flitParity (bytes : List Byte) : Bool :=
  ((wordsOf ((bytes.drop 7).take 256)).zipIdx).all (fun x => oddParity x.1 ((fieldLE bytes 263 8).testBit x.2))

/-- The parity of each active lane's bits: bit k of the flit rides active lane k mod w. -/
def laneParity (w : Nat) (bytes : List Byte) : Nat :=
  let bits := bytes.zipIdx.map (fun x => ((List.range 8).filter (fun i => x.1.getLsbD i)).map (fun i => (8 * x.2 + i) % w))
  bits.flatten.foldl (fun m j => m ^^^ 2 ^ j) 0

/-- LANE_PAR against the flit before (R301). -/
def countLanes (s : State) (n : Nat) (h : FlitHdr) (good : Bool) (bytes : List Byte) : State :=
  let act := activeLanes s n
  let l := s.link n
  let bad := if good then (act.zipIdx.filter (fun x => (h.lanePar ^^^ l.prevPar.toNat).testBit x.2)).map (fun x => x.1) else []
  let s := updLink s n (fun l =>
    { l with winFlits := l.winFlits + 1, prevPar := BitVec.ofNat 8 (laneParity (linkWidth s n) bytes),
             winErr := bad.foldl (fun m i => storePut m i (storeGet m i 0 + 1) 0) l.winErr })
  bad.foldl (fun t i => t.incSat (pgLnk n) (0x080 + 4 * i)) s

/-- The slots bound on the links of link n's port, whose members carry an attempt's flits in turn (11 R304). -/
def portSlots (s : State) (n : Nat) : List (Nat × Nat × ConsKey) :=
  (((List.range 16).filter (fun m => portOf s m == portOf s n)).map (fun m => (s.link m).slots)).flatten

/-- The landing that a data flit's slot is bound to. -/
def flitLanding (s : State) (n : Nat) (h : FlitHdr) : Option Landing :=
  match ((portSlots s n).find? (fun x => x.1 == h.vc && x.2.1 == h.cslot)) with
  | some x => findLanding s x.2.2
  | none => none

/-- The words of a data flit land (R61, R62): decrypted into memory where the landing lies in memory. -/
def landWords (s : State) (l : Landing) (bytes : List Byte) : State :=
  let ws := wordsOf ((bytes.drop 7).take 256)
  let i := l.words.length
  if l.st ≠ .landing || l.failed || l.target == .absorbed || landLen l < 4 * (i + 64) then s
  else if !flitParity bytes then failLanding s l
  else
    let s := setLanding s { l with words := l.words ++ ws }
    match l.addr with
    | none => s
    | some a => memWrite s (a + 4 * i) (bytesOfWords (ws.zipIdx.map (fun x => plainWord s l (i + x.2) x.1)))

/-- A flit is accepted: counted, acknowledged, its words landed; LAST frees the slot. -/
def acceptFlit (s : State) (n : Nat) (h : FlitHdr) (bytes : List Byte) : State :=
  let target := if h.type = 0 then flitLanding s n h else none
  let s := s.add64 (pgLnk n) 0x058 1
  let s := updLink s n (fun l => { l with rxSeq := h.fseq })
  let s := s.emit (.ack n h.fseq false)
  let s := match target with
    | some l => landWords s l bytes
    | none => s
  if h.type = 0 && h.last then freeSlots s (fun m x => portOf s m == portOf s n && x.1 == h.vc && x.2.1 == h.cslot)
  else s

/-- A flit waits on the ferry channel's credits while its zone is closed (09 R248): it has not been sent. -/
def flitHeld (s : State) (n : Nat) (h : FlitHdr) : Bool :=
  h.type == 0 && match flitLanding s n h with
    | some l => (match l.target with
      | .ferry f i k => !zoneOpened s f i k && l.st == .landing
      | _ => false)
    | none => false

/-- A flit arrives. -/
def takeFlit (s : State) (n : Nat) (bytes : List Byte) : State :=
  let h := flitHdr bytes
  if !flitGood bytes then
    let s := countLanes s n h false bytes
    (s.incSat (pgLnk n) 0x064).emit (.ack n (s.link n).rxSeq true)
  else
    let s := countLanes s n h true bytes
    let s := updLink s n (fun l =>
      { l with credits := l.credits.zipIdx.map (fun x => if x.2 = h.crvc then x.1 + 4 * h.credits else x.1) })
    let s := if h.fseq = (s.link n).rxSeq + 1 then acceptFlit s n h bytes else s
    takeAck s n h.ack h.nak

def execFlitReceive (link : Fin 16) (bytes : List Byte) (s : State) : Result :=
  if bytes.length ≠ 275 then .fault (.illFormed "FLIT_RECEIVE")
  else if running s && trained s link.val && !(flitGood bytes && flitHeld s link.val (flitHdr bytes)) then
    finish (takeFlit s link.val bytes)
  else .next s

/-! The trailer (R57, R59, R62; 11 R309, R310; 14 R392). -/

/-- A failed tag is reported on the key's page (14 R392). -/
def tagFail (s : State) (l : Landing) : State :=
  let h := landHdr l
  let d := (BitVec.ofNat 32 h.src, BitVec.ofNat 32 h.stream, h.seq, BitVec.ofNat 32 (fieldLE l.sealBlk 0 1))
  if h.berth < 16 then raiseWith (s.incSat (pgBerth h.berth) 0x058) (pgBerth h.berth) 4 0x9005 d
  else raiseWith (s.incSat pgSec 0x044) pgSec 2 0x9005 d

/-- A tag is good; a consignment that travels unsealed carries none. -/
def tagGood (s : State) (l : Landing) (tag : BitVec 128) : Bool :=
  16 ≤ l.port || l.target == .relay ||
    let h := landHdr l
    Config.gcmTag (linkKeyOf s h.berth) (sealNonce h.src (fieldLE l.sealBlk 8 8)) l.hdr l.words == tag

/-- Every word has landed and CRC matches: CHECKED, and confirmed at once where DUE is reached. -/
def checkLanding (s : State) (l : Landing) : State :=
  let l := { l with st := .checked, checkedAt := if s.tideValid then some s.now else none }
  let s := coresRedo (setLanding s l) l.key
  if dueReached s l then confirmLanding s l else s

/-- The words of a local consignment are its source's, which is held (R488). -/
def localWords (s : State) (l : Landing) : List W32 :=
  match l.target with
  | .tile obj t => wordsOf (tileBytes s (s.obj obj) t)
  | _ => l.words

/-- The trailer arrives for an attempt that is landing. -/
def takeTrailer (s : State) (l : Landing) (crc : W32) (tag : BitVec 128) : State :=
  if l.target == .absorbed then dropLanding s l.key
  else
    let l := if 16 ≤ l.port then { l with words := localWords s l } else l
    let s := setLanding s l
    let plain := plainBytes s l
    if !tagGood s l tag then failLanding (tagFail s l) l
    else if plain.length ≠ landLen l || consCrc l.hdr plain ≠ crc then failLanding s l
    else
      let s := match l.addr with
        | some a => if 16 ≤ l.port then memWrite s a plain else s
        | none => s
      checkLanding s l

/-- The trailer belongs to an attempt landing at this arrival, which no stopped place holds back (12 R325). -/
def trailerOk (s : State) (arr : Arrival) (l : Landing) : Bool :=
  running s && (arrivalPort s arr).1 == l.port && ((arrivalPort s arr).2 ≥ 16 || trained s (arrivalPort s arr).2)
    && (l.target == .absorbed || (l.st == .landing && !l.failed))
    && !(l.addr.elim false (fun a => placeStopped s a))

def execConsignmentTrailer (arr : Arrival) (key : ConsKey) (crc : BitVec 32) (tag : BitVec 128) (s : State) : Result :=
  match findLanding s key with
  | none => .next s
  | some l => if trailerOk s arr l then finish (takeTrailer s l crc tag) else .next s

/-! Confirmation. -/

def execConfirmed (key : ConsKey) (s : State) : Result :=
  match findLanding s key with
  | none => .next s
  | some l => if running s && decide (l.st = .checked) && dueReached s l then finish (confirmLanding s l) else .next s

/-! At the source (R58, R62 to R65). -/

/-- The held consignment that a notice names. -/
def heldOf (s : State) (k : ConsKey) : Option Held :=
  if k.src.toNat = nodeId s then s.held.find? (fun h => h.key == k) else none

/-- Its payload is released, and what waited for that goes on. -/
def released (s : State) (k : ConsKey) : State :=
  let s := releaseHeld s k
  ferriesSettle { s with noRouted := s.noRouted.filter (fun x => x != k) }

def execConfirmNotice (key : ConsKey) (s : State) : Result :=
  match heldOf s key with
  | none => .next s
  | some _ => finish (collSent (released s key) key)

def execExhaustedNotice (key : ConsKey) (s : State) : Result :=
  match heldOf s key with
  | none => .next s
  | some _ => finish (released s key)

/-- An absorbed tile sails again and counts as one sailed again (15 R411). -/
def tileAbsorbed (s : State) (k : ConsKey) : State :=
  let obj := k.seq.toNat / 2 ^ 28 * 2 ^ 16 + k.stream.toNat
  if k.kind ≠ 3 then s
  else match moveOf s obj with
    | none => s
    | some m => if tileState m (k.seq.toNat % 2 ^ 28) = .sailing then setTile s m (k.seq.toNat % 2 ^ 28) .dirty else s

def execAbsorbedNotice (key : ConsKey) (s : State) : Result :=
  match heldOf s key with
  | none => .next s
  | some _ => finish (tileAbsorbed (released s key) key)

/-- The source sends a held consignment again with ATTEMPT one higher (R62). -/
def resail (s : State) (h : Held) (attempt : Nat) : State :=
  let port := if h.port < 16 && (portMembers s h.port).isEmpty then
      ((nextHop s (hdrOf h.hdr).dst 0).map (fun x => x.1)).getD h.port else h.port
  let h := { h with attempt := attempt + 1, port := port }
  sendAttempt { s with held := s.held.map (fun x => if x.key = h.key then h else x) } h

/-- A landing whose source can replay no more ends exhausted with 0x3006 (R64). -/
def sourceLost (s : State) (l : Landing) : State :=
  exhaustEnd (exhaustLanding s l 0x3006 true) l 0x3006

def execReplayRequest (key : ConsKey) (attempt : BitVec 8) (s : State) : Result :=
  if !running s || key.src.toNat ≠ nodeId s then .next s
  else match heldOf s key with
    | some h => if attempt.toNat = h.attempt && h.attempt < 4 then finish (resail s h attempt.toNat) else .next s
    | none =>
      match findLanding s key with
      | some l => if l.st = .landing || l.st = .replaying then finish (sourceLost s l) else .next s
      | none => finish (s.emit (.sourceReset key))

def execSourceResetAnnounced (key : ConsKey) (s : State) : Result :=
  match findLanding s key with
  | none => .next s
  | some l =>
    if running s && (l.st = .landing || l.st = .replaying) && l.target != .absorbed then finish (sourceLost s l) else .next s

/-! APPLY (11 R304). -/

/-- TOPO.CMD.APPLY: refused, deferred, or done. -/
def applyCmd (s : State) (v : W32) : State :=
  if !v.getLsbD 0 then s
  else if !portsLegal s then raise s pgTopo 1 0x5008
  else
    let waits := portWaits s nextMark (changedPorts s)
    if waits.isEmpty then applyPorts s
    else { (s.put ⟨pgTopo, 0x00C, 1, 1⟩ 1) with applyWaits := some waits }

def execApply (a : Access) (s : State) : Result := hostWrite pgTopo 0x04C a applyCmd s

end Sys2Proof.Machine
end

