-- ==== Sys2Proof/Machine/Index.lean ====
section
/-! DEFINITION. Sketch indexes (13 R345 to R352, R368 to R370, R372): headers, the commands of IDX_CMD and what ends them.
Readings of this chapter that its words leave to inference are log 51. -/

namespace Sys2Proof.Machine

/-! Events (R372). -/

/-- An event of the SKETCH page, with the cluster and the index it is about, each with a valid bit in [6]. -/
def sketchEvent (s : State) (bit code : Nat) (cl ix : Option Nat) : State :=
  let word := fun (o : Option Nat) => match o with
    | some n => n % 64 + 64
    | none => 0
  let loads := code != 0 && s.get ⟨pgSketch, 0x01C, 0, 16⟩ == 0
  let s := if loads then (s.wrN pgSketch 0x080 (word cl)).wrN pgSketch 0x084 (word ix) else s
  let evt := s.rd pgSketch 0x010 ||| BitVec.ofNat 32 (2 ^ bit)
  raiseWith s pgSketch bit code (evt, BitVec.ofNat 32 (word cl), BitVec.ofNat 32 (word ix), 0)

/-! The header (R342, R346). -/

def hdrPrefix (h : List Byte) : Nat := fieldLE h 7 1
def hdrItems (h : List Byte) : Nat := fieldLE h 8 8
def hdrFullw (h : List Byte) : Nat := fieldLE h 6 1
def hdrAddr (h : List Byte) (i : Nat) : Nat := fieldLE h (16 + 8 * i) 8
def hdrDir (h : List Byte) : Nat := placeBits (hdrAddr h 0)
def hdrSk (h : List Byte) : Nat := placeBits (hdrAddr h 1)
def hdrFull (h : List Byte) : Nat := placeBits (hdrAddr h 2)
def hdrIds (h : List Byte) : Nat := placeBits (hdrAddr h 3)
def hdrTags (h : List Byte) : Nat := placeBits (hdrAddr h 4)
def hdrSide (h : List Byte) : Nat := placeBits (hdrAddr h 5)
def hdrSideSk (h : List Byte) : Nat := placeBits (hdrAddr h 6)
def hdrSideFull (h : List Byte) : Nat := placeBits (hdrAddr h 7)
def hdrSideCap (h : List Byte) : Nat := 2 ^ fieldLE h 80 1

/-- Cause 1 does not fail: every field of the header is as R346 lays down. -/
def headerGood (h : List Byte) : Bool :=
  fieldLE h 0 4 == 0x58534B48 && fieldLE h 4 1 == 1 && decide (fieldLE h 5 1 < 4) && decide (hdrFullw h ≤ 128)
    && decide (hdrPrefix h ≤ 24) && decide (hdrPrefix h < hdrSkb h) && decide (hdrItems h < 2 ^ 40)
    && (List.range 8).all (fun i => hdrAddr h i % 64 == 0 && decide (hdrAddr h i < 2 ^ 50))
    && ((hdrAddr h 2 == 0 && hdrAddr h 7 == 0) == (hdrFullw h == 0))
    && decide (10 ≤ fieldLE h 80 1) && decide (fieldLE h 80 1 ≤ 24) && fieldLE h 81 47 == 0

/-- A side list is shared by the generations: the new header names the same one (R368). -/
def sameSide (h g : List Byte) : Bool :=
  fieldLE h 5 1 == fieldLE g 5 1 && hdrFullw h == hdrFullw g && hdrAddr h 5 == hdrAddr g 5 && hdrAddr h 6 == hdrAddr g 6
    && hdrAddr h 7 == hdrAddr g 7 && fieldLE h 80 1 == fieldLE g 80 1

/-- The ranges of a header with their full addresses, in the order of `headerRanges`. -/
def headerBases (at_ : Nat) (h : List Byte) : List Nat := at_ :: (List.range 8).map (hdrAddr h)

/-- The ranges that a generation does not share with the others: header, directory, sketches, full codes, ids, tags. -/
def ownRanges (at_ : Nat) (h : List Byte) : List (Nat × Nat) :=
  let n := hdrItems h
  ([(placeBits at_, 128), (hdrDir h, 16 * 2 ^ hdrPrefix h), (hdrSk h, n * (hdrSkb h / 8)), (hdrFull h, n * (hdrFb h / 8)),
    (hdrIds h, 8 * n), (hdrTags h, 4 * n)]).filter (fun x => x.2 != 0)

/-- Every range lies on this chip, within the regions of the owner (cause 3). -/
def rangesOk (s : State) (owner at_ : Nat) (h : List Byte) : Bool :=
  (headerBases at_ h).all (fun a => a == 0 || onThisChip s a)
    && (headerRanges at_ h).all (fun r => onePlace r.1 r.2 && rangeInRegions s owner r.1 r.2 true)

/-- Some two ranges of a list share a byte. -/
def rangesClash : List (Nat × Nat) → Bool
  | [] => false
  | r :: rs => rs.any (fun q => overlap r.1 r.2 q.1 q.2) || rangesClash rs

/-- A range is frozen for another index or a ferry (cause 4). -/
def frozenElsewhere (s : State) (ix : Nat) (r : Nat × Nat) : Bool :=
  (((List.range 8).map (ferryFrozen s)).flatten ++ ((s.indexes.filter (fun x => x.1 != ix)).map (fun x => indexFrozen x.2)).flatten).any
    (fun q => overlap r.1 r.2 q.1 q.2)

/-- Entry of a cell in the directory: FIRST and COUNT (R348). -/
def dirEntry (s : State) (h : List Byte) (c : Nat) : Nat × Nat :=
  (s.loadN (hdrDir h + 16 * c) 8 % 2 ^ 40, s.loadN (hdrDir h + 16 * c + 8) 4)

/-- Cause 7. -/
def directoryBad (s : State) (h : List Byte) : Bool :=
  (List.range (2 ^ hdrPrefix h)).any (fun c => let e := dirEntry s h c; decide (hdrItems h < e.1 + e.2))

/-! The selected index and its registers. -/

def idxSel (s : State) : Nat := s.get ⟨pgSketch, 0x040, 0, 6⟩

/-- A berth that exists, or the host (cause 2). -/
def ownerExists (s : State) (b : Nat) : Bool := b == 0xFF || (decide (b < 16) && berthState s b != 0)

abbrev ixFree : Nat := 0
abbrev ixLive : Nat := 1
abbrev ixPending : Nat := 2
abbrev ixDual : Nat := 3

/-- IDX_STAT as it reads. -/
def idxStat (s : State) : Nat :=
  let x := s.index (idxSel s)
  x.state + (if x.busy = 0 then 0 else 4) + x.cause * 2 ^ 8

/-- Words of the SKETCH page that are computed from the selected index. -/
def sketchWord (s : State) (off : Nat) : Option W32 :=
  let x := s.index (idxSel s)
  let start : W64 := match (x.gens.filter (fun g => reachedNow s g.start || x.state != ixPending)).head? with
    | some g => g.start
    | none => 0
  match off with
  | 0x00C => some (BitVec.ofNat 32 (s.indexes.filter (fun y => y.2.state != ixFree)).length)
  | 0x064 => some (BitVec.ofNat 32 (idxStat s))
  | 0x068 => some x.tail
  | 0x06C => some x.low
  | 0x070 => some x.started
  | 0x074 => some (BitVec.ofNat 32 x.owner)
  | 0x078 => some (start.setWidth 32)
  | 0x07C => some ((start >>> 32).setWidth 32)
  | _ => none

/-- A write of IDX_HDR, IDX_BERTH, CUTOFF or SWITCH meets BUSY. -/
def idxLocked (s : State) : Bool := (s.index (idxSel s)).busy != 0

/-! Commands (R351, R368 to R370). -/

/-- A command is refused: IDX_STAT.CAUSE and 0x8005. -/
def refuseIndex (s : State) (ix cause : Nat) : State :=
  let s := s.setIndex ix { s.index ix with cause := cause, busy := 0 }
  sketchEvent s 3 0x8005 none (some ix)

/-- Refused while another command is in progress, which goes on. -/
def refuseBusy (s : State) (ix : Nat) : State := sketchEvent (s.setIndex ix { s.index ix with cause := 5 }) 3 0x8005 none (some ix)

/-- A write of IDX_CMD. -/
def writeIdxCmd (s : State) (v : W32) : State :=
  let ix := idxSel s
  let x := s.index ix
  let op := v.toNat % 8
  if x.busy ≠ 0 then refuseBusy s ix
  else if op = 1 || op = 2 then
    s.setIndex ix { x with busy := op, newHdr := (s.rd64 pgSketch 0x044).toNat, newCutoff := s.rd64 pgSketch 0x050,
                           newSwitch := s.rd64 pgSketch 0x058, newOwner := s.get ⟨pgSketch, 0x04C, 0, 8⟩ }
  else if op = 3 then
    (if x.state = ixDual then s.setIndex ix { x with busy := 3 } else refuseIndex s ix 5)
  else if op = 4 then
    (if x.state = ixFree then refuseIndex s ix 5
     else
       let keep := x.gens.filter (fun g => x.state != ixPending || reachedNow s g.start)
       s.setIndex ix { x with busy := 4, gens := keep, state := if x.state = ixPending && keep.length < 2 then ixLive else x.state })
  else refuseIndex s ix 1

def execIndexCreate (a : Access) (s : State) : Result := hostWrite pgSketch 0x060 a writeIdxCmd s
def execMerge (a : Access) (s : State) : Result := hostWrite pgSketch 0x060 a writeIdxCmd s
def execRetire (a : Access) (s : State) : Result := hostWrite pgSketch 0x060 a writeIdxCmd s
def execDestroy (a : Access) (s : State) : Result := hostWrite pgSketch 0x060 a writeIdxCmd s

/-! The checks (R351, R368). -/

/-- The header of the command in progress, as it stands in memory. -/
def newHeader (s : State) (x : Index) : List Byte := s.bytes (placeBits x.newHdr) 128

/-- MERGE's tides: C + 1 reached; M at least 65,536 ticks ahead and not refused by R22 (cause 6). -/
def mergeTideBad (s : State) (x : Index) : Bool :=
  !s.tideValid || !tideReached s.now (x.newCutoff + 1) || tideReached s.now x.newSwitch || refusedR22 s x.newSwitch
    || decide ((x.newSwitch - s.now).toNat < 65536)

/-- The first cause that fails, 0 for none. -/
def indexCause (s : State) (ix : Nat) : Nat :=
  let x := s.index ix
  let merge := x.busy == 2
  let owner := if merge then x.owner else x.newOwner
  let cur : List Byte := match x.gens.head? with
    | some g => g.hdr
    | none => []
  let h := newHeader s x
  if !onThisChip s x.newHdr || !onePlace (placeBits x.newHdr) 128 then 3
  else if !headerGood h || poisoned s (placeBits x.newHdr) 128 || (merge && x.state != ixFree && !sameSide h cur) then 1
  else if !ownerExists s owner then 2
  else if !rangesOk s owner x.newHdr h then 3
  else if rangesClash (headerRanges x.newHdr h) || (headerRanges x.newHdr h).any (frozenElsewhere s ix)
      || (merge && (ownRanges x.newHdr h).any (fun r => (indexFrozen x).any (fun q => overlap r.1 r.2 q.1 q.2))) then 4
  else if x.state ≠ (if merge then ixLive else ixFree) then 5
  else if merge && mergeTideBad s x then 6
  else if directoryBad s h then 7
  else 0

/-- CREATE succeeds. -/
def createIndex (s : State) (ix : Nat) : State :=
  let x := s.index ix
  let h := newHeader s x
  let s := dirtyTiles (zeroWrite s (hdrSide h) (32 * hdrSideCap h)) (hdrSide h) (32 * hdrSideCap h)
  let s := s.setIndex ix { x with state := ixLive, owner := x.newOwner, gens := [{ hdr := h, at_ := x.newHdr, start := s.now, cutoff := none }],
                                  tail := 0, low := 0, busy := 0, started := 0 }
  sketchEvent s 0 0 none (some ix)

/-- MERGE is accepted. -/
def acceptMerge (s : State) (ix : Nat) : State :=
  let x := s.index ix
  s.setIndex ix { x with state := ixPending, busy := 0,
                         gens := { hdr := newHeader s x, at_ := x.newHdr, start := x.newSwitch, cutoff := some x.newCutoff } :: x.gens }

/-- A write of the side headers meets a stopped place or a held source. -/
def sideBlocked (s : State) (x : Index) : Bool :=
  let h := newHeader s x
  x.busy == 1 && writeBlocked s (hdrSide h) (32 * hdrSideCap h)

/-- The checks of a CREATE or MERGE end. -/
def endChecks (s : State) (ix : Nat) : State :=
  let x := s.index ix
  let c := indexCause s ix
  let bad := onThisChip s x.newHdr && onePlace (placeBits x.newHdr) 128 && poisoned s (placeBits x.newHdr) 128
  let s := if bad then uncorrectable s (placeBits x.newHdr) else s
  if c ≠ 0 then refuseIndex s ix c
  else if x.busy = 1 then createIndex s ix
  else acceptMerge s ix

def execIndexCheckDone (ix : Fin 64) (s : State) : Result :=
  let x := s.index ix.val
  if !running s || (x.busy ≠ 1 && x.busy ≠ 2) || placeStopped s (placeBits x.newHdr) || (indexCause s ix.val = 0 && sideBlocked s x) then .next s
  else finish (endChecks s ix.val)

/-! Switch, retire, destroy. -/

/-- The switch tide of a pending merge is reached. -/
def switchDue (s : State) (x : Index) : Bool :=
  x.state == ixPending && (match x.gens.head? with
    | some g => reachedNow s g.start
    | none => false)

def execSwitched (ix : Fin 64) (s : State) : Result :=
  let x := s.index ix.val
  if running s && switchDue s x then
    finish (sketchEvent (s.setIndex ix.val { x with state := ixDual, started := x.started + 1 }) 1 0 none (some ix.val))
  else .next s

/-- An engine's descriptor names the index. -/
def workOn (w : EngineWork) (ix : Nat) : Bool := fieldLE w.desc 33 1 % 64 == ix

/-- A descriptor of some engine is in flight on the index, and it is one of `p`. -/
def inFlightOn (s : State) (ix : Nat) (p : EngineWork → Bool) : Bool :=
  s.engines.any (fun e => match e.2.work with
    | some w => workOn w ix && p w
    | none => false)

/-- Header of side-list position q. -/
def sideAddr (h : List Byte) (q : Nat) : Nat := hdrSide h + 32 * (q % hdrSideCap h)
/-- Its STATE, OP and STAMP (R349). -/
def sideState (s : State) (h : List Byte) (q : Nat) : Nat := s.loadN (sideAddr h q + 7) 1 % 4
def sideOp (s : State) (h : List Byte) (q : Nat) : Nat := s.loadN (sideAddr h q + 7) 1 / 4 % 4
def sideStamp (s : State) (h : List Byte) (q : Nat) : W64 := BitVec.ofNat 64 (s.loadN (sideAddr h q + 8) 8)
def sideId (s : State) (h : List Byte) (q : Nat) : Nat := s.loadN (sideAddr h q) 6
def sideTag (s : State) (h : List Byte) (q : Nat) : Nat := s.loadN (sideAddr h q + 16) 4
def sideCell (s : State) (h : List Byte) (q : Nat) : Nat := s.loadN (sideAddr h q + 20) 3

/-- The positions in use, rising (R350). -/
def sidePositions (x : Index) : List Nat := (List.range (x.tail - x.low).toNat).map (fun i => (x.low + BitVec.ofNat 32 i).toNat)

/-- A stamp lies after a cutoff. -/
def afterCutoff (c : Option W64) (stamp : W64) : Bool :=
  match c with
  | some t => !tideReached t stamp
  | none => true

/-- LOW after a RETIRE (R369). -/
def retiredLow (s : State) (x : Index) (g : IndexGen) : W32 :=
  match (sidePositions x).find? (fun q => sideState s g.hdr q == 1 || (sideState s g.hdr q == 2 && afterCutoff g.cutoff (sideStamp s g.hdr q))) with
  | some q => BitVec.ofNat 32 q
  | none => x.tail

/-- RETIRE takes effect. -/
def retireIndex (s : State) (ix : Nat) (x : Index) (g : IndexGen) : State :=
  let low := retiredLow s x g
  let gone := (List.range (low - x.low).toNat).map (fun i => (x.low + BitVec.ofNat 32 i).toNat)
  let s := gone.foldl (fun t q => dirtyTiles (zeroWrite t (sideAddr g.hdr q) 32) (sideAddr g.hdr q) 32) s
  let s := s.setIndex ix { x with state := ixLive, busy := 0, gens := [g], low := low }
  sketchEvent s 2 0 none (some ix)

def execRetired (ix : Fin 64) (s : State) : Result :=
  let x := s.index ix.val
  match x.gens.head? with
  | none => .next s
  | some g =>
    if running s && x.busy == 3 && !inFlightOn s ix.val (fun w => w.phase == 2 && w.genStart != g.start)
        && !writeBlocked s (hdrSide g.hdr) (32 * hdrSideCap g.hdr) then
      finish (retireIndex s ix.val x g)
    else .next s

/-- An index becomes FREE; CAUSE stays. -/
def freeIndex (s : State) (ix : Nat) : State := s.setIndex ix { Index.reset with cause := (s.index ix).cause }

def execDestroyed (ix : Fin 64) (s : State) : Result :=
  if running s && (s.index ix.val).busy == 4 && !inFlightOn s ix.val (fun _ => true) then finish (freeIndex s ix.val) else .next s

end Sys2Proof.Machine
end

