-- ==== Sys2Proof/Machine/Sketch.lean ====
section
/-! DEFINITION. Sketch engines (13 R341 to R344, R353 to R367): rings, descriptors, inserts and deletes, snapshots, shares and
results. Readings of this chapter that its words leave to inference are log 51. -/

namespace Sys2Proof.Machine

/-! The ring of a cluster (R353, R354). -/

def sqBase (s : State) (cl : Nat) : Nat := placeBits (s.rd64 (pgCl cl) 0xA00).toNat
def sqSize (s : State) (cl : Nat) : Nat := 2 ^ s.get ⟨pgCl cl, 0xA08, 0, 4⟩
abbrev fSqEn (cl : Nat) : Fld := ⟨pgCl cl, 0xA08, 31, 1⟩
def sqHead (s : State) (cl : Nat) : Nat := s.rdN (pgCl cl) 0xA0C
def sqTail (s : State) (cl : Nat) : Nat := (bollard s cl (s.get ⟨pgCl cl, 0xA08, 8, 6⟩)).toNat % 2 ^ 16
def sqPosted (s : State) (cl : Nat) : Nat := (sqTail s cl + 2 ^ 16 - sqHead s cl) % 2 ^ 16
def sqAddr (s : State) (cl : Nat) : Nat := sqBase s cl + 64 * (sqHead s cl % sqSize s cl)

/-- SQ_STAT as it reads. -/
def sqStat (s : State) (cl : Nat) : Nat :=
  let e := s.engine cl
  (match e.work with
    | some w => w.phase
    | none => 0) + (if e.helping.isSome then 4 else 0)

/-- The cluster's partition is in P0 (R343). -/
def engineP0 (s : State) (cl : Nat) : Bool := running s && partState s (cl / 8) == 0 && !clusterResetting s cl

/-- Fields of a descriptor (R355). -/
def dSnap (d : List Byte) : W64 := BitVec.ofNat 64 (fieldLE d 0 8)
def dRecord (d : List Byte) : Nat := fieldLE d 8 8
def dResult (d : List Byte) : Nat := fieldLE d 16 8
def dClusters (d : List Byte) : Nat := fieldLE d 24 8
def dOp (d : List Byte) : Nat := fieldLE d 32 1
def dIndex (d : List Byte) : Nat := fieldLE d 33 1 % 64
def dK (d : List Byte) : Nat := fieldLE d 34 2
def dCand (d : List Byte) : Nat := fieldLE d 36 2
def dProbes (d : List Byte) : Nat := fieldLE d 38 2
def dMask (d : List Byte) : Nat := fieldLE d 40 4
def dValue (d : List Byte) : Nat := fieldLE d 44 4
def dFlag (d : List Byte) (i : Nat) : Bool := (fieldLE d 48 1).testBit i
abbrev opSearch : Nat := 1
abbrev opInsert : Nat := 2
abbrev opDelete : Nat := 3
/-- C of R363. -/
def dKeep (d : List Byte) : Nat := if dCand d = 0 then dK d else dCand d

/-- The newest generation that has started. -/
def startedGen (s : State) (x : Index) : Option IndexGen := x.gens.find? (fun g => x.state != ixPending || reachedNow s g.start || g.cutoff == none)

/-- Bytes of a record under the index's header (R356). -/
def recordLen (h d : List Byte) : Nat :=
  if dOp d = opDelete then 64
  else if dOp d = opSearch && dFlag d 2 then 128 + hdrFb h / 8 + 4 * dProbes d
  else if hdrFullw h = 0 then 64 + hdrSkb h / 8
  else 128 + hdrFb h / 8

/-! Completion (R354). -/

/-- STATUS and COUNT of a descriptor. -/
def statusBytes (code cause count : Nat) (short : Bool) : List Byte :=
  bytesLE 4 (code + 2 ^ 16 + (if short then 2 ^ 17 else 0) + cause * 2 ^ 18) ++ bytesLE 4 count

/-- Complete the descriptor at `a`: STATUS and COUNT, SQ_HEAD, SEARCHES, the DONE bollard. -/
def completeSketch (s : State) (cl a code cause count : Nat) (short : Bool) : State :=
  let s := memWrite s (a + 56) (statusBytes code cause count short)
  let s := s.wrN (pgCl cl) 0xA0C ((sqHead s cl + 1) % 2 ^ 16)
  let s := s.incSat (pgCl cl) 0xA14
  let b := s.get ⟨pgCl cl, 0xA08, 16, 6⟩
  let s := s.wr (pgCl cl) (0x800 + 4 * b) (bollard s cl b + 1)
  s.setEngine cl { s.engine cl with work := none }

/-- A refusal completes the descriptor and is logged (R357). -/
def refuseSketch (s : State) (cl a code cause ix : Nat) : State :=
  let s := completeSketch s cl a code cause 0 false
  logAdd s (logEntry s pgSketch 1 code 0 false false (s.rd pgSketch 0x010, BitVec.ofNat 32 (cl + 64), BitVec.ofNat 32 (ix + 64), 0))

/-- Helpers of a leader are released (R367). -/
def endShares (s : State) (cl : Nat) : State :=
  let free := s.engines.map (fun e => if e.2.helping = some cl then (e.1, { e.2 with helping := none }) else e)
  { s with engines := free.filter (fun e => e.2 != Engine.reset) }

/-- Uncorrectable data ends the descriptor (R359, R367). -/
def dataError (s : State) (cl a ix count : Nat) (at_ : Nat) : State :=
  let s := endShares (completeSketch (uncorrectable s at_) cl a 0x8004 0 count false) cl
  sketchEvent s 6 0x8004 (some cl) (some ix)

/-! Taking a descriptor (R354, R357). -/

/-- The ring overruns: EN is cleared. -/
def overrun (s : State) (cl : Nat) : State := sketchEvent (s.put (fSqEn cl) 0) 4 0x8001 (some cl) none

/-- The record's own fields that a check can judge (R356). -/
def recordBad (s : State) (d : List Byte) : Bool :=
  let a := placeBits (dRecord d)
  let r := s.bytes a 64
  let readable := onThisChip s (dRecord d) && onePlace a 64 && !poisoned s a 64
  readable && (fieldLE r 6 2 != 0 || fieldLE r 12 52 != 0
    || (dOp d == opSearch && fieldLE r 0 6 != 0) || (dOp d != opInsert && fieldLE r 8 4 != 0)
    || (dOp d == opInsert && fieldLE r 0 6 == 2 ^ 48 - 1))

/-- Cause 1. -/
def descFormat (s : State) (d : List Byte) : Bool :=
  let op := dOp d
  op == 0 || decide (3 < op) || fieldLE d 33 1 / 64 != 0 || fieldLE d 48 1 / 8 != 0 || fieldLE d 49 7 != 0
    || decide (2 ^ 50 ≤ dRecord d) || dRecord d % 64 != 0
    || (op == opSearch && (dK d == 0 || decide (1024 < dK d) || (dCand d != 0 && (decide (dCand d < dK d) || decide (4096 < dCand d)))
          || dProbes d == 0 || (dFlag d 1 && !dFlag d 0) || decide (2 ^ 50 ≤ dResult d) || dResult d % 64 != 0))
    || (op != opSearch && fieldLE d 0 8 != 0) || recordBad s d

/-- Clusters a descriptor names. -/
def namedClusters (d : List Byte) : List Nat := (List.range 64).filter (fun c => (dClusters d).testBit c)

/-- Some byte of the range lies outside what the engine's owner may reach (R343). -/
def engineRangeBad (s : State) (owner a n : Nat) (write : Bool) : Bool := !ownChip s a || (accessFault s owner a n write).isSome

/-- The first failing check: code and cause; (0, 0) for none. -/
def descRefusal (s : State) (cl : Nat) (d : List Byte) : Nat × Nat :=
  let x := s.index (dIndex d)
  let owner := clusterOwner s cl
  let h : List Byte := match x.gens.head? with
    | some g => g.hdr
    | none => []
  if descFormat s d then (0x8001, 1)
  else if x.state = ixFree || x.busy = 4 then (0x8001, 2)
  else if x.owner ≠ owner || (namedClusters d).any (fun c => clusterOwner s c != owner || !engineP0 s c) then (0x8001, 3)
  else if engineRangeBad s owner (dRecord d) (recordLen h d) false
      || (dOp d == opSearch && engineRangeBad s owner (dResult d) (8 * dK d) true) then (0x8001, 4)
  else if dOp d = opSearch then
    (match tideCase s (dSnap d) with
      | .invalid => (0x400B, 0)
      | .range => (0x400A, 0)
      | .reached => (0, 0)
      | .ahead => (0, 0))
  else (0, 0)

/-- The engine may take its next descriptor now. -/
def mayTake (s : State) (cl : Nat) : Bool :=
  s.bit (fSqEn cl) && engineP0 s cl && (s.engine cl).work.isNone && (s.engine cl).helping.isNone && sqPosted s cl != 0

/-- A read by an engine waits: for unconfirmed consignment data, or a stopped place (R344). -/
def engineReadWaits (s : State) (a n : Nat) : Bool := n != 0 && (shoreBlocked s a n || readBlocked s a n)

/-- Everything the taking of a descriptor reads or writes is free to be. -/
def takeBlocked (s : State) (cl : Nat) (d : List Byte) : Bool :=
  let a := sqAddr s cl
  engineReadWaits s a 64 || writeBlocked s (a + 56) 8
    || (onThisChip s (dRecord d) && onePlace (placeBits (dRecord d)) 64 && engineReadWaits s (placeBits (dRecord d)) 64)

/-- Begin the work of a descriptor. -/
def beginWork (s : State) (cl a : Nat) (d : List Byte) (phase pos : Nat) : State :=
  s.setEngine cl { s.engine cl with work := some { addr := a, desc := d, phase := phase, genStart := 0, seen := [], pos := BitVec.ofNat 32 pos,
                                                   asked := [], answers := [] } }

/-- ID word of a side-list header: id, STATE, OP. -/
def sideIdWord (id st op : Nat) : Nat := id % 2 ^ 48 + st * 2 ^ 56 + op * 2 ^ 58

/-- An INSERT or DELETE reserves its position, or finds the side list full (R359). -/
def reserveSide (s : State) (cl a : Nat) (d : List Byte) (x : Index) (h : List Byte) : State :=
  if hdrSideCap h ≤ (x.tail - x.low).toNat then
    sketchEvent (completeSketch s cl a 0x8002 0 0 false) 5 0x8002 (some cl) (some (dIndex d))
  else
    let r := s.bytes (placeBits (dRecord d)) 64
    let q := x.tail.toNat
    let hdr := bytesLE 8 (sideIdWord (fieldLE r 0 6) 1 (if dOp d = opInsert then 1 else 2)) ++ bytesLE 8 0
      ++ bytesLE 4 (if dOp d = opInsert then fieldLE r 8 4 else 0) ++ bytesLE 12 0
    let s := memWrite s (sideAddr h q) hdr
    let s := s.setIndex (dIndex d) { x with tail := x.tail + 1 }
    beginWork s cl a d 3 q

/-- Take the descriptor at the head. -/
def takeSketch (s : State) (cl : Nat) : State :=
  let a := sqAddr s cl
  let d := s.bytes a 64
  let s := countHbm s a 64 0x058
  if poisoned s a 64 then dataError s cl a (dIndex d) 0 a
  else
    let r := descRefusal s cl d
    if r.1 ≠ 0 then refuseSketch s cl a r.1 r.2 (dIndex d)
    else if dOp d = opSearch then beginWork s cl a d 1 0
    else
      let x := s.index (dIndex d)
      match x.gens.head? with
      | some g => reserveSide s cl a d x g.hdr
      | none => s

/-- The side-list slot that an INSERT or DELETE is about to write is held. -/
def sideSlotBlocked (s : State) (d : List Byte) : Bool :=
  let x := s.index (dIndex d)
  match x.gens.head? with
  | some g => writeBlocked s (sideAddr g.hdr x.tail.toNat) 32
  | none => false

/-- An engine event: the descriptor at the head of the ring is taken if it is one of `p`. -/
def takeEvent (cl : Nat) (p : Nat → Bool) (s : State) : Result :=
  let d := s.bytes (sqAddr s cl) 64
  if !mayTake s cl then .next s
  else if sqSize s cl < sqPosted s cl then finish (overrun s cl)
  else if !rangeInRegions s (clusterOwner s cl) (sqAddr s cl) 64 true || !onePlace (sqAddr s cl) 64 || !p (dOp d)
      || takeBlocked s cl d || (dOp d != opSearch && sideSlotBlocked s d) then .next s
  else finish (takeSketch s cl)

def execSearch (cl : Fin 64) (s : State) : Result := takeEvent cl.val (fun op => op != opInsert && op != opDelete) s
def execInsert (cl : Fin 64) (s : State) : Result := takeEvent cl.val (fun op => op == opInsert) s
def execSketchDelete (cl : Fin 64) (s : State) : Result := takeEvent cl.val (fun op => op == opDelete) s

/-! Inserts and deletes complete (R359). -/

/-- The cell of a sketch under a prefix length (R348). -/
def cellOf (p : Nat) (sk : List Byte) : Nat := fieldLE sk 0 4 % 2 ^ p

/-- The entry becomes VALID, or VOID where its record cannot be read. -/
def endSideEntry (s : State) (cl : Nat) (w : EngineWork) (x : Index) (g : IndexGen) : State :=
  let d := w.desc
  let h := g.hdr
  let q := w.pos.toNat
  let a := placeBits (dRecord d)
  let n := recordLen h d
  let slot := q % hdrSideCap h
  if poisoned s a n then
    let s := memWrite s (sideAddr h q + 7) (bytesLE 1 (3 + 4 * sideOp s h q))
    dataError s cl w.addr (dIndex d) q a
  else
    let s := countHbm s a n 0x058
    let ins := dOp d == opInsert
    let sk := s.bytes (a + 64) (hdrSkb h / 8)
    let full := s.bytes (a + 128) (hdrFb h / 8)
    let p := match startedGen s x with
      | some k => hdrPrefix k.hdr
      | none => hdrPrefix h
    let s := if ins then memWrite s (hdrSideSk h + slot * (hdrSkb h / 8)) sk else s
    let s := if ins && hdrFullw h != 0 then memWrite s (hdrSideFull h + slot * (hdrFb h / 8)) full else s
    let s := memWrite s (sideAddr h q + 7) (bytesLE 1 (2 + 4 * (if ins then 1 else 2)) ++ bytesLE 8 s.now.toNat)
    let s := if ins then memWrite s (sideAddr h q + 20) (bytesLE 4 (cellOf p sk)) else s
    completeSketch s cl w.addr 0 0 q false

/-- Its writes and reads are free to happen. -/
def sideEntryBlocked (s : State) (w : EngineWork) (g : IndexGen) : Bool :=
  let h := g.hdr
  let slot := w.pos.toNat % hdrSideCap h
  engineReadWaits s (placeBits (dRecord w.desc)) (recordLen h w.desc) || writeBlocked s (w.addr + 56) 8 || writeBlocked s (sideAddr h w.pos.toNat) 32
    || writeBlocked s (hdrSideSk h + slot * (hdrSkb h / 8)) (hdrSkb h / 8)
    || (hdrFullw h != 0 && writeBlocked s (hdrSideFull h + slot * (hdrFb h / 8)) (hdrFb h / 8))

def execSideEntryValid (cl : Fin 64) (s : State) : Result :=
  match (s.engine cl.val).work with
  | none => .next s
  | some w =>
    let x := s.index (dIndex w.desc)
    match x.gens.head? with
    | none => .next s
    | some g =>
      if !engineP0 s cl.val || w.phase ≠ 3 || sideEntryBlocked s w g then .next s
      else finish (endSideEntry s cl.val w x g)

/-! Snapshots (R358, R360). -/

/-- The generation a snapshot is answered by: the newest that starts at or before it. -/
def genFor (x : Index) (snap : W64) : Option IndexGen := x.gens.find? (fun g => tideReached snap g.start)

/-- Side entry q is seen by a search of generation g with snapshot S. -/
def sideSeen (s : State) (g : IndexGen) (snap : W64) (q : Nat) : Bool :=
  sideState s g.hdr q == 2 && tideReached snap (sideStamp s g.hdr q) && afterCutoff g.cutoff (sideStamp s g.hdr q)

/-- Entry q of the side list, later in the list than r, decides over r for one id. -/
def decidesOver (s : State) (h : List Byte) (q r : Nat) : Bool := tideReached (sideStamp s h q) (sideStamp s h r)

/-- One more seen entry among the deciding ones so far (R360). -/
def addDeciding (s : State) (h : List Byte) (best : List Nat) (q : Nat) : List Nat :=
  match best.find? (fun r => sideId s h r == sideId s h q) with
  | none => best ++ [q]
  | some r => if decidesOver s h q r then best.map (fun t => if t = r then q else t) else best

/-- The deciding entries of an index for a snapshot, one per id. -/
def decidingEntries (s : State) (x : Index) (g : IndexGen) (snap : W64) : List Nat :=
  ((sidePositions x).filter (sideSeen s g snap)).foldl (addDeciding s g.hdr) []

/-- The probe list of a record (R356, LIST = 1). -/
def probeList (s : State) (h d : List Byte) : List Nat :=
  (List.range (dProbes d)).map (fun i => s.loadN (placeBits (dRecord d) + 128 + hdrFb h / 8 + 4 * i) 4)

/-- Side headers of the positions in use that a snapshot reads. -/
def sideRanges (x : Index) (h : List Byte) : List (Nat × Nat) := (sidePositions x).map (fun q => (sideAddr h q, 32))

/-- Some of the ranges cannot be read yet; the first that holds uncorrectable data. -/
def rangesWait (s : State) (l : List (Nat × Nat)) : Bool := l.any (fun r => engineReadWaits s r.1 r.2)
def rangesBad (s : State) (l : List (Nat × Nat)) : Option Nat := (l.find? (fun r => poisoned s r.1 r.2)).map (fun r => r.1)
/-- Count the reads of HBM. -/
def countReads (s : State) (l : List (Nat × Nat)) : State := l.foldl (fun t r => countHbm t r.1 r.2 0x058) s

/-- The snapshot of a search is reached. -/
def takeSnapshot (s : State) (cl : Nat) (w : EngineWork) (x : Index) : State :=
  let d := w.desc
  match genFor x (dSnap d) with
  | none => completeSketch s cl w.addr 0x8003 0 0 false
  | some g =>
    let rs := (placeBits (dRecord d), recordLen g.hdr d) :: sideRanges x g.hdr
    match rangesBad s rs with
    | some a => dataError s cl w.addr (dIndex d) 0 a
    | none =>
      let s := countReads s rs
      if dFlag d 2 && (probeList s g.hdr d).any (fun c => decide (2 ^ hdrPrefix g.hdr ≤ c)) then refuseSketch s cl w.addr 0x8001 5 (dIndex d)
      else s.setEngine cl { s.engine cl with work := some { w with phase := 2, genStart := g.start, seen := decidingEntries s x g (dSnap d) } }

def execSnapshot (cl : Fin 64) (s : State) : Result :=
  match (s.engine cl.val).work with
  | none => .next s
  | some w =>
    let x := s.index (dIndex w.desc)
    let rs := match genFor x (dSnap w.desc) with
      | some g => (placeBits (dRecord w.desc), recordLen g.hdr w.desc) :: sideRanges x g.hdr
      | none => []
    if !engineP0 s cl.val || w.phase ≠ 1 || !reachedNow s (dSnap w.desc) || rangesWait s rs || writeBlocked s (w.addr + 56) 8 then .next s
    else finish (takeSnapshot s cl.val w x)

/-! The search (R341, R361 to R366). -/

/-- The number of positions in which two codes differ. -/
def codeDistance (a b : List Byte) : Nat :=
  ((a.zip b).map (fun x => (List.range 8).countP (fun i => x.1.getLsbD i != x.2.getLsbD i))).sum

/-- Insert a candidate into a list in rising order of (distance, id), after its equals. -/
def insertCand (c : Nat × Nat × Nat) : List (Nat × Nat × Nat) → List (Nat × Nat × Nat)
  | [] => [c]
  | y :: ys => if c.1 < y.1 || (c.1 == y.1 && decide (c.2.1 < y.2.1)) then c :: y :: ys else y :: insertCand c ys

/-- The first n of the candidates in order. -/
def firstCands (n : Nat) (l : List (Nat × Nat × Nat)) : List (Nat × Nat × Nat) := l.foldl (fun k c => (insertCand c k).take n) []

/-- Positions in which two p-bit cell numbers differ. -/
def cellDistance (p a b : Nat) : Nat := (List.range p).countP (fun i => a.testBit i != b.testBit i)

/-- The cells in probe order when no list is given: those at distance 0, 1, … from the query's, each in rising number. -/
def rankedCells (p q : Nat) : List Nat :=
  ((List.range (p + 1)).map (fun r => (List.range (2 ^ p)).filter (fun c => cellDistance p c q == r))).flatten

/-- Keep the first place of each number. -/
def firstPlaces (l : List Nat) : List Nat := l.foldl (fun k c => if k.contains c then k else k ++ [c]) []

/-- The probed cells, in probe order (R361). -/
def probedCells (s : State) (h d : List Byte) : List Nat :=
  let p := hdrPrefix h
  if dFlag d 2 then
    let l := firstPlaces (probeList s h d)
    if 2 ^ p ≤ dProbes d then l ++ (List.range (2 ^ p)).filter (fun c => !l.contains c) else l
  else (rankedCells p (cellOf p (s.bytes (placeBits (dRecord d) + 64) (hdrSkb h / 8)))).take (dProbes d)

/-- The participants of a search, rising. -/
def participants (cl : Nat) (d : List Byte) : List Nat := (List.range 64).filter (fun c => c == cl || (dClusters d).testBit c)

/-- A participant's cells (R365). -/
def shareCells (s : State) (h d : List Byte) (leader me : Nat) : List Nat :=
  let ps := participants leader d
  let k := ps.findIdx (fun c => c == me)
  ((probedCells s h d).zipIdx.filter (fun x => x.2 % ps.length == k)).map (fun x => x.1)

/-- The filter (R362). -/
def passes (d : List Byte) (tag : Nat) : Bool :=
  !dFlag d 0 || ((tag &&& dMask d == dValue d) != dFlag d 1)

/-- The item at a position of the cell arrays, unless a side entry decides its id: (sketch distance, id, full-code address). -/
def cellItem (s : State) (h d : List Byte) (seenIds : List Nat) (n : Nat) : Option (Nat × Nat × Nat) :=
  let id := s.loadN (hdrIds h + 8 * n) 6
  if seenIds.contains id || !passes d (s.loadN (hdrTags h + 4 * n) 4) then none
  else some (codeDistance (s.bytes (hdrSk h + n * (hdrSkb h / 8)) (hdrSkb h / 8)) (s.bytes (placeBits (dRecord d) + 64) (hdrSkb h / 8)), id,
             hdrFull h + n * (hdrFb h / 8))

/-- The item of a deciding side entry, if it is an INSERT in one of the cells. -/
def sideItem (s : State) (h d : List Byte) (cells : List Nat) (q : Nat) : Option (Nat × Nat × Nat) :=
  let slot := q % hdrSideCap h
  if sideOp s h q ≠ 1 || !cells.contains (sideCell s h q) || !passes d (sideTag s h q) then none
  else some (codeDistance (s.bytes (hdrSideSk h + slot * (hdrSkb h / 8)) (hdrSkb h / 8)) (s.bytes (placeBits (dRecord d) + 64) (hdrSkb h / 8)),
             sideId s h q, hdrSideFull h + slot * (hdrFb h / 8))

/-- Positions of a cell. -/
def cellPositions (s : State) (h : List Byte) (c : Nat) : List Nat := let e := dirEntry s h c; (List.range e.2).map (fun i => e.1 + i)

/-- Deciding INSERTs whose cell is among these. -/
def sideIn (s : State) (h : List Byte) (w : EngineWork) (cells : List Nat) : List Nat :=
  w.seen.filter (fun q => sideOp s h q == 1 && cells.contains (sideCell s h q))

/-- What a share reads. -/
def shareRanges (s : State) (h : List Byte) (w : EngineWork) (cells : List Nat) : List (Nat × Nat) :=
  let d := w.desc
  let sk := hdrSkb h / 8
  (placeBits (dRecord d), recordLen h d)
    :: ((cells.map (fun c =>
        let e := dirEntry s h c
        [(hdrDir h + 16 * c, 16), (hdrSk h + e.1 * sk, e.2 * sk), (hdrIds h + 8 * e.1, 8 * e.2)]
          ++ (if dFlag d 0 then [(hdrTags h + 4 * e.1, 4 * e.2)] else []))).flatten
      ++ (sideIn s h w cells).map (fun q => (hdrSideSk h + q % hdrSideCap h * sk, sk)))

/-- A participant's first C pairs (R363), and the codes it compared. -/
def shareAnswer (s : State) (h : List Byte) (w : EngineWork) (cells : List Nat) : List (Nat × Nat × Nat) :=
  let d := w.desc
  let ids := w.seen.map (sideId s h)
  let items := ((cells.map (cellPositions s h)).flatten).filterMap (cellItem s h d ids) ++ w.seen.filterMap (sideItem s h d cells)
  firstCands (dKeep d) items
def shareCodes (s : State) (h : List Byte) (w : EngineWork) (cells : List Nat) : Nat :=
  (cells.map (fun c => (dirEntry s h c).2)).sum + (sideIn s h w cells).length

/-- The header of the generation a search reads. -/
def workHeader (s : State) (w : EngineWork) : List Byte :=
  match (s.index (dIndex w.desc)).gens.find? (fun g => g.start == w.genStart) with
  | some g => g.hdr
  | none => []

/-- A participant may serve a share: it helps no one, and its own descriptor waits, or its own share is done (R365). -/
def mayHelp (s : State) (helper : Nat) : Bool :=
  let e := s.engine helper
  engineP0 s helper && e.helping.isNone && (match e.work with
    | none => true
    | some w => w.phase == 1 || (w.phase == 2 && w.answers.any (fun x => x.1 == helper)))

def execShareRequest (leader helper : Fin 64) (s : State) : Result :=
  match (s.engine leader.val).work with
  | none => .next s
  | some w =>
    if w.phase = 2 && leader != helper && (participants leader.val w.desc).contains helper.val && !w.asked.contains helper.val && mayHelp s helper.val then
      let s := s.setEngine leader.val { s.engine leader.val with work := some { w with asked := w.asked ++ [helper.val] } }
      finish (s.setEngine helper.val { s.engine helper.val with helping := some leader.val })
    else .next s

/-- The merged candidates, lists taken in rising cluster number (R365). -/
def mergedCands (leader : Nat) (w : EngineWork) : List (Nat × Nat × Nat) :=
  firstCands (dKeep w.desc) ((participants leader w.desc).map (fun c =>
    ((w.answers.filter (fun x => x.1 == c)).map (fun x => x.2)).flatten)).flatten

/-- Stage two is made (R364). -/
def rerank (h d : List Byte) : Bool := decide (0 < dCand d) && hdrFullw h != 0

/-- The items delivered: (distance, id), in order. -/
def delivered (s : State) (h : List Byte) (leader : Nat) (w : EngineWork) : List (Nat × Nat × Nat) :=
  let kept := mergedCands leader w
  let q := s.bytes (placeBits (dRecord w.desc) + 128) (hdrFb h / 8)
  if rerank h w.desc then firstCands (dK w.desc) (kept.map (fun c => (codeDistance (s.bytes c.2.2 (hdrFb h / 8)) q, c.2)))
  else kept.take (dK w.desc)

/-- The result's entry n (R366). -/
def resultBytes (l : List (Nat × Nat × Nat)) (k : Nat) : List Byte :=
  ((List.range k).map (fun i => match nth l i with
    | some c => bytesLE 8 (c.2.1 + c.1 * 2 ^ 48)
    | none => bytesLE 8 (2 ^ 64 - 1))).flatten

/-- The search completes. -/
def endSearch (s : State) (leader : Nat) (w : EngineWork) : State :=
  let h := workHeader s w
  let d := w.desc
  let full := if rerank h d then (mergedCands leader w).map (fun c => (c.2.2, hdrFb h / 8)) else []
  match rangesBad s full with
  | some a => dataError s leader w.addr (dIndex d) 0 a
  | none =>
    let s := countReads s full
    let s := s.add64 (pgCl leader) 0xA18 full.length
    let out := delivered s h leader w
    let s := memWrite s (placeBits (dResult d)) (resultBytes out (dK d))
    completeSketch s leader w.addr 0 0 out.length (out.length < dK d)

/-- The end of a search must wait: a write is held, or a full code not yet confirmed. -/
def endBlocked (s : State) (leader : Nat) (w : EngineWork) : Bool :=
  let h := workHeader s w
  let full := if rerank h w.desc then (mergedCands leader w).map (fun c => (c.2.2, hdrFb h / 8)) else []
  writeBlocked s (placeBits (dResult w.desc)) (8 * dK w.desc) || writeBlocked s (w.addr + 56) 8 || rangesWait s full

/-- A share is done: its pairs reach the leader, which completes the search with the last of them. -/
def takeShare (s : State) (leader me : Nat) (w : EngineWork) : State :=
  let h := workHeader s w
  let cells := shareCells s h w.desc leader me
  let rs := shareRanges s h w cells
  match rangesBad s rs with
  | some a => dataError s leader w.addr (dIndex w.desc) 0 a
  | none =>
    let s := countReads s rs
    let s := s.add64 (pgCl me) 0xA18 (shareCodes s h w cells)
    let w := { w with answers := w.answers ++ [(me, shareAnswer s h w cells)] }
    let s := if me = leader then s else s.setEngine me { s.engine me with helping := none }
    let s := s.setEngine leader { s.engine leader with work := some w }
    if (participants leader w.desc).all (fun c => w.answers.any (fun x => x.1 == c)) then endSearch s leader w else s

/-- The share under way at this participant, if it is one: the leader's own, or one it was asked for. -/
def shareDue (s : State) (leader me : Nat) (w : EngineWork) : Bool :=
  w.phase == 2 && engineP0 s me && (participants leader w.desc).contains me && !w.answers.any (fun x => x.1 == me)
    && (if me = leader then (s.engine me).helping.isNone else (s.engine me).helping == some leader)

/-- With this share the search ends, and the end must wait. -/
def lastAndBlocked (s : State) (leader me : Nat) (w : EngineWork) : Bool :=
  let h := workHeader s w
  let w' := { w with answers := w.answers ++ [(me, shareAnswer s h w (shareCells s h w.desc leader me))] }
  (participants leader w.desc).all (fun c => w'.answers.any (fun x => x.1 == c)) && endBlocked s leader w'

def execShareResult (leader helper : Fin 64) (s : State) : Result :=
  match (s.engine leader.val).work with
  | none => .next s
  | some w =>
    let h := workHeader s w
    if !shareDue s leader.val helper.val w || rangesWait s (shareRanges s h w (shareCells s h w.desc leader.val helper.val))
        || writeBlocked s (w.addr + 56) 8 || lastAndBlocked s leader.val helper.val w then .next s
    else finish (takeShare s leader.val helper.val w)

/-! The owner is torn down (R367); a rebinding waits for the engine (R367). -/

/-- The engine of a cluster runs a descriptor or a share. -/
def engineBusy (s : State) (cl : Nat) : Bool := (s.engine cl).work.isSome || (s.engine cl).helping.isSome

/-- Cancel every descriptor in flight on an index. -/
def cancelOn (s : State) (ix : Nat) : State :=
  s.engines.foldl (fun t e => match (t.engine e.1).work with
    | some w => if workOn w ix then endShares (completeSketch t e.1 w.addr 0x8006 0 0 false) e.1 else t
    | none => t) s

/-- The indexes of a berth are destroyed with it. -/
def destroyOwned (s : State) (b : Nat) : State :=
  (s.indexes.filter (fun x => x.2.state != ixFree && x.2.owner == b)).foldl (fun t x => freeIndex (cancelOn t x.1) x.1) s

/-- A write of SQ_CFG: only EN while EN is set, else the whole, with SIZE clamped (R353). -/
def writeSqCfg (cl : Nat) (func : Nat) (s : State) (v : W32) : State :=
  let old := s.rdN (pgCl cl) 0xA08
  let new := setBits (v.toNat &&& 0x803F3F0F) 0 4 (max 4 (min 12 (v.toNat % 16)))
  if old / 2 ^ 31 = 1 then
    let s := s.put (fSqEn cl) (v.toNat / 2 ^ 31)
    if new % 2 ^ 31 = old % 2 ^ 31 then s else accessRefused s func 0 (pgCl cl) 0xA08 true
  else s.wrN (pgCl cl) 0xA08 new

end Sys2Proof.Machine
end

