-- ==== Sys2Proof/Machine/Reset.lean ====
section
/-! DEFINITION. Core, cluster and partition resets (15 R410 to R413, R416): what they begin, absorb and leave. Readings that the
words leave to inference are log 53. -/

namespace Sys2Proof.Machine

/-! Scope (R410). -/

/-- A reset of the first unit covers the second. -/
def unitCovers (big small : ResetUnit) : Bool :=
  match big, small with
  | .core a, .core b => a == b
  | .core _, .cluster _ => false
  | .core _, .partition _ => false
  | .cluster c, .core a => a.toNat / 64 == c.val
  | .cluster c, .cluster d => c == d
  | .cluster _, .partition _ => false
  | .partition n, .core a => a.toNat / 512 == n.val
  | .partition n, .cluster c => c.val / 8 == n.val
  | .partition n, .partition m => n == m

/-- Core ids of a cluster. -/
def coresOf (cl : Nat) : List CoreId := (List.range 48).map (fun j => BitVec.ofNat 12 (64 * cl + j))

/-- Core ids of a unit. -/
def unitCores : ResetUnit → List CoreId
  | .core id => [id]
  | .cluster c => coresOf c.val
  | .partition n => ((List.range 8).map (fun k => coresOf (8 * n.val + k))).flatten

/-- The place belongs to the unit: its scratchpads, and for a partition its stacks. -/
def unitHasPlace (u : ResetUnit) (a : Nat) : Bool :=
  match u, placeOf a with
  | .cluster c, some (.scratch cl _) => c.val == cl
  | .partition n, some (.scratch cl _) => n.val == cl / 8
  | .partition n, some (.hbm k _) => n.val == k / 4
  | _, _ => false

/-! Traffic at the boundary (R411). -/

/-- Consignments held as source end at their receivers: the source can no longer replay (02 R64). -/
def loseSources (s : State) (p : Held → Bool) : State :=
  let gone := s.held.filter p
  gone.foldl (fun t h => t.emit (.sourceReset h.key)) { s with held := s.held.filter (fun h => !p h) }

/-- Consignments in flight to it are never confirmed, and their sources are told (02 R65). -/
def absorbAt (s : State) (p : Nat → Bool) : State :=
  (s.landing.filter (fun l => l.st != .confirmed && l.st != .exhausted && l.target != .absorbed && (match l.addr with
    | some a => p a
    | none => false))).foldl absorbLanding s

/-! The levels (R412). -/

/-- A core reset leaves the core in OFF; a FENCED id stays FENCED. CYCLES goes on from where it stood. -/
def resetCore (s : State) (id : CoreId) : State :=
  let p := corePage id
  let c := s.core id
  let s := if c.state = .fenced then s else s.setCore id { Core.reset with cycles := c.cycles }
  let s := (List.range 8).foldl (fun t i => t.wr p (0x208 + 4 * i) 0) s
  clearClaims s id

/-- A cluster reset, without its event. -/
def resetCluster (s : State) (cl : Nat) : State :=
  let s := (coresOf cl).foldl resetCore s
  let s := (List.range 64).foldl (fun t b => t.wr (pgCl cl) (0x800 + 4 * b) 0) s
  let s := s.put (fSqEn cl) 0
  let s := endShares s cl
  let s := match (s.engine cl).helping with
    | none => s
    | some l => match (s.engine l).work with
      | none => s
      | some w => s.setEngine l { s.engine l with work := some { w with asked := w.asked.filter (fun c => c != cl) } }
  s.setEngine cl Engine.reset

/-- A partition reset, without its event: the local port's counters besides its clusters. -/
def resetPartition (s : State) (n : Nat) : State :=
  let s := (List.range 8).foldl (fun t k => resetCluster t (8 * n + k)) s
  let s := (List.range 7).foldl (fun t i => t.wr (pgPort (16 + n)) (0x408 + 4 * i) 0) s
  { s with fullBlocks := s.fullBlocks.filter (fun x => x.1 != 16 + n) }

/-- The page of a unit: a core's reset is its cluster's. -/
def unitPage : ResetUnit → Nat
  | .core id => pgCl (id.toNat / 64)
  | .cluster c => pgCl c.val
  | .partition n => pgCd n.val

/-- A reset begins (R411, R413): part of a larger one under way, or taking over the smaller. -/
def beginReset (s : State) (u : ResetUnit) : State :=
  if s.boot.resets.any (fun r => unitCovers r u) then s
  else
    let s := loseSources s (fun h => h.len != 0 && unitHasPlace u h.addr)
    let s := absorbAt s (unitHasPlace u)
    { s with boot := { s.boot with resets := s.boot.resets.filter (fun r => !unitCovers u r) ++ [u] } }

/-- A core of the unit is still in MONITOR, whose handling ends first. -/
def monitorHolds (s : State) (u : ResetUnit) : Bool := (unitCores u).any (fun id => decide ((s.core id).state = .monitor))

/-- The reset acts, and completes with RESET_DONE. -/
def endReset (s : State) (u : ResetUnit) : State :=
  let s := match u with
    | .core id => resetCore s id
    | .cluster c => resetCluster s c.val
    | .partition n => resetPartition s n.val
  let s := { s with boot := { s.boot with resets := s.boot.resets.filter (fun r => r != u) } }
  raise s (unitPage u) 0 0

/-- A cluster whose reset belongs to a rebinding, which completes it (14 R377). -/
def rebindOwns (s : State) (u : ResetUnit) : Bool :=
  match u with
  | .cluster c => s.berths.any (fun b => b.2.begun && (match b.2.job with
      | none => false
      | some v => (v.toNat % 8 == 3 && v.toNat / 16 % 2 == 0 && v.toNat / 256 % 64 == c.val)
          || (v.toNat % 8 == 4 && clusterOwner s c.val == b.1)))
  | .core _ => false
  | .partition _ => false

/-- RESET_DONE is due. -/
def resetDue (s : State) (u : ResetUnit) : Bool := running s && s.boot.resets.contains u && !monitorHolds s u && !rebindOwns s u

def execResetDone (unit : ResetUnit) (s : State) : Result :=
  if (match unit with
    | .core id => !coreOk id
    | .cluster _ => false
    | .partition _ => false) then .fault (.illFormed "RESET_DONE")
  else if resetDue s unit then finish (endReset s unit) else .next s

/-! Commands (R397, R410, R413). -/

/-- A write of CLnn.RESET_CMD. -/
def writeResetCmd (cl func : Nat) (s : State) (v : W32) : State :=
  let n := bitsOf v.toNat 8 6
  if !stageReady s then accessRefused s func 0 (pgCl cl) 0x050 true
  else if v.getLsbD 1 then (if h : cl < 64 then beginReset s (.cluster ⟨cl, h⟩) else s)
  else if v.getLsbD 0 && decide (n < 48) then beginReset s (.core (BitVec.ofNat 12 (64 * cl + n)))
  else s

def execCoreReset (cl : Fin 64) (a : Access) (s : State) : Result := hostWrite (pgCl cl.val) 0x050 a (writeResetCmd cl.val a.func.val) s
def execClusterReset (cl : Fin 64) (a : Access) (s : State) : Result := hostWrite (pgCl cl.val) 0x050 a (writeResetCmd cl.val a.func.val) s

/-- A write of CDn.PRESET; ignored in P2. -/
def writePreset (die : Fin 8) (func : Nat) (s : State) (v : W32) : State :=
  if !stageReady s then accessRefused s func 0 (pgCd die.val) 0x040 true
  else if v.getLsbD 0 && partState s die.val != 2 then beginReset s (.partition die)
  else s

def execPreset (die : Fin 8) (a : Access) (s : State) : Result := hostWrite (pgCd die.val) 0x040 a (writePreset die a.func.val) s

/-! What the CL and CD pages compute on reading. -/

/-- FENCED: bit j for core number j. -/
def fencedMask (s : State) (cl : Nat) : Nat :=
  (List.range 48).foldl (fun m j => if (s.core (BitVec.ofNat 12 (64 * cl + j))).state = .fenced then m + 2 ^ j else m) 0

/-- STATUS.DEGRADED: a core id is FENCED or a bank withheld. -/
def clDegraded (s : State) (cl : Nat) : Bool := fencedMask s cl != 0 || s.get ⟨pgCl cl, 0x04C, 4, 8⟩ != 0

/-- CLnn STATUS. -/
def clStatus (s : State) (cl : Nat) : Nat :=
  let busy := s.boot.resets.any (fun r => unitPage r == pgCl cl) || clusterResetting s cl
  (if busy then 1 else 0) + (if clDegraded s cl then 2 else 0)

/-- CDn PSTAT. -/
def cdStat (s : State) (n : Nat) : Nat :=
  let busy := s.boot.resets.any (fun r => unitPage r == pgCd n)
  (if busy then 1 else 0) + (List.range 8).foldl (fun m c => if clDegraded s (8 * n + c) then m + 2 ^ (8 + c) else m) 0

end Sys2Proof.Machine
end

