-- ==== Sys2Proof/Machine/Berth.lean ====
section
/-! DEFINITION. Berths (14 R373 to R380): the commands of BCMD, what defers them, and what a rebinding leaves. Readings that the
words leave to inference are log 54. -/

namespace Sys2Proof.Machine

/-! Registers. -/

abbrev fBstState (b : Nat) : Fld := ⟨pgBerth b, 0x050, 0, 3⟩
abbrev fBstBusy (b : Nat) : Fld := ⟨pgBerth b, 0x050, 3, 1⟩
abbrev fBstSession (b : Nat) : Fld := ⟨pgBerth b, 0x050, 4, 1⟩
abbrev fBstIde (b : Nat) : Fld := ⟨pgBerth b, 0x050, 5, 1⟩
abbrev fBstCause (b : Nat) : Fld := ⟨pgBerth b, 0x050, 8, 4⟩
abbrev fRegionBound (b n : Nat) : Fld := ⟨pgBerth b, 0x10C + 16 * n, 1, 1⟩
abbrev fRngFailed : Fld := ⟨pgSec, 0x040, 1, 1⟩
abbrev fIdentity : Fld := ⟨pgIdent, 0x064, 0, 1⟩
def updBerth (s : State) (b : Nat) (f : BerthRun → BerthRun) : State := s.setBerth b (f (s.berth b))

abbrev bsFree : Nat := 0
abbrev bsWaiting : Nat := 1
abbrev bsOpen : Nat := 2
abbrev bsChanging : Nat := 3
abbrev bsClosing : Nat := 4

/-- Fields of a BCMD word. -/
def bOp (v : W32) : Nat := bitsOf v.toNat 0 3
def bForce (v : W32) : Bool := v.getLsbD 3
def bRegion (v : W32) : Bool := v.getLsbD 4
def bIndex (v : W32) : Nat := bitsOf v.toNat 8 6
abbrev boOpen : Nat := 1
abbrev boBind : Nat := 2
abbrev boUnbind : Nat := 3
abbrev boTeardown : Nat := 4

/-- BERTH_MAP (SEC). -/
def berthMap (s : State) : Nat := (List.range 16).foldl (fun m b => if berthState s b = bsFree then m else m + 2 ^ b) 0

/-! What a request touches (R376; 09 R257, 10 R287, 13 R367). -/

/-- The places a job is about: of a cluster, of a region, or of everything the berth holds. -/
def jobHasPlace (s : State) (b : Nat) (v : W32) (a : Nat) : Bool :=
  if bOp v = boTeardown then
    (match placeOf a with
      | some (.scratch cl _) => clusterOwner s cl == b
      | _ => false) || inDirectRegion s b a || inOwnHome s b a
  else if bRegion v then inRange a (regionBase s b (bIndex v)) (regionLen s b (bIndex v))
  else match placeOf a with
    | some (.scratch cl _) => cl == bIndex v
    | _ => false

/-- Some byte of a range is among them: its first, its last, or the first of the job's region inside it. -/
def jobHasRange (s : State) (b : Nat) (v : W32) (a n : Nat) : Bool :=
  n != 0 && (jobHasPlace s b v a || jobHasPlace s b v (a + n - 1)
    || (List.range (if n < 0x20000 then 0 else n / 0x10000)).any (fun i => jobHasPlace s b v ((a / 0x10000 + 1 + i) * 0x10000)))

/-- The clusters a job resets. -/
def jobClusters (s : State) (b : Nat) (v : W32) : List Nat :=
  if bOp v = boTeardown then (List.range 64).filter (fun c => clusterOwner s c == b)
  else if bOp v = boUnbind && !bRegion v then [bIndex v]
  else []

/-- A RUNNING ferry uses the resource. -/
def ferryInJob (s : State) (b : Nat) (v : W32) (f : Nat) : Bool :=
  ferryState s f == 2 && ((bOp v == boTeardown && ferryOwner s f == b)
    || (ferryHbm s f && jobHasRange s b v (schedBase s f) (64 * schedLen s f))
    || (List.range (schedLen s f)).any (fun k =>
        let e := rawEntry s f k
        (e.kind == skSail || e.kind == skLand) && jobHasRange s b v (placeBits e.addr) (4096 * e.len)))

/-- An ACTIVE or REFORMING group uses it. -/
def groupInJob (s : State) (b : Nat) (v : W32) (g : Nat) : Bool :=
  (groupState s g == 3 || groupState s g == 4) && ((bOp v == boTeardown && groupOwner s g == b)
    || jobHasRange s b v (placeBits (groupStage s g)) (groupDepth s g * groupChunk s g)
    || (match (s.group g).coll with
        | none => false
        | some c =>
          let d := collDesc c.desc
          jobHasPlace s b v (placeBits d.src) || jobHasPlace s b v (placeBits d.dst)))

/-- The descriptor an engine works on uses it: the engine or a helper is in a cluster of it, or its index, record or result. -/
def workInJob (s : State) (b : Nat) (v : W32) (cl : Nat) (w : EngineWork) : Bool :=
  let cs := jobClusters s b v
  let x := s.index (dIndex w.desc)
  cs.contains cl || (participants cl w.desc).any (fun c => w.asked.contains c && cs.contains c)
    || (bOp v == boTeardown && x.owner == b)
    || (x.gens.any (fun g => (headerRanges g.at_ g.hdr).any (fun r => jobHasRange s b v r.1 r.2)))
    || jobHasPlace s b v (placeBits (dRecord w.desc)) || (dOp w.desc == opSearch && jobHasPlace s b v (placeBits (dResult w.desc)))

/-- The engines whose descriptor the job waits for. -/
def enginesInJob (s : State) (b : Nat) (v : W32) : List Nat :=
  (s.engines.filter (fun e => match e.2.work with
    | some w => workInJob s b v e.1 w
    | none => false)).map (fun e => e.1)

/-- What a request is deferred for, but for sketch work, which is looked at when it is to begin. -/
def jobWaits (s : State) (b : Nat) (v : W32) : List (Nat × Option W64) :=
  ((List.range 8).filter (ferryInJob s b v)).map (fun f => (f, none))
    ++ ((List.range 64).filter (groupInJob s b v)).map (fun g => (8 + g, nextMark s g))

/-! FORCE (R376). -/

/-- The suspect of a forced time-out: the peer of the lowest transfer not yet complete. -/
def forcedSuspect (s : State) (g : Nat) : BitVec 16 :=
  match (s.group g).coll with
  | none => BitVec.ofNat 16 (nodeId s)
  | some c =>
    let x := collCtx s g (collDesc c.desc)
    let plan := collPlan s g (collDesc c.desc)
    let t := collCur s g
    match recvOf x plan t, sendOf x plan t with
    | some (_, q, _, _), _ => memberAt s g q
    | none, some (_, q, _) => memberAt s g q
    | none, none => BitVec.ofNat 16 (nodeId s)

/-- The job does not wait: keel aborts, time-outs, and cancelled sketch descriptors. -/
def forceJob (s : State) (b : Nat) (v : W32) : State :=
  let s := ((List.range 8).filter (ferryInJob s b v)).foldl (fun t f => if ferryState t f = 2 then startAbort t (ferryGroup t f) else t) s
  let s := ((List.range 64).filter (groupInJob s b v)).foldl (fun t g =>
    if groupState t g = 3 then timeOut t g (forcedSuspect t g) else t) s
  (enginesInJob s b v).foldl (fun t cl => match (t.engine cl).work with
    | some w => endShares (completeSketch t cl w.addr 0x8006 0 0 false) cl
    | none => t) s

/-! Commands (R375). -/

/-- A BCMD is refused. -/
def refuseBerth (s : State) (b cause : Nat) : State := raise (s.put (fBstCause b) cause) (pgBerth b) 1 0x9002

/-- A region's bytes, as RBASE, RLEN and RATTR name them, overlap another bound region, an object home or the object table, or
are no whole granules of one place of its tier. -/
def regionClash (s : State) (b n : Nat) : Bool :=
  let a := regionBase s b n
  let len := regionLen s b n
  let t := regionTier s b n
  let place := match placeOf a with
    | some (.scratch _ off) => t == 0 && decide (off + len ≤ scratchSize)
    | some (.hbm _ off) => t == 1 && decide (off + len ≤ stackSize)
    | none => false
  !place || a % granule t != 0 || !ownChip s (s.rd64 (pgBerth b) (0x100 + 16 * n)).toNat || decide (2 ^ 50 ≤ (s.rd64 (pgBerth b) (0x100 + 16 * n)).toNat)
    || (List.range 16).any (fun c => (List.range 16).any (fun k => regionBound s c k && overlap a len (regionBase s c k) (regionLen s c k)))
    || s.objects.any (fun x => match homeRange x.2 with
        | some (h, m) => overlap a len h (roundUp m (granule x.2.tier))
        | none => false)
    || (s.bit ⟨pgTier, 0x008, 0, 1⟩ && overlap a len (placeBits (s.rd64 pgTier 0x040).toNat) (roundUp (32 * otabLen s) (granule 1)))

/-- The first cause that refuses a command, 0 for none. -/
def berthCause (s : State) (b : Nat) (v : W32) : Nat :=
  let st := berthState s b
  let live := st == bsWaiting || st == bsOpen
  let vf := s.get ⟨pgBerth b, 0x048, 0, 5⟩
  let accepts := match bOp v with
    | 1 => st == bsFree && stageReady s && s.bit fIdentity && !s.bit fRngFailed
    | 2 => live && (!bRegion v || decide (bIndex v < 16))
    | 3 => live && (if bRegion v then decide (bIndex v < 16) && regionBound s b (bIndex v) else clusterOwner s (bIndex v) == b)
    | 4 => live
    | _ => false
  if s.berths.any (fun x => x.2.job.isSome) then 1
  else if !accepts then 2
  else if bOp v = boBind && (if bRegion v then regionBound s b (bIndex v)
      else clusterOwner s (bIndex v) != 0xFF || partState s (bIndex v / 8) != 0) then 3
  else if bOp v = boBind && bRegion v && regionClash s b (bIndex v) then 4
  else if bOp v = boOpen && (vf == 0 || decide (16 < vf) || (List.range 16).any (fun c => c != b && berthVf s c == vf)) then 5
  else 0

/-- OPEN (R380): the berth's keys are made, the standard functions are there (07 R199), and it waits for its session. Field
access at CONTROL or TEST closes first (19 R478). -/
def openBerth (s : State) (b : Nat) : State :=
  let s := if 2 ≤ debugLevel s then closeDebug s else s
  let k1 := s.newKey
  let k2 := k1.2.newKey
  let k3 := k2.2.newKey
  let s := k3.2.setBerth b { BerthRun.reset with objKey := k1.1, linkKey := k2.1, kemKey := k3.1 }
  let s := showSpace (s.put ⟨pgBerth b, 0x614, 0, 7⟩ 0x7F) b
  raise (s.put (fBstState b) bsWaiting) (pgBerth b) 0 0

/-- A write of BCMD. -/
def writeBcmd (b : Nat) (s : State) (v : W32) : State :=
  let c := berthCause s b v
  if c ≠ 0 then refuseBerth s b c
  else if bOp v = boOpen then openBerth s b
  else if bOp v = boBind then
    let s := updBerth s b (fun r => { r with job := some v, begun := true, prior := berthState s b })
    (s.put (fBstBusy b) 1).put (fBstState b) bsChanging
  else
    let waits := if bForce v then [] else jobWaits s b v
    let s := if bForce v then forceJob s b v else s
    let s := updBerth s b (fun r => { r with job := some v, begun := false, waits := waits, prior := berthState s b })
    s.put (fBstBusy b) 1

def execBerthOpen (b : Fin 16) (a : Access) (s : State) : Result := hostWrite (pgBerth b.val) 0x04C a (writeBcmd b.val) s
def execBind (b : Fin 16) (a : Access) (s : State) : Result := hostWrite (pgBerth b.val) 0x04C a (writeBcmd b.val) s
def execUnbind (b : Fin 16) (a : Access) (s : State) : Result := hostWrite (pgBerth b.val) 0x04C a (writeBcmd b.val) s
def execTeardown (b : Fin 16) (a : Access) (s : State) : Result := hostWrite (pgBerth b.val) 0x04C a (writeBcmd b.val) s

/-! The steps begin (R377 steps 1 and 2). -/

/-- The request is deferred no longer. -/
def rebindReady (s : State) (b : Nat) : Bool :=
  let r := s.berth b
  match r.job with
  | none => false
  | some v => running s && !r.begun && (bForce v || r.waits.all (waitOver s)) && (enginesInJob s b v).isEmpty

/-- The VF is closed, the clusters go into reset, sources end and landings are absorbed. -/
def beginRebind (s : State) (b : Nat) (v : W32) : State :=
  let s := updBerth s b (fun r => { r with begun := true, closed := true, waits := [], prior := berthState s b })
  let s := s.put (fBstState b) (if bOp v = boTeardown then bsClosing else bsChanging)
  let s := loseSources s (fun h => h.len != 0 && jobHasRange s b v h.addr h.len)
  let s := absorbAt s (jobHasPlace s b v)
  (jobClusters s b v).foldl (fun t c => if h : c < 64 then beginReset t (.cluster ⟨c, h⟩) else t) s

def execRebindStart (b : Fin 16) (s : State) : Result :=
  match (s.berth b.val).job with
  | none => .next s
  | some v => if rebindReady s b.val then finish (beginRebind s b.val v) else .next s

/-! The steps end (R377 steps 2 to 6, R378, R379). -/

/-- KEYLOCK clears on every page of a list. -/
def clearLocks (s : State) (pages : List Nat) : State := pages.foldl (fun t p => t.put ⟨p, 0x028, 0, 1⟩ 0) s

/-- The pages that follow a cluster. -/
def clusterPages (cl : Nat) : List Nat := pgCl cl :: (coresOf cl).map (fun id => pgCore id.toNat)

/-- A cluster leaves the berth: it is reset, zeroed and unbound. -/
def leaveCluster (s : State) (b cl : Nat) : State :=
  let s := resetCluster s cl
  let s := { s with boot := { s.boot with resets := s.boot.resets.filter (fun r => match r with
    | .cluster c => c.val != cl
    | .core id => id.toNat / 64 != cl
    | .partition _ => true) } }
  let s := zeroWrite s (scratchAddr cl 0) scratchSize
  let s := clearLocks s (clusterPages cl)
  let s := s.wr64 (pgBerth b) 0x040 (s.rd64 (pgBerth b) 0x040 &&& ~~~(BitVec.ofNat 64 (2 ^ cl)))
  raise s (pgCl cl) 0 0

/-- A region's key is destroyed or its scratchpad zeroed: HBM holds no plaintext any more, which its readers see as undefined bytes
(R379). -/
def loseRegion (s : State) (b n : Nat) : State :=
  let a := regionBase s b n
  let len := regionLen s b n
  let s := updBerth s b (fun r => { r with regionKey := storePut r.regionKey n 0 0 })
  if regionTier s b n = 0 then zeroWrite s a len else s.blurRange a len

/-- Granules of a region, which are charged to the berth while it is bound (12 R314). -/
def regionGranules (s : State) (b n : Nat) : Nat := s.get ⟨pgBerth b, 0x108 + 16 * n, 0, 21⟩

/-- A region leaves the berth. -/
def leaveRegion (s : State) (b n : Nat) : State :=
  (uncharge (loseRegion s b n) b (regionTier s b n) (regionGranules s b n)).put (fRegionBound b n) 0

/-- An object that the berth owns enters FREE: its move ends, requests on it complete with 0x7005, its storage is released and its
bytes, whose key is gone, are no plaintext any more. -/
def leaveObject (s : State) (o : Nat) : State :=
  let s := match moveOf s o with
    | some m => failMove s m 0x7005
    | none => s
  let e := s.obj o
  let s := (s.tierQ.filter (fun r => r.obj == o)).foldl (fun t r =>
    if ringOwner r.ring = e.owner then { t with tierQ := t.tierQ.filter (fun q => !isReq q r) } else completeReq t r 0x7005 0) s
  let s := releaseHome s e
  let s := match homeRange e with
    | some (a, n) => if e.tier = 1 then s.blurRange a (roundUp n (granule 1)) else s
    | none => s
  s.setObj o ObjEntry.free

/-- A group of the berth is deleted and its queue passes to the host. -/
def leaveGroup (s : State) (g : Nat) : State :=
  let s := if groupState s g = 0 then s else deleteGroup (dropColl s g) g
  s.wrN (pgGtab g) (gOff g 0x30) 0xFF

/-- TEARDOWN (steps 3 to 6). -/
def tearDown (s : State) (b : Nat) : State :=
  let pages := pgBerth b :: ((List.range 64).filter (fun g => groupOwner s g == b)).map pgCq
    ++ ((List.range 8).filter (fun f => ferryOwner s f == b)).map pgFerry
  let s := clearLocks s pages
  let s := ((s.objects.filter (fun x => x.2.state != osFree && x.2.owner == b)).map (fun x => x.1)).foldl leaveObject s
  let s := destroyOwned s b
  let s := ((List.range 64).filter (fun g => groupOwner s g == b)).foldl leaveGroup s
  let s := ((List.range 64).filter (fun c => clusterOwner s c == b)).foldl (fun t c => leaveCluster t b c) s
  let s := ((List.range 16).filter (fun n => regionBound s b n)).foldl (fun t n => leaveRegion t b n) s
  let s := (List.range 6).foldl (fun t i => t.wr (pgBerth b) (0x640 + 4 * i) 0) s
  let s := ((s.wr64 (pgBerth b) 0x618 0).wr (pgBerth b) 0x614 0).wr (pgBerth b) 0x610 0
  let s := (s.setBerth b BerthRun.reset).put ⟨pgBerth b, 0x620, 0, 16⟩ 0
  ((s.put (fBstSession b) 0).put (fBstIde b) 0).put (fBstState b) bsFree

/-- BIND completes: a cluster receives the berth's tables with its owner; a region a new key, or zeros. -/
def bindResource (s : State) (b : Nat) (v : W32) : State :=
  let n := bIndex v
  if bRegion v then
    let s := if regionTier s b n = 0 then zeroWrite s (regionBase s b n) (regionLen s b n)
      else
        let k := s.newKey
        updBerth (k.2.blurRange (regionBase s b n) (regionLen s b n)) b (fun r => { r with regionKey := storePut r.regionKey n k.1 0 })
    (charge s b (regionTier s b n) (regionGranules s b n)).put (fRegionBound b n) 1
  else s.wr64 (pgBerth b) 0x040 (s.rd64 (pgBerth b) 0x040 ||| BitVec.ofNat 64 (2 ^ n))

/-- The last step: the resource has passed, the command is over. -/
def endRebind (s : State) (b : Nat) (v : W32) (us : Nat) : State :=
  let prior := (s.berth b).prior
  let s := match bOp v with
    | 2 => bindResource s b v
    | 3 => if bRegion v then leaveRegion s b (bIndex v) else leaveCluster s b (bIndex v)
    | _ => tearDown s b
  let s := if bOp v = boTeardown then s else s.put (fBstState b) prior
  let s := updBerth s b (fun r => { r with job := none, begun := false, closed := false, waits := [] })
  let s := s.put (fBstBusy b) 0
  raise (s.wrN (pgBerth b) 0x054 us) (pgBerth b) 0 0

/-- The clusters' resets can act: no core of theirs is in MONITOR. -/
def rebindActs (s : State) (b : Nat) (v : W32) : Bool :=
  (jobClusters s b v).all (fun c => (coresOf c).all (fun id => !decide ((s.core id).state = .monitor)))

def execRebindDone (b : Fin 16) (us : BitVec 12) (s : State) : Result :=
  match (s.berth b.val).job with
  | none => .next s
  | some v => if running s && (s.berth b.val).begun && rebindActs s b.val v then finish (endRebind s b.val v us.toNat) else .next s

/-! Writes of the page's other registers. -/

/-- BCFG takes writes while FREE only. -/
def writeBcfg (b func : Nat) (s : State) (v : W32) : State :=
  if berthState s b = bsFree then s.wrN (pgBerth b) 0x048 (v.toNat % 32) else accessRefused s func 0 (pgBerth b) 0x048 true

/-- RLEN and RATTR take writes while the region is unbound; so does RBASE, as a pair. -/
def writeRegion (b n o func : Nat) (s : State) (v : W32) : State :=
  let off := 0x100 + 16 * n + o
  if regionBound s b n then accessRefused s func 0 (pgBerth b) off true
  else if o = 8 then s.wrN (pgBerth b) off (v.toNat % 2 ^ 21)
  else s.wrN (pgBerth b) off (v.toNat % 2)

def writeRbase (b n func : Nat) (s : State) (v : W64) : State :=
  if regionBound s b n then accessRefused s func 0 (pgBerth b) (0x104 + 16 * n) true
  else
    let g := granule (regionTier s b n)
    s.wr64 (pgBerth b) (0x100 + 16 * n) (BitVec.ofNat 64 (v.toNat / g * g))

end Sys2Proof.Machine
end

