-- ==== Sys2Proof/Machine/Matrix.lean ====
section
/-! DEFINITION. The matrix array, the accumulator port and problem lists (03 R101 to R104; 05 R134 to R136; 06 R171 to R173;
08 R217 to R226). -/

namespace Sys2Proof.Machine

/-! The array. -/

/-- The K slice of a format's class (03 R101); none for a format the array does not take. -/
def classSlice : Nat → Option Nat
  | 1 => some 16 | 2 => some 16 | 3 => some 32 | 4 => some 32 | 5 => some 64 | 6 => some 64 | 7 => some 64
  | 10 => some 32 | 11 => some 64 | _ => none

/-- The K slice of a pair of formats: none for a pair that is an illegal encoding. -/
def pairSlice (fa fb : Nat) : Option Nat :=
  match classSlice fa, classSlice fb with
  | some x, some y => if decide (8 ≤ fa) == decide (8 ≤ fb) then some (min x y) else none
  | _, _ => none

/-- An operand in a slot (R172): format, block-scaled, rows, K. -/
structure Operand where
  slot : Nat
  code : Nat
  mx : Bool
  rows : Nat
  k : Nat
deriving DecidableEq, Repr

/-- Where its scales begin, and the bytes it occupies. -/
def opScales (o : Operand) : Nat := roundUp (o.rows * rowBytes o.code o.k) 64
def opBytes (o : Operand) : Nat := if o.mx then opScales o + o.rows * (o.k / 32) else o.rows * rowBytes o.code o.k

/-- The scale byte of element j of row r. -/
def opScale (byteAt : Nat → Byte) (o : Operand) (r j : Nat) : Byte := byteAt (opScales o + r * (o.k / 32) + j / 32)

/-- The exact value of element j of row r, block scale included (03 R91, R93). -/
def opValue (byteAt : Nat → Byte) (o : Operand) (r j : Nat) : Num :=
  let x := elemValue o.code (elemBits o.code (fun i => byteAt (r * rowBytes o.code o.k + i)) j)
  if o.mx then numMul x (mxScale (opScale byteAt o r j)) else x

/-- A block of the operand has the scale 0xFF (03 R93, R100 MXNAN). -/
def opMxNan (byteAt : Nat → Byte) (o : Operand) : Bool :=
  o.mx && (List.range o.rows).any (fun r => (List.range (o.k / 32)).any (fun b => opScale byteAt o r (32 * b) == 0xFF))

/-- One slice into one output element: the products and the accumulator added exactly, rounded once (03 R102, R103). -/
def sliceStep (acc : W40) (ps : List (Num × Num)) : Rounded :=
  let v := xf40 acc
  let r := ps.foldl (fun x p => numAdd false x (numMul p.1 p.2)) v
  let c := toXf40 r
  ⟨c.bits, c.flags ||| madeNan r (v :: (ps.map (fun p => [p.1, p.2])).flatten)⟩

/-- One output element: slices in ascending K order. -/
def mmaElem (a b : Nat → Num) (k slice : Nat) (acc : W40) : Rounded :=
  (List.range (ceilDiv k slice)).foldl (fun x i =>
    let lo := i * slice
    let r := sliceStep (BitVec.ofNat 40 x.bits) ((List.range (min slice (k - lo))).map (fun j => (a (lo + j), b (lo + j))))
    ⟨r.bits, x.flags ||| r.flags⟩) ⟨acc.toNat, 0⟩

/-- The tile after the array has added A · Bᵀ, with its flags; `zero`: each element begins at +0 (05 R135). -/
def mmaRun (k : Core) (c : Core) (tile : Nat) (a b : Operand) (slice : Nat) (zero : Bool) : Core × Nat :=
  let byteA := fun i => c.slotByte a.slot i
  let byteB := fun i => c.slotByte b.slot i
  let nan := if opMxNan byteA a || opMxNan byteB b then afMxnan else 0
  (List.range a.rows).foldl (fun x r => (List.range b.rows).foldl (fun x j =>
    let e := mmaElem (opValue byteA a r) (opValue byteB b j) a.k slice (if zero then 0 else c.elem tile r j)
    (x.1.setElem tile r j (BitVec.ofNat 40 e.bits), x.2 ||| e.flags)) x) (k, nan)

/-- The operands of an MMA word. -/
def mmaA (f : MmaF) : Operand := ⟨f.ba.toNat, f.fmta.toNat, f.mxa == 1, f.mm1.toNat + 1, f.km1.toNat + 1⟩
def mmaB (f : MmaF) : Operand := ⟨f.bb.toNat, f.fmtb.toNat, f.mxb == 1, f.nm1.toNat + 1, f.km1.toNat + 1⟩

/-- MX only with an MX element format and K a multiple of 32. -/
def mxOk (o : Operand) : Bool := !o.mx || (isMx o.code && o.k % 32 == 0)

def mmaLegal (f : MmaF) : Bool :=
  (pairSlice f.fmta.toNat f.fmtb.toNat).isSome && mxOk (mmaA f) && mxOk (mmaB f) && f.rsv == 0

/-- Tile first, then the operands' extents (R162). -/
def mmaFault (f : MmaF) (_ : State) (c : Core) : Option FaultRec :=
  if c.tileLimit ≤ f.tile.toNat then some { code := 0x2101 }
  else if slotSize < opBytes (mmaA f) || slotSize < opBytes (mmaB f) then some { code := 0x2105 }
  else none

def mmaTouch (f : MmaF) (zero : Bool) (_ : Core) : Touch :=
  { rdB := [f.ba.toNat, f.bb.toNat], rdT := if zero then [] else [f.tile.toNat], wrT := [f.tile.toNat] }

/-- MMA and MMA.Z. -/
def mmaExec (mn : String) (zero : Bool) (id : CoreId) (f : MmaF) (s : State) : Result :=
  issue mn id s (mmaLegal f) (mmaFault f) (mmaTouch f zero) noBlock
    (fun c t => updCore t id (fun k =>
      let x := mmaRun k k f.tile.toNat (mmaA f) (mmaB f) ((pairSlice f.fmta.toNat f.fmtb.toNat).getD 1) zero
      addFlags x.1 (tainted c (mmaTouch f zero c)) x.2))

def execMma (core : CoreId) (f : MmaF) (s : State) : Result := mmaExec "MMA" false core f s
def execMmaZ (core : CoreId) (f : MmaF) (s : State) : Result := mmaExec "MMA_Z" true core f s

/-! The accumulator port. -/

/-- Row (sA + LANE) mod 128. -/
def accPortRow (f : RegF) (c : Core) : Nat := ((c.s f.a.toNat).toNat + f.lane.toNat) % 128

def accFault (f : RegF) (_ : State) (c : Core) : Option FaultRec :=
  if c.tileLimit ≤ f.c.toNat then some { code := 0x2101 } else none

def areadTouch (f : RegF) (c : Core) : Touch :=
  { rdV := if keepsLanes c f.mask f.zm then [f.d.toNat] else [], wrV := [f.d.toNat], rdT := [f.c.toNat] }

/-- AREAD: a row of tile C as FP32 (05 R134). -/
def execAread (core : CoreId) (f : RegF) (s : State) : Result :=
  issue "AREAD" core s (isS f.a && is16 f.c && f.b == 0 && f.rm == 0 && f.fmt == 0 && f.rsv == 0) (accFault f) (areadTouch f)
    noBlock
    (fun c t => updCore t core (fun k =>
      let ls := vecLanes c f (fun i => xfToFp32 (satOf f) (k.elem f.c.toNat (accPortRow f c) i))
      addFlags (k.setVreg f.d.toNat (wordsOfResults ls)) (tainted c (areadTouch f c)) (joinFlags ls)))

def awriteTouch (f : RegF) (_ : Core) : Touch := { rdV := [f.d.toNat], wrT := [f.c.toNat] }

/-- AWRITE: vD into a row of tile C; lanes that MASK leaves out leave the row as it is. -/
def execAwrite (core : CoreId) (f : RegF) (s : State) : Result :=
  issue "AWRITE" core s
    (isS f.a && is16 f.c && f.b == 0 && f.rm == 0 && f.sat == 0 && f.zm == 0 && f.fmt == 0 && f.rsv == 0) (accFault f)
    (awriteTouch f) noBlock
    (fun c t => updCore t core (fun k =>
      let x := (List.range 128).foldl (fun (x : Core × Nat) i =>
        if (c.mask f.mask.toNat).getLsbD i then
          let e := fp32ToXf (c.lane f.d.toNat i)
          (x.1.setElem f.c.toNat (accPortRow f c) i (BitVec.ofNat 40 e.bits), x.2 ||| e.flags)
        else x) (k, 0)
      addFlags x.1 (tainted c (awriteTouch f c)) x.2))

def azeroTouch (f : RegF) (_ : Core) : Touch := { wrT := [f.c.toNat] }

/-- AZERO: every element of tile C is +0. -/
def execAzero (core : CoreId) (f : RegF) (s : State) : Result :=
  issue "AZERO" core s
    (is16 f.c && f.d == 0 && f.a == 0 && f.b == 0 && f.mask == 0 && f.rm == 0 && f.sat == 0 && f.zm == 0 && f.lane == 0
      && f.fmt == 0 && f.rsv == 0) (accFault f) (azeroTouch f) noBlock
    (fun _ t => updCore t core (fun k => k.zeroTile f.c.toNat))

/-! Problem lists. -/

/-- PLIST: the launch begins, and its entries follow one by one; a count of zero completes at once. -/
def execPlist (core : CoreId) (f : RegF) (s : State) : Result :=
  issue "PLIST" core s
    (isS f.a && isS f.b && f.d == 0 && f.c == 0 && f.mask == 0 && f.rm == 0 && f.sat == 0 && f.zm == 0 && f.lane == 0
      && f.fmt == 0 && f.rsv == 0)
    (fun _ c => if (c.s f.a.toNat).toNat % 32 ≠ 0 then some { code := 0x1003, addr := (c.s f.a.toNat).toNat } else none)
    (fun _ => { outside := true }) noBlock
    (fun c t =>
      if c.s f.b.toNat = 0 then t
      else updCore t core (fun k =>
        { k with plist := some { base := c.s f.a.toNat, count := (c.s f.b.toNat).toNat, index := 0 } }))
    (keep := fun _ c => c.s f.b.toNat != 0)

/-- The fields of an entry's 32 bytes (R217). -/
structure PEntry where
  a : Nat
  aPitch : Nat
  b : Nat
  bPitch : Nat
  c : Nat
  cPitch : Nat
  cWord : Nat
  m : Nat
  n : Nat
  k : Nat
  mxa : Bool
  mxb : Bool
  tile : Nat
  fmta : Nat
  fmtb : Nat
  fmtc : Nat
  slota : Nat
  slotb : Nat
  zero : Bool
  store : Bool
  sat : Bool
  rsv : Nat
deriving DecidableEq, Repr

/-- A pitch field, or the dense pitch of a row. -/
def entryPitch (word row : Nat) : Nat := if word / 2 ^ 50 = 0 then roundUp row 64 else word / 2 ^ 50 * 64

def entryOf (bs : List Byte) : PEntry :=
  let a := fieldLE bs 0 8
  let b := fieldLE bs 8 8
  let c := fieldLE bs 16 8
  let sh := fieldLE bs 24 4
  let ct := fieldLE bs 28 4
  let n := bitsOf sh 7 7 + 1
  let k := bitsOf sh 14 16 + 1
  { a := a % 2 ^ 50, aPitch := entryPitch a (rowBytes (bitsOf ct 4 4) k), b := b % 2 ^ 50,
    bPitch := entryPitch b (rowBytes (bitsOf ct 8 4) k), c := c % 2 ^ 50, cPitch := entryPitch c (rowBytes (bitsOf ct 12 4) n),
    cWord := c, m := bitsOf sh 0 7 + 1, n := n, k := k, mxa := bitsOf sh 30 1 == 1, mxb := bitsOf sh 31 1 == 1,
    tile := bitsOf ct 0 4, fmta := bitsOf ct 4 4, fmtb := bitsOf ct 8 4, fmtc := bitsOf ct 12 4, slota := bitsOf ct 16 4,
    slotb := bitsOf ct 20 4, zero := bitsOf ct 24 1 == 1, store := bitsOf ct 25 1 == 1, sat := bitsOf ct 26 1 == 1,
    rsv := bitsOf ct 27 5 }

def entryA (e : PEntry) : Operand := ⟨e.slota, e.fmta, e.mxa, e.m, e.k⟩
def entryB (e : PEntry) : Operand := ⟨e.slotb, e.fmtb, e.mxb, e.n, e.k⟩

/-- An entry that is no illegal encoding (R220); FMTC is looked at when the entry stores, but for the reserved code (R86). -/
def entryLegal (e : PEntry) : Bool :=
  e.rsv == 0 && (e.store || e.cWord == 0) && (pairSlice e.fmta e.fmtb).isSome && mxOk (entryA e) && mxOk (entryB e)
    && e.fmtc != 15 && (!e.store || moveFmtOk e.fmtc) && e.slota != e.slotb

/-- The memory rows of an operand (R218): elements, then scale rows. -/
def operandRows (addr pitch : Nat) (o : Operand) : List (Nat × Nat) :=
  (List.range o.rows).map (fun r => (addr + r * pitch, rowBytes o.code o.k)) ++
    (if o.mx then (List.range o.rows).map (fun r => (addr + o.rows * pitch + r * roundUp (o.k / 32) 64, o.k / 32)) else [])

def entryReads (e : PEntry) : List (Nat × Nat) := operandRows e.a e.aPitch (entryA e) ++ operandRows e.b e.bPitch (entryB e)
def entryWrites (e : PEntry) : List (Nat × Nat) :=
  if e.store then (List.range e.m).map (fun r => (e.c + r * e.cPitch, rowBytes e.fmtc e.n)) else []

/-- The fault of an entry, in the order of R162 (R220). -/
def entryFault (s : State) (id : CoreId) (c : Core) (e : PEntry) : Option Nat :=
  if !entryLegal e then some 0x1001
  else if c.tileLimit ≤ e.tile then some 0x2101
  else
    let at_ := fun write (r : Nat × Nat) => (coreAccessFault s id r.1 r.2 write).map (fun x => ({ code := x } : FaultRec))
    (firstFault
      ((if e.a % 64 ≠ 0 || e.b % 64 ≠ 0 || (e.store && e.c % 64 != 0) then [some { code := 0x1003 }] else [])
        ++ (if slotSize < opBytes (entryA e) || slotSize < opBytes (entryB e) then [some { code := 0x2105 }] else [])
        ++ (entryReads e).map (at_ false) ++ (entryWrites e).map (at_ true))).map (fun r => r.code)

def entryTouch (e : PEntry) : Touch :=
  { rdB := [e.slota, e.slotb], wrB := [e.slota, e.slotb], rdT := if e.zero then [] else [e.tile], wrT := [e.tile] }

/-- Load one operand into its slot, densely (R172, R218, R219). -/
def loadOperand (id : CoreId) (addr pitch : Nat) (o : Operand) (s : State) : State :=
  let rb := rowBytes o.code o.k
  let s := (List.range o.rows).foldl (fun t r =>
    let x := coreRead t (addr + r * pitch) rb
    updCore x.2 id (fun k => k.setSlotBytes o.slot (r * rb) x.1)) s
  if o.mx then
    (List.range o.rows).foldl (fun t r =>
      let x := coreRead t (addr + o.rows * pitch + r * roundUp (o.k / 32) 64) (o.k / 32)
      updCore x.2 id (fun k => k.setSlotBytes o.slot (opScales o + r * (o.k / 32)) x.1)) s
  else s

/-- Store rows 0 to M − 1, columns 0 to N − 1 of the tile (R219). -/
def storeTile (id : CoreId) (e : PEntry) (s : State) : State :=
  (List.range e.m).foldl (fun t r =>
    let c := t.core id
    let es := (List.range e.n).map (fun j => accElem e.fmtc e.sat (c.elem e.tile r j))
    let b := packElems e.fmtc (es.map (fun x => x.bits))
    let t := coreStore t (e.c + r * e.cPitch) (b ++ List.replicate (rowBytes e.fmtc e.n - b.length) 0)
    updCore t id (fun k => addFlags k false (es.foldl (fun a x => a ||| x.flags) 0))) s

/-- The effect of a checked entry (R219). -/
def runEntry (id : CoreId) (e : PEntry) (s : State) : State :=
  let s := loadOperand id e.a e.aPitch (entryA e) s
  let s := loadOperand id e.b e.bPitch (entryB e) s
  let s := updCore s id (fun k =>
    let x := mmaRun k k e.tile (entryA e) (entryB e) ((pairSlice e.fmta e.fmtb).getD 1) e.zero
    addFlags x.1 false x.2)
  if e.store then storeTile id e s else s

/-- The launch goes on to the next entry, or PLIST retires with its last. -/
def nextEntry (id : CoreId) (p : PlistRun) (s : State) : State :=
  if p.index + 1 < p.count then
    updCore s id (fun k => { k with plist := some { p with index := p.index + 1 }, wait := 0, waitOn := [] })
  else retire (updCore s id (fun k => { k with plist := none })) id

/-- One entry: its checks, then its effect; a fault names the entry (R225). -/
def plistEntry (id : CoreId) (p : PlistRun) (s : State) : Result :=
  let c := s.core id
  let ea := p.base.toNat + 32 * p.index
  let faultNow := fun code => finish (takeFault s id c.pc { code := code, addr := ea, index := some p.index } false)
  let shut := fun (r : Nat × Nat) => readWaits s c r.1 r.2 || (ownChip s r.1 && shoreBlocked s (placeBits r.1) r.2)
  let keysOf := fun (rs : List (Nat × Nat)) => (rs.map (fun r => waitKeys s (placeBits r.1) r.2)).flatten
  let bad := fun (r : Nat × Nat) => ownChip s r.1 && poisoned s (placeBits r.1) r.2
  if 4096 ≤ p.index then faultNow 0x2104
  else match coreAccessFault s id ea 32 false with
    | some code => faultNow code
    | none =>
      if shut (ea, 32) then waitAt s id 4 (keysOf [(ea, 32)])
      else if bad (ea, 32) then finish (dataErrorFault s id c.pc ea (some p.index))
      else
        let x := coreRead s ea 32
        let e := entryOf x.1
        let rs := (entryReads e).filter (fun r => ownChip s r.1)
        match entryFault s id c e with
        | some code => faultNow code
        | none =>
          if (entryReads e).any shut then waitAt s id 4 (keysOf rs)
          else if (entryWrites e).any (fun r => writeWaits s c r.1 r.2) then waitAt s id 4
          else if scoreboardHolds c (entryTouch e) then waitAt s id 7
          else match (entryReads e).find? bad with
            | some r => finish (dataErrorFault x.2 id c.pc r.1 (some p.index))
            | none => finish (nextEntry id p (runEntry id e x.2))

/-- PLIST_ENTRY (R219 to R223): the entry at INDEX of the launch in progress. -/
def execPlistEntry (core : CoreId) (s : State) : Result :=
  if !coreOk core then .fault (.illFormed "PLIST_ENTRY")
  else
    let c := s.core core
    match c.plist with
    | none => .next s
    | some p =>
      if !running s || partState s (coreDie core) != 0 || !takesError c then .next s else plistEntry core p s

end Sys2Proof.Machine
end

