-- ==== Sys2Proof/Machine/RowStat.lean ====
section
/-! DEFINITION. Row statistics and the soft maximum (07 R200 to R210, R489; 06 R176). -/

namespace Sys2Proof.Machine

/-! Rows (R200). -/

/-- A row's fields: mean or maximum, M2 or sum, factor, log-sum-exp, count, status bits. -/
structure Row where
  x0 : W40
  x1 : W40
  factor : W40
  lse : W40
  count : Nat
  status : Nat
deriving DecidableEq, Repr

def rowOf (bs : List Byte) : Row :=
  { x0 := BitVec.ofNat 40 (fieldLE bs 0 5), x1 := BitVec.ofNat 40 (fieldLE bs 5 5), factor := BitVec.ofNat 40 (fieldLE bs 10 5),
    lse := BitVec.ofNat 40 (fieldLE bs 15 5), count := fieldLE bs 20 4, status := fieldLE bs 24 2 }
def rowToBytes (r : Row) : List Byte :=
  bytesLE 5 r.x0.toNat ++ bytesLE 5 r.x1.toNat ++ bytesLE 5 r.factor.toNat ++ bytesLE 5 r.lse.toNat ++ bytesLE 4 r.count
    ++ bytesLE 2 r.status ++ bytesLE 6 0

/-- Row r of block k as the core reads and writes it. -/
def Core.row (c : Core) (k r : Nat) : Row := rowOf (c.rowBytes k r)
def Core.setRow (c : Core) (k r : Nat) (x : Row) : Core := c.setRowBytes k r (rowToBytes x)

/-- Status bits. -/
abbrev rsAllMasked : Nat := 1
abbrev rsNonfinite : Nat := 2
abbrev rsFinished : Nat := 4
abbrev rsStats : Nat := 8
abbrev rsSoftmax : Nat := 16
abbrev rsRange : Nat := 32
def Row.has (r : Row) (bit : Nat) : Bool := r.status &&& bit != 0

/-- −2^120, at or below which a score is masked (R207). -/
def maskedMax : Num := .fin true 1 120
def xfNan : W40 := BitVec.ofNat 40 fmtXf40.nanBits

/-! Rounding into XF40 with RANGE (R200, R489). -/

/-- A rounded value and the RANGE bit it sets. -/
structure Ranged where
  v : W40
  range : Nat
deriving DecidableEq, Repr

def rne40 (x : Num) : Ranged :=
  let r := toXf40 x
  ⟨BitVec.ofNat 40 r.bits, if r.flags &&& (afOverflow + afFlushed) != 0 then rsRange else 0⟩

/-- x / n as a value that rounds into XF40 or FP32 as the exact quotient does: 80 bits and a sticky one. -/
def numDivNat (x : Num) (n : Nat) : Num :=
  match x with
  | .fin s m e => if n = 0 then .nan else .fin s (2 * (m * 2 ^ 80 / n) + (if m * 2 ^ 80 % n = 0 then 0 else 1)) (e - 81)
  | y => y

/-- An FP32 lane as an XF40 value, with RANGE for a subnormal that becomes zero (03 R99). -/
def lane40 (w : W32) : Ranged := rne40 (fp32 w)
def numOfNat (n : Nat) : Num := .fin false n 0

/-! Welford and Chan (R203, R204). -/

/-- One lane of RSW. -/
def welfordStep (r : Row) (w : W32) : Row :=
  let x := lane40 w
  let n := r.count + 1
  if !numFinite (xf40 x.v) then
    { r with count := n, x0 := xfNan, x1 := xfNan, status := r.status ||| rsNonfinite }
  else
    let m := xf40 r.x0
    let d := numSub (xf40 x.v) m
    let mean := rne40 (numDivNat (numAdd false (numMul m (numOfNat n)) d) n)
    let m2 := rne40 (numAdd false (xf40 r.x1) (numMul d (numSub (xf40 x.v) (xf40 mean.v))))
    { r with count := n, x0 := mean.v, x1 := m2.v, status := r.status ||| x.range ||| mean.range ||| m2.range }

/-- RSW over lanes; a row that takes one is a statistics row. -/
def welford (r : Row) (lanes : List W32) : Row :=
  if lanes.isEmpty then r
  else let r := lanes.foldl welfordStep r
       { r with status := r.status ||| rsStats }

/-- RSC: b merged into a. -/
def chan (a b : Row) : Row :=
  if b.count = 0 then a
  else if a.count = 0 then b
  else
    let n := a.count + b.count
    let d := numSub (xf40 b.x0) (xf40 a.x0)
    let mean := rne40 (numDivNat (numAdd false (numMul (xf40 a.x0) (numOfNat n)) (numMul d (numOfNat b.count))) n)
    let m2 := rne40 (numDivNat (numAdd false (numMul (numAdd false (xf40 a.x1) (xf40 b.x1)) (numOfNat n))
      (numMul (numMul d d) (numOfNat (a.count * b.count)))) n)
    { a with count := n, x0 := mean.v, x1 := m2.v, status := a.status ||| b.status ||| rsStats ||| mean.range ||| m2.range }

/-! Packed sB (06 R176). -/

def packRow (v : W64) : Nat := v.toNat % 128
def packLen (v : W64) : Nat := min 128 (bitsOf v.toNat 8 8)
/-- The lanes 0 to L − 1 that MASK leaves in. -/
def packLanes (c : Core) (mask : BitVec 4) (v : W64) : List Nat :=
  (List.range (packLen v)).filter (fun i => (c.mask mask.toNat).getLsbD i)

/-- Block numbers: C is below 16 by its encoding, and must lie below the limit (02 R73). -/
def blockFault (l : List Nat) (c : Core) : Option FaultRec :=
  if l.any (fun k => decide (c.rowLimit ≤ k)) then some { code := 0x2102 } else none

/-- RM, SAT, ZM, LANE, FMT and the reserved bits are zero. -/
def rsPlain (f : RegF) : Bool := f.rm == 0 && f.sat == 0 && f.zm == 0 && f.lane == 0 && f.fmt == 0 && f.rsv == 0

/-- A row-statistics instruction. -/
def rowExec (mn : String) (id : CoreId) (legal : Bool) (fault : State → Core → Option FaultRec) (touch : Core → Touch)
    (effect : State → Core → Core → Core × Nat) (s : State) : Result :=
  issue mn id s legal fault touch noBlock
    (fun c t => updCore t id (fun k =>
      let x := effect t c k
      addFlags x.1 (tainted c (touch c)) x.2))

/-- A row of the other kind (R205, R210). -/
def rowKind (bad : Bool) : Option FaultRec := if bad then some { code := 0xC005 } else none
def orElse (a b : Option FaultRec) : Option FaultRec :=
  match a with
  | some x => some x
  | none => b

/-! RSW and RSC. -/

def execRsw (core : CoreId) (f : RegF) (s : State) : Result :=
  rowExec "RSW" core (isS f.b && is16 f.c && f.d == 0 && rsPlain f)
    (fun _ c =>
      let r := c.row f.c.toNat (packRow (c.s f.b.toNat))
      orElse (blockFault [f.c.toNat] c) (orElse (rowKind (r.has rsSoftmax))
        (if 2 ^ 24 < r.count + (packLanes c f.mask (c.s f.b.toNat)).length then some { code := 0x2103 } else none)))
    (fun _ => { rdV := [f.a.toNat], rdR := [f.c.toNat], wrR := [f.c.toNat] })
    (fun _ c k =>
      let i := packRow (c.s f.b.toNat)
      (k.setRow f.c.toNat i (welford (k.row f.c.toNat i)
        ((packLanes c f.mask (c.s f.b.toNat)).map (fun j => c.lane f.a.toNat j))), 0)) s

def execRsc (core : CoreId) (f : RegF) (s : State) : Result :=
  rowExec "RSC" core (is16 f.a && isS f.b && is16 f.c && f.d == 0 && f.mask == 0 && rsPlain f)
    (fun _ c =>
      let i := packRow (c.s f.b.toNat)
      let a := c.row f.c.toNat i
      let b := c.row f.a.toNat i
      orElse (blockFault [f.a.toNat, f.c.toNat] c) (orElse (rowKind (a.has rsSoftmax || b.has rsSoftmax))
        (if 2 ^ 24 < a.count + b.count then some { code := 0x2103 } else none)))
    (fun _ => { rdR := [f.a.toNat, f.c.toNat], wrR := [f.c.toNat] })
    (fun _ c k =>
      let i := packRow (c.s f.b.toNat)
      (k.setRow f.c.toNat i (chan (k.row f.c.toNat i) (k.row f.a.toNat i)), 0)) s

/-! RSRD and RSCLR (R201, R206). -/

/-- max(+0, x). -/
def clampZero (x : Num) : Num := if x = .nan then .nan else if numLt (.fin false 0 0) x then x else .fin false 0 0

/-- What a quantity of a row reads as, as an FP32 lane. -/
def rowQuantity (r : Row) (q : Nat) (sat : Bool) : Rounded :=
  let conv := fun x => toFp32 rmRNE sat x
  let soft := r.has rsSoftmax
  let zero : Num := .fin false 0 0
  let whole : Bool := !r.has rsStats
  match q with
  | 0 => conv (if r.count = 0 || soft then zero else xf40 r.x0)
  | 1 => conv (if r.count = 0 || soft then zero else clampZero (xf40 (rne40 (numDivNat (xf40 r.x1) r.count)).v))
  | 2 => conv (numOfNat r.count)
  | 3 => conv (if !whole then zero else if r.count = 0 then maskedMax else xf40 r.x0)
  | 4 => conv (if !whole || r.count = 0 then zero else xf40 r.x1)
  | 5 => conv (if !whole then zero else if r.count = 0 && !r.has rsFinished then .fin false 1 0 else xf40 r.factor)
  | 6 => conv (if whole && r.has rsFinished then xf40 r.lse else zero)
  | _ => ⟨r.status, 0⟩

def execRsrd (core : CoreId) (f : RegF) (s : State) : Result :=
  rowExec "RSRD" core
    (is16 f.c && f.a == 0 && f.b == 0 && f.mask == 0 && f.rm == 0 && f.zm == 0 && f.fmt == 0 && f.rsv == 0 && f.lane.toNat ≤ 7)
    (fun _ c => blockFault [f.c.toNat] c)
    (fun _ => { wrV := [f.d.toNat], rdR := [f.c.toNat] })
    (fun _ _ k =>
      let ls := (List.range 128).map (fun r => rowQuantity (k.row f.c.toNat r) f.lane.toNat (satOf f))
      (k.setVreg f.d.toNat (wordsOfResults ls), joinFlags ls)) s

def execRsclr (core : CoreId) (f : RegF) (s : State) : Result :=
  rowExec "RSCLR" core (is16 f.c && f.d == 0 && f.a == 0 && f.b == 0 && f.mask == 0 && rsPlain f)
    (fun _ c => blockFault [f.c.toNat] c)
    (fun _ => { wrR := [f.c.toNat] })
    (fun _ _ k => (k.zeroRows f.c.toNat, 0)) s

/-! The soft maximum (R207 to R209). -/

/-- EXP or LOG in class FP32 on rne32 of an exact value; it sets no flag (R489). -/
def fp32Of (x : Num) : W32 := BitVec.ofNat 32 (toFp32 rmRNE false x).bits
def exp32 (x : Num) : Num := fp32 (BitVec.ofNat 32 (stdLane 0x10 0 rmRNE false (fp32Of x)).bits)
def log32 (x : Num) : Num := fp32 (BitVec.ofNat 32 (stdLane 0x12 0 rmRNE false (fp32Of x)).bits)

/-- The result of an SMX: the row, the lanes, and the flags of the lanes in U. -/
structure Soft where
  row : Row
  lanes : List W32
  flags : Nat
deriving DecidableEq, Repr

/-- SMX on a row with these scores; `u`: the lanes in U. -/
def softStep (r : Row) (cls rm : Nat) (sat : Bool) (score : Nat → W32) (u : List Nat) : Soft :=
  let bad := r.has rsNonfinite || u.any (fun i => !numFinite (fp32 (score i)))
  let count := min (r.count + u.length) (2 ^ 32 - 1)
  if bad then
    let nan := classLane cls (narrowTo cls rm sat .nan)
    { row := { x0 := xfNan, x1 := xfNan, factor := xfNan, lse := r.lse, count := count,
               status := r.status ||| rsNonfinite ||| rsSoftmax }
      lanes := (List.range 128).map (fun i => if u.contains i then BitVec.ofNat 32 nan.bits else 0)
      flags := if u.isEmpty then 0 else nan.flags }
  else
    let old := if r.count = 0 then maskedMax else xf40 r.x0
    let new := u.foldl (fun m i => numMax m (fp32 (score i))) old
    let c : Num := if numEq new old then .fin false 1 0 else if r.count = 0 then .fin false 0 0 else exp32 (numSub old new)
    let ps := (List.range 128).map (fun i =>
      if u.contains i then stdLane 0x10 cls rm sat (fp32Of (numSub (fp32 (score i)) new)) else (⟨0, 0⟩ : Rounded))
    let sum0 := if r.count = 0 then .fin false 0 0 else xf40 r.x1
    let sum := rne40 (ps.foldl (fun a p => numAdd false a (fp32 (BitVec.ofNat 32 p.bits))) (numMul sum0 c))
    let mx := rne40 new
    let fac := rne40 c
    { row := { x0 := mx.v, x1 := sum.v, factor := fac.v, lse := r.lse, count := count,
               status := r.status ||| rsSoftmax ||| sum.range ||| mx.range ||| fac.range }
      lanes := wordsOfResults ps
      flags := joinFlags ps }

/-- A score that enters: not at or below −2^120. -/
def unmasked (w : W32) : Bool := !(numLt (fp32 w) maskedMax || numEq (fp32 w) maskedMax)

def smxTouch (f : RegF) (_ : Core) : Touch :=
  { rdV := [f.a.toNat], wrV := [f.d.toNat], rdR := [f.c.toNat], wrR := [f.c.toNat] }

/-- SMX. -/
def execSmx (core : CoreId) (f : RegF) (s : State) : Result :=
  rowExec "SMX" core (isS f.b && is16 f.c && outClass f.fmt.toNat && f.zm == 0 && f.lane == 0 && f.rsv == 0)
    (fun s c =>
      let r := c.row f.c.toNat (packRow (c.s f.b.toNat))
      orElse (blockFault [f.c.toNat] c) (orElse
        (if fnPresent s (coreOwner s core) 0x10 f.fmt.toNat then none else some { code := 0xC001 })
        (rowKind (r.has rsStats || r.has rsFinished))))
    (smxTouch f)
    (fun _ c k =>
      let i := packRow (c.s f.b.toNat)
      let u := (packLanes c f.mask (c.s f.b.toNat)).filter (fun j => unmasked (c.lane f.a.toNat j))
      let x := softStep (k.row f.c.toNat i) f.fmt.toNat (rmOf f) (satOf f) (c.lane f.a.toNat) u
      ((k.setRow f.c.toNat i x.row).setVreg f.d.toNat x.lanes, x.flags)) s

/-- SMXF on one row (R209): rne40(1 / sum), and maximum + LOG(sum). -/
def softFinish (r : Row) : Row :=
  if r.count = 0 then
    { r with x1 := 0, factor := 0, lse := BitVec.ofNat 40 (infBits fmtXf40 true),
             status := r.status ||| rsAllMasked ||| rsSoftmax ||| rsFinished }
  else if !r.has rsSoftmax then r
  else if r.has rsNonfinite then
    { r with x1 := xfNan, factor := xfNan, lse := xfNan, status := r.status ||| rsFinished }
  else
    let sum := xf40 r.x1
    let fac := rne40 (match sum with
      | .fin n m e => if m = 0 then .inf n else numExp2 (numDivNat (.fin n 1 0) m) (-e)
      | .inf n => .fin n 0 0
      | .nan => .nan)
    let l := rne40 (numAdd false (xf40 r.x0) (log32 sum))
    { r with factor := fac.v, lse := l.v, status := r.status ||| rsFinished ||| fac.range ||| l.range }

/-- SMXF. -/
def execSmxf (core : CoreId) (f : RegF) (s : State) : Result :=
  rowExec "SMXF" core (is16 f.c && f.d == 0 && f.a == 0 && f.b == 0 && f.mask == 0 && rsPlain f)
    (fun _ c => blockFault [f.c.toNat] c)
    (fun _ => { rdR := [f.c.toNat], wrR := [f.c.toNat] })
    (fun _ _ k => ((List.range 128).foldl (fun x r => x.setRow f.c.toNat r (softFinish (k.row f.c.toNat r))) k, 0)) s

end Sys2Proof.Machine
end

