-- ==== Sys2Proof/Machine/Scalar.lean ====
section
/-! DEFINITION. Scalar instructions: arithmetic, loads and stores, branches and jumps (06 R164, R165; 05 R126, R127, R133). -/

namespace Sys2Proof.Machine

/-! Operations (06 R164). -/

def boolW (b : Bool) : W64 := if b then 1 else 0
def aluAdd (x y : W64) : W64 := x + y
def aluSub (x y : W64) : W64 := x - y
def aluAnd (x y : W64) : W64 := x &&& y
def aluOr (x y : W64) : W64 := x ||| y
def aluXor (x y : W64) : W64 := x ^^^ y
def aluShl (x y : W64) : W64 := x <<< (y.toNat % 64)
def aluShr (x y : W64) : W64 := x >>> (y.toNat % 64)
def aluSra (x y : W64) : W64 := x.sshiftRight (y.toNat % 64)
def aluSlt (x y : W64) : W64 := boolW (decide (x.toInt < y.toInt))
def aluSltu (x y : W64) : W64 := boolW (decide (x.toNat < y.toNat))
def aluMin (x y : W64) : W64 := if x.toInt ≤ y.toInt then x else y
def aluMinu (x y : W64) : W64 := if x.toNat ≤ y.toNat then x else y
def aluMax (x y : W64) : W64 := if x.toInt ≤ y.toInt then y else x
def aluMaxu (x y : W64) : W64 := if x.toNat ≤ y.toNat then y else x
def aluMul (x y : W64) : W64 := x * y
def aluMulh (x y : W64) : W64 := BitVec.ofInt 64 (x.toInt * y.toInt / 2 ^ 64)
def aluMulhu (x y : W64) : W64 := BitVec.ofNat 64 (x.toNat * y.toNat / 2 ^ 64)
/-- Truncating quotient; −1 by zero (05 R133); the one overflow wraps. -/
def aluDiv (x y : W64) : W64 := if y = 0 then allOnes64 else BitVec.ofInt 64 (x.toInt.tdiv y.toInt)
def aluDivu (x y : W64) : W64 := if y = 0 then allOnes64 else BitVec.ofNat 64 (x.toNat / y.toNat)
/-- Truncating remainder; the dividend by zero (06 R164). -/
def aluRem (x y : W64) : W64 := if y = 0 then x else BitVec.ofInt 64 (x.toInt.tmod y.toInt)
def aluRemu (x y : W64) : W64 := if y = 0 then x else BitVec.ofNat 64 (x.toNat % y.toNat)

/-! Forms. -/

/-- A scalar REG word: three scalar registers, every other field zero (06 R161). -/
def regScalarLegal (f : RegF) : Bool :=
  isS f.d && isS f.a && isS f.b && f.c == 0 && f.mask == 0 && f.rm == 0 && f.sat == 0 && f.zm == 0 && f.lane == 0 && f.fmt == 0
    && f.rsv == 0

/-- sD = sA op sB. -/
def scalarReg (mn : String) (op : W64 → W64 → W64) (id : CoreId) (f : RegF) (s : State) : Result :=
  issue mn id s (regScalarLegal f) noFault noTouch noBlock
    (fun c t => updCore t id (fun k => k.setS f.d.toNat (op (c.s f.a.toNat) (c.s f.b.toNat))))

/-- A scalar IMM word that uses D, A and IMM32. -/
def immScalarLegal (f : ImmF) : Bool := isS f.d && isS f.a && f.b == 0 && f.rsv == 0

/-- sD = sA op sext(IMM32). -/
def scalarImm (mn : String) (op : W64 → W64 → W64) (id : CoreId) (f : ImmF) (s : State) : Result :=
  issue mn id s (immScalarLegal f) noFault noTouch noBlock
    (fun c t => updCore t id (fun k => k.setS f.d.toNat (op (c.s f.a.toNat) (sext32 f.imm))))

/-- An immediate shift: IMM32[31:6] must be zero (06 R164). -/
def shiftImm (mn : String) (op : W64 → W64 → W64) (id : CoreId) (f : ImmF) (s : State) : Result :=
  issue mn id s (immScalarLegal f && f.imm.toNat < 64) noFault noTouch noBlock
    (fun c t => updCore t id (fun k => k.setS f.d.toNat (op (c.s f.a.toNat) (sext32 f.imm))))

def execAdd (core : CoreId) (f : RegF) (s : State) : Result := scalarReg "ADD" aluAdd core f s
def execSub (core : CoreId) (f : RegF) (s : State) : Result := scalarReg "SUB" aluSub core f s
def execAnd (core : CoreId) (f : RegF) (s : State) : Result := scalarReg "AND" aluAnd core f s
def execOr (core : CoreId) (f : RegF) (s : State) : Result := scalarReg "OR" aluOr core f s
def execXor (core : CoreId) (f : RegF) (s : State) : Result := scalarReg "XOR" aluXor core f s
def execShl (core : CoreId) (f : RegF) (s : State) : Result := scalarReg "SHL" aluShl core f s
def execShr (core : CoreId) (f : RegF) (s : State) : Result := scalarReg "SHR" aluShr core f s
def execSra (core : CoreId) (f : RegF) (s : State) : Result := scalarReg "SRA" aluSra core f s
def execSlt (core : CoreId) (f : RegF) (s : State) : Result := scalarReg "SLT" aluSlt core f s
def execSltu (core : CoreId) (f : RegF) (s : State) : Result := scalarReg "SLTU" aluSltu core f s
def execMin (core : CoreId) (f : RegF) (s : State) : Result := scalarReg "MIN" aluMin core f s
def execMinu (core : CoreId) (f : RegF) (s : State) : Result := scalarReg "MINU" aluMinu core f s
def execMax (core : CoreId) (f : RegF) (s : State) : Result := scalarReg "MAX" aluMax core f s
def execMaxu (core : CoreId) (f : RegF) (s : State) : Result := scalarReg "MAXU" aluMaxu core f s
def execMul (core : CoreId) (f : RegF) (s : State) : Result := scalarReg "MUL" aluMul core f s
def execMulh (core : CoreId) (f : RegF) (s : State) : Result := scalarReg "MULH" aluMulh core f s
def execMulhu (core : CoreId) (f : RegF) (s : State) : Result := scalarReg "MULHU" aluMulhu core f s
def execDiv (core : CoreId) (f : RegF) (s : State) : Result := scalarReg "DIV" aluDiv core f s
def execDivu (core : CoreId) (f : RegF) (s : State) : Result := scalarReg "DIVU" aluDivu core f s
def execRem (core : CoreId) (f : RegF) (s : State) : Result := scalarReg "REM" aluRem core f s
def execRemu (core : CoreId) (f : RegF) (s : State) : Result := scalarReg "REMU" aluRemu core f s

def execAddi (core : CoreId) (f : ImmF) (s : State) : Result := scalarImm "ADDI" aluAdd core f s
def execSubi (core : CoreId) (f : ImmF) (s : State) : Result := scalarImm "SUBI" aluSub core f s
def execAndi (core : CoreId) (f : ImmF) (s : State) : Result := scalarImm "ANDI" aluAnd core f s
def execOri (core : CoreId) (f : ImmF) (s : State) : Result := scalarImm "ORI" aluOr core f s
def execXori (core : CoreId) (f : ImmF) (s : State) : Result := scalarImm "XORI" aluXor core f s
def execShli (core : CoreId) (f : ImmF) (s : State) : Result := shiftImm "SHLI" aluShl core f s
def execShri (core : CoreId) (f : ImmF) (s : State) : Result := shiftImm "SHRI" aluShr core f s
def execSrai (core : CoreId) (f : ImmF) (s : State) : Result := shiftImm "SRAI" aluSra core f s
def execSlti (core : CoreId) (f : ImmF) (s : State) : Result := scalarImm "SLTI" aluSlt core f s
def execSltui (core : CoreId) (f : ImmF) (s : State) : Result := scalarImm "SLTUI" aluSltu core f s
def execMini (core : CoreId) (f : ImmF) (s : State) : Result := scalarImm "MINI" aluMin core f s
def execMinui (core : CoreId) (f : ImmF) (s : State) : Result := scalarImm "MINUI" aluMinu core f s
def execMaxi (core : CoreId) (f : ImmF) (s : State) : Result := scalarImm "MAXI" aluMax core f s
def execMaxui (core : CoreId) (f : ImmF) (s : State) : Result := scalarImm "MAXUI" aluMaxu core f s

/-- SETHI: sD = sA[31:0] + (IMM32 << 32). -/
def sethiValue (x : W64) (imm : BitVec 32) : W64 := (x.setWidth 32).setWidth 64 + (imm.setWidth 64 <<< 32)
def execSethi (core : CoreId) (f : ImmF) (s : State) : Result :=
  issue "SETHI" core s (immScalarLegal f) noFault noTouch noBlock
    (fun c t => updCore t core (fun k => k.setS f.d.toNat (sethiValue (c.s f.a.toNat) f.imm)))

/-! Loads and stores. -/

/-- The data address sA + sext(IMM32). -/
def dataAddr (c : Core) (f : ImmF) : Nat := (c.s f.a.toNat + sext32 f.imm).toNat

/-- Faults of a scalar access of n bytes: alignment, then the access's own (06 R162). -/
def scalarAccessFault (s : State) (id : CoreId) (a n : Nat) (write : Bool) : Option FaultRec :=
  if a % n ≠ 0 then some { code := 0x1003, addr := a }
  else (coreAccessFault s id a n write).map (fun e => { code := e, addr := a })

/-- A scalar load of n bytes (06 R164): a read that never takes the core to sea (02 R61). -/
def scalarLoad (mn : String) (n : Nat) (signed : Bool) (id : CoreId) (f : ImmF) (s : State) : Result :=
  issue mn id s (immScalarLegal f)
    (fun s c => scalarAccessFault s id (dataAddr c f) n false)
    noTouch
    (fun s c =>
      let a := dataAddr c f
      if readWaits s c a n || (ownChip s a && shoreBlocked s (placeBits a) n) then some (4, waitKeys s (placeBits a) n) else none)
    (fun c t =>
      let a := dataAddr c f
      if ownChip t a && poisoned t (placeBits a) n then dataErrorFault t id c.pc a none
      else
        let r := coreRead t a n
        let v : W64 := if signed then BitVec.ofInt 64 (signedOf (8 * n) (natLE r.1)) else BitVec.ofNat 64 (natLE r.1)
        updCore r.2 id (fun k => k.setS f.d.toNat v))

def execLd8 (core : CoreId) (f : ImmF) (s : State) : Result := scalarLoad "LD8" 1 true core f s
def execLd8u (core : CoreId) (f : ImmF) (s : State) : Result := scalarLoad "LD8U" 1 false core f s
def execLd16 (core : CoreId) (f : ImmF) (s : State) : Result := scalarLoad "LD16" 2 true core f s
def execLd16u (core : CoreId) (f : ImmF) (s : State) : Result := scalarLoad "LD16U" 2 false core f s
def execLd32 (core : CoreId) (f : ImmF) (s : State) : Result := scalarLoad "LD32" 4 true core f s
def execLd32u (core : CoreId) (f : ImmF) (s : State) : Result := scalarLoad "LD32U" 4 false core f s
def execLd64 (core : CoreId) (f : ImmF) (s : State) : Result := scalarLoad "LD64" 8 false core f s

/-- A store word: A and B name scalar registers, D is zero. -/
def storeLegal (f : ImmF) : Bool := f.d == 0 && isS f.a && isS f.b && f.rsv == 0

/-- A scalar store of the low n bytes of sB; at sea it waits at the quay line (02 R70). -/
def scalarStore (mn : String) (n : Nat) (id : CoreId) (f : ImmF) (s : State) : Result :=
  issue mn id s (storeLegal f)
    (fun s c => scalarAccessFault s id (dataAddr c f) n true)
    (fun _ => { outside := true })
    (fun s c =>
      let a := dataAddr c f
      if writeWaits s c a n then some (4, []) else none)
    (fun c t => coreStore t (dataAddr c f) (bytesLE n (c.s f.b.toNat).toNat))

def execSt8 (core : CoreId) (f : ImmF) (s : State) : Result := scalarStore "ST8" 1 core f s
def execSt16 (core : CoreId) (f : ImmF) (s : State) : Result := scalarStore "ST16" 2 core f s
def execSt32 (core : CoreId) (f : ImmF) (s : State) : Result := scalarStore "ST32" 4 core f s
def execSt64 (core : CoreId) (f : ImmF) (s : State) : Result := scalarStore "ST64" 8 core f s

/-! Branches and jumps (06 R165). -/

/-- PC + sext(IMM32) × 8. -/
def branchTarget (pc : W64) (imm : BitVec 32) : W64 := pc + sext32 imm * 8

def branch (mn : String) (cond : W64 → W64 → Bool) (id : CoreId) (f : ImmF) (s : State) : Result :=
  issue mn id s (storeLegal f) noFault noTouch noBlock
    (fun c t => if cond (c.s f.a.toNat) (c.s f.b.toNat)
      then updCore t id (fun k => { k with pc := branchTarget c.pc f.imm }) else t)

def execBeq (core : CoreId) (f : ImmF) (s : State) : Result := branch "BEQ" (fun x y => x == y) core f s
def execBne (core : CoreId) (f : ImmF) (s : State) : Result := branch "BNE" (fun x y => x != y) core f s
def execBlt (core : CoreId) (f : ImmF) (s : State) : Result := branch "BLT" (fun x y => decide (x.toInt < y.toInt)) core f s
def execBge (core : CoreId) (f : ImmF) (s : State) : Result := branch "BGE" (fun x y => decide (y.toInt ≤ x.toInt)) core f s
def execBltu (core : CoreId) (f : ImmF) (s : State) : Result := branch "BLTU" (fun x y => decide (x.toNat < y.toNat)) core f s
def execBgeu (core : CoreId) (f : ImmF) (s : State) : Result := branch "BGEU" (fun x y => decide (y.toNat ≤ x.toNat)) core f s

/-- JAL: sD = PC + 8; PC = PC + sext(IMM32) × 8. -/
def execJal (core : CoreId) (f : ImmF) (s : State) : Result :=
  issue "JAL" core s (isS f.d && f.a == 0 && f.b == 0 && f.rsv == 0) noFault noTouch noBlock
    (fun c t => updCore t core (fun k => { k.setS f.d.toNat (c.pc + 8) with pc := branchTarget c.pc f.imm }))

/-- JALR: sD = PC + 8; PC = sA + sext(IMM32), with sA as it was. A misaligned target faults at the jump (05 R124). -/
def execJalr (core : CoreId) (f : ImmF) (s : State) : Result :=
  issue "JALR" core s (immScalarLegal f)
    (fun _ c => if dataAddr c f % 8 ≠ 0 then some { code := 0x1003, addr := dataAddr c f } else none)
    noTouch noBlock
    (fun c t => updCore t core (fun k =>
      { k.setS f.d.toNat (c.pc + 8) with pc := c.s f.a.toNat + sext32 f.imm }))

end Sys2Proof.Machine
end

