-- ==== Sys2Proof/Machine/VMem.lean ====
section
/-! DEFINITION. Vector loads and stores, in scratchpad and in operand slots, plain and block-scaled (06 R167 to R170; 05 R123). -/

namespace Sys2Proof.Machine

/-- Format code, element count, and sA + sext(IMM16). -/
def vmCode (f : VmemF) : Nat := f.fmt.toNat
def vmCount (f : VmemF) : Nat := f.nm1.toNat + 1
def vmBase (f : VmemF) (c : Core) : Nat := (c.s f.a.toNat + sext16 f.imm).toNat
def vmSlotForm (f : VmemF) : Bool := f.space == 1
def vmMx (f : VmemF) : Bool := f.mx == 1
/-- Bytes of the element row, and of its scales. -/
def vmBytes (f : VmemF) : Nat := rowBytes (vmCode f) (vmCount f)
def vmScales (f : VmemF) : Nat := if vmMx f then vmCount f / 32 else 0
/-- Where the scales lie: sB. -/
def vmScaleAt (f : VmemF) (c : Core) : Nat := (c.s f.b.toNat).toNat

/-- What VLD and VST both ask of their word (R161, R167, R170). -/
def vmLegal (f : VmemF) : Bool :=
  isS f.a && (if vmMx f then isS f.b && isMx (vmCode f) && vmCount f % 32 == 0 else f.b == 0) && (vmSlotForm f || f.slot == 0)

/-- VLD takes every format but BIT and XF40, E8M0 only plain; it never saturates and rounds only with MX (R169, R483). -/
def vldLegal (f : VmemF) : Bool := vmLegal f && vmCode f ≤ 12 && f.sat == 0 && (vmMx f || f.rm == 0)

/-- VST narrows to any format but E8M0, BIT and XF40; FP32 and INT32 are copied (R169, R483). -/
def vstLegal (f : VmemF) : Bool :=
  vmLegal f && vmCode f ≤ 11 && (!(vmCode f == cFp32 || vmCode f == cInt32) || (f.sat == 0 && f.rm == 0))

/-- The elements an access must begin at a multiple of (R168, R170). -/
def vmAlign (f : VmemF) : Nat :=
  if vmMx f then 32 else match fmtBits (vmCode f) with
    | 4 => 2
    | 6 => 4
    | _ => 1

/-- The first byte of the elements in the slot. -/
def vmSlotByte (f : VmemF) (c : Core) : Nat := vmBase f c * fmtBits (vmCode f) / 8

/-- The faults of steps 7 and 8 of R162. -/
def vmFault (f : VmemF) (write : Bool) (id : CoreId) (s : State) (c : Core) : Option FaultRec :=
  let a := vmBase f c
  if vmSlotForm f then
    if a % vmAlign f ≠ 0 then some { code := 0x1003 }
    else if slotSize < vmSlotByte f c + vmBytes f || (vmMx f && slotSize < vmScaleAt f c + vmScales f) then some { code := 0x2105 }
    else none
  else
    let inScratch := fun x => match placeOf (placeBits x) with
      | some (.scratch _ _) => true
      | _ => false
    let part := fun x n => if !inScratch x then some { code := 0x1002, addr := x : FaultRec }
      else (coreAccessFault s id x n write).map (fun e => { code := e, addr := x })
    if a % 64 ≠ 0 then some { code := 0x1003, addr := a }
    else firstFault [part a (vmBytes f), if vmMx f then part (vmScaleAt f c) (vmScales f) else none]

/-- The memory an access touches: elements, then scales. -/
def vmRanges (f : VmemF) (c : Core) : List (Nat × Nat) :=
  if vmSlotForm f then []
  else (vmBase f c, vmBytes f) :: (if vmMx f then [(vmScaleAt f c, vmScales f)] else [])

/-- The place ranges of those that lie on this chip. -/
def vmPlaces (f : VmemF) (s : State) (c : Core) : List (Nat × Nat) :=
  ((vmRanges f c).filter (fun r => ownChip s r.1)).map (fun r => (placeBits r.1, r.2))

/-! Loads. -/

def vldTouch (f : VmemF) (c : Core) : Touch :=
  { rdV := if (List.range (vmCount f)).all (fun i => (c.mask f.mask.toNat).getLsbD i) then [] else [f.v.toNat],
    wrV := [f.v.toNat], rdB := if vmSlotForm f then [f.slot.toNat] else [] }

/-- Element k as the lane's bits (05 R123; R169, R170). -/
def vldLane (f : VmemF) (elems scales : List Byte) (k : Nat) : Rounded :=
  let bits := elemBits (vmCode f) (fun i => elems.getD i 0) k
  if vmCode f = cFp32 || vmCode f = cInt32 then ⟨bits, 0⟩
  else if vmMx f then
    let r := toFp32 f.rm.toNat false (numMul (elemValue (vmCode f) bits) (mxScale (scales.getD (k / 32) 0)))
    ⟨r.bits, r.flags⟩
  else ⟨laneOf (vmCode f) bits, 0⟩

/-- The new lanes: elements where MASK is 1 below N, kept below N elsewhere, +0 from N on (R169). -/
def vldLanes (f : VmemF) (c : Core) (elems scales : List Byte) : List Rounded :=
  (List.range 128).map (fun i =>
    if vmCount f ≤ i then ⟨0, 0⟩
    else if (c.mask f.mask.toNat).getLsbD i then vldLane f elems scales i
    else ⟨(c.lane f.v.toNat i).toNat, 0⟩)

/-- The bytes a load reads, and the state after it. -/
def vldBytes (f : VmemF) (c : Core) (t : State) : List Byte × List Byte × State :=
  if vmSlotForm f then
    (c.slotBytes f.slot.toNat (vmSlotByte f c) (vmBytes f),
     if vmMx f then c.slotBytes f.slot.toNat (vmScaleAt f c) (vmScales f) else [], t)
  else
    let x := coreRead t (vmBase f c) (vmBytes f)
    if vmMx f then
      let y := coreRead x.2 (vmScaleAt f c) (vmScales f)
      (x.1, y.1, y.2)
    else (x.1, [], x.2)

/-- What a load does once it issues. -/
def vldEffect (f : VmemF) (id : CoreId) (c : Core) (t : State) : State :=
  match (vmPlaces f t c).find? (fun r => poisoned t r.1 r.2) with
  | some r => dataErrorFault t id c.pc (if r.1 = placeBits (vmBase f c) then vmBase f c else vmScaleAt f c) none
  | none =>
    let x := vldBytes f c t
    let ls := vldLanes f c x.1 x.2.1
    let fromSea := readsSea t (vmPlaces f t c)
    let bad := fromSea || tainted c (vldTouch f c)
    updCore x.2.2 id (fun k =>
      let k := k.setVreg f.v.toNat (wordsOfResults ls)
      let k := if fromSea then { k with taintV := setBitsOf k.taintV [f.v.toNat] } else k
      addFlags k bad (joinFlags ls))

/-- VLD (R168 to R170). -/
def execVld (core : CoreId) (f : VmemF) (s : State) : Result :=
  issue "VLD" core s (vldLegal f) (vmFault f false core) (vldTouch f)
    (fun s c =>
      let rs := vmPlaces f s c
      if (vmRanges f c).any (fun r => readWaits s c r.1 r.2) || (seaRead s c rs).isNone then
        some (4, (rs.map (fun r => waitKeys s r.1 r.2)).flatten)
      else none)
    (vldEffect f core)
    (fun s c => (seaRead s c (vmPlaces f s c)).getD [])

/-! Stores. -/

def vstTouch (f : VmemF) (_ : Core) : Touch :=
  { rdV := [f.v.toNat], wrB := if vmSlotForm f then [f.slot.toNat] else [],
    outside := !vmSlotForm f }

def vstActive (f : VmemF) (c : Core) (i : Nat) : Bool := (c.mask f.mask.toNat).getLsbD i

/-- The elements stored from lanes 0 to N − 1, and the scales of their blocks with MX (R94, R169, R170). -/
def vstElems (f : VmemF) (c : Core) : List Rounded × List Nat :=
  let lanes := (List.range (vmCount f)).map (fun i => c.lane f.v.toNat i)
  if vmMx f then
    let blocks := (List.range (vmScales f)).map (fun b =>
      mxBlock (vmCode f) f.rm.toNat (((lanes.drop (32 * b)).take 32).map fp32))
    ((blocks.map (fun x => x.2.1.map (fun e => (⟨e, x.2.2⟩ : Rounded)))).flatten, blocks.map (fun x => x.1))
  else if vmCode f = cFp32 || vmCode f = cInt32 then (lanes.map (fun w => ⟨w.toNat, 0⟩), [])
  else (lanes.map (fun w => narrowTo (vmCode f) f.rm.toNat (f.sat == 1) (fp32 w)), [])

/-- The row that results over `old`: stored elements where active, the old ones elsewhere; unused positions zero (03 R90). -/
def vstRow (f : VmemF) (c : Core) (old : List Byte) : List Byte :=
  let w := fmtBits (vmCode f)
  bytesLE (vmBytes f) ((vstElems f c).1.zipIdx.foldl (fun n x =>
    n + (if vstActive f c x.2 then x.1.bits else elemBits (vmCode f) (fun i => old.getD i 0) x.2) * 2 ^ (w * x.2)) 0)

/-- Some lane of block b is active, so that its scale is written. -/
def vstBlockActive (f : VmemF) (c : Core) (b : Nat) : Bool := (List.range 32).any (fun i => vstActive f c (32 * b + i))

/-- Byte j of the row belongs to an active element, or to the positions past the last one. -/
def vstTouches (f : VmemF) (c : Core) (j : Nat) : Bool :=
  let w := fmtBits (vmCode f)
  (List.range (vmCount f)).any (fun k => vstActive f c k && decide (k * w < 8 * j + 8) && decide (8 * j < k * w + w))
    || decide (vmCount f * w ≤ 8 * j)

/-- Flags of the elements stored. -/
def vstFlags (f : VmemF) (c : Core) : Nat :=
  (vstElems f c).1.zipIdx.foldl (fun a x => if vstActive f c x.2 then a ||| x.1.flags else a) 0

def vstAny (f : VmemF) (c : Core) : Bool := (List.range (vmCount f)).any (vstActive f c)
def vstAll (f : VmemF) (c : Core) : Bool := (List.range (vmCount f)).all (vstActive f c)

/-- A store into the slot. -/
def vstSlot (f : VmemF) (c k : Core) : Core :=
  let row := vstRow f c (c.slotBytes f.slot.toNat (vmSlotByte f c) (vmBytes f))
  let k := k.setSlotBytes f.slot.toNat (vmSlotByte f c) row
  (vstElems f c).2.zipIdx.foldl (fun k x =>
    if vstBlockActive f c x.2 then k.setSlotByte f.slot.toNat (vmScaleAt f c + x.2) (BitVec.ofNat 8 x.1) else k) k

/-- A store into scratchpad: whole when every element is stored, else byte by byte. -/
def vstMem (f : VmemF) (c : Core) (t : State) : State :=
  let a := vmBase f c
  let old := if ownChip t a then t.bytes (placeBits a) (vmBytes f) else []
  let row := vstRow f c old
  let t := if vstAll f c then coreStore t a row
    else row.zipIdx.foldl (fun t x => if vstTouches f c x.2 then coreStore t (a + x.2) [x.1] else t) t
  (vstElems f c).2.zipIdx.foldl (fun t x =>
    if vstBlockActive f c x.2 then coreStore t (vmScaleAt f c + x.2) [BitVec.ofNat 8 x.1] else t) t

/-- VST (R168 to R170). -/
def execVst (core : CoreId) (f : VmemF) (s : State) : Result :=
  issue "VST" core s (vstLegal f) (vmFault f true core) (vstTouch f)
    (fun s c => if vstAny f c && (vmRanges f c).any (fun r => writeWaits s c r.1 r.2) then some (4, []) else none)
    (fun c t =>
      if !vstAny f c then t
      else
        let t := updCore t core (fun k => addFlags k (tainted c (vstTouch f c)) (vstFlags f c))
        if vmSlotForm f then updCore t core (vstSlot f c) else vstMem f c t)

end Sys2Proof.Machine
end

