-- ==== Sys2Proof/Machine/CoreWord.lean ====
section
/-! DEFINITION. One instruction of a core from its word in memory, as STEP issues it (19 R479). -/

namespace Sys2Proof.Machine

/-- The meaning of a decoded instruction word. -/
def runCoreInstr (i : Instr) (s : State) : Result :=
  match i with
  | .add core f => execAdd core f s
  | .sub core f => execSub core f s
  | .and core f => execAnd core f s
  | .or core f => execOr core f s
  | .xor core f => execXor core f s
  | .shl core f => execShl core f s
  | .shr core f => execShr core f s
  | .sra core f => execSra core f s
  | .slt core f => execSlt core f s
  | .sltu core f => execSltu core f s
  | .min core f => execMin core f s
  | .minu core f => execMinu core f s
  | .max core f => execMax core f s
  | .maxu core f => execMaxu core f s
  | .mul core f => execMul core f s
  | .mulh core f => execMulh core f s
  | .mulhu core f => execMulhu core f s
  | .div core f => execDiv core f s
  | .divu core f => execDivu core f s
  | .rem core f => execRem core f s
  | .remu core f => execRemu core f s
  | .addi core f => execAddi core f s
  | .subi core f => execSubi core f s
  | .andi core f => execAndi core f s
  | .ori core f => execOri core f s
  | .xori core f => execXori core f s
  | .shli core f => execShli core f s
  | .shri core f => execShri core f s
  | .srai core f => execSrai core f s
  | .slti core f => execSlti core f s
  | .sltui core f => execSltui core f s
  | .mini core f => execMini core f s
  | .minui core f => execMinui core f s
  | .maxi core f => execMaxi core f s
  | .maxui core f => execMaxui core f s
  | .ld8 core f => execLd8 core f s
  | .ld8u core f => execLd8u core f s
  | .ld16 core f => execLd16 core f s
  | .ld16u core f => execLd16u core f s
  | .ld32 core f => execLd32 core f s
  | .ld32u core f => execLd32u core f s
  | .ld64 core f => execLd64 core f s
  | .st8 core f => execSt8 core f s
  | .st16 core f => execSt16 core f s
  | .st32 core f => execSt32 core f s
  | .st64 core f => execSt64 core f s
  | .beq core f => execBeq core f s
  | .bne core f => execBne core f s
  | .blt core f => execBlt core f s
  | .bge core f => execBge core f s
  | .bltu core f => execBltu core f s
  | .bgeu core f => execBgeu core f s
  | .vadd core f => execVadd core f s
  | .vsub core f => execVsub core f s
  | .vmul core f => execVmul core f s
  | .vfma core f => execVfma core f s
  | .vfnma core f => execVfnma core f s
  | .vmax core f => execVmax core f s
  | .vmin core f => execVmin core f s
  | .vabs core f => execVabs core f s
  | .vneg core f => execVneg core f s
  | .vmov core f => execVmov core f s
  | .vsel core f => execVsel core f s
  | .vmulx core f => execVmulx core f s
  | .vmuls core f => execVmuls core f s
  | .vadds core f => execVadds core f s
  | .vbcast core f => execVbcast core f s
  | .viadd core f => execViadd core f s
  | .visub core f => execVisub core f s
  | .vimul core f => execVimul core f s
  | .vand core f => execVand core f s
  | .vor core f => execVor core f s
  | .vxor core f => execVxor core f s
  | .vshl core f => execVshl core f s
  | .vshr core f => execVshr core f s
  | .vsra core f => execVsra core f s
  | .vimax core f => execVimax core f s
  | .vimin core f => execVimin core f s
  | .vidx core f => execVidx core f s
  | .vext core f => execVext core f s
  | .feq core f => execFeq core f s
  | .fne core f => execFne core f s
  | .flt core f => execFlt core f s
  | .fle core f => execFle core f s
  | .ieq core f => execIeq core f s
  | .ine core f => execIne core f s
  | .ilt core f => execIlt core f s
  | .ile core f => execIle core f s
  | .iltu core f => execIltu core f s
  | .mand core f => execMand core f s
  | .mor core f => execMor core f s
  | .mxor core f => execMxor core f s
  | .mandn core f => execMandn core f s
  | .mlen core f => execMlen core f s
  | .vrsum core f => execVrsum core f s
  | .vrmax core f => execVrmax core f s
  | .vrmin core f => execVrmin core f s
  | .vrisum core f => execVrisum core f s
  | .f2i core f => execF2i core f s
  | .i2f core f => execI2f core f s
  | .qnt core f => execQnt core f s
  | .aread core f => execAread core f s
  | .awrite core f => execAwrite core f s
  | .azero core f => execAzero core f s
  | .rsw core f => execRsw core f s
  | .rsc core f => execRsc core f s
  | .rsrd core f => execRsrd core f s
  | .rsclr core f => execRsclr core f s
  | .smx core f => execSmx core f s
  | .smxf core f => execSmxf core f s
  | .halt core f => execHalt core f s
  | .signal core f => execSignal core f s
  | .fence core f => execFence core f s
  | .synci core f => execSynci core f s
  | .rdfl core f => execRdfl core f s
  | .wrfl core f => execWrfl core f s
  | .mret core f => execMret core f s
  | .mcsr core f => execMcsr core f s
  | .mlog core f => execMlog core f s
  | .mtbl core f => execMtbl core f s
  | .sethi core f => execSethi core f s
  | .jal core f => execJal core f s
  | .jalr core f => execJalr core f s
  | .vld core f => execVld core f s
  | .vst core f => execVst core f s
  | .mma core f => execMma core f s
  | .mmaZ core f => execMmaZ core f s
  | .plist core f => execPlist core f s
  | .sfn core fn f => execSfn core fn f s
  | .sfg core fn f => execSfg core fn f s
  | .move core f => execMove core f s
  | .mwait core f => execMwait core f s
  | .badd core f => execBadd core f s
  | .twait core f => execTwait core f s
  | .rdtide core f => execRdtide core f s
  | .confirm core f => execConfirm core f s
  | _ => .next s

/-- One word of a core: an encoding that no instruction has is illegal (06 R161). -/
def runCoreWord (id : CoreId) (w : W64) (s : State) : Result :=
  match decodeCoreWord id w with
  | some i => runCoreInstr i s
  | none => issue "STEP" id s false noFault noTouch noBlock (fun _ t => t)

end Sys2Proof.Machine
end

