-- ==== Sys2Proof/Machine/Debug.lean ====
section
/-! DEFINITION. Field access (19 R475 to R479, R482): challenge and response, closing, observation words and STEP. Readings that the
words leave to inference are log 55. -/

namespace Sys2Proof.Machine

/-! The challenge (R476). -/

/-- Bytes of consecutive words of a page. -/
def pageBytes (s : State) (page off words : Nat) : List Byte :=
  ((List.range words).map (fun i => bytesLE 4 (s.rdN page (off + 4 * i)))).flatten

/-- Words written from an offset of a page. -/
def putWords (page : Nat) : Nat → List W32 → State → State
  | _, [], s => s
  | off, w :: ws, s => putWords page (off + 4) ws (s.wr page off w)

/-- ID_DIGEST: zero without identity. -/
def idDigest (s : State) : List Byte := if s.bit fIdentity then pageBytes s pgIdent 0x040 8 else List.replicate 32 0

/-- The challenge block. -/
def chalBlock (s : State) : List Byte := pageBytes s pgDebug 0x050 24
def chalLevel (s : State) : Nat := fieldLE (chalBlock s) 4 1
def chalExpiry (s : State) : W64 := BitVec.ofNat 64 (fieldLE (chalBlock s) 88 8)

/-- The command is refused: STATUS.CAUSE and EVT.REFUSED. -/
def refuseDebug (s : State) (cause : Nat) : State := raise (s.put fDebugCause cause) pgDebug 2 0

/-- The least set bit of a list of (cause, holds). -/
def firstCause : List (Nat × Bool) → Nat
  | [] => 0
  | (c, b) :: r => if b then c else firstCause r

/-- The cause of refusing a CHALLENGE, 0 for none. -/
def challengeCause (s : State) : Nat :=
  let level := s.get ⟨pgDebug, 0x040, 0, 2⟩
  let expiry := s.rd64 pgDebug 0x044
  let lead := (expiry - s.now).toNat
  firstCause [(1, level == 0), (2, decide (2 ≤ level) && berthMap s != 0),
    (3, s.tideValid && (decide (lead < 2 ^ 16) || decide (2 ^ 42 < lead) || refusedR22 s expiry)),
    (4, decide (level ≤ 2) && s.boot.opKey.all (fun b => b == 0)), (5, s.bit fRngFailed), (9, tideState s == 4)]

/-- CHALLENGE makes a challenge. -/
def makeChallenge (s : State) : State :=
  let c := challengeCause s
  if c ≠ 0 then refuseDebug s c
  else
    let r := s.random 48
    let expiry := if s.tideValid then s.rdN pgDebug 0x044 + 2 ^ 32 * s.rdN pgDebug 0x048 else 2 ^ 64 - 1
    let block := bytesLE 4 0x47444B48 ++ bytesLE 4 (s.get ⟨pgDebug, 0x040, 0, 2⟩) ++ (r.1 ++ List.replicate 48 0).take 48 ++ idDigest s ++ bytesLE 8 expiry
    (putWords pgDebug 0x050 (wordsOf block) r.2).put fChalValid 1

/-! The response (R477). -/

/-- RESPOND begins to be verified. -/
def beginRespond (s : State) : State :=
  if s.responding then s
  else if !s.bit fChalValid then refuseDebug s 6
  else { s with responding := true }.put fDebugBusy 1

/-- The operator key in RESP_KEY, with its header byte. -/
def respKey (s : State) : List Byte := 0x0A :: pageBytes s pgDebug 0x100 448

/-- The cause that ends a response, 0 for none: checked at completion, in ascending order. -/
def respondCause (s : State) : Nat :=
  let level := chalLevel s
  let key := if level = 3 then Config.vendorKey else respKey s
  firstCause [(2, decide (2 ≤ level) && berthMap s != 0), (3, s.tideValid && tideReached s.now (chalExpiry s)),
    (7, decide (level ≤ 2) && Config.shake256 (respKey s) 32 != s.boot.opKey),
    (8, !Config.falconVerify key (chalBlock s) (pageBytes s pgDebug 0x800 320)), (9, tideState s == 4)]

/-- Verification ends: the challenge is used up, and access opens or is refused. -/
def endRespond (s : State) : State :=
  let c := respondCause s
  let level := chalLevel s
  let expiry := chalExpiry s
  let s := { s with responding := false }
  let s := (s.put fDebugBusy 0).put fChalValid 0
  if c ≠ 0 then refuseDebug s c
  else
    let s := (s.put fDebugLevel level).wr64 pgDebug 0x0B0 expiry
    raise (s.putBit fNoExpiry (expiry == BitVec.allOnes 64)) pgDebug 0 0

def execOpened (s : State) : Result := if running s && s.responding then finish (endRespond s) else .next s

/-- A write of DEBUG.CMD. -/
def writeDebugCmd (s : State) (v : W32) : State :=
  match v.toNat with
  | 0 => s
  | 1 => makeChallenge s
  | 2 => beginRespond s
  | 4 => closeDebug s
  | _ => refuseDebug s 1

def execChallenge (a : Access) (s : State) : Result := hostWrite pgDebug 0x04C a writeDebugCmd s
def execRespond (a : Access) (s : State) : Result := hostWrite pgDebug 0x04C a writeDebugCmd s
def execClose (a : Access) (s : State) : Result := hostWrite pgDebug 0x04C a writeDebugCmd s

/-- The expiry tide is reached (R478; it waits through a stand, whose tide holds still at S). -/
def expiryDue (s : State) : Bool :=
  running s && debugLevel s != 0 && !s.bit fNoExpiry && s.tideValid && tideReached s.now (s.rd64 pgDebug 0x0B0)

def execDebugExpiry (s : State) : Result := if expiryDue s then finish (closeDebug s) else .next s

/-! Observation (R479). -/

/-- The fields of OBS_SEL. -/
def obsUnit (s : State) : Nat := s.get ⟨pgDebug, 0x0C0, 0, 8⟩
def obsIndex (s : State) : Nat := s.get ⟨pgDebug, 0x0C0, 8, 16⟩
def obsWordNo (s : State) : Nat := s.get ⟨pgDebug, 0x0C0, 24, 8⟩

/-- OBS_SEL is ignored below OBSERVE. -/
def writeObsSel (s : State) (v : W32) : State := if debugLevel s = 0 then s else s.wr pgDebug 0x0C0 v

/-- The scoreboard's busy bits: slots b0 to b15 and tiles a0 to a11 that outstanding moves or a problem list use. -/
def busyBits (c : Core) : Nat :=
  let slots := (c.moves.map (fun m => moveReadsSlot m ++ moveWritesSlot m)).flatten
  let tiles := (c.moves.map (fun m => moveReadsTile m ++ (if m.dk = 2 then [m.dst.toNat % 16] else []))).flatten
  (List.range 16).foldl (fun n i => if slots.contains i then n + 2 ^ i else n) 0
    + (List.range 12).foldl (fun n i => if tiles.contains i || (c.refT.getLsbD i) then n + 2 ^ (16 + i) else n) 0

/-- A core's observation words. -/
def obsCore (s : State) (id : CoreId) (w : Nat) : W32 :=
  let c := s.core id
  match w with
  | 0 => half c.pc false
  | 1 => half c.pc true
  | 2 => coreWord s id 0x00C
  | 3 => coreWord s id 0x204
  | 4 => BitVec.ofNat 32 (busyBits c)
  | 5 => BitVec.ofNat 32 c.fetchq.length
  | _ => 0

/-- OBS_DATA: zero below OBSERVE, for a unit bound to a berth (R475), and for a selection that R479 does not list. -/
def obsData (s : State) : W32 :=
  let i := obsIndex s
  let w := obsWordNo s
  if debugLevel s = 0 then 0
  else match obsUnit s with
    | 1 =>
      let id : CoreId := BitVec.ofNat 12 i
      if 4096 ≤ i || !coreOk id || clusterOwner s (i / 64) != 0xFF then 0 else obsCore s id w
    | 2 =>
      if 16 ≤ i then 0
      else if w < 4 then BitVec.ofNat 32 ((nth (s.link i).credits w).getD 0)
      else if w = 4 then BitVec.ofNat 32 (s.link i).slots.length
      else 0
    | 3 => if 64 ≤ i || clusterOwner s i != 0xFF || w ≠ 1 then 0 else BitVec.ofNat 32 (sqStat s i)
    | _ => 0

/-! STEP (R479). -/

/-- The words that the fetch queue takes from PC on: up to 16, of PC's own place (05 R125). -/
def fetchAhead (s : State) (id : CoreId) : List (Nat × W64) :=
  let pc := (s.core id).pc.toNat
  if (fetchFault s id).isSome || fetchBlocked s id then []
  else ((List.range 16).filter (fun i => onePlace (placeBits pc) (8 * i + 8) && (landingsAt s (placeBits pc) (8 * i + 8)).isEmpty)).map
    (fun i => (pc + 8 * i, BitVec.ofNat 64 (s.loadN (placeBits pc + 8 * i) 8)))

/-- The core fetches: what the queue holds for PC stays, so that a store is seen only after SYNCI; anything else is fetched anew. -/
def fetchCore (s : State) (id : CoreId) : State :=
  match (s.core id).fetchq with
  | (a, _) :: _ => if a = (s.core id).pc.toNat then s else updCore s id (fun c => { c with fetchq := fetchAhead s id })
  | [] => updCore s id (fun c => { c with fetchq := fetchAhead s id })

/-- The word at the queue's head. -/
def fetchedWord (c : Core) : W64 :=
  match c.fetchq with
  | (_, w) :: _ => w
  | [] => 0

/-- STEP: one instruction of a STOPPED core issues, and the core is STOPPED again unless a fault has taken it to the monitor. -/
def stepCore (id : CoreId) (s : State) : Result :=
  let s := fetchCore (updCore s id (fun c => { c with state := .running })) id
  match runCoreWord id (fetchedWord (s.core id)) s with
  | .next t =>
    if decide ((t.core id).state = .monitor) || decide ((t.core id).state = .faulted) then .next t else finish (nowStopped t id)
  | .fault f => .fault f
  | .refused r => .refused r

/-- STEP is accepted: a STOPPED core of a host-owned cluster. -/
def stepTakes (s : State) : Bool :=
  let i := obsIndex s
  obsUnit s == 1 && obsWordNo s == 6 && decide (i < 4096) && coreOk (BitVec.ofNat 12 i) && clusterOwner s (i / 64) == 0xFF
    && decide ((s.core (BitVec.ofNat 12 i)).state = .stopped)

/-- A write of OBS_WRITE. -/
def writeObs (func : Nat) (s : State) : Result :=
  if 2 ≤ debugLevel s && stepTakes s then stepCore (BitVec.ofNat 12 (obsIndex s)) s
  else finish (accessRefused s func 0 pgDebug 0x0C8 true)

def execObsStep (a : Access) (s : State) : Result :=
  if !hostUp s then .next s
  else match writeGate s pgDebug 0x0C8 a with
    | .take => writeObs a.func.val s
    | .drop => .next s
    | .refuse => finish (writeRefused s pgDebug 0x0C8 a)

end Sys2Proof.Machine
end

