-- ==== Sys2Proof/Machine/Logbook.lean ====
section
/-! DEFINITION. The logbook (19 R467 to R474, R481): its write port, wrap and stop, draining. Readings that the words leave to
inference are log 55. -/

namespace Sys2Proof.Machine

abbrev fLogStop : Fld := ⟨pgLog, 0x008, 0, 1⟩
abbrev logSlots : Nat := 32768

/-- Entries retained: OLDEST to NEXT − 1 (R471). -/
def logCount (s : State) : Nat := (s.log.next - s.log.oldest).toNat

/-- The entry with a sequence number, where it is retained. -/
def logAt (s : State) (q : W32) : Option LogEntry :=
  if (q - s.log.oldest).toNat < logCount s then storeGet s.log.slots (q.toNat % logSlots) none else none

/-- Word i of an entry of 32 bytes (R467). -/
def entryWord (q : W32) (e : LogEntry) (i : Nat) : W32 :=
  match i with
  | 0 => (e.kind ++ e.source) ++ e.code
  | 1 => (q.setWidth 24) ++ (BitVec.ofBool e.ends ++ (BitVec.ofBool e.stand ++ (BitVec.ofBool e.forced ++ e.bit)) : BitVec 8)
  | 2 => e.tide.setWidth 32
  | 3 => (e.tide >>> 32).setWidth 32
  | 4 => e.d0
  | 5 => e.d1
  | 6 => e.d2
  | 7 => e.d3
  | _ => 0

/-- A word of the entry with a sequence number; an entry that is not retained reads as zero (R472). -/
def logWord (s : State) (q : W32) (i : Nat) : W32 :=
  match logAt s q with
  | some e => entryWord q e i
  | none => 0

/-- Its 32 bytes. -/
def logBytes (s : State) (q : W32) : List Byte := ((List.range 8).map (fun i => bytesLE 4 (logWord s q i).toNat)).flatten

/-! Events of the LOG page (R481). -/

/-- COUNT ≥ THRESH. -/
def overThresh (s : State) : Bool := decide (s.rdN pgLog 0x084 ≤ logCount s)

/-- EVT.THRESH where the condition has become true. -/
def threshEdge (was : Bool) (s : State) : State := if !was && overThresh s then raise s pgLog 0 0 else s

/-! The write port (R469 to R471). -/

/-- Entry a goes before entry b: older by stamp, then the lower page index (R469). -/
def entryBefore (a b : LogEntry) : Bool :=
  (a.tide != b.tide && tideReached b.tide a.tide) || (a.tide == b.tide && a.source.toNat < b.source.toNat)

/-- The first waiting entry of each source. -/
def logHeads (q : List LogEntry) : List LogEntry :=
  q.foldl (fun l e => if l.any (fun x => x.source == e.source) then l else l ++ [e]) []

/-- The entry that the port takes next. -/
def nextLogged (q : List LogEntry) : Option LogEntry :=
  (logHeads q).foldl (fun b e => match b with
    | none => some e
    | some x => if entryBefore e x then some e else some x) none

/-- The first waiting entry of a source leaves the queue. -/
def popSource (src : BitVec 14) : List LogEntry → List LogEntry
  | [] => []
  | e :: r => if e.source = src then r else e :: popSource src r

/-- The GAP entry of a source that has lost n entries, the first of them at a stamp (R468, R470). -/
def gapEntry (src : BitVec 14) (n : Nat) (at_ : W64) : LogEntry :=
  { code := 0, source := src, kind := 3, bit := 0, forced := false, stand := false, ends := false, tide := at_,
    d0 := BitVec.ofNat 32 n, d1 := 0, d2 := 0, d3 := 0 }

/-- The queue has room again: the source's GAP entry joins its tail. -/
def placeGap (src : BitVec 14) (g : Logbook) : Logbook :=
  let l := storeGet g.lost src.toNat (0, 0)
  if l.1 = 0 then g
  else { g with queue := g.queue ++ [gapEntry src l.1 l.2], lost := storePut g.lost src.toNat (0, 0) (0, 0) }

/-- A copy goes on from the new OLDEST where wrap has overwritten what it had yet to reach (R473). -/
def dmaPast (g : Logbook) : Option (W32 × Nat × Bool) :=
  match g.dma with
  | none => none
  | some d => some (if (g.next - g.oldest).toNat < (g.next - d.1).toNat then (g.oldest, d.2) else d)

/-- Store one entry (R471): wrap, stop, or into a free slot. -/
def storeEntry (s : State) (e : LogEntry) : State :=
  let full := decide (logCount s = logSlots)
  if full && s.bit fLogStop then
    raise { s with log := { s.log with discarded := BitVec.ofNat 32 (satInc 32 s.log.discarded.toNat) } } pgLog 1 0
  else
    let was := overThresh s
    let g := s.log
    let g := { g with slots := storePut g.slots (g.next.toNat % logSlots) (some e) none, next := g.next + 1,
                      oldest := if full then g.oldest + 1 else g.oldest }
    let s := { s with log := { g with dma := dmaPast g } }
    let s := if full then raise s pgLog 2 0 else s
    threshEdge was s

/-- The port stores the next queued entry. -/
def storeNext (s : State) : State :=
  match nextLogged s.log.queue with
  | none => s
  | some e =>
    storeEntry { s with log := placeGap e.source { s.log with queue := popSource e.source s.log.queue } } e

def execLogStore (s : State) : Result := if running s then finish (storeNext s) else .next s

/-! Draining (R472, R473). -/

/-- Entries before sequence number q are freed, or the value is refused. -/
def releaseTo (func : Nat) (s : State) (q : W32) : State :=
  if logCount s < (q - s.log.oldest).toNat then accessRefused s func 0 pgLog 0x048 true
  else { s with log := { s.log with oldest := q } }

def execRelease (a : Access) (s : State) : Result := hostWrite pgLog 0x048 a (releaseTo a.func.val) s

/-- THRESH. -/
def writeThresh (s : State) (v : W32) : State := threshEdge (overThresh s) (s.wrN pgLog 0x084 (v.toNat % 2 ^ 16))

def execThresh (a : Access) (s : State) : Result := hostWrite pgLog 0x084 a writeThresh s

/-- DMA_CMD. -/
def writeDmaCmd (func : Nat) (s : State) (v : W32) : State :=
  let n := s.get ⟨pgLog, 0x07C, 0, 16⟩
  if !v.getLsbD 0 then s
  else if s.log.dma.isSome || !s.busMaster || n = 0 || logSlots < n then accessRefused s func 0 pgLog 0x080 true
  else { s with log := { s.log with dma := some (s.log.oldest, n, v.getLsbD 1) } }

def execDmaStart (a : Access) (s : State) : Result := hostWrite pgLog 0x080 a (writeDmaCmd a.func.val) s

/-- The copy finishes: the entries reach host memory, and are released where RELEASE_AFTER asks for it. -/
def endDma (s : State) (d : W32 × Nat × Bool) : State :=
  let bs := ((List.range d.2.1).map (fun i => logBytes s (d.1 + BitVec.ofNat 32 i))).flatten
  let s := { s with log := { s.log with dma := none } }.emit (.dma (s.rd64 pgLog 0x074) bs)
  let s := raise s pgLog 3 0
  if d.2.2 then releaseTo 0 s (d.1 + BitVec.ofNat 32 d.2.1) else s

def execDmaDone (s : State) : Result :=
  match s.log.dma with
  | some d => if running s then finish (endDma s d) else .next s
  | none => .next s

/-- STATUS (the LOG page). -/
def logStatus (s : State) : Nat :=
  logCount s + (if logCount s = logSlots then 2 ^ 16 else 0) + (if s.log.dma.isSome then 2 ^ 17 else 0)

end Sys2Proof.Machine
end

