-- ==== Sys2Proof/Machine/Power.lean ====
section
/-! DEFINITION. Power states and heat (16): module and partition states, ceilings, scheduled actions, temperature and power readings,
stopped stacks and the trip. Readings that the words leave to inference are log 56. -/

namespace Sys2Proof.Machine

abbrev fMstate : Fld := ⟨pgPower, 0x00C, 0, 2⟩
abbrev fPowerBusy : Fld := ⟨pgPower, 0x00C, 2, 1⟩
abbrev fPowerCause : Fld := ⟨pgPower, 0x00C, 4, 4⟩
abbrev fPartState (n : Nat) : Fld := ⟨pgPower, 0x00C, 8 + 2 * n, 2⟩

/-- Fields of a PCMD word (the POWER page). -/
def pOp (v : W32) : Nat := bitsOf v.toNat 0 4
def pPart (v : W32) : Nat := bitsOf v.toNat 4 3
def pTo (v : W32) : Nat := bitsOf v.toNat 8 2
def pMhz (v : W32) : Nat := bitsOf v.toNat 16 12
def pForce (v : W32) : Bool := v.getLsbD 28
def pAt (v : W32) : Bool := v.getLsbD 29
abbrev opModule : Nat := 1
abbrev opPartition : Nat := 2
abbrev opCeiling : Nat := 3

/-! States (R417, R418). -/

/-- The commanded state of a partition, and its commanded ceiling. -/
def commanded (s : State) (n : Nat) : Nat := storeGet s.partCmd n 0
def commandedMhz (s : State) (n : Nat) : Nat := storeGet s.partCmd (8 + n) 3300
def setCommanded (s : State) (n p : Nat) : State := { s with partCmd := storePut s.partCmd n p 0 }
def setCommandedMhz (s : State) (n mhz : Nat) : State := { s with partCmd := storePut s.partCmd (8 + n) mhz 3300 }

/-- A ceiling as it is stored (R422). -/
def ceilMhz (mhz : Nat) : Nat := max 1200 (min 3300 mhz) / 100 * 100

/-- The effective state of partition n once the transition is over: the deeper of the commanded state and the one that MSTATE
imposes. A partition command given in M1 or M2 takes effect on the return to M0 (R419). -/
def targetState (s : State) (v : W32) (n : Nat) : Nat :=
  if pOp v = opModule then max (commanded s n) (pTo v)
  else if pOp v = opPartition && pPart v = n && s.get fMstate = 0 then pTo v
  else partState s n

/-- The partitions whose cores the transition gates, or whose power it removes. -/
def fallingParts (s : State) (v : W32) : List Nat := (List.range 8).filter (fun n => partState s n < targetState s v n)
def offParts (s : State) (v : W32) : List Nat := (fallingParts s v).filter (fun n => targetState s v n == 2)
def risingParts (s : State) (v : W32) : List Nat := (List.range 8).filter (fun n => partState s n == 2 && targetState s v n != 2)

/-- The command is to the state already in effect. -/
def inEffect (s : State) (v : W32) : Bool :=
  if pOp v = opModule then s.get fMstate == pTo v
  else if pOp v = opPartition then s.get fMstate == 0 && partState s (pPart v) == pTo v && commanded s (pPart v) == pTo v
  else s.get fMstate == 0 && s.rdN pgPower (0x064 + 4 * pPart v) == ceilMhz (pMhz v)

/-! IN_USE (R419). -/

/-- A cluster that a RUNNING ferry uses: an end of an entry, or a gate. -/
def ferryUsesCluster (s : State) (f : Nat) (p : Nat → Bool) : Bool :=
  ferryState s f == 2 && (List.range (schedLen s f)).any (fun k =>
    let e := rawEntry s f k
    (e.kind == skSail || e.kind == skLand) && p (placeCode (placeBits e.addr)))

/-- A cluster that an ACTIVE or REFORMING group uses: its staging, and an end of its collective. -/
def groupUsesCluster (s : State) (g : Nat) (p : Nat → Bool) : Bool :=
  (groupState s g == 3 || groupState s g == 4) && (p (placeCode (placeBits (groupStage s g)))
    || (match (s.group g).coll with
        | none => false
        | some c =>
          let d := collDesc c.desc
          p (placeCode (placeBits d.src)) || p (placeCode (placeBits d.dst))))

/-- A cluster whose engine works on a descriptor or a share. -/
def engineBusyAt (s : State) (cl : Nat) : Bool := (s.engine cl).work.isSome || (s.engine cl).helping.isSome

/-- Some cluster of the falling partitions is in use. -/
def powerInUse (s : State) (v : W32) : Bool :=
  let falls := fun cl => (fallingParts s v).contains (cl / 8)
  (List.range 8).any (fun f => ferryUsesCluster s f falls) || (List.range 64).any (fun g => groupUsesCluster s g falls)
    || (List.range 64).any (fun cl => falls cl && engineBusyAt s cl)

/-! Transitions (R420). -/

def powerDone (s : State) : State := raise s pgPower 0 0

/-- A transition begins: the commanded values change, and partitions that lose power drain and absorb (R411). -/
def beginPower (s : State) (v : W32) : State :=
  let already := inEffect s v
  let offs := offParts s v
  let s := if pOp v = opPartition then setCommanded s (pPart v) (pTo v)
    else if pOp v = opCeiling then setCommandedMhz s (pPart v) (ceilMhz (pMhz v)) else s
  if already || (pOp v != opModule && s.get fMstate != 0) then powerDone s
  else
    let s := { s with transition := some v }.put fPowerBusy 1
    offs.foldl (fun t n => if h : n < 8 then beginReset t (.partition ⟨n, h⟩) else t) s

/-- A partition loses power: its reset is complete, and its scratchpads are lost. -/
def partOff (s : State) (n : Nat) : State :=
  if h : n < 8 then
    let u : ResetUnit := .partition ⟨n, h⟩
    if s.boot.resets.contains u then endReset s u else s
  else s

/-- A partition has power again: its scratchpads are zero. -/
def partOn (s : State) (n : Nat) : State := (List.range 8).foldl (fun t c => t.zeroRange (scratchAddr (8 * n + c) 0) scratchSize) s

/-- A transition completes. -/
def endPower (s : State) (v : W32) : State :=
  let s := (offParts s v).foldl partOff s
  let s := (risingParts s v).foldl partOn s
  let states := (List.range 8).map (targetState s v)
  let s := states.zipIdx.foldl (fun t x => t.put (fPartState x.2) x.1) s
  let s := if pOp v = opModule then s.put fMstate (pTo v) else s
  let s := if s.get fMstate = 0 then (List.range 8).foldl (fun t n => t.wrN pgPower (0x064 + 4 * n) (commandedMhz t n)) s else s
  powerDone ({ s with transition := none }.put fPowerBusy 0)

/-- The transition may complete: no core of a partition that loses power is still in MONITOR (15 R412). -/
def powerEnds (s : State) (v : W32) : Bool :=
  running s && (offParts s v).all (fun n => if h : n < 8 then !monitorHolds s (.partition ⟨n, h⟩) else true)

def execTransitionDone (s : State) : Result :=
  match s.transition with
  | some v => if powerEnds s v then finish (endPower s v) else .next s
  | none => .next s

/-! Commands (R419). -/

/-- A PCMD is refused. -/
def refusePower (s : State) (cause : Nat) : State := raise (s.put fPowerCause cause) pgPower 1 0xA001

/-- The cause of refusing a PCMD, 0 for none. -/
def powerCause (s : State) (v : W32) : Nat :=
  if 3 < pOp v || pTo v = 3 || v &&& 0xC000FC80 ≠ 0 || (pAt v && pOp v = 0) then 1
  else if !pAt v && s.transition.isSome then 2
  else if !pAt v && !pForce v && powerInUse s v then 3
  else if !stageReady s then 4
  else if pAt v && (List.range 16).all (fun i => (storeGet s.powerSlots i none).isSome) then 5
  else 0

/-- The lowest free slot takes an action (R421). -/
def takePowerSlot (s : State) (v : W32) : State :=
  let t := s.rd64 pgPower 0x044
  match tideCase s t with
  | .invalid => raise s pgPower 1 0x400B
  | .range => raise s pgPower 1 0x400A
  | _ => match (List.range 16).find? (fun i => (storeGet s.powerSlots i none).isNone) with
    | some i => { s with powerSlots := storePut s.powerSlots i (some (v, t)) none }
    | none => s

/-- A write of PCMD. -/
def writePcmd (s : State) (v : W32) : State :=
  let c := powerCause s v
  if c ≠ 0 then refusePower s c
  else if pAt v then takePowerSlot s v
  else if pOp v = 0 then s
  else beginPower s v

def execModule (a : Access) (s : State) : Result := hostWrite pgPower 0x040 a writePcmd s
def execPartition (a : Access) (s : State) : Result := hostWrite pgPower 0x040 a writePcmd s
def execCeiling (a : Access) (s : State) : Result := hostWrite pgPower 0x040 a writePcmd s

/-! Scheduled actions (R421). -/

/-- Slot i goes before slot j: the earlier tide, then the lower slot. -/
def slotFirst (i j : Nat) (a b : W64) : Bool := (a != b && tideReached b a) || (a == b && i < j)

/-- No other action whose tide is reached goes before slot i. -/
def slotTurn (s : State) (i : Nat) (t : W64) : Bool :=
  (List.range 16).all (fun j => match storeGet s.powerSlots j none with
    | some x => j == i || !reachedNow s x.2 || slotFirst i j t x.2
    | none => true)

/-- A scheduled action acts; past its tide it is late. -/
def actSlot (s : State) (i : Nat) (v : W32) (t : W64) : State :=
  let late := s.now - t
  let s := { s with powerSlots := storePut s.powerSlots i none none }
  let s := if late = 0 then s else raiseWith s pgPower 2 0xA002 (late.setWidth 32, (late >>> 32).setWidth 32, 0, 0)
  beginPower s v

def execScheduledAction (slot : Fin 16) (s : State) : Result :=
  match storeGet s.powerSlots slot.val none with
  | some x => if running s && reachedNow s x.2 && s.transition.isNone && slotTurn s slot.val x.2 then finish (actSlot s slot.val x.1 x.2)
    else .next s
  | none => .next s

/-- SLOT_CANCEL. -/
def writeSlotCancel (s : State) (v : W32) : State :=
  (List.range 16).foldl (fun t i => if v.getLsbD i then { t with powerSlots := storePut t.powerSlots i none none } else t) s

def execSlotCancel (a : Access) (s : State) : Result := hostWrite pgPower 0x060 a writeSlotCancel s

/-- SCHED_MAP, SLOT_CMD and SLOT_TIDE as they read. -/
def schedMap (s : State) : Nat := (List.range 16).foldl (fun m i => if (storeGet s.powerSlots i none).isSome then m + 2 ^ i else m) 0
def selectedSlot (s : State) : W32 × W64 := (storeGet s.powerSlots (s.get ⟨pgPower, 0x050, 0, 4⟩) none).getD (0, 0)

/-! Readings (R429). -/

/-- The 48 V input, mV: outside 40 V to 60 V. -/
def vinOut (mv : Nat) : Bool := mv < 40000 || 60000 < mv

/-- VIN shows a reading; leaving the range is reported. No reading has been taken while VIN is zero. -/
def takeVin (s : State) (mv : Nat) : State :=
  let was := s.rdN pgPower 0x084
  let s := s.wrN pgPower 0x084 mv
  if vinOut mv && (was = 0 || !vinOut was) then raise s pgPower 4 0xA009 else s

/-- PIN shows a reading; a crossing above PWARN is reported. -/
def takePin (s : State) (watts : Nat) : State :=
  let was := s.rdN pgPower 0x088
  let warn := s.get ⟨pgPower, 0x08C, 0, 16⟩
  let s := s.wrN pgPower 0x088 watts
  if warn < watts && was ≤ warn then raise s pgPower 3 0xA008 else s

def execInputRange (mv : BitVec 16) (s : State) : Result := if running s then finish (takeVin s mv.toNat) else .next s

def execPowerReading (mv watts : BitVec 16) (joules : BitVec 64) (s : State) : Result :=
  if running s then finish (takePin (takeVin (s.add64 pgPower 0x090 joules.toNat) mv.toNat) watts.toNat) else .next s

/-! Heat (R423 to R428). -/

/-- HBM_THRESH. -/
def hotClr (s : State) : Int := s.get ⟨pgTherm, 0x040, 0, 8⟩
def hotSet (s : State) : Int := s.get ⟨pgTherm, 0x040, 8, 8⟩
def critClr (s : State) : Int := s.get ⟨pgTherm, 0x040, 16, 8⟩
abbrev critSet : Int := 95
abbrev tripAt : Int := 105
abbrev fHot (k : Nat) : Fld := ⟨pgTherm, 0x050, k, 1⟩
abbrev fCrit (k : Nat) : Fld := ⟨pgTherm, 0x054, k, 1⟩
abbrev fStop (k : Nat) : Fld := ⟨pgTherm, 0x058, k, 1⟩

/-- The next MARK of a RUNNING ferry. -/
def ferryMark (s : State) (f : Nat) : Option W64 :=
  let i := ferryIter s f
  let marks := (List.range (2 * schedLen s f)).filterMap (fun j =>
    let e := entryAt s f (i + j / schedLen s f) (j % schedLen s f)
    if e.kind = skMark && (j < schedLen s f || i < s.get (fFerryRepeat f)) then some e.depart else none)
  marks.find? (fun m => !tideReached s.now m)

/-- RUNNING ferries and ACTIVE groups. -/
def ferriesRunning (s : State) : List Nat := (List.range 8).filter (fun f => ferryState s f == 2)
def groupsActive (s : State) : List Nat := (List.range 64).filter (fun g => groupState s g == 3)

/-- Of two tides, the later, and the earlier. -/
def laterTide (a b : W64) : W64 := if tideReached a b then a else b
def earlierTide (a b : W64) : W64 := if tideReached a b then b else a

/-- The tide of the last of the marks; none where one is missing. -/
def lastMark : List (Option W64) → Option W64
  | [] => none
  | [m] => m
  | m :: r => match m, lastMark r with
    | some a, some b => some (laterTide a b)
    | _, _ => none

/-- The tide at which issue to a stack that turns critical now is to stop (R424). -/
def stopTide (s : State) : W64 :=
  let byWait := s.now + BitVec.ofNat 64 (s.rdN pgTherm 0x048)
  match lastMark ((ferriesRunning s).map (ferryMark s) ++ (groupsActive s).map (nextMark s)) with
  | some m => earlierTide m byWait
  | none => byWait

/-- A stack enters or leaves HOT (R423): refresh and pacing, 0xA003, and the adaptation's entries. -/
def setHot (s : State) (k : Nat) (on : Bool) : State :=
  let s := ((s.putBit (fHot k) on).putBit ⟨pgHs k, 0x054, 0, 1⟩ on).putBit ⟨pgHs k, 0x054, 1, 1⟩ on
  logAdapt (raise s pgTherm 0 0xA003) pgTherm (!on) k

/-- A stopped stack resumes (R426). -/
def resumeStack (s : State) (k : Nat) : State :=
  if s.bit (fStop k) then raise ((s.put (fStop k) 0).put ⟨pgHs k, 0x054, 2, 1⟩ 0) pgTherm 3 0 else s

/-- A stack's reading. -/
def stackReading (s : State) (k : Nat) (t : Int) : State :=
  let s := s.wrN (pgHs k) 0x050 ((t % 256).toNat)
  let s := (s.putBit ⟨pgHs k, 0x00C, 1, 1⟩ (85 ≤ t)).putBit ⟨pgHs k, 0x00C, 2, 1⟩ (critSet ≤ t)
  let s := if hotSet s ≤ t && !s.bit (fHot k) then setHot s k true
    else if t ≤ hotClr s && s.bit (fHot k) then setHot s k false else s
  if critSet ≤ t && !s.bit (fCrit k) then
    let s := { s with critAt := storePut s.critAt k (some ((storeGet s.critAt k none).getD (stopTide s))) none }
    raise (s.put (fCrit k) 1) pgTherm 1 0xA004
  else if t ≤ critClr s then resumeStack (s.put (fCrit k) 0) k
  else s

/-- A critical stack's issue stops now (R424). -/
def stopDue (s : State) (k : Nat) : Bool :=
  running s && !s.bit (fStop k) && (match storeGet s.critAt k none with
    | none => false
    | some t => ((ferriesRunning s).isEmpty && (groupsActive s).isEmpty) || s.rdN pgTherm 0x048 == 0 || reachedNow s t)

/-- Issue to a stack stops. -/
def stopStack (s : State) (k : Nat) : State :=
  let s := { s with critAt := storePut s.critAt k none none }
  raise ((s.put (fStop k) 1).put ⟨pgHs k, 0x054, 2, 1⟩ 1) pgTherm 2 0xA005

def execStackStop (k : Fin 32) (s : State) : Result := if stopDue s k.val then finish (stopStack s k.val) else .next s

/-- The register of a junction's reading. -/
def junctionReg : HeatUnit → Option Nat
  | .stack _ => none
  | .die n => some (0x05C + 4 * n.val)
  | .isroth => some 0x07C

/-- A signed reading in bits [7:0] of a THERM word. -/
def readingOf (s : State) (off : Nat) : Int := (BitVec.ofNat 8 (s.rdN pgTherm off)).toInt

/-- STATUS.JWARN: a junction is at or above JWARN. -/
def anyJwarn (s : State) : Bool :=
  ((List.range 8).map (fun n => 0x05C + 4 * n) ++ [0x07C]).any (fun o => decide ((s.rdN pgTherm 0x04C : Int) ≤ readingOf s o))

/-- THERM.STATUS as it reads. -/
def thermStatus (s : State) : Nat :=
  (if s.rd pgTherm 0x050 = 0 then 0 else 1) + (if s.rd pgTherm 0x054 = 0 then 0 else 2) + (if s.rd pgTherm 0x058 = 0 then 0 else 4)
    + (if anyJwarn s then 8 else 0) + (if s.boot.phase = .tripped then 16 else 0)

/-- The trip (R428): the chip's clocks stop, its lasers go dark, THERMTRIP_N asserts; 0xA007 is logged with what still waited. -/
def trip (s : State) : State :=
  let s := raise s pgTherm 5 0xA007
  let s := iterate s.log.queue.length (fun _ t => storeNext t) s
  let s := ((List.range 16).filter (fun n => s.bit ⟨pgLnk n, 0x008, 0, 1⟩)).foldl (fun t n => t.emit (.lasers n false)) s
  let s := { s with boot := { s.boot with phase := .tripped } }
  if s.i3cIbi then s.emit (.inBand (alertByte s)) else s

/-- A junction's reading. -/
def junctionReading (s : State) (off : Nat) (t : Int) : State :=
  let was := readingOf s off
  let warn : Int := s.rdN pgTherm 0x04C
  let s := s.wrN pgTherm off ((t % 256).toNat)
  let s := if readingOf s 0x080 < t then s.wrN pgTherm 0x080 ((t % 256).toNat) else s
  let s := if warn ≤ t && was < warn then raise s pgTherm 4 0xA006 else s
  if tripAt ≤ t then trip s else s

/-- A reading of a unit. -/
def heatReading (s : State) (unit : HeatUnit) (t : Int) : State :=
  match unit with
  | .stack k => stackReading s k.val t
  | .die n => junctionReading s (0x05C + 4 * n.val) t
  | .isroth => junctionReading s 0x07C t

def execTempReading (unit : HeatUnit) (temp : BitVec 8) (s : State) : Result :=
  if running s then finish (heatReading s unit temp.toInt) else .next s

/-- The comparator of a junction trips; it does not depend on firmware, but on 48 V. -/
def execThermtrip (unit : HeatUnit) (temp : BitVec 8) (s : State) : Result :=
  if (junctionReg unit).isSome && tripAt ≤ temp.toInt && decide (s.boot.phase ≠ .off) && decide (s.boot.phase ≠ .tripped) then
    finish (trip s)
  else .next s

/-! Registers with limits of their own. -/

/-- HBM_THRESH is taken whole or refused. -/
def writeHbmThresh (func : Nat) (s : State) (v : W32) : State :=
  let hc := bitsOf v.toNat 0 8
  let hs := bitsOf v.toNat 8 8
  let cc := bitsOf v.toNat 16 8
  if hc < hs && hs ≤ cc && cc < 95 then s.wrN pgTherm 0x040 (v.toNat % 2 ^ 24) else accessRefused s func 0 pgTherm 0x040 true

/-- PACE and JWARN store the nearer limit. -/
def writePace (s : State) (v : W32) : State := s.wrN pgTherm 0x044 (max 50 (min 100 (v.toNat % 128)))
def writeJwarn (s : State) (v : W32) : State := s.wrN pgTherm 0x04C (max 85 (min 104 (v.toNat % 256)))

end Sys2Proof.Machine
end

