-- ==== Sys2Proof/Machine/Session.lean ====
section
/-! DEFINITION. Owner sessions, key messages, SPDM over DOE, and failures of the random bit generator and of IDE (14 R380 to R392).
Readings that the words leave to inference are log 54; what the SPDM specification and the ciphers fix is log 21 and log 22. -/

namespace Sys2Proof.Machine

/-! Sessions (R384 to R386). -/

/-- The berth's VF answers: the berth exists and its VF is not closed by a rebinding (R377 step 1). -/
def vfAnswers (s : State) (b : Nat) : Bool :=
  hostUp s && berthState s b != bsFree && berthState s b != bsClosing && !(s.berth b).closed

/-- 0x9003: a session or one of its messages fails or comes too late. -/
def sessionFail (s : State) (b : Nat) : State := raise s (pgBerth b) 3 0x9003

/-- OPEN_SESSION: ML-KEM ciphertext and 32-byte nonce. -/
def openSession (s : State) (b : Nat) (msg : List Byte) : State :=
  if berthState s b ≠ bsWaiting || s.bit fRngFailed then sessionFail s b
  else match Config.decaps (s.berth b).kemKey (msg.take (msg.length - 32)) with
    | none => sessionFail s b
    | some secret =>
      let k := s.newKey
      let s := updBerth k.2 b (fun r => { r with session := k.1 })
      let s := (s.put (fBstState b) bsOpen).put (fBstSession b) 1
      raise (s.emit (.session b (Config.sessionConfirm (secret ++ msg)))) (pgBerth b) 2 0

def execOpenSession (b : Fin 16) (msg : List Byte) (s : State) : Result :=
  if vfAnswers s b.val then finish (openSession s b.val msg) else .next s

/-- A message in the session: it fails its tag, or comes before the IDE stream that SEC.CTRL.IDE_REQUIRED asks for. `km`: it is an
IDE key-management message. -/
def sessionTakes (s : State) (b : Nat) (msg : List Byte) (km : Bool) : Bool :=
  s.bit (fBstSession b) && Config.sessionTagOk (s.berth b).session msg && (km || s.bit (fBstIde b) || !s.bit ⟨pgSec, 0x008, 0, 1⟩)

/-- Carry out a session message, or refuse it. -/
def sessionMsg (b : Nat) (msg : List Byte) (km : Bool) (effect : State → State) (s : State) : Result :=
  if !vfAnswers s b then .next s
  else if sessionTakes s b msg km then finish (effect s)
  else finish (sessionFail s b)

/-- LINK_EXPORT (R383): the link key sealed for another chip's berth. -/
def execLinkExport (b : Fin 16) (msg : List Byte) (s : State) : Result :=
  sessionMsg b.val msg false (fun t => t.emit (.session b.val (Config.sealKey (t.berth b.val).linkKey msg))) s

/-- LINK_IMPORT (R383): the key replaces the berth's own, or 0x9004. -/
def importKey (b : Nat) (msg : List Byte) (s : State) : State :=
  if s.bit fRngFailed then raise s pgSec 1 0x9004
  else match Config.unsealKey (s.berth b).kemKey msg with
    | none => raise s pgSec 1 0x9004
    | some k => updBerth s b (fun r => { r with linkKey := k })

def execLinkImport (b : Fin 16) (msg : List Byte) (s : State) : Result := sessionMsg b.val msg false (importKey b.val msg) s

/-- IDE_KM (R386): the stream is keyed and active. -/
def execIdeKm (b : Fin 16) (msg : List Byte) (s : State) : Result := sessionMsg b.val msg true (fun t => t.put (fBstIde b.val) 1) s

/-- KEYLOCK (R391): LOCK of a page of the berth, only while its IDE stream is active. -/
def lockPage (b page : Nat) (on : Bool) (s : State) : State :=
  if s.bit (fBstSession b) && s.bit (fBstIde b) && pageOwner s page == b then s.putBit ⟨page, 0x028, 0, 1⟩ on else sessionFail s b

def execKeylock (b : Fin 16) (page : BitVec 14) (set : Bool) (s : State) : Result :=
  if vfAnswers s b.val then finish (lockPage b.val page.toNat set s) else .next s

/-! Failures. -/

/-- RNG_FAIL (R380). -/
def execRngFail (s : State) : Result :=
  if running s then
    let alarms := s.get ⟨pgSec, 0x040, 16, 16⟩
    finish (raise (s.wrN pgSec 0x040 (2 + satInc 16 alarms * 2 ^ 16)) pgSec 4 0x9007)
  else .next s

/-- IDE_FAIL (R392). -/
def execIdeFail (func : Fin 17) (s : State) : Result :=
  if !hostUp s then .next s
  else
    let s := raise (s.incSat pgSec 0x048) pgSec 3 0x9006
    match (if func.val = 0 then none else vfBerth s func.val) with
    | none => finish s
    | some b => finish (s.put (fBstIde b) 0)

/-! SPDM 1.3 over DOE (R388, R389). -/

/-- Response codes. -/
abbrev scDigests : Nat := 0x01
abbrev scCertificate : Nat := 0x02
abbrev scChallengeAuth : Nat := 0x03
abbrev scVersion : Nat := 0x04
abbrev scChunkSendAck : Nat := 0x05
abbrev scChunkResponse : Nat := 0x06
abbrev scMeasurements : Nat := 0x60
abbrev scCapabilities : Nat := 0x61
abbrev scAlgorithms : Nat := 0x63
abbrev scVendorResponse : Nat := 0x7E
abbrev scError : Nat := 0x7F

/-- A function's DOE mailbox answers: the PF's, or that of a VF whose berth exists. -/
def doeAnswers (s : State) (func : Nat) : Bool :=
  hostUp s && (func == 0 || (match vfBerth s func with
    | some b => vfAnswers s b
    | none => false))

/-- How far the negotiation of a function has come: bit 0 version, 1 capabilities, 2 algorithms. -/
def doeState (s : State) (func : Nat) : Nat := storeGet s.doe func 0
def setDoe (s : State) (func n : Nat) : State := { s with doe := storePut s.doe func n 0 }

/-- Answer with a response. -/
def respondSpdm (s : State) (func code : Nat) (body : List Byte) : State := s.emit (.spdm func code (Config.spdmBody code body))

/-- A request of SPDM: `need`: what must have been negotiated before. -/
def spdmRequest (func need : Nat) (effect : State → State) (s : State) : Result :=
  if !doeAnswers s func then .next s
  else if doeState s func &&& need = need then finish (effect s)
  else finish (respondSpdm s func scError [])

def execGetVersion (func : Fin 17) (msg : List Byte) (s : State) : Result :=
  spdmRequest func.val 0 (fun t => respondSpdm (setDoe t func.val 1) func.val scVersion msg) s
def execGetCapabilities (func : Fin 17) (msg : List Byte) (s : State) : Result :=
  spdmRequest func.val 1 (fun t => respondSpdm (setDoe t func.val 3) func.val scCapabilities msg) s
def execNegotiateAlgorithms (func : Fin 17) (msg : List Byte) (s : State) : Result :=
  spdmRequest func.val 3 (fun t => respondSpdm (setDoe t func.val 7) func.val scAlgorithms msg) s

/-- Answers that the identity makes: without one, ERROR (R387). -/
def withIdentity (func code : Nat) (body : State → List Byte) (s : State) : State :=
  if s.bit fIdentity then respondSpdm s func code (body s) else respondSpdm s func scError []

def execGetDigests (func : Fin 17) (msg : List Byte) (s : State) : Result :=
  spdmRequest func.val 7 (withIdentity func.val scDigests (fun _ => msg ++ Config.shake256 Config.certificate 32)) s
def execGetCertificate (func : Fin 17) (msg : List Byte) (s : State) : Result :=
  spdmRequest func.val 7 (withIdentity func.val scCertificate (fun _ => msg ++ Config.certificate)) s

/-- A register's words as bytes. -/
def regBytes (s : State) (page off n : Nat) : List Byte := ((List.range n).map (fun i => bytesLE 4 (s.rdN page (off + 4 * i)))).flatten

/-- The identity signs a transcript. -/
def signed (body : List Byte) : List Byte := body ++ Config.identitySign body

def execSpdmChallenge (func : Fin 17) (msg : List Byte) (s : State) : Result :=
  spdmRequest func.val 7 (withIdentity func.val scChallengeAuth (fun t => signed (msg ++ regBytes t pgIdent 0x040 8))) s

/-- Block 5: clusters, regions, quotas, VF, groups and ferries bound. -/
def berthConfig (s : State) (b : Nat) : List Byte :=
  regBytes s (pgBerth b) 0x040 3 ++ regBytes s (pgBerth b) 0x100 64 ++ regBytes s (pgBerth b) 0x640 3
    ++ ((List.range 64).map (fun g => bytesLE 1 (if groupState s g != 0 && groupOwner s g == b then 1 else 0))).flatten
    ++ ((List.range 8).map (fun f => bytesLE 1 (if ferryOwner s f == b then 1 else 0))).flatten

/-- The measurement blocks (R389). -/
def measurements (s : State) (b : Option Nat) : List (List Byte) :=
  let berth : List (List Byte) := match b with
    | none => []
    | some n => [berthConfig s n, Config.shake256 ((s.berth n).slots.map (fun x => x.2)).flatten 32, Config.encapsKey (s.berth n).kemKey]
  [Config.romDigest, regBytes s pgBoot 0x04C 8, s.boot.opKey, bytesLE 1 (debugLevel s) ++ regBytes s pgDebug 0x0B0 2] ++ berth

/-- The berth a request is about. -/
def measuredFor (s : State) (func : Nat) (msg : List Byte) : Option Nat :=
  if func = 0 then (Config.measuredBerth msg).map (fun b => b.val) else vfBerth s func

def execGetMeasurements (func : Fin 17) (msg : List Byte) (s : State) : Result :=
  spdmRequest func.val 7 (withIdentity func.val scMeasurements
    (fun t => signed (msg ++ (measurements t (measuredFor t func.val msg)).flatten))) s

/-- A large message comes in parts, in order. -/
def execChunkSend (func : Fin 17) (msg : List Byte) (s : State) : Result :=
  spdmRequest func.val 7 (fun t =>
    let old := storeGet t.doeBuf func.val []
    respondSpdm { t with doeBuf := storePut t.doeBuf func.val (old ++ msg) [] } func.val scChunkSendAck msg) s

/-- A large response goes out in parts. -/
def execChunkGet (func : Fin 17) (msg : List Byte) (s : State) : Result :=
  spdmRequest func.val 7 (fun t => respondSpdm t func.val scChunkResponse (msg ++ storeGet t.doeBuf func.val [])) s

/-- The host link key arrives over the PF's mailbox as a berth's does in its session (R383). -/
def importHostKey (s : State) (msg : List Byte) : State :=
  if s.bit fRngFailed then s
  else match Config.unsealKey 0 msg with
    | none => s
    | some k => { s with hostKey := k }.wrN pgSec 0x050 1

/-- The carrier of session messages, whose effects are commands of their own. -/
def execVendorDefinedRequest (func : Fin 17) (msg : List Byte) (s : State) : Result :=
  spdmRequest func.val 7 (fun t => respondSpdm (if func.val = 0 then importHostKey t msg else t) func.val scVendorResponse msg) s

end Sys2Proof.Machine
end

