-- ==== Sys2Proof/Machine/Boot.lean ====
section
/-! DEFINITION. Bring-up (15 R395 to R409), the chip reset (15 R410 to R414; 18 R462, R463), PERST#, 48 V and PCIe's own resets.
Readings that the words leave to inference are log 53. -/

namespace Sys2Proof.Machine

abbrev fPath : Fld := ⟨pgBoot, 0x00C, 4, 1⟩
abbrev fMapValid : Fld := ⟨pgBoot, 0x00C, 5, 1⟩
abbrev fImageValid : Fld := ⟨pgBoot, 0x00C, 6, 1⟩
def setStage (s : State) (n : Nat) : State := s.put fStage n
def updBoot (s : State) (f : Boot → Boot) : State := { s with boot := f s.boot }
def bootEvent (s : State) (bit code : Nat) : State := raise s pgBoot bit code

/-! The image (R398). -/

/-- A little-endian field of the image area. -/
def imageNat (s : State) (off n : Nat) : Nat := natLE (s.imageBytes off n)

abbrev imgMagic : Nat := 0x464D4B48
def imgChunks (s : State) : Nat := imageNat s 8 4
def imgSects (s : State) : Nat := imageNat s 6 2
/-- Section i: TYPE, FIRST, COUNT, the reserved bytes. -/
def imgSect (s : State) (i : Nat) : Nat × Nat × Nat × Nat :=
  (imageNat s (64 + 16 * i) 2, imageNat s (66 + 16 * i) 4, imageNat s (70 + 16 * i) 4, imageNat s (74 + 16 * i) 6)
/-- Signed bytes, the manifest, and the manifest padded to 4 KiB. -/
def imgSigned (s : State) : Nat := 320 + 32 * imgChunks s
def imgManifest (s : State) : Nat := imgSigned s + 1280
def imgPadded (s : State) : Nat := roundUp (imgManifest s) 4096
def imgLen (s : State) : Nat := imgPadded s + 4096 * imgChunks s

/-- The sections: types 1 to 5 once each, apart, covering every chunk; CORE at most 16 chunks. -/
def sectionsGood (s : State) : Bool :=
  let n := imgSects s
  let l := (List.range n).map (imgSect s)
  (List.range 5).all (fun t => (l.filter (fun x => x.1 == t + 1)).length == 1) && n == 5
    && l.all (fun x => x.2.2.2 == 0 && x.2.1 + x.2.2.1 ≤ imgChunks s && (x.1 != 3 || x.2.2.1 ≤ 16))
    && (l.foldl (fun m x => m + x.2.2.1) 0) == imgChunks s
    && l.all (fun x => (l.filter (fun y => overlap x.2.1 x.2.2.1 y.2.1 y.2.2.1)).length ≤ 1)

/-- All bytes of a range of the image area are zero. -/
def imageZero (s : State) (off n : Nat) : Bool := (s.imageBytes off n).all (fun b => b == 0)

/-- The layout, for an image of `len` bytes (R399, check 1). -/
def layoutGood (s : State) (len : Nat) : Bool :=
  imageNat s 0 4 == imgMagic && imageNat s 4 1 == 1 && imageNat s 5 1 == 0 && 1 ≤ imgSects s && imgSects s ≤ 16
    && 1 ≤ imgChunks s && imgChunks s ≤ 32768 && imageZero s 48 16 && sectionsGood s
    && imageZero s (64 + 16 * imgSects s) (16 * (16 - imgSects s))
    && imageZero s (imgManifest s) (imgPadded s - imgManifest s) && len == imgLen s

/-- The vendor's signature over the signed bytes (check 2). -/
def signatureGood (s : State) : Bool :=
  Config.falconVerify Config.vendorKey (s.imageBytes 0 (imgSigned s)) (s.imageBytes (imgSigned s) 1280)

/-- The first chunk whose digest fails (check 3). -/
def badChunk (s : State) : Option Nat :=
  (List.range (imgChunks s)).find? (fun j =>
    Config.shake256 (s.imageBytes (imgPadded s + 4096 * j) 4096) 32 != s.imageBytes (320 + 32 * j) 32)

/-- The first check that fails: its code, and the chunk. -/
def verifyFails (s : State) (len : Nat) : Option (Nat × Nat) :=
  if !layoutGood s len then some (0xB001, 0)
  else if !signatureGood s then some (0xB002, 0)
  else match badChunk s with
    | some j => some (0xB003, j)
    | none => none

/-! Links for bring-up and relay (R396, R409). -/

/-- Every enabled link that is OFF trains. -/
def trainAll (s : State) : State :=
  if !s.bit fCfgValid then s
  else
    let ls := (List.range 16).filter (fun n => s.bit (fLnkEn n) && linkState s n == 0)
    noteTopo s (ls.foldl (fun t n => beginTraining (updLink t n (fun l => { l with limited := false, wasUp := false, retraining := false })) n) s)

/-- One piece of the verified image sails to a neighbour as a consignment of KIND 4 (R409). -/
def relayPiece (link : Nat) (s : State) (j : Nat) : State :=
  let off := 2 ^ 22 * j
  let n := min (2 ^ 22) (imgLen s - off)
  let h : ConsHdr := { kind := 4, stream := link, seq := BitVec.ofNat 32 j, due := 0, len := ceilDiv n 4096, attempt := 0,
                       berth := 255, src := nodeId s, dst := farNode s link, srcPlace := 64, dstPlace := 64, addr := off }
  (sailNew s (portOf s link) (hdrBytes h) (s.imageBytes off n) 0 0 0).2

/-- The image sails on the trained cube links among some. -/
def relayTo (s : State) (links : List Nat) : State :=
  (links.filter (fun n => s.bit fImageValid && trained s n && linkRole s n == 2)).foldl
    (fun t n => (List.range (ceilDiv (imgLen t) (2 ^ 22))).foldl (relayPiece n) t) s

/-- The links named by RELAY_OUT. -/
def relayLinks (s : State) : List Nat := (List.range 16).filter (fun n => (s.rd pgBoot 0x078).getLsbD n)

/-- RELAY_OUT: a link newly set has the verified image relayed to it. -/
def writeRelayOut (s : State) (v : W32) : State :=
  let was := relayLinks s
  let s := s.wrN pgBoot 0x078 (v.toNat % 2 ^ 16)
  relayTo s ((relayLinks s).filter (fun n => !was.contains n))

/-! Verification (R399, R405). -/

/-- The defect map allows the fast path. -/
def mapGood (s : State) : Bool :=
  match s.boot.map with
  | some m => s.bit fMapValid && m.crcGood && decide (m.part = s.rdN pgIdent 0x060)
  | none => false

/-- The path is settled: a fast path that the map does not allow is refused with 0xB004. -/
def choosePath (s : State) (fast : Bool) : State :=
  if fast && !mapGood s then (bootEvent s 2 0xB004).put fPath 0
  else s.putBit fPath fast

/-- The image is verified: its digest, version and operator, then step 5 and the relay onward. -/
def imageVerified (s : State) : State :=
  let s := putWords pgBoot 0x04C ((wordsOf (Config.shake256 (s.imageBytes 0 (imgSigned s)) 32)).take 8) s
  let s := (s.put fImageValid 1).wrN pgBoot 0x048 (imageNat s 12 4)
  let s := updBoot s (fun b => { b with opKey := s.imageBytes 16 32 })
  relayTo (setStage s 4) (relayLinks s)

/-- Verification ends (R399): a failure returns to AWAIT_IMAGE. -/
def endVerify (s : State) : State :=
  match verifyFails s (s.rdN pgBoot 0x040) with
  | some f =>
    let s := if f.1 = 0xB003 then s.wrN pgBoot 0x044 f.2 else s
    bootEvent (setStage s 2) 0 f.1
  | none => imageVerified s

def execVerifyDone (s : State) : Result := if running s && s.get fStage == 3 then finish (endVerify s) else .next s

/-- A relayed image arrives whole (R409): what came by consignments of KIND 4 lies in the image area already; `bytes` is the image
where it is given whole. -/
def takeRelay (s : State) (bytes : List Byte) : State :=
  let s := if bytes.isEmpty then s else { s with image := [] }.storeImage 0 bytes
  let len := if bytes.isEmpty then imgLen s else bytes.length
  let s := choosePath s s.boot.fastAsked
  match verifyFails s len with
  | some _ => bootEvent s 5 0xB00B
  | none => imageVerified s

def execRelayImage (link : Fin 16) (bytes : List Byte) (s : State) : Result :=
  if running s && s.get fStage == 12 && trained s link.val then finish (takeRelay s bytes) else .next s

/-! Self-test and spares (R402, R404, R405). -/

/-- The SUBST byte of a spare. -/
def substByte (cl spare : Nat) : Fld := ⟨pgCl cl, 0x048, 8 * spare, 8⟩
abbrev fBanksSpare (cl : Nat) : Fld := ⟨pgCl cl, 0x04C, 0, 4⟩
abbrev fBanksHeld (cl : Nat) : Fld := ⟨pgCl cl, 0x04C, 4, 8⟩

/-- A spare takes a core's id: 0xB007. -/
def useSpare (s : State) (cl spare j : Nat) : State := raise (s.put (substByte cl spare) (j + 128)) (pgCl cl) 2 0xB007

/-- A core id is FENCED: 0xB006. -/
def fenceCore (s : State) (id : CoreId) : State :=
  raise (s.setCore id { s.core id with state := .fenced }) (pgCl (id.toNat / 64)) 1 0xB006

/-- The lowest passing spare of a cluster that is left. -/
def spareFor (s : State) (cl : Nat) : Option Nat :=
  (List.range 4).find? (fun i => s.boot.sparesLeft.contains (cl, i))

abbrev fSpareEn : Fld := ⟨pgBoot, 0x008, 0, 1⟩

/-- A usable core has failed: a spare takes its id where one passed and SPARE_EN allows it. -/
def coreFailed (s : State) (id : CoreId) : State :=
  let cl := id.toNat / 64
  match (if s.bit fSpareEn then spareFor s cl else none) with
  | some i =>
    let s := updBoot s (fun b => { b with sparesLeft := b.sparesLeft.filter (fun x => x != (cl, i)),
                                          found := { b.found with subst := b.found.subst ++ [(cl, i, id.toNat % 64)] } })
    useSpare s cl i (id.toNat % 64)
  | none => fenceCore (updBoot s (fun b => { b with found := { b.found with fenced := b.found.fenced ++ [id] } })) id

/-- The spare bank of a group of 32 stands in for one of its banks: 0xB007. -/
def useSpareBank (s : State) (cl : Nat) : State := raise (s.put (fBanksSpare cl) (s.get (fBanksSpare cl) + 1)) (pgCl cl) 2 0xB007

/-- A bank's 8 tier 0 granules are withheld: 0xB008. -/
def withholdBank (s : State) (cl bank : Nat) : State :=
  let g := scratchAddr cl 0 / granule 0 + 8 * bank
  let s := { s with withheld := s.withheld ++ (List.range 8).map (fun i => (0, g + i)) }
  raise (s.put (fBanksHeld cl) (s.get (fBanksHeld cl) + 1)) (pgCl cl) 3 0xB008

/-- A bank has failed. -/
def bankFailed (s : State) (cl bank : Nat) : State :=
  if s.bit fSpareEn && !s.boot.found.spareBanks.contains (cl, bank / 32) then
    useSpareBank (updBoot s (fun b => { b with found := { b.found with spareBanks := b.found.spareBanks ++ [(cl, bank / 32)] } })) cl
  else withholdBank (updBoot s (fun b => { b with found := { b.found with withheld := b.found.withheld ++ [(cl, bank)] } })) cl bank

/-- A lane has failed loopback: it counts as not good at training. -/
def laneFailed (s : State) (link lane : Nat) : State :=
  updLink s link (fun l => { l with loopBad := l.loopBad ||| BitVec.ofNat 9 (2 ^ lane) })

/-- The self-test's findings, in ascending core, bank and lane number. -/
def selfTest (s : State) (r : StageReport) : State :=
  let s := updBoot s (fun b => { b with found := { DefectMap.empty with lanes := r.lanes }, sparesLeft := r.spares })
  let s := ((List.range 4096).filter (fun i => coreOk (BitVec.ofNat 12 i) && r.failed.contains (BitVec.ofNat 12 i))).foldl
    (fun t i => coreFailed t (BitVec.ofNat 12 i)) s
  let s := (List.range 64).foldl (fun t cl => ((List.range 352).filter (fun b => r.banks.contains (cl, b))).foldl (fun u b => bankFailed u cl b) t) s
  r.lanes.foldl (fun t x => if x.1 < 16 && x.2 < 9 then laneFailed t x.1 x.2 else t) s

/-- The map's substitutions, fences, banks and lanes, without testing. A spare that stands for no core counts as passing. -/
def applyMap (s : State) (m : DefectMap) : State :=
  let all := ((List.range 64).map (fun cl => (List.range 4).map (fun i => (cl, i)))).flatten
  let s := updBoot s (fun b => { b with found := m, sparesLeft := all.filter (fun x => !m.subst.any (fun y => (y.1, y.2.1) == x)) })
  let s := m.subst.foldl (fun t x => useSpare t x.1 x.2.1 x.2.2) s
  let s := m.fenced.foldl fenceCore s
  let s := m.spareBanks.foldl (fun t x => useSpareBank t x.1) s
  let s := m.withheld.foldl (fun t x => withholdBank t x.1 x.2) s
  m.lanes.foldl (fun t x => if x.1 < 16 && x.2 < 9 then laneFailed t x.1 x.2 else t) s

/-- The end of step 6: every scratchpad is zero (R484). -/
def zeroScratch (s : State) : State := (List.range 64).foldl (fun t cl => t.zeroRange (scratchAddr cl 0) scratchSize) s

/-! HBM (R403). -/

/-- What the HBM test, or the map, says of one stack. -/
def stackTested (s : State) (x : Nat × Nat × List Nat × Bool) : State :=
  let k := x.1
  let s := s.wrN (pgHs k) 0x048 (x.2.1 % 2 ^ 16)
  let base := stackAddr k 0 / granule 1
  if x.2.2.2 then
    { s.wrN (pgHs k) 0x04C (x.2.2.1.length % 2 ^ 16) with withheld := s.withheld ++ x.2.2.1.map (fun g => (1, base + g)) }
  else bootEvent (s.wrN (pgHs k) 0x04C 32768) 4 0xB009

/-- A report of a stack as the FJ1 takes it: out of service untrained, or with more than 1,024 granules withheld. -/
def judgeStack (x : Nat × Nat × List Nat × Bool) : Nat × Nat × List Nat × Bool :=
  (x.1, x.2.1, x.2.2.1, x.2.2.2 && decide (x.2.2.1.length ≤ 1024))

/-- The HBM test of a full path writes the map (R403, R404). HBM holds what the tests left (R484). -/
def hbmTest (s : State) (r : StageReport) : State :=
  let l := (r.rows.filter (fun x => x.1 < 32 && x.2.2.1.all (fun g => g < 32768))).map judgeStack
  let s := updBoot s (fun b => { b with found := { b.found with hbm := l } })
  let s := l.foldl stackTested s
  let s := s.blurRange hbmBase (32 * stackSize)
  updBoot (s.put fMapValid 1) (fun b => { b with map := some b.found })

/-! Broadcast (R406 to R408). -/

abbrev fRounds : Fld := ⟨pgBoot, 0x06C, 0, 2⟩
abbrev fBcastFenced : Fld := ⟨pgBoot, 0x06C, 16, 12⟩

/-- A physical core is fenced in step 8: 0xB006. -/
def fencePhysical (s : State) (id : CoreId) : State :=
  let cl := id.toNat / 64
  let s := s.put fBcastFenced (s.get fBcastFenced + 1)
  let s := (List.range 4).foldl (fun t i => if t.get (substByte cl i) = id.toNat % 64 + 128 then t.put (substByte cl i) 0 else t) s
  updBoot s (fun b => { b with found := { b.found with subst := b.found.subst.filter (fun y => (y.1, y.2.2) != (cl, id.toNat % 64)) } })

/-- A core that its reset and a whole section have not completed: fenced, its id on a spare or FENCED. -/
def fenceLast (s : State) (id : CoreId) : State :=
  let cl := id.toNat / 64
  let s := fencePhysical s id
  match (if s.bit fSpareEn then spareFor s cl else none) with
  | some _ => coreFailed (raise s (pgCl cl) 1 0xB006) id
  | none => coreFailed s id

/-- A spare that fails its one attempt is fenced, and the id enters FENCED. -/
def fenceSpare (s : State) (id : CoreId) : State :=
  let s := fencePhysical s id
  fenceCore (updBoot s (fun b => { b with found := { b.found with fenced := b.found.fenced ++ [id] } })) id

/-- The cores that still miss chunks, by the lists they return: live cores, after the first lists only those still missing some. -/
def stillMissing (s : State) (missed : List (CoreId × BitVec 16)) : List (CoreId × BitVec 16) :=
  missed.filter (fun x => coreOk x.1 && x.2 != 0 && decide ((s.core x.1).state ≠ .fenced)
    && (s.boot.missing.isEmpty || s.boot.missing.any (fun y => y.1 == x.1)))

/-- Lists of missed chunks after an end marker (R407). -/
def takeNacks (s : State) (missed : List (CoreId × BitVec 16)) : State :=
  let l := stillMissing s missed
  if l.isEmpty then updBoot s (fun b => { b with missing := [] })
  else if s.boot.lastTry = 0 && s.boot.rounds < s.get ⟨pgBoot, 0x07C, 0, 2⟩ then
    let s := if s.boot.repairBegun then s else logAdapt (bootEvent s 3 0xB005) pgBoot false
    let s := updBoot s (fun b => { b with missing := l, rounds := b.rounds + 1, repairBegun := true })
    s.put fRounds s.boot.rounds
  else if s.boot.lastTry = 0 then
    updBoot (l.foldl (fun t x => resetCore t x.1) s) (fun b => { b with missing := l, lastTry := 1 })
  else if s.boot.lastTry = 1 then
    let s := l.foldl (fun t x => fenceLast t x.1) s
    updBoot s (fun b => { b with missing := l.filter (fun x => decide ((s.core x.1).state ≠ .fenced)), lastTry := 2 })
  else
    updBoot (l.foldl (fun t x => fenceSpare t x.1) s) (fun b => { b with missing := [] })

def execNackList (missed : List (CoreId × BitVec 16)) (s : State) : Result :=
  if running s && s.get fStage == 7 && decide (s.boot.missing ≠ [] ∨ (s.boot.rounds = 0 ∧ s.boot.lastTry = 0)) then
    finish (takeNacks s missed)
  else .next s

/-! The steps (R396). -/

/-- Step 1: the Isroth die's own test, the strap (18 R458), the harbour buffer. -/
def endRom (s : State) (r : StageReport) : State :=
  let s := { (updBoot s (fun b => { b with strap := r.strap })) with image := [] }
  if r.isrothOk then judgeConfig (setStage s 1) else bootEvent (setStage s 11) 4 0xB009

/-- Step 2: identity (14 R387). -/
def endPuf (s : State) (r : StageReport) : State :=
  let s := if r.pufOk then
      (putWords pgIdent 0x040 ((wordsOf Config.identityDigest).take 8) s).wrN pgIdent 0x064 (1 + (if r.certPresent then 2 else 0))
    else raise (s.wrN pgIdent 0x064 (if r.certPresent then 2 else 0)) pgSec 0 0x9001
  setStage (s.put ⟨pgSec, 0x040, 0, 1⟩ 1) 2

/-- Step 6. -/
def endSelftest (s : State) (r : StageReport) : State :=
  let s := if s.bit fPath then applyMap s (s.boot.map.getD DefectMap.empty) else selfTest s r
  setStage (zeroScratch s) 6

/-- Step 7. -/
def endHbm (s : State) (r : StageReport) : State :=
  setStage (if s.bit fPath then s.boot.found.hbm.foldl stackTested s else hbmTest s r) 7

/-- Step 8 ends when every live core holds the section; enabled links then train. -/
def endBroadcast (s : State) : State :=
  let s := if s.boot.repairBegun then logAdapt (bootEvent s 3 0xB005) pgBoot true else s
  let s := updBoot s (fun b => { b with map := if b.map.isSome then some b.found else none })
  trainAll (setStage s 8)

/-- Step 9 has ended: no enabled link is still in training. -/
def linksOver (s : State) : Bool := (List.range 16).all (fun n => !s.bit (fLnkEn n) || linkState s n != 1)

/-- Milliseconds since step 1 began. -/
def elapsedMs (s : State) : Nat := s.tide.clock / 10 ^ 6

/-- READY. -/
def nowReady (s : State) : State := bootEvent (setStage (s.wrN pgBoot 0x070 (elapsedMs s)) 10) 1 0

/-- The current step may end, and its end. -/
def endStage (s : State) (r : StageReport) : Result :=
  match s.get fStage with
  | 0 => finish (endRom s r)
  | 1 => finish (endPuf s r)
  | 4 => finish (setStage s 5)
  | 5 => finish (endSelftest s r)
  | 6 => finish (endHbm s r)
  | 7 => if s.boot.missing.isEmpty then finish (endBroadcast s) else .next s
  | 8 => if linksOver s then finish (relayTo (setStage s 9) (relayLinks s)) else .next s
  | 9 => if tideState s = 2 || tideState s = 5 || tideState s = 6 then finish (nowReady s) else .next s
  | _ => .next s

def execStageDone (r : StageReport) (s : State) : Result := if running s then endStage s r else .next s

/-! The chip reset (R410 to R413) and power. -/

/-- The logbook across a chip reset: its entries, NEXT, OLDEST and DISCARDED (19 R474). -/
def keptLog (g : Logbook) : Logbook := { Logbook.reset with slots := g.slots, next := g.next, oldest := g.oldest, discarded := g.discarded }

/-- The map is kept, but for a reset that comes before a full path has written it (R405). -/
def keptMap (s : State) : Option DefectMap :=
  if 4 ≤ s.get fStage && s.get fStage ≤ 6 && !s.bit fPath then none else s.boot.map

/-- A chip reset: what survives it is the logbook, the defect map, the flash and the I3C target; HBM becomes undefined. -/
def chipReset (s : State) (phase : Phase) : State :=
  let lit := (List.range 16).filter (fun n => s.bit (fLnkEn n))
  let map := keptMap s
  let t : State :=
    { State.reset with
      pending := s.pending, out := s.out, drawn := s.drawn, flash := s.flash, fresh := s.fresh + 32 * stackSize,
      i3cDyn := s.i3cDyn, i3cOff := s.i3cOff, i3cIbi := s.i3cIbi, log := keptLog s.log,
      blurred := [(hbmBase, 32 * stackSize, s.fresh)],
      boot := { Boot.reset with phase := phase, perst := s.boot.perst, i3cStrap := s.boot.i3cStrap, strap := s.boot.strap, map := map } }
  let t := lit.foldl (fun u n => u.emit (.lasers n false)) t
  threshEdge false (t.putBit fMapValid map.isSome)

/-- 48 V has gone: nothing is retained (16 R417) but the flash; the pin PERST# stays as it is. -/
def powerOff (s : State) : State :=
  { State.reset with
    pending := s.pending, out := s.out, drawn := s.drawn, flash := s.flash, fresh := s.fresh,
    boot := { Boot.reset with phase := .off, perst := s.boot.perst } }

def execP48Removed (s : State) : Result := .next (powerOff s)

/-- 48 V has been stable for 10 ms (R395): the straps are sampled, and the sequence begins unless PERST# holds it. -/
def execColdStart (strap : BitVec 2) (s : State) : Result :=
  if decide (s.boot.phase = .off) then
    .next (updBoot s (fun b => { b with phase := if b.perst then .held else .running, i3cStrap := strap, strap := strap }))
  else .next s

/-- PERST# asserts: a chip reset that lasts until it deasserts (18 R463). -/
def execPerstAssert (s : State) : Result :=
  let t := updBoot s (fun b => { b with perst := true })
  match s.boot.phase with
  | .off => .next t
  | .tripped => .next t
  | .held => .next t
  | .running => .next (chipReset t .held)
  | .scanning => .next (chipReset t .held)

/-- PERST# deasserts: the cold sequence begins. -/
def execPerstDeassert (strap : BitVec 2) (s : State) : Result :=
  .next (updBoot s (fun b =>
    { b with perst := false, phase := if b.phase = .held then .running else b.phase, strap := if b.phase = .held then strap else b.strap }))

/-! BOOT.CMD. -/

/-- VERIFY (R399, R400). -/
def verifyCmd (func : Nat) (s : State) (fast : Bool) : State :=
  if s.get fStage = 2 then setStage (choosePath s fast) 3 else accessRefused s func 0 pgBoot 0x080 true

/-- AWAIT_RELAY (R409). -/
def awaitRelayCmd (func : Nat) (s : State) (fast : Bool) : State :=
  if s.get fStage = 2 then trainAll (setStage (updBoot s (fun b => { b with fastAsked := fast })) 12)
  else accessRefused s func 0 pgBoot 0x080 true

/-- CLEAR_MAP (R404). -/
def clearMapCmd (s : State) : State := updBoot (s.put fMapValid 0) (fun b => { b with map := none })

/-- A write of CMD. -/
def writeBootCmd (func : Nat) (s : State) (v : W32) : State :=
  match ([0, 2, 3, 4] : List Nat).filter (fun i => v.getLsbD i) with
  | [] => s
  | [0] => verifyCmd func s (v.getLsbD 1)
  | [2] => awaitRelayCmd func s (v.getLsbD 1)
  | [3] => chipReset s .running
  | [4] => clearMapCmd s
  | _ => accessRefused s func 0 pgBoot 0x080 true

def execVerify (a : Access) (s : State) : Result := hostWrite pgBoot 0x080 a (writeBootCmd a.func.val) s
def execAwaitRelay (a : Access) (s : State) : Result := hostWrite pgBoot 0x080 a (writeBootCmd a.func.val) s
def execChipReset (a : Access) (s : State) : Result := hostWrite pgBoot 0x080 a (writeBootCmd a.func.val) s
def execClearMap (a : Access) (s : State) : Result := hostWrite pgBoot 0x080 a (writeBootCmd a.func.val) s

/-! PCIe's own resets (R414; 18 R463). -/

/-- The BAR4 block, the DOE responder and the interrupt masks of the functions return to reset. -/
def resetFuncs (s : State) (p : Nat → Bool) : State :=
  { s with bar4 := storeKeep (fun k => !p (k / 2 ^ 24)) s.bar4, pba := s.pba.filter (fun x => !p x.1),
           fmask := s.fmask.filter (fun f => !p f), doe := storeKeep (fun k => !p k) s.doe,
           doeBuf := storeKeep (fun k => !p k) s.doeBuf }

/-- The IDE streams of some VFs end. -/
def endStreams (s : State) (p : Nat → Bool) : State :=
  (List.range 16).foldl (fun t b => if p (berthVf t b) then t.put (fBstIde b) 0 else t) s

/-- A Hot Reset or link-down. -/
def linkLost (s : State) : State := endStreams (resetFuncs s (fun _ => true)) (fun _ => true)

def execHotReset (s : State) : Result := if hostUp s then finish (linkLost s) else .next s
def execPcieLinkDown (s : State) : Result := if hostUp s then finish (linkLost s) else .next s

/-- A Function Level Reset of one VF, or of the PF, which resets its VFs with it. -/
def execFlr (func : Fin 17) (s : State) : Result :=
  if !hostUp s then .next s
  else if func.val = 0 then finish (linkLost s)
  else finish (endStreams (resetFuncs s (fun f => f == func.val)) (fun vf => vf == func.val))

end Sys2Proof.Machine
end

