-- ==== Sys2Proof/Machine/Tide.lean ====
section
/-! DEFINITION. The tide (01_tide): its registers, beacons, discipline, loss of discipline and stands. Readings of this chapter
that its words leave to inference are log 40. -/

namespace Sys2Proof.Machine

/-! Registers of the page. -/

abbrev fRun : Fld := ⟨pgTide, 0x008, 0, 1⟩
abbrev fRoot : Fld := ⟨pgTide, 0x008, 1, 1⟩
abbrev fUseRef : Fld := ⟨pgTide, 0x008, 2, 1⟩
abbrev fSlewMax : Fld := ⟨pgTide, 0x008, 8, 8⟩
abbrev fRefPresent : Fld := ⟨pgTide, 0x00C, 6, 1⟩
abbrev fUpstream : Fld := ⟨pgTide, 0x00C, 8, 4⟩
abbrev fUpstreamValid : Fld := ⟨pgTide, 0x00C, 12, 1⟩
abbrev fHops : Fld := ⟨pgTide, 0x00C, 16, 8⟩
abbrev fLostLimit : Fld := ⟨pgTide, 0x07C, 0, 16⟩
abbrev fHoldMax : Fld := ⟨pgTide, 0x080, 0, 16⟩
abbrev fStandSeq : Fld := ⟨pgTide, 0x070, 0, 16⟩

def isRoot (s : State) : Bool := s.bit fRoot
def setTide (s : State) (t : Tide) : State := { s with tide := t }
def updTide (s : State) (f : Tide → Tide) : State := { s with tide := f s.tide }

/-- The id this chip's beacons name as root: its own while it is root, else ROOT_ID (R24, R32). -/
def rootId (s : State) : Nat := if isRoot s then nodeId s else s.get ⟨pgTide, 0x084, 0, 16⟩

/-- A coded event of the page: bits 0 to 8 carry 0x4001 + bit (R52). -/
def tideEvent (s : State) (bit : Nat) : State := raise s pgTide bit (0x4001 + bit)
/-- An event without a code (R52). -/
def tideNote (s : State) (bit : Nat) : State := raise s pgTide bit 0

/-- A command or ROOT write refused: 0x4009. -/
def tideReject (s : State) : State := tideEvent s 8

/-- Arithmetic of R36's int64. -/
def int64 (x : Int) : Int := (BitVec.ofInt 64 x).toInt

/-- Set the correction, in units of 2^-32, and RATE in 1/1024 ppm (R36, the TIDE page). -/
def setCorr (s : State) (c : Int) : State :=
  (updTide s (fun t => { t with corr := c })).wr pgTide 0x078 (BitVec.ofInt 32 ((c * 1024000000).tdiv (2 ^ 32)))

/-- SLEW_MAX ppm in units of 2^-32, rounded down. -/
def slewLimit (s : State) : Int := ((s.get fSlewMax * 2 ^ 32 / 1000000 : Nat) : Int)

def clampSlew (s : State) (c : Int) : Int := max (-slewLimit s) (min (slewLimit s) c)

/-! Beacons (R31, R32). -/

/-- The fields of a beacon. -/
structure BeaconMsg where
  sent : W64
  sender : Nat
  root : Nat
  hops : Nat
  state : Nat
  pending : Bool
  standing : Bool
  notice : Bool
  cancel : Bool
  seq : BitVec 16
  standAt : W64
  resumeAt : W64
deriving DecidableEq, Repr

/-- Its first 36 bytes. -/
def beaconBody (b : BeaconMsg) : List Byte :=
  bytesLE 8 b.sent.toNat ++ bytesLE 2 b.sender ++ bytesLE 2 b.root ++ bytesLE 1 b.hops
    ++ bytesLE 1 (b.state + (if b.pending then 8 else 0) + (if b.standing then 16 else 0) + (if b.notice then 32 else 0)
        + (if b.cancel then 64 else 0))
    ++ bytesLE 2 b.seq.toNat ++ bytesLE 8 b.standAt.toNat ++ bytesLE 8 b.resumeAt.toNat ++ bytesLE 4 0

/-- Its 40 bytes. -/
def beaconBytes (b : BeaconMsg) : List Byte := beaconBody b ++ bytesLE 4 (crc32c (beaconBody b)).toNat

/-- A beacon from its bytes; none where its CRC fails or a reserved bit is not zero (R33). -/
def beaconOf (bs : List Byte) : Option BeaconMsg :=
  let fl := fieldLE bs 13 1
  if fieldLE bs 36 4 ≠ (crc32c (bs.take 36)).toNat || fieldLE bs 32 4 ≠ 0 || bitsOf fl 7 1 ≠ 0 then none
  else some
    { sent := BitVec.ofNat 64 (fieldLE bs 0 8), sender := fieldLE bs 8 2, root := fieldLE bs 10 2, hops := fieldLE bs 12 1,
      state := bitsOf fl 0 3, pending := bitsOf fl 3 1 == 1, standing := bitsOf fl 4 1 == 1, notice := bitsOf fl 5 1 == 1,
      cancel := bitsOf fl 6 1 == 1, seq := BitVec.ofNat 16 (fieldLE bs 14 2), standAt := BitVec.ofNat 64 (fieldLE bs 16 8),
      resumeAt := BitVec.ofNat 64 (fieldLE bs 24 8) }

/-- The running count of R35 that a beacon shows: the tide, or the stand count. -/
def sendCount (s : State) : W64 := if s.standing then s.tide.standCount else s.tide.now

/-- The beacon this chip sends now. -/
def ownBeacon (s : State) (notice cancel : Bool) : BeaconMsg :=
  let pend := s.bit fStandPending
  let t := s.tide
  { sent := sendCount s, sender := nodeId s, root := rootId s, hops := s.get fHops, state := tideState s, pending := pend,
    standing := s.standing, notice := notice, cancel := cancel, seq := BitVec.ofNat 16 (s.get fStandSeq),
    standAt := if pend then t.pendS else if s.standing then t.standS else allOnes64,
    resumeAt := if pend then t.pendResume else if s.standing then t.resumeAt else allOnes64 }

/-- Send a beacon on every trained link but one. -/
def sendOn (s : State) (b : BeaconMsg) (skip : Option Nat) : State :=
  ((trainedLinks s).filter (fun n => some n != skip)).foldl (fun t n => t.emit (.beacon n (beaconBytes b))) s

/-- Flood a notice (R44, R45, R49, R50). -/
def floodNotice (s : State) (cancel : Bool) (skip : Option Nat) : State := sendOn s (ownBeacon s true cancel) skip

/-- A beacon is due: the running count is a multiple of 2^16 that no beacon has shown yet. -/
def beaconDue (s : State) : Bool := s.tideValid && !s.tide.sent && (sendCount s).toNat % 65536 == 0

/-- Send it. -/
def sendBeacon (s : State) : State := sendOn (updTide s (fun t => { t with sent := true })) (ownBeacon s false false) none

def execBeaconSend (s : State) : Result := if beaconDue s then finish (sendBeacon s) else .next s

/-! The root (R24 to R30). -/

/-- The root runs from TIDE_REF (R25): STATE of a running root. -/
def rootState (s : State) : Nat := if s.bit fUseRef && s.bit fRefPresent then 5 else 6

/-- Become or start as root: own id, no hops, no upstream, no correction. -/
def beRoot (s : State) : State :=
  let s := ((s.put fTideState (rootState s)).put fHops 0).put fUpstreamValid 0
  let s := s.put ⟨pgTide, 0x084, 0, 16⟩ (nodeId s)
  setCorr (updTide s (fun t => { t with follow := none, sum16 := 0, aligned := false })) 0

/-- RUN is set (R26, R38). -/
def startTide (s : State) : State :=
  if isRoot s then
    let s := beRoot s
    updTide s (fun t => if tideState s = 5 then { t with loadOnSync := true }
      else { t with loadAt := some (t.clock + 16) })
  else s.put fTideState 1

/-- What ends with HOLDOVER, LOST and a hold at SLEW_MAX, for the logbook (R10). -/
def endAdapts (s : State) : State :=
  let s := if tideState s = 3 || tideState s = 4 then logAdapt s pgTide true (tideState s) else s
  if s.tide.aligned then logAdapt (updTide s (fun t => { t with aligned := false })) pgTide true 2 else s

/-- A write of TIDE.CTRL (R26, R30, the TIDE page): a change of ROOT outside RUN = 0, HOLDOVER and LOST makes the whole write
ignored. -/
def writeTideCtrl (s : State) (v : W32) : State :=
  let wantRoot := v.getLsbD 1
  let st := tideState s
  if wantRoot != isRoot s && s.bit fRun && st != 3 && st != 4 then tideReject s
  else
    let slew := min 200 (max 1 (bitsOf v.toNat 8 8))
    let becomes := wantRoot && !isRoot s && s.bit fRun
    let starts := v.getLsbD 0 && !s.bit fRun
    let useRose := v.getLsbD 2 && !s.bit fUseRef
    let s := ((s.putBit fRoot wantRoot).putBit fUseRef (v.getLsbD 2)).put fSlewMax slew
    let s := if v.getLsbD 0 then s.put fRun 1 else s
    if becomes then beRoot (endAdapts s)
    else if starts then startTide s
    else if wantRoot && tideState s = 5 && !s.bit fUseRef then s.put fTideState 6
    else if wantRoot && tideState s = 6 && useRose then s.put fTideState (rootState s)
    else s

def execRun (a : Access) (s : State) : Result := hostWrite pgTide 0x008 a writeTideCtrl s
def execRoot (a : Access) (s : State) : Result := hostWrite pgTide 0x008 a writeTideCtrl s

/-- The root loads INIT (R26). -/
def loadInit (s : State) : State :=
  let s := updTide s (fun t => { t with now := s.rd64 pgTide 0x048, frac := 0, loadAt := none, loadOnSync := false, sent := false })
  tideBecameValid (s.put fTideValid 1)

/-- INIT_LOAD is due: a TIDE_SYNC edge that a root in ROOT_REF waits for, or 16 tide clocks after RUN in ROOT_OSC. -/
def initDue (s : State) : Bool :=
  isRoot s && !s.tideValid &&
    (s.tide.loadOnSync || (match s.tide.loadAt with
      | some t => decide (t ≤ s.tide.clock)
      | none => false))

def execInitLoad (s : State) : Result := if initDue s then finish (loadInit s) else .next s

/-- The tide's distance from its 2^20 grid, in units of 2^-32 tick: positive when it lies past the nearest grid tide. -/
def gridError (s : State) : Int :=
  let x : Int := (((s.tide.now.toNat % 2 ^ 20) * 2 ^ 32 + s.tide.frac.toNat : Nat) : Int)
  if x ≤ 2 ^ 51 then x else x - 2 ^ 52

/-- A TIDE_SYNC edge at the root (R25 to R28): INIT load, or the comparison of R27; the slew takes one SYNC period to close the
gap, or as long as SLEW_MAX makes it. -/
def syncEdge (s : State) : State :=
  let s := updTide (s.put fRefPresent 1) (fun t => { t with syncRun := t.syncRun + 1 })
  if s.tide.loadOnSync then loadInit s
  else if !s.tideValid then s
  else
    let e := gridError s
    if e > 2 ^ 32 || e < -(2 ^ 32) then setCorr (tideEvent s 7) (clampSlew s (-(e.tdiv (2 ^ 20)))) else setCorr s 0

def execTideSync (s : State) : Result := if running s && isRoot s then finish (syncEdge s) else .next s

/-- The reference is lost (R28). A reference not in use only leaves REF_PRESENT. -/
def loseRef (s : State) : State :=
  let inUse := tideState s = 5
  let s := updTide (s.put fRefPresent 0) (fun t => { t with syncRun := 0 })
  if inUse then
    let s := updTide s (fun t => if t.loadOnSync then { t with loadOnSync := false, loadAt := some (t.clock + 16) } else t)
    tideEvent (s.put fTideState 6) 3
  else s

def execRefLoss (s : State) : Result := if running s && isRoot s then finish (loseRef s) else .next s

def execRootRefReturn (s : State) : Result :=
  if isRoot s && tideState s = 6 && s.bit fUseRef && decide (2 ≤ s.tide.syncRun) then finish (s.put fTideState 5) else .next s

/-! The counter (R19, R23). -/

/-- All ones becomes zero (R23). -/
def wrapTide (s : State) : State := tideEvent (updTide s (fun t => { t with now := 0, sent := false, owed := false, intervals := t.intervals + 1 })) 5

def wrapDue (s : State) : Bool := s.tideValid && !s.standing && s.tide.now == allOnes64

def execWrap (s : State) : Result := if wrapDue s then finish (wrapTide s) else .next s

/-! Discipline (R35 to R38). -/

/-- A usable beacon came on the link within the last 4 beacon intervals. -/
def heardLately (s : State) (h : Heard) : Bool := decide (s.tide.intervals - h.interval < 4)

/-- The links an upstream may be chosen from. -/
def candidates (s : State) : List Heard :=
  s.tide.heard.filter (fun h => heardLately s h &&
    (match s.tide.follow with
      | some r => h.root == r
      | none => true))

/-- Lowest HOPS, then lowest link (R35). -/
def bestHeard (l : List Heard) : Option Heard :=
  l.foldl (fun b h => match b with
    | none => some h
    | some g => if h.hops < g.hops || (h.hops = g.hops && h.link < g.link) then some h else some g) none

/-- Take a link as upstream: HOPS one greater, ROOT_ID its root (R35). -/
def takeUpstream (s : State) (h : Heard) : State :=
  (((s.put fUpstream h.link).put fUpstreamValid 1).put fHops (min 255 (h.hops + 1))).put ⟨pgTide, 0x084, 0, 16⟩ h.root.toNat

/-- Record a usable beacon of a link. -/
def hear (s : State) (link : Nat) (b : BeaconMsg) : State :=
  let h : Heard := { link := link, hops := b.hops, root := BitVec.ofNat 16 b.root, interval := s.tide.intervals }
  updTide s (fun t => { t with heard := t.heard.filter (fun g => g.link != link) ++ [h] })

/-- The current upstream has been silent for 4 intervals (R35, R38). -/
def upstreamSilent (s : State) : Bool :=
  s.bit fUpstreamValid && !(s.tide.heard.any (fun h => h.link == s.get fUpstream && heardLately s h))

def execUpstreamChange (s : State) : Result :=
  if !isRoot s && upstreamSilent s then
    match bestHeard (candidates s) with
    | some h => finish (takeUpstream (updTide s (fun t => if tideState s = 1 then { t with goodRun := 0 } else t)) h)
    | none => if tideState s = 1 then finish (updTide s (fun t => { t with goodRun := 0 })) else .next s
  else .next s

/-- Enter LOST (R41, R42). -/
def enterLost (s : State) : State :=
  let s := if tideState s = 3 then logAdapt s pgTide true 3 else s
  let s := tideEvent (s.put fTideState 4) 2
  let s := logAdapt s pgTide false 4
  closeDebug (updTide s (fun t => { t with goodRun := 0 }))

/-- The offset of R36 in 1/16 tick, as int64. -/
def offset16 (s : State) (link : Nat) (b : BeaconMsg) : Int :=
  let t := s.tide
  let rx := if s.standing then t.standCount.toNat * 16 + t.standFrac.toNat / 2 ^ 28 else t.now.toNat * 16 + t.frac.toNat / 2 ^ 28
  int64 (((b.sent.toNat * 16 + s.get ⟨pgTide, 0x100 + 4 * link, 0, 24⟩ : Nat) : Int) - ((rx : Nat) : Int))

/-- A signed value saturated to 32 bits (OFFSET). -/
def sat32s (e : Int) : W32 := BitVec.ofInt 32 (max (-(2 ^ 31)) (min (2 ^ 31 - 1) e))

/-- The loop of R36 and R37, with R41's limit. -/
def runLoop (s : State) (link : Nat) (b : BeaconMsg) : State :=
  let e := offset16 s link b
  let st := tideState s
  let s := s.wr pgTide 0x074 (sat32s e)
  let s := if (st = 2 || st = 3) && decide ((e.natAbs : Nat) > s.get fLostLimit * 16) then enterLost s else s
  let sum := int64 (s.tide.sum16 + e)
  let want := e * 1024 + sum * 64
  let beyond := decide (want.natAbs * 1000000 > s.get fSlewMax * 2 ^ 32)
  let s := updTide s (fun t => { t with sum16 := sum, goodRun := if e.natAbs ≤ 16 then t.goodRun + 1 else 0 })
  let s := if beyond && !s.tide.aligned then
      logAdapt (tideEvent (updTide s (fun t => { t with aligned := true })) 1) pgTide false 2
    else if !beyond && s.tide.aligned then logAdapt (updTide s (fun t => { t with aligned := false })) pgTide true 2
    else s
  setCorr s (clampSlew s want)

/-! Stands (R44 to R51). -/

/-- A STAND_SEQ is new (R45). -/
def seqIsNew (s : State) (q : BitVec 16) : Bool :=
  let d := (q - BitVec.ofNat 16 (s.get fStandSeq)).toNat
  !s.tide.seqKnown || (1 ≤ d && d ≤ 0x7FFF)

def recordSeq (s : State) (q : BitVec 16) : State :=
  updTide (s.put fStandSeq q.toNat) (fun t => { t with seqKnown := true })

/-- The tide stands (R46, R48, R51): at its value now, with a stand count in 1/16 tick. -/
def stand (s : State) (count16 : Nat) : State :=
  let t := s.tide
  let s := setTide s { t with standS := t.pendS, resumeAt := t.pendResume, lateBy := t.now - t.pendS,
                              standCount := BitVec.ofNat 64 (count16 / 16), standFrac := BitVec.ofNat 32 (count16 % 16 * 2 ^ 28),
                              sent := false }
  let s := (s.put fStanding 1).put fStandPending 0
  let s := (s.wr64 pgTide 0x060 t.now).wr64 pgTide 0x068 (BitVec.ofNat 64 (count16 / 16))
  tideNote s 10

/-- A chip stands late (R51): 0x4005 with S and T′. -/
def standLate (s : State) (count16 : Nat) : State :=
  let S := s.tide.pendS
  let T := s.tide.now
  let s := raiseWith s pgTide 4 0x4005 (S.setWidth 32, (S >>> 32).setWidth 32, T.setWidth 32, (T >>> 32).setWidth 32)
  stand s count16

/-- The stand count in 1/16 tick that a standing beacon of a link shows. -/
def shownCount (s : State) (link : Nat) (b : BeaconMsg) : Nat := b.sent.toNat * 16 + s.get ⟨pgTide, 0x100 + 4 * link, 0, 24⟩

/-- Learn of a stand that is new: it waits for S, or the chip stands at once when S is past (R45, R51). -/
def learnStand (s : State) (link : Nat) (b : BeaconMsg) : State :=
  let s := updTide s (fun t => { t with pendS := b.standAt, pendResume := b.resumeAt })
  let s := s.put fStandPending 1
  let s := if s.standing then s else s.wr64 pgTide 0x060 b.standAt
  if s.tideValid && !s.standing && s.now != b.standAt && tideReached s.now b.standAt then
    standLate s (if b.standing && !b.notice then shownCount s link b else (s.now - b.standAt).toNat * 16)
  else s

/-- What a beacon or notice tells of stands (R45, R49, R50); a notice that changes something is forwarded. -/
def learn (s : State) (link : Nat) (b : BeaconMsg) : State :=
  if seqIsNew s b.seq then
    let s := recordSeq s b.seq
    let s := if !b.cancel && (b.notice || b.pending || b.standing) then learnStand s link b else s
    if b.notice then floodNotice s b.cancel (some link) else s
  else if b.notice && b.seq.toNat == s.get fStandSeq then
    if b.cancel then
      (if s.bit fStandPending then floodNotice (s.put fStandPending 0) true (some link) else s)
    else if s.standing && !s.bit fStandPending && s.tide.resumeAt == allOnes64 && b.resumeAt != allOnes64 then
      floodNotice (updTide s (fun t => { t with resumeAt := b.resumeAt })) false (some link)
    else s
  else s

/-- The first usable beacon of a chip in ACQUIRE loads the tide, or makes the chip stand at once (R38). -/
def acquire (s : State) (link : Nat) (b : BeaconMsg) (proc16 : Nat) : State :=
  let c16 := shownCount s link b + proc16
  let s := updTide s (fun t => { t with sum16 := 0, goodRun := 0, sent := false })
  if b.standing then
    let s := recordSeq s b.seq
    let s := updTide s (fun t => { t with now := b.standAt, frac := 0, pendS := b.standAt, pendResume := b.resumeAt })
    tideBecameValid (stand (s.put fTideValid 1) c16)
  else
    let s := updTide s (fun t => { t with now := BitVec.ofNat 64 (c16 / 16), frac := BitVec.ofNat 32 (c16 % 16 * 2 ^ 28) })
    let s := if tideReached s.tide.now s.tide.pendS then s.put fStandPending 0 else s
    tideBecameValid (s.put fTideValid 1)

/-- A root hears of another root (R29). -/
def rootConflict (s : State) (b : BeaconMsg) : State :=
  let s := tideEvent s 6
  if b.root < nodeId s then
    let s := ((s.put fRoot 0).put fUpstreamValid 0).put ⟨pgTide, 0x084, 0, 16⟩ b.root
    let s := updTide s (fun t => { t with follow := some (BitVec.ofNat 16 b.root), heard := [], sum16 := 0, loadAt := none,
                                          loadOnSync := false })
    enterLost s
  else s

/-- A usable beacon at a chip that is not the root (R33, R35, R36, R38). -/
def discipline (s : State) (link : Nat) (b : BeaconMsg) (proc16 : Nat) : State :=
  let s := hear s link b
  let s := if s.bit fUpstreamValid then s else
    match bestHeard (candidates s) with
    | some h => takeUpstream s h
    | none => s
  if !(s.bit fUpstreamValid && s.get fUpstream == link) then s
  else
    let s := takeUpstream s { link := link, hops := b.hops, root := BitVec.ofNat 16 b.root, interval := 0 }
    if !s.tideValid then (if tideState s = 1 then acquire s link b proc16 else s)
    else if b.standing == s.standing then runLoop s link b
    else s

/-- The sender may be followed, on a measured link (R33, R34). -/
def usable (s : State) (link : Nat) (b : BeaconMsg) : Bool :=
  !b.notice && (b.state == 2 || b.state == 5 || b.state == 6) && trained s link && s.bit ⟨pgTide, 0x100 + 4 * link, 31, 1⟩

/-- A beacon or a notice arrives (R29, R33, R45). A tide unit that RUN has not started takes none. -/
def tideMessage (s : State) (link : Nat) (bytes : List Byte) (proc16 : Nat) : State :=
  match beaconOf bytes with
  | none => s
  | some b =>
    if !s.bit fRun then s
    else
      let s := learn s link b
      let s := if isRoot s && b.root != nodeId s then rootConflict s b else s
      if !isRoot s && usable s link b then discipline s link b proc16 else s

def execBeacon (link : Fin 16) (bytes : List Byte) (proc16 : BitVec 32) (s : State) : Result :=
  if !(Instr.beacon link bytes proc16).wellFormed then .fault (.illFormed "BEACON")
  else if running s then finish (tideMessage s link.val bytes proc16.toNat) else .next s

def execStandNotice (link : Fin 16) (bytes : List Byte) (s : State) : Result :=
  if !(Instr.standNotice link bytes).wellFormed then .fault (.illFormed "STAND_NOTICE")
  else if running s then finish (tideMessage s link.val bytes 0) else .next s

/-! Lock, holdover, loss (R38, R40, R41, R43). -/

def lockDue (s : State) : Bool :=
  s.tideValid && !isRoot s && (tideState s == 1 || tideState s == 3 || tideState s == 4) && decide (16 ≤ s.tide.goodRun)

/-- Enter LOCKED (R38, R40, R43): what was held may take place from now on. -/
def lock (s : State) : State :=
  let st := tideState s
  let s := if st = 3 || st = 4 then logAdapt s pgTide true st else s
  tideNote (s.put fTideState 2) 9

def execLocked (s : State) : Result := if lockDue s then finish (lock s) else .next s

def holdoverDue (s : State) : Bool := tideState s == 2 && !s.tide.heard.any (heardLately s)

/-- Enter HOLDOVER (R40): c keeps its integral term. -/
def enterHoldover (s : State) : State :=
  let s := tideEvent (s.put fTideState 3) 0
  let s := logAdapt s pgTide false 3
  let s := updTide s (fun t => { t with holdSince := t.intervals, goodRun := 0 })
  setCorr s (clampSlew s (s.tide.sum16 * 64))

def execHoldover (s : State) : Result := if holdoverDue s then finish (enterHoldover s) else .next s

/-- HOLDOVER has lasted HOLD_MAX intervals (R41); the other two causes of LOST belong to BEACON. -/
def lostDue (s : State) : Bool := tideState s == 3 && decide (s.get fHoldMax ≤ s.tide.intervals - s.tide.holdSince)

def execLost (s : State) : Result := if lostDue s then finish (enterLost s) else .next s

/-! Stand commands of the root. -/

/-- SCHEDULE (R44). -/
def scheduleStand (s : State) : State :=
  let at_ := s.rd64 pgTide 0x050
  let lead := (at_ - s.now).toNat
  if !isRoot s || !s.tideValid || s.bit fStandPending || s.standing || lead < 65536 || 2 ^ 62 ≤ lead then tideReject s
  else
    let len := s.rdN pgTide 0x058
    let s := recordSeq s (BitVec.ofNat 16 (s.get fStandSeq + 1))
    let s := updTide s (fun t => { t with pendS := at_, pendResume := if len = 0 then allOnes64 else BitVec.ofNat 64 len })
    let s := (s.put fStandPending 1).wr64 pgTide 0x060 at_
    floodNotice s false none

/-- RESUME (R49). -/
def resumeStand (s : State) : State :=
  let len := s.rdN pgTide 0x058
  if !isRoot s || !s.tideValid || !s.standing || s.tide.resumeAt != allOnes64 || len < 65536 then tideReject s
  else floodNotice (updTide s (fun t => { t with resumeAt := t.standCount + BitVec.ofNat 64 len })) false none

/-- CANCEL (R50). -/
def cancelStand (s : State) : State :=
  let lead := (s.tide.pendS - s.now).toNat
  if !isRoot s || !s.tideValid || !s.bit fStandPending || lead < 65536 || 2 ^ 63 ≤ lead then tideReject s
  else floodNotice (s.put fStandPending 0) true none

/-- A write of STAND_CMD: one command, or 0x4009 for more than one; none does nothing. -/
def writeStandCmd (s : State) (v : W32) : State :=
  match v.toNat % 8 with
  | 0 => s
  | 1 => scheduleStand s
  | 2 => resumeStand s
  | 4 => cancelStand s
  | _ => tideReject s

def execSchedule (a : Access) (s : State) : Result := hostWrite pgTide 0x05C a writeStandCmd s
def execStandResume (a : Access) (s : State) : Result := hostWrite pgTide 0x05C a writeStandCmd s
def execCancel (a : Access) (s : State) : Result := hostWrite pgTide 0x05C a writeStandCmd s

/-! A stand begins and ends. -/

def standDue (s : State) : Bool := s.bit fStandPending && s.tideValid && !s.standing && tideReached s.now s.tide.pendS

/-- The tide has reached S (R46): the beacon of S first, where one is due; past S the chip stands late (R51). -/
def beginStand (s : State) : State :=
  let s := if beaconDue s then sendBeacon s else s
  if s.now = s.tide.pendS then stand s 0 else standLate s ((s.now - s.tide.pendS).toNat * 16)

def execStandBegin (s : State) : Result := if standDue s then finish (beginStand s) else .next s

/-- The stand count has reached RESUME_AT, later by T′ − S on a chip that stood late (R48, R51). -/
def resumeDue (s : State) : Bool :=
  s.standing && s.tide.resumeAt != allOnes64 && decide (s.tide.resumeAt.toNat + s.tide.lateBy.toNat ≤ s.tide.standCount.toNat)

/-- The tide resumes from S. -/
def endStand (s : State) : State :=
  let s := updTide s (fun t => { t with sent := true })
  tideNote (s.put fStanding 0) 11

def execStandEnd (s : State) : Result := if resumeDue s then finish (endStand s) else .next s

/-- Writes of the page's other registers (the TIDE page): LOST_LIMIT and HOLD_MAX have least values. -/
def writeLostLimit (s : State) (v : W32) : State := s.wrN pgTide 0x07C (max 4 (v.toNat % 65536))
def writeHoldMax (s : State) (v : W32) : State := s.wrN pgTide 0x080 (max 1 (v.toNat % 65536))

/-! One tide clock. -/

/-- Add 1 + c to a counter with 32 fraction bits, one tick at a time: the counter, its fraction, and whether a second tick is
owed. -/
def advance (n : W64) (f : W32) (owed : Bool) (c : Int) : W64 × W32 × Bool :=
  if owed then (n + 1, f, false)
  else
    let x : Int := ((f.toNat : Nat) : Int) + 2 ^ 32 + c
    (n + BitVec.ofInt 64 (min 1 (x / 2 ^ 32)), BitVec.ofInt 32 (x % 2 ^ 32), decide (2 ≤ x / 2 ^ 32))

/-- The step of the interval count: 1 when the running count comes to a new multiple of 2^16 (R35). -/
def intervalStep (old new : W64) : Nat := if new != old && new.toNat % 65536 == 0 then 1 else 0

/-- The running count moves by one tide clock: the tide, the stand count, or before the load the clock (R19, R35, R48). -/
def tickCount (s : State) : State :=
  let t := s.tide
  let clock := if t.owed then t.clock else t.clock + 1
  if s.standing then
    let r := advance t.standCount t.standFrac t.owed t.corr
    let s := updTide s (fun t => { t with clock := clock, standCount := r.1, standFrac := r.2.1, owed := r.2.2,
                                          sent := t.sent && r.1 == t.standCount,
                                          intervals := t.intervals + intervalStep t.standCount r.1 })
    s.wr64 pgTide 0x068 r.1
  else if s.tideValid then
    let r := advance t.now t.frac t.owed t.corr
    updTide s (fun t => { t with clock := clock, now := r.1, frac := r.2.1, owed := r.2.2, sent := t.sent && r.1 == t.now,
                                 intervals := t.intervals + intervalStep t.now r.1 })
  else updTide s (fun t => { t with clock := clock, owed := false, intervals := t.intervals + (if clock % 65536 = 0 then 1 else 0) })

/-- What the tide does of itself in one tide clock: what is due now, else it moves on. -/
def tickTide (s : State) : State :=
  if initDue s && !s.tide.loadOnSync then loadInit s
  else if beaconDue s then sendBeacon s
  else if standDue s then beginStand s
  else if resumeDue s then endStand s
  else if wrapDue s then wrapTide s
  else tickCount s

end Sys2Proof.Machine
end

