-- ==== Sys2Proof/Machine/Pages.lean ====
section
/-! DEFINITION. BAR0 and BAR4 (17_register_pages): what each register reads as, what a write does to it, 64-bit pairs (00 R13, R14),
event forcing (R438), doorbells, routing, re-arming and scanning (R444 to R448). A register whose write is a command of its own is
written by that command's operation. -/

namespace Sys2Proof.Machine

/-! Reading a register (R433). -/

/-- QSTATE and HELD of a queue (10, the CQ page): idle, waiting for START or gate, active, group not READY; and whether a transfer
is due past its launch tide. -/
def cqStatus (s : State) (g : Nat) : Nat :=
  let st := groupState s g
  if st ≠ 2 && st ≠ 3 then 3
  else match (s.group g).coll with
    | none => 0
    | some c =>
      let d := collDesc c.desc
      let started := reachedNow s d.start && collGate s g d
      let x := collCtx s g d
      let held := !c.stopped && (sends x (collPlan s g d)).any (fun t =>
        !c.launched.contains t && reachedNow s (launchTide d t) && s.now != launchTide d t)
      (if started || !c.launched.isEmpty then 2 else 1) + (if held then 4 else 0)

/-- A slip page's word (09, the FERRY pages): the register in RESIDENT mode; in HBM mode the schedule entry within NEXT to
NEXT + 1,952 that the slip entry shows. -/
def slipWord (s : State) (page j off : Nat) : W32 :=
  let f := j / 32
  if !ferryHbm s f then s.rd page off
  else
    let i := 63 * (j % 32 - 1) + (off - 0x040) / 64
    let o := (off - 0x040) % 64
    let next := ferryNext s f
    let k := next + (i + 1953 - next % 1953) % 1953
    if k < schedLen s f && decide (o < 0x30) then BitVec.ofNat 32 (fieldLE (entryBytes s f k) o 4) else 0

/-- Granules of a tier that nothing holds (TIER FREE0, FREE1). -/
def freeGranules (s : State) (tier : Nat) : Nat :=
  let inTier := fun (r : Nat × Nat) => match placeOf r.1 with
    | some (.scratch _ _) => tier == 0
    | some (.hbm _ _) => tier == 1
    | none => false
  (if tier = 0 then 180224 else 1048576)
    - (((takenRanges s).filter inTier).map (fun r => ceilDiv r.2 (granule tier))).sum

/-- Moves and tiles in flight (TIER IN_FLIGHT). -/
def movesInFlight (s : State) : Nat :=
  let flying := fun (m : TierMove) => (m.tiles.filter (fun x => x.2 == .sailing || x.2 == .staged)).length
  min 127 s.tierMoves.length + min 511 ((s.tierMoves.map flying).sum) * 2 ^ 16

/-- The bytes of an object's table entry (12 R317). -/
def objBytes (e : ObjEntry) : List Byte :=
  bytesLE 8 e.home.toNat ++ bytesLE 8 e.size ++ bytesLE 1 (e.state + e.tier * 8) ++ bytesLE 1 e.tileLog2 ++ bytesLE 1 e.owner
    ++ bytesLE 1 e.pins ++ bytesLE 2 e.share.toNat ++ bytesLE 2 e.lastCode.toNat ++ bytesLE 4 e.gen.toNat ++ bytesLE 4 e.progress

/-- A FREE entry's bytes are zero (12 R316). -/
def objWord (s : State) (i : Nat) : W32 :=
  let e := s.obj (s.get ⟨pgTier, 0x060, 0, 20⟩)
  if e.state = 0 then 0 else BitVec.ofNat 32 (fieldLE (objBytes e) (4 * i) 4)

/-- Core ids FENCED and spares in use (15, SUBST_TOTAL). -/
def substTotal (s : State) : Nat :=
  (s.cores.filter (fun c => decide (c.2.state = .fenced))).length
    + ((List.range 256).filter (fun i => 128 ≤ s.get (substByte (i / 4) (i % 4)))).length * 2 ^ 16

/-- A 16-bit map of the links for which a predicate holds. -/
def linkMap (p : Nat → Bool) : Nat := (List.range 16).foldl (fun m n => if p n then m + 2 ^ n else m) 0

/-- TOPO's words that show links and ports (11, the TOPO page). -/
def topoWord (s : State) (off : Nat) : W32 :=
  if off = 0x040 then BitVec.ofNat 32 (setBits (s.rdN pgTopo 0x040) 0 2 s.boot.strap.toNat)
  else if off = 0x044 then BitVec.ofNat 32 (linkMap (trained s) + linkMap (fun n => linkState s n == 3) * 2 ^ 16)
  else if off = 0x048 then BitVec.ofNat 32 (linkMap (fun n => linkState s n == 4) + linkMap (fun n => linkState s n == 5) * 2 ^ 16)
  else if 0x0D0 ≤ off && off < 0x110 then
    let n := (off - 0x0D0) / 4
    if portOf s n = n then
      BitVec.ofNat 32 (portWidth8 s n + ((List.range 16).filter (fun m => portOf s m == n && trained s m)).length * 2 ^ 6)
    else 0
  else s.rd pgTopo off

/-- A port block's word: zero in a page that does not lead its port; HELD counts what this chip holds on the port (02 R82). -/
def portWord (s : State) (p page off : Nat) : W32 :=
  if !portLive s p then 0
  else if off = 0x424 then BitVec.ofNat 32 ((s.held.filter (fun h => h.port == p)).length % 2 ^ 16)
  else s.rd page off

/-- A word of a page's block fields, STATUS and CTRL, as the chapter of the page gives it. -/
def blockWord (s : State) (k : PageKind) (n page off : Nat) : W32 :=
  let num := fun (v : Nat) => BitVec.ofNat 32 v
  match k with
  | .global => if off = 0x00C then num (if stageReady s then 1 else 0) else s.rd page off
  | .ident =>
    if 0x040 ≤ off && off < 0x060 && !s.bit fIdentity then 0 else s.rd page off
  | .boot =>
    if off = 0x070 && !stageReady s && s.get fStage != 11 then num (elapsedMs s)
    else if off = 0x074 then num (substTotal s) else s.rd page off
  | .tide =>
    if off = 0x040 || off = 0x044 then half s.now (off == 0x044)
    else if off = 0x084 then num (rootId s) else s.rd page off
  | .power =>
    if off = 0x04C then num (schedMap s)
    else if off = 0x054 then (selectedSlot s).1
    else if off = 0x058 || off = 0x05C then half (selectedSlot s).2 (off == 0x05C)
    else s.rd page off
  | .therm => if off = 0x00C then num (thermStatus s) else s.rd page off
  | .sec =>
    if off = 0x00C then num (if s.bit fIdentity then 1 else 0)
    else if off = 0x04C then num (berthMap s)
    else if off = 0x050 then num (if s.hostKey = 0 then 0 else 1)
    else s.rd page off
  | .debug => if off = 0x0C4 then obsData s else s.rd page off
  | .log =>
    if off = 0x00C then num (logStatus s)
    else if off = 0x040 then s.log.next
    else if off = 0x044 then s.log.oldest
    else if off = 0x04C then s.log.discarded
    else if 0x054 ≤ off && off < 0x074 then logWord s (s.rd pgLog 0x050) ((off - 0x054) / 4)
    else s.rd page off
  | .berth => if off = 0x60C then 0 else s.rd page off
  | .lnk => if 0x400 ≤ off then portWord s n page off else s.rd page off
  | .topo => topoWord s off
  | .cq =>
    if off = 0x00C then num (cqStatus s n) else if off = 0x054 then num (collCur s n) else s.rd page off
  | .gtab => if off = 0x00C then num (keelUsed s) else s.rd page off
  | .hs => s.rd page off
  | .flash => if off = 0x048 then num (freeExtents s) else s.rd page off
  | .ftl => s.rd page off
  | .tier =>
    if 0x064 ≤ off && off < 0x084 then objWord s ((off - 0x064) / 4)
    else if off = 0x084 then num (movesInFlight s)
    else if off = 0x088 then num (freeGranules s 0)
    else if off = 0x08C then num (freeGranules s 1)
    else s.rd page off
  | .sketch => (sketchWord s off).getD (s.rd page off)
  | .cl =>
    if off = 0x00C then num (clStatus s n)
    else if off = 0x040 then num (fencedMask s n % 2 ^ 32)
    else if off = 0x044 then num (fencedMask s n / 2 ^ 32)
    else if off = 0xA10 then num (sqStat s n)
    else s.rd page off
  | .cd =>
    if off = 0x044 then num (cdStat s n) else if 0x400 ≤ off then portWord s (16 + n) page off else s.rd page off
  | .ferry => if off = 0x070 then num (ferryNext s n) else s.rd page off
  | .slip => if 0x040 ≤ off then slipWord s page n off else s.rd page off
  | .core =>
    let id : CoreId := BitVec.ofNat 12 n
    if coreOwn off && !coreQuiet (s.core id) then 0 else coreWord s id off

/-- A register word as it reads, whoever reads it (R437, R441, R442). -/
def regWord (s : State) (page off : Nat) : W32 :=
  match pageAt page with
  | none => 0
  | some (k, n) =>
    if off = 0x000 then BitVec.ofNat 32 (pageId k n)
    else if off = 0x004 then BitVec.ofNat 32 (pageCaps k)
    else if off = 0x028 then (if pageLocked s page then 1 else 0)
    else if off = 0x02C then BitVec.ofNat 32 (pageOwner s page)
    else blockWord s k n page off

/-- The key of a function's latch or hold of a pair (00 R13, R14); BAR4's pairs stand at function + 32. -/
def pairKey (func page lo : Nat) : Nat := func * 2 ^ 26 + page * 4096 + lo

def latchPair (s : State) (key : Nat) (hi : W32) : State := { s with pairRead := storePut s.pairRead key (some hi) none }
def unlatchPair (s : State) (key : Nat) : State := { s with pairRead := storePut s.pairRead key none none }
def holdPair (s : State) (key : Nat) (lo : W32) : State := { s with pairWrite := storePut s.pairWrite key (some lo) none }
def unholdPair (s : State) (key : Nat) : State := { s with pairWrite := storePut s.pairWrite key none none }

/-- Answer a read: LO latches HI, and HI returns and consumes the latch (00 R13). -/
def answerPair (s : State) (func key : Nat) (hi : Bool) (value other : W32) : State :=
  if hi then
    match storeGet s.pairRead key none with
    | some w => (unlatchPair s key).emit (.readData func w)
    | none => s.emit (.readData func value)
  else (latchPair s key other).emit (.readData func value)

/-- What a read of BAR0 does: it may be refused, and answers zero (00 R15; 17 R432, R434). -/
def readRefused (s : State) (func bar page off : Nat) : State := (accessRefused s func bar page off false).emit (.readData func 0)

/-- The function may read the page (R432, R434). -/
def mayRead (s : State) (func page : Nat) (k : PageKind) : Bool :=
  func == 0 || ((vfBerth s func).isSome && (decide (k = .ident) || vfBerth s func == some (pageOwner s page)))

/-- A read of one BAR0 word. RD_WORD[7] advances RD_SEQ (19 R472). -/
def regRead (func page off : Nat) (s : State) : State :=
  match pageAt page, rowAt page off with
  | some (k, _), some (r, _, hi) =>
    if !mayRead s func page k then readRefused s func 0 page off
    else if decide (r.kind = .wo) then s.emit (.readData func 0)
    else if r.pair then
      let lo := if hi then off - 4 else off
      answerPair s func (pairKey func page lo) hi (regWord s page off) (regWord s page (lo + 4))
    else
      let t := s.emit (.readData func (regWord s page off))
      if page = pgLog && decide (off = 0x070) then t.wr pgLog 0x050 (t.rd pgLog 0x050 + 1) else t
  | _, _ => readRefused s func 0 page off

/-- A host read: nothing answers while the link is down, and a closing VF gets Unsupported Request (14 R377). -/
def hostRead (func page off : Nat) (s : State) : Result :=
  if !hostUp s || vfClosed s func then .next s else finish (regRead func page off s)

/-! Writing a register. -/

/-- The pages whose LOCK is set. -/
def lockedPages (s : State) : List Nat :=
  s.regs.filterMap (fun x => if x.1 % 4096 = 0x028 && x.2 ≠ 0 then some (x.1 / 4096) else none)

/-- LOCK clears where OWNER has changed (R441). -/
def dropLocks (old s : State) : State :=
  clearLocks s ((lockedPages s).filter (fun p => pageOwner old p != pageOwner s p))

/-- A register that takes writes only in some state: `refuse` sets ACCESS, `drop` does not. -/
def stateGate (s : State) (k : PageKind) (n page off : Nat) : Gate :=
  match k with
  | .gtab =>
    let o := (off - 0x040) % 0x40
    let st := groupState s (8 * n + (off - 0x040) / 0x40)
    if 0x040 ≤ off && decide (o ≠ 0x1C) && decide (st ≠ 0) && decide (st ≠ 7) then .refuse else .take
  | .cq =>
    if (0x040 ≤ off && off ≤ 0x048) && (s.bit ⟨page, 0x008, 0, 1⟩ || s.rd page 0x04C != s.rd page 0x050) then .refuse else .take
  | .ferry => if (off == 0x008 || (0x040 ≤ off && off < 0x068)) && !ferryIdle s n then .refuse else .take
  | .slip => if 0x040 ≤ off && !ferryIdle s (n / 32) then .refuse else if 0x040 ≤ off && ferryHbm s (n / 32) then .drop else .take
  | .sketch => if (0x044 ≤ off && off < 0x060) && idxLocked s then .refuse else .take
  | .tier => if (0x040 ≤ off && off < 0x04C) && s.bit ⟨pgTier, 0x008, 0, 1⟩ then .refuse else .take
  | .cl => if (off == 0xA00 || off == 0xA04) && s.bit ⟨page, 0xA08, 31, 1⟩ then .refuse else .take
  | .berth =>
    if (0x100 ≤ off && off < 0x200) && regionBound s n ((off - 0x100) / 16) then .refuse else .take
  | .lnk => if 0x400 ≤ off && !portLive s n then .drop else .take
  | .core => if coreOwn off && !coreQuiet (s.core (BitVec.ofNat 12 n)) then .drop else .take
  | .global | .ident | .boot | .tide | .power | .therm | .sec | .debug | .log | .topo | .hs | .flash | .ftl | .cd => .take

/-- A pair takes effect as one value (00 R14). -/
def pairEffect (k : PageKind) (n page lo mask func : Nat) (v : W64) (s : State) : State :=
  match k with
  | .berth => if 0x100 ≤ lo && lo < 0x200 then writeRbase n ((lo - 0x100) / 16) func s v else s.wr64 page lo (v &&& BitVec.ofNat 64 mask)
  | .core => if coreOwn lo then writeCore64 (BitVec.ofNat 12 n) lo v s else s.wr64 page lo (v &&& BitVec.ofNat 64 mask)
  | .global | .ident | .boot | .tide | .power | .therm | .sec | .debug | .log | .lnk | .topo | .cq | .gtab | .hs | .flash | .ftl
  | .tier | .sketch | .cl | .cd | .ferry | .slip => s.wr64 page lo (v &&& BitVec.ofNat 64 mask)

/-- CQ CTRL: counters and MARGIN return to their reset values when EN is set (10, the CQ page). -/
def writeCqCtrl (g : Nat) (s : State) (v : W32) : State :=
  let rises := v.getLsbD 0 && !qEnabled s g
  let s := s.wrN (pgCq g) 0x008 (v.toNat % 2)
  if rises then [0x058, 0x05C, 0x060].foldl (fun t o => t.wr (pgCq g) o (regReset (pgCq g) o)) s else s

/-- A value held between two limits. -/
def clamp (lo hi v : Nat) : Nat := max lo (min hi v)

/-- FTL's registers store the nearer limit (12, the FTL page). -/
def writeFtl (off mask : Nat) (s : State) (v : W32) : State :=
  let n := v.toNat &&& mask
  s.wrN pgFtl off
    (if off = 0x040 then clamp 10000 1000000 n else if off = 0x048 then clamp 1 25 n
     else if off = 0x044 || off = 0x04C then max 1 n else n)

/-- A write of a 32-bit register's CTRL or block field. -/
def blockWrite (k : PageKind) (n page off mask func : Nat) (s : State) (v : W32) : State :=
  let plain := s.wr page off (v &&& BitVec.ofNat 32 mask)
  match k with
  | .global | .ident | .sec => plain
  | .boot => if off = 0x080 then writeBootCmd func s v else if off = 0x078 then writeRelayOut s v else plain
  | .tide =>
    if off = 0x008 then writeTideCtrl s v else if off = 0x05C then writeStandCmd s v
    else if off = 0x07C then writeLostLimit s v else if off = 0x080 then writeHoldMax s v else plain
  | .power => if off = 0x040 then writePcmd s v else if off = 0x060 then writeSlotCancel s v else plain
  | .therm =>
    if off = 0x040 then writeHbmThresh func s v else if off = 0x044 then writePace s v
    else if off = 0x04C then writeJwarn s v else plain
  | .debug => if off = 0x04C then writeDebugCmd s v else if off = 0x0C0 then writeObsSel s v else plain
  | .log =>
    if off = 0x048 then releaseTo func s v else if off = 0x080 then writeDmaCmd func s v
    else if off = 0x084 then writeThresh s v else plain
  | .berth =>
    if off = 0x048 then writeBcfg n func s v else if off = 0x04C then writeBcmd n s v
    else if 0x100 ≤ off && off < 0x200 then writeRegion n ((off - 0x100) / 16) (off % 16) func s v
    else if off = 0x60C then writeFnCmd n s v
    else if off = 0x660 then s.wrN page off (clamp 4 12 (v.toNat % 32))
    else if off = 0x668 then writeRingTail n s v else plain
  | .lnk =>
    if off = 0x008 then writeLnkCtrl n s v else if off = 0x044 then writeRetrainMax n s v
    else if off = 0x400 then writeQwin n s v else if off = 0x404 then writeQthresh n s v else plain
  | .topo => if off = 0x040 then writeSelf s v else if off = 0x04C then applyCmd s v else plain
  | .cq =>
    if off = 0x008 then writeCqCtrl n s v else if off = 0x048 then s.wrN page off (clamp 4 16 (v.toNat % 32))
    else if off = 0x050 then writeCqTail n s v else plain
  | .gtab => if 0x040 ≤ off && off < 0x240 && (off - 0x040) % 0x40 = 0x1C then writeGcmd (8 * n + (off - 0x040) / 0x40) s v else dropLocks s plain
  | .hs =>
    if off = 0x008 then writeTest n s v
    else if 0x400 ≤ off && off % 32 = 0 then writeGmode n ((off - 0x400) / 32) s v else plain
  | .flash => if off = 0x008 then writeFlashCtrl s v else plain
  | .ftl => if off = 0x008 then plain else writeFtl off mask s v
  | .tier =>
    if off = 0x008 then writeTierCtrl s v else if off = 0x054 then s.wrN page off (clamp 4 12 (v.toNat % 32))
    else if off = 0x05C then writeRingTail 16 s v else plain
  | .sketch => if off = 0x060 then writeIdxCmd s v else plain
  | .cl =>
    if off = 0x050 then writeResetCmd n func s v
    else if 0x800 ≤ off && off < 0x900 then writeBollard n ((off - 0x800) / 4) s v
    else if off = 0xA08 then writeSqCfg n func s v else plain
  | .cd =>
    if off = 0x040 then (if h : n < 8 then writePreset ⟨n, h⟩ func s v else s)
    else if off = 0x400 then writeQwin (16 + n) s v else if off = 0x404 then writeQthresh (16 + n) s v else plain
  | .ferry => if off = 0x06C then writeFerryCmd n s v else if off = 0x008 then dropLocks s plain else plain
  | .slip => plain
  | .core =>
    let id : CoreId := BitVec.ofNat 12 n
    if off = 0x008 then writeCoreCtrl id s v else if off = 0x200 then writeQctrl id s v
    else if off = 0x06C then updCore s id (fun c => { c with aflags := v &&& 0xFF }) else plain

/-! Events by the host (R438). -/

/-- The code that a forced bit loads: the bit's code; where the bit has several, a free choice among them (log 30). -/
def forcedCode (k : PageKind) (bit : Nat) (s : State) : Nat × State :=
  match evtCodes k bit with
  | [] => (0, s)
  | [c] => (c, s)
  | c :: cs => let d := s.draw
               ((nth (c :: cs) (d.1.toNat % (cs.length + 1))).getD c, d.2)

/-- One forced bit: set, coded, stamped and logged as if its condition had occurred; the LOG page's bits are not logged. -/
def forceBit (k : PageKind) (page bit : Nat) (s : State) : State :=
  let c := forcedCode k bit s
  let t := setEvt c.2 page bit c.1 true
  if page = pgLog then t else logAdd t (logEntry t page 0 c.1 bit true false (evtData t page))

/-- EVT_SET: from the PF, with CONTROL or TEST open, each implemented bit in turn. -/
def forceEvt (k : PageKind) (page : Nat) (a : Access) (s : State) : State :=
  if a.func.val ≠ 0 || debugLevel s < 2 then writeRefused s page 0x018 a
  else ((List.range 32).filter (fun b => a.data.getLsbD b && (pageEvtMask k).testBit b)).foldl (fun t b => forceBit k page b t) s

/-- A host write that has passed the gate. -/
def regEffect (page off : Nat) (a : Access) (s : State) (v : W32) : State :=
  match pageAt page, rowAt page off with
  | some (k, n), some (r, _, hi) =>
    if off = 0x010 then clearEvt s page v
    else if off = 0x014 then s.wr page off (v &&& BitVec.ofNat 32 r.mask)
    else if off = 0x018 then forceEvt k page a s
    else match stateGate s k n page off with
      | .refuse => writeRefused s page off a
      | .drop => s
      | .take =>
        if r.pair then
          let lo := if hi then off - 4 else off
          let key := pairKey a.func.val page lo
          if hi then
            let w := (storeGet s.pairWrite key none).getD
              (match k with
                | .core => coreWord s (BitVec.ofNat 12 n) lo
                | _ => s.rd page lo)
            pairEffect k n page lo r.mask a.func.val (v ++ w) (unholdPair s key)
          else holdPair s key v
        else blockWrite k n page off r.mask a.func.val s v
  | _, _ => s

/-- A host write of any BAR0 word. -/
def regWrite (page off : Nat) (a : Access) (s : State) : Result :=
  if page = pgDebug && decide (off = 0x0C8) then execObsStep a s else hostWrite page off a (regEffect page off a) s

/-! BAR4 (R444 to R448). -/

/-- PEND[k] of a function. -/
def pendWord (s : State) (func k : Nat) : W32 :=
  BitVec.ofNat 32 ((pendingClasses s).foldl (fun m c =>
    if c / 256 = func && c % 256 / 32 = k then m + 2 ^ (c % 32) else m) 0)

/-- SCAN_NEXT (R448). -/
def scanNext (s : State) (func : Nat) : W32 :=
  let cls := (s.rdBar4 func 0x010).toNat % 256
  match ((pendingPages s).filter (fun p => pageClass p == cls && pageFunc s p == func)).foldl (fun l p => insertSorted p l) [] with
  | p :: _ => if cls ≤ 147 then BitVec.ofNat 32 p else 0x80000000
  | [] => 0x80000000

/-- PBA word k of a function. -/
def pbaWord (s : State) (func k : Nat) : W32 :=
  BitVec.ofNat 32 ((List.range 32).foldl (fun m j => if s.pba.contains (func, 32 * k + j) then m + 2 ^ j else m) 0)

/-- A word of BAR4 as it reads; none where none is listed. -/
def bar4Word (s : State) (func off : Nat) : Option W32 :=
  if off % 4 ≠ 0 then none
  else if off = 0x000 || off = 0x004 || off = 0x010 || (0x100 ≤ off && off < 0x200) || (0x10000 ≤ off && off < 0x11000) then
    some (s.rdBar4 func off)
  else if off = 0x008 then some (if s.get fStage = 2 then 1 else 0)
  else if off = 0x014 then some (scanNext s func)
  else if 0x020 ≤ off && off < 0x040 then some (pendWord s func ((off - 0x020) / 4))
  else if (0x040 ≤ off && off < 0x060) || (0x1000 ≤ off && off ≤ 0x1140) then some 0
  else if 0x18000 ≤ off && off < 0x18020 then some (pbaWord s func ((off - 0x18000) / 4))
  else none

/-- A read of one BAR4 word. -/
def bar4Read (func off : Nat) (s : State) : State :=
  match (if func ≠ 0 && (vfBerth s func).isNone then none else bar4Word s func off) with
  | none => readRefused s func 2 (off / 4096) off
  | some w =>
    if off = 0x000 || off = 0x004 then
      answerPair s func (pairKey (32 + func) 0 0) (off == 0x004) w (s.rdBar4 func 0x004)
    else s.emit (.readData func w)

/-- A vector's message goes out if it was pending and neither the vector nor the function is masked. -/
def deliver (func vec : Nat) (s : State) : State :=
  if s.pba.contains (func, vec) && !s.fmask.contains func && !(s.rdBar4 func (0x10000 + 16 * vec + 12)).getLsbD 0 then
    { s with pba := s.pba.filter (fun x => x != (func, vec)) }.emit (.msix func vec)
  else s

/-- Every pending vector of a function that may go. -/
def deliverAll (func : Nat) (s : State) : State :=
  (s.pba.filter (fun x => x.1 == func)).foldl (fun t x => deliver func x.2 t) s

/-- A write of the MSI-X table: message address bits [1:0] stay zero, vector control keeps bit 0, and an unmask delivers (PCIe). -/
def writeMsix (func off : Nat) (v : W32) (s : State) : State :=
  if off % 16 = 12 then deliver func ((off - 0x10000) / 16) (s.wrBar4 func off (v &&& 1))
  else if off % 16 = 0 then s.wrBar4 func off (v &&& ~~~3)
  else s.wrBar4 func off v

/-- REARM[k]: each class written 1 that is pending sends its message again (R447). -/
def rearmWord (func k : Nat) (v : W32) (s : State) : State :=
  sendVectors s (((List.range 32).filter (fun j => v.getLsbD j && s.pend.contains (func * 256 + 32 * k + j))).map
    (fun j => (func, classVector s func (32 * k + j))))

/-- WIN_BASE takes effect with its HI word (00 R14). -/
def writeWinBase (func off : Nat) (v : W32) (s : State) : State :=
  let key := pairKey (32 + func) 0 0
  if off = 0 then holdPair s key v
  else
    let lo := (storeGet s.pairWrite key none).getD (s.rdBar4 func 0)
    ((unholdPair s key).wrBar4 func 0 (lo &&& 0xFFE00000)).wrBar4 func 4 (v &&& 0xFFFF)

/-- What a write of a BAR4 word does; none where none is listed or writable words lie there by another rule. -/
def bar4Effect (func off : Nat) (v : W32) (s : State) : Option State :=
  if off % 4 ≠ 0 then none
  else if off = 0x000 || off = 0x004 then some (writeWinBase func off v s)
  else if off = 0x010 then some (s.wrBar4 func off (v &&& 0xFF))
  else if 0x040 ≤ off && off < 0x060 then some (rearmWord func ((off - 0x040) / 4) v s)
  else if 0x100 ≤ off && off < 0x200 then some (s.wrBar4 func off v)
  else if 0x10000 ≤ off && off < 0x11000 then some (writeMsix func off v s)
  else if off = 0x008 || off = 0x014 || (0x020 ≤ off && off < 0x040) || (0x18000 ≤ off && off < 0x18020) then some s
  else none

/-- A write of one BAR4 word: a doorbell is a write of the TAIL it names (R445). -/
def bar4Write (off : Nat) (a : Access) (s : State) : Result :=
  let f := a.func.val
  if off % 4 = 0 && 0x1000 ≤ off && off < 0x1100 then
    doorbellWrite (pgCq ((off - 0x1000) / 4)) off a (writeCqTail ((off - 0x1000) / 4)) s
  else if off % 4 = 0 && 0x1100 ≤ off && off < 0x1140 then
    doorbellWrite (pgBerth ((off - 0x1100) / 4)) off a (writeRingTail ((off - 0x1100) / 4)) s
  else if off = 0x1140 then doorbellWrite pgTier off a (writeRingTail 16) s
  else if !hostUp s || vfClosed s f then .next s
  else if a.be ≠ 15 || (f ≠ 0 && (vfBerth s f).isNone) then finish (accessRefused s f 2 (off / 4096) off true)
  else match bar4Effect f off a.data s with
    | some t => finish t
    | none => finish (accessRefused s f 2 (off / 4096) off true)

/-! The commands. -/

def execPairLoRead (func : Fin 17) (page : BitVec 14) (off : BitVec 12) (s : State) : Result :=
  hostRead func.val page.toNat off.toNat s

def execPairHiRead (func : Fin 17) (page : BitVec 14) (off : BitVec 12) (s : State) : Result :=
  hostRead func.val page.toNat off.toNat s

def execPairLoWrite (page : BitVec 14) (off : BitVec 12) (a : Access) (s : State) : Result := regWrite page.toNat off.toNat a s

def execPairHiWrite (page : BitVec 14) (off : BitVec 12) (a : Access) (s : State) : Result := regWrite page.toNat off.toNat a s

def execRegisterWrite (bar : Bar) (addr : BitVec 26) (a : Access) (s : State) : Result :=
  match bar with
  | .bar0 => regWrite (addr.toNat / 4096) (addr.toNat % 4096) a s
  | .bar4 => bar4Write (addr.toNat % 2 ^ 24) a s

def execRegisterRead (bar : Bar) (addr : BitVec 26) (func : Fin 17) (s : State) : Result :=
  match bar with
  | .bar0 => hostRead func.val (addr.toNat / 4096) (addr.toNat % 4096) s
  | .bar4 => if !hostUp s || vfClosed s func.val then .next s else finish (bar4Read func.val (addr.toNat % 2 ^ 24) s)

def execEvtClear (page : BitVec 14) (a : Access) (s : State) : Result := regWrite page.toNat 0x010 a s

def execEvtSet (page : BitVec 14) (a : Access) (s : State) : Result := regWrite page.toNat 0x018 a s

def execRearm (k : Fin 8) (a : Access) (s : State) : Result := bar4Write (0x040 + 4 * k.val) a s

/-- An unmask of a vector, or of the function. -/
def execMsixUnmask (func : Fin 17) (vector : Option (BitVec 8)) (s : State) : Result :=
  if !hostUp s then .next s
  else match vector with
    | some v => finish (deliver func.val v.toNat
        (let off := 0x10000 + 16 * v.toNat + 12
         s.wrBar4 func.val off (s.rdBar4 func.val off &&& ~~~1)))
    | none => finish (deliverAll func.val { s with fmask := s.fmask.filter (fun f => f != func.val) })

def execRdWord (func : Fin 17) (s : State) : Result := hostRead func.val pgLog 0x070 s

end Sys2Proof.Machine
end

