-- ==== Sys2Proof/Machine/Pins.lean ====
section
/-! DEFINITION. The pins that carry their own commands: the IEEE 1149.1 test port (18 R465, 19 R480) and the I3C target
(18 R464). What the port and the target answer is recorded in `out`. -/

namespace Sys2Proof.Machine

/-! The test port. -/

/-- TAP instruction codes (18 R465, 19 R480). -/
abbrev irSample : BitVec 5 := 0x02
abbrev irExtest : BitVec 5 := 0x03
abbrev irScan : BitVec 5 := 0x08
abbrev irMbist : BitVec 5 := 0x09
abbrev irIdcode : BitVec 5 := 0x01
abbrev irBypass : BitVec 5 := 0x1F

/-- What IDCODE answers (18 R465). -/
abbrev idcodeWord : Nat := 0x10F0158B

/-- The TAP leaves Test-Logic-Reset only while the chip runs (18 R462). -/
def tapLive (s : State) : Bool := running s

/-- Debug access at level TEST is open. -/
def testOpen (s : State) : Bool := debugLevel s == 3

/-- An instruction is in the instruction register, and TDO shifts out a register of `bits` cells. -/
def tapShift (ir : BitVec 5) (bits value : Nat) (s : State) : State := ({ s with tapIr := ir }).emit (.tdo bits value)

/-- Every instruction that needs TEST acts as BYPASS without it (18 R465). -/
def tapVendor (ir : BitVec 5) (effect : State → State) (s : State) : Result :=
  if !tapLive s then .next s else if testOpen s then finish (effect s) else finish (tapShift ir 1 0 s)

/-- TRST_N, or five clocks with TMS high. -/
def execTapReset (s : State) : Result :=
  if tapLive s || decide (s.boot.phase = .scanning) then .next { s with tapIr := irIdcode } else .next s

def execIdcode (s : State) : Result := if tapLive s then .next (tapShift irIdcode 32 idcodeWord s) else .next s

def execBypass (s : State) : Result := if tapLive s then .next (tapShift irBypass 1 0 s) else .next s

/-- SAMPLE/PRELOAD shifts out the pins and loads the cells. -/
def samplePins (pins shiftIn : BitVec 10) (s : State) : State :=
  { tapShift irSample 10 pins.toNat s with cells := shiftIn }

def execSamplePreload (pins shiftIn : BitVec 10) (s : State) : Result := tapVendor irSample (samplePins pins shiftIn) s

/-- EXTEST shifts the cells, which then drive the pins. -/
def drivePins (shiftIn : BitVec 10) (s : State) : State :=
  ({ tapShift irExtest 10 s.cells.toNat s with cells := shiftIn }).emit (.pin shiftIn)

def execExtest (shiftIn : BitVec 10) (s : State) : Result := tapVendor irExtest (drivePins shiftIn) s

/-- SCAN stops every clock until chip reset. -/
def enterScan (s : State) : State := { s with tapIr := irScan, boot := { s.boot with phase := .scanning } }

def execScan (s : State) : Result := tapVendor irScan enterScan s

/-- MBIST tests the memories of a die: a 32-bit result (log 23), and scratchpads with undefined contents (log 55). -/
def testDie (die : Nat) (s : State) : State :=
  let s := (List.range 8).foldl (fun t c => t.blurRange (scratchAddr (8 * die + c) 0) scratchSize) s
  tapShift irMbist 32 (Config.mbistResult die).toNat s

def execMbist (die : Fin 8) (s : State) : Result := tapVendor irMbist (testDie die.val) s

/-! The I3C target. -/

/-- The target answers from 10 ms of stable 48 V until 48 V goes (18 R464). -/
def i3cLive (s : State) : Bool := decide (s.boot.phase ≠ .off)

/-- The static address (18 R458, R464). -/
def i3cStatic (s : State) : Nat := 0x50 + s.boot.i3cStrap.toNat

/-- The provisioned identifier, most significant byte first. -/
def pidBytes : List Byte := (bytesLE 6 Config.i3cPid.toNat).reverse

/-- The greatest of signed readings, as the byte that carries it. -/
def hottestByte (readings : List Int) : Byte := BitVec.ofInt 8 (readings.foldl max (-128))

/-- TJ: the hottest junction reading. -/
def hottestJunction (s : State) : Byte :=
  hottestByte ((List.range 8).map (fun n => readingOf s (0x05C + 4 * n)) ++ [readingOf s 0x07C])

/-- THBM: the hottest stack reading. -/
def hottestStack (s : State) : Byte :=
  hottestByte ((List.range 32).map (fun k => (BitVec.ofNat 8 (s.rdN (pgHs k) 0x050)).toInt))

/-- One byte of the target's map. -/
def i3cByte (s : State) (off : Nat) : Byte :=
  match off with
  | 0x00 => 0xA1
  | 0x01 => 0x01
  | 0x02 => 0x0F
  | 0x03 => if decide (s.boot.phase = .held) then 0xFF else BitVec.ofNat 8 (s.get fStage)
  | 0x04 => if s.get fStage = 10 && decide (s.boot.phase ≠ .held) then BitVec.ofNat 8 (s.get fMstate) else 0xFF
  | 0x05 => hottestJunction s
  | 0x06 => hottestStack s
  | 0x07 => BitVec.ofNat 8 (thermStatus s % 32)
  | 0x08 => BitVec.ofNat 8 (s.rdN pgPower 0x084)
  | 0x09 => BitVec.ofNat 8 (s.rdN pgPower 0x084 / 256)
  | 0x0A => BitVec.ofNat 8 (s.rdN pgPower 0x088)
  | 0x0B => BitVec.ofNat 8 (s.rdN pgPower 0x088 / 256)
  | 0x0C => alertByte s
  | _ => 0

/-- A command code that only an addressed target answers. -/
def i3cDirect (answer : List Byte) (s : State) : Result :=
  if i3cLive s && s.i3cDyn.isSome then .next (s.emit (.i3c answer)) else .next s

/-- ENTDAA: an unaddressed target sends its identity and takes the address. -/
def execEntdaa (addr : BitVec 7) (s : State) : Result :=
  if i3cLive s && s.i3cDyn.isNone then
    .next ({ s with i3cDyn := some addr }.emit (.i3c (pidBytes ++ [Config.i3cBcr, Config.i3cDcr])))
  else .next s

/-- SETDASA: the target at the static address takes the dynamic one. -/
def execSetdasa (static dynamic : BitVec 7) (s : State) : Result :=
  if i3cLive s && s.i3cDyn.isNone && static.toNat == i3cStatic s then .next { s with i3cDyn := some dynamic } else .next s

def execRstdaa (s : State) : Result := if i3cLive s then .next { s with i3cDyn := none } else .next s

def execGetpid (s : State) : Result := i3cDirect pidBytes s
def execGetbcr (s : State) : Result := i3cDirect [Config.i3cBcr] s
def execGetdcr (s : State) : Result := i3cDirect [Config.i3cDcr] s
def execGetstatus (s : State) : Result := i3cDirect (bytesLE 2 Config.i3cStatus.toNat).reverse s

def execEnec (s : State) : Result := if i3cLive s then .next { s with i3cIbi := true } else .next s
def execDisec (s : State) : Result := if i3cLive s then .next { s with i3cIbi := false } else .next s

/-- A write sets the offset; further bytes are ignored. -/
def execI3cWrite (bytes : List Byte) (s : State) : Result :=
  match bytes with
  | [] => .next s
  | b :: _ => if i3cLive s then .next { s with i3cOff := b.setWidth 4 } else .next s

/-- A read answers bytes from the offset upward, wrapping after 0x0F. -/
def execI3cRead (n : Nat) (s : State) : Result :=
  if i3cLive s then .next (s.emit (.i3c ((List.range n).map (fun i => i3cByte s ((s.i3cOff.toNat + i) % 16))))) else .next s

end Sys2Proof.Machine
end

