-- ==== Sys2Proof/Machine/Window.lean ====
section
/-! DEFINITION. The memory window BAR2 (17 R443): plaintext, ciphertext, zero, Completer Abort (14 R390, R391; 15 R398, R411; 16 R425;
09 R247, 13 R352). Readings that the words leave to inference are log 57. -/

namespace Sys2Proof.Machine

/-- Bytes of the image area (R398). -/
abbrev imageSize : Nat := 130 * 2 ^ 20

/-- WIN_BASE of a function. -/
def winBase (s : State) (func : Nat) : Nat := (s.rdBar4 func 0).toNat + 2 ^ 32 * ((s.rdBar4 func 4).toNat % 2 ^ 16)

/-- Bytes a request covers. -/
def winLen : WinOp → Nat
  | .read n => n
  | .write bs => bs.length

def winWrites : WinOp → Bool
  | .read _ => false
  | .write _ => true

/-- A request that a rule refuses: a read answers zeros. -/
def winRefused (s : State) (func off : Nat) (op : WinOp) : State :=
  let t := accessRefused s func 1 (off / 4096) off (winWrites op)
  match op with
  | .read n => t.emit (.readBytes func (List.replicate n 0))
  | .write _ => t

/-- The berth whose memory a byte belongs to. -/
def berthAt (s : State) (a : Nat) : Option Nat :=
  (List.range 16).find? (fun b => inDirectRegion s b a || inOwnHome s b a
    || (match placeOf a with
      | some (.scratch cl _) => clusterOwner s cl == b
      | _ => false))

/-- The range is HBM. -/
def isHbm (a : Nat) : Bool :=
  match placeOf a with
  | some (.hbm _ _) => true
  | _ => false

/-- The key, the tweak's upper half and the first address of the object or region that holds a byte (14 R381). -/
def cipherUnit (s : State) (b a : Nat) : Nat × Nat × Nat :=
  match s.objects.find? (fun x => x.2.owner == b && (match homeRange x.2 with
      | some (h, n) => inRange a h (roundUp n (granule x.2.tier))
      | none => false)) with
  | some x => ((s.berth b).objKey, 2 ^ 63 + x.1, placeBits x.2.home.toNat)
  | none =>
    match (List.range 16).find? (fun n => regionBound s b n && inRange a (regionBase s b n) (regionLen s b n)) with
    | some n => (storeGet (s.berth b).regionKey n 0, n, regionBase s b n)
    | none => (0, 0, a)

/-- A byte of a berth's HBM as stored (14 R390). -/
def cipherByte (s : State) (b a : Nat) : Byte :=
  let u := cipherUnit s b a
  let unit := (a - u.2.2) / 32
  Config.xtsByte u.1 (BitVec.ofNat 128 (u.2.1 * 2 ^ 64 + unit)) (s.bytes (u.2.2 + 32 * unit) 32) ((a - u.2.2) % 32)

/-- A byte whose value is undefined: it lies in a consignment not yet confirmed, or in a unit that is uncorrectable. -/
def openByte (s : State) (a : Nat) : Bool := poisoned s a 1 || !(landingsAt s a 1).isEmpty

/-- Bytes read through the window, by a function that sees them by `see`: undefined bytes are free values (log 57). -/
def winBytes (s : State) (a n : Nat) (see : Nat → Byte) : List Byte :=
  (List.range n).map (fun i => if openByte s (a + i) then (Config.freeValue (s.fresh + i)).setWidth 8 else see (a + i))

/-- A read that reaches memory. -/
def winRead (s : State) (func a n : Nat) (see : Nat → Byte) : State :=
  let bs := winBytes s a n see
  let units := (unitsOf a n).filter (fun u => s.poison.contains u)
  let t := { countHbm s a n 0x058 with fresh := s.fresh + n }.emit (.readBytes func bs)
  units.foldl (fun t u => uncorrectable t (32 * u)) t

/-- The range lies in a stopped stack, or in a stack or cluster of a P2 die. -/
def winStopped (s : State) (a n : Nat) : Bool := placeStopped s a || (n != 0 && placeStopped s (a + n - 1))

/-- How a function sees mapped memory: its own plaintext, ciphertext, or not at all (14 R390, R391). -/
inductive WinView where
  | plain | cipher | hidden
deriving DecidableEq, Repr

def winView (s : State) (func : Nat) (ide : Bool) (a n : Nat) (write : Bool) : WinView :=
  if func ≠ 0 then
    match vfBerth s func with
    | none => .hidden
    | some b =>
      if !rangeInRegions s b a n write then .hidden
      else if ide && s.bit (fBstIde b) then .plain
      else if isHbm a then .cipher
      else .hidden
  else if rangeInRegions s 0xFF a n write then .plain
  else if (berthAt s a).isSome && isHbm a then .cipher
  else .hidden

/-- A request to a place of this chip, after READY. -/
def winMemory (func : Nat) (ide : Bool) (off a : Nat) (op : WinOp) (s : State) : Result :=
  let n := winLen op
  let view := winView s func ide a n (winWrites op)
  match op with
  | .read _ =>
    if decide (view = .hidden) then finish (winRefused s func off op)
    else if winStopped s a n then finish ((accessRefused s func 1 (off / 4096) off false).emit (.completerAbort func))
    else if placeResetting s a then finish (s.emit (.completerAbort func))
    else if decide (view = .plain) then finish (winRead s func a n s.byte)
    else finish (winRead s func a n (fun x => match berthAt s x with
      | some b => cipherByte s b x
      | none => 0))
  | .write bs =>
    if decide (view ≠ .plain) || frozen s a n || winStopped s a n then finish (winRefused s func off op)
    else if placeResetting s a then .next s
    else if heldBlocks s a n then .next s
    else finish (memWrite s a bs)

/-- A request to the image area (R398). -/
def winImage (func off : Nat) (op : WinOp) (s : State) : Result :=
  match op with
  | .read n => finish (s.emit (.readBytes func (s.imageBytes off n)))
  | .write bs => finish (s.storeImage off bs)

def execWindowAccess (func : Fin 17) (ide : Bool) (off : BitVec 36) (op : WinOp) (s : State) : Result :=
  let f := func.val
  let o := off.toNat
  let n := winLen op
  let a := winBase s f + o
  if !hostUp s || vfClosed s f then .next s
  else if f ≠ 0 && (vfBerth s f).isNone then finish (winRefused s f o op)
  else if s.get fStage = 2 && o + n ≤ imageSize then winImage f o op s
  else if !stageReady s || !onePlace a n then finish (winRefused s f o op)
  else winMemory f ide o a op s

end Sys2Proof.Machine
end

