-- ==== Sys2Proof/Machine/Dispatch.lean ====
section
/-! DEFINITION. The dispatch: one arm per command, each one call of its meaning. -/

namespace Sys2Proof.Machine

def exec (i : Instr) (s : State) : Host.Outcome State Fault Refusal :=
  match i with
  | .run a => Sys2Proof.Machine.execRun a s
  | .initLoad => Sys2Proof.Machine.execInitLoad s
  | .root a => Sys2Proof.Machine.execRoot a s
  | .tideSync => Sys2Proof.Machine.execTideSync s
  | .refLoss => Sys2Proof.Machine.execRefLoss s
  | .rootRefReturn => Sys2Proof.Machine.execRootRefReturn s
  | .wrap => Sys2Proof.Machine.execWrap s
  | .beaconSend => Sys2Proof.Machine.execBeaconSend s
  | .beacon link bytes proc16 => Sys2Proof.Machine.execBeacon link bytes proc16 s
  | .locked => Sys2Proof.Machine.execLocked s
  | .upstreamChange => Sys2Proof.Machine.execUpstreamChange s
  | .holdover => Sys2Proof.Machine.execHoldover s
  | .lost => Sys2Proof.Machine.execLost s
  | .schedule a => Sys2Proof.Machine.execSchedule a s
  | .standResume a => Sys2Proof.Machine.execStandResume a s
  | .cancel a => Sys2Proof.Machine.execCancel a s
  | .standNotice link bytes => Sys2Proof.Machine.execStandNotice link bytes s
  | .standBegin => Sys2Proof.Machine.execStandBegin s
  | .standEnd => Sys2Proof.Machine.execStandEnd s
  | .consignmentHeader arr cslot hdr sealBlk => Sys2Proof.Machine.execConsignmentHeader arr cslot hdr sealBlk s
  | .flitReceive link bytes => Sys2Proof.Machine.execFlitReceive link bytes s
  | .consignmentTrailer arr key crc tag => Sys2Proof.Machine.execConsignmentTrailer arr key crc tag s
  | .confirmed key => Sys2Proof.Machine.execConfirmed key s
  | .confirmNotice key => Sys2Proof.Machine.execConfirmNotice key s
  | .replayRequest key attempt => Sys2Proof.Machine.execReplayRequest key attempt s
  | .exhaustedNotice key => Sys2Proof.Machine.execExhaustedNotice key s
  | .absorbedNotice key => Sys2Proof.Machine.execAbsorbedNotice key s
  | .pairRefresh core kind pair => Sys2Proof.Machine.execPairRefresh core kind pair s
  | .specEn core a => Sys2Proof.Machine.execSpecEn core a s
  | .specEnEffect core => Sys2Proof.Machine.execSpecEnEffect core s
  | .qwin port a => Sys2Proof.Machine.execQwin port a s
  | .blockClose port => Sys2Proof.Machine.execBlockClose port s
  | .add core f => Sys2Proof.Machine.execAdd core f s
  | .sub core f => Sys2Proof.Machine.execSub core f s
  | .and core f => Sys2Proof.Machine.execAnd core f s
  | .or core f => Sys2Proof.Machine.execOr core f s
  | .xor core f => Sys2Proof.Machine.execXor core f s
  | .shl core f => Sys2Proof.Machine.execShl core f s
  | .shr core f => Sys2Proof.Machine.execShr core f s
  | .sra core f => Sys2Proof.Machine.execSra core f s
  | .slt core f => Sys2Proof.Machine.execSlt core f s
  | .sltu core f => Sys2Proof.Machine.execSltu core f s
  | .min core f => Sys2Proof.Machine.execMin core f s
  | .minu core f => Sys2Proof.Machine.execMinu core f s
  | .max core f => Sys2Proof.Machine.execMax core f s
  | .maxu core f => Sys2Proof.Machine.execMaxu core f s
  | .mul core f => Sys2Proof.Machine.execMul core f s
  | .mulh core f => Sys2Proof.Machine.execMulh core f s
  | .mulhu core f => Sys2Proof.Machine.execMulhu core f s
  | .div core f => Sys2Proof.Machine.execDiv core f s
  | .divu core f => Sys2Proof.Machine.execDivu core f s
  | .rem core f => Sys2Proof.Machine.execRem core f s
  | .remu core f => Sys2Proof.Machine.execRemu core f s
  | .addi core f => Sys2Proof.Machine.execAddi core f s
  | .subi core f => Sys2Proof.Machine.execSubi core f s
  | .andi core f => Sys2Proof.Machine.execAndi core f s
  | .ori core f => Sys2Proof.Machine.execOri core f s
  | .xori core f => Sys2Proof.Machine.execXori core f s
  | .shli core f => Sys2Proof.Machine.execShli core f s
  | .shri core f => Sys2Proof.Machine.execShri core f s
  | .srai core f => Sys2Proof.Machine.execSrai core f s
  | .slti core f => Sys2Proof.Machine.execSlti core f s
  | .sltui core f => Sys2Proof.Machine.execSltui core f s
  | .mini core f => Sys2Proof.Machine.execMini core f s
  | .minui core f => Sys2Proof.Machine.execMinui core f s
  | .maxi core f => Sys2Proof.Machine.execMaxi core f s
  | .maxui core f => Sys2Proof.Machine.execMaxui core f s
  | .sethi core f => Sys2Proof.Machine.execSethi core f s
  | .ld8 core f => Sys2Proof.Machine.execLd8 core f s
  | .ld8u core f => Sys2Proof.Machine.execLd8u core f s
  | .ld16 core f => Sys2Proof.Machine.execLd16 core f s
  | .ld16u core f => Sys2Proof.Machine.execLd16u core f s
  | .ld32 core f => Sys2Proof.Machine.execLd32 core f s
  | .ld32u core f => Sys2Proof.Machine.execLd32u core f s
  | .ld64 core f => Sys2Proof.Machine.execLd64 core f s
  | .st8 core f => Sys2Proof.Machine.execSt8 core f s
  | .st16 core f => Sys2Proof.Machine.execSt16 core f s
  | .st32 core f => Sys2Proof.Machine.execSt32 core f s
  | .st64 core f => Sys2Proof.Machine.execSt64 core f s
  | .beq core f => Sys2Proof.Machine.execBeq core f s
  | .bne core f => Sys2Proof.Machine.execBne core f s
  | .blt core f => Sys2Proof.Machine.execBlt core f s
  | .bge core f => Sys2Proof.Machine.execBge core f s
  | .bltu core f => Sys2Proof.Machine.execBltu core f s
  | .bgeu core f => Sys2Proof.Machine.execBgeu core f s
  | .jal core f => Sys2Proof.Machine.execJal core f s
  | .jalr core f => Sys2Proof.Machine.execJalr core f s
  | .vadd core f => Sys2Proof.Machine.execVadd core f s
  | .vsub core f => Sys2Proof.Machine.execVsub core f s
  | .vmul core f => Sys2Proof.Machine.execVmul core f s
  | .vfma core f => Sys2Proof.Machine.execVfma core f s
  | .vfnma core f => Sys2Proof.Machine.execVfnma core f s
  | .vmax core f => Sys2Proof.Machine.execVmax core f s
  | .vmin core f => Sys2Proof.Machine.execVmin core f s
  | .vabs core f => Sys2Proof.Machine.execVabs core f s
  | .vneg core f => Sys2Proof.Machine.execVneg core f s
  | .vmov core f => Sys2Proof.Machine.execVmov core f s
  | .vsel core f => Sys2Proof.Machine.execVsel core f s
  | .vmulx core f => Sys2Proof.Machine.execVmulx core f s
  | .vmuls core f => Sys2Proof.Machine.execVmuls core f s
  | .vadds core f => Sys2Proof.Machine.execVadds core f s
  | .vbcast core f => Sys2Proof.Machine.execVbcast core f s
  | .viadd core f => Sys2Proof.Machine.execViadd core f s
  | .visub core f => Sys2Proof.Machine.execVisub core f s
  | .vimul core f => Sys2Proof.Machine.execVimul core f s
  | .vand core f => Sys2Proof.Machine.execVand core f s
  | .vor core f => Sys2Proof.Machine.execVor core f s
  | .vxor core f => Sys2Proof.Machine.execVxor core f s
  | .vshl core f => Sys2Proof.Machine.execVshl core f s
  | .vshr core f => Sys2Proof.Machine.execVshr core f s
  | .vsra core f => Sys2Proof.Machine.execVsra core f s
  | .vimax core f => Sys2Proof.Machine.execVimax core f s
  | .vimin core f => Sys2Proof.Machine.execVimin core f s
  | .vidx core f => Sys2Proof.Machine.execVidx core f s
  | .vext core f => Sys2Proof.Machine.execVext core f s
  | .feq core f => Sys2Proof.Machine.execFeq core f s
  | .fne core f => Sys2Proof.Machine.execFne core f s
  | .flt core f => Sys2Proof.Machine.execFlt core f s
  | .fle core f => Sys2Proof.Machine.execFle core f s
  | .ieq core f => Sys2Proof.Machine.execIeq core f s
  | .ine core f => Sys2Proof.Machine.execIne core f s
  | .ilt core f => Sys2Proof.Machine.execIlt core f s
  | .ile core f => Sys2Proof.Machine.execIle core f s
  | .iltu core f => Sys2Proof.Machine.execIltu core f s
  | .mand core f => Sys2Proof.Machine.execMand core f s
  | .mor core f => Sys2Proof.Machine.execMor core f s
  | .mxor core f => Sys2Proof.Machine.execMxor core f s
  | .mandn core f => Sys2Proof.Machine.execMandn core f s
  | .mlen core f => Sys2Proof.Machine.execMlen core f s
  | .vrsum core f => Sys2Proof.Machine.execVrsum core f s
  | .vrmax core f => Sys2Proof.Machine.execVrmax core f s
  | .vrmin core f => Sys2Proof.Machine.execVrmin core f s
  | .vrisum core f => Sys2Proof.Machine.execVrisum core f s
  | .f2i core f => Sys2Proof.Machine.execF2i core f s
  | .i2f core f => Sys2Proof.Machine.execI2f core f s
  | .qnt core f => Sys2Proof.Machine.execQnt core f s
  | .vld core f => Sys2Proof.Machine.execVld core f s
  | .vst core f => Sys2Proof.Machine.execVst core f s
  | .mma core f => Sys2Proof.Machine.execMma core f s
  | .mmaZ core f => Sys2Proof.Machine.execMmaZ core f s
  | .aread core f => Sys2Proof.Machine.execAread core f s
  | .awrite core f => Sys2Proof.Machine.execAwrite core f s
  | .azero core f => Sys2Proof.Machine.execAzero core f s
  | .plist core f => Sys2Proof.Machine.execPlist core f s
  | .plistEntry core => Sys2Proof.Machine.execPlistEntry core s
  | .sfn core fn f => Sys2Proof.Machine.execSfn core fn f s
  | .sfg core fn f => Sys2Proof.Machine.execSfg core fn f s
  | .rsw core f => Sys2Proof.Machine.execRsw core f s
  | .rsc core f => Sys2Proof.Machine.execRsc core f s
  | .rsrd core f => Sys2Proof.Machine.execRsrd core f s
  | .rsclr core f => Sys2Proof.Machine.execRsclr core f s
  | .smx core f => Sys2Proof.Machine.execSmx core f s
  | .smxf core f => Sys2Proof.Machine.execSmxf core f s
  | .move core f => Sys2Proof.Machine.execMove core f s
  | .moveDone core n => Sys2Proof.Machine.execMoveDone core n s
  | .mwait core f => Sys2Proof.Machine.execMwait core f s
  | .badd core f => Sys2Proof.Machine.execBadd core f s
  | .twait core f => Sys2Proof.Machine.execTwait core f s
  | .tideWaitDone core => Sys2Proof.Machine.execTideWaitDone core s
  | .rdtide core f => Sys2Proof.Machine.execRdtide core f s
  | .confirm core f => Sys2Proof.Machine.execConfirm core f s
  | .halt core f => Sys2Proof.Machine.execHalt core f s
  | .signal core f => Sys2Proof.Machine.execSignal core f s
  | .fence core f => Sys2Proof.Machine.execFence core f s
  | .synci core f => Sys2Proof.Machine.execSynci core f s
  | .rdfl core f => Sys2Proof.Machine.execRdfl core f s
  | .wrfl core f => Sys2Proof.Machine.execWrfl core f s
  | .mret core f => Sys2Proof.Machine.execMret core f s
  | .mcsr core f => Sys2Proof.Machine.execMcsr core f s
  | .mlog core f => Sys2Proof.Machine.execMlog core f s
  | .mtbl core f => Sys2Proof.Machine.execMtbl core f s
  | .dataError core pc addr => Sys2Proof.Machine.execDataError core pc addr s
  | .start core a => Sys2Proof.Machine.execStart core a s
  | .stop core a => Sys2Proof.Machine.execStop core a s
  | .stopped core => Sys2Proof.Machine.execStopped core s
  | .resume core a => Sys2Proof.Machine.execResume core a s
  | .fnLoad b a => Sys2Proof.Machine.execFnLoad b a s
  | .fnUnload b a => Sys2Proof.Machine.execFnUnload b a s
  | .fnLoadStd b a => Sys2Proof.Machine.execFnLoadStd b a s
  | .fnDone b => Sys2Proof.Machine.execFnDone b s
  | .bollard cl n a => Sys2Proof.Machine.execBollard cl n a s
  | .arm f a => Sys2Proof.Machine.execArm f a s
  | .append f a => Sys2Proof.Machine.execAppend f a s
  | .validationDone f => Sys2Proof.Machine.execValidationDone f s
  | .abort f a => Sys2Proof.Machine.execAbort f a s
  | .sail f entry => Sys2Proof.Machine.execSail f entry s
  | .zoneOpen f entry => Sys2Proof.Machine.execZoneOpen f entry s
  | .mark f entry => Sys2Proof.Machine.execMark f entry s
  | .endEntry f entry => Sys2Proof.Machine.execEndEntry f entry s
  | .ferryOverdue f entry => Sys2Proof.Machine.execFerryOverdue f entry s
  | .create g a => Sys2Proof.Machine.execCreate g a s
  | .delete g a => Sys2Proof.Machine.execDelete g a s
  | .creationNotice g sender digest ring => Sys2Proof.Machine.execCreationNotice g sender digest ring s
  | .tail g a => Sys2Proof.Machine.execTail g a s
  | .cqDb g a => Sys2Proof.Machine.execCqDb g a s
  | .descriptorTake g => Sys2Proof.Machine.execDescriptorTake g s
  | .transferLaunch g t => Sys2Proof.Machine.execTransferLaunch g t s
  | .credit g t => Sys2Proof.Machine.execCredit g t s
  | .chunkWritten g t => Sys2Proof.Machine.execChunkWritten g t s
  | .collTimeout g t => Sys2Proof.Machine.execCollTimeout g t s
  | .reformNotice g seq suspect at_ => Sys2Proof.Machine.execReformNotice g seq suspect at_ s
  | .reform g => Sys2Proof.Machine.execReform g s
  | .abortNotice g => Sys2Proof.Machine.execAbortNotice g s
  | .linkEn link a => Sys2Proof.Machine.execLinkEn link a s
  | .retrain link a => Sys2Proof.Machine.execRetrain link a s
  | .trainingPattern link => Sys2Proof.Machine.execTrainingPattern link s
  | .trainingMessage link msg => Sys2Proof.Machine.execTrainingMessage link msg s
  | .stepTimeout link => Sys2Proof.Machine.execStepTimeout link s
  | .retryTimer link => Sys2Proof.Machine.execRetryTimer link s
  | .lightLoss link lanes lat16 => Sys2Proof.Machine.execLightLoss link lanes lat16 s
  | .laneWindow link farOver lat16 => Sys2Proof.Machine.execLaneWindow link farOver lat16 s
  | .retrainLimit link => Sys2Proof.Machine.execRetrainLimit link s
  | .ackTimeout link => Sys2Proof.Machine.execAckTimeout link s
  | .linkStateAnnounce pos cube => Sys2Proof.Machine.execLinkStateAnnounce pos cube s
  | .routeHop msg => Sys2Proof.Machine.execRouteHop msg s
  | .apply a => Sys2Proof.Machine.execApply a s
  | .self a => Sys2Proof.Machine.execSelf a s
  | .tierEn a => Sys2Proof.Machine.execTierEn a s
  | .otabReady => Sys2Proof.Machine.execOtabReady s
  | .tqTail b a => Sys2Proof.Machine.execTqTail b a s
  | .tqDb b a => Sys2Proof.Machine.execTqDb b a s
  | .hqTail a => Sys2Proof.Machine.execHqTail a s
  | .hqDb a => Sys2Proof.Machine.execHqDb a s
  | .alloc ring pos => Sys2Proof.Machine.execAlloc ring pos s
  | .allocDone obj => Sys2Proof.Machine.execAllocDone obj s
  | .free ring pos => Sys2Proof.Machine.execFree ring pos s
  | .tierMove ring pos => Sys2Proof.Machine.execTierMove ring pos s
  | .pin ring pos => Sys2Proof.Machine.execPin ring pos s
  | .unpin ring pos => Sys2Proof.Machine.execUnpin ring pos s
  | .restore ring pos => Sys2Proof.Machine.execRestore ring pos s
  | .supplied ring pos => Sys2Proof.Machine.execSupplied ring pos s
  | .share ring pos => Sys2Proof.Machine.execShare ring pos s
  | .wait ring pos => Sys2Proof.Machine.execWait ring pos s
  | .tileSail obj tile => Sys2Proof.Machine.execTileSail obj tile s
  | .flip obj => Sys2Proof.Machine.execFlip obj s
  | .flashRead obj tile retries good => Sys2Proof.Machine.execFlashRead obj tile retries good s
  | .flashProgram obj tile good => Sys2Proof.Machine.execFlashProgram obj tile good s
  | .ftlMaint wear starts => Sys2Proof.Machine.execFtlMaint wear starts s
  | .flashEn a => Sys2Proof.Machine.execFlashEn a s
  | .test k a => Sys2Proof.Machine.execTest k a s
  | .go k ch a => Sys2Proof.Machine.execGo k ch a s
  | .generatorDone k ch errors first => Sys2Proof.Machine.execGeneratorDone k ch errors first s
  | .indexCreate a => Sys2Proof.Machine.execIndexCreate a s
  | .merge a => Sys2Proof.Machine.execMerge a s
  | .indexCheckDone ix => Sys2Proof.Machine.execIndexCheckDone ix s
  | .switched ix => Sys2Proof.Machine.execSwitched ix s
  | .retire a => Sys2Proof.Machine.execRetire a s
  | .retired ix => Sys2Proof.Machine.execRetired ix s
  | .destroy a => Sys2Proof.Machine.execDestroy a s
  | .destroyed ix => Sys2Proof.Machine.execDestroyed ix s
  | .search cl => Sys2Proof.Machine.execSearch cl s
  | .insert cl => Sys2Proof.Machine.execInsert cl s
  | .sketchDelete cl => Sys2Proof.Machine.execSketchDelete cl s
  | .sideEntryValid cl => Sys2Proof.Machine.execSideEntryValid cl s
  | .snapshot cl => Sys2Proof.Machine.execSnapshot cl s
  | .shareRequest leader helper => Sys2Proof.Machine.execShareRequest leader helper s
  | .shareResult leader helper => Sys2Proof.Machine.execShareResult leader helper s
  | .berthOpen b a => Sys2Proof.Machine.execBerthOpen b a s
  | .bind b a => Sys2Proof.Machine.execBind b a s
  | .unbind b a => Sys2Proof.Machine.execUnbind b a s
  | .teardown b a => Sys2Proof.Machine.execTeardown b a s
  | .rebindStart b => Sys2Proof.Machine.execRebindStart b s
  | .rebindDone b us => Sys2Proof.Machine.execRebindDone b us s
  | .openSession b msg => Sys2Proof.Machine.execOpenSession b msg s
  | .linkExport b msg => Sys2Proof.Machine.execLinkExport b msg s
  | .linkImport b msg => Sys2Proof.Machine.execLinkImport b msg s
  | .keylock b page set => Sys2Proof.Machine.execKeylock b page set s
  | .ideKm b msg => Sys2Proof.Machine.execIdeKm b msg s
  | .getVersion func msg => Sys2Proof.Machine.execGetVersion func msg s
  | .getCapabilities func msg => Sys2Proof.Machine.execGetCapabilities func msg s
  | .negotiateAlgorithms func msg => Sys2Proof.Machine.execNegotiateAlgorithms func msg s
  | .getDigests func msg => Sys2Proof.Machine.execGetDigests func msg s
  | .getCertificate func msg => Sys2Proof.Machine.execGetCertificate func msg s
  | .spdmChallenge func msg => Sys2Proof.Machine.execSpdmChallenge func msg s
  | .getMeasurements func msg => Sys2Proof.Machine.execGetMeasurements func msg s
  | .chunkSend func msg => Sys2Proof.Machine.execChunkSend func msg s
  | .chunkGet func msg => Sys2Proof.Machine.execChunkGet func msg s
  | .vendorDefinedRequest func msg => Sys2Proof.Machine.execVendorDefinedRequest func msg s
  | .rngFail => Sys2Proof.Machine.execRngFail s
  | .ideFail func => Sys2Proof.Machine.execIdeFail func s
  | .coldStart strap => Sys2Proof.Machine.execColdStart strap s
  | .perstAssert => Sys2Proof.Machine.execPerstAssert s
  | .perstDeassert strap => Sys2Proof.Machine.execPerstDeassert strap s
  | .stageDone r => Sys2Proof.Machine.execStageDone r s
  | .verify a => Sys2Proof.Machine.execVerify a s
  | .verifyDone => Sys2Proof.Machine.execVerifyDone s
  | .awaitRelay a => Sys2Proof.Machine.execAwaitRelay a s
  | .relayImage link bytes => Sys2Proof.Machine.execRelayImage link bytes s
  | .nackList missed => Sys2Proof.Machine.execNackList missed s
  | .chipReset a => Sys2Proof.Machine.execChipReset a s
  | .clearMap a => Sys2Proof.Machine.execClearMap a s
  | .coreReset cl a => Sys2Proof.Machine.execCoreReset cl a s
  | .clusterReset cl a => Sys2Proof.Machine.execClusterReset cl a s
  | .preset die a => Sys2Proof.Machine.execPreset die a s
  | .resetDone unit => Sys2Proof.Machine.execResetDone unit s
  | .hotReset => Sys2Proof.Machine.execHotReset s
  | .pcieLinkDown => Sys2Proof.Machine.execPcieLinkDown s
  | .flr func => Sys2Proof.Machine.execFlr func s
  | .inputRange mv => Sys2Proof.Machine.execInputRange mv s
  | .powerReading mv watts joules => Sys2Proof.Machine.execPowerReading mv watts joules s
  | .thermtrip unit temp => Sys2Proof.Machine.execThermtrip unit temp s
  | .module a => Sys2Proof.Machine.execModule a s
  | .partition a => Sys2Proof.Machine.execPartition a s
  | .ceiling a => Sys2Proof.Machine.execCeiling a s
  | .scheduledAction slot => Sys2Proof.Machine.execScheduledAction slot s
  | .slotCancel a => Sys2Proof.Machine.execSlotCancel a s
  | .transitionDone => Sys2Proof.Machine.execTransitionDone s
  | .tempReading unit temp => Sys2Proof.Machine.execTempReading unit temp s
  | .stackStop k => Sys2Proof.Machine.execStackStop k s
  | .pairLoRead func page off => Sys2Proof.Machine.execPairLoRead func page off s
  | .pairHiRead func page off => Sys2Proof.Machine.execPairHiRead func page off s
  | .pairLoWrite page off a => Sys2Proof.Machine.execPairLoWrite page off a s
  | .pairHiWrite page off a => Sys2Proof.Machine.execPairHiWrite page off a s
  | .registerWrite bar addr a => Sys2Proof.Machine.execRegisterWrite bar addr a s
  | .evtClear page a => Sys2Proof.Machine.execEvtClear page a s
  | .evtSet page a => Sys2Proof.Machine.execEvtSet page a s
  | .rearm k a => Sys2Proof.Machine.execRearm k a s
  | .msixUnmask func vector => Sys2Proof.Machine.execMsixUnmask func vector s
  | .logStore => Sys2Proof.Machine.execLogStore s
  | .release a => Sys2Proof.Machine.execRelease a s
  | .rdWord func => Sys2Proof.Machine.execRdWord func s
  | .thresh a => Sys2Proof.Machine.execThresh a s
  | .dmaStart a => Sys2Proof.Machine.execDmaStart a s
  | .dmaDone => Sys2Proof.Machine.execDmaDone s
  | .challenge a => Sys2Proof.Machine.execChallenge a s
  | .respond a => Sys2Proof.Machine.execRespond a s
  | .opened => Sys2Proof.Machine.execOpened s
  | .close a => Sys2Proof.Machine.execClose a s
  | .debugExpiry => Sys2Proof.Machine.execDebugExpiry s
  | .obsStep a => Sys2Proof.Machine.execObsStep a s
  | .tapReset => Sys2Proof.Machine.execTapReset s
  | .idcode => Sys2Proof.Machine.execIdcode s
  | .bypass => Sys2Proof.Machine.execBypass s
  | .samplePreload pins shiftIn => Sys2Proof.Machine.execSamplePreload pins shiftIn s
  | .extest shiftIn => Sys2Proof.Machine.execExtest shiftIn s
  | .scan => Sys2Proof.Machine.execScan s
  | .mbist die => Sys2Proof.Machine.execMbist die s
  | .entdaa addr => Sys2Proof.Machine.execEntdaa addr s
  | .setdasa static dynamic => Sys2Proof.Machine.execSetdasa static dynamic s
  | .rstdaa => Sys2Proof.Machine.execRstdaa s
  | .getpid => Sys2Proof.Machine.execGetpid s
  | .getbcr => Sys2Proof.Machine.execGetbcr s
  | .getdcr => Sys2Proof.Machine.execGetdcr s
  | .getstatus => Sys2Proof.Machine.execGetstatus s
  | .enec => Sys2Proof.Machine.execEnec s
  | .disec => Sys2Proof.Machine.execDisec s
  | .i3cWrite bytes => Sys2Proof.Machine.execI3cWrite bytes s
  | .i3cRead n => Sys2Proof.Machine.execI3cRead n s
  | .registerRead bar addr func => Sys2Proof.Machine.execRegisterRead bar addr func s
  | .windowAccess func ide off op => Sys2Proof.Machine.execWindowAccess func ide off op s
  | .trainingStepComplete link msg => Sys2Proof.Machine.execTrainingStepComplete link msg s
  | .sourceResetAnnounced key => Sys2Proof.Machine.execSourceResetAnnounced key s
  | .p48Removed => Sys2Proof.Machine.execP48Removed s

end Sys2Proof.Machine
end

