-- ==== Sys2Proof/Machine/Tick.lean ====
section
/-! DEFINITION. One tide clock of the machine while no command waits: the tide moves on, what its new value settles takes place
(ferries' first tides, deferred requests), and cores count their cycles (log 3). -/

namespace Sys2Proof.Machine

/-- Thousandths of core cycles in one tick for partition n (05 R132, 16 R422): its ceiling in MHz, none while it is gated. -/
def partPace (s : State) (n : Nat) : Nat := if partState s n = 0 then s.rdN pgPower (0x064 + 4 * n) else 0

/-- CYCLES counts in RUNNING and STOPPING (05, the core pages). -/
def countCycles (s : State) (id : CoreId) : State :=
  let c := s.core id
  if decide (c.state = .running) || decide (c.state = .stopping) then
    let n := c.cycles + partPace s (id.toNat / 512)
    (s.setCore id { c with cycles := n % 1000 }).add64 (pgCore id.toNat) 0x078 (n / 1000)
  else s

/-- Every core that is not as reset leaves it counts. -/
def countAll (s : State) : State := s.cores.foldl (fun t x => countCycles t (BitVec.ofNat 12 x.1)) s

/-- One tide clock. -/
def tick (s : State) : State :=
  if !running s then s
  else
    let t := settleAll (ferriesSettle (tickTide s))
    if t.tide.clock = s.tide.clock then t else countAll t

end Sys2Proof.Machine
end

