-- ==== Sys2Proof/Safety.lean ====
section
/-! DEFINITION. What a safe step of the block is, and the terms the claims use: the parts of the state one by one, what it means
that a command leaves a part as it was, and the memory's canonical form. -/

namespace Sys2Proof

/-- The step answers a next state: no fault, no refusal. -/
def Safe (s : Machine.State) : Prop := ∃ t, Machine.step s = .next t

namespace Machine

/-- Memory is in its canonical form: addresses strictly rising, and no byte listed that equals what its address reads as
unlisted. -/
def Memory.wf (s : State) : Bool := storeWf s.blank s.mem

/-- The parts of the state, as finely as a claim needs them: each register word of BAR0 (by its key) and of BAR4, each byte of
memory, each core, link, ferry, group, object, index, engine and berth by its number, and the rest by what it serves. -/
inductive Part where
  | queue
  | reg (key : Nat)
  | bar4 (key : Nat)
  | byte (a : Nat)
  | core (n : Nat)
  | link (n : Nat)
  | ferry (n : Nat)
  | group (n : Nat)
  | obj (n : Nat)
  | index (n : Nat)
  | engine (n : Nat)
  | berth (n : Nat)
  | pairs
  | tide
  | landings
  | held
  | blocks
  | seals
  | ports
  | routes
  | requests
  | moves
  | boot
  | power
  | masks
  | busMaster
  /-- Interrupt classes pending, vectors pending, ALERT_N, and what the chip has sent out. -/
  | signals
  | log
  | debug
  | keys
  | doe
  | i3c
  | tap
  | poison
  | image
  | flash
  | withheld
  | fresh
deriving DecidableEq, Repr

/-- The part is the same in both states. -/
def Same (p : Part) (s t : State) : Prop :=
  match p with
  | .queue => t.pending = s.pending
  | .reg k => storeGet t.regs k (regDefault k) = storeGet s.regs k (regDefault k)
  | .bar4 k => storeGet t.bar4 k (bar4Reset (k % 2 ^ 24)) = storeGet s.bar4 k (bar4Reset (k % 2 ^ 24))
  | .byte a => t.byte a = s.byte a
  | .core n => storeGet t.cores n Core.reset = storeGet s.cores n Core.reset
  | .link n => t.link n = s.link n
  | .ferry n => t.ferry n = s.ferry n
  | .group n => t.group n = s.group n
  | .obj n => t.obj n = s.obj n
  | .index n => t.index n = s.index n
  | .engine n => t.engine n = s.engine n
  | .berth n => t.berth n = s.berth n
  | .pairs => t.pairRead = s.pairRead ∧ t.pairWrite = s.pairWrite
  | .tide => t.tide = s.tide
  | .landings => t.landing = s.landing
  | .held => t.held = s.held
  | .blocks => t.fullBlocks = s.fullBlocks
  | .seals => t.sealCtr = s.sealCtr
  | .ports => t.ports = s.ports
  | .routes => t.routeWait = s.routeWait ∧ t.noRouted = s.noRouted ∧ t.applyWaits = s.applyWaits
  | .requests => t.tierQ = s.tierQ
  | .moves => t.tierMoves = s.tierMoves
  | .boot => t.boot = s.boot
  | .power => t.partCmd = s.partCmd ∧ t.powerSlots = s.powerSlots ∧ t.transition = s.transition ∧ t.critAt = s.critAt
  | .masks => t.fmask = s.fmask
  | .busMaster => t.busMaster = s.busMaster
  | .signals => t.pend = s.pend ∧ t.pba = s.pba ∧ t.alert = s.alert ∧ t.out = s.out
  | .log => t.log = s.log
  | .debug => t.responding = s.responding
  | .keys => t.hostKey = s.hostKey ∧ t.drawn = s.drawn
  | .doe => t.doe = s.doe ∧ t.doeBuf = s.doeBuf
  | .i3c => t.i3cDyn = s.i3cDyn ∧ t.i3cOff = s.i3cOff ∧ t.i3cIbi = s.i3cIbi
  | .tap => t.tapIr = s.tapIr ∧ t.cells = s.cells
  | .poison => t.poison = s.poison
  | .image => t.image = s.image
  | .flash => t.flash = s.flash
  | .withheld => t.withheld = s.withheld
  | .fresh => t.fresh = s.fresh

/-- From s to t nothing changes but parts that `may`. -/
def Changes (s t : State) (may : Part → Prop) : Prop := ∀ p, ¬ may p → Same p s t

/-- Nothing changes but the listed parts. -/
def Only (s t : State) (ps : List Part) : Prop := Changes s t (fun p => p ∈ ps)

end Machine

end Sys2Proof

namespace Sys2Proof.Claims

open Sys2Proof.Machine

/-- The command completes: exec answers a next state `t` for which `post` holds, and nothing but the parts that `may` has
changed. -/
def Completes (i : Instr) (s : State) (may : Part → Prop) (post : State → Prop) : Prop :=
  ∃ t, exec i s = .next t ∧ post t ∧ Changes s t may

/-- No further part. -/
abbrev nothing (_ : Part) : Prop := False

/-- These parts. -/
abbrev parts (l : List Part) (p : Part) : Prop := p ∈ l

/-- The bytes of memory from `a`, `n` of them. -/
abbrev bytesAt (a n : Nat) (p : Part) : Prop := ∃ k, k < n ∧ p = .byte (a + k)

/-- Either set of parts. -/
abbrev also (x y : Part → Prop) (p : Part) : Prop := x p ∨ y p

/-! Cores. -/

/-- Core `id` issues the instruction at its PC: it runs, it waits for nothing, and the word at PC is fetched without a fault
(05 R124, R138, R144; 06 R162 step 1). -/
abbrev Ready (s : State) (id : CoreId) : Prop :=
  coreOk id = true ∧ canIssue s id = true ∧ fetchFault s id = none ∧ fetchBlocked s id = false

/-- The core once the instruction has retired, but for its result: PC has moved on by 8 (05 R124), the wait is over, the fetch queue
has given up the word, and at sea one more instruction waits to be counted. -/
def retired (c : Core) : Core :=
  { c with
    pc := c.pc + 8
    wait := 0
    waitOn := []
    fetchq := popFetch c
    seaRetired := if c.hold.isEmpty then c.seaRetired else c.seaRetired + 1 }

/-- What every instruction that retires may change: its core, RETIRED, and interrupts that are signalled. -/
abbrev coreParts (id : CoreId) (p : Part) : Prop :=
  p ∈ [.core id.toNat, .reg (regKey (corePage id) 0x080), .reg (regKey (corePage id) 0x084), .signals]

/-- An instruction of core `id` completes and retires: RETIRED counts it unless the core is at sea (05, the core page). -/
def Retires (i : Instr) (id : CoreId) (s : State) (may : Part → Prop) (post : State → Prop) : Prop :=
  Completes i s (also (coreParts id) may) (fun t =>
    t.rd64 (corePage id) 0x080 = s.rd64 (corePage id) 0x080 + (if (s.core id).hold.isEmpty then 1 else 0) ∧ post t)

end Sys2Proof.Claims
end

