-- ==== Sys2Proof/Certificates/Slice0/Obligations.lean ====
section
/-! DEFINITION. The statements for the provers. Each family of commands has a table of rows: a command, what must hold of the state
and the operands, the parts of the state that may change, and what holds afterwards. A statement says that every row's command
completes so. -/

namespace Sys2Proof.Claims
open Sys2Proof.Machine

/-- The operations of the scalar instructions, as 06 R164 lists them; division by zero as 05 R133 has it. -/
inductive AluRow : Instr → CoreId → RegF → (W64 → W64 → W64) → Prop where
  | add (id : CoreId) (f : RegF) : AluRow (.add id f) id f (fun x y => x + y)
  | sub (id : CoreId) (f : RegF) : AluRow (.sub id f) id f (fun x y => x - y)
  | and (id : CoreId) (f : RegF) : AluRow (.and id f) id f (fun x y => x &&& y)
  | or (id : CoreId) (f : RegF) : AluRow (.or id f) id f (fun x y => x ||| y)
  | xor (id : CoreId) (f : RegF) : AluRow (.xor id f) id f (fun x y => x ^^^ y)
  | shl (id : CoreId) (f : RegF) : AluRow (.shl id f) id f (fun x y => x <<< (y.toNat % 64))
  | shr (id : CoreId) (f : RegF) : AluRow (.shr id f) id f (fun x y => x >>> (y.toNat % 64))
  | sra (id : CoreId) (f : RegF) : AluRow (.sra id f) id f (fun x y => x.sshiftRight (y.toNat % 64))
  | slt (id : CoreId) (f : RegF) : AluRow (.slt id f) id f (fun x y => if x.slt y then 1 else 0)
  | sltu (id : CoreId) (f : RegF) : AluRow (.sltu id f) id f (fun x y => if x.ult y then 1 else 0)
  | min (id : CoreId) (f : RegF) : AluRow (.min id f) id f (fun x y => if x.slt y then x else y)
  | minu (id : CoreId) (f : RegF) : AluRow (.minu id f) id f (fun x y => if x.ult y then x else y)
  | max (id : CoreId) (f : RegF) : AluRow (.max id f) id f (fun x y => if x.slt y then y else x)
  | maxu (id : CoreId) (f : RegF) : AluRow (.maxu id f) id f (fun x y => if x.ult y then y else x)
  | mul (id : CoreId) (f : RegF) : AluRow (.mul id f) id f (fun x y => x * y)
  | mulh (id : CoreId) (f : RegF) : AluRow (.mulh id f) id f
      (fun x y => ((x.signExtend 128 * y.signExtend 128) >>> 64).setWidth 64)
  | mulhu (id : CoreId) (f : RegF) : AluRow (.mulhu id f) id f
      (fun x y => ((x.setWidth 128 * y.setWidth 128) >>> 64).setWidth 64)
  | div (id : CoreId) (f : RegF) : AluRow (.div id f) id f (fun x y => if y = 0 then -1 else x.sdiv y)
  | divu (id : CoreId) (f : RegF) : AluRow (.divu id f) id f (fun x y => if y = 0 then -1 else x / y)
  | rem (id : CoreId) (f : RegF) : AluRow (.rem id f) id f (fun x y => if y = 0 then x else x.srem y)
  | remu (id : CoreId) (f : RegF) : AluRow (.remu id f) id f (fun x y => if y = 0 then x else x % y)

/-- A REG word of a scalar instruction: three scalar registers and every unused field zero (06 R159, R161). -/
abbrev ScalarWord (f : RegF) : Prop :=
  f.d.toNat < 32 ∧ f.a.toNat < 32 ∧ f.b.toNat < 32 ∧ f.c = 0 ∧ f.mask = 0 ∧ f.rm = 0 ∧ f.sat = 0 ∧ f.zm = 0 ∧ f.lane = 0
    ∧ f.fmt = 0 ∧ f.rsv = 0

/-- The immediate forms, which put sext(IMM32) in the place of sB (06 R164). -/
inductive AluImmRow : Instr → CoreId → ImmF → (W64 → W64 → W64) → Prop where
  | addi (id : CoreId) (f : ImmF) : AluImmRow (.addi id f) id f (fun x y => x + y)
  | subi (id : CoreId) (f : ImmF) : AluImmRow (.subi id f) id f (fun x y => x - y)
  | andi (id : CoreId) (f : ImmF) : AluImmRow (.andi id f) id f (fun x y => x &&& y)
  | ori (id : CoreId) (f : ImmF) : AluImmRow (.ori id f) id f (fun x y => x ||| y)
  | xori (id : CoreId) (f : ImmF) : AluImmRow (.xori id f) id f (fun x y => x ^^^ y)
  | shli (id : CoreId) (f : ImmF) (h : f.imm.toNat < 64) : AluImmRow (.shli id f) id f (fun x y => x <<< y.toNat)
  | shri (id : CoreId) (f : ImmF) (h : f.imm.toNat < 64) : AluImmRow (.shri id f) id f (fun x y => x >>> y.toNat)
  | srai (id : CoreId) (f : ImmF) (h : f.imm.toNat < 64) : AluImmRow (.srai id f) id f (fun x y => x.sshiftRight y.toNat)
  | slti (id : CoreId) (f : ImmF) : AluImmRow (.slti id f) id f (fun x y => if x.slt y then 1 else 0)
  | sltui (id : CoreId) (f : ImmF) : AluImmRow (.sltui id f) id f (fun x y => if x.ult y then 1 else 0)
  | mini (id : CoreId) (f : ImmF) : AluImmRow (.mini id f) id f (fun x y => if x.slt y then x else y)
  | minui (id : CoreId) (f : ImmF) : AluImmRow (.minui id f) id f (fun x y => if x.ult y then x else y)
  | maxi (id : CoreId) (f : ImmF) : AluImmRow (.maxi id f) id f (fun x y => if x.slt y then y else x)
  | maxui (id : CoreId) (f : ImmF) : AluImmRow (.maxui id f) id f (fun x y => if x.ult y then y else x)
  | sethi (id : CoreId) (f : ImmF) : AluImmRow (.sethi id f) id f (fun x y => y.setWidth 32 ++ x.setWidth 32)

/-- An IMM word that uses D and A as scalar registers (06 R160, R161). -/
abbrev ImmWord (f : ImmF) : Prop := f.d.toNat < 32 ∧ f.a.toNat < 32 ∧ f.b = 0 ∧ f.rsv = 0

end Sys2Proof.Claims

open Sys2Proof Sys2Proof.Machine Sys2Proof.Claims

/-- A scalar instruction puts the result that 06 R164 names (division by zero: 05 R133) into sD, retires, and changes nothing
else; a write of s0 is discarded (05 R123). -/
def Sys2Proof.Claims.claimScalarRegisterResults : Prop :=
  ∀ (i : Instr) (id : CoreId) (f : RegF) (op : W64 → W64 → W64) (s : State),
    AluRow i id f op → Ready s id → ScalarWord f →
    Retires i id s nothing (fun t =>
      t.core id = (retired (s.core id)).setS f.d.toNat (op ((s.core id).s f.a.toNat) ((s.core id).s f.b.toNat)))

def Sys2Proof.Claims.claimScalarImmediateResults : Prop :=
  ∀ (i : Instr) (id : CoreId) (f : ImmF) (op : W64 → W64 → W64) (s : State),
    AluImmRow i id f op → Ready s id → ImmWord f →
    Retires i id s nothing (fun t =>
      t.core id = (retired (s.core id)).setS f.d.toNat (op ((s.core id).s f.a.toNat) (f.imm.signExtend 64)))

/-- The scalar instructions on registers and on immediates (06 R164). -/
def Obligations.ScalarResults : Prop := claimScalarRegisterResults ∧ claimScalarImmediateResults

namespace Sys2Proof.Claims
open Sys2Proof.Machine

/-- The scalar loads: bytes read, and whether the value is sign-extended (06 R164). -/
inductive LoadRow : Instr → CoreId → ImmF → Nat → Bool → Prop where
  | ld8 (id : CoreId) (f : ImmF) : LoadRow (.ld8 id f) id f 1 true
  | ld8u (id : CoreId) (f : ImmF) : LoadRow (.ld8u id f) id f 1 false
  | ld16 (id : CoreId) (f : ImmF) : LoadRow (.ld16 id f) id f 2 true
  | ld16u (id : CoreId) (f : ImmF) : LoadRow (.ld16u id f) id f 2 false
  | ld32 (id : CoreId) (f : ImmF) : LoadRow (.ld32 id f) id f 4 true
  | ld32u (id : CoreId) (f : ImmF) : LoadRow (.ld32u id f) id f 4 false
  | ld64 (id : CoreId) (f : ImmF) : LoadRow (.ld64 id f) id f 8 false

/-- The scalar stores, and the bytes they store (06 R164). -/
inductive StoreRow : Instr → CoreId → ImmF → Nat → Prop where
  | st8 (id : CoreId) (f : ImmF) : StoreRow (.st8 id f) id f 1
  | st16 (id : CoreId) (f : ImmF) : StoreRow (.st16 id f) id f 2
  | st32 (id : CoreId) (f : ImmF) : StoreRow (.st32 id f) id f 4
  | st64 (id : CoreId) (f : ImmF) : StoreRow (.st64 id f) id f 8

/-- An IMM word that uses A and B as scalar registers (stores and branches). -/
abbrev SourceWord (f : ImmF) : Prop := f.d = 0 ∧ f.a.toNat < 32 ∧ f.b.toNat < 32 ∧ f.rsv = 0

/-- The address sA + sext(IMM32) of a load, a store or a jump. -/
def address (c : Core) (f : ImmF) : W64 := c.s f.a.toNat + f.imm.signExtend 64

/-- The bytes a stack has moved: a counter of its page, for an address in HBM (12, The HS pages). -/
def stackCounter (a off : Nat) (p : Part) : Prop :=
  match placeOf a with
  | some (.hbm k _) => p = .reg (regKey (pgHs k) off) ∨ p = .reg (regKey (pgHs k) (off + 4))
  | _ => False

/-- An n-byte access of this chip's memory at `a` by a core meets no fault and no wait: `a` is a multiple of n, lies in the core's
regions (05 R126, R127), and no stopped place, unconfirmed consignment, outstanding move or uncorrectable data stands there. -/
abbrev ReadsNow (s : State) (id : CoreId) (a n : Nat) : Prop :=
  a % n = 0 ∧ ownChip s a = true ∧ coreAccessFault s id a n false = none ∧ readWaits s (s.core id) a n = false
    ∧ shoreBlocked s (placeBits a) n = false ∧ poisoned s (placeBits a) n = false

/-- The same of a store; no consignment still holds the bytes as its source (02 R58). -/
abbrev WritesNow (s : State) (id : CoreId) (a n : Nat) : Prop :=
  a % n = 0 ∧ ownChip s a = true ∧ coreAccessFault s id a n true = none ∧ writeWaits s (s.core id) a n = false
    ∧ placeResetting s (placeBits a) = false ∧ poisoned s (placeBits a) n = false

/-- Branches: the relation of sA and sB that takes them (06 R165). -/
inductive BranchRow : Instr → CoreId → ImmF → (W64 → W64 → Bool) → Prop where
  | beq (id : CoreId) (f : ImmF) : BranchRow (.beq id f) id f (fun x y => x == y)
  | bne (id : CoreId) (f : ImmF) : BranchRow (.bne id f) id f (fun x y => x != y)
  | blt (id : CoreId) (f : ImmF) : BranchRow (.blt id f) id f (fun x y => x.slt y)
  | bge (id : CoreId) (f : ImmF) : BranchRow (.bge id f) id f (fun x y => !x.slt y)
  | bltu (id : CoreId) (f : ImmF) : BranchRow (.bltu id f) id f (fun x y => x.ult y)
  | bgeu (id : CoreId) (f : ImmF) : BranchRow (.bgeu id f) id f (fun x y => !x.ult y)

end Sys2Proof.Claims

/-- A load takes the n bytes at sA + sext(IMM32), little-endian, sign- or zero-extended, into sD, and changes no memory; the stack
counts the bytes. A load from another chip of the board goes out on the board, and its value is free (log 7). -/
def Sys2Proof.Claims.claimScalarLoadResults : Prop :=
  (∀ (i : Instr) (id : CoreId) (f : ImmF) (n : Nat) (sg : Bool) (s : State),
    LoadRow i id f n sg → Ready s id → ImmWord f → ReadsNow s id (address (s.core id) f).toNat n →
    Retires i id s (stackCounter (placeBits (address (s.core id) f).toNat) 0x058) (fun t =>
      t.core id = (retired (s.core id)).setS f.d.toNat
        (if sg then (BitVec.ofNat (8 * n) (natLE (s.bytes (placeBits (address (s.core id) f).toNat) n))).signExtend 64
          else BitVec.ofNat 64 (natLE (s.bytes (placeBits (address (s.core id) f).toNat) n))))) ∧
  (∀ (i : Instr) (id : CoreId) (f : ImmF) (n : Nat) (sg : Bool) (s : State),
    LoadRow i id f n sg → Ready s id → ImmWord f → (address (s.core id) f).toNat % n = 0 →
    ownChip s (address (s.core id) f).toNat = false → coreAccessFault s id (address (s.core id) f).toNat n false = none →
    Retires i id s (parts [.fresh]) (fun t =>
      (∃ v, t.core id = (retired (s.core id)).setS f.d.toNat v) ∧
      Out.board ((address (s.core id) f).toNat / 2 ^ 48) (address (s.core id) f) false (bytesLE n 0) ∈ t.out))

/-- A store writes the low n bytes of sB, least significant first, at sA + sext(IMM32), and changes no other byte of memory and no
register; at sea it would wait (02 R70), so the core is on shore. A byte stored into a tile that is being moved makes the tile
dirty (12 R325). -/
def Sys2Proof.Claims.claimScalarStoreResults : Prop :=
  ∀ (i : Instr) (id : CoreId) (f : ImmF) (n : Nat) (s : State),
    StoreRow i id f n → Ready s id → (s.core id).hold = [] → SourceWord f → WritesNow s id (address (s.core id) f).toNat n →
    Retires i id s (also (bytesAt (placeBits (address (s.core id) f).toNat) n)
        (also (stackCounter (placeBits (address (s.core id) f).toNat) 0x060) (parts [.moves]))) (fun t =>
      t.core id = retired (s.core id) ∧
      ∀ k, k < n → t.byte (placeBits (address (s.core id) f).toNat + k) =
        (((s.core id).s f.b.toNat) >>> (8 * k)).setWidth 8)

/-- A branch moves PC by sext(IMM32) × 8 when its relation of sA and sB holds, by 8 when it does not. -/
def Sys2Proof.Claims.claimBranchResults : Prop :=
  ∀ (i : Instr) (id : CoreId) (f : ImmF) (rel : W64 → W64 → Bool) (s : State),
    BranchRow i id f rel → Ready s id → SourceWord f →
    Retires i id s nothing (fun t =>
      t.core id = { retired (s.core id) with
        pc := if rel ((s.core id).s f.a.toNat) ((s.core id).s f.b.toNat)
          then (s.core id).pc + f.imm.signExtend 64 * 8 else (s.core id).pc + 8 })

/-- The jumps: sD takes PC + 8; JAL goes to PC + sext(IMM32) × 8, JALR to sA + sext(IMM32) with sA as it was. A JALR whose target
is no multiple of 8 takes fault 0x1003 ALIGNMENT with the target as its address. -/
def Sys2Proof.Claims.claimJumpResults : Prop :=
  (∀ (id : CoreId) (f : ImmF) (s : State),
    Ready s id → f.d.toNat < 32 → f.a = 0 → f.b = 0 → f.rsv = 0 →
    Retires (.jal id f) id s nothing (fun t =>
      t.core id = { (retired (s.core id)).setS f.d.toNat ((s.core id).pc + 8) with
        pc := (s.core id).pc + f.imm.signExtend 64 * 8 })) ∧
  (∀ (id : CoreId) (f : ImmF) (s : State),
    Ready s id → ImmWord f → (address (s.core id) f).toNat % 8 = 0 →
    Retires (.jalr id f) id s nothing (fun t =>
      t.core id = { (retired (s.core id)).setS f.d.toNat ((s.core id).pc + 8) with pc := address (s.core id) f })) ∧
  (∀ (id : CoreId) (f : ImmF) (s : State),
    Ready s id → ImmWord f → (s.core id).hold = [] → (address (s.core id) f).toNat % 8 ≠ 0 →
    exec (.jalr id f) s =
      .next (signal (takeFault s id (s.core id).pc { code := 0x1003, addr := (address (s.core id) f).toNat } false)))

/-- Scalar loads and stores (06 R164). -/
def Obligations.ScalarMemoryResults : Prop := claimScalarLoadResults ∧ claimScalarStoreResults

/-- Branches and jumps (06 R165). -/
def Obligations.ControlFlowResults : Prop := claimBranchResults ∧ claimJumpResults

namespace Sys2Proof.Claims
open Sys2Proof.Machine

/-- LANE, FMT and the reserved bits of a vector word are zero (06 R159, R161). -/
abbrev PlainLanes (f : RegF) : Prop := f.lane = 0 ∧ f.fmt = 0 ∧ f.rsv = 0
/-- So are RM and SAT: the word of an instruction that does not round. -/
abbrev NoRounding (f : RegF) : Prop := PlainLanes f ∧ f.rm = 0 ∧ f.sat = 0

/-- Lane i of vA, vB and vC, as bits and as FP32 values. -/
def wordA (f : RegF) (c : Core) (i : Nat) : W32 := c.lane f.a.toNat i
def wordB (f : RegF) (c : Core) (i : Nat) : W32 := c.lane f.b.toNat i
def numA (f : RegF) (c : Core) (i : Nat) : Machine.Num := fp32 (wordA f c i)
def numB (f : RegF) (c : Core) (i : Nat) : Machine.Num := fp32 (wordB f c i)
def numC (f : RegF) (c : Core) (i : Nat) : Machine.Num := fp32 (c.lane f.c.toNat i)
/-- Scalar register B, as the FP32 value of its low half and as a lane number. -/
def scalarB (f : RegF) (c : Core) : Machine.Num := fp32 ((c.s f.b.toNat).setWidth 32)
def laneIndexB (f : RegF) (c : Core) : Nat := (c.s f.b.toNat).toNat % 128

/-- An exact value rounded to FP32 in the word's mode and SAT: INVALID when it is NaN and no source was (03 R95, R97, R100). -/
def roundOnce (f : RegF) (x : Machine.Num) (from_ : List Machine.Num) : Rounded := fpResult f.rm.toNat (f.sat == 1) x from_
/-- The zero that an exact sum of opposite terms gives: −0 only in RDN (03 R105). -/
def zeroSign (f : RegF) : Bool := f.rm == 2
/-- A result bit for bit, without flags. -/
def asIs (w : W32) : Rounded := ⟨w.toNat, 0⟩

/-- What each vector instruction puts into an active lane of vD (06 R166; 03 R97, R98, R105, R106): its value and its flags. -/
inductive LaneRow : Instr → CoreId → RegF → (Core → Nat → Rounded) → Prop where
  | vadd (id : CoreId) (f : RegF) (h : PlainLanes f ∧ f.c = 0) : LaneRow (.vadd id f) id f (fun c i =>
      roundOnce f (numAdd (zeroSign f) (numA f c i) (numB f c i)) [numA f c i, numB f c i])
  | vsub (id : CoreId) (f : RegF) (h : PlainLanes f ∧ f.c = 0) : LaneRow (.vsub id f) id f (fun c i =>
      roundOnce f (numAdd (zeroSign f) (numA f c i) (numNeg (numB f c i))) [numA f c i, numB f c i])
  | vmul (id : CoreId) (f : RegF) (h : PlainLanes f ∧ f.c = 0) : LaneRow (.vmul id f) id f (fun c i =>
      roundOnce f (numMul (numA f c i) (numB f c i)) [numA f c i, numB f c i])
  | vfma (id : CoreId) (f : RegF) (h : PlainLanes f) : LaneRow (.vfma id f) id f (fun c i =>
      roundOnce f (numAdd (zeroSign f) (numMul (numA f c i) (numB f c i)) (numC f c i)) [numA f c i, numB f c i, numC f c i])
  | vfnma (id : CoreId) (f : RegF) (h : PlainLanes f) : LaneRow (.vfnma id f) id f (fun c i =>
      roundOnce f (numAdd (zeroSign f) (numMul (numNeg (numA f c i)) (numB f c i)) (numC f c i))
        [numA f c i, numB f c i, numC f c i])
  | vmax (id : CoreId) (f : RegF) (h : NoRounding f ∧ f.c = 0) : LaneRow (.vmax id f) id f (fun c i =>
      ⟨(toFp32 rmRNE false (numMax (numA f c i) (numB f c i))).bits, 0⟩)
  | vmin (id : CoreId) (f : RegF) (h : NoRounding f ∧ f.c = 0) : LaneRow (.vmin id f) id f (fun c i =>
      ⟨(toFp32 rmRNE false (numMin (numA f c i) (numB f c i))).bits, 0⟩)
  | vabs (id : CoreId) (f : RegF) (h : NoRounding f ∧ f.b = 0 ∧ f.c = 0) : LaneRow (.vabs id f) id f (fun c i =>
      if numA f c i = .nan then ⟨0x7FC00000, 0⟩ else asIs (wordA f c i &&& 0x7FFFFFFF))
  | vneg (id : CoreId) (f : RegF) (h : NoRounding f ∧ f.b = 0 ∧ f.c = 0) : LaneRow (.vneg id f) id f (fun c i =>
      if numA f c i = .nan then ⟨0x7FC00000, 0⟩ else asIs (wordA f c i ^^^ 0x80000000))
  | vmov (id : CoreId) (f : RegF) (h : NoRounding f ∧ f.b = 0 ∧ f.c = 0) : LaneRow (.vmov id f) id f (fun c i =>
      asIs (wordA f c i))
  | vsel (id : CoreId) (f : RegF) (h : NoRounding f ∧ f.c.toNat < 16) : LaneRow (.vsel id f) id f (fun c i =>
      asIs (if (c.mask f.c.toNat).getLsbD i then wordA f c i else wordB f c i))
  | vmulx (id : CoreId) (f : RegF) (h : PlainLanes f ∧ f.b.toNat < 32) : LaneRow (.vmulx id f) id f (fun c i =>
      roundOnce f (numMul (numA f c i) (numC f c (laneIndexB f c))) [numA f c i, numC f c (laneIndexB f c)])
  | vmuls (id : CoreId) (f : RegF) (h : PlainLanes f ∧ f.b.toNat < 32 ∧ f.c = 0) : LaneRow (.vmuls id f) id f (fun c i =>
      roundOnce f (numMul (numA f c i) (scalarB f c)) [numA f c i, scalarB f c])
  | vadds (id : CoreId) (f : RegF) (h : PlainLanes f ∧ f.b.toNat < 32 ∧ f.c = 0) : LaneRow (.vadds id f) id f (fun c i =>
      roundOnce f (numAdd (zeroSign f) (numA f c i) (scalarB f c)) [numA f c i, scalarB f c])
  | vbcast (id : CoreId) (f : RegF) (h : NoRounding f ∧ f.a.toNat < 32 ∧ f.b = 0 ∧ f.c = 0) : LaneRow (.vbcast id f) id f
      (fun c _ => asIs ((c.s f.a.toNat).setWidth 32))
  | viadd (id : CoreId) (f : RegF) (h : NoRounding f ∧ f.c = 0) : LaneRow (.viadd id f) id f (fun c i =>
      asIs (wordA f c i + wordB f c i))
  | visub (id : CoreId) (f : RegF) (h : NoRounding f ∧ f.c = 0) : LaneRow (.visub id f) id f (fun c i =>
      asIs (wordA f c i - wordB f c i))
  | vimul (id : CoreId) (f : RegF) (h : NoRounding f ∧ f.c = 0) : LaneRow (.vimul id f) id f (fun c i =>
      asIs (wordA f c i * wordB f c i))
  | vand (id : CoreId) (f : RegF) (h : NoRounding f ∧ f.c = 0) : LaneRow (.vand id f) id f (fun c i =>
      asIs (wordA f c i &&& wordB f c i))
  | vor (id : CoreId) (f : RegF) (h : NoRounding f ∧ f.c = 0) : LaneRow (.vor id f) id f (fun c i =>
      asIs (wordA f c i ||| wordB f c i))
  | vxor (id : CoreId) (f : RegF) (h : NoRounding f ∧ f.c = 0) : LaneRow (.vxor id f) id f (fun c i =>
      asIs (wordA f c i ^^^ wordB f c i))
  | vshl (id : CoreId) (f : RegF) (h : NoRounding f ∧ f.c = 0) : LaneRow (.vshl id f) id f (fun c i =>
      asIs (wordA f c i <<< ((wordB f c i).toNat % 32)))
  | vshr (id : CoreId) (f : RegF) (h : NoRounding f ∧ f.c = 0) : LaneRow (.vshr id f) id f (fun c i =>
      asIs (wordA f c i >>> ((wordB f c i).toNat % 32)))
  | vsra (id : CoreId) (f : RegF) (h : NoRounding f ∧ f.c = 0) : LaneRow (.vsra id f) id f (fun c i =>
      asIs ((wordA f c i).sshiftRight ((wordB f c i).toNat % 32)))
  | vimax (id : CoreId) (f : RegF) (h : NoRounding f ∧ f.c = 0) : LaneRow (.vimax id f) id f (fun c i =>
      asIs (if (wordA f c i).slt (wordB f c i) then wordB f c i else wordA f c i))
  | vimin (id : CoreId) (f : RegF) (h : NoRounding f ∧ f.c = 0) : LaneRow (.vimin id f) id f (fun c i =>
      asIs (if (wordA f c i).slt (wordB f c i) then wordA f c i else wordB f c i))
  | vidx (id : CoreId) (f : RegF) (h : NoRounding f ∧ f.a = 0 ∧ f.b = 0 ∧ f.c = 0) : LaneRow (.vidx id f) id f
      (fun _ i => ⟨i, 0⟩)
  | f2i (id : CoreId) (f : RegF) (h : PlainLanes f ∧ f.b = 0 ∧ f.c = 0) : LaneRow (.f2i id f) id f (fun c i =>
      convertInt 32 f.rm.toNat (numA f c i))
  | i2f (id : CoreId) (f : RegF) (h : PlainLanes f ∧ f.b = 0 ∧ f.c = 0) : LaneRow (.i2f id f) id f (fun c i =>
      toFp32 f.rm.toNat (f.sat == 1) (.fin ((wordA f c i).msb) ((wordA f c i).toInt.natAbs) 0))
  | qnt (id : CoreId) (f : RegF) (h : f.lane = 0 ∧ f.rsv = 0 ∧ 1 ≤ f.fmt.toNat ∧ f.fmt.toNat ≤ 7 ∧ f.b = 0 ∧ f.c = 0) :
      LaneRow (.qnt id f) id f (fun c i =>
        ⟨(toFp32 rmRNE false (elemValue f.fmt.toNat (narrowTo f.fmt.toNat f.rm.toNat (f.sat == 1) (numA f c i)).bits)).bits,
          (narrowTo f.fmt.toNat f.rm.toNat (f.sat == 1) (numA f c i)).flags⟩)

/-- Lane i is active: bit i of the mask register MASK. -/
def active (c : Core) (mask : BitVec 4) (i : Nat) : Bool := (c.mask mask.toNat).getLsbD i

/-- Flags of the active lanes together. -/
def activeFlags (c : Core) (mask : BitVec 4) (lane : Nat → Rounded) : W32 :=
  BitVec.ofNat 32 ((List.range 128).foldl (fun a i => if active c mask i then a ||| (lane i).flags else a) 0)

/-- The vector registers with new lanes in register d: the lane's value where MASK is 1; elsewhere kept, or +0 with ZM. -/
abbrev NewLanes (c : Core) (f : RegF) (lane : Nat → Rounded) (v : Store W32) : Prop :=
  ∀ r i, i < 128 → storeGet v (128 * r + i) 0 =
    if r = f.d.toNat then
      (if active c f.mask i then BitVec.ofNat 32 (lane i).bits else if f.zm = 1 then 0 else c.lane r i)
    else c.lane r i

end Sys2Proof.Claims

/-- A vector instruction puts its result into every active lane of vD, keeps the others or makes them +0, joins the flags of the
active lanes to AFLAGS, and changes nothing else. -/
def Obligations.VectorLaneResults : Prop :=
  ∀ (i : Instr) (id : CoreId) (f : RegF) (lane : Core → Nat → Rounded) (s : State),
    LaneRow i id f lane → Ready s id → (s.core id).hold = [] →
    Retires i id s nothing (fun t =>
      ∃ v, NewLanes (s.core id) f (lane (s.core id)) v ∧
        t.core id = { retired (s.core id) with
          vreg := v, aflags := (s.core id).aflags ||| activeFlags (s.core id) f.mask (lane (s.core id)) })

namespace Sys2Proof.Claims
open Sys2Proof.Machine

/-- The comparisons and mask operations: the condition bit of each lane (06 R166). FP32 comparisons with a NaN are false but for FNE
(03 R105). -/
inductive MaskRow : Instr → CoreId → RegF → (Core → Nat → Bool) → Prop where
  | feq (id : CoreId) (f : RegF) : MaskRow (.feq id f) id f (fun c i => numEq (numA f c i) (numB f c i))
  | fne (id : CoreId) (f : RegF) : MaskRow (.fne id f) id f (fun c i => !numEq (numA f c i) (numB f c i))
  | flt (id : CoreId) (f : RegF) : MaskRow (.flt id f) id f (fun c i => numLt (numA f c i) (numB f c i))
  | fle (id : CoreId) (f : RegF) : MaskRow (.fle id f) id f (fun c i =>
      numLt (numA f c i) (numB f c i) || numEq (numA f c i) (numB f c i))
  | ieq (id : CoreId) (f : RegF) : MaskRow (.ieq id f) id f (fun c i => wordA f c i == wordB f c i)
  | ine (id : CoreId) (f : RegF) : MaskRow (.ine id f) id f (fun c i => wordA f c i != wordB f c i)
  | ilt (id : CoreId) (f : RegF) : MaskRow (.ilt id f) id f (fun c i => (wordA f c i).slt (wordB f c i))
  | ile (id : CoreId) (f : RegF) : MaskRow (.ile id f) id f (fun c i => !(wordB f c i).slt (wordA f c i))
  | iltu (id : CoreId) (f : RegF) : MaskRow (.iltu id f) id f (fun c i => (wordA f c i).ult (wordB f c i))
  | mand (id : CoreId) (f : RegF) (h : f.a.toNat < 16 ∧ f.b.toNat < 16) : MaskRow (.mand id f) id f (fun c i =>
      (c.mask f.a.toNat &&& c.mask f.b.toNat).getLsbD i)
  | mor (id : CoreId) (f : RegF) (h : f.a.toNat < 16 ∧ f.b.toNat < 16) : MaskRow (.mor id f) id f (fun c i =>
      (c.mask f.a.toNat ||| c.mask f.b.toNat).getLsbD i)
  | mxor (id : CoreId) (f : RegF) (h : f.a.toNat < 16 ∧ f.b.toNat < 16) : MaskRow (.mxor id f) id f (fun c i =>
      (c.mask f.a.toNat ^^^ c.mask f.b.toNat).getLsbD i)
  | mandn (id : CoreId) (f : RegF) (h : f.a.toNat < 16 ∧ f.b.toNat < 16) : MaskRow (.mandn id f) id f (fun c i =>
      (c.mask f.a.toNat).getLsbD i && !(c.mask f.b.toNat).getLsbD i)
  | mlen (id : CoreId) (f : RegF) (h : f.a.toNat < 32 ∧ f.b = 0) : MaskRow (.mlen id f) id f (fun c i =>
      decide (i < (c.s f.a.toNat).toNat))

/-- The reductions: what an inactive lane counts as, and one step of the tree (03 R107; 06 R166). -/
inductive ReduceRow : Instr → CoreId → RegF → Nat → (Nat → Nat → Rounded) → Prop where
  | vrsum (id : CoreId) (f : RegF) : ReduceRow (.vrsum id f) id f 0 (fun a b =>
      roundOnce f (numAdd (zeroSign f) (fp32 (BitVec.ofNat 32 a)) (fp32 (BitVec.ofNat 32 b)))
        [fp32 (BitVec.ofNat 32 a), fp32 (BitVec.ofNat 32 b)])
  | vrmax (id : CoreId) (f : RegF) (h : f.rm = 0 ∧ f.sat = 0) : ReduceRow (.vrmax id f) id f 0xFF800000 (fun a b =>
      ⟨(toFp32 rmRNE false (numMax (fp32 (BitVec.ofNat 32 a)) (fp32 (BitVec.ofNat 32 b)))).bits, 0⟩)
  | vrmin (id : CoreId) (f : RegF) (h : f.rm = 0 ∧ f.sat = 0) : ReduceRow (.vrmin id f) id f 0x7F800000 (fun a b =>
      ⟨(toFp32 rmRNE false (numMin (fp32 (BitVec.ofNat 32 a)) (fp32 (BitVec.ofNat 32 b)))).bits, 0⟩)
  | vrisum (id : CoreId) (f : RegF) (h : f.rm = 0 ∧ f.sat = 0) : ReduceRow (.vrisum id f) id f 0 (fun a b =>
      ⟨(a + b) % 2 ^ 32, 0⟩)

/-- Node i of level n of the fixed tree of 03 R107, with the flags of the whole subtree: level 0 are the lanes, and node i of the
next level combines nodes 2i and 2i + 1. -/
def treeNode (op : Nat → Nat → Rounded) (lane : Nat → Nat) : Nat → Nat → Rounded
  | 0, i => ⟨lane i, 0⟩
  | n + 1, i =>
    ⟨(op (treeNode op lane n (2 * i)).bits (treeNode op lane n (2 * i + 1)).bits).bits,
      (op (treeNode op lane n (2 * i)).bits (treeNode op lane n (2 * i + 1)).bits).flags
        ||| (treeNode op lane n (2 * i)).flags ||| (treeNode op lane n (2 * i + 1)).flags⟩

/-- What a lane brings to a reduction. -/
def reduceLane (c : Core) (f : RegF) (idle i : Nat) : Nat := if active c f.mask i then (wordA f c i).toNat else idle

end Sys2Proof.Claims

/-- A comparison or mask operation puts the condition bit of each active lane into mask register D, and keeps the other bits, or
makes them 0 with ZM; a write of m0 is discarded (05 R123). VEXT puts lane sB mod 128 of vA, sign-extended, into sD. -/
def Sys2Proof.Claims.claimMaskResults : Prop :=
  (∀ (i : Instr) (id : CoreId) (f : RegF) (bit : Core → Nat → Bool) (s : State),
    MaskRow i id f bit → Ready s id → (s.core id).hold = [] → NoRounding f → f.d.toNat < 16 → f.c = 0 →
    Retires i id s nothing (fun t =>
      ∃ m : BitVec 128,
        (∀ k, k < 128 → m.getLsbD k =
          if active (s.core id) f.mask k then bit (s.core id) k
          else (f.zm == 0 && ((s.core id).mask f.d.toNat).getLsbD k)) ∧
        t.core id = (retired (s.core id)).setMask f.d.toNat m)) ∧
  (∀ (id : CoreId) (f : RegF) (s : State),
    Ready s id → (s.core id).hold = [] → NoRounding f → f.d.toNat < 32 → f.b.toNat < 32 → f.c = 0 → f.mask = 0 → f.zm = 0 →
    Retires (.vext id f) id s nothing (fun t =>
      t.core id = (retired (s.core id)).setS f.d.toNat
        ((wordA f (s.core id) (laneIndexB f (s.core id))).signExtend 64)))

/-- A reduction combines the active lanes of vA over the fixed tree and writes lane (sB + LANE) mod 128 of vD; every other lane of
vD stays. -/
def Sys2Proof.Claims.claimReductionResults : Prop :=
  ∀ (i : Instr) (id : CoreId) (f : RegF) (idle : Nat) (op : Nat → Nat → Rounded) (s : State),
    ReduceRow i id f idle op → Ready s id → (s.core id).hold = [] → f.fmt = 0 → f.rsv = 0 → f.zm = 0 → f.b.toNat < 32 → f.c = 0 →
    Retires i id s nothing (fun t =>
      ∃ v : Store W32,
        (∀ k, storeGet v k 0 =
          if k = 128 * f.d.toNat + (((s.core id).s f.b.toNat).toNat + f.lane.toNat) % 128
          then BitVec.ofNat 32 (treeNode op (reduceLane (s.core id) f idle) 7 0).bits else storeGet (s.core id).vreg k 0) ∧
        t.core id = { retired (s.core id) with
          vreg := v
          aflags := (s.core id).aflags |||
            BitVec.ofNat 32 (treeNode op (reduceLane (s.core id) f idle) 7 0).flags })

/-- Comparisons, mask operations and reductions (06 R166; 03 R101 to R107). -/
def Obligations.MaskAndReductionResults : Prop := claimMaskResults ∧ claimReductionResults

namespace Sys2Proof.Claims
open Sys2Proof.Machine

/-- The lane that a vector load makes of element k of a row (05 R123; 06 R169, R170): FP32 and INT32 elements bit for bit, others at
their exact value; with MX the value times its block's scale, rounded once. -/
def loadedLane (f : VmemF) (elem scale : Nat → Byte) (k : Nat) : Rounded :=
  if f.fmt = 0 ∨ f.fmt = 8 then ⟨elemBits f.fmt.toNat elem k, 0⟩
  else if f.mx = 1 then
    toFp32 f.rm.toNat false (numMul (elemValue f.fmt.toNat (elemBits f.fmt.toNat elem k)) (elemValue 12 (scale (k / 32)).toNat))
  else ⟨(toFp32 rmRNE false (elemValue f.fmt.toNat (elemBits f.fmt.toNat elem k))).bits, 0⟩

/-- The lanes of vV after a load of N elements: the element in an active lane below N, the old lane in an inactive one, +0 from lane N
on; every other register as before. -/
abbrev LoadedLanes (c : Core) (f : VmemF) (elem scale : Nat → Byte) (v : Store W32) : Prop :=
  ∀ r i, i < 128 → storeGet v (128 * r + i) 0 =
    if r = f.v.toNat then
      (if f.nm1.toNat + 1 ≤ i then 0
        else if active c f.mask i then BitVec.ofNat 32 (loadedLane f elem scale i).bits else c.lane r i)
    else c.lane r i

/-- Flags of the elements loaded. -/
def loadedFlags (c : Core) (f : VmemF) (elem scale : Nat → Byte) : W32 :=
  BitVec.ofNat 32 ((List.range (f.nm1.toNat + 1)).foldl (fun a i =>
    if active c f.mask i then a ||| (loadedLane f elem scale i).flags else a) 0)

/-- What a store makes of lane k: the element's bits and its flags (06 R169, R170; 03 R94 with MX), for lanes 0 to N − 1. -/
def storedElem (c : Core) (f : VmemF) (k : Nat) : Rounded :=
  if f.mx = 1 then
    let x := mxBlock f.fmt.toNat f.rm.toNat ((List.range 32).map (fun j => fp32 (c.lane f.v.toNat (k / 32 * 32 + j))))
    ⟨x.2.1.getD (k % 32) 0, x.2.2⟩
  else if f.fmt = 0 ∨ f.fmt = 8 then ⟨(c.lane f.v.toNat k).toNat, 0⟩
  else narrowTo f.fmt.toNat f.rm.toNat (f.sat == 1) (fp32 (c.lane f.v.toNat k))

/-- The scale of block b of an MX store. -/
def storedScale (c : Core) (f : VmemF) (b : Nat) : Nat :=
  (mxBlock f.fmt.toNat f.rm.toNat ((List.range 32).map (fun j => fp32 (c.lane f.v.toNat (32 * b + j))))).1

/-- Flags of the elements stored. -/
def storedFlags (c : Core) (f : VmemF) : W32 :=
  BitVec.ofNat 32 ((List.range (f.nm1.toNat + 1)).foldl (fun a k =>
    if active c f.mask k then a ||| (storedElem c f k).flags else a) 0)

/-- Some lane below N is active. -/
def someActive (c : Core) (f : VmemF) : Prop := ∃ k, k ≤ f.nm1.toNat ∧ active c f.mask k = true

/-- A row of N elements that a store has been through: active elements hold what was stored, inactive ones what they held. -/
abbrev StoredRow (c : Core) (f : VmemF) (old new : Nat → Byte) : Prop :=
  ∀ k, k ≤ f.nm1.toNat → elemBits f.fmt.toNat new k =
    if active c f.mask k then (storedElem c f k).bits else elemBits f.fmt.toNat old k

/-- The scales of a store with MX: that of every block with an active lane is written, the others stay. -/
abbrev StoredScales (c : Core) (f : VmemF) (old new : Nat → Byte) : Prop :=
  f.mx = 1 → ∀ b, b < (f.nm1.toNat + 1) / 32 → new b =
    if (List.range 32).any (fun j => active c f.mask (32 * b + j)) then BitVec.ofNat 8 (storedScale c f b) else old b

/-- Place addresses of the elements and of the scales of a scratchpad access. -/
def elemPlace (c : Core) (f : VmemF) : Nat := placeBits (vmBase f c)
def scalePlace (c : Core) (f : VmemF) : Nat := placeBits (vmScaleAt f c)

/-- A scratchpad access meets no fault (06 R162 steps 7 and 8, R168) and no wait, on this chip. -/
abbrev VmNow (f : VmemF) (write : Bool) (s : State) (id : CoreId) : Prop :=
  vmFault f write id s (s.core id) = none ∧
    ∀ r ∈ vmRanges f (s.core id), ownChip s r.1 = true ∧ poisoned s (placeBits r.1) r.2 = false ∧
      (if write then writeWaits s (s.core id) r.1 r.2 = false ∧ placeResetting s (placeBits r.1) = false
        else readWaits s (s.core id) r.1 r.2 = false ∧ shoreBlocked s (placeBits r.1) r.2 = false)

end Sys2Proof.Claims

/-- A vector load reads its row, and with MX its scales, from the slot or from scratchpad, and changes nothing but the lanes of vV
and AFLAGS. -/
def Sys2Proof.Claims.claimVectorLoadResults : Prop :=
  ∀ (id : CoreId) (f : VmemF) (s : State),
    Ready s id → (s.core id).hold = [] → (s.core id).moves = [] → vldLegal f = true → VmNow f false s id →
    Retires (.vld id f) id s nothing (fun t =>
      ∃ (elem scale : Nat → Byte) (v : Store W32),
        (∀ j, j < vmBytes f → elem j =
          if f.space = 1 then (s.core id).slotByte f.slot.toNat (vmSlotByte f (s.core id) + j)
          else s.byte (elemPlace (s.core id) f + j)) ∧
        (∀ j, j < vmScales f → scale j =
          if f.space = 1 then (s.core id).slotByte f.slot.toNat (vmScaleAt f (s.core id) + j)
          else s.byte (scalePlace (s.core id) f + j)) ∧
        LoadedLanes (s.core id) f elem scale v ∧
        t.core id = { retired (s.core id) with vreg := v, aflags := (s.core id).aflags ||| loadedFlags (s.core id) f elem scale })

/-- A vector store with an active lane writes the elements of its active lanes, and with MX the scales of their blocks, and changes
no other element; one without an active lane writes nothing. Memory outside its bytes stays as it was. -/
def Sys2Proof.Claims.claimVectorStoreResults : Prop :=
  (∀ (id : CoreId) (f : VmemF) (s : State),
    Ready s id → (s.core id).hold = [] → (s.core id).moves = [] → vstLegal f = true → f.space = 0 → VmNow f true s id →
    someActive (s.core id) f → (f.mx = 1 → overlap (elemPlace (s.core id) f) (vmBytes f) (scalePlace (s.core id) f) (vmScales f) = false) →
    Retires (.vst id f) id s (also (bytesAt (elemPlace (s.core id) f) (vmBytes f))
        (also (bytesAt (scalePlace (s.core id) f) (vmScales f)) (parts [.moves]))) (fun t =>
      t.core id = { retired (s.core id) with aflags := (s.core id).aflags ||| storedFlags (s.core id) f } ∧
      StoredRow (s.core id) f (fun j => s.byte (elemPlace (s.core id) f + j)) (fun j => t.byte (elemPlace (s.core id) f + j)) ∧
      StoredScales (s.core id) f (fun b => s.byte (scalePlace (s.core id) f + b)) (fun b => t.byte (scalePlace (s.core id) f + b)))) ∧
  (∀ (id : CoreId) (f : VmemF) (s : State),
    Ready s id → (s.core id).hold = [] → (s.core id).moves = [] → vstLegal f = true → f.space = 1 →
    vmFault f true id s (s.core id) = none → someActive (s.core id) f →
    (f.mx = 1 → overlap (vmSlotByte f (s.core id)) (vmBytes f) (vmScaleAt f (s.core id)) (vmScales f) = false) →
    Retires (.vst id f) id s nothing (fun t =>
      ∃ x : Store Byte,
        t.core id = { retired (s.core id) with slots := x, aflags := (s.core id).aflags ||| storedFlags (s.core id) f } ∧
        StoredRow (s.core id) f (fun j => (s.core id).slotByte f.slot.toNat (vmSlotByte f (s.core id) + j))
          (fun j => (t.core id).slotByte f.slot.toNat (vmSlotByte f (s.core id) + j)) ∧
        StoredScales (s.core id) f (fun b => (s.core id).slotByte f.slot.toNat (vmScaleAt f (s.core id) + b))
          (fun b => (t.core id).slotByte f.slot.toNat (vmScaleAt f (s.core id) + b)) ∧
        ∀ k, ¬(32768 * f.slot.toNat + vmSlotByte f (s.core id) ≤ k ∧
            k < 32768 * f.slot.toNat + vmSlotByte f (s.core id) + vmBytes f) →
          ¬(32768 * f.slot.toNat + vmScaleAt f (s.core id) ≤ k ∧
            k < 32768 * f.slot.toNat + vmScaleAt f (s.core id) + vmScales f) →
          storeGet x k 0 = storeGet (s.core id).slots k 0)) ∧
  (∀ (id : CoreId) (f : VmemF) (s : State),
    Ready s id → (s.core id).hold = [] → (s.core id).moves = [] → vstLegal f = true → vmFault f true id s (s.core id) = none →
    ¬someActive (s.core id) f →
    Retires (.vst id f) id s nothing (fun t => t.core id = retired (s.core id)))

/-- Vector loads and stores, from memory and from slots (06 R167 to R170). -/
def Obligations.VectorMemoryResults : Prop := claimVectorLoadResults ∧ claimVectorStoreResults

namespace Sys2Proof.Claims
open Sys2Proof.Machine

/-- On shore, with no move outstanding and no pair being refreshed. -/
abbrev Settled (c : Core) : Prop := c.hold = [] ∧ c.moves = [] ∧ c.refT = 0 ∧ c.refR = 0

/-- The exact value of element j of row r of an operand in a slot: its bits, times its block's scale with MX, whose row of scales
begins at the next multiple of 64 bytes after the element rows (03 R91, R93; 06 R172). -/
def operandValue (byte : Nat → Byte) (code rows k : Nat) (mx : Bool) (r j : Nat) : Machine.Num :=
  let x := elemValue code (elemBits code (fun i => byte (r * rowBytes code k + i)) j)
  if mx then numMul x (elemValue 12 (byte (roundUp (rows * rowBytes code k) 64 + r * (k / 32) + j / 32)).toNat) else x

/-- The exact sum of an accumulator value and the products of one slice, from `lo` on. -/
def sliceExact (acc : Machine.Num) (a b : Nat → Machine.Num) (lo n : Nat) : Machine.Num :=
  (List.range n).foldl (fun x j => numAdd false x (numMul (a (lo + j)) (b (lo + j)))) acc

/-- The accumulator element after the first n slices of K: each slice is added exactly and rounded once to XF40 (03 R102, R103). -/
def afterSlices (a b : Nat → Machine.Num) (k slice : Nat) (acc : W40) : Nat → Rounded
  | 0 => ⟨acc.toNat, 0⟩
  | n + 1 =>
    let old := afterSlices a b k slice acc n
    let before := xf40 (BitVec.ofNat 40 old.bits)
    let x := sliceExact before a b (n * slice) (min slice (k - n * slice))
    let r := toXf40 x
    ⟨r.bits, old.flags ||| r.flags |||
      (if x = .nan ∧ before ≠ .nan ∧ (∀ j, j < min slice (k - n * slice) → a (n * slice + j) ≠ .nan ∧ b (n * slice + j) ≠ .nan)
        then 1 else 0)⟩

/-- A block of the operand has the scale 0xFF (MXNAN, 03 R93, R100). -/
def hasNanScale (byte : Nat → Byte) (code rows k : Nat) (mx : Bool) : Bool :=
  mx && (List.range rows).any (fun r => (List.range (k / 32)).any (fun b =>
    byte (roundUp (rows * rowBytes code k) 64 + r * (k / 32) + b) == 0xFF))

/-- The fields of a matrix instruction as counts. -/
def rowsM (f : MmaF) : Nat := f.mm1.toNat + 1
def colsN (f : MmaF) : Nat := f.nm1.toNat + 1
def depthK (f : MmaF) : Nat := f.km1.toNat + 1
/-- The K slice of a pair of formats: the smaller of the two classes' (03 R101). -/
def sliceOf (f : MmaF) : Nat := (pairSlice f.fmta.toNat f.fmtb.toNat).getD 1

/-- Element (row, col) of A · Bᵀ over the tile's old element, or over +0. -/
def product (c : Core) (f : MmaF) (zero : Bool) (row col : Nat) : Rounded :=
  afterSlices (operandValue (c.slotByte f.ba.toNat) f.fmta.toNat (rowsM f) (depthK f) (f.mxa == 1) row)
    (operandValue (c.slotByte f.bb.toNat) f.fmtb.toNat (colsN f) (depthK f) (f.mxb == 1) col) (depthK f) (sliceOf f)
    (if zero then 0 else c.elem f.tile.toNat row col) (ceilDiv (depthK f) (sliceOf f))

/-- Flags of a matrix instruction. -/
def productFlags (c : Core) (f : MmaF) (zero : Bool) : W32 :=
  BitVec.ofNat 32 ((List.range (rowsM f)).foldl (fun a row => (List.range (colsN f)).foldl (fun a col =>
    a ||| (product c f zero row col).flags) a)
    (if hasNanScale (c.slotByte f.ba.toNat) f.fmta.toNat (rowsM f) (depthK f) (f.mxa == 1)
        || hasNanScale (c.slotByte f.bb.toNat) f.fmtb.toNat (colsN f) (depthK f) (f.mxb == 1) then 128 else 0))

/-- The tiles after new values have been written to some elements of tile t: both halves of its pair while speculation is in effect
and the core is on shore (02 R75); everything else stays. -/
abbrev NewTile (c : Core) (t : Nat) (inside : Nat → Nat → Bool) (value : Nat → Nat → Nat) (x : Store W40) : Prop :=
  ∀ u row col, row < 128 → col < 128 → storeGet x (tileKey u row col) 0 =
    if (u = t ∨ (c.specOn = true ∧ u = t + 6)) ∧ inside row col = true then BitVec.ofNat 40 (value row col)
    else storeGet c.tiles (tileKey u row col) 0

/-- The matrix instructions: whether the tile's old elements are left out. -/
inductive MmaRow : Instr → CoreId → MmaF → Bool → Prop where
  | mma (id : CoreId) (f : MmaF) : MmaRow (.mma id f) id f false
  | mmaZ (id : CoreId) (f : MmaF) : MmaRow (.mmaZ id f) id f true

/-- Every unused field of an accumulator-port word but LANE is zero, and A and C name a scalar register and a tile. -/
abbrev PortWord (f : RegF) : Prop := f.a.toNat < 32 ∧ f.c.toNat < 16 ∧ f.b = 0 ∧ f.rm = 0 ∧ f.fmt = 0 ∧ f.rsv = 0

/-- The row of the tile that an accumulator-port instruction works on: (sA + LANE) mod 128. -/
def portRow (f : RegF) (c : Core) : Nat := ((c.s f.a.toNat).toNat + f.lane.toNat) % 128

/-- A lane that AREAD makes, and an element that AWRITE makes. -/
def readLane (c : Core) (f : RegF) (j : Nat) : Rounded := toFp32 rmRNE (f.sat == 1) (xf40 (c.elem f.c.toNat (portRow f c) j))
def writeElem (c : Core) (f : RegF) (j : Nat) : Rounded := toXf40 (fp32 (c.lane f.d.toNat j))

end Sys2Proof.Claims

/-- MMA adds A · Bᵀ to the tile's M × N elements, MMA.Z begins each at +0; the other elements and the slots stay. -/
def Sys2Proof.Claims.claimMatrixResults : Prop :=
  ∀ (i : Instr) (id : CoreId) (f : MmaF) (zero : Bool) (s : State),
    MmaRow i id f zero → Ready s id → Settled (s.core id) → mmaLegal f = true → f.tile.toNat < (s.core id).tileLimit →
    opBytes (mmaA f) ≤ 32768 → opBytes (mmaB f) ≤ 32768 →
    Retires i id s nothing (fun t =>
      ∃ x, NewTile (s.core id) f.tile.toNat (fun r j => decide (r < rowsM f ∧ j < colsN f))
          (fun r j => (product (s.core id) f zero r j).bits) x ∧
        t.core id = { retired (s.core id) with tiles := x, aflags := (s.core id).aflags ||| productFlags (s.core id) f zero })

/-- The accumulator port (06 R173): AREAD narrows a row of the tile to FP32 lanes by RNE (05 R134), AWRITE widens active lanes of vD
into a row, AZERO makes every element +0. -/
def Sys2Proof.Claims.claimAccumulatorPortResults : Prop :=
  (∀ (id : CoreId) (f : RegF) (s : State),
    Ready s id → Settled (s.core id) → PortWord f → f.c.toNat < (s.core id).tileLimit →
    Retires (.aread id f) id s nothing (fun t =>
      ∃ v, NewLanes (s.core id) f (readLane (s.core id) f) v ∧
        t.core id = { retired (s.core id) with
          vreg := v, aflags := (s.core id).aflags ||| activeFlags (s.core id) f.mask (readLane (s.core id) f) })) ∧
  (∀ (id : CoreId) (f : RegF) (s : State),
    Ready s id → Settled (s.core id) → PortWord f → f.sat = 0 → f.zm = 0 → f.c.toNat < (s.core id).tileLimit →
    Retires (.awrite id f) id s nothing (fun t =>
      ∃ x, NewTile (s.core id) f.c.toNat (fun r j => r == portRow f (s.core id) && active (s.core id) f.mask j)
          (fun _ j => (writeElem (s.core id) f j).bits) x ∧
        t.core id = { retired (s.core id) with
          tiles := x, aflags := (s.core id).aflags ||| activeFlags (s.core id) f.mask (writeElem (s.core id) f) })) ∧
  (∀ (id : CoreId) (f : RegF) (s : State),
    Ready s id → Settled (s.core id) → PortWord f → f.d = 0 → f.a = 0 → f.mask = 0 → f.sat = 0 → f.zm = 0 → f.lane = 0 →
    f.c.toNat < (s.core id).tileLimit →
    Retires (.azero id f) id s nothing (fun t =>
      ∃ x, NewTile (s.core id) f.c.toNat (fun _ _ => true) (fun _ _ => 0) x ∧
        t.core id = { retired (s.core id) with tiles := x }))

/-- Products into tiles, and the accumulator port (06 R171 to R173; 05 R134 to R136). -/
def Obligations.MatrixUnitResults : Prop := claimMatrixResults ∧ claimAccumulatorPortResults

namespace Sys2Proof.Claims
open Sys2Proof.Machine

/-- An SFN or SFG word: a listed function, an output class, and the unused fields zero (06 R174). -/
abbrev FunctionWord (fn : BitVec 8) (f : RegF) : Prop :=
  (fn.toNat ≤ 1 ∨ (0x10 ≤ fn.toNat ∧ fn.toNat ≤ 0x16) ∨ (0x40 ≤ fn.toNat ∧ fn.toNat ≤ 0x7F)) ∧ outClass f.fmt.toNat = true ∧
    f.c = 0 ∧ f.lane = 0 ∧ f.rsv = 0

/-- The special-function instructions (07 R181, R190) and the lane each makes. -/
inductive FunctionRow : Instr → CoreId → BitVec 8 → RegF → (State → Core → Nat → Rounded) → Prop where
  | sfn (id : CoreId) (fn : BitVec 8) (f : RegF) (h : f.b = 0) : FunctionRow (.sfn id fn f) id fn f (fun s c i =>
      sfnLane s (coreOwner s id) fn.toNat f.fmt.toNat f.rm.toNat (f.sat == 1) (wordA f c i))
  | sfg (id : CoreId) (fn : BitVec 8) (f : RegF) : FunctionRow (.sfg id fn f) id fn f (fun s c i =>
      sfgLane s (coreOwner s id) fn.toNat f.fmt.toNat f.rm.toNat (f.sat == 1) (wordB f c i) (wordA f c i))

/-- A row-statistics word: the fields no row instruction uses are zero (06 R161, R176). -/
abbrev RowWord (f : RegF) : Prop := f.zm = 0 ∧ f.rsv = 0 ∧ f.c.toNat < 16

/-- The row statistics after new bytes have been written to some rows of block k: both halves of its pair while speculation is in
effect and the core is on shore (02 R75); everything else stays. -/
abbrev NewRows (c : Core) (k : Nat) (inside : Nat → Bool) (value : Nat → List Byte) (x : Store Byte) : Prop :=
  ∀ u r o, r < 128 → o < 32 → storeGet x (rowKey u r o) 0 =
    if (u = k ∨ (c.specOn = true ∧ u = k + 8)) ∧ inside r = true then (value r).getD o 0 else storeGet c.rows (rowKey u r o) 0

/-- Row and lanes that packed sB names (06 R176). -/
def rowIndex (c : Core) (f : RegF) : Nat := packRow (c.s f.b.toNat)
def rowLanes (c : Core) (f : RegF) : List Nat := packLanes c f.mask (c.s f.b.toNat)

/-- The lanes of an SMX that enter: those it names whose score is not at or below −2^120 (07 R207). -/
def scoreLanes (c : Core) (f : RegF) : List Nat := (rowLanes c f).filter (fun j => unmasked (wordA f c j))

/-- The step of the soft maximum on the row that an SMX names. -/
def softOf (c : Core) (f : RegF) : Soft :=
  softStep (c.row f.c.toNat (rowIndex c f)) f.fmt.toNat f.rm.toNat (f.sat == 1) (wordA f c) (scoreLanes c f)

end Sys2Proof.Claims

/-- SFN and SFG put the function's value, gated for SFG, into the active lanes of vD when the function is loaded for the core's
owner. -/
def Obligations.FunctionResults : Prop :=
  ∀ (i : Instr) (id : CoreId) (fn : BitVec 8) (f : RegF) (lane : State → Core → Nat → Rounded) (s : State),
    FunctionRow i id fn f lane → Ready s id → (s.core id).hold = [] → FunctionWord fn f →
    fnPresent s (coreOwner s id) fn.toNat f.fmt.toNat = true →
    Retires i id s nothing (fun t =>
      ∃ v, NewLanes (s.core id) f (lane s (s.core id)) v ∧
        t.core id = { retired (s.core id) with
          vreg := v, aflags := (s.core id).aflags ||| activeFlags (s.core id) f.mask (lane s (s.core id)) })

/-- The special points of the standard functions on an FP32 lane in class FP32 (07 R194, R184): NaN gives NaN; EXP of ±0 is 1, of −∞
+0, of +∞ +∞; RSQRT of ±0 is ±∞ with DIVZERO and of +∞ +0; LOG of ±0 is −∞ with DIVZERO, of +∞ +∞, of a negative number NaN with
INVALID. -/
def Obligations.FunctionPoints : Prop :=
  ∀ (s : State) (rm : Nat) (sat : Bool) (owner : Nat), rm < 4 →
    (∀ fn w, (fn ≤ 1 ∨ (0x10 ≤ fn ∧ fn ≤ 0x16)) → fp32 w = .nan → sfnLane s owner fn 0 rm sat w = ⟨0x7FC00000, 0⟩) ∧
    sfnLane s owner 0x10 0 rm sat 0x00000000 = ⟨0x3F800000, 0⟩ ∧
    sfnLane s owner 0x10 0 rm sat 0x80000000 = ⟨0x3F800000, 0⟩ ∧
    sfnLane s owner 0x10 0 rm sat 0xFF800000 = ⟨0, 0⟩ ∧
    sfnLane s owner 0x10 0 rm sat 0x7F800000 = ⟨0x7F800000, 0⟩ ∧
    sfnLane s owner 0x12 0 rm sat 0x00000000 = ⟨0xFF800000, 2⟩ ∧
    sfnLane s owner 0x12 0 rm sat 0x80000000 = ⟨0xFF800000, 2⟩ ∧
    sfnLane s owner 0x12 0 rm sat 0x7F800000 = ⟨0x7F800000, 0⟩ ∧
    sfnLane s owner 0x12 0 rm sat 0xBF800000 = ⟨0x7FC00000, 1⟩ ∧
    sfnLane s owner 0x16 0 rm sat 0x00000000 = ⟨0x7F800000, 2⟩ ∧
    sfnLane s owner 0x16 0 rm sat 0x80000000 = ⟨0xFF800000, 2⟩ ∧
    sfnLane s owner 0x16 0 rm sat 0x7F800000 = ⟨0, 0⟩

/-- The row-statistics instructions on rows of the right kind: RSW folds the lanes it names into a row by Welford's step, RSC merges
a row by Chan's, RSCLR clears a block, RSRD reads a quantity of every row into the lanes of vD. -/
def Obligations.RowStatisticsResults : Prop :=
  (∀ (id : CoreId) (f : RegF) (s : State),
    Ready s id → Settled (s.core id) → RowWord f → f.b.toNat < 32 → f.d = 0 → f.rm = 0 → f.sat = 0 → f.lane = 0 → f.fmt = 0 →
    f.c.toNat < (s.core id).rowLimit → ((s.core id).row f.c.toNat (rowIndex (s.core id) f)).has rsSoftmax = false →
    ((s.core id).row f.c.toNat (rowIndex (s.core id) f)).count + (rowLanes (s.core id) f).length ≤ 2 ^ 24 →
    Retires (.rsw id f) id s nothing (fun t =>
      ∃ x, NewRows (s.core id) f.c.toNat (fun r => r == rowIndex (s.core id) f)
          (fun _ => rowToBytes (welford ((s.core id).row f.c.toNat (rowIndex (s.core id) f))
            ((rowLanes (s.core id) f).map (wordA f (s.core id))))) x ∧
        t.core id = { retired (s.core id) with rows := x })) ∧
  (∀ (id : CoreId) (f : RegF) (s : State),
    Ready s id → Settled (s.core id) → RowWord f → f.a.toNat < 16 → f.b.toNat < 32 → f.d = 0 → f.mask = 0 → f.rm = 0 → f.sat = 0 →
    f.lane = 0 → f.fmt = 0 → f.c.toNat < (s.core id).rowLimit → f.a.toNat < (s.core id).rowLimit →
    ((s.core id).row f.c.toNat (rowIndex (s.core id) f)).has rsSoftmax = false →
    ((s.core id).row f.a.toNat (rowIndex (s.core id) f)).has rsSoftmax = false →
    ((s.core id).row f.c.toNat (rowIndex (s.core id) f)).count + ((s.core id).row f.a.toNat (rowIndex (s.core id) f)).count
      ≤ 2 ^ 24 →
    Retires (.rsc id f) id s nothing (fun t =>
      ∃ x, NewRows (s.core id) f.c.toNat (fun r => r == rowIndex (s.core id) f)
          (fun _ => rowToBytes (chan ((s.core id).row f.c.toNat (rowIndex (s.core id) f))
            ((s.core id).row f.a.toNat (rowIndex (s.core id) f)))) x ∧
        t.core id = { retired (s.core id) with rows := x })) ∧
  (∀ (id : CoreId) (f : RegF) (s : State),
    Ready s id → Settled (s.core id) → RowWord f → f.a = 0 → f.b = 0 → f.d = 0 → f.mask = 0 → f.rm = 0 → f.sat = 0 → f.lane = 0 →
    f.fmt = 0 → f.c.toNat < (s.core id).rowLimit →
    Retires (.rsclr id f) id s nothing (fun t =>
      ∃ x, NewRows (s.core id) f.c.toNat (fun _ => true) (fun _ => []) x ∧ t.core id = { retired (s.core id) with rows := x })) ∧
  (∀ (id : CoreId) (f : RegF) (s : State),
    Ready s id → Settled (s.core id) → RowWord f → f.a = 0 → f.b = 0 → f.mask = 0 → f.rm = 0 → f.fmt = 0 → f.lane.toNat ≤ 7 →
    f.c.toNat < (s.core id).rowLimit →
    Retires (.rsrd id f) id s nothing (fun t =>
      ∃ v, NewLanes (s.core id) f (fun r => rowQuantity ((s.core id).row f.c.toNat r) f.lane.toNat (f.sat == 1)) v ∧
        t.core id = { retired (s.core id) with
          vreg := v
          aflags := (s.core id).aflags |||
            activeFlags (s.core id) f.mask (fun r => rowQuantity ((s.core id).row f.c.toNat r) f.lane.toNat (f.sat == 1)) }))

/-- The soft maximum: SMX updates one row and puts the exponentials of the scores that enter into vD, +0 in every other lane; SMXF
finishes every row of a block. -/
def Obligations.SoftMaximumResults : Prop :=
  (∀ (id : CoreId) (f : RegF) (s : State),
    Ready s id → Settled (s.core id) → RowWord f → f.b.toNat < 32 → outClass f.fmt.toNat = true → f.lane = 0 →
    f.c.toNat < (s.core id).rowLimit → fnPresent s (coreOwner s id) 0x10 f.fmt.toNat = true →
    ((s.core id).row f.c.toNat (rowIndex (s.core id) f)).has rsStats = false →
    ((s.core id).row f.c.toNat (rowIndex (s.core id) f)).has rsFinished = false →
    Retires (.smx id f) id s nothing (fun t =>
      ∃ x v,
        NewRows (s.core id) f.c.toNat (fun r => r == rowIndex (s.core id) f)
          (fun _ => rowToBytes (softOf (s.core id) f).row) x ∧
        (∀ r j, j < 128 → storeGet v (128 * r + j) 0 =
          if r = f.d.toNat then (softOf (s.core id) f).lanes.getD j 0 else (s.core id).lane r j) ∧
        (∀ j, j < 128 → j ∉ scoreLanes (s.core id) f → (softOf (s.core id) f).lanes.getD j 0 = 0) ∧
        t.core id = { retired (s.core id) with
          rows := x, vreg := v, aflags := (s.core id).aflags ||| BitVec.ofNat 32 (softOf (s.core id) f).flags })) ∧
  (∀ (id : CoreId) (f : RegF) (s : State),
    Ready s id → Settled (s.core id) → RowWord f → f.a = 0 → f.b = 0 → f.d = 0 → f.mask = 0 → f.rm = 0 → f.sat = 0 → f.lane = 0 →
    f.fmt = 0 → f.c.toNat < (s.core id).rowLimit →
    Retires (.smxf id f) id s nothing (fun t =>
      ∃ x, NewRows (s.core id) f.c.toNat (fun _ => true)
          (fun r => rowToBytes (softFinish ((s.core id).row f.c.toNat r))) x ∧
        t.core id = { retired (s.core id) with rows := x }))

namespace Sys2Proof.Claims
open Sys2Proof.Machine

/-- A core event completes on core `id`: nothing else changes but RETIRED and interrupts. -/
def CoreEvent (i : Instr) (id : CoreId) (s : State) (may : Part → Prop) (post : State → Prop) : Prop :=
  Completes i s (also (coreParts id) may) post

/-- A word whose unused fields are zero and that names no register but A and B (PLIST). -/
abbrev PlistWord (f : RegF) : Prop :=
  f.a.toNat < 32 ∧ f.b.toNat < 32 ∧ f.d = 0 ∧ f.c = 0 ∧ f.mask = 0 ∧ f.rm = 0 ∧ f.sat = 0 ∧ f.zm = 0 ∧ f.lane = 0 ∧ f.fmt = 0 ∧
    f.rsv = 0

/-- Counters of the stacks' pages that count bytes moved. -/
abbrev stackTraffic (p : Part) : Prop := ∃ k off, (off = 0x058 ∨ off = 0x05C ∨ off = 0x060 ∨ off = 0x064) ∧ p = .reg (regKey (pgHs k) off)

/-- Bytes of memory in any of these ranges of 64-bit addresses. -/
abbrev bytesOf (rs : List (Nat × Nat)) (p : Part) : Prop := ∃ r ∈ rs, bytesAt (placeBits r.1) r.2 p

/-- Every range reads now: on this chip, not stopped, not waiting for a consignment or a move, correctable. -/
abbrev AllRead (s : State) (c : Core) (rs : List (Nat × Nat)) : Prop :=
  ∀ r ∈ rs, ownChip s r.1 = true ∧ readWaits s c r.1 r.2 = false ∧ shoreBlocked s (placeBits r.1) r.2 = false ∧
    poisoned s (placeBits r.1) r.2 = false

/-- Every range can be written now. -/
abbrev AllWrite (s : State) (c : Core) (rs : List (Nat × Nat)) : Prop :=
  ∀ r ∈ rs, ownChip s r.1 = true ∧ writeWaits s c r.1 r.2 = false ∧ placeResetting s (placeBits r.1) = false ∧
    poisoned s (placeBits r.1) r.2 = false

/-- The entry at INDEX of a launch. -/
def entryAt (s : State) (p : PlistRun) : PEntry := entryOf (s.bytes (placeBits (p.base.toNat + 32 * p.index)) 32)

/-- The launch can run its entry: the core runs, the entry lies where it may be read, has no fault, and nothing holds it. -/
abbrev EntryReady (s : State) (id : CoreId) (p : PlistRun) : Prop :=
  coreOk id = true ∧ (s.core id).plist = some p ∧ p.index < 4096 ∧ running s = true ∧ partState s (coreDie id) = 0 ∧
    (s.core id).state = .running ∧ (s.core id).hold = [] ∧
    coreAccessFault s id (p.base.toNat + 32 * p.index) 32 false = none ∧
    AllRead s (s.core id) ((p.base.toNat + 32 * p.index, 32) :: entryReads (entryAt s p)) ∧
    AllWrite s (s.core id) (entryWrites (entryAt s p)) ∧
    entryFault s id (s.core id) (entryAt s p) = none ∧ scoreboardHolds (s.core id) (entryTouch (entryAt s p)) = false

/-- Byte j of source row r of a move out of memory or out of a slot: +0 past the valid part (08 R213). -/
def moveByte (s : State) (c : Core) (m : MoveJob) (r j : Nat) : Byte :=
  if r < readRows m ∧ j < readBytes m then
    (if m.sk = 0 then s.byte (placeBits (moveSrcRow m r) + j)
      else c.slotByte (slotNo m.src) (slotOff m.src + r * moveRowBytes m + j))
  else 0

/-- The move can complete on core `id`: it is the n-th outstanding, its core is on shore, and its memory is on this chip, neither
stopped nor held nor uncorrectable. -/
abbrev MoveEnds (s : State) (id : CoreId) (n : Nat) (m : MoveJob) : Prop :=
  coreOk id = true ∧ running s = true ∧ partState s (coreDie id) = 0 ∧ (s.core id).hold = [] ∧ m.sea = false ∧
    nth (s.core id).moves n = some m ∧ moveHeld s (s.core id) m = false ∧ m.sk.toNat ≤ 2 ∧
    (∀ r ∈ moveSrcRanges m, ownChip s r.1 = true ∧ onePlace (placeBits r.1) r.2 = true ∧ poisoned s (placeBits r.1) r.2 = false)

end Sys2Proof.Claims

/-- PLIST of no entry retires at once; of more it begins a launch, and PC stays at it. -/
def Sys2Proof.Claims.claimPlistBegins : Prop :=
  ∀ (id : CoreId) (f : RegF) (s : State),
    Ready s id → (s.core id).hold = [] → PlistWord f → ((s.core id).s f.a.toNat).toNat % 32 = 0 →
    CoreEvent (.plist id f) id s nothing (fun t =>
      ((s.core id).s f.b.toNat = 0 → t.core id = retired (s.core id)) ∧
      ((s.core id).s f.b.toNat ≠ 0 → t.core id = { s.core id with
        wait := 0, waitOn := []
        plist := some { base := (s.core id).s f.a.toNat, count := ((s.core id).s f.b.toNat).toNat, index := 0 } }))

/-- An entry of a launch loads its two operands into their slots, runs its product, stores the tile if it asks for it, and the
launch goes on to the next entry or PLIST retires with its last; memory changes only where the entry stores. -/
def Sys2Proof.Claims.claimPlistEntryResults : Prop :=
  ∀ (id : CoreId) (p : PlistRun) (s : State),
    EntryReady s id p →
    CoreEvent (.plistEntry id) id s (also stackTraffic (also (bytesOf (entryWrites (entryAt s p))) (parts [.moves]))) (fun t =>
      (p.index + 1 < p.count → (t.core id).plist = some { p with index := p.index + 1 } ∧ (t.core id).pc = (s.core id).pc) ∧
      (p.count ≤ p.index + 1 → (t.core id).plist = none ∧ (t.core id).pc = (s.core id).pc + 8 ∧
        t.rd64 (corePage id) 0x080 = s.rd64 (corePage id) 0x080 + 1) ∧
      (t.core id).sreg = (s.core id).sreg ∧ (t.core id).vreg = (s.core id).vreg ∧ (t.core id).mreg = (s.core id).mreg ∧
      (t.core id).rows = (s.core id).rows ∧
      (∀ b o, b < 16 → o < 32768 → b ≠ (entryAt s p).slota → b ≠ (entryAt s p).slotb →
        (t.core id).slotByte b o = (s.core id).slotByte b o) ∧
      (∀ r j, r < (entryAt s p).m → j < rowBytes (entryAt s p).fmta (entryAt s p).k →
        (t.core id).slotByte (entryAt s p).slota (r * rowBytes (entryAt s p).fmta (entryAt s p).k + j) =
          s.byte (placeBits ((entryAt s p).a + r * (entryAt s p).aPitch) + j)) ∧
      (∀ r j, r < (entryAt s p).n → j < rowBytes (entryAt s p).fmtb (entryAt s p).k →
        (t.core id).slotByte (entryAt s p).slotb (r * rowBytes (entryAt s p).fmtb (entryAt s p).k + j) =
          s.byte (placeBits ((entryAt s p).b + r * (entryAt s p).bPitch) + j)))

/-- A MOVE of a shape with bytes becomes one of at most eight outstanding moves, with its register values as they are at issue; one of
an empty shape retires without. MOVE_DONE takes the move off the list and copies its rows, zeros past their valid part, into the
slot, or into memory, and changes nothing else there. MWAIT
retires when at most n moves are outstanding. -/
def Obligations.MoveResults : Prop :=
  (∀ (id : CoreId) (f : MoveF) (s : State),
    Ready s id → (s.core id).hold = [] → moveLegal f = true → moveFault f id s (s.core id) = none →
    moveBlock f s (s.core id) = none → scoreboardHolds (s.core id) (moveTouch f (s.core id)) = false →
    (∀ r ∈ moveSrcPlaces s (moveJob f (s.core id)), landingsAt s r.1 r.2 = []) →
    Retires (.move id f) id s nothing (fun t =>
      t.core id = { retired (s.core id) with
        moves := if moveEmpty (moveJob f (s.core id)) then (s.core id).moves
          else (s.core id).moves ++ [moveJob f (s.core id)] })) ∧
  (∀ (id : CoreId) (n : Fin 8) (m : MoveJob) (s : State),
    MoveEnds s id n.val m → m.dk = 1 → slotOff m.dst + moveRows m * moveRowBytes m ≤ 32768 →
    CoreEvent (.moveDone id n) id s stackTraffic (fun t =>
      ∃ x fl, t.core id = { s.core id with
          moves := (s.core id).moves.eraseIdx n.val, slots := x, aflags := (s.core id).aflags ||| fl } ∧
        (∀ b o, b < 16 → o < 32768 →
          ¬(b = slotNo m.dst ∧ slotOff m.dst ≤ o ∧ o < slotOff m.dst + moveRows m * moveRowBytes m) →
          storeGet x (32768 * b + o) 0 = (s.core id).slotByte b o) ∧
        (m.sk ≠ 2 → fl = 0 ∧ ∀ r j, r < moveRows m → j < moveRowBytes m →
          storeGet x (32768 * slotNo m.dst + (slotOff m.dst + r * moveRowBytes m + j)) 0 = moveByte s (s.core id) m r j))) ∧
  (∀ (id : CoreId) (n : Fin 8) (m : MoveJob) (s : State),
    MoveEnds s id n.val m → m.dk = 0 →
    (∀ r ∈ moveDstRanges m, ownChip s r.1 = true ∧ onePlace (placeBits r.1) r.2 = true ∧ placeResetting s (placeBits r.1) = false ∧
      poisoned s (placeBits r.1) r.2 = false) →
    CoreEvent (.moveDone id n) id s (also stackTraffic (also (bytesOf (moveDstRanges m)) (parts [.moves]))) (fun t =>
      ∃ fl, t.core id = { s.core id with
          moves := (s.core id).moves.eraseIdx n.val, aflags := (s.core id).aflags ||| fl } ∧
        (m.sk ≠ 2 → (∀ r r', r < moveRows m → r' < moveRows m → r ≠ r' →
            overlap (placeBits (moveDstRow m r)) (moveRowBytes m) (placeBits (moveDstRow m r')) (moveRowBytes m) = false) →
          fl = 0 ∧ ∀ r j, r < moveRows m → j < moveRowBytes m →
            t.byte (placeBits (moveDstRow m r) + j) = moveByte s (s.core id) m r j))) ∧
  (∀ (id : CoreId) (f : ImmF) (s : State),
    Ready s id → f.d = 0 → f.a = 0 → f.b = 0 → f.rsv = 0 → f.imm.toNat < 16 → (s.core id).moves.length ≤ f.imm.toNat →
    Retires (.mwait id f) id s nothing (fun t => t.core id = retired (s.core id)))

/-- PLIST and the entries of its launch (06 R173; 08 R212 to R226). -/
def Obligations.PlistResults : Prop := claimPlistBegins ∧ claimPlistEntryResults

namespace Sys2Proof.Claims
open Sys2Proof.Machine

/-- An IMM word with every field zero. -/
abbrev BareWord (f : ImmF) : Prop := f.d = 0 ∧ f.a = 0 ∧ f.b = 0 ∧ f.rsv = 0 ∧ f.imm = 0

/-- The words of a page that an event changes, and the logbook. -/
abbrev eventParts (page : Nat) : Part → Prop :=
  parts [.reg (regKey page 0x010), .reg (regKey page 0x01C), .reg (regKey page 0x020), .reg (regKey page 0x024), .log]

/-- An EVT bit of a page has been set, and the others are as they were (17 R438). -/
abbrev EventSet (s t : State) (page bit : Nat) : Prop := t.rd page 0x010 = s.rd page 0x010 ||| BitVec.ofNat 32 (2 ^ bit)

/-- A bollard of a cluster, and the claim of it that a core holds (08 R227, R229). -/
abbrev bollardParts (id : CoreId) (b : Nat) : Part → Prop :=
  parts [.reg (regKey (pgCl (coreCluster id)) (0x800 + 4 * b)), .reg (regKey (corePage id) (0x800 + 4 * b)),
    .reg (regKey (corePage id) 0x900), .reg (regKey (corePage id) 0x904)]

/-- The host writes a register word and the page takes it: the PCIe link is up and no rule of 17 R432 to R436 and R441 drops or refuses
the write. -/
abbrev HostTakes (s : State) (page off : Nat) (a : Access) : Prop := hostUp s = true ∧ writeGate s page off a = .take

/-- The monitor of core `id` issues its next instruction (05 R151, R180). -/
abbrev MonitorRuns (s : State) (id : CoreId) : Prop :=
  coreOk id = true ∧ running s = true ∧ partState s (coreDie id) = 0 ∧ (s.core id).state = .monitor

/-- A command in a state that does not accept it: START outside OFF, STOPPED and FAULTED, STOP outside RUNNING, RESUME outside STOPPED
and a FAULTED that is precise (05 R144 to R147). -/
inductive NotAccepted (s : State) (id : CoreId) (a : Access) : Instr → Prop where
  | start (h : a.data = 1) (h1 : (s.core id).state ≠ .off) (h2 : (s.core id).state ≠ .stopped) (h3 : (s.core id).state ≠ .faulted) :
      NotAccepted s id a (.start id a)
  | stop (h : a.data = 2) (h1 : (s.core id).state ≠ .running) : NotAccepted s id a (.stop id a)
  | resume (h : a.data = 4) (h1 : (s.core id).state ≠ .stopped)
      (h2 : (s.core id).state ≠ .faulted ∨ s.bit ⟨corePage id, 0x060, 13, 1⟩ = true) : NotAccepted s id a (.resume id a)

/-- What a command on a core's page may change besides its core. -/
abbrev corePageParts (id : CoreId) : Part → Prop := also (parts [.core id.toNat, .signals]) (eventParts (corePage id))

end Sys2Proof.Claims

/-- BADD (08 R227 to R229): sD takes the bollard's old value, the bollard gains the low half of sB modulo 2^32, and a nonzero amount is
recorded as the core's claim: the old value, and the bollard's bit of the claim mask. -/
def Obligations.BollardAddResults : Prop :=
  ∀ (id : CoreId) (f : ImmF) (s : State),
    Ready s id → (s.core id).hold = [] → (s.core id).moves = [] → f.d.toNat < 32 → f.a = 0 → f.b.toNat < 32 → f.rsv = 0 →
    f.imm.toNat < 64 →
    Retires (.badd id f) id s (bollardParts id f.imm.toNat) (fun t =>
      t.core id = (retired (s.core id)).setS f.d.toNat ((bollard s (coreCluster id) f.imm.toNat).setWidth 64) ∧
      bollard t (coreCluster id) f.imm.toNat =
        bollard s (coreCluster id) f.imm.toNat + ((s.core id).s f.b.toNat).setWidth 32 ∧
      (if ((s.core id).s f.b.toNat).setWidth 32 = (0 : W32) then
          t.rd (corePage id) (0x800 + 4 * f.imm.toNat) = s.rd (corePage id) (0x800 + 4 * f.imm.toNat) ∧
            t.rd64 (corePage id) 0x900 = s.rd64 (corePage id) 0x900
        else t.rd (corePage id) (0x800 + 4 * f.imm.toNat) = bollard s (coreCluster id) f.imm.toNat ∧
            t.rd64 (corePage id) 0x900 = s.rd64 (corePage id) 0x900 ||| BitVec.ofNat 64 (2 ^ f.imm.toNat)))

/-- Tide waits (05 R138, R140): TWAIT on a reached tide retires, on one that lies ahead the core begins to wait for it with PC at the
TWAIT; TIDE_WAIT_DONE ends the wait when the tide is reached; RDTIDE reads the local tide. -/
def Obligations.TideWaitResults : Prop :=
  (∀ (id : CoreId) (f : ImmF) (s : State),
    Ready s id → f.d = 0 → f.a.toNat < 32 → f.b = 0 → f.rsv = 0 → tideCase s (address (s.core id) f) = .reached → tideRuns s = true →
    Retires (.twait id f) id s nothing (fun t => t.core id = retired (s.core id))) ∧
  (∀ (id : CoreId) (f : ImmF) (s : State),
    Ready s id → f.d = 0 → f.a.toNat < 32 → f.b = 0 → f.rsv = 0 → tideCase s (address (s.core id) f) = .ahead →
    CoreEvent (.twait id f) id s nothing (fun t =>
      t.core id = { s.core id with wait := 2, waitOn := [], twait := some (address (s.core id) f) })) ∧
  (∀ (id : CoreId) (w : W64) (s : State),
    coreOk id = true → running s = true → partState s (coreDie id) = 0 → (s.core id).state = .running →
    (s.core id).twait = some w → tideRuns s = true → tideReached s.now w = true →
    Retires (.tideWaitDone id) id s nothing (fun t => t.core id = { retired (s.core id) with twait := none })) ∧
  (∀ (id : CoreId) (f : ImmF) (s : State),
    Ready s id → f.d.toNat < 32 → f.a = 0 → f.b = 0 → f.rsv = 0 → f.imm = 0 →
    Retires (.rdtide id f) id s nothing (fun t => t.core id = (retired (s.core id)).setS f.d.toNat s.tide.now))

/-- CONFIRM, FENCE and SYNCI on shore with no move outstanding (05 R125, R131, R141) only retire, but that SYNCI empties the fetch
queue. RDFL reads the flag word, WRFL writes its bits [7:0] (05 R143). -/
def Sys2Proof.Claims.claimSynchronisationResults : Prop :=
  (∀ (id : CoreId) (f : ImmF) (s : State), Ready s id → (s.core id).hold = [] → BareWord f →
    Retires (.confirm id f) id s nothing (fun t => t.core id = retired (s.core id))) ∧
  (∀ (id : CoreId) (f : ImmF) (s : State), Ready s id → (s.core id).moves = [] → BareWord f →
    Retires (.fence id f) id s nothing (fun t => t.core id = retired (s.core id))) ∧
  (∀ (id : CoreId) (f : ImmF) (s : State), Ready s id → (s.core id).moves = [] → BareWord f →
    Retires (.synci id f) id s nothing (fun t => t.core id = { retired (s.core id) with fetchq := [] })) ∧
  (∀ (id : CoreId) (f : ImmF) (s : State),
    Ready s id → (s.core id).hold = [] → (s.core id).moves = [] → f.d.toNat < 32 → f.a = 0 → f.b = 0 → f.rsv = 0 → f.imm = 0 →
    Retires (.rdfl id f) id s nothing (fun t =>
      t.core id = (retired (s.core id)).setS f.d.toNat ((s.core id).aflags.setWidth 64))) ∧
  (∀ (id : CoreId) (f : ImmF) (s : State),
    Ready s id → (s.core id).hold = [] → (s.core id).moves = [] → f.d = 0 → f.a.toNat < 32 → f.b = 0 → f.rsv = 0 → f.imm = 0 →
    Retires (.wrfl id f) id s nothing (fun t =>
      t.core id = { retired (s.core id) with aflags := ((s.core id).s f.a.toNat).setWidth 32 &&& 0xFF }))

/-- HALT leaves the core STOPPED and raises bit 0 of its page; SIGNAL puts its number into the page and raises bit 3 (05 R148). -/
def Sys2Proof.Claims.claimHaltAndSignal : Prop :=
  (∀ (id : CoreId) (f : ImmF) (s : State),
    Ready s id → (s.core id).hold = [] → (s.core id).moves = [] → BareWord f →
    Retires (.halt id f) id s (eventParts (corePage id)) (fun t =>
      t.core id = { retired (s.core id) with state := .stopped } ∧ EventSet s t (corePage id) 0)) ∧
  (∀ (id : CoreId) (f : ImmF) (s : State),
    Ready s id → (s.core id).hold = [] → (s.core id).moves = [] → f.d = 0 → f.a = 0 → f.b = 0 → f.rsv = 0 → f.imm.toNat < 65536 →
    Retires (.signal id f) id s (also (parts [.reg (regKey (corePage id) 0x070)]) (eventParts (corePage id))) (fun t =>
      t.core id = retired (s.core id) ∧ EventSet s t (corePage id) 3 ∧ t.rd (corePage id) 0x070 = f.imm))

/-- The monitor's instructions (05 R151; 06 R180) leave the core's scalar registers, vectors and flags as they are: MRET leaves MONITOR
for the state that STATUS names, MCSR reads a word of the core's page into the monitor's register D and, with B = 1, writes register A
into it, MLOG queues an entry of the logbook, MTBL moves tables that the model holds once (log 52). -/
def Sys2Proof.Claims.claimMonitorResults : Prop :=
  (∀ (id : CoreId) (f : ImmF) (x : CoreState) (s : State),
    MonitorRuns s id → BareWord f → coreStateOf (s.get ⟨corePage id, 0x00C, 0, 3⟩) = some x →
    Completes (.mret id f) s (parts [.core id.toNat, .signals]) (fun t => t.core id = { s.core id with state := x })) ∧
  (∀ (id : CoreId) (f : ImmF) (s : State),
    MonitorRuns s id → f.d.toNat < 32 → f.a.toNat < 32 → f.b = 0 → f.rsv = 0 → f.imm.toNat < 4096 → f.imm.toNat % 4 = 0 →
    (rowAt (corePage id) f.imm.toNat).isSome = true →
    Completes (.mcsr id f) s (parts [.core id.toNat, .signals]) (fun t =>
      t.core id = (s.core id).setMon f.d.toNat ((coreWord s id f.imm.toNat).setWidth 64))) ∧
  (∀ (id : CoreId) (f : ImmF) (s : State),
    MonitorRuns s id → f.d.toNat < 32 → f.a.toNat < 32 → f.b = 1 → f.rsv = 0 → f.imm.toNat = 0x06C →
    Completes (.mcsr id f) s (parts [.core id.toNat, .signals]) (fun t =>
      t.core id = { (s.core id).setMon f.d.toNat ((s.core id).aflags.setWidth 64) with
        aflags := ((s.core id).mon f.a.toNat).setWidth 32 &&& 0xFF })) ∧
  (∀ (id : CoreId) (f : ImmF) (s : State),
    MonitorRuns s id → f.d.toNat < 32 → f.a.toNat < 32 → f.b.toNat < 32 → f.rsv = 0 → f.imm = 0 → queuedOf s (corePage id) < 64 →
    Completes (.mlog id f) s (parts [.log, .signals]) (fun t =>
      ∃ e, t.log = { s.log with queue := s.log.queue ++ [e] } ∧
        e.code = ((s.core id).mon f.a.toNat).setWidth 16 ∧ e.source = BitVec.ofNat 14 (corePage id) ∧ e.kind = 1 ∧
        e.tide = s.stamp ∧ e.d1 ++ e.d0 = (s.core id).mon f.b.toNat ∧ e.d3 ++ e.d2 = (s.core id).mon f.d.toNat)) ∧
  (∀ (id : CoreId) (f : ImmF) (s : State),
    MonitorRuns s id → f.d = 0 → f.a.toNat < 32 → f.b = 0 → f.rsv = 0 → f.imm = 0 →
    Completes (.mtbl id f) s (parts [.core id.toNat, .signals]) (fun t =>
      (t.core id).sreg = (s.core id).sreg ∧ (t.core id).vreg = (s.core id).vreg ∧ (t.core id).aflags = (s.core id).aflags ∧
        (t.core id).state = .monitor))

/-- A monitor instruction on a core that is running takes fault 0x1005 (06 R180). -/
def Sys2Proof.Claims.claimMonitorWordFaults : Prop :=
  ∀ (i : Instr) (id : CoreId) (f : ImmF) (s : State),
    (i = .mret id f ∨ i = .mlog id f ∨ i = .mtbl id f) → Ready s id → (s.core id).hold = [] → BareWord f →
    exec i s = .next (signal (takeFault s id (s.core id).pc { code := 0x1005 } false))

/-- START, STOP, RESUME and what they lead to (05 R144 to R148): START from OFF, STOPPED or FAULTED sets PC to the entry address,
s1 to the argument, s2 to the core id, s3 to the node id, every other scalar register and every mask register to zero, the flags to
zero; STOP makes a running core STOPPING; STOPPED follows once nothing is outstanding, with bit 1 of the page; RESUME lets a stopped
core, or one that faulted precisely, run on. In any other state each is ignored, but for EVT.REFUSED and 0x1007. -/
def Obligations.CoreCommandResults : Prop :=
  (∀ (id : CoreId) (a : Access) (s : State),
    coreOk id = true → HostTakes s (corePage id) 0x008 a → a.data = 1 → coreQuiet (s.core id) = true → stageReady s = true →
    Completes (.start id a) s (fun p => p = .core id.toNat ∨ p = .signals ∨ p = .reg (regKey (corePage id) 0x900) ∨
        p = .reg (regKey (corePage id) 0x904) ∨ ∃ b, b < 64 ∧ p = .reg (regKey (corePage id) (0x800 + 4 * b))) (fun t =>
      (t.core id).state = .running ∧ (t.core id).pc = s.rd64 (corePage id) 0x040 &&& ~~~7 ∧
      (∀ r, r < 32 → (t.core id).s r = if r = 1 then s.rd64 (corePage id) 0x048 else if r = 2 then id.setWidth 64
        else if r = 3 then BitVec.ofNat 64 (nodeId s) else 0) ∧
      (∀ r, r ≠ 0 → (t.core id).mask r = 0) ∧ (t.core id).aflags = 0 ∧ (t.core id).vreg = (s.core id).vreg ∧
      (t.core id).tiles = (s.core id).tiles ∧ (t.core id).slots = (s.core id).slots ∧ (t.core id).rows = (s.core id).rows ∧
      t.rd64 (corePage id) 0x900 = 0)) ∧
  (∀ (id : CoreId) (a : Access) (s : State),
    coreOk id = true → HostTakes s (corePage id) 0x008 a → a.data = 2 → (s.core id).state = .running → (s.core id).redo = none →
    Completes (.stop id a) s (parts [.core id.toNat, .signals]) (fun t =>
      t.core id = { s.core id with state := .stopping, twait := none, wait := 0, waitOn := [] })) ∧
  (∀ (id : CoreId) (s : State),
    coreOk id = true → running s = true → (s.core id).state = .stopping → (s.core id).moves = [] → (s.core id).hold = [] →
    (s.core id).plist = none →
    Completes (.stopped id) s (corePageParts id) (fun t =>
      t.core id = { s.core id with state := .stopped, wait := 0, waitOn := [], redo := none } ∧ EventSet s t (corePage id) 1)) ∧
  (∀ (id : CoreId) (a : Access) (s : State),
    coreOk id = true → HostTakes s (corePage id) 0x008 a → a.data = 4 →
    ((s.core id).state = .stopped ∨ (s.core id).state = .faulted ∧ s.bit ⟨corePage id, 0x060, 13, 1⟩ = false) →
    Completes (.resume id a) s (parts [.core id.toNat, .signals]) (fun t =>
      t.core id = { s.core id with state := .running, wait := 0, waitOn := [] })) ∧
  (∀ (i : Instr) (id : CoreId) (a : Access) (s : State),
    NotAccepted s id a i → coreOk id = true → HostTakes s (corePage id) 0x008 a →
    Completes i s (also (parts [.signals]) (eventParts (corePage id))) (fun t =>
      t.core id = s.core id ∧ EventSet s t (corePage id) 4 ∧
        (s.get ⟨corePage id, 0x01C, 0, 16⟩ = 0 → t.get ⟨corePage id, 0x01C, 0, 16⟩ = 0x1007)))

/-- A data error (05 R152) on shore: the core enters MONITOR with the reading instruction's PC, its data address, code 0x1006, marked
imprecise; the stack counts an uncorrectable read. -/
def Sys2Proof.Claims.claimDataErrorTaken : Prop :=
  ∀ (id : CoreId) (pc addr : W64) (s : State),
    coreOk id = true → running s = true → takesError (s.core id) = true → (s.core id).hold = [] → (s.core id).seaFault = none →
    ownChip s addr.toNat = true → poisoned s (placeBits addr.toNat) 1 = true →
    Completes (.dataError id pc addr) s (also (corePageParts id) (fun p => p = .reg (regKey (corePage id) 0x00C) ∨
        (∃ o, 0x058 ≤ o ∧ o < 0x06C ∧ p = .reg (regKey (corePage id) o)) ∨
        ∃ k, eventParts (pgHs k) p ∨ p = .reg (regKey (pgHs k) 0x044))) (fun t =>
      (t.core id).state = .monitor ∧ t.rd64 (corePage id) 0x058 = pc ∧ t.rd64 (corePage id) 0x064 = addr ∧
      t.bit ⟨corePage id, 0x060, 13, 1⟩ = true ∧ EventSet s t (corePage id) 2 ∧
      (t.core id).sreg = (s.core id).sreg ∧ (t.core id).vreg = (s.core id).vreg ∧ (t.core id).tiles = (s.core id).tiles)

/-- Taking a fault (05 R151): the core enters MONITOR; FAULT_PC, FAULT_INFO and FAULT_ADDR tell what faulted; EVT.FAULT is set; the
core's registers, slots, tiles and flags keep their values, and nothing else changes. -/
def Sys2Proof.Claims.claimFaultTaken : Prop :=
  ∀ (id : CoreId) (pc : W64) (r : FaultRec) (imprecise : Bool) (s : State),
    r.addr < 2 ^ 64 →
    let t := takeFault s id pc r imprecise
    (t.core id).state = .monitor ∧ t.rd64 (corePage id) 0x058 = pc ∧ t.rdN (corePage id) 0x060 = faultInfo r imprecise ∧
      (t.rd64 (corePage id) 0x064).toNat = r.addr ∧ EventSet s t (corePage id) 2 ∧
      (s.get ⟨corePage id, 0x01C, 0, 16⟩ = 0 → r.code ≠ 0 → r.code < 65536 → t.get ⟨corePage id, 0x01C, 0, 16⟩ = r.code) ∧
      (t.core id).pc = (s.core id).pc ∧ (t.core id).sreg = (s.core id).sreg ∧ (t.core id).vreg = (s.core id).vreg ∧
      (t.core id).mreg = (s.core id).mreg ∧ (t.core id).tiles = (s.core id).tiles ∧ (t.core id).rows = (s.core id).rows ∧
      (t.core id).slots = (s.core id).slots ∧ (t.core id).aflags = (s.core id).aflags ∧
      Changes s t (also (corePageParts id) (fun p => p = .reg (regKey (corePage id) 0x00C) ∨
        ∃ o, 0x058 ≤ o ∧ o < 0x06C ∧ p = .reg (regKey (corePage id) o)))

/-- The system instructions (06 R179). -/
def Obligations.SystemResults : Prop := claimSynchronisationResults ∧ claimHaltAndSignal

/-- The monitor's instructions, in MONITOR and outside it (05 R151; 06 R180). -/
def Obligations.MonitorInstructionResults : Prop := claimMonitorResults ∧ claimMonitorWordFaults

/-- Taking a fault, and a data error (05 R151, R152). -/
def Obligations.FaultsTaken : Prop := claimDataErrorTaken ∧ claimFaultTaken

namespace Sys2Proof.Claims
open Sys2Proof.Machine

/-- The commands of a table complete: for each row, in every state that meets its conditions, exec answers a next state that the row
describes, and only the parts of the state that the row names have changed. -/
def Rows (table : State → Instr → (Part → Prop) → (State → Prop) → Prop) : Prop :=
  ∀ (s : State) (i : Instr) (may : Part → Prop) (post : State → Prop), table s i may post → Completes i s may post

/-- Register words of a page, and interrupts that are signalled. -/
abbrev words (page : Nat) (offs : List Nat) (p : Part) : Prop := p = .signals ∨ ∃ o ∈ offs, p = .reg (regKey page o)

/-- Words of a page, and an event of that page. -/
abbrev wordsAndEvent (page : Nat) (offs : List Nat) : Part → Prop := also (words page offs) (eventParts page)

/-- The closing of debug access (19 R478): DEBUG.STATUS, OBS_SEL, an event of the page, the TAP, the pending RESPOND. -/
abbrev debugCloses : Part → Prop := also (wordsAndEvent pgDebug [0x00C, 0x0C0]) (parts [.debug, .tap])

/-- The EVT bits of `bits` have been set, and the others are as they were. -/
abbrev EventsSet (s t : State) (page : Nat) (bits : W32) : Prop := t.rd page 0x010 = s.rd page 0x010 ||| bits

/-- Every trained link but one has sent these bytes. -/
abbrev Flooded (s t : State) (bytes : List Byte) (skip : Option Nat) : Prop :=
  ∀ n, n < 16 → trained s n = true → some n ≠ skip → Out.beacon n bytes ∈ t.out

/-- A usable upstream beacon of a chip that is not the root, and no news of a stand: a new STAND_SEQ that no stand goes with is only
recorded (01 R33, R35, R45). -/
abbrev Upstream (s : State) (link : Nat) (bytes : List Byte) (b : BeaconMsg) : Prop :=
  running s = true ∧ beaconOf bytes = some b ∧ bytes.length = 40 ∧ s.bit fRun = true ∧ isRoot s = false ∧ usable s link b = true ∧
    (seqIsNew s b.seq = false ∨ b.pending = false ∧ b.standing = false) ∧
    (s.bit fUpstreamValid = true ∧ s.get fUpstream = link
      ∨ s.bit fUpstreamValid = false ∧ s.tide.heard = [] ∧ s.tide.follow = none)

/-- STAND_SEQ takes a number that is new (01 R45). -/
abbrev SeqRecorded (s t : State) (b : BeaconMsg) : Prop :=
  t.get fStandSeq = if seqIsNew s b.seq then b.seq.toNat else s.get fStandSeq

/-- The tide's commands (01_tide): what each leaves. -/
inductive TideRow (s : State) : Instr → (Part → Prop) → (State → Prop) → Prop where
  /-- RUN starts a chip that is not the root: it acquires (R38). -/
  | run (a : Access) (h : HostTakes s pgTide 0x008 a) (h1 : a.data.getLsbD 0 = true) (h2 : a.data.getLsbD 1 = false)
      (h3 : s.bit fRun = false) (h4 : isRoot s = false) :
      TideRow s (.run a) (words pgTide [0x008, 0x00C]) (fun t =>
        t.bit fRun = true ∧ isRoot t = false ∧ tideState t = 1 ∧ t.bit fUseRef = a.data.getLsbD 2 ∧
          t.get fSlewMax = min 200 (max 1 (a.data.toNat / 256 % 256)))
  /-- RUN starts the root: it takes no hops, no upstream, its own id and no correction; it loads INIT at a TIDE_SYNC edge or 16 tide
  clocks later (R24 to R26). -/
  | runRoot (a : Access) (h : HostTakes s pgTide 0x008 a) (h1 : a.data.getLsbD 0 = true) (h2 : a.data.getLsbD 1 = true)
      (h3 : s.bit fRun = false) :
      TideRow s (.run a) (also (words pgTide [0x008, 0x00C, 0x078, 0x084]) (parts [.tide])) (fun t =>
        t.bit fRun = true ∧ isRoot t = true ∧ t.get fHops = 0 ∧ t.bit fUpstreamValid = false ∧ t.tide.corr = 0 ∧
          t.get ⟨pgTide, 0x084, 0, 16⟩ = nodeId s ∧
          (if a.data.getLsbD 2 = true ∧ s.bit fRefPresent = true then tideState t = 5 ∧ t.tide.loadOnSync = true
            else tideState t = 6 ∧ t.tide.loadAt = some (s.tide.clock + 16)))
  /-- ROOT is set before RUN: nothing follows yet (R24). -/
  | root (a : Access) (h : HostTakes s pgTide 0x008 a) (h1 : a.data.getLsbD 0 = false) (h2 : a.data.getLsbD 1 = true)
      (h3 : s.bit fRun = false) (h4 : isRoot s = false) (h5 : tideState s ≠ 5) (h6 : tideState s ≠ 6) :
      TideRow s (.root a) (words pgTide [0x008]) (fun t => isRoot t = true ∧ t.bit fRun = false)
  /-- ROOT is set in HOLDOVER or LOST: the chip becomes the root and keeps its tide (R30). -/
  | takesOver (a : Access) (h : HostTakes s pgTide 0x008 a) (h2 : a.data.getLsbD 1 = true) (h3 : s.bit fRun = true)
      (h4 : isRoot s = false) (h5 : tideState s = 3 ∨ tideState s = 4) :
      TideRow s (.root a) (also (words pgTide [0x008, 0x00C, 0x078, 0x084]) (parts [.tide, .log])) (fun t =>
        isRoot t = true ∧ t.get fHops = 0 ∧ t.bit fUpstreamValid = false ∧ t.get ⟨pgTide, 0x084, 0, 16⟩ = nodeId s ∧
          tideState t = (if a.data.getLsbD 2 = true ∧ s.bit fRefPresent = true then 5 else 6) ∧ t.tide.corr = 0 ∧
          t.tide.now = s.tide.now ∧ t.tide.frac = s.tide.frac)
  /-- A change of ROOT in any other state is refused (R30). -/
  | rootRefused (a : Access) (h : HostTakes s pgTide 0x008 a) (h2 : a.data.getLsbD 1 ≠ isRoot s) (h3 : s.bit fRun = true)
      (h4 : tideState s ≠ 3) (h5 : tideState s ≠ 4) :
      TideRow s (.root a) (wordsAndEvent pgTide []) (fun t => EventSet s t pgTide 8)
  /-- INIT is loaded: the tide is INIT and valid (R26). -/
  | initLoad (h : initDue s = true) :
      TideRow s .initLoad (also (also (words pgTide [0x00C]) (parts [.tide])) debugCloses) (fun t =>
        t.tide.now = s.rd64 pgTide 0x048 ∧ t.tide.frac = 0 ∧ t.tideValid = true)
  /-- A TIDE_SYNC edge: a tide within one tick of its 2^20 grid stands as it is; another is slewed towards it and reported (R27). -/
  | tideSync (h : running s = true) (h1 : isRoot s = true) (h2 : s.tideValid = true) (h3 : s.tide.loadOnSync = false) :
      TideRow s .tideSync (also (wordsAndEvent pgTide [0x00C, 0x078]) (parts [.tide])) (fun t =>
        t.bit fRefPresent = true ∧ t.tide.syncRun = s.tide.syncRun + 1 ∧ t.tide.now = s.tide.now ∧
          (if -(2 ^ 32) ≤ gridError s ∧ gridError s ≤ 2 ^ 32 then t.tide.corr = 0 ∧ t.rd pgTide 0x010 = s.rd pgTide 0x010
            else t.tide.corr = clampSlew s (-((gridError s).tdiv (2 ^ 20))) ∧ EventSet s t pgTide 7))
  /-- The reference in use is lost: the root runs on from its oscillator (R28). -/
  | refLoss (h : running s = true) (h1 : isRoot s = true) (h2 : tideState s = 5) :
      TideRow s .refLoss (also (wordsAndEvent pgTide [0x00C]) (parts [.tide])) (fun t =>
        t.bit fRefPresent = false ∧ tideState t = 6 ∧ t.tide.now = s.tide.now ∧ EventSet s t pgTide 3)
  /-- Two successive edges bring the reference back (R28). -/
  | rootRefReturn (h1 : isRoot s = true) (h2 : tideState s = 6) (h3 : s.bit fUseRef = true) (h4 : 2 ≤ s.tide.syncRun) :
      TideRow s .rootRefReturn (words pgTide [0x00C]) (fun t => tideState t = 5)
  /-- The tide wraps: all ones becomes zero (R23). -/
  | wrap (h : s.tideValid = true) (h1 : s.standing = false) (h2 : s.tide.now = allOnes64) :
      TideRow s .wrap (also (wordsAndEvent pgTide []) (parts [.tide])) (fun t => t.tide.now = 0 ∧ EventSet s t pgTide 5)
  /-- A beacon is due at a multiple of 2^16: every trained link sends the chip's beacon (R31, R32). -/
  | beaconSend (h : beaconDue s = true) :
      TideRow s .beaconSend (parts [.tide, .signals]) (fun t =>
        t.tide = { s.tide with sent := true } ∧ Flooded s t (beaconBytes (ownBeacon s false false)) none)
  /-- The first usable beacon loads the tide: what the beacon shows, the link's delay and the processing time (R38). -/
  | acquires (link : Fin 16) (bytes : List Byte) (proc16 : BitVec 32) (b : BeaconMsg) (h : Upstream s link.val bytes b)
      (h1 : s.tideValid = false) (h2 : tideState s = 1) (h3 : b.standing = false) :
      TideRow s (.beacon link bytes proc16)
        (also (also (words pgTide [0x00C, 0x070, 0x084]) (parts [.tide])) debugCloses) (fun t =>
        t.tideValid = true ∧ tideState t = 1 ∧ SeqRecorded s t b ∧
          t.tide.now = BitVec.ofNat 64 ((shownCount s link.val b + proc16.toNat) / 16) ∧
          t.get fHops = min 255 (b.hops + 1) ∧ t.get ⟨pgTide, 0x084, 0, 16⟩ = b.root % 65536)
  /-- A later upstream beacon runs the loop: OFFSET, the integral, and the correction limited to SLEW_MAX (R36, R37). -/
  | disciplines (link : Fin 16) (bytes : List Byte) (proc16 : BitVec 32) (b : BeaconMsg) (h : Upstream s link.val bytes b)
      (h1 : s.tideValid = true) (h2 : b.standing = s.standing)
      (h3 : ¬ ((tideState s = 2 ∨ tideState s = 3) ∧ (offset16 s link.val b).natAbs > s.get fLostLimit * 16)) :
      TideRow s (.beacon link bytes proc16)
        (also (wordsAndEvent pgTide [0x00C, 0x070, 0x074, 0x078, 0x084]) (parts [.tide])) (fun t =>
        SeqRecorded s t b ∧ t.get fUpstream = link.val ∧ t.rd pgTide 0x074 = sat32s (offset16 s link.val b) ∧ t.tide.now = s.tide.now ∧ tideState t = tideState s ∧
          t.tide.sum16 = int64 (s.tide.sum16 + offset16 s link.val b) ∧
          t.tide.corr = clampSlew s (offset16 s link.val b * 1024 + int64 (s.tide.sum16 + offset16 s link.val b) * 64) ∧
          t.tide.goodRun = (if (offset16 s link.val b).natAbs ≤ 16 then s.tide.goodRun + 1 else 0) ∧
          t.get fHops = min 255 (b.hops + 1))
  /-- An offset beyond LOST_LIMIT in LOCKED or HOLDOVER: the tide is lost (R41). -/
  | loses (link : Fin 16) (bytes : List Byte) (proc16 : BitVec 32) (b : BeaconMsg) (h : Upstream s link.val bytes b)
      (h1 : s.tideValid = true) (h2 : b.standing = s.standing) (h3 : tideState s = 2 ∨ tideState s = 3)
      (h4 : (offset16 s link.val b).natAbs > s.get fLostLimit * 16) :
      TideRow s (.beacon link bytes proc16)
        (also (also (wordsAndEvent pgTide [0x00C, 0x070, 0x074, 0x078, 0x084]) (parts [.tide])) debugCloses) (fun t =>
        tideState t = 4 ∧ SeqRecorded s t b ∧ (t.rd pgTide 0x010).getLsbD 2 = true ∧ debugLevel t = 0 ∧ t.tide.now = s.tide.now)
  /-- LOCKED (R38, R40, R43). -/
  | locked (h : s.tideValid = true) (h1 : isRoot s = false) (h2 : tideState s = 1 ∨ tideState s = 3 ∨ tideState s = 4)
      (h3 : 16 ≤ s.tide.goodRun) :
      TideRow s .locked (wordsAndEvent pgTide [0x00C]) (fun t => tideState t = 2 ∧ EventSet s t pgTide 9)
  /-- The upstream has been silent: the best of the links heard takes its place (R35). -/
  | upstreamChange (x : Heard) (h : isRoot s = false) (h1 : upstreamSilent s = true) (h2 : bestHeard (candidates s) = some x) :
      TideRow s .upstreamChange (also (words pgTide [0x00C, 0x084]) (parts [.tide])) (fun t =>
        t.get fUpstream = x.link % 16 ∧ t.get fHops = min 255 (x.hops + 1) ∧ t.get ⟨pgTide, 0x084, 0, 16⟩ = x.root.toNat ∧
          t.tide.now = s.tide.now)
  /-- HOLDOVER: the correction keeps its integral term (R40). -/
  | holdover (h : holdoverDue s = true) :
      TideRow s .holdover (also (wordsAndEvent pgTide [0x00C, 0x078]) (parts [.tide])) (fun t =>
        tideState t = 3 ∧ EventSet s t pgTide 0 ∧ t.tide.corr = clampSlew s (s.tide.sum16 * 64) ∧ t.tide.now = s.tide.now)
  /-- HOLD_MAX intervals of HOLDOVER: the tide is lost, and open debug access closes (R41, R42). -/
  | lost (h : tideState s = 3) (h1 : s.get fHoldMax ≤ s.tide.intervals - s.tide.holdSince) :
      TideRow s .lost (also (also (wordsAndEvent pgTide [0x00C]) (parts [.tide])) debugCloses) (fun t =>
        tideState t = 4 ∧ EventSet s t pgTide 2 ∧ debugLevel t = 0 ∧ t.tide.now = s.tide.now)
  /-- SCHEDULE at the root, with a lead of 65536 to 2^62 ticks: the stand is pending and told to all (R44). -/
  | schedule (a : Access) (h : HostTakes s pgTide 0x05C a) (h1 : a.data.toNat % 8 = 1) (h2 : isRoot s = true)
      (h3 : s.tideValid = true) (h4 : s.bit fStandPending = false) (h5 : s.standing = false)
      (h6 : 65536 ≤ (s.rd64 pgTide 0x050 - s.now).toNat) (h7 : (s.rd64 pgTide 0x050 - s.now).toNat < 2 ^ 62) :
      TideRow s (.schedule a) (also (words pgTide [0x00C, 0x070, 0x060, 0x064]) (parts [.tide])) (fun t =>
        t.bit fStandPending = true ∧ t.tide.pendS = s.rd64 pgTide 0x050 ∧ t.rd64 pgTide 0x060 = s.rd64 pgTide 0x050 ∧
          t.tide.pendResume = (if s.rd pgTide 0x058 = 0 then allOnes64 else (s.rd pgTide 0x058).setWidth 64) ∧
          t.get fStandSeq = (s.get fStandSeq + 1) % 65536 ∧ t.tide.now = s.tide.now ∧
          Flooded s t (beaconBytes (ownBeacon t true false)) none)
  /-- A SCHEDULE that R44 refuses. -/
  | scheduleRefused (a : Access) (h : HostTakes s pgTide 0x05C a) (h1 : a.data.toNat % 8 = 1)
      (h2 : isRoot s = false ∨ s.tideValid = false ∨ s.bit fStandPending = true ∨ s.standing = true ∨
        (s.rd64 pgTide 0x050 - s.now).toNat < 65536 ∨ 2 ^ 62 ≤ (s.rd64 pgTide 0x050 - s.now).toNat) :
      TideRow s (.schedule a) (wordsAndEvent pgTide []) (fun t => EventSet s t pgTide 8)
  /-- RESUME fixes the length of a stand without one, counted from the stand count (R49). -/
  | standResume (a : Access) (h : HostTakes s pgTide 0x05C a) (h1 : a.data.toNat % 8 = 2) (h2 : isRoot s = true)
      (h3 : s.tideValid = true) (h4 : s.standing = true) (h5 : s.tide.resumeAt = allOnes64) (h6 : 65536 ≤ (s.rd pgTide 0x058).toNat) :
      TideRow s (.standResume a) (parts [.tide, .signals]) (fun t =>
        t.tide = { s.tide with resumeAt := s.tide.standCount + (s.rd pgTide 0x058).setWidth 64 } ∧
          Flooded s t (beaconBytes (ownBeacon t true false)) none)
  /-- CANCEL of a pending stand at least 65536 ticks ahead (R50). -/
  | cancel (a : Access) (h : HostTakes s pgTide 0x05C a) (h1 : a.data.toNat % 8 = 4) (h2 : isRoot s = true)
      (h3 : s.tideValid = true) (h4 : s.bit fStandPending = true) (h5 : 65536 ≤ (s.tide.pendS - s.now).toNat)
      (h6 : (s.tide.pendS - s.now).toNat < 2 ^ 63) :
      TideRow s (.cancel a) (words pgTide [0x00C]) (fun t =>
        t.bit fStandPending = false ∧ Flooded s t (beaconBytes (ownBeacon t true true)) none)
  /-- A notice of a stand that is new and lies ahead: it is recorded and passed on (R45). -/
  | standNotice (link : Fin 16) (bytes : List Byte) (b : BeaconMsg) (h : running s = true) (h1 : beaconOf bytes = some b)
      (h2 : bytes.length = 40) (h3 : s.bit fRun = true) (h4 : isRoot s = false ∨ b.root = nodeId s) (h5 : seqIsNew s b.seq = true)
      (h6 : b.notice = true) (h7 : b.cancel = false) (h8 : s.standing = false) (h9 : s.tideValid = true)
      (h10 : tideReached s.now b.standAt = false) :
      TideRow s (.standNotice link bytes) (also (words pgTide [0x00C, 0x070, 0x060, 0x064]) (parts [.tide])) (fun t =>
        t.bit fStandPending = true ∧ t.get fStandSeq = b.seq.toNat ∧ t.rd64 pgTide 0x060 = b.standAt ∧
          t.tide = { s.tide with seqKnown := true, pendS := b.standAt, pendResume := b.resumeAt } ∧
          Flooded s t (beaconBytes (ownBeacon t true false)) (some link.val))
  /-- The tide has reached S: it stands there, and the stand count runs from zero (R46, R48). -/
  | standBegin (h : standDue s = true) (h1 : s.now = s.tide.pendS) :
      TideRow s .standBegin (also (wordsAndEvent pgTide [0x00C, 0x060, 0x064, 0x068, 0x06C]) (parts [.tide])) (fun t =>
        t.standing = true ∧ t.bit fStandPending = false ∧ t.tide.now = s.tide.now ∧ t.tide.standS = s.tide.pendS ∧
          t.tide.resumeAt = s.tide.pendResume ∧ t.tide.standCount = 0 ∧ t.rd64 pgTide 0x060 = s.tide.pendS ∧ EventSet s t pgTide 10)
  /-- Past S the chip stands late where it is, and reports it; its stand count begins at how far past S it is (R51). -/
  | standsLate (h : standDue s = true) (h1 : s.now ≠ s.tide.pendS) :
      TideRow s .standBegin (also (wordsAndEvent pgTide [0x00C, 0x060, 0x064, 0x068, 0x06C]) (parts [.tide])) (fun t =>
        t.standing = true ∧ t.bit fStandPending = false ∧ t.tide.now = s.tide.now ∧ t.rd64 pgTide 0x060 = s.tide.now ∧
          t.tide.lateBy = s.tide.now - s.tide.pendS ∧ t.tide.standCount = s.tide.now - s.tide.pendS ∧ EventsSet s t pgTide 0x410)
  /-- The stand count has reached RESUME_AT: the tide goes on from where it stood (R48). -/
  | standEnd (h : resumeDue s = true) :
      TideRow s .standEnd (also (wordsAndEvent pgTide [0x00C]) (parts [.tide])) (fun t =>
        t.standing = false ∧ t.tide.now = s.tide.now ∧ EventSet s t pgTide 11)

end Sys2Proof.Claims

/-- The tide's commands: the root starts and loads INIT, beacons discipline the others, a tide is locked, held and
lost, and stands begin and end together (R23 to R51; readings: log 40). -/
def Obligations.TideResults : Prop := Rows TideRow

/-- A tide clock without a correction advances the tide by one tick (01 R19), and the stand count in its place during a stand (R48). -/
def Obligations.TickCounts : Prop :=
  ∀ (s : State), s.tideValid = true → s.tide.corr = 0 → s.tide.owed = false →
    (s.standing = false → (tickCount s).tide.now = s.tide.now + 1) ∧
    (s.standing = true → (tickCount s).tide.now = s.tide.now ∧ (tickCount s).tide.standCount = s.tide.standCount + 1)

namespace Sys2Proof.Claims
open Sys2Proof.Machine

/-- Some of the links. -/
abbrev someLinks (p : Part) : Prop := ∃ m, m < 16 ∧ p = .link m

/-- Some of the cores. -/
abbrev someCores (p : Part) : Prop := ∃ n, p = .core n

/-- The counters of flits sent on the links. -/
abbrev flitsSent (p : Part) : Prop := ∃ m, m < 16 ∧ (p = .reg (regKey (pgLnk m) 0x050) ∨ p = .reg (regKey (pgLnk m) 0x054))

/-- A write of `n` bytes at `a`: the bytes, the stack's counters and its uncorrectable units, the tiles it dirties (12 R325, R328). -/
abbrev writesAt (a n : Nat) (p : Part) : Prop :=
  bytesAt a n p ∨ p = .poison ∨ p = .moves ∨ ∃ k, k < 32 ∧ wordsAndEvent (pgHs k) [0x044, 0x060, 0x064] p

/-- What follows of itself for a ferry once a consignment is released or confirmed: its state, ITER, an event (09 R242, R243). -/
abbrev ferryProgress (p : Part) : Prop := ∃ f, f < 8 ∧ (p = .ferry f ∨ wordsAndEvent (pgFerry f) [0x00C, 0x074] p)

/-- One outcome counted at a port (02 R81, R83): REPLAYS, the block, and what a full block brings. -/
abbrev outcomeParts (port : Nat) : Part → Prop :=
  also (wordsAndEvent (pgPort port) [0x400, 0x408, 0x40C, 0x410, 0x414, 0x418, 0x41C, 0x420]) (parts [.blocks])

/-- No core has read the consignment at sea. -/
abbrev Unread (s : State) (k : ConsKey) : Prop := ∀ x ∈ s.cores, x.2.hold.any (fun h => h.1 == k) = false

/-- Nor does any core wait for it. -/
abbrev Unwanted (s : State) (k : ConsKey) : Prop :=
  Unread s k ∧ ∀ x ∈ s.cores, (x.2.redo == some k) = false ∧ x.2.waitOn.contains k = false

/-- The words of a data flit. -/
def flitWords (bytes : List Byte) : List W32 := wordsOf ((bytes.drop 7).take 256)

/-- The plaintext bytes that a data flit lands, as words `from i` on of its consignment (11 R309). -/
def flitPlain (s : State) (l : Landing) (bytes : List Byte) : List Byte :=
  bytesOfWords ((flitWords bytes).zipIdx.map (fun x => plainWord s l (l.words.length + x.2) x.1))

/-- A flit arrives whole and in order, with nothing to send again (11 R292 to R294). -/
abbrev FlitInOrder (s : State) (n : Nat) (bytes : List Byte) : Prop :=
  running s = true ∧ trained s n = true ∧ bytes.length = 275 ∧ flitGood bytes = true ∧ (flitHdr bytes).nak = false ∧
    (flitHdr bytes).fseq = (s.link n).rxSeq + 1

/-- What an accepted flit changes besides what it lands. -/
abbrev flitParts (n : Nat) : Part → Prop :=
  also someLinks (words (pgLnk n) ([0x058, 0x05C] ++ (List.range 9).map (fun i => 0x080 + 4 * i)))

/-- Consignments at their landing chip and at their source (02_quay_line; 11 R292 to R294, R309). -/
inductive ConsignmentRow (s : State) : Instr → (Part → Prop) → (State → Prop) → Prop where
  /-- A header that a chapter's unit expects, in a slot of the link: the consignment is LANDING (R55; 11 R293). -/
  | header (n cslot : Fin 16) (hdr sealBlk : List Byte) (tgt : LandTarget) (addr : Option Nat) (h : hdr.length = 48)
      (h1 : sealBlk.length = 16) (h2 : arrivalOk s (.link n) (hdrOf hdr) = true) (h3 : findLanding s (keyOf (hdrOf hdr)) = none)
      (h4 : matchArrival s (hdrOf hdr) = (tgt, addr, s)) (h5 : tgt ≠ .absorbed) (h6 : ∀ a, addr = some a → placeAway s a = false) :
      ConsignmentRow s (.consignmentHeader (.link n) cslot hdr sealBlk) (also someLinks (parts [.landings, .signals])) (fun t =>
        (∃ l, t.landing = s.landing ++ [l] ∧ l.key = keyOf (hdrOf hdr) ∧ l.hdr = hdr ∧ l.sealBlk = sealBlk ∧ l.port = portOf s n.val ∧
          l.st = .landing ∧ l.attempt = (hdrOf hdr).attempt ∧ l.words = [] ∧ l.failed = false ∧ l.target = tgt ∧ l.addr = addr) ∧
        (kindChannel (hdrOf hdr).kind, cslot.val, keyOf (hdrOf hdr)) ∈ (t.link n.val).slots)
  /-- A relay piece that no bring-up waits for is absorbed, and its source told (R65). -/
  | absorbed (n cslot : Fin 16) (hdr sealBlk : List Byte) (h : hdr.length = 48) (h1 : sealBlk.length = 16)
      (h2 : arrivalOk s (.link n) (hdrOf hdr) = true) (h3 : findLanding s (keyOf (hdrOf hdr)) = none) (h4 : (hdrOf hdr).kind = 4)
      (h5 : s.get fStage ≠ 12) :
      ConsignmentRow s (.consignmentHeader (.link n) cslot hdr sealBlk) (also someLinks (parts [.landings, .signals])) (fun t =>
        (∃ l, t.landing = s.landing ++ [l] ∧ l.key = keyOf (hdrOf hdr) ∧ l.target = .absorbed) ∧
        Out.absorbedNotice (keyOf (hdrOf hdr)) ∈ t.out)
  /-- A ferry arrival that matches no LAND of any ferry is absorbed and reported by the ferry of its STREAM (09 R249). -/
  | ferryUnmatched (n cslot : Fin 16) (hdr sealBlk : List Byte) (f : Nat) (h : hdr.length = 48) (h1 : sealBlk.length = 16)
      (h2 : arrivalOk s (.link n) (hdrOf hdr) = true) (h3 : findLanding s (keyOf (hdrOf hdr)) = none) (h4 : (hdrOf hdr).kind = 1)
      (h5 : ∀ g, g < 8 → landMatch s g (keyOf (hdrOf hdr)) = none) (h6 : f < 8)
      (h7 : ferryGroup s f = (keyOf (hdrOf hdr)).stream.toNat) (h8 : ∀ g, g < f → ferryGroup s g ≠ (keyOf (hdrOf hdr)).stream.toNat) :
      ConsignmentRow s (.consignmentHeader (.link n) cslot hdr sealBlk)
        (also (also someLinks (parts [.landings, .signals])) (eventParts (pgFerry f))) (fun t =>
        (∃ l, t.landing = s.landing ++ [l] ∧ l.key = keyOf (hdrOf hdr) ∧ l.target = .absorbed) ∧
        Out.absorbedNotice (keyOf (hdrOf hdr)) ∈ t.out ∧ EventSet s t (pgFerry f) 5)
  /-- The header of the next attempt takes the place of the one that failed (R62). -/
  | replayed (n cslot : Fin 16) (hdr sealBlk : List Byte) (l : Landing) (h : hdr.length = 48) (h1 : sealBlk.length = 16)
      (h2 : arrivalOk s (.link n) (hdrOf hdr) = true) (h3 : findLanding s (keyOf (hdrOf hdr)) = some l) (h4 : l.target ≠ .absorbed)
      (h5 : l.st = .replaying) (h6 : (hdrOf hdr).attempt = l.attempt + 1) :
      ConsignmentRow s (.consignmentHeader (.link n) cslot hdr sealBlk) (also someLinks (parts [.landings, .signals])) (fun t =>
        ∃ m, findLanding t (keyOf (hdrOf hdr)) = some m ∧ m.hdr = hdr ∧ m.st = .landing ∧ m.attempt = l.attempt + 1 ∧ m.words = [] ∧
          m.failed = false ∧ m.target = l.target ∧ m.addr = l.addr)
  /-- A flit whose FCRC fails is counted and answered with a NAK that names the last good FSEQ (11 R294). -/
  | flitBad (n : Fin 16) (bytes : List Byte) (h : running s = true) (h1 : trained s n.val = true) (h2 : bytes.length = 275)
      (h3 : flitGood bytes = false) :
      ConsignmentRow s (.flitReceive n bytes) (also (words (pgLnk n.val) [0x064]) (parts [.link n.val])) (fun t =>
        t.rdN (pgLnk n.val) 0x064 = min (s.rdN (pgLnk n.val) 0x064 + 1) (2 ^ 32 - 1) ∧ (t.link n.val).rxSeq = (s.link n.val).rxSeq ∧
          Out.ack n.val (s.link n.val).rxSeq true ∈ t.out)
  /-- A flit in order that carries no data is counted and acknowledged. -/
  | flitControl (n : Fin 16) (bytes : List Byte) (h : FlitInOrder s n.val bytes) (h1 : (flitHdr bytes).type ≠ 0) :
      ConsignmentRow s (.flitReceive n bytes) (flitParts n.val) (fun t =>
        t.rd64 (pgLnk n.val) 0x058 = s.rd64 (pgLnk n.val) 0x058 + 1 ∧ (t.link n.val).rxSeq = (flitHdr bytes).fseq ∧
          Out.ack n.val (flitHdr bytes).fseq false ∈ t.out)
  /-- A data flit in order lands its 64 words: they are kept as received, and their plaintext goes to memory (R56, R61; 11 R309). -/
  | flitData (n : Fin 16) (bytes : List Byte) (l : Landing) (a : Nat) (h : FlitInOrder s n.val bytes)
      (h1 : (flitHdr bytes).type = 0) (h2 : flitHeld s n.val (flitHdr bytes) = false)
      (h3 : flitLanding s n.val (flitHdr bytes) = some l) (h4 : l.st = .landing) (h5 : l.failed = false) (h6 : l.target ≠ .absorbed)
      (h7 : 4 * (l.words.length + 64) ≤ landLen l) (h8 : flitParity bytes = true) (h9 : l.addr = some a) (h10 : a % 32 = 0)
      (h11 : l.words.length % 64 = 0) :
      ConsignmentRow s (.flitReceive n bytes)
        (also (also (flitParts n.val) (parts [.landings])) (writesAt (a + 4 * l.words.length) 256)) (fun t =>
        findLanding t l.key = some { l with words := l.words ++ flitWords bytes } ∧
          (∀ j, j < 256 → t.byte (a + 4 * l.words.length + j) = (flitPlain s l bytes).getD j 0) ∧
          (t.link n.val).rxSeq = (flitHdr bytes).fseq ∧ Out.ack n.val (flitHdr bytes).fseq false ∈ t.out)
  /-- A good trailer before DUE: the landing is CHECKED, and the cores that discarded because of it go on (R57, R59, R79). -/
  | checked (arr : Arrival) (k : ConsKey) (crc : W32) (tag : BitVec 128) (l : Landing) (h : findLanding s k = some l)
      (h1 : trailerOk s arr l = true) (h2 : l.target ≠ .absorbed) (h3 : l.port < 16) (h4 : tagGood s l tag = true)
      (h5 : (plainBytes s l).length = landLen l) (h6 : consCrc l.hdr (plainBytes s l) = crc) (h7 : dueReached s l = false) :
      ConsignmentRow s (.consignmentTrailer arr k crc tag) (also someCores (parts [.landings, .signals])) (fun t =>
        findLanding t k = some { l with st := .checked, checkedAt := if s.tideValid then some s.now else none } ∧
          ∀ id, (s.core id).redo = some k → (t.core id).redo = none ∧ (t.core id).wait = 0)
  /-- A CRC that does not match, in attempts 0 to 3: the words are dropped and a replay is asked for (R62). -/
  | replayAsked (arr : Arrival) (k : ConsKey) (crc : W32) (tag : BitVec 128) (l : Landing) (h : findLanding s k = some l)
      (h1 : trailerOk s arr l = true) (h2 : l.target ≠ .absorbed) (h3 : l.port < 16) (h4 : tagGood s l tag = true)
      (h6 : consCrc l.hdr (plainBytes s l) ≠ crc) (h7 : l.attempt < 4) (h8 : Unread s k) :
      ConsignmentRow s (.consignmentTrailer arr k crc tag) (also (wordsAndEvent (pgPort l.port) []) (parts [.landings])) (fun t =>
        findLanding t k = some { l with st := .replaying, words := [], failed := true } ∧
          Out.replayRequest k l.attempt ∈ t.out ∧ EventSet s t (pgPort l.port) 28)
  /-- A tag that fails is counted and reported by SEC where the host's key seals the consignment, and a replay is asked for (14 R392). -/
  | tagRefused (arr : Arrival) (k : ConsKey) (crc : W32) (tag : BitVec 128) (l : Landing) (h : findLanding s k = some l)
      (h1 : trailerOk s arr l = true) (h2 : l.target ≠ .absorbed) (h3 : l.port < 16) (h4 : tagGood s l tag = false)
      (h5 : 16 ≤ (landHdr l).berth) (h7 : l.attempt < 4) (h8 : Unread s k) :
      ConsignmentRow s (.consignmentTrailer arr k crc tag)
        (also (also (wordsAndEvent (pgPort l.port) []) (wordsAndEvent pgSec [0x044])) (parts [.landings])) (fun t =>
        findLanding t k = some { l with st := .replaying, words := [], failed := true } ∧ EventSet s t pgSec 2 ∧
          t.rdN pgSec 0x044 = min (s.rdN pgSec 0x044 + 1) (2 ^ 32 - 1) ∧ EventSet s t (pgPort l.port) 28)
  /-- The fifth attempt fails: the consignment ends exhausted, and its source is told (R63). -/
  | exhausted (arr : Arrival) (k : ConsKey) (crc : W32) (tag : BitVec 128) (l : Landing) (h : findLanding s k = some l)
      (h1 : trailerOk s arr l = true) (h2 : l.target = .relay) (h3 : l.port < 16) (h6 : consCrc l.hdr (plainBytes s l) ≠ crc)
      (h7 : l.attempt = 4) (h8 : Unwanted s k) :
      ConsignmentRow s (.consignmentTrailer arr k crc tag) (also (outcomeParts l.port) (parts [.landings])) (fun t =>
        findLanding t k = none ∧ t.rdN (pgPort l.port) 0x420 = min (s.rdN (pgPort l.port) 0x420 + 1) (2 ^ 32 - 1) ∧
          (t.rd (pgPort l.port) 0x010).getLsbD 29 = true ∧ Out.exhaustedNotice k ∈ t.out)
  /-- A checked relay piece is confirmed at DUE: its bytes enter the image area, the port counts it, its source is told (R59, R60;
  15 R409). -/
  | confirmed (k : ConsKey) (l : Landing) (h : findLanding s k = some l) (h1 : running s = true) (h2 : l.st = .checked)
      (h3 : dueReached s l = true) (h4 : l.target = .relay) (h5 : Unread s k) (h6 : l.port < 16) :
      ConsignmentRow s (.confirmed k) (also (outcomeParts l.port) (parts [.landings, .image])) (fun t =>
        findLanding t k = none ∧ t.rd64 (pgPort l.port) 0x410 = s.rd64 (pgPort l.port) 0x410 + 1 ∧ Out.confirmNotice k ∈ t.out ∧
          ∀ j, j < (plainBytes s l).length →
            t.imageByte ((landHdr l).addr % 2 ^ 27 + j) = (plainBytes s l).getD j 0)
  /-- The source releases a consignment when it is told of its confirmation (R58, R60). -/
  | confirmNotice (k : ConsKey) (h : Held) (h1 : heldOf s k = some h) (h2 : k.kind ≠ 2) :
      ConsignmentRow s (.confirmNotice k) (also ferryProgress (parts [.held, .routes, .signals])) (fun t =>
        t.held = s.held.filter (fun x => x.key != k))
  /-- … or of its exhaustion (R63). -/
  | exhaustedNotice (k : ConsKey) (h : Held) (h1 : heldOf s k = some h) :
      ConsignmentRow s (.exhaustedNotice k) (also ferryProgress (parts [.held, .routes, .signals])) (fun t =>
        t.held = s.held.filter (fun x => x.key != k))
  /-- … or of its absorption (R65). -/
  | absorbedNotice (k : ConsKey) (h : Held) (h1 : heldOf s k = some h) (h2 : k.kind ≠ 3) :
      ConsignmentRow s (.absorbedNotice k) (also ferryProgress (parts [.held, .routes, .signals])) (fun t =>
        t.held = s.held.filter (fun x => x.key != k))
  /-- A replay: the held consignment sails again on its port, with ATTEMPT one higher (R62). -/
  | replay (k : ConsKey) (attempt : BitVec 8) (h : Held) (h1 : heldOf s k = some h) (h2 : running s = true)
      (h3 : attempt.toNat = h.attempt) (h4 : h.attempt < 4) (h5 : 16 ≤ h.port ∨ portMembers s h.port ≠ []) :
      ConsignmentRow s (.replayRequest k attempt)
        (also (also someLinks flitsSent) (parts [.held, .seals, .signals])) (fun t =>
        { h with attempt := h.attempt + 1 } ∈ t.held ∧
          ∃ blk, Out.sail h.port (withAttempt h.hdr (h.attempt + 1)) blk h.crc ∈ t.out)
  /-- A source that holds the consignment no more says so (R64). -/
  | cannotReplay (k : ConsKey) (attempt : BitVec 8) (h : running s = true) (h1 : k.src.toNat = nodeId s) (h2 : heldOf s k = none)
      (h3 : findLanding s k = none) :
      ConsignmentRow s (.replayRequest k attempt) (parts [.signals]) (fun t => Out.sourceReset k ∈ t.out)
  /-- A landing whose source has been reset ends exhausted (R64). -/
  | sourceReset (k : ConsKey) (l : Landing) (h : findLanding s k = some l) (h1 : running s = true)
      (h2 : l.st = .landing ∨ l.st = .replaying) (h3 : l.target = .relay) (h4 : l.port < 16) (h5 : Unwanted s k) :
      ConsignmentRow s (.sourceResetAnnounced k) (also (outcomeParts l.port) (parts [.landings])) (fun t =>
        findLanding t k = none ∧ t.rdN (pgPort l.port) 0x420 = min (s.rdN (pgPort l.port) 0x420 + 1) (2 ^ 32 - 1) ∧
          (t.rd (pgPort l.port) 0x010).getLsbD 29 = true ∧ Out.exhaustedNotice k ∈ t.out)

/-- The quay unit's commands on cores and ports (02 R74 to R76, R81 to R84). -/
inductive QuayRow (s : State) : Instr → (Part → Prop) → (State → Prop) → Prop where
  /-- The lowest marked tile pair takes its confirmed half into its shadow half (R76). -/
  | refreshTile (id : CoreId) (n : Fin 8) (h : coreOk id = true) (h1 : n.val < 6) (h2 : (s.core id).refT.getLsbD n.val = true)
      (h3 : ∀ m, m < n.val → (s.core id).refT.getLsbD m = false) :
      QuayRow s (.pairRefresh id .tile n) (parts [.core id.toNat, .signals]) (fun t =>
        (∀ e, e < 16384 → storeGet (t.core id).tiles ((n.val + 6) * 16384 + e) 0 = storeGet (s.core id).tiles (n.val * 16384 + e) 0) ∧
        (∀ m e, m < 12 → m ≠ n.val + 6 → e < 16384 →
          storeGet (t.core id).tiles (m * 16384 + e) 0 = storeGet (s.core id).tiles (m * 16384 + e) 0) ∧
        (t.core id).refT.getLsbD n.val = false ∧ (t.core id).rows = (s.core id).rows ∧ (t.core id).vreg = (s.core id).vreg)
  /-- … and so the lowest marked pair of row-statistics blocks. -/
  | refreshRows (id : CoreId) (n : Fin 8) (h : coreOk id = true) (h2 : (s.core id).refR.getLsbD n.val = true)
      (h3 : ∀ m, m < n.val → (s.core id).refR.getLsbD m = false) :
      QuayRow s (.pairRefresh id .rows n) (parts [.core id.toNat, .signals]) (fun t =>
        (∀ e, e < 4096 → storeGet (t.core id).rows ((n.val + 8) * 4096 + e) 0 = storeGet (s.core id).rows (n.val * 4096 + e) 0) ∧
        (∀ m e, m < 16 → m ≠ n.val + 8 → e < 4096 →
          storeGet (t.core id).rows (m * 4096 + e) 0 = storeGet (s.core id).rows (m * 4096 + e) 0) ∧
        (t.core id).refR.getLsbD n.val = false ∧ (t.core id).tiles = (s.core id).tiles ∧ (t.core id).vreg = (s.core id).vreg)
  /-- QCTRL takes the setting (R74). -/
  | specEn (id : CoreId) (a : Access) (h : coreOk id = true) (h1 : HostTakes s (corePage id) 0x200 a) :
      QuayRow s (.specEn id a) (words (corePage id) [0x200]) (fun t => t.bit (fSpecEn id) = a.data.getLsbD 0)
  /-- Speculation takes effect on a core that is not at sea: the upper halves become copies of the lower (R74). -/
  | enables (id : CoreId) (h : coreOk id = true) (h1 : (s.core id).specOn = false) (h2 : s.bit (fSpecEn id) = true)
      (h3 : (s.core id).atSea = false) :
      QuayRow s (.specEnEffect id) (parts [.core id.toNat, .signals]) (fun t =>
        (t.core id).specOn = true ∧
        (∀ n e, n < 6 → e < 16384 → storeGet (t.core id).tiles (n * 16384 + e) 0 = storeGet (s.core id).tiles (n * 16384 + e) 0 ∧
          storeGet (t.core id).tiles ((n + 6) * 16384 + e) 0 = storeGet (s.core id).tiles (n * 16384 + e) 0) ∧
        (∀ n e, n < 8 → e < 4096 → storeGet (t.core id).rows (n * 4096 + e) 0 = storeGet (s.core id).rows (n * 4096 + e) 0 ∧
          storeGet (t.core id).rows ((n + 8) * 4096 + e) 0 = storeGet (s.core id).rows (n * 4096 + e) 0))
  /-- … and switched off, the upper halves read zero (R74). -/
  | disables (id : CoreId) (h : coreOk id = true) (h1 : (s.core id).specOn = true) (h2 : s.bit (fSpecEn id) = false)
      (h3 : (s.core id).atSea = false) :
      QuayRow s (.specEnEffect id) (parts [.core id.toNat, .signals]) (fun t =>
        (t.core id).specOn = false ∧
        (∀ n e, n < 12 → e < 16384 → storeGet (t.core id).tiles (n * 16384 + e) 0 =
          if n < 6 then storeGet (s.core id).tiles (n * 16384 + e) 0 else 0) ∧
        (∀ n e, n < 16 → e < 4096 → storeGet (t.core id).rows (n * 4096 + e) 0 =
          if n < 8 then storeGet (s.core id).rows (n * 4096 + e) 0 else 0))
  /-- QWIN of an open port: WINDOW takes WINDOW_MAX, 4 at most (R84). -/
  | window (p : Fin 24) (a : Access) (h : HostTakes s (pgPort p.val) 0x400 a) (h1 : portLive s p.val = true)
      (h2 : s.bit (fClosed p.val) = false) :
      QuayRow s (.qwin p a) (words (pgPort p.val) [0x400]) (fun t =>
        t.get (fWindowMax p.val) = min 4 (a.data.toNat % 8) ∧ t.get (fWindow p.val) = min 4 (a.data.toNat % 8) ∧
          t.bit (fAuto p.val) = a.data.getLsbD 8 ∧ t.bit (fClosed p.val) = false)
  /-- QWIN with AUTO cleared on a port that R83 has closed reopens it (R84). -/
  | reopens (p : Fin 24) (a : Access) (h : HostTakes s (pgPort p.val) 0x400 a) (h1 : portLive s p.val = true)
      (h2 : s.bit (fClosed p.val) = true) (h3 : a.data.getLsbD 8 = false) :
      QuayRow s (.qwin p a) (wordsAndEvent (pgPort p.val) [0x400]) (fun t =>
        t.get (fWindow p.val) = min 4 (a.data.toNat % 8) ∧ t.bit (fClosed p.val) = false ∧ EventSet s t (pgPort p.val) 30)
  /-- A full block ends with more replays than RATE_HI: the window closes (R83). -/
  | closes (p : Fin 24) (n : Nat) (h : s.fullBlocks.find? (fun x => x.1 == p.val) = some (p.val, n))
      (h1 : s.bit (fClosed p.val) = false) (h2 : s.bit (fAuto p.val) = true) (h3 : s.get ⟨pgPort p.val, 0x404, 0, 16⟩ < n) :
      QuayRow s (.blockClose p) (also (wordsAndEvent (pgPort p.val) [0x400, 0x40C]) (parts [.blocks])) (fun t =>
        t.rdN (pgPort p.val) 0x40C = n % 65536 ∧ t.bit (fClosed p.val) = true ∧ t.get (fWindow p.val) = 0 ∧
          EventSet s t (pgPort p.val) 30)
  /-- … with at most RATE_LO, on a closed port: it opens again. -/
  | opens (p : Fin 24) (n : Nat) (h : s.fullBlocks.find? (fun x => x.1 == p.val) = some (p.val, n))
      (h1 : s.bit (fClosed p.val) = true) (h2 : n ≤ s.get ⟨pgPort p.val, 0x404, 16, 16⟩) :
      QuayRow s (.blockClose p) (also (wordsAndEvent (pgPort p.val) [0x400, 0x40C]) (parts [.blocks])) (fun t =>
        t.rdN (pgPort p.val) 0x40C = n % 65536 ∧ t.bit (fClosed p.val) = false ∧ t.get (fWindow p.val) = s.get (fWindowMax p.val) ∧
          EventSet s t (pgPort p.val) 30)
  /-- … and else only QLAST shows the block. -/
  | counts (p : Fin 24) (n : Nat) (h : s.fullBlocks.find? (fun x => x.1 == p.val) = some (p.val, n))
      (h1 : if s.bit (fClosed p.val) = true then s.get ⟨pgPort p.val, 0x404, 16, 16⟩ < n
        else s.bit (fAuto p.val) = false ∨ n ≤ s.get ⟨pgPort p.val, 0x404, 0, 16⟩) :
      QuayRow s (.blockClose p) (also (words (pgPort p.val) [0x40C]) (parts [.blocks])) (fun t =>
        t.rdN (pgPort p.val) 0x40C = n % 65536)

end Sys2Proof.Claims

/-- Consignments land, are checked, confirmed, replayed, exhausted and released (02 R53 to R65; readings: log 49). -/
def Obligations.ConsignmentResults : Prop := Rows ConsignmentRow

/-- The quay unit's pairs, speculation and windows (02 R73 to R76, R81 to R84). -/
def Obligations.QuayUnitResults : Prop := Rows QuayRow

/-- A commit (02 R77): halves written at sea become the confirmed ones, flags gather, the hold set, the RD and WR masks and the taint
empty, COMMITS and RETIRED count; registers, slots, PC and memory stay. -/
def Sys2Proof.Claims.claimCommitResults : Prop :=
  ∀ (s : State) (id : CoreId), (s.core id).seaFault = none →
    let c := s.core id
    let t := commitCore s id
    let d := t.core id
    (∀ n e, n < 6 → e < 16384 → storeGet d.tiles (n * 16384 + e) 0 =
      storeGet c.tiles ((if c.seaT.getLsbD n then n + 6 else n) * 16384 + e) 0) ∧
    (∀ n e, n < 8 → e < 4096 → storeGet d.rows (n * 4096 + e) 0 =
      storeGet c.rows ((if c.seaR.getLsbD n then n + 8 else n) * 4096 + e) 0) ∧
    d.hold = [] ∧ d.rdV = 0 ∧ d.wrV = 0 ∧ d.rdB = 0 ∧ d.wrB = 0 ∧ d.taintV = 0 ∧ d.taintB = 0 ∧ d.taintT = 0 ∧ d.taintR = 0 ∧
    d.seaT = 0 ∧ d.seaR = 0 ∧ d.refT = c.refT ||| c.seaT ∧ d.refR = c.refR ||| c.seaR ∧ d.aflags = c.aflags ||| c.shadowFlags ∧
    d.pc = c.pc ∧ d.sreg = c.sreg ∧ d.vreg = c.vreg ∧ d.mreg = c.mreg ∧ d.slots = c.slots ∧ d.state = c.state ∧
    t.rd64 (corePage id) 0x210 = s.rd64 (corePage id) 0x210 + 1 ∧
    t.rd64 (corePage id) 0x080 = s.rd64 (corePage id) 0x080 + BitVec.ofNat 64 c.seaRetired ∧
    Only s t [.core id.toNat, .reg (regKey (corePage id) 0x210), .reg (regKey (corePage id) 0x214),
      .reg (regKey (corePage id) 0x080), .reg (regKey (corePage id) 0x084)]

/-- A discard (02 R78, R79) of a running core: PC, scalar and mask registers return to the checkpoint, every confirmed half and every
vector register and slot not written at sea stays, what was written at sea becomes undefined (log 6), and the core waits for the
consignment's replay; DISCARDS counts, LAST_FAIL_SEQ and LAST_FAIL_SRC name the consignment. -/
def Sys2Proof.Claims.claimDiscardResults : Prop :=
  ∀ (s : State) (id : CoreId) (k : ConsKey) (port : Nat), (s.core id).state = .running →
    let c := s.core id
    let t := discardCore s id k port none
    let d := t.core id
    d.pc = c.ckPc ∧ d.sreg = c.ckSreg ∧ d.mreg = c.ckMreg ∧ d.tiles = c.tiles ∧ d.rows = c.rows ∧ d.aflags = c.aflags ∧
    (∀ r e, r < 64 → e < 128 → c.wrV.getLsbD r = false → storeGet d.vreg (128 * r + e) 0 = storeGet c.vreg (128 * r + e) 0) ∧
    (∀ b e, b < 16 → e < 32768 → c.wrB.getLsbD b = false → storeGet d.slots (32768 * b + e) 0 = storeGet c.slots (32768 * b + e) 0) ∧
    d.hold = [] ∧ d.rdV = 0 ∧ d.wrV = 0 ∧ d.taintV = 0 ∧ d.taintT = 0 ∧ d.shadowFlags = 0 ∧ d.redo = some k ∧ d.wait = 6 ∧
    d.state = .running ∧
    t.rd64 (corePage id) 0x218 = s.rd64 (corePage id) 0x218 + 1 ∧ t.rd (corePage id) 0x220 = k.seq ∧
    t.rdN (corePage id) 0x224 = k.stream.toNat + port % 32 * 65536 ∧
    Only s t [.core id.toNat, .reg (regKey (corePage id) 0x218), .reg (regKey (corePage id) 0x21C),
      .reg (regKey (corePage id) 0x220), .reg (regKey (corePage id) 0x224), .fresh]

/-- What a core at sea keeps at a commit and what it takes back at a discard (02 R71 to R80). -/
def Obligations.QuayLineResults : Prop := claimCommitResults ∧ claimDiscardResults

namespace Sys2Proof.Claims
open Sys2Proof.Machine

/-- A function command of a berth is carried out now (07 R199). -/
abbrev FnDue (s : State) (b : Nat) (v : W32) : Prop :=
  (s.berth b).fnJob = some v ∧ running s = true ∧ fnBlocked s b v = false

/-- What a function command that ends may change: FN_STAT, the loaded bits, FN_SPACE, the slots, a log entry. -/
abbrev fnParts (b : Nat) : Part → Prop :=
  also (words (pgBerth b) [0x610, 0x614, 0x618, 0x61C, 0x620]) (parts [.berth b, .log])

/-- The stack counters of a read. -/
abbrev stackReads (p : Part) : Prop := ∃ k, k < 32 ∧ (p = .reg (regKey (pgHs k) 0x058) ∨ p = .reg (regKey (pgHs k) 0x05C))

/-- The function block of a berth (07 R196 to R199) and bollards written by the host (08 R231). -/
inductive FnBlockRow (s : State) : Instr → (Part → Prop) → (State → Prop) → Prop where
  /-- LOAD, UNLOAD, LOAD_STD begin: BUSY until FN_DONE (R199). -/
  | begins (i : Instr) (b : Fin 16) (a : Access) (op : Nat) (hi : (i = .fnLoad b a ∧ op = 1) ∨ (i = .fnUnload b a ∧ op = 2) ∨
        (i = .fnLoadStd b a ∧ op = 3))
      (h : HostTakes s (pgBerth b.val) 0x60C a) (h1 : a.data.toNat % 4 = op) (h2 : s.bit (fFnBusy b.val) = false)
      (h3 : berthCoresBusy s b.val = false) :
      FnBlockRow s i (also (words (pgBerth b.val) [0x610]) (parts [.berth b.val])) (fun t =>
        t.bit (fFnBusy b.val) = true ∧ t.berth b.val = { s.berth b.val with fnJob := some a.data })
  /-- … or are refused with 0xC003 while one is in progress or a core of the berth runs (R199). -/
  | busy (i : Instr) (b : Fin 16) (a : Access) (hi : i = .fnLoad b a ∨ i = .fnUnload b a ∨ i = .fnLoadStd b a)
      (h : HostTakes s (pgBerth b.val) 0x60C a) (h1 : a.data.toNat % 4 ≠ 0)
      (h2 : s.bit (fFnBusy b.val) = true ∨ berthCoresBusy s b.val = true) :
      FnBlockRow s i (also (words (pgBerth b.val) [0x610]) (parts [.log])) (fun t =>
        t.get (fFnCode b.val) = 0xC003 ∧ t.berth b.val = s.berth b.val)
  /-- A LOAD whose image passes every check and fits fills its slot (R196 to R199). -/
  | loaded (b : Fin 16) (v : W32) (fn : Nat) (img : List Byte) (h : FnDue s b.val v) (h1 : v.toNat % 4 = 1)
      (h2 : fn = v.toNat / 256 % 128) (h3 : slotFn fn = true)
      (h4 : imageInBerth s b.val (s.rd64 (pgBerth b.val) 0x600).toNat (s.rdN (pgBerth b.val) 0x608) = true)
      (h5 : poisoned s (placeBits (s.rd64 (pgBerth b.val) 0x600).toNat) (s.rdN (pgBerth b.val) 0x608) = false)
      (h6 : img = s.bytes (placeBits (s.rd64 (pgBerth b.val) 0x600).toNat) (s.rdN (pgBerth b.val) 0x608))
      (h7 : imageGood img = true) (h8 : fnSpaceUsed (setSlot s b.val (fn - 0x40) img) b.val ≤ 4096) :
      FnBlockRow s (.fnDone b) (also (fnParts b.val) stackReads) (fun t =>
        storeGet (t.berth b.val).slots (fn - 0x40) [] = img ∧ t.get (fFnCode b.val) = 0 ∧ t.bit (fFnBusy b.val) = false ∧
          (t.rd64 (pgBerth b.val) 0x618).getLsbD (fn - 0x40) = true ∧ (t.berth b.val).fnJob = none)
  /-- UNLOAD empties a slot (R199). -/
  | unloaded (b : Fin 16) (v : W32) (fn : Nat) (h : FnDue s b.val v) (h1 : v.toNat % 4 = 2) (h2 : fn = v.toNat / 256 % 128)
      (h3 : slotFn fn = true) :
      FnBlockRow s (.fnDone b) (fnParts b.val) (fun t =>
        storeGet (t.berth b.val).slots (fn - 0x40) [] = [] ∧ t.get (fFnCode b.val) = 0 ∧ t.bit (fFnBusy b.val) = false ∧
          (t.rd64 (pgBerth b.val) 0x618).getLsbD (fn - 0x40) = false ∧ (t.berth b.val).fnJob = none)
  /-- LOAD_STD loads the seven standard functions where they fit, and is refused with 0xC004 where they do not (R198, R199). -/
  | standard (b : Fin 16) (v : W32) (fits : Bool) (h : FnDue s b.val v) (h1 : v.toNat % 4 = 3)
      (h2 : fits = decide (fnSpaceUsed (s.put ⟨pgBerth b.val, 0x614, 0, 7⟩ 0x7F) b.val ≤ 4096)) :
      FnBlockRow s (.fnDone b) (fnParts b.val) (fun t =>
        t.get ⟨pgBerth b.val, 0x614, 0, 7⟩ = (if fits then 0x7F else s.get ⟨pgBerth b.val, 0x614, 0, 7⟩) ∧
          t.get (fFnCode b.val) = (if fits then 0 else 0xC004) ∧ t.bit (fFnBusy b.val) = false ∧
          (t.berth b.val).slots = (s.berth b.val).slots)
  /-- The host writes a bollard (08 R231). -/
  | bollard (cl n : Fin 64) (a : Access) (h : HostTakes s (pgCl cl.val) (0x800 + 4 * n.val) a) :
      FnBlockRow s (.bollard cl n a) (words (pgCl cl.val) [0x800 + 4 * n.val]) (fun t =>
        bollardValue t cl.val n.val = a.data)

/-! Ferries. -/

/-- Nothing is deferred until a ferry or group lets it (09 R257, 10 R287). -/
abbrev NothingDeferred (s : State) : Prop :=
  s.applyWaits = none ∧ (∀ b, b < 16 → (s.berth b).waits = []) ∧ ∀ g, g < 64 → (s.group g).deleting = false

/-- No core is at sea or waits for a consignment. -/
abbrev CoresAlone (s : State) : Prop := ∀ x ∈ s.cores, x.2.hold = [] ∧ x.2.redo = none ∧ x.2.waitOn = []

/-- A RUNNING ferry in the middle of an iteration: nothing follows of itself (09 R242, R243). -/
abbrev Underway (s : State) (f : Nat) : Prop := ferryState s f = 2 ∧ iterOver s f = false ∧ (s.ferry f).ended = false

/-- The header that a SAIL's consignment carries (09 R239, R240). -/
def ferryHeader (s : State) (f : Nat) (e : Sched) : ConsHdr :=
  { kind := 1, stream := ferryGroup s f, seq := e.seq, due := e.due, len := e.len, attempt := 0, berth := ferryOwner s f,
    src := nodeId s, dst := e.peer.toNat, srcPlace := placeCode e.addr, dstPlace := placeCode e.dest, addr := e.dest }

/-- What a keel abort changes where no landing and no collective is in progress (09 R256; 10 R285). -/
abbrev abortParts (g : Nat) (p : Part) : Prop :=
  p = .group g ∨ wordsAndEvent (pgGtab g) [gOff g 0x20, 0x240] p ∨ ∃ f, f < 8 ∧ wordsAndEvent (pgFerry f) [0x00C] p

/-- A keel abort with no landing, no collective, nothing deferred and no core concerned. -/
abbrev AbortsPlainly (s : State) (g : Nat) : Prop :=
  (groupState s g = 2 ∨ groupState s g = 3) ∧ (s.group g).coll = none ∧ s.landing = [] ∧ CoresAlone s ∧ NothingDeferred s

/-- The members have been told. -/
abbrev AbortTold (s t : State) (g : Nat) : Prop := ∀ m ∈ others s g, Out.abortNotice g m ∈ t.out

/-- Ferries (09_ferries). -/
inductive FerryRow (s : State) : Instr → (Part → Prop) → (State → Prop) → Prop where
  /-- ARM of an idle ferry: its counters start again and validation begins (R244). -/
  | arm (f : Fin 8) (a : Access) (h : HostTakes s (pgFerry f.val) 0x06C a) (h1 : a.data.toNat % 8 = 1)
      (h2 : ferryIdle s f.val = true) :
      FerryRow s (.arm f a) (also (words (pgFerry f.val) [0x00C, 0x074, 0x07C, 0x080, 0x084, 0x088, 0x08C, 0x090]) (parts [.ferry f.val]))
        (fun t => t.bit (fFerryBusy f.val) = true ∧ (t.ferry f.val).validating = 1 ∧ (t.ferry f.val).sailed = [] ∧
          (t.ferry f.val).opened = [] ∧ (t.ferry f.val).done = [] ∧ ferryIter t f.val = 0 ∧ ferryState t f.val = ferryState s f.val)
  /-- ARM in another state is refused with cause 15 (R244). -/
  | armRefused (f : Fin 8) (a : Access) (h : HostTakes s (pgFerry f.val) 0x06C a) (h1 : a.data.toNat % 8 = 1)
      (h2 : ferryIdle s f.val = false) :
      FerryRow s (.arm f a) (wordsAndEvent (pgFerry f.val) [0x078]) (fun t =>
        t.rdN (pgFerry f.val) 0x078 = 15 * 2 ^ 24 ∧ EventSet s t (pgFerry f.val) 4)
  /-- APPEND to an open ferry that runs from HBM (R259). -/
  | append (f : Fin 8) (a : Access) (h : HostTakes s (pgFerry f.val) 0x06C a) (h1 : a.data.toNat % 8 = 4)
      (h2 : ferryState s f.val = 1 ∨ ferryState s f.val = 2) (h3 : s.bit (fFerryOpen f.val) = true)
      (h4 : ferryHbm s f.val = true) (h5 : s.bit (fFerryBusy f.val) = false) :
      FerryRow s (.append f a) (also (words (pgFerry f.val) [0x00C]) (parts [.ferry f.val])) (fun t =>
        t.bit (fFerryBusy f.val) = true ∧ (t.ferry f.val).validating = 2 ∧ ferryState t f.val = ferryState s f.val ∧
          (t.ferry f.val).verdict = validate s f.val (s.get ⟨pgFerry f.val, 0x068, 0, 21⟩) (schedLen s f.val))
  /-- A good verdict arms the ferry (R244). -/
  | armed (f : Fin 8) (h : (s.ferry f.val).validating = 1) (h1 : (s.ferry f.val).verdict = none) (h2 : schedLen s f.val ≠ 0)
      (h3 : reachedNow s (rawDepart s f.val 0) = false) :
      FerryRow s (.validationDone f) (also (words (pgFerry f.val) [0x00C]) (parts [.ferry f.val])) (fun t =>
        ferryState t f.val = 1 ∧ t.bit (fFerryBusy f.val) = false)
  /-- A bad one refuses it, and names the entry and the cause (R244). -/
  | refused (f : Fin 8) (k c : Nat) (h : (s.ferry f.val).validating = 1) (h1 : (s.ferry f.val).verdict = some (k, c))
      (h2 : k < 2 ^ 20) (h3 : c < 16) :
      FerryRow s (.validationDone f) (also (wordsAndEvent (pgFerry f.val) [0x00C, 0x078]) (parts [.ferry f.val])) (fun t =>
        ferryState t f.val = 5 ∧ t.bit (fFerryBusy f.val) = false ∧ t.rdN (pgFerry f.val) 0x078 = k + c * 2 ^ 24 ∧
          EventSet s t (pgFerry f.val) 4)
  /-- Appended entries join the schedule (R259). -/
  | appended (f : Fin 8) (h : (s.ferry f.val).validating = 2) (h1 : (s.ferry f.val).verdict = none) :
      FerryRow s (.validationDone f) (also (words (pgFerry f.val) [0x00C, 0x048]) (parts [.ferry f.val])) (fun t =>
        schedLen t f.val = s.get ⟨pgFerry f.val, 0x068, 0, 21⟩ ∧ t.bit (fFerryBusy f.val) = false ∧
          ferryState t f.val = ferryState s f.val)
  /-- A SAIL whose tide is reached and whose turn it is sails from its port, with the header of R239; its source is held (R58, R240). -/
  | sail (f : Fin 8) (k i p : Nat) (e : Sched) (h : running s = true) (h1 : Underway s f.val) (h2 : k < schedLen s f.val)
      (h3 : (rawEntry s f.val k).kind = 1) (h4 : oldestLeft s f.val k (s.ferry f.val).sailed = some i) (h5 : e = Machine.entryAt s f.val i k)
      (h6 : reachedNow s e.depart = true) (h7 : sailTurn s f.val i k = true) (h8 : chainOf s f.val k = none)
      (h9 : placeStopped s (placeBits e.addr) = false) (h10 : sailPort s e = some p)
      (h11 : poisoned s (placeBits e.addr) (e.len * 4096) = false) (h12 : hdrGood (hdrBytes (ferryHeader s f.val e)) = true)
      (h13 : storeGet s.sealCtr (linkKeyOf s (hdrOf (hdrBytes (ferryHeader s f.val e))).berth) 0 + 1 < 2 ^ 64) :
      FerryRow s (.sail f k)
        (also (also (also ferryProgress stackReads) (also someLinks flitsSent)) (parts [.held, .seals, .signals])) (fun t =>
        (i, k) ∈ (t.ferry f.val).sailed ∧
        (∃ x ∈ t.held, x.hdr = hdrBytes (ferryHeader s f.val e) ∧ x.attempt = 0 ∧ x.port = p ∧ x.stamp = s.now ∧
          x.addr = placeBits e.addr ∧ x.len = e.len * 4096) ∧
        ∃ blk, Out.sail p (withAttempt (hdrBytes (ferryHeader s f.val e)) 0) blk
          (consCrc (hdrBytes (ferryHeader s f.val e)) (s.bytes (placeBits e.addr) (e.len * 4096))) ∈ t.out)
  /-- A LAND's zone opens once its tide and its gate are reached (R248). -/
  | zoneOpen (f : Fin 8) (k i : Nat) (e : Sched) (h : running s = true) (h1 : Underway s f.val) (h2 : k < schedLen s f.val)
      (h3 : (rawEntry s f.val k).kind = 2) (h4 : oldestLeft s f.val k (s.ferry f.val).opened = some i) (h5 : e = Machine.entryAt s f.val i k)
      (h6 : reachedNow s e.depart = true) (h7 : e.gateEn = false ∨ gateReached s (clusterOf e.addr) e.gate e.gateVal = true) :
      FerryRow s (.zoneOpen f k) (also ferryProgress (parts [.signals])) (fun t => (i, k) ∈ (t.ferry f.val).opened)
  /-- A MARK is passed, and what waits on the ferry goes on (R257). -/
  | mark (f : Fin 8) (k i : Nat) (h : running s = true) (h1 : Underway s f.val) (h2 : k < schedLen s f.val)
      (h3 : (rawEntry s f.val k).kind = 0) (h4 : oldestLeft s f.val k (s.ferry f.val).done = some i)
      (h5 : reachedNow s (Machine.entryAt s f.val i k).depart = true) (h6 : s.applyWaits = none) :
      FerryRow s (.mark f k) (also ferryProgress (fun p => p = .signals ∨ ∃ b, b < 16 ∧ p = .berth b)) (fun t =>
        (i, k) ∈ (t.ferry f.val).done ∧ ∀ b, b < 16 → (t.berth b).waits = (s.berth b).waits.filter (fun w => !(w.1 == f.val)))
  /-- The END of a schedule whose other entries are completed: the ferry is DONE (R243). -/
  | endEntry (f : Fin 8) (k : Nat) (h : running s = true) (h1 : Underway s f.val) (h2 : schedLen s f.val = k + 1)
      (h3 : (rawEntry s f.val k).kind = 3) (h4 : oldestLeft s f.val k (s.ferry f.val).done = some 0)
      (h5 : reachedNow s (Machine.entryAt s f.val 0 k).depart = true) (h6 : s.get (fFerryRepeat f.val) = 0) (h7 : ferryIter s f.val = 0)
      (h8 : ∀ j, j < k → entryDone s f.val 0 j = true) (h9 : NothingDeferred s) :
      FerryRow s (.endEntry f k) (also (wordsAndEvent (pgFerry f.val) [0x00C]) (parts [.ferry f.val])) (fun t =>
        ferryState t f.val = 3 ∧ EventSet s t (pgFerry f.val) 0 ∧ (0, k) ∈ (t.ferry f.val).done)
  /-- ABORT is the keel abort of the ferry's group: its members are told, its ferries and the group abort (R256). -/
  | abort (f : Fin 8) (a : Access) (h : HostTakes s (pgFerry f.val) 0x06C a) (h1 : a.data.toNat % 8 = 2)
      (h2 : ferryState s f.val = 1 ∨ ferryState s f.val = 2) (h3 : AbortsPlainly s (ferryGroup s f.val)) :
      FerryRow s (.abort f a) (abortParts (ferryGroup s f.val)) (fun t =>
        ferryState t f.val = 4 ∧ groupState t (ferryGroup s f.val) = 5 ∧ EventSet s t (pgFerry f.val) 3 ∧
          EventSet s t (pgGtab (ferryGroup s f.val)) 3 ∧ AbortTold s t (ferryGroup s f.val))
  /-- A LAND not confirmed by its DUE and the slack is overdue: it is reported, and its group aborts (R253). -/
  | overdue (f : Fin 8) (k i : Nat) (h : overdueIter s f.val k = some i) (h1 : AbortsPlainly s (ferryGroup s f.val)) :
      FerryRow s (.ferryOverdue f k) (also (abortParts (ferryGroup s f.val)) (words (pgFerry f.val) [0x094, 0x098])) (fun t =>
        t.rd (pgFerry f.val) 0x094 = (Machine.entryAt s f.val i k).seq ∧ t.rdN (pgFerry f.val) 0x098 = (Machine.entryAt s f.val i k).peer.toNat ∧
          ferryState t f.val = 4 ∧ EventsSet s t (pgFerry f.val) 0xC ∧ AbortTold s t (ferryGroup s f.val))

end Sys2Proof.Claims

/-- The function block's commands and bollards written by the host (07 R196 to R199; 08 R231). -/
def Obligations.FunctionBlockResults : Prop := Rows FnBlockRow

/-- Ferries are armed, validated, sail, open zones, pass marks, end and abort (09 R240 to R257; readings: log 47). -/
def Obligations.FerryResults : Prop := Rows FerryRow

/-- Validation names the first entry that fails, with the lowest cause that it fails (09 R244). -/
def Obligations.ValidationNamesTheFirstFailure : Prop :=
  ∀ (s : State) (f n : Nat),
    (validate s f n 0 = none ↔ ∀ k, k < n → entryCause s f n 0 k = none) ∧
    ∀ k c, validate s f n 0 = some (k, c) ↔
      (k < n ∧ entryCause s f n 0 k = some c ∧ ∀ j, j < k → entryCause s f n 0 j = none)

namespace Sys2Proof.Claims
open Sys2Proof.Machine

/-- A doorbell of BAR4 is taken: the write goes to the TAIL it names (17 R444, R445). -/
abbrev DoorbellTaken (s : State) (page : Nat) (a : Access) : Prop :=
  hostUp s = true ∧ vfClosed s a.func.val = false ∧ a.be = 15 ∧
    (a.func.val = 0 ∨ vfBerth s a.func.val = some (pageOwner s page)) ∧ (pageLocked s page = true → onOwnersStream s page a = true)

/-- What changes when a group's entry changes: its words, its run, an event of its page with EVT_GROUP. -/
abbrev groupParts (g : Nat) (offs : List Nat) : Part → Prop :=
  also (wordsAndEvent (pgGtab g) (0x240 :: offs.map (gOff g))) (parts [.group g])

/-- The tier 0 charge of the group's berth (12 R314). -/
abbrev chargeOf (s : State) (g : Nat) : Part → Prop := parts [.reg (regKey (pgBerth (groupOwner s g)) 0x64C)]

/-- Another member's notice is still missing. -/
abbrev NoticeMissing (s : State) (g : Nat) : Prop :=
  ∃ m ∈ (s.group g).members, m.toNat ≠ nodeId s ∧ ∀ x ∈ (s.group g).notices, x.1 ≠ m

/-- The descriptor at a queue's head. -/
def headDesc (s : State) (g : Nat) : CollDesc := collDesc (s.bytes (descAddr s g) 64)

/-- What a descriptor that completes changes: its STATUS, HEAD, LAST_SEQ, LAST_CODE, NEXT_SEQ, an event of the queue. -/
abbrev completionParts (s : State) (g : Nat) : Part → Prop :=
  also (also (wordsAndEvent (pgCq g) [0x04C, 0x064, 0x068]) (words (pgGtab g) [gOff g 0x28])) (writesAt (descAddr s g + 56) 4)

/-- The header of part `y` of a transfer (10 R271, R274). -/
def chunkHeader (s : State) (g : Nat) (d : CollDesc) (n dest : Nat) (p : Piece) (y : Nat × Nat × Nat) : ConsHdr :=
  { kind := 2, stream := g, seq := (collKey s g d (BitVec.ofNat 16 (nodeId s)) n y.1).seq, due := dueTide d n,
    len := ceilDiv y.2.2 4096, attempt := 0, berth := groupOwner s g, src := nodeId s, dst := dest,
    srcPlace := placeCode (((pieceAddr d p).map (fun a => a + y.2.1)).getD (groupStage s g)), dstPlace := 0, addr := 0 }

/-- What a receiver writes for a chunk (10 R272, R273). -/
def chunkResult (s : State) (g : Nat) (d : CollDesc) (n : Nat) (p : Piece) : RecvWork → List Byte
  | .copy => s.bytes (slotAddr s g n) p.len
  | .ownRight o => combineBytes d.fmt d.red (s.bytes (slotAddr s g n) p.len) (pieceBytes s g d o)
  | .ownLeft o => combineBytes d.fmt d.red (pieceBytes s g d o) (s.bytes (slotAddr s g n) p.len)

/-- Groups and their queues (10 R263 to R270). -/
inductive GroupRow (s : State) : Instr → (Part → Prop) → (State → Prop) → Prop where
  /-- CREATE with no failing cause: the members are read, the staging charged, every other member told (R264, R265). -/
  | create (g : Fin 64) (a : Access) (h : HostTakes s (pgGtab g.val) (gOff g.val 0x1C) a) (h1 : a.data.toNat % 4 = 1)
      (h2 : groupState s g.val = 0 ∨ groupState s g.val = 7) (h3 : createCause s g.val = 0) (h4 : 2 ≤ (memberWords s g.val).length) :
      GroupRow s (.create g a) (also (groupParts g.val [0x20, 0x24, 0x28, 0x2C]) (chargeOf s g.val)) (fun t =>
        groupState t g.val = 1 ∧ (t.group g.val).members = (memberWords s g.val).map (BitVec.ofNat 16) ∧
          groupCount t g.val = (memberWords s g.val).length ∧ nextSeq t g.val = 0 ∧ memberAt t g.val (t.get (fGroupRank g.val)) = BitVec.ofNat 16 (nodeId s) ∧
          ∀ m ∈ others t g.val, Out.creationNotice g.val m (groupDigest t g.val) (ringReady t g.val) ∈ t.out)
  /-- A group of this chip alone needs no notice: it is READY at once (R265, R266). -/
  | createAlone (g : Fin 64) (a : Access) (h : HostTakes s (pgGtab g.val) (gOff g.val 0x1C) a) (h1 : a.data.toNat % 4 = 1)
      (h2 : groupState s g.val = 0 ∨ groupState s g.val = 7) (h3 : createCause s g.val = 0) (h4 : (memberWords s g.val).length = 1) :
      GroupRow s (.create g a) (also (groupParts g.val [0x20, 0x24, 0x28, 0x2C]) (chargeOf s g.val)) (fun t =>
        groupState t g.val = 2 ∧ (t.rd (pgGtab g.val) 0x010).getLsbD 0 = true ∧ groupCount t g.val = 1 ∧ nextSeq t g.val = 0 ∧
          (t.group g.val).members = [BitVec.ofNat 16 (nodeId s)])
  /-- … else the entry is REFUSED with the first failing cause (R264). -/
  | createRefused (g : Fin 64) (a : Access) (h : HostTakes s (pgGtab g.val) (gOff g.val 0x1C) a) (h1 : a.data.toNat % 4 = 1)
      (h2 : groupState s g.val = 0 ∨ groupState s g.val = 7) (h3 : createCause s g.val ≠ 0) :
      GroupRow s (.create g a) (also (groupParts g.val [0x20]) (chargeOf s g.val)) (fun t =>
        groupState t g.val = 7 ∧ t.get (fGroupCause g.val) = createCause s g.val ∧ (t.group g.val).members = [] ∧
          EventSet s t (pgGtab g.val) 1)
  /-- DELETE of a group that runs nothing frees its entry (R267). -/
  | delete (g : Fin 64) (a : Access) (h : HostTakes s (pgGtab g.val) (gOff g.val 0x1C) a) (h1 : a.data.toNat % 4 = 2)
      (h2 : groupState s g.val ≠ 0) (h3 : groupState s g.val ≠ 3) (h4 : groupState s g.val ≠ 4)
      (h5 : (qTail s g.val + 2 ^ 17 - qHead s g.val) % 2 ^ 17 = 0) :
      GroupRow s (.delete g a) (also (also (groupParts g.val [0x20, 0x24, 0x28, 0x2C]) (chargeOf s g.val)) (parts [.log])) (fun t =>
        groupState t g.val = 0 ∧ (t.group g.val).members = [] ∧ groupCount t g.val = 0)
  /-- … and of one that runs a collective waits for a step mark (R287). -/
  | deleteWaits (g : Fin 64) (a : Access) (h : HostTakes s (pgGtab g.val) (gOff g.val 0x1C) a) (h1 : a.data.toNat % 4 = 2)
      (h2 : groupState s g.val = 3 ∨ groupState s g.val = 4) :
      GroupRow s (.delete g a) (parts [.group g.val, .signals]) (fun t =>
        t.group g.val = { s.group g.val with deleting := true, deleteMark := nextMark s g.val })
  /-- A notice is recorded while others are missing (R265). -/
  | notice (g : Fin 64) (m : BitVec 16) (dg : W32) (ring : Bool) (h : groupState s g.val = 1) (h1 : m ∈ (s.group g.val).members)
      (h2 : ∀ x ∈ (s.group g.val).notices, x.2.1 = groupDigest s g.val) (h3 : dg = groupDigest s g.val)
      (h4 : ∃ k ∈ (s.group g.val).members, k ≠ m ∧ ∀ x ∈ (s.group g.val).notices, x.1 ≠ k) :
      GroupRow s (.creationNotice g m dg ring) (parts [.group g.val, .signals]) (fun t =>
        t.group g.val = { s.group g.val with
          notices := (s.group g.val).notices.filter (fun x => x.1 != m) ++ [(m, dg, ring)] } ∧ groupState t g.val = 1)
  /-- The last one makes the group READY, with the fall-back where one is forced or a neighbour is missing (R266). -/
  | ready (g : Fin 64) (m : BitVec 16) (dg : W32) (ring : Bool) (h : groupState s g.val = 1) (h1 : m ∈ (s.group g.val).members)
      (h2 : ∀ x ∈ (s.group g.val).notices, x.2.1 = groupDigest s g.val) (h3 : dg = groupDigest s g.val)
      (h4 : ∀ k ∈ (s.group g.val).members, k ≠ m → ∃ x ∈ (s.group g.val).notices, x.1 = k) :
      GroupRow s (.creationNotice g m dg ring) (groupParts g.val [0x20]) (fun t =>
        groupState t g.val = 2 ∧ (t.rd (pgGtab g.val) 0x010).getLsbD 0 = true ∧ (t.group g.val).notices = [] ∧
          t.bit (fGroupFall g.val) = (groupCfg s g.val 17 1 == 1 || !ring ||
            (s.group g.val).notices.any (fun x => x.1 != m && !x.2.2)))
  /-- A digest that differs refuses the group with cause 6 (R266). -/
  | digestDiffers (g : Fin 64) (m : BitVec 16) (dg : W32) (ring : Bool) (h : groupState s g.val = 1)
      (h1 : m ∈ (s.group g.val).members) (h2 : dg ≠ groupDigest s g.val) :
      GroupRow s (.creationNotice g m dg ring) (also (groupParts g.val [0x20]) (chargeOf s g.val)) (fun t =>
        groupState t g.val = 7 ∧ t.get (fGroupCause g.val) = 6 ∧ EventSet s t (pgGtab g.val) 1)
  /-- TAIL of a queue, within its size (R268). -/
  | tail (g : Fin 64) (a : Access) (h : HostTakes s (pgCq g.val) 0x050 a)
      (h1 : (a.data.toNat % 2 ^ 17 + 2 ^ 17 - qHead s g.val) % 2 ^ 17 ≤ qSize s g.val) :
      GroupRow s (.tail g a) (words (pgCq g.val) [0x050]) (fun t => qTail t g.val = a.data.toNat % 2 ^ 17)
  /-- … and past it: ignored with 0x6202 (R268). -/
  | tailPast (g : Fin 64) (a : Access) (h : HostTakes s (pgCq g.val) 0x050 a)
      (h1 : qSize s g.val < (a.data.toNat % 2 ^ 17 + 2 ^ 17 - qHead s g.val) % 2 ^ 17) :
      GroupRow s (.tail g a) (wordsAndEvent (pgCq g.val) []) (fun t => EventSet s t (pgCq g.val) 2)
  /-- The doorbell is the same write (17 R445). -/
  | doorbell (g : Fin 64) (a : Access) (h : DoorbellTaken s (pgCq g.val) a)
      (h1 : (a.data.toNat % 2 ^ 17 + 2 ^ 17 - qHead s g.val) % 2 ^ 17 ≤ qSize s g.val) :
      GroupRow s (.cqDb g a) (words (pgCq g.val) [0x050]) (fun t => qTail t g.val = a.data.toNat % 2 ^ 17)
  /-- A good descriptor is taken: the group is ACTIVE, and the first transfer of every staging slot gets its credit (R270, R276). -/
  | taken (g : Fin 64) (h : takeDue s g.val = true) (h1 : groupState s g.val = 2) (h2 : descCause s g.val (headDesc s g.val) = 0)
      (h3 : ∃ n, n < transferCount (collPlan s g.val (headDesc s g.val)) ∧
        ((sendOf (collCtx s g.val (headDesc s g.val)) (collPlan s g.val (headDesc s g.val)) n).isSome = true ∨
          (recvOf (collCtx s g.val (headDesc s g.val)) (collPlan s g.val (headDesc s g.val)) n).isSome = true)) :
      GroupRow s (.descriptorTake g) (also (groupParts g.val [0x20]) (words (pgCq g.val) [0x054])) (fun t =>
        groupState t g.val = 3 ∧ t.rd (pgCq g.val) 0x054 = 0 ∧ qHead t g.val = qHead s g.val ∧
          (∃ c, (t.group g.val).coll = some c ∧ c.desc = s.bytes (descAddr s g.val) 64 ∧ c.launched = [] ∧ c.written = [] ∧
            c.credit = (s.group g.val).early) ∧
          ∀ n k q p w, n < groupDepth s g.val →
            recvOf (collCtx s g.val (headDesc s g.val)) (collPlan s g.val (headDesc s g.val)) n = some (k, q, p, w) →
            Out.credit g.val (memberAt s g.val q) n ∈ t.out)
  /-- A bad one completes with 0x6202 and its cause, and the queue goes on (R270). -/
  | descRefused (g : Fin 64) (c : Nat) (h : takeDue s g.val = true) (h1 : groupState s g.val ≠ 5) (h2 : groupState s g.val ≠ 6)
      (h3 : descCause s g.val (headDesc s g.val) = c) (h4 : c ≠ 0) :
      GroupRow s (.descriptorTake g) (completionParts s g.val) (fun t =>
        qHead t g.val = (qHead s g.val + 1) % 2 ^ 17 ∧ EventSet s t (pgCq g.val) 2 ∧
          t.rd (pgCq g.val) 0x064 = (headDesc s g.val).seq ∧ t.rdN (pgCq g.val) 0x068 = 0x6202 + c * 65536 ∧
          nextSeq t g.val = (if c = 2 then nextSeq s g.val else nextSeq s g.val + 1))
  /-- A group that aborted completes its queue with 0x6001 (R285). -/
  | afterAbort (g : Fin 64) (h : takeDue s g.val = true) (h1 : groupState s g.val = 5) :
      GroupRow s (.descriptorTake g) (completionParts s g.val) (fun t =>
        qHead t g.val = (qHead s g.val + 1) % 2 ^ 17 ∧ EventSet s t (pgCq g.val) 5 ∧ t.rdN (pgCq g.val) 0x068 = 0x6001)

/-- Collectives under way, their failure and re-forming (10 R274 to R287). -/
inductive CollectiveRow (s : State) : Instr → (Part → Prop) → (State → Prop) → Prop where
  /-- A transfer sails at its tide, with its gate open, its data ready and its credit there: every part is a consignment (R274 to
  R276). -/
  | launch (g : Fin 64) (n k q port : Nat) (p : Piece) (c : Coll) (d : CollDesc) (h : groupState s g.val = 3)
      (h1 : (s.group g.val).coll = some c) (h2 : d = collDesc c.desc) (h3 : c.stopped = false) (h4 : c.begun = true)
      (h5 : sendOf (collCtx s g.val d) (collPlan s g.val d) n = some (k, q, p)) (h6 : n ∉ c.launched) (h7 : n ∈ c.credit)
      (h8 : reachedNow s (launchTide d n) = true) (h9 : s.now = launchTide d n) (h10 : collGate s g.val d = true)
      (h11 : dataReady (collCtx s g.val d) (collPlan s g.val d) c k p = true)
      (h12 : collPort s g.val d (memberAt s g.val q).toNat = some port)
      (h13 : ∀ y ∈ partsOf p.len, hdrGood (hdrBytes (chunkHeader s g.val d n (memberAt s g.val q).toNat p y)) = true)
      (h14 : storeGet s.sealCtr (linkKeyOf s (groupOwner s g.val % 256)) 0 + (partsOf p.len).length < 2 ^ 64) :
      CollectiveRow s (.transferLaunch g n) (also (also someLinks flitsSent) (parts [.group g.val, .held, .seals, .signals])) (fun t =>
        (t.group g.val).coll = some { c with launched := c.launched ++ [n] } ∧
        ∀ y ∈ partsOf p.len,
          (∃ x ∈ t.held, x.hdr = hdrBytes (chunkHeader s g.val d n (memberAt s g.val q).toNat p y) ∧ x.attempt = 0 ∧ x.port = port ∧
            x.crc = consCrc x.hdr (((pieceBytes s g.val d p).drop y.2.1).take y.2.2)) ∧
          ∃ blk crc, Out.sail port (withAttempt (hdrBytes (chunkHeader s g.val d n (memberAt s g.val q).toNat p y)) 0) blk crc ∈ t.out)
  /-- A credit for a transfer of the collective in progress (R276). -/
  | credit (g : Fin 64) (n : Nat) (c : Coll) (h : groupState s g.val = 3) (h1 : (s.group g.val).coll = some c)
      (h2 : (sendOf (collCtx s g.val (collDesc c.desc)) (collPlan s g.val (collDesc c.desc)) n).isSome = true) (h3 : n ∉ c.credit) :
      CollectiveRow s (.credit g n) (parts [.group g.val, .signals]) (fun t =>
        t.group g.val = { s.group g.val with coll := some { c with credit := c.credit ++ [n] } })
  /-- A credit that comes before its collective is kept (log 46). -/
  | early (g : Fin 64) (n : Nat) (h : groupState s g.val = 2 ∨ groupState s g.val = 3) (h1 : (s.group g.val).coll = none) :
      CollectiveRow s (.credit g n) (parts [.group g.val, .signals]) (fun t =>
        t.group g.val = { s.group g.val with early := (s.group g.val).early ++ [n] })
  /-- The engine writes a chunk whose parts are confirmed: copied, or reduced with this rank's own (R272, R273, R276). -/
  | written (g : Fin 64) (n k q : Nat) (p : Piece) (w : RecvWork) (c : Coll) (d : CollDesc) (h : groupState s g.val = 3)
      (h1 : (s.group g.val).coll = some c) (h2 : d = collDesc c.desc) (h3 : writable s g.val c n = true)
      (h4 : recvOf (collCtx s g.val d) (collPlan s g.val d) n = some (k, q, p, w)) (h5 : p.buf = .dst)
      (h6 : (chunkResult s g.val d n p w).length = p.len)
      (h7 : overlap (placeBits d.dst + p.off) p.len (placeBits d.src) (srcBytes (collCtx s g.val d)) = false) (h8 : s.poison = [])
      (h9 : ∃ m, m ≠ n ∧ m < transferCount (collPlan s g.val d) ∧
        transferDone (collCtx s g.val d) (collPlan s g.val d) c m = false) :
      CollectiveRow s (.chunkWritten g n) (also (writesAt (placeBits d.dst + p.off) p.len) (parts [.group g.val, .signals])) (fun t =>
        (∃ c', (t.group g.val).coll = some c' ∧ c'.written = c.written ++ [n] ∧ c'.launched = c.launched ∧ c'.credit = c.credit) ∧
        ∀ j, j < p.len → t.byte (placeBits d.dst + p.off + j) = (chunkResult s g.val d n p w).getD j 0)
  /-- A timeout of a group that is no keel: the others hear of the suspect, and the group re-forms 131,072 ticks later (R282, R283). -/
  | timeout (g : Fin 64) (n : Nat) (m : BitVec 16) (h : suspectOf s g.val n = some m) (h1 : s.bit (fGroupKeel g.val) = false) :
      CollectiveRow s (.collTimeout g n) (also (words (pgGtab g.val) [gOff g.val 0x20]) (parts [.group g.val])) (fun t =>
        groupState t g.val = 4 ∧ (t.group g.val).reformAt = some (s.now + 131072) ∧ (t.group g.val).removal = [m] ∧
          (∃ c, (t.group g.val).coll = some c ∧ c.stopped = true) ∧
          ∃ seq, ∀ k ∈ others s g.val, Out.reformNotice g.val k seq m (s.now + 131072) ∈ t.out)
  /-- A re-form notice stops the collective here too (R283). -/
  | reformNotice (g : Fin 64) (seq : W32) (m : BitVec 16) (at_ : W64) (h : groupState s g.val = 2 ∨ groupState s g.val = 3)
      (h1 : s.bit (fGroupKeel g.val) = false) (h2 : (s.group g.val).reforming = false) :
      CollectiveRow s (.reformNotice g seq m at_) (also (words (pgGtab g.val) [gOff g.val 0x20]) (parts [.group g.val])) (fun t =>
        groupState t g.val = 4 ∧ (t.group g.val).removal = [m] ∧ (t.group g.val).reformSeq = seq ∧
          (t.group g.val).reformAt = some at_ ∧
          (t.group g.val).members = (s.group g.val).members)
  /-- At the re-form tide the members that are not suspected go on: the new member array, COUNT, RANK, EPOCH, and new notices (R284). -/
  | reform (g : Fin 64) (h : reformDue s g.val = true) (h1 : (s.group g.val).coll = none)
      (h2 : ∀ m ∈ (s.group g.val).removal, m.toNat ≠ nodeId s) (h3 : (s.group g.val).notices = [])
      (h4 : ∃ m ∈ (s.group g.val).members, m ∉ (s.group g.val).removal ∧ m.toNat ≠ nodeId s) (h5 : s.poison = [])
      (h6 : NothingDeferred s) (h7 : (s.group g.val).members.length < 2 ^ 32) :
      CollectiveRow s (.reform g)
        (also (groupParts g.val [0x20, 0x24, 0x28, 0x2C]) (writesAt (placeBits (s.rd64 (pgGtab g.val) (gOff g.val 0x00)).toNat)
          (4 * (s.group g.val).members.length))) (fun t =>
        (t.group g.val).members = (s.group g.val).members.filter (fun m => !(s.group g.val).removal.contains m) ∧
          groupCount t g.val = (t.group g.val).members.length ∧ (t.group g.val).reforming = true ∧ groupState t g.val = 4 ∧
          t.rdN (pgGtab g.val) (gOff g.val 0x2C) = min (s.rdN (pgGtab g.val) (gOff g.val 0x2C) + 1) (2 ^ 32 - 1) ∧
          EventSet s t (pgGtab g.val) 2 ∧
          ∀ m ∈ others t g.val, ∃ dg ring, Out.creationNotice g.val m dg ring ∈ t.out)
  /-- A suspected member is expelled (R284). -/
  | expelled (g : Fin 64) (h : reformDue s g.val = true) (h1 : (s.group g.val).coll = none)
      (h2 : ∃ m ∈ (s.group g.val).removal, m.toNat = nodeId s) (h6 : NothingDeferred s) :
      CollectiveRow s (.reform g) (groupParts g.val [0x20, 0x28]) (fun t =>
        groupState t g.val = 6 ∧ EventSet s t (pgGtab g.val) 4 ∧ (t.group g.val).members = (s.group g.val).members)
  /-- A keel abort notice (R285). -/
  | abortNotice (g : Fin 64) (h : s.bit (fGroupKeel g.val) = true) (h1 : AbortsPlainly s g.val) :
      CollectiveRow s (.abortNotice g) (abortParts g.val) (fun t =>
        groupState t g.val = 5 ∧ EventSet s t (pgGtab g.val) 3 ∧
          ∀ f, f < 8 → ferryGroup s f = g.val → (ferryState s f = 1 ∨ ferryState s f = 2) →
            ferryState t f = 4 ∧ EventSet s t (pgFerry f) 3)

end Sys2Proof.Claims

/-- Groups are created, made ready, refused and deleted, and descriptors queued and taken (10 R263 to R270; readings: log 46). -/
def Obligations.GroupResults : Prop := Rows GroupRow

/-- Collectives launch, land, time out, re-form and abort (10 R274 to R287; readings: log 46). -/
def Obligations.CollectiveResults : Prop := Rows CollectiveRow

/-- The ring's ranks agree (10 R279): what rank r sends in a transfer to rank q, rank q receives in the same transfer from r, at the
same step and of the same length; for all-reduce, all-gather and broadcast it lands at the offset it was sent from. -/
def Obligations.RingRanksAgree : Prop :=
  ∀ (x : CollCtx) (n k q : Nat) (p : Piece),
    2 ≤ x.G → x.r < x.G → x.root < x.G → x.op < 5 → sendOf x (ringPlan x) n = some (k, q, p) →
    q < x.G ∧ ∃ p' w, recvOf { x with r := q } (ringPlan { x with r := q }) n = some (k, x.r, p', w) ∧ p'.len = p.len ∧
      (x.op = opAllReduce ∨ x.op = opAllGather ∨ x.op = opBroadcast → p'.off = p.off)

namespace Sys2Proof.Claims
open Sys2Proof.Machine

/-- The word of a link's latency (01 R34). -/
abbrev latWord (n : Nat) : Part → Prop := words pgTide [0x100 + 4 * n]

/-- What a change of a link or port shows in TOPO: CHANGE, and the announcement to the triad (11 R305, R306). -/
abbrev topoNews : Part → Prop := wordsAndEvent pgTopo []

/-- What the training of a link changes at this end besides what it finds. -/
abbrev trainParts (n : Nat) (offs : List Nat) : Part → Prop :=
  also (also (wordsAndEvent (pgLnk n) offs) (latWord n)) (also topoNews (parts [.link n]))

/-- A link begins step 1 (11 R298). -/
abbrev Training (s t : State) (n : Nat) : Prop :=
  linkState t n = 1 ∧ linkWidth t n = 0 ∧ (t.link n).step = 1 ∧ (t.link n).ownDone = false ∧ (t.link n).farDone = false ∧
    (t.link n).stepAt = s.tide.clock ∧ t.bit ⟨pgTide, 0x100 + 4 * n, 31, 1⟩ = false ∧ Out.lasers n true ∈ t.out ∧ Out.train n 1 ∈ t.out

/-- … once more (11 R300): 0x5004, and RETRAINS counts. -/
abbrev Retrained (s t : State) (n : Nat) : Prop :=
  Training s t n ∧ EventSet s t (pgLnk n) 4 ∧ t.rdN (pgLnk n) 0x048 = min (s.rdN (pgLnk n) 0x048 + 1) (2 ^ 32 - 1)

/-- The lanes good at both ends and at self-test (11 R299). -/
def goodLanes (own far bad : BitVec 9) : BitVec 9 := (own &&& far) &&& ~~~bad

/-- How many they are. -/
def laneCount (l : BitVec 9) : Nat := ((List.range 9).filter (fun i => l.getLsbD i)).length

/-- The lane that has failed, where the spare can take its place (11 R300). -/
abbrev Spares (s : State) (n lane : Nat) : Prop := lane < 8 ∧ spareStandsBy s n = true

/-- The spare has taken over a lane (11 R300). -/
abbrev Spared (s t : State) (n lane : Nat) (lat16 : BitVec 24) : Prop :=
  t.bit (fSpareUsed n) = true ∧ t.get (fSparedLane n) = lane ∧ linkState t n = linkState s n ∧ EventSet s t (pgLnk n) 3 ∧
    t.rdN (pgLnk n) 0x04C = min (s.rdN (pgLnk n) 0x04C + 1) (2 ^ 32 - 1) ∧
    t.rdN pgTide (0x100 + 4 * n) = lat16.toNat + 2 ^ 31 ∧ Out.switchLane n lane (s.link n).txSeq ∈ t.out

/-- Links and topology (11_links). -/
inductive LinkRow (s : State) : Instr → (Part → Prop) → (State → Prop) → Prop where
  /-- EN is set: the link trains (R298). -/
  | enable (n : Fin 16) (a : Access) (h : HostTakes s (pgLnk n.val) 0x008 a) (h1 : a.data.getLsbD 0 = true)
      (h2 : s.bit (fLnkEn n.val) = false) (h3 : s.bit fCfgValid = true) (h4 : linksLive s = true) :
      LinkRow s (.linkEn n a) (trainParts n.val [0x008, 0x00C]) (fun t => t.bit (fLnkEn n.val) = true ∧ Training s t n.val)
  /-- … but not before step 9 of bring-up, or without a valid configuration (15 R396; R302). -/
  | enableEarly (n : Fin 16) (a : Access) (h : HostTakes s (pgLnk n.val) 0x008 a) (h1 : a.data.getLsbD 0 = true)
      (h2 : s.bit (fLnkEn n.val) = false) (h3 : s.bit fCfgValid = false ∨ linksLive s = false) :
      LinkRow s (.linkEn n a) (words (pgLnk n.val) [0x008]) (fun t => t.bit (fLnkEn n.val) = true)
  /-- EN is cleared: the link is OFF and dark (R298). -/
  | disable (n : Fin 16) (a : Access) (h : HostTakes s (pgLnk n.val) 0x008 a) (h1 : a.data.getLsbD 0 = false)
      (h2 : s.bit (fLnkEn n.val) = true) :
      LinkRow s (.linkEn n a) (also (trainParts n.val [0x008, 0x00C]) (parts [.log])) (fun t =>
        t.bit (fLnkEn n.val) = false ∧ linkState t n.val = 0 ∧ linkWidth t n.val = 0 ∧ (t.link n.val).step = 0 ∧
          Out.lasers n.val false ∈ t.out)
  /-- RETRAIN of an enabled link (R300). -/
  | retrain (n : Fin 16) (a : Access) (h : HostTakes s (pgLnk n.val) 0x008 a) (h1 : a.data.getLsbD 0 = true)
      (h2 : a.data.getLsbD 2 = true) (h3 : s.bit (fLnkEn n.val) = true) (h4 : s.bit fCfgValid = true) (h5 : linksLive s = true) :
      LinkRow s (.retrain n a) (trainParts n.val [0x008, 0x00C, 0x048]) (fun t => Retrained s t n.val)
  /-- The far end's training pattern retrains an enabled link that is MISSING or in service (R486). -/
  | pattern (n : Fin 16) (h : running s = true) (h1 : s.bit (fLnkEn n.val) = true) (h2 : s.bit fCfgValid = true)
      (h3 : linkState s n.val = 4 ∨ trained s n.val = true) :
      LinkRow s (.trainingPattern n) (trainParts n.val [0x00C, 0x048]) (fun t => Retrained s t n.val)
  /-- This end completes a step before the far end (R486). -/
  | ownFirst (n : Fin 16) (m : TrainReport) (h : inStep s n.val m = true) (h1 : (s.link n.val).ownDone = false)
      (h2 : (s.link n.val).farDone = false) (h3 : m.step.val ≠ 3) (h4 : m.step.val ≠ 6) :
      LinkRow s (.trainingStepComplete n m) (parts [.link n.val, .signals]) (fun t =>
        t.link n.val = { s.link n.val with ownDone := true })
  /-- … or after it: the next step begins (R298, R486). -/
  | ownLast (n : Fin 16) (m : TrainReport) (h : inStep s n.val m = true) (h1 : (s.link n.val).ownDone = false)
      (h2 : (s.link n.val).farDone = true) (h3 : m.step.val = 1 ∨ m.step.val = 2 ∨ m.step.val = 4) :
      LinkRow s (.trainingStepComplete n m) (parts [.link n.val, .signals]) (fun t =>
        (t.link n.val).step = m.step.val + 1 ∧ (t.link n.val).ownDone = false ∧ (t.link n.val).farDone = false ∧
          (t.link n.val).stepAt = s.tide.clock ∧ Out.train n.val (m.step.val + 1) ∈ t.out)
  /-- Step 3 chooses the lanes: LANE_OK, the spare where eight of nine are good, and the next step if they are wide enough (R299). -/
  | lanesChosen (n : Fin 16) (m : TrainReport) (ok : BitVec 9) (h : inStep s n.val m = true) (h1 : (s.link n.val).ownDone = false)
      (h2 : (s.link n.val).farDone = true) (h3 : m.step.val = 3)
      (h4 : ok = goodLanes m.lanes (s.link n.val).farLanes (s.link n.val).loopBad)
      (h5 : widthOf (laneCount ok) ≠ 0) (h6 : 2 ^ s.get (fLnkMinWidth n.val) ≤ widthOf (laneCount ok)) :
      LinkRow s (.trainingStepComplete n m) (also (words (pgLnk n.val) [0x00C]) (parts [.link n.val])) (fun t =>
        t.get (fLaneOk n.val) = ok.toNat ∧ (t.link n.val).step = 4 ∧ Out.train n.val 4 ∈ t.out)
  /-- … else the link is MISSING at step 3. -/
  | tooNarrow (n : Fin 16) (m : TrainReport) (ok : BitVec 9) (h : inStep s n.val m = true) (h1 : (s.link n.val).ownDone = false)
      (h2 : (s.link n.val).farDone = true) (h3 : m.step.val = 3)
      (h4 : ok = goodLanes m.lanes (s.link n.val).farLanes (s.link n.val).loopBad)
      (h5 : widthOf (laneCount ok) < 2 ^ s.get (fLnkMinWidth n.val)) :
      LinkRow s (.trainingStepComplete n m) (trainParts n.val [0x00C]) (fun t =>
        linkState t n.val = 4 ∧ t.get (fLnkFail n.val) = 3 ∧ (t.link n.val).missingAt = s.tide.clock ∧ (t.link n.val).step = 0)
  /-- Step 6 brings the link up, at the width of its good lanes, with its credits and its latency (R296, R298; 01 R34). -/
  | up (n : Fin 16) (m : TrainReport) (w : Nat) (h : inStep s n.val m = true) (h1 : (s.link n.val).ownDone = false)
      (h2 : (s.link n.val).farDone = true) (h3 : m.step.val = 6) (h4 : m.lat16.toNat ≤ 3584 * 16)
      (h5 : w = widthOf ((List.range 9).filter (fun i => (s.get (fLaneOk n.val)).testBit i)).length) :
      LinkRow s (.trainingStepComplete n m)
        (also (trainParts n.val (0x00C :: (List.range 9).map (fun i => 0x080 + 4 * i)))
          (also (words pgTopo ((List.range 16).map (fun i => 0x090 + 4 * i))) (parts [.ports, .routes]))) (fun t =>
        linkState t n.val = (if w = 8 then 2 else 3) ∧ linkWidth t n.val = w ∧
          t.rdN pgTide (0x100 + 4 * n.val) = m.lat16.toNat + 2 ^ 31 ∧ (t.link n.val).step = 0 ∧
          (t.link n.val).credits = [128, 2560, 3072, 2432] ∧ (t.rd (pgLnk n.val) 0x010).getLsbD 0 = true ∧
          (w < 8 → (t.rd (pgLnk n.val) 0x010).getLsbD 2 = true))
  /-- The far end's report of a step this end has not completed (R486). -/
  | farFirst (n : Fin 16) (m : TrainReport) (h : inStep s n.val m = true) (h1 : (s.link n.val).farDone = false)
      (h2 : (s.link n.val).ownDone = false) (h3 : m.step.val ≠ 3) (h4 : m.step.val ≠ 5) :
      LinkRow s (.trainingMessage n m) (parts [.link n.val, .signals]) (fun t =>
        t.link n.val = { s.link n.val with farDone := true })
  /-- … and of one it has. -/
  | farLast (n : Fin 16) (m : TrainReport) (h : inStep s n.val m = true) (h1 : (s.link n.val).farDone = false)
      (h2 : (s.link n.val).ownDone = true) (h3 : m.step.val = 1 ∨ m.step.val = 2 ∨ m.step.val = 4) :
      LinkRow s (.trainingMessage n m) (parts [.link n.val, .signals]) (fun t =>
        (t.link n.val).step = m.step.val + 1 ∧ (t.link n.val).ownDone = false ∧ (t.link n.val).farDone = false ∧
          Out.train n.val (m.step.val + 1) ∈ t.out)
  /-- Step 5 tells who lies at the far end: LINKMAP (R302, R303). -/
  | identified (n : Fin 16) (m : TrainReport) (h : inStep s n.val m = true) (h1 : (s.link n.val).farDone = false)
      (h2 : (s.link n.val).ownDone = false) (h3 : m.step.val = 5) (h4 : (classify s m.node.toNat).1 ≠ 3) :
      LinkRow s (.trainingMessage n m) (also (words pgTopo [0x050 + 4 * n.val]) (parts [.link n.val])) (fun t =>
        farNode t n.val = m.node.toNat ∧ linkRole t n.val = (classify s m.node.toNat).1 ∧ (t.link n.val).farDone = true)
  /-- A far end that R303 has no place for: MISCABLED. -/
  | miscabled (n : Fin 16) (m : TrainReport) (h : inStep s n.val m = true) (h1 : (s.link n.val).farDone = false)
      (h3 : m.step.val = 5) (h4 : (classify s m.node.toNat).1 = 3) :
      LinkRow s (.trainingMessage n m) (also (trainParts n.val [0x00C]) (words pgTopo [0x050 + 4 * n.val])) (fun t =>
        linkState t n.val = 5 ∧ linkRole t n.val = 3 ∧ (t.link n.val).step = 0 ∧ EventSet s t (pgLnk n.val) 5)
  /-- A step's time is over: MISSING, FAIL names the step; DOWN where the link was in service (R298). -/
  | stepTimeout (n : Fin 16) (h : running s = true) (h1 : linkState s n.val = 1)
      (h2 : stepLimit (s.link n.val).step ≤ s.tide.clock - (s.link n.val).stepAt) (h3 : (s.link n.val).step < 7) :
      LinkRow s (.stepTimeout n) (trainParts n.val [0x00C]) (fun t =>
        linkState t n.val = 4 ∧ t.get (fLnkFail n.val) = (s.link n.val).step ∧ (t.link n.val).missingAt = s.tide.clock ∧
          ((s.link n.val).wasUp = true → EventSet s t (pgLnk n.val) 1))
  /-- A MISSING link tries again after 2^27 tide clocks (R300). -/
  | retry (n : Fin 16) (h : missingFree s n.val = true) (h1 : atRetrainMax s n.val = false) (h2 : s.bit fCfgValid = true)
      (h3 : 2 ^ 27 ≤ s.tide.clock - (s.link n.val).missingAt) :
      LinkRow s (.retryTimer n) (trainParts n.val [0x00C, 0x048]) (fun t => Retrained s t n.val)
  /-- RETRAIN_MAX retrains hold it MISSING (R301). -/
  | retrainLimit (n : Fin 16) (h : missingFree s n.val = true) (h1 : atRetrainMax s n.val = true) :
      LinkRow s (.retrainLimit n) (also (wordsAndEvent (pgLnk n.val) []) (parts [.link n.val])) (fun t =>
        t.link n.val = { s.link n.val with limited := true } ∧ EventSet s t (pgLnk n.val) 7)
  /-- One active lane goes dark and the spare takes its place (R300). -/
  | lightSpared (n : Fin 16) (lanes : BitVec 9) (lat16 : BitVec 24) (lane : Nat) (h : running s = true) (h1 : trained s n.val = true)
      (h2 : (activeLanes s n.val).filter (fun i => lanes.getLsbD i) = [lane]) (h3 : Spares s n.val lane) (h4 : lanes.getLsbD 8 = false) :
      LinkRow s (.lightLoss n lanes lat16)
        (also (also (wordsAndEvent (pgLnk n.val) [0x00C, 0x04C]) (latWord n.val)) (parts [.link n.val])) (fun t =>
        Spared s t n.val lane lat16 ∧ (t.link n.val).dark = (s.link n.val).dark ||| lanes)
  /-- Lanes that carry nothing go dark: only that is kept. -/
  | lightIdle (n : Fin 16) (lanes : BitVec 9) (lat16 : BitVec 24) (h : running s = true) (h1 : trained s n.val = true)
      (h2 : (activeLanes s n.val).filter (fun i => lanes.getLsbD i) = []) :
      LinkRow s (.lightLoss n lanes lat16) (parts [.link n.val, .signals]) (fun t =>
        t.link n.val = { s.link n.val with dark := (s.link n.val).dark ||| lanes })
  /-- More lanes go dark than the spare can replace: the link retrains (R300). -/
  | lightRetrain (n : Fin 16) (lanes : BitVec 9) (lat16 : BitVec 24) (h : running s = true) (h1 : trained s n.val = true)
      (h2 : 2 ≤ ((activeLanes s n.val).filter (fun i => lanes.getLsbD i)).length) :
      LinkRow s (.lightLoss n lanes lat16) (trainParts n.val [0x00C, 0x048]) (fun t => Retrained s t n.val)
  /-- A window of 2^20 flits in which no lane passes LANE_THRESH: the counts start again (R301). -/
  | windowClean (n : Fin 16) (far : BitVec 9) (lat16 : BitVec 24) (h : running s = true) (h1 : trained s n.val = true)
      (h2 : 2 ^ 20 ≤ (s.link n.val).winFlits)
      (h3 : ∀ i ∈ activeLanes s n.val, storeGet (s.link n.val).winErr i 0 ≤ s.get ⟨pgLnk n.val, 0x040, 0, 16⟩ ∧ far.getLsbD i = false) :
      LinkRow s (.laneWindow n far lat16) (parts [.link n.val, .signals]) (fun t =>
        t.link n.val = { s.link n.val with winFlits := 0, winErr := [] })
  /-- … in which one does: it is spared (R301). -/
  | windowSpared (n : Fin 16) (far : BitVec 9) (lat16 : BitVec 24) (lane : Nat) (h : running s = true) (h1 : trained s n.val = true)
      (h2 : 2 ^ 20 ≤ (s.link n.val).winFlits)
      (h3 : (activeLanes s n.val).filter (fun i =>
        decide (s.get ⟨pgLnk n.val, 0x040, 0, 16⟩ < storeGet (s.link n.val).winErr i 0) || far.getLsbD i) = [lane])
      (h4 : Spares s n.val lane) :
      LinkRow s (.laneWindow n far lat16)
        (also (also (wordsAndEvent (pgLnk n.val) [0x00C, 0x04C]) (latWord n.val)) (parts [.link n.val])) (fun t =>
        Spared s t n.val lane lat16 ∧ (t.link n.val).winFlits = 0)
  /-- 4096 tide clocks without an ACK: every flit after the last one acknowledged is sent again (R294). -/
  | ackTimeout (n : Fin 16) (h : running s = true) (h1 : trained s n.val = true) (h2 : unacked (s.link n.val) ≠ 0)
      (h3 : 4096 ≤ s.tide.clock - (s.link n.val).ackAt) (h4 : (s.link n.val).fails < 15) :
      LinkRow s (.ackTimeout n) (also (words (pgLnk n.val) [0x060]) (parts [.link n.val])) (fun t =>
        (t.link n.val).fails = (s.link n.val).fails + 1 ∧ (t.link n.val).ackAt = s.tide.clock ∧
          t.rdN (pgLnk n.val) 0x060 = min (s.rdN (pgLnk n.val) 0x060 + unacked (s.link n.val)) (2 ^ 32 - 1) ∧
          Out.resend n.val ((s.link n.val).ackSeq + 1) ∈ t.out)
  /-- … and at the sixteenth failure the link retrains with 0x5007 (R294). -/
  | ackRetrain (n : Fin 16) (h : running s = true) (h1 : trained s n.val = true) (h2 : unacked (s.link n.val) ≠ 0)
      (h3 : 4096 ≤ s.tide.clock - (s.link n.val).ackAt) (h4 : 15 ≤ (s.link n.val).fails) :
      LinkRow s (.ackTimeout n) (trainParts n.val [0x00C, 0x048, 0x060]) (fun t =>
        Training s t n.val ∧ EventsSet s t (pgLnk n.val) 0x50)
  /-- A triad neighbour announces its cube links (R305). -/
  | announce (pos : Fin 3) (cube : BitVec 16) (f : Fld) (h : running s = true) (h1 : pos.val ≠ nodeId s % 4)
      (h2 : f = ⟨pgTopo, 0x110, if pos.val = (nodeId s % 4 + 1) % 3 then 0 else 16, 16⟩) :
      LinkRow s (.linkStateAnnounce pos cube) (also (wordsAndEvent pgTopo [0x110]) (parts [.routes])) (fun t =>
        t.get f = cube.toNat ∧ (s.get f ≠ cube.toNat → EventSet s t pgTopo 0))
  /-- Routed traffic takes the next hop of R305. -/
  | routed (m : RouteMsg) (l c : Nat) (h : running s = true) (h1 : m.dst.toNat ≠ nodeId s)
      (h2 : nextHop s m.dst.toNat m.cls = some (l, c)) :
      LinkRow s (.routeHop m) (parts [.signals]) (fun t => Out.forward l c m.vc.toNat m.dst m.id ∈ t.out)
  /-- … or waits where there is none, with 0x5006 (R305, R306). -/
  | noRoute (m : RouteMsg) (h : running s = true) (h1 : m.dst.toNat ≠ nodeId s) (h2 : nextHop s m.dst.toNat m.cls = none)
      (h3 : m ∉ s.routeWait) (h4 : ∀ k, m.key = some k → k ∉ s.noRouted) :
      LinkRow s (.routeHop m) (also (wordsAndEvent pgTopo []) (parts [.routes])) (fun t =>
        t.routeWait = s.routeWait ++ [m] ∧ EventSet s t pgTopo 2)
  /-- APPLY puts a legal PORTCFG into effect where no traffic holds it back (R304). -/
  | apply (a : Access) (h : HostTakes s pgTopo 0x04C a) (h1 : a.data.getLsbD 0 = true) (h2 : portsLegal s = true)
      (h3 : portWaits s nextMark (changedPorts s) = []) :
      LinkRow s (.apply a) (also (wordsAndEvent pgTopo [0x00C]) (parts [.ports, .routes])) (fun t =>
        ∀ n, n < 16 → portOf t n = portCfg s n)
  /-- … waits for the ferries and groups that use the ports it changes. -/
  | applyWaits (a : Access) (h : HostTakes s pgTopo 0x04C a) (h1 : a.data.getLsbD 0 = true) (h2 : portsLegal s = true)
      (h3 : portWaits s nextMark (changedPorts s) ≠ []) :
      LinkRow s (.apply a) (also (words pgTopo [0x00C]) (parts [.routes])) (fun t =>
        t.applyWaits = some (portWaits s nextMark (changedPorts s)) ∧ t.bit ⟨pgTopo, 0x00C, 1, 1⟩ = true)
  /-- … and an illegal one is refused with 0x5008. -/
  | applyRefused (a : Access) (h : HostTakes s pgTopo 0x04C a) (h1 : a.data.getLsbD 0 = true) (h2 : portsLegal s = false) :
      LinkRow s (.apply a) (wordsAndEvent pgTopo []) (fun t => EventSet s t pgTopo 1)
  /-- SELF is written while every link is off, and judged (R302). -/
  | self (a : Access) (h : HostTakes s pgTopo 0x040 a) (h1 : ∀ n, n < 16 → s.bit (fLnkEn n) = false) :
      LinkRow s (.self a) (wordsAndEvent pgTopo [0x00C, 0x040]) (fun t =>
        t.get ⟨pgTopo, 0x040, 2, 14⟩ = a.data.toNat / 4 % 2 ^ 14 ∧
          t.get ⟨pgTopo, 0x040, 16, 4⟩ = min 14 (a.data.toNat / 2 ^ 16 % 16) ∧
          (if a.data.toNat / 4 % 2 ^ 14 < 2 ^ min 14 (a.data.toNat / 2 ^ 16 % 16) ∧ s.boot.strap ≠ 3 then t.bit fCfgValid = true
            else t.bit fCfgValid = false ∧ EventSet s t pgTopo 1))

end Sys2Proof.Claims

/-- Links train, are spared, retry and route (11 R294 to R306; readings: log 49). -/
def Obligations.LinkResults : Prop := Rows LinkRow

namespace Sys2Proof.Claims
open Sys2Proof.Machine

/-- No WAIT waits for its answer. -/
abbrev NoneParked (s : State) : Prop := ∀ r ∈ s.tierQ, parked r = false

/-- The request at a ring position stands at the head of its object's order, asks for `op`, and has not begun (12 R321). -/
abbrev Heads (s : State) (ring pos op : Nat) (r : TierReq) : Prop :=
  s.tierQ.find? (fun q => q.ring == ring && q.pos == pos) = some r ∧ r.op = op ∧ r.active = false ∧ headReq s r.obj = some r ∧
    NoneParked s

/-- … and passes every check of R322. -/
abbrev Passes (s : State) (ring pos op : Nat) (r : TierReq) : Prop := Heads s ring pos op r ∧ reqCause s r = 0

/-- The request is carried out but not complete. -/
abbrev Begun (s t : State) (r : TierReq) : Prop :=
  t.tierQ = s.tierQ.map (fun q => if isReq q r then { q with active := true } else q)

/-- The request is complete: it has left its queue, its STATUS holds the code and the cause, and the host's ring raises TIER's event
(12 R320, R340). -/
abbrev ReqDone (s t : State) (r : TierReq) (code cause : Nat) : Prop :=
  (∀ q ∈ t.tierQ, isReq q r = false) ∧
  (onePlace (reqAddr s r.ring r.pos) 32 = true → s.poison = [] →
    t.loadN (reqAddr s r.ring r.pos + 24) 4 = code + 65536 + cause * 131072) ∧
  (r.ring = 16 → code = 0 → EventSet s t pgTier 0) ∧
  (r.ring = 16 → code = 0x7007 ∨ code = 0x2107 → EventSet s t pgTier 3)

/-- What a completion changes. -/
abbrev doneParts (s : State) (r : TierReq) : Part → Prop :=
  also (also (wordsAndEvent pgTier [0x094]) (writesAt (reqAddr s r.ring r.pos + 24) 4)) (parts [.requests, .obj r.obj])

/-- The used granules of a berth (12 R314). -/
abbrev usedWord (owner tier : Nat) : Part → Prop := parts [.reg (regKey (pgBerth owner) (usedOff tier))]

/-- HEAD and TAIL of a ring. -/
abbrev ringWords (ring : Nat) (p : Part) : Prop :=
  (ring < 16 ∧ words (pgBerth ring) [0x664, 0x668] p) ∨ (16 ≤ ring ∧ words pgTier [0x058, 0x05C] p)

/-- The commands that serve a request, and the operation each asks for. -/
inductive ServeRow : Instr → Fin 17 → BitVec 16 → Nat → Prop where
  | alloc (ring : Fin 17) (pos : BitVec 16) : ServeRow (.alloc ring pos) ring pos 1
  | free (ring : Fin 17) (pos : BitVec 16) : ServeRow (.free ring pos) ring pos 2
  | move (ring : Fin 17) (pos : BitVec 16) : ServeRow (.tierMove ring pos) ring pos 3
  | pin (ring : Fin 17) (pos : BitVec 16) : ServeRow (.pin ring pos) ring pos 4
  | unpin (ring : Fin 17) (pos : BitVec 16) : ServeRow (.unpin ring pos) ring pos 5
  | restore (ring : Fin 17) (pos : BitVec 16) : ServeRow (.restore ring pos) ring pos 6
  | supplied (ring : Fin 17) (pos : BitVec 16) : ServeRow (.supplied ring pos) ring pos 7
  | share (ring : Fin 17) (pos : BitVec 16) : ServeRow (.share ring pos) ring pos 8
  | wait (ring : Fin 17) (pos : BitVec 16) : ServeRow (.wait ring pos) ring pos 9

/-- A TAIL written by its register or by its doorbell (12 R320; 17 R445): the ring it belongs to. -/
inductive TailRow (s : State) : Instr → Nat → Access → Prop where
  | tqTail (b : Fin 16) (a : Access) (h : HostTakes s (pgBerth b.val) 0x668 a) : TailRow s (.tqTail b a) b.val a
  | tqDb (b : Fin 16) (a : Access) (h : DoorbellTaken s (pgBerth b.val) a) : TailRow s (.tqDb b a) b.val a
  | hqTail (a : Access) (h : HostTakes s pgTier 0x05C a) : TailRow s (.hqTail a) 16 a
  | hqDb (a : Access) (h : DoorbellTaken s pgTier a) : TailRow s (.hqDb a) 16 a

/-- Requests to the tier unit (12 R316 to R322). -/
inductive RequestRow (s : State) : Instr → (Part → Prop) → (State → Prop) → Prop where
  /-- EN stays set until chip reset; REQUEUE_MAX is at least 1. -/
  | enable (a : Access) (h : HostTakes s pgTier 0x008 a) (h1 : a.data.getLsbD 0 = true) :
      RequestRow s (.tierEn a) (words pgTier [0x008]) (fun t =>
        t.bit ⟨pgTier, 0x008, 0, 1⟩ = true ∧ t.get ⟨pgTier, 0x008, 8, 8⟩ = max 1 (a.data.toNat / 256 % 256))
  /-- The object table is zeroed and READY (R316). -/
  | ready (h : s.bit ⟨pgTier, 0x008, 0, 1⟩ = true) (h1 : s.bit fTierReady = false)
      (h2 : ∀ r, r < 17 → ringTail s r = ringHead s r) :
      RequestRow s .otabReady (also (words pgTier [0x00C]) (fun p => ∃ o, p = .obj o)) (fun t =>
        t.bit fTierReady = true ∧ ∀ o, t.obj o = ObjEntry.free)
  /-- Before READY a TAIL is stored and its requests wait (R316, R320). -/
  | tailEarly (i : Instr) (ring : Nat) (a : Access) (hi : TailRow s i ring a) (h : s.bit fTierReady = false)
      (h1 : (a.data.toNat % 65536 + 65536 - ringHead s ring) % 65536 ≤ 2 ^ ringLog2 s ring) :
      RequestRow s i (ringWords ring) (fun t => ringTail t ring = a.data.toNat % 65536 ∧ ringHead t ring = ringHead s ring)
  /-- One more request is posted, and taken (R320). -/
  | tail (i : Instr) (ring : Nat) (a : Access) (r : TierReq) (hi : TailRow s i ring a) (h : s.bit fTierReady = true)
      (h1 : (a.data.toNat % 65536 + 65536 - ringHead s ring) % 65536 = 1)
      (h2 : r = tierReqOf ring (ringHead s ring) (s.bytes (reqAddr s ring (ringHead s ring)) 32)) (h3 : opKnown r = true)
      (h4 : r.obj < otabLen s) :
      RequestRow s i (also (ringWords ring) (parts [.requests])) (fun t =>
        t.tierQ = s.tierQ ++ [r] ∧ ringTail t ring = a.data.toNat % 65536 ∧
          ringHead t ring = (ringHead s ring + 1) % 65536)
  /-- A request that fails a check completes with 0x7007 and its first failing cause (R322). -/
  | refused (i : Instr) (ring : Fin 17) (pos : BitVec 16) (op : Nat) (r : TierReq) (hi : ServeRow i ring pos op)
      (h : Heads s ring.val pos.toNat op r) (h1 : reqCause s r ≠ 0) :
      RequestRow s i (doneParts s r) (fun t => ReqDone s t r 0x7007 (reqCause s r))
  /-- ALLOC takes the lowest free run of its place and charges its owner (R314, R322). -/
  | alloc (ring : Fin 17) (pos : BitVec 16) (r : TierReq) (a : Nat) (h : Passes s ring.val pos.toNat 1 r)
      (h1 : overQuota s (ringOwner r.ring) r.dtier (granules r.dtier r.arg.toNat) = false)
      (h2 : findRun s r.dtier r.dplace r.arg.toNat 0 = some a) :
      RequestRow s (.alloc ring pos) (also (usedWord (ringOwner r.ring) r.dtier) (parts [.requests, .obj r.obj, .signals])) (fun t =>
        Begun s t r ∧ t.obj r.obj = { ObjEntry.free with
          home := homeAddr a, size := r.arg.toNat, tier := r.dtier, tileLog2 := r.tileLog2, owner := ringOwner r.ring })
  /-- ALLOC past the quota, or with no run that fits (R314, R322). -/
  | allocFails (ring : Fin 17) (pos : BitVec 16) (r : TierReq) (h : Passes s ring.val pos.toNat 1 r)
      (h1 : overQuota s (ringOwner r.ring) r.dtier (granules r.dtier r.arg.toNat) = true ∨
        findRun s r.dtier r.dplace r.arg.toNat 0 = none) :
      RequestRow s (.alloc ring pos) (doneParts s r) (fun t =>
        ReqDone s t r (if overQuota s (ringOwner r.ring) r.dtier (granules r.dtier r.arg.toNat) = true then 0x2107 else 0x7003) 0)
  /-- The run is zero and the object HOME (R322). -/
  | allocDone (obj : BitVec 20) (r : TierReq) (e : ObjEntry) (h : headReq s obj.toNat = some r) (h1 : r.op = 1)
      (h2 : r.active = true) (h3 : NoneParked s) (h4 : e = s.obj obj.toNat)
      (h5 : overlap (reqAddr s r.ring r.pos + 24) 4 (placeBits e.home.toNat) (granules e.tier e.size * granule e.tier) = false)
      (h6 : r.obj = obj.toNat) :
      RequestRow s (.allocDone obj)
        (also (doneParts s r) (writesAt (placeBits e.home.toNat) (granules e.tier e.size * granule e.tier))) (fun t =>
        t.obj obj.toNat = { e with state := 1, lastCode := 0 } ∧
          (∀ k, k < granules e.tier e.size * granule e.tier → t.byte (placeBits e.home.toNat + k) = 0) ∧
          (∀ q ∈ t.tierQ, isReq q r = false))
  /-- FREE of an object without pins releases its home (R322). -/
  | free (ring : Fin 17) (pos : BitVec 16) (r : TierReq) (h : Passes s ring.val pos.toNat 2 r) (h1 : (s.obj r.obj).pins = 0) :
      RequestRow s (.free ring pos)
        (also (also (doneParts s r) (usedWord (s.obj r.obj).owner (s.obj r.obj).tier)) (parts [.flash])) (fun t =>
        ReqDone s t r 0 0 ∧ t.obj r.obj = ObjEntry.free)
  /-- PIN, UNPIN (R322). -/
  | pin (ring : Fin 17) (pos : BitVec 16) (r : TierReq) (h : Passes s ring.val pos.toNat 4 r) :
      RequestRow s (.pin ring pos) (doneParts s r) (fun t =>
        ReqDone s t r 0 0 ∧ t.obj r.obj = { s.obj r.obj with pins := (s.obj r.obj).pins + 1, lastCode := 0 })
  | unpin (ring : Fin 17) (pos : BitVec 16) (r : TierReq) (h : Passes s ring.val pos.toNat 5 r) :
      RequestRow s (.unpin ring pos) (doneParts s r) (fun t =>
        ReqDone s t r 0 0 ∧ (s.obj r.obj).pins ≠ 0 ∧
          t.obj r.obj = { s.obj r.obj with pins := (s.obj r.obj).pins - 1, lastCode := 0 })
  /-- RESTORE gives a lost object a home to be supplied in (R336). -/
  | restore (ring : Fin 17) (pos : BitVec 16) (r : TierReq) (a : Nat) (h : Passes s ring.val pos.toNat 6 r)
      (h1 : overQuota s (s.obj r.obj).owner r.dtier (granules r.dtier (s.obj r.obj).size) = false)
      (h2 : findRun s r.dtier r.dplace (s.obj r.obj).size r.arg = some a) :
      RequestRow s (.restore ring pos) (also (doneParts s r) (usedWord (s.obj r.obj).owner r.dtier)) (fun t =>
        ReqDone s t r 0 0 ∧ t.obj r.obj = { s.obj r.obj with
          state := 4, home := homeAddr a, tier := r.dtier, progress := 0, lastCode := 0 })
  /-- SUPPLIED makes it HOME again, one generation on (R336). -/
  | supplied (ring : Fin 17) (pos : BitVec 16) (r : TierReq) (h : Passes s ring.val pos.toNat 7 r) :
      RequestRow s (.supplied ring pos) (doneParts s r) (fun t =>
        ReqDone s t r 0 0 ∧ t.obj r.obj = { s.obj r.obj with state := 1, gen := (s.obj r.obj).gen + 1, lastCode := 0 })
  /-- SHARE sets the berths that may read; the owner's own bit is not stored (R322). -/
  | share (ring : Fin 17) (pos : BitVec 16) (r : TierReq) (h : Passes s ring.val pos.toNat 8 r) :
      RequestRow s (.share ring pos) (doneParts s r) (fun t =>
        ReqDone s t r 0 0 ∧ (∀ b, b < 16 →
          (t.obj r.obj).share.getLsbD b = (r.arg.getLsbD b && decide (b ≠ (s.obj r.obj).owner))) ∧
          (t.obj r.obj).state = (s.obj r.obj).state ∧ (t.obj r.obj).home = (s.obj r.obj).home)
  /-- A WAIT for an object that is HOME in its tier, or lost, is answered at once (R322). -/
  | waitAnswered (ring : Fin 17) (pos : BitVec 16) (r : TierReq) (c k : Nat) (h : Passes s ring.val pos.toNat 9 r)
      (h1 : waitAnswer s r = some (c, k)) (h2 : ∀ q ∈ s.tierQ, isReq q r = true → q = r) :
      RequestRow s (.wait ring pos) (doneParts s r) (fun t => ReqDone s t r c k)
  /-- … any other waits, and does not hold its object's order. -/
  | waits (ring : Fin 17) (pos : BitVec 16) (r : TierReq) (h : Passes s ring.val pos.toNat 9 r) (h1 : waitAnswer s r = none)
      (h2 : ∀ q ∈ s.tierQ, isReq q r = true → q = r) :
      RequestRow s (.wait ring pos) (parts [.requests, .signals]) (fun t => Begun s t r)
  /-- MOVE of an object without pins to a place with room: the object is MOVING (R323). -/
  | move (ring : Fin 17) (pos : BitVec 16) (r : TierReq) (d : W64) (h : Passes s ring.val pos.toNat 3 r)
      (h1 : (s.obj r.obj).pins = 0) (h2 : alreadyThere (s.obj r.obj) r = false)
      (h3 : overQuota s (s.obj r.obj).owner r.dtier (granules r.dtier (s.obj r.obj).size) = false) (h4 : s.tierMoves.length < 64)
      (h5 : findDst s r (s.obj r.obj) = some d) :
      RequestRow s (.tierMove ring pos)
        (also (usedWord (s.obj r.obj).owner r.dtier) (parts [.requests, .moves, .obj r.obj, .signals])) (fun t =>
        Begun s t r ∧ t.obj r.obj = { s.obj r.obj with state := 2, progress := 0 } ∧
          t.tierMoves = s.tierMoves ++ [{ obj := r.obj, dtier := r.dtier, dplace := r.dplace, dst := d, tiles := [], requeued := 0 }])
  /-- A pinned object does not move, and one already there need not (R322). -/
  | moveEnds (ring : Fin 17) (pos : BitVec 16) (r : TierReq) (h : Passes s ring.val pos.toNat 3 r)
      (h1 : (s.obj r.obj).pins ≠ 0 ∨ alreadyThere (s.obj r.obj) r = true) :
      RequestRow s (.tierMove ring pos) (doneParts s r) (fun t =>
        ReqDone s t r (if (s.obj r.obj).pins ≠ 0 then 0x7004 else 0) 0)

/-- The header of a tile's consignment (12 R323). -/
def tileHeader (s : State) (m : TierMove) (e : ObjEntry) (n src dst : Nat) : ConsHdr :=
  { kind := 3, stream := m.obj % 2 ^ 16, seq := (tileKey' s m.obj n).seq, due := s.now, len := 2 ^ (e.tileLog2 - 12), attempt := 0,
    berth := e.owner, src := nodeId s, dst := nodeId s, srcPlace := placeCode src, dstPlace := placeCode dst,
    addr := (homeAddr dst).toNat }

/-- Tiles, flash and the traffic generators (12 R323 to R338, R330 to R332). -/
inductive MoveRow (s : State) : Instr → (Part → Prop) → (State → Prop) → Prop where
  /-- A tile sails from memory to memory by the local port of the die it lands in (R323; 02 R488). -/
  | tileSail (obj : BitVec 20) (n src dst : Nat) (m : TierMove) (e : ObjEntry) (h : moveOf s obj.toNat = some m)
      (h1 : e = s.obj obj.toNat) (h2 : running s = true) (h3 : tileReady m e n = true) (h4 : tileClear s m e n = true)
      (h5 : inFlight m < 16) (h6 : (s.tierMoves.map inFlight).sum < 256) (h7 : tileState m n ≠ .dirty)
      (h8 : tileSrc e n = some src) (h9 : tileDst m e n = some dst) (h10 : poisoned s src (2 ^ e.tileLog2) = false)
      (h11 : hdrGood (hdrBytes (tileHeader s m e n src dst)) = true) (h12 : m.obj = obj.toNat) :
      MoveRow s (.tileSail obj n) (also stackReads (parts [.moves, .held, .signals])) (fun t =>
        (∃ m', moveOf t obj.toNat = some m' ∧ tileState m' n = .sailing ∧ m'.dst = m.dst) ∧
        (∃ x ∈ t.held, x.hdr = hdrBytes (tileHeader s m e n src dst) ∧ x.addr = src ∧ x.len = 2 ^ e.tileLog2) ∧
        Out.sail (16 + dieOf dst) (withAttempt (hdrBytes (tileHeader s m e n src dst)) 0) (sealBlkOf 0 0)
          (consCrc (hdrBytes (tileHeader s m e n src dst)) (s.bytes src (2 ^ e.tileLog2))) ∈ t.out)
  /-- Every tile confirmed and none dirty: the object flips to its new home (R324). -/
  | flip (obj : BitVec 20) (m : TierMove) (r : TierReq) (e : ObjEntry) (h : moveOf s obj.toNat = some m) (h1 : flipDue s m = true)
      (h2 : e = s.obj obj.toNat) (h3 : headReq s obj.toNat = some r) (h4 : r.op = 3) (h5 : r.active = true) (h6 : NoneParked s)
      (h7 : m.obj = obj.toNat) (h8 : r.obj = obj.toNat) :
      MoveRow s (.flip obj)
        (also (also (doneParts s r) (usedWord e.owner e.tier)) (parts [.moves, .held, .landings, .flash])) (fun t =>
        t.obj obj.toNat = { e with state := 1, home := m.dst, tier := m.dtier, gen := e.gen + 1, lastCode := 0 } ∧
          moveOf t obj.toNat = none ∧ ReqDone s t r 0 0)
  /-- A tile is read from flash into the staging area (R333). -/
  | flashRead (obj : BitVec 20) (n : Nat) (retries : Fin 17) (m : TierMove) (h : moveOf s obj.toNat = some m)
      (h1 : (s.obj obj.toNat).tier = 2) (h2 : n < tileCount (s.obj obj.toNat)) (h3 : tileState m n = .waiting ∨ tileState m n = .dirty)
      (h4 : m.obj = obj.toNat) :
      MoveRow s (.flashRead obj n retries true) (also (words pgFlash [0x058]) (parts [.moves])) (fun t =>
        (∃ m', moveOf t obj.toNat = some m' ∧ tileState m' n = .staged) ∧
          t.rdN pgFlash 0x058 = min (s.rdN pgFlash 0x058 + retries.val) (2 ^ 32 - 1))
  /-- … and one that cannot be read loses the object (R335). -/
  | flashLost (obj : BitVec 20) (n : Nat) (retries : Fin 17) (m : TierMove) (r : TierReq) (e : ObjEntry)
      (h : moveOf s obj.toNat = some m) (h0 : e = s.obj obj.toNat) (h1 : e.tier = 2) (h2 : n < tileCount e)
      (h3 : tileState m n = .waiting ∨ tileState m n = .dirty) (h4 : m.obj = obj.toNat)
      (h5 : s.tierQ.filter (fun q => q.obj == obj.toNat) = [r]) :
      MoveRow s (.flashRead obj n retries false)
        (also (also (also (doneParts s r) (wordsAndEvent pgTier [0x090])) (wordsAndEvent pgFlash [0x058, 0x05C]))
          (also (also (usedWord e.owner e.tier) (usedWord e.owner m.dtier)) (parts [.moves, .held, .landings, .flash]))) (fun t =>
        (t.obj obj.toNat).state = 3 ∧ (t.obj obj.toNat).home = 0 ∧ (t.obj obj.toNat).lossCode = 0x7001 ∧ moveOf t obj.toNat = none ∧
          EventSet s t pgFlash 0 ∧ (t.rd pgTier 0x010).getLsbD 1 = true ∧
          t.rdN pgTier 0x090 = min (s.rdN pgTier 0x090 + 1) (2 ^ 32 - 1) ∧ ∀ q ∈ t.tierQ, isReq q r = false)
  /-- A landed tile is programmed (R333). -/
  | flashProgram (obj : BitVec 20) (n : Nat) (m : TierMove) (e : ObjEntry) (h : moveOf s obj.toNat = some m)
      (h1 : e = s.obj obj.toNat) (h2 : m.dtier = 2) (h3 : tileState m n = .landed) (h4 : m.obj = obj.toNat) :
      MoveRow s (.flashProgram obj n true) (parts [.flash, .moves, .obj obj.toNat, .signals]) (fun t =>
        (∃ m', moveOf t obj.toNat = some m' ∧ tileState m' n = .confirmed) ∧
          ∀ j, j < 2 ^ e.tileLog2 →
            storeGet t.flash (m.dst.toNat * 2 ^ 36 + n * 2 ^ e.tileLog2 + j) 0 = (tileBytes s e n).getD j 0)
  /-- A program that fails retires a block (R333, R338). -/
  | programFails (obj : BitVec 20) (n : Nat) (m : TierMove) (h : moveOf s obj.toNat = some m) (h2 : m.dtier = 2)
      (h3 : tileState m n = .landed) :
      MoveRow s (.flashProgram obj n false) (wordsAndEvent pgFlash [0x04C, 0x050, 0x054]) (fun t =>
        t.rdN pgFlash 0x054 = min (s.rdN pgFlash 0x054 + 1) (2 ^ 32 - 1) ∧ t.rdN pgFlash 0x050 = s.rdN pgFlash 0x050 - 1 ∧
          (t.rd pgFlash 0x010).getLsbD 1 = true)
  /-- Maintenance begins (R337). -/
  | maintStart (wear : Bool) (h : s.bit ⟨pgFtl, 0x008, 0, 1⟩ = true) (h1 : s.bit ⟨pgFlash, 0x00C, 0, 1⟩ = true)
      (h2 : s.bit ⟨pgFtl, 0x00C, 0, 1⟩ = false) :
      MoveRow s (.ftlMaint wear true) (wordsAndEvent pgFtl [0x00C]) (fun t =>
        t.bit ⟨pgFtl, 0x00C, 0, 1⟩ = true ∧ EventSet s t pgFtl 0)
  /-- … and ends: its run is counted; the erase counts it leaves are open (log 6). -/
  | maintEnd (wear : Bool) (h2 : s.bit ⟨pgFtl, 0x00C, 0, 1⟩ = true) :
      MoveRow s (.ftlMaint wear false) (also (wordsAndEvent pgFtl [0x00C, 0x054, 0x058, 0x05C, 0x060]) (parts [.fresh])) (fun t =>
        t.bit ⟨pgFtl, 0x00C, 0, 1⟩ = false ∧ EventSet s t pgFtl 0 ∧
          t.rdN pgFtl (if wear then 0x058 else 0x054) = min (s.rdN pgFtl (if wear then 0x058 else 0x054) + 1) (2 ^ 32 - 1))
  /-- The flash comes into service; what it finds is open (log 6). -/
  | flashEn (a : Access) (h : HostTakes s pgFlash 0x008 a) (h1 : a.data.getLsbD 0 = true) (h2 : s.bit ⟨pgFlash, 0x008, 0, 1⟩ = false) :
      MoveRow s (.flashEn a) (also (words pgFlash [0x008, 0x00C, 0x040, 0x04C, 0x050]) (parts [.fresh])) (fun t =>
        t.bit ⟨pgFlash, 0x008, 0, 1⟩ = true ∧ t.bit ⟨pgFlash, 0x00C, 0, 1⟩ = true)
  /-- … and leaves it. -/
  | flashOff (a : Access) (h : HostTakes s pgFlash 0x008 a) (h1 : a.data.getLsbD 0 = false) :
      MoveRow s (.flashEn a) (words pgFlash [0x008, 0x00C]) (fun t =>
        t.bit ⟨pgFlash, 0x008, 0, 1⟩ = false ∧ t.bit ⟨pgFlash, 0x00C, 0, 1⟩ = false)
  /-- TEST of a stack of which nothing is taken (R330). -/
  | test (k : Fin 32) (a : Access) (h : HostTakes s (pgHs k.val) 0x008 a) (h1 : a.data.getLsbD 0 = true)
      (h2 : stackTaken s k.val = false) (h3 : s.bit (fTest k.val) = false) :
      MoveRow s (.test k a) (words (pgHs k.val) [0x008, 0x00C]) (fun t =>
        t.bit (fTest k.val) = true ∧ t.bit (fInTest k.val) = true)
  /-- … is refused while something is taken. -/
  | testRefused (k : Fin 32) (a : Access) (h : HostTakes s (pgHs k.val) 0x008 a) (h1 : a.data.getLsbD 0 = true)
      (h2 : stackTaken s k.val = true) (h3 : s.bit (fTest k.val) = false) :
      MoveRow s (.test k a) (wordsAndEvent pgTier []) (fun t => EventSet s t pgTier 3)
  /-- GO starts a generator of a stack in test (R331). -/
  | go (k ch : Fin 32) (a : Access) (h : HostTakes s (pgHs k.val) (genOff ch.val 0) a) (h1 : a.data.getLsbD 31 = true)
      (h2 : s.bit (fTest k.val) = true) :
      MoveRow s (.go k ch a)
        (words (pgHs k.val) [genOff ch.val 0, genOff ch.val 0x14, genOff ch.val 0x18, genOff ch.val 0x1C]) (fun t =>
        t.rd (pgHs k.val) (genOff ch.val 0x14) = 1 ∧ t.rd (pgHs k.val) (genOff ch.val 0x18) = 0 ∧
          t.rd (pgHs k.val) (genOff ch.val 0x1C) = 0)
  /-- A generator that reads and checks nothing ends DONE (R331). -/
  | genDone (k ch : Fin 32) (errors : W32) (first : BitVec 23) (h : s.bit ⟨pgHs k.val, genOff ch.val 0x14, 0, 1⟩ = true)
      (h1 : s.rdN (pgHs k.val) (genOff ch.val 0) % 4 = 0) :
      MoveRow s (.generatorDone k ch errors first) (wordsAndEvent (pgHs k.val) [genOff ch.val 0x14]) (fun t =>
        t.rd (pgHs k.val) (genOff ch.val 0x14) = 2 ∧
          ((∀ c, c < 32 → c ≠ ch.val → s.rdN (pgHs k.val) (genOff c 0x14) = 0) → EventSet s t (pgHs k.val) 1))
  /-- One that writes a pattern in order has written it over its whole range (R331). -/
  | genWrote (k ch : Fin 32) (errors : W32) (first : BitVec 23) (v : Byte) (h : s.bit ⟨pgHs k.val, genOff ch.val 0x14, 0, 1⟩ = true)
      (h1 : s.rdN (pgHs k.val) (genOff ch.val 0) % 256 = 1 + (if v = 0 then 2 else 3) * 4 + 3 * 32) (h2 : v = 0 ∨ v = 0xFF)
      (h3 : s.poison = []) :
      MoveRow s (.generatorDone k ch errors first)
        (also (wordsAndEvent (pgHs k.val) [genOff ch.val 0x14])
          (fun p => ∃ u ∈ genUnits s k.val ch.val, writesAt (unitAddr k.val ch.val u) 256 p)) (fun t =>
        t.rd (pgHs k.val) (genOff ch.val 0x14) = 2 ∧
          ∀ u ∈ genUnits s k.val ch.val, ∀ j, j < 256 → t.byte (unitAddr k.val ch.val u + j) = v)

end Sys2Proof.Claims

/-- The tier unit's requests (12 R316 to R322, R336; readings: log 48). -/
def Obligations.TierRequestResults : Prop := Rows RequestRow

/-- Moves tile by tile, flash, and the stacks' traffic generators (12 R323 to R338; readings: log 48). -/
def Obligations.TierUnitResults : Prop := Rows MoveRow

namespace Sys2Proof.Claims
open Sys2Proof.Machine

/-- An event of the SKETCH page, with the words that name its cluster and index (13 R372). -/
abbrev sketchNews : Part → Prop := wordsAndEvent pgSketch [0x080, 0x084]

/-- What the completion of a cluster's descriptor changes: STATUS and COUNT, SQ_HEAD, SEARCHES, the DONE bollard, the engine. -/
abbrev sketchDoneParts (s : State) (cl a : Nat) : Part → Prop :=
  also (also (words (pgCl cl) [0xA0C, 0xA14, 0x800 + 4 * s.get ⟨pgCl cl, 0xA08, 16, 6⟩]) (writesAt (a + 56) 8)) (parts [.engine cl])

/-- The descriptor at `a` is complete (13 R354). -/
abbrev SketchDone (s t : State) (cl a code cause count : Nat) (short : Bool) : Prop :=
  sqHead t cl = (sqHead s cl + 1) % 65536 ∧ (t.engine cl).work = none ∧
    bollard t cl (s.get ⟨pgCl cl, 0xA08, 16, 6⟩) = bollard s cl (s.get ⟨pgCl cl, 0xA08, 16, 6⟩) + 1 ∧
    t.rdN (pgCl cl) 0xA14 = min (s.rdN (pgCl cl) 0xA14 + 1) (2 ^ 32 - 1) ∧
    (s.poison = [] → t.loadN (a + 56) 4 = code + 65536 + (if short then 131072 else 0) + cause * 2 ^ 18 ∧
      t.loadN (a + 60) 4 = count)

/-- The engine of a cluster can take the descriptor at the head of its ring, which asks for `op` (13 R353, R354). -/
abbrev Takes (s : State) (cl op : Nat) (d : List Byte) : Prop :=
  d = s.bytes (sqAddr s cl) 64 ∧ mayTake s cl = true ∧ sqPosted s cl ≤ sqSize s cl ∧
    rangeInRegions s (clusterOwner s cl) (sqAddr s cl) 64 true = true ∧ onePlace (sqAddr s cl) 64 = true ∧ dOp d = op ∧
    takeBlocked s cl d = false ∧ poisoned s (sqAddr s cl) 64 = false

/-- Some cell of the record's probe list is not one of the index's. -/
def badProbe (s : State) (d h : List Byte) : Bool := dFlag d 2 && (probeList s h d).any (fun c => decide (2 ^ hdrPrefix h ≤ c))

/-- The width of the cell number of a new entry: that of the newest generation that has started. -/
def entryWidth (s : State) (x : Index) (g : IndexGen) : Nat :=
  match startedGen s x with
  | some k => hdrPrefix k.hdr
  | none => hdrPrefix g.hdr

/-- An INSERT or DELETE passes, and the side list has room (13 R357, R359). -/
abbrev Reserves (s : State) (cl op : Nat) (d : List Byte) (x : Index) (g : IndexGen) : Prop :=
  Takes s cl op d ∧ sideSlotBlocked s d = false ∧ descRefusal s cl d = (0, 0) ∧ x = s.index (dIndex d) ∧ x.gens.head? = some g ∧
    (x.tail - x.low).toNat < hdrSideCap g.hdr ∧ s.poison = []

/-- Its position is reserved: the header of the position, the tail, and the work of the engine (13 R350, R359). -/
abbrev Reserved (s t : State) (cl op : Nat) (d : List Byte) (x : Index) (g : IndexGen) : Prop :=
  t.index (dIndex d) = { x with tail := x.tail + 1 } ∧
  (∃ w, (t.engine cl).work = some w ∧ w.desc = d ∧ w.addr = sqAddr s cl ∧ w.phase = 3 ∧ w.pos = x.tail) ∧
  sideState t g.hdr x.tail.toNat = 1 ∧ sideOp t g.hdr x.tail.toNat = (if op = 2 then 1 else 2) ∧
  sideId t g.hdr x.tail.toNat = fieldLE (s.bytes (placeBits (dRecord d)) 64) 0 6 ∧ sqHead t cl = sqHead s cl

/-- Indexes (13 R345 to R352, R368 to R370). -/
inductive IndexRow (s : State) : Instr → (Part → Prop) → (State → Prop) → Prop where
  /-- CREATE and MERGE begin their checks with the header, the tides and the owner that the registers name (R351, R368). -/
  | begins (i : Instr) (a : Access) (op : Nat) (hi : (i = .indexCreate a ∧ op = 1) ∨ (i = .merge a ∧ op = 2))
      (h : HostTakes s pgSketch 0x060 a) (h1 : a.data.toNat % 8 = op) (h2 : (s.index (idxSel s)).busy = 0) :
      IndexRow s i (parts [.index (idxSel s), .signals]) (fun t =>
        t.index (idxSel s) = { s.index (idxSel s) with
          busy := op
          newHdr := (s.rd64 pgSketch 0x044).toNat
          newCutoff := s.rd64 pgSketch 0x050
          newSwitch := s.rd64 pgSketch 0x058
          newOwner := s.get ⟨pgSketch, 0x04C, 0, 8⟩ })
  /-- RETIRE of a DUAL index (R369). -/
  | retire (a : Access) (h : HostTakes s pgSketch 0x060 a) (h1 : a.data.toNat % 8 = 3) (h2 : (s.index (idxSel s)).busy = 0)
      (h3 : (s.index (idxSel s)).state = ixDual) :
      IndexRow s (.retire a) (parts [.index (idxSel s), .signals]) (fun t =>
        t.index (idxSel s) = { s.index (idxSel s) with busy := 3 })
  /-- DESTROY of one that exists; a merge that has not started ends with it (R370). -/
  | destroy (a : Access) (h : HostTakes s pgSketch 0x060 a) (h1 : a.data.toNat % 8 = 4) (h2 : (s.index (idxSel s)).busy = 0)
      (h3 : (s.index (idxSel s)).state ≠ ixFree) :
      IndexRow s (.destroy a) (parts [.index (idxSel s), .signals]) (fun t =>
        (t.index (idxSel s)).busy = 4 ∧ (t.index (idxSel s)).owner = (s.index (idxSel s)).owner ∧
          ((s.index (idxSel s)).state ≠ ixPending → (t.index (idxSel s)).gens = (s.index (idxSel s)).gens))
  /-- RETIRE or DESTROY in a state that does not accept it: cause 5 (R351). -/
  | wrongState (i : Instr) (a : Access) (hi : (i = .retire a ∧ a.data.toNat % 8 = 3 ∧ (s.index (idxSel s)).state ≠ ixDual) ∨
        (i = .destroy a ∧ a.data.toNat % 8 = 4 ∧ (s.index (idxSel s)).state = ixFree))
      (h : HostTakes s pgSketch 0x060 a) (h2 : (s.index (idxSel s)).busy = 0) :
      IndexRow s i (also sketchNews (parts [.index (idxSel s)])) (fun t =>
        t.index (idxSel s) = { s.index (idxSel s) with cause := 5, busy := 0 } ∧ EventSet s t pgSketch 3)
  /-- A CREATE that passes every check: LIVE with one generation and an empty side list (R351). -/
  | created (ix : Fin 64) (x : Index) (hd : List Byte) (h : x = s.index ix.val) (h1 : x.busy = 1) (h2 : running s = true)
      (h3 : indexCause s ix.val = 0) (h4 : placeStopped s (placeBits x.newHdr) = false) (h5 : sideBlocked s x = false)
      (h6 : hd = newHeader s x) :
      IndexRow s (.indexCheckDone ix)
        (also (also sketchNews (parts [.index ix.val])) (writesAt (hdrSide hd) (32 * hdrSideCap hd))) (fun t =>
        (t.index ix.val).state = ixLive ∧ (t.index ix.val).owner = x.newOwner ∧ (t.index ix.val).busy = 0 ∧
          (t.index ix.val).gens = [{ hdr := hd, at_ := x.newHdr, start := s.now, cutoff := none }] ∧ (t.index ix.val).tail = 0 ∧
          (t.index ix.val).low = 0 ∧ (∀ k, k < 32 * hdrSideCap hd → t.byte (hdrSide hd + k) = 0) ∧ EventSet s t pgSketch 0)
  /-- A MERGE that passes: PENDING, with the new generation first (R368). -/
  | merges (ix : Fin 64) (x : Index) (h : x = s.index ix.val) (h1 : x.busy = 2) (h2 : running s = true)
      (h3 : indexCause s ix.val = 0) (h4 : placeStopped s (placeBits x.newHdr) = false) :
      IndexRow s (.indexCheckDone ix) (parts [.index ix.val, .signals]) (fun t =>
        t.index ix.val = { x with
          state := ixPending
          busy := 0
          gens := { hdr := newHeader s x, at_ := x.newHdr, start := x.newSwitch, cutoff := some x.newCutoff } :: x.gens })
  /-- … and one that fails: the first failing cause (R351). -/
  | refused (ix : Fin 64) (x : Index) (h : x = s.index ix.val) (h1 : x.busy = 1 ∨ x.busy = 2) (h2 : running s = true)
      (h3 : indexCause s ix.val ≠ 0) (h4 : placeStopped s (placeBits x.newHdr) = false)
      (h5 : poisoned s (placeBits x.newHdr) 128 = false) :
      IndexRow s (.indexCheckDone ix) (also sketchNews (parts [.index ix.val])) (fun t =>
        t.index ix.val = { x with cause := indexCause s ix.val, busy := 0 } ∧ EventSet s t pgSketch 3)
  /-- The switch tide is reached: DUAL (R368). -/
  | switched (ix : Fin 64) (h : running s = true) (h1 : switchDue s (s.index ix.val) = true) :
      IndexRow s (.switched ix) (also sketchNews (parts [.index ix.val])) (fun t =>
        t.index ix.val = { s.index ix.val with state := ixDual, started := (s.index ix.val).started + 1 } ∧ EventSet s t pgSketch 1)
  /-- RETIRE takes effect: LIVE with the newest generation, its side list from LOW on (R369). -/
  | retired (ix : Fin 64) (g : IndexGen) (h : running s = true) (h1 : (s.index ix.val).busy = 3)
      (h2 : (s.index ix.val).gens.head? = some g)
      (h3 : inFlightOn s ix.val (fun w => w.phase == 2 && w.genStart != g.start) = false)
      (h4 : writeBlocked s (hdrSide g.hdr) (32 * hdrSideCap g.hdr) = false) :
      IndexRow s (.retired ix)
        (also (also sketchNews (parts [.index ix.val])) (writesAt (hdrSide g.hdr) (32 * hdrSideCap g.hdr))) (fun t =>
        t.index ix.val = { s.index ix.val with state := ixLive, busy := 0, gens := [g], low := retiredLow s (s.index ix.val) g } ∧
          EventSet s t pgSketch 2)
  /-- DESTROY takes effect once no descriptor is in flight on the index (R370). -/
  | destroyed (ix : Fin 64) (h : running s = true) (h1 : (s.index ix.val).busy = 4) (h2 : inFlightOn s ix.val (fun _ => true) = false) :
      IndexRow s (.destroyed ix) (parts [.index ix.val, .signals]) (fun t =>
        t.index ix.val = { Index.reset with cause := (s.index ix.val).cause })

/-- Sketch engines (13 R353 to R367). -/
inductive EngineRow (s : State) : Instr → (Part → Prop) → (State → Prop) → Prop where
  /-- A SEARCH that passes its checks waits for its snapshot (R357, R358). -/
  | search (cl : Fin 64) (d : List Byte) (h : Takes s cl.val 1 d) (h1 : descRefusal s cl.val d = (0, 0)) :
      EngineRow s (.search cl) (also stackReads (parts [.engine cl.val, .signals])) (fun t =>
        (∃ w, (t.engine cl.val).work = some w ∧ w.desc = d ∧ w.addr = sqAddr s cl.val ∧ w.phase = 1 ∧ w.asked = [] ∧ w.answers = []) ∧
          sqHead t cl.val = sqHead s cl.val)
  /-- A descriptor that fails a check completes with its code and cause, and is logged (R357). -/
  | searchRefused (cl : Fin 64) (d : List Byte) (code cause : Nat) (h : Takes s cl.val 1 d)
      (h1 : descRefusal s cl.val d = (code, cause)) (h2 : code ≠ 0) :
      EngineRow s (.search cl) (also (also stackReads (sketchDoneParts s cl.val (sqAddr s cl.val))) (parts [.log])) (fun t =>
        SketchDone s t cl.val (sqAddr s cl.val) code cause 0 false)
  /-- A ring with more descriptors than it holds stops (R353). -/
  | overrun (cl : Fin 64) (h : mayTake s cl.val = true) (h1 : sqSize s cl.val < sqPosted s cl.val) :
      EngineRow s (.search cl) (also sketchNews (words (pgCl cl.val) [0xA08])) (fun t =>
        t.bit (fSqEn cl.val) = false ∧ EventSet s t pgSketch 4)
  /-- INSERT and DELETE reserve a position of the side list (R359). -/
  | insert (cl : Fin 64) (d : List Byte) (x : Index) (g : IndexGen) (h : Reserves s cl.val 2 d x g) :
      EngineRow s (.insert cl)
        (also (also stackReads (writesAt (sideAddr g.hdr x.tail.toNat) 32)) (parts [.engine cl.val, .index (dIndex d), .signals]))
        (fun t => Reserved s t cl.val 2 d x g ∧ sideTag t g.hdr x.tail.toNat = fieldLE (s.bytes (placeBits (dRecord d)) 64) 8 4)
  | delete (cl : Fin 64) (d : List Byte) (x : Index) (g : IndexGen) (h : Reserves s cl.val 3 d x g) :
      EngineRow s (.sketchDelete cl)
        (also (also stackReads (writesAt (sideAddr g.hdr x.tail.toNat) 32)) (parts [.engine cl.val, .index (dIndex d), .signals]))
        (fun t => Reserved s t cl.val 3 d x g)
  /-- A full side list completes an INSERT with 0x8002 (R359). -/
  | sideFull (cl : Fin 64) (d : List Byte) (g : IndexGen) (h : Takes s cl.val 2 d) (h1 : sideSlotBlocked s d = false)
      (h2 : descRefusal s cl.val d = (0, 0)) (h3 : (s.index (dIndex d)).gens.head? = some g)
      (h4 : hdrSideCap g.hdr ≤ ((s.index (dIndex d)).tail - (s.index (dIndex d)).low).toNat) :
      EngineRow s (.insert cl) (also (also stackReads (sketchDoneParts s cl.val (sqAddr s cl.val))) sketchNews) (fun t =>
        SketchDone s t cl.val (sqAddr s cl.val) 0x8002 0 0 false ∧ EventSet s t pgSketch 5)
  /-- The entry becomes VALID, stamped with the tide, and the descriptor completes with its position (R359). -/
  | sideValid (cl : Fin 64) (w : EngineWork) (x : Index) (g : IndexGen) (h : (s.engine cl.val).work = some w)
      (h1 : x = s.index (dIndex w.desc)) (h2 : x.gens.head? = some g) (h3 : engineP0 s cl.val = true) (h4 : w.phase = 3)
      (h5 : sideEntryBlocked s w g = false) (h6 : s.poison = []) (h7 : dOp w.desc = 3)
      (h8 : overlap (w.addr + 56) 8 (sideAddr g.hdr w.pos.toNat) 32 = false) :
      EngineRow s (.sideEntryValid cl)
        (also (also stackReads (sketchDoneParts s cl.val w.addr)) (writesAt (sideAddr g.hdr w.pos.toNat) 32)) (fun t =>
        SketchDone s t cl.val w.addr 0 0 w.pos.toNat false ∧ sideState t g.hdr w.pos.toNat = 2 ∧
          sideOp t g.hdr w.pos.toNat = 2 ∧ sideStamp t g.hdr w.pos.toNat = s.now)
  /-- … and of an INSERT, whose sketch goes to the position's slot and whose cell is that of the sketch (R349, R359). -/
  | sideValidInsert (cl : Fin 64) (w : EngineWork) (x : Index) (g : IndexGen) (k n : Nat) (h : (s.engine cl.val).work = some w)
      (h1 : x = s.index (dIndex w.desc)) (h2 : x.gens.head? = some g) (h3 : engineP0 s cl.val = true) (h4 : w.phase = 3)
      (h5 : sideEntryBlocked s w g = false) (h6 : s.poison = []) (h7 : dOp w.desc = 2) (hk : k = hdrSideSk g.hdr + w.pos.toNat %
        hdrSideCap g.hdr * (hdrSkb g.hdr / 8)) (hn : n = hdrSkb g.hdr / 8) (hf : hdrFullw g.hdr = 0)
      (h8 : overlap (w.addr + 56) 8 (sideAddr g.hdr w.pos.toNat) 32 = false) (h9 : overlap (w.addr + 56) 8 k n = false)
      (h10 : overlap k n (sideAddr g.hdr w.pos.toNat) 32 = false) :
      EngineRow s (.sideEntryValid cl)
        (also (also (also stackReads (sketchDoneParts s cl.val w.addr)) (writesAt (sideAddr g.hdr w.pos.toNat) 32)) (writesAt k n)) (fun t =>
        SketchDone s t cl.val w.addr 0 0 w.pos.toNat false ∧ sideState t g.hdr w.pos.toNat = 2 ∧
          sideOp t g.hdr w.pos.toNat = 1 ∧ sideStamp t g.hdr w.pos.toNat = s.now ∧
          (∀ j, j < n → t.byte (k + j) = s.byte (placeBits (dRecord w.desc) + 64 + j)) ∧
          sideCell t g.hdr w.pos.toNat = cellOf (entryWidth s x g) (s.bytes (placeBits (dRecord w.desc) + 64) n) % 2 ^ 24)
  /-- The snapshot is reached: the generation, and the side entries that count for the search (R358, R360). -/
  | snapshot (cl : Fin 64) (w : EngineWork) (x : Index) (g : IndexGen) (h : (s.engine cl.val).work = some w)
      (h1 : x = s.index (dIndex w.desc)) (h2 : genFor x (dSnap w.desc) = some g) (h3 : engineP0 s cl.val = true) (h4 : w.phase = 1)
      (h5 : reachedNow s (dSnap w.desc) = true)
      (h6 : rangesWait s ((placeBits (dRecord w.desc), recordLen g.hdr w.desc) :: sideRanges x g.hdr) = false)
      (h7 : writeBlocked s (w.addr + 56) 8 = false) (h8 : s.poison = []) (h9 : badProbe s w.desc g.hdr = false) :
      EngineRow s (.snapshot cl) (also stackReads (parts [.engine cl.val, .signals])) (fun t =>
        (t.engine cl.val).work = some { w with phase := 2, genStart := g.start, seen := decidingEntries s x g (dSnap w.desc) })
  /-- A probe list that names a cell the index does not have: cause 5 (R357, R361). -/
  | snapshotRefused (cl : Fin 64) (w : EngineWork) (x : Index) (g : IndexGen) (h : (s.engine cl.val).work = some w)
      (h1 : x = s.index (dIndex w.desc)) (h2 : genFor x (dSnap w.desc) = some g) (h3 : engineP0 s cl.val = true) (h4 : w.phase = 1)
      (h5 : reachedNow s (dSnap w.desc) = true)
      (h6 : rangesWait s ((placeBits (dRecord w.desc), recordLen g.hdr w.desc) :: sideRanges x g.hdr) = false)
      (h7 : writeBlocked s (w.addr + 56) 8 = false) (h8 : s.poison = []) (h9 : badProbe s w.desc g.hdr = true) :
      EngineRow s (.snapshot cl) (also (also stackReads (sketchDoneParts s cl.val w.addr)) (parts [.log])) (fun t =>
        SketchDone s t cl.val w.addr 0x8001 5 0 false)
  /-- No generation starts at or before the snapshot: 0x8003 (R358). -/
  | noGeneration (cl : Fin 64) (w : EngineWork) (h : (s.engine cl.val).work = some w)
      (h2 : genFor (s.index (dIndex w.desc)) (dSnap w.desc) = none) (h3 : engineP0 s cl.val = true) (h4 : w.phase = 1)
      (h5 : reachedNow s (dSnap w.desc) = true) (h7 : writeBlocked s (w.addr + 56) 8 = false) :
      EngineRow s (.snapshot cl) (sketchDoneParts s cl.val w.addr) (fun t => SketchDone s t cl.val w.addr 0x8003 0 0 false)
  /-- A leader hands a share to a participant that may help (R365). -/
  | shareRequest (leader helper : Fin 64) (w : EngineWork) (h : (s.engine leader.val).work = some w) (h1 : w.phase = 2)
      (h2 : leader ≠ helper) (h3 : helper.val ∈ participants leader.val w.desc) (h4 : helper.val ∉ w.asked)
      (h5 : mayHelp s helper.val = true) :
      EngineRow s (.shareRequest leader helper) (parts [.engine leader.val, .engine helper.val, .signals]) (fun t =>
        (t.engine helper.val).helping = some leader.val ∧
          (t.engine leader.val).work = some { w with asked := w.asked ++ [helper.val] })
  /-- A share is done and others are missing: its first C pairs reach the leader (R361 to R363, R365). -/
  | share (leader helper : Fin 64) (w : EngineWork) (hd : List Byte) (cells : List Nat) (h : (s.engine leader.val).work = some w)
      (h1 : hd = workHeader s w) (h2 : cells = shareCells s hd w.desc leader.val helper.val)
      (h3 : shareDue s leader.val helper.val w = true) (h4 : rangesWait s (shareRanges s hd w cells) = false)
      (h5 : writeBlocked s (w.addr + 56) 8 = false) (h6 : s.poison = [])
      (h7 : ∃ c ∈ participants leader.val w.desc, c ≠ helper.val ∧ ∀ y ∈ w.answers, y.1 ≠ c) :
      EngineRow s (.shareResult leader helper)
        (also (also stackReads (words (pgCl helper.val) [0xA18, 0xA1C])) (parts [.engine leader.val, .engine helper.val])) (fun t =>
        (t.engine leader.val).work = some { w with answers := w.answers ++ [(helper.val, shareAnswer s hd w cells)] } ∧
          (leader ≠ helper → (t.engine helper.val).helping = none) ∧
          t.rd64 (pgCl helper.val) 0xA18 = s.rd64 (pgCl helper.val) 0xA18 + BitVec.ofNat 64 (shareCodes s hd w cells))
  /-- The last one completes the search: the K first items by distance and id, or all ones past them (R363 to R366). -/
  | searchDone (leader : Fin 64) (w w' : EngineWork) (hd : List Byte) (cells : List Nat) (h : (s.engine leader.val).work = some w)
      (h1 : hd = workHeader s w) (h2 : cells = shareCells s hd w.desc leader.val leader.val)
      (h3 : shareDue s leader.val leader.val w = true) (h4 : rangesWait s (shareRanges s hd w cells) = false)
      (h5 : writeBlocked s (w.addr + 56) 8 = false) (h6 : s.poison = [])
      (h7 : w' = { w with answers := w.answers ++ [(leader.val, shareAnswer s hd w cells)] })
      (h8 : ∀ c ∈ participants leader.val w.desc, ∃ y ∈ w'.answers, y.1 = c) (h9 : endBlocked s leader.val w' = false)
      (h10 : overlap (w.addr + 56) 8 (placeBits (dResult w.desc)) (8 * dK w.desc) = false)
      (h11 : dK w.desc < 2 ^ 16) :
      EngineRow s (.shareResult leader leader)
        (also (also (also stackReads (words (pgCl leader.val) [0xA18, 0xA1C])) (sketchDoneParts s leader.val w.addr))
          (writesAt (placeBits (dResult w.desc)) (8 * dK w.desc))) (fun t =>
        SketchDone s t leader.val w.addr 0 0 (delivered s hd leader.val w').length
            (decide ((delivered s hd leader.val w').length < dK w.desc)) ∧
          ∀ j, j < 8 * dK w.desc → t.byte (placeBits (dResult w.desc) + j) =
            (resultBytes (delivered s hd leader.val w') (dK w.desc)).getD j 0)

end Sys2Proof.Claims

/-- Indexes are created, merged, switched, retired and destroyed (13 R345 to R352, R368 to R370; readings: log 51). -/
def Obligations.IndexResults : Prop := Rows IndexRow

/-- Sketch engines take, refuse and complete their descriptors (13 R353 to R367; readings: log 51). -/
def Obligations.EngineResults : Prop := Rows EngineRow

namespace Sys2Proof.Claims
open Sys2Proof.Machine

/-! Berths. -/

/-- The host's write of a BCMD word, as one of its four commands. -/
def IsBcmd (i : Instr) (b : Fin 16) (a : Access) : Prop :=
  i = .berthOpen b a ∨ i = .bind b a ∨ i = .unbind b a ∨ i = .teardown b a

/-- A BCMD word that nothing refuses (14 R375). -/
abbrev BerthTakes (s : State) (b : Fin 16) (a : Access) (op : Nat) : Prop :=
  HostTakes s (pgBerth b.val) 0x04C a ∧ bOp a.data = op ∧ berthCause s b.val a.data = 0

/-- A job of the berth is under way and its clusters can pass (14 R377). -/
abbrev JobDue (s : State) (b : Nat) (v : W32) (op : Nat) (region : Bool) : Prop :=
  (s.berth b).job = some v ∧ running s = true ∧ (s.berth b).begun = true ∧ rebindActs s b v = true ∧ bOp v = op ∧ bRegion v = region

/-- What the end of a job changes on its berth besides what the job was about. -/
abbrev jobParts (b : Nat) : Part → Prop := also (wordsAndEvent (pgBerth b) [0x050, 0x054]) (parts [.berth b])

/-- The job is over: BSTAT as it was, REBIND_US, and DONE (14 R377 step 6). -/
abbrev JobOver (s t : State) (b us : Nat) : Prop :=
  (t.berth b).job = none ∧ (t.berth b).closed = false ∧ berthState t b = (s.berth b).prior % 8 ∧ t.bit (fBstBusy b) = false ∧
    t.rdN (pgBerth b) 0x054 = us ∧ EventSet s t (pgBerth b) 0

/-- Stored bytes of `n` at `a` that become zero or undefined: the bytes, the uncorrectable units among them, the stack's count. -/
abbrev cleared (a n : Nat) : Part → Prop :=
  also (bytesAt a n) (fun p => p = .poison ∨ p = .fresh ∨ ∃ k, k < 32 ∧ words (pgHs k) [0x060, 0x064] p)

/-- What the reset of a cluster changes (15 R412). -/
abbrev clusterParts (c : Nat) (p : Part) : Prop :=
  (∃ j, j < 48 ∧ (p = .core (64 * c + j) ∨ ∃ o, ((0x208 ≤ o ∧ o < 0x228) ∨ (0x800 ≤ o ∧ o < 0x908)) ∧
      p = .reg (regKey (pgCore (64 * c + j)) o))) ∨
    (∃ o, (o = 0xA08 ∨ (0x800 ≤ o ∧ o < 0x900)) ∧ p = .reg (regKey (pgCl c) o)) ∨ (∃ e, p = .engine e) ∨ p = .boot ∨
    eventParts (pgCl c) p

/-- The cluster has been reset: its cores OFF but for fenced ones, bollards and claims zero, its ring off (15 R412). -/
abbrev ClusterClear (s t : State) (c : Nat) : Prop :=
  (∀ id ∈ coresOf c, ((s.core id).state = .fenced → t.core id = s.core id) ∧
    ((s.core id).state ≠ .fenced → t.core id = { Core.reset with cycles := (s.core id).cycles }) ∧ t.rd64 (corePage id) 0x900 = 0 ∧
    ∀ n, n < 64 → t.rd (corePage id) (0x800 + 4 * n) = 0) ∧
  (∀ n, n < 64 → t.rd (pgCl c) (0x800 + 4 * n) = 0) ∧ t.bit (fSqEn c) = false ∧ t.engine c = Engine.reset

/-- The locks of a cluster's pages. -/
abbrev clusterLocks (c : Nat) (p : Part) : Prop := ∃ g ∈ clusterPages c, p = .reg (regKey g 0x028)

/-- No move, request, landing, engine or collective is left: what a teardown waits for is over; and each object (of a tier that exists) and index is listed
once. -/
abbrev TierQuiet (s : State) (b : Nat) : Prop :=
  s.tierMoves = [] ∧ s.tierQ = [] ∧ s.landing = [] ∧ s.engines = [] ∧ (∀ x ∈ s.objects, s.obj x.1 = x.2 ∧ x.2.tier < 3) ∧
    (∀ x ∈ s.indexes, s.index x.1 = x.2) ∧
    ∀ g, g < 64 → groupOwner s g = b → (s.group g).coll = none ∧ qTail s g = qHead s g

/-- What a teardown may change: what the berth owns. -/
abbrev tearParts (s : State) (b : Nat) (p : Part) : Prop :=
  p ∈ [.berth b, .signals, .log, .poison, .fresh, .flash, .boot] ∨ (∃ o, p = .reg (regKey (pgBerth b) o)) ∨ (∃ a, p = .byte a) ∨
    (∃ g, g < 64 ∧ groupOwner s g = b ∧ (p = .group g ∨ p = .reg (regKey (pgCq g) 0x028) ∨
      ∃ o ∈ [0x20, 0x24, 0x28, 0x2C, 0x30], p = .reg (regKey (pgGtab g) (gOff g o)))) ∨
    (∃ f, f < 8 ∧ ferryOwner s f = b ∧ p = .reg (regKey (pgFerry f) 0x028)) ∨ (∃ o, p = .obj o ∧ (s.obj o).owner = b) ∨
    (∃ x, p = .index x ∧ (s.index x).owner = b) ∨ (∃ c, c < 64 ∧ clusterOwner s c = b ∧ (clusterParts c p ∨ clusterLocks c p)) ∨
    ∃ k, k < 32 ∧ words (pgHs k) [0x060, 0x064] p

/-- Berths (14 R374 to R380). -/
inductive BerthRow (s : State) : Instr → (Part → Prop) → (State → Prop) → Prop where
  /-- OPEN: keys are made, the standard functions are there, and the berth waits for its session (R375, R380; 07 R490). -/
  | opens (b : Fin 16) (a : Access) (h : BerthTakes s b a 1) (h1 : debugLevel s < 2) :
      BerthRow s (.berthOpen b a) (also (wordsAndEvent (pgBerth b.val) [0x050, 0x614, 0x620]) (parts [.berth b.val, .keys])) (fun t =>
        berthState t b.val = 1 ∧ t.get ⟨pgBerth b.val, 0x614, 0, 7⟩ = 0x7F ∧ EventSet s t (pgBerth b.val) 0 ∧
          t.berth b.val = { BerthRun.reset with objKey := s.drawn + 1, linkKey := s.drawn + 2, kemKey := s.drawn + 3 } ∧
          t.drawn = s.drawn + 3)
  /-- … which closes field access at CONTROL or TEST (19 R478). -/
  | opensClosing (b : Fin 16) (a : Access) (h : BerthTakes s b a 1) (h1 : 2 ≤ debugLevel s) :
      BerthRow s (.berthOpen b a)
        (also (also (wordsAndEvent (pgBerth b.val) [0x050, 0x614, 0x620]) (parts [.berth b.val, .keys])) debugCloses) (fun t =>
        berthState t b.val = 1 ∧ debugLevel t = 0 ∧ EventSet s t pgDebug 1 ∧ EventSet s t (pgBerth b.val) 0)
  /-- BIND begins its steps at once (R375, R377). -/
  | binds (b : Fin 16) (a : Access) (h : BerthTakes s b a 2) :
      BerthRow s (.bind b a) (also (words (pgBerth b.val) [0x050]) (parts [.berth b.val])) (fun t =>
        berthState t b.val = 3 ∧ t.bit (fBstBusy b.val) = true ∧
          t.berth b.val = { s.berth b.val with job := some a.data, begun := true, prior := berthState s b.val })
  /-- UNBIND and TEARDOWN without FORCE wait for what uses the resource (R376). -/
  | waits (i : Instr) (b : Fin 16) (a : Access) (op : Nat) (hi : (i = .unbind b a ∧ op = 3) ∨ (i = .teardown b a ∧ op = 4))
      (h : BerthTakes s b a op) (h1 : bForce a.data = false) :
      BerthRow s i (also (words (pgBerth b.val) [0x050]) (parts [.berth b.val])) (fun t =>
        berthState t b.val = berthState s b.val ∧ t.bit (fBstBusy b.val) = true ∧
          t.berth b.val = { s.berth b.val with
            job := some a.data
            begun := false
            waits := jobWaits s b.val a.data
            prior := berthState s b.val })
  /-- With FORCE they wait for nothing (R376). -/
  | forced (i : Instr) (b : Fin 16) (a : Access) (op : Nat) (hi : (i = .unbind b a ∧ op = 3) ∨ (i = .teardown b a ∧ op = 4))
      (h : BerthTakes s b a op) (h1 : bForce a.data = true) (h2 : jobWaits s b.val a.data = []) (h3 : enginesInJob s b.val a.data = []) :
      BerthRow s i (also (words (pgBerth b.val) [0x050]) (parts [.berth b.val])) (fun t =>
        t.bit (fBstBusy b.val) = true ∧
          t.berth b.val = { s.berth b.val with job := some a.data, begun := false, waits := [], prior := berthState s b.val })
  /-- A refused BCMD: BSTAT.CAUSE and REFUSED, and nothing more (R375). -/
  | refused (i : Instr) (b : Fin 16) (a : Access) (hi : IsBcmd i b a) (h : HostTakes s (pgBerth b.val) 0x04C a)
      (h1 : berthCause s b.val a.data ≠ 0) :
      BerthRow s i (wordsAndEvent (pgBerth b.val) [0x050]) (fun t =>
        t.get (fBstCause b.val) = berthCause s b.val a.data ∧ berthState t b.val = berthState s b.val ∧
          t.bit (fBstBusy b.val) = s.bit (fBstBusy b.val) ∧ EventSet s t (pgBerth b.val) 1)
  /-- The steps begin: the VF is closed, the clusters go into reset, held sources end and landings are absorbed (R377 steps 1, 2). -/
  | starts (b : Fin 16) (v : W32) (h : (s.berth b.val).job = some v) (h1 : rebindReady s b.val = true) :
      BerthRow s (.rebindStart b) (also (words (pgBerth b.val) [0x050]) (parts [.berth b.val, .held, .landings, .boot])) (fun t =>
        t.berth b.val = { s.berth b.val with begun := true, closed := true, waits := [], prior := berthState s b.val } ∧
          berthState t b.val = (if bOp v = 4 then 4 else 3) ∧
          t.held = s.held.filter (fun h => !(h.len != 0 && jobHasRange s b.val v h.addr h.len)) ∧
          (∀ h ∈ s.held, h.len ≠ 0 → jobHasRange s b.val v h.addr h.len = true → Out.sourceReset h.key ∈ t.out) ∧
          (∀ l ∈ s.landing, ∀ a, l.st = .landing → l.target ≠ .absorbed → l.addr = some a → jobHasPlace s b.val v a = true →
            Out.absorbedNotice l.key ∈ t.out ∧ ∃ m, findLanding t l.key = some m ∧ m.target = .absorbed) ∧
          ∀ c ∈ jobClusters s b.val v, clusterResetting t c = true)
  /-- BIND of a cluster: it is the berth's (R377, R378). -/
  | bindsCluster (b : Fin 16) (us : BitVec 12) (v : W32) (h : JobDue s b.val v 2 false) :
      BerthRow s (.rebindDone b us) (also (jobParts b.val) (words (pgBerth b.val) [0x040, 0x044])) (fun t =>
        JobOver s t b.val us.toNat ∧ t.rd64 (pgBerth b.val) 0x040 = s.rd64 (pgBerth b.val) 0x040 ||| BitVec.ofNat 64 (2 ^ bIndex v))
  /-- BIND of a region: charged to the berth; a scratchpad zeroed, HBM under a new key (R378, R379; 12 R314). -/
  | bindsRegion (b : Fin 16) (us : BitVec 12) (v : W32) (n : Nat) (h : JobDue s b.val v 2 true) (h1 : n = bIndex v) (h2 : n < 16) :
      BerthRow s (.rebindDone b us)
        (also (also (also (jobParts b.val) (words (pgBerth b.val) [0x10C + 16 * n, usedOff (regionTier s b.val n)]))
          (cleared (regionBase s b.val n) (regionLen s b.val n))) (parts [.keys])) (fun t =>
        JobOver s t b.val us.toNat ∧ regionBound t b.val n = true ∧
          t.rdN (pgBerth b.val) (usedOff (regionTier s b.val n)) =
            (s.rdN (pgBerth b.val) (usedOff (regionTier s b.val n)) + regionGranules s b.val n) % 2 ^ 32 ∧
          (if regionTier s b.val n = 0 then (∀ j, j < regionLen s b.val n → t.byte (regionBase s b.val n + j) = 0) ∧ t.drawn = s.drawn
            else storeGet (t.berth b.val).regionKey n 0 = s.drawn + 1 ∧ t.drawn = s.drawn + 1))
  /-- UNBIND of a cluster: reset, its scratchpad zeroed, its locks open, no berth's (R377 to R379). -/
  | unbindsCluster (b : Fin 16) (us : BitVec 12) (v : W32) (c : Nat) (h : JobDue s b.val v 3 false) (h1 : c = bIndex v) :
      BerthRow s (.rebindDone b us)
        (also (also (jobParts b.val) (also (words (pgBerth b.val) [0x040, 0x044]) (clusterLocks c)))
          (also (clusterParts c) (cleared (scratchAddr c 0) scratchSize))) (fun t =>
        JobOver s t b.val us.toNat ∧ ClusterClear s t c ∧ clusterResetting t c = s.boot.resets.any (fun r =>
            decide (∃ n : Fin 8, r = .partition n ∧ n.val = c / 8)) ∧
          t.rd64 (pgBerth b.val) 0x040 = s.rd64 (pgBerth b.val) 0x040 &&& ~~~(BitVec.ofNat 64 (2 ^ c)) ∧
          (∀ j, j < scratchSize → t.byte (scratchAddr c j) = 0) ∧ (∀ g ∈ clusterPages c, t.bit ⟨g, 0x028, 0, 1⟩ = false) ∧
          EventSet s t (pgCl c) 0)
  /-- UNBIND of a region: released from the quota; a scratchpad zeroed, the key of HBM destroyed (R377 to R379; 12 R314). -/
  | unbindsRegion (b : Fin 16) (us : BitVec 12) (v : W32) (n : Nat) (h : JobDue s b.val v 3 true) (h1 : n = bIndex v) (h2 : n < 16) :
      BerthRow s (.rebindDone b us)
        (also (also (jobParts b.val) (words (pgBerth b.val) [0x10C + 16 * n, usedOff (regionTier s b.val n)]))
          (cleared (regionBase s b.val n) (regionLen s b.val n))) (fun t =>
        JobOver s t b.val us.toNat ∧ regionBound t b.val n = false ∧ storeGet (t.berth b.val).regionKey n 0 = 0 ∧
          t.rdN (pgBerth b.val) (usedOff (regionTier s b.val n)) =
            s.rdN (pgBerth b.val) (usedOff (regionTier s b.val n)) - regionGranules s b.val n ∧
          (regionTier s b.val n = 0 → ∀ j, j < regionLen s b.val n → t.byte (regionBase s b.val n + j) = 0))
  /-- TEARDOWN: the berth is FREE and owns nothing; its keys are gone (R377, R379, R380; 07 R490). -/
  | tornDown (b : Fin 16) (us : BitVec 12) (v : W32) (h : JobDue s b.val v 4 (bRegion v)) (h1 : TierQuiet s b.val) :
      BerthRow s (.rebindDone b us) (tearParts s b.val) (fun t =>
        t.berth b.val = BerthRun.reset ∧ berthState t b.val = 0 ∧ t.bit (fBstBusy b.val) = false ∧ t.bit (fBstSession b.val) = false ∧
          t.bit (fBstIde b.val) = false ∧ t.rdN (pgBerth b.val) 0x054 = us.toNat ∧ EventSet s t (pgBerth b.val) 0 ∧
          (∀ c, c < 64 → clusterOwner t c ≠ b.val) ∧ (∀ n, n < 16 → regionBound t b.val n = false) ∧
          (∀ g, g < 64 → groupOwner s g = b.val → groupOwner t g = 0xFF ∧ groupState t g = 0) ∧
          (∀ o, (t.obj o).owner = b.val → (t.obj o).state = 0) ∧ (∀ x, (t.index x).owner = b.val → (t.index x).state = 0) ∧
          (∀ c, c < 64 → clusterOwner s c = b.val → (∀ n, n < 16 → regionBound s b.val n = true →
            overlap (scratchAddr c 0) scratchSize (regionBase s b.val n) (regionLen s b.val n) = false) →
              ∀ j, j < scratchSize → t.byte (scratchAddr c j) = 0))

/-! Owner sessions. -/

/-- A message of the berth's session that is taken: the VF answers, the tag is good, and IDE is active where it must be (14 R384,
R386). -/
abbrev MessageTaken (s : State) (b : Nat) (msg : List Byte) (km : Bool) : Prop := vfAnswers s b = true ∧ sessionTakes s b msg km = true

/-- A function's DOE mailbox answers, with what must come first negotiated (14 R388). -/
abbrev Negotiated (s : State) (func need : Nat) : Prop := doeAnswers s func = true ∧ doeState s func &&& need = need

/-- A response has gone out on the function's mailbox. -/
abbrev Responded (t : State) (func code : Nat) (body : List Byte) : Prop := Out.spdm func code (Config.spdmBody code body) ∈ t.out

/-- Sessions, their messages, and the failures of R380 and R392 (14 R383 to R386, R391, R392). -/
inductive SessionRow (s : State) : Instr → (Part → Prop) → (State → Prop) → Prop where
  /-- OPEN_SESSION: the berth is OPEN with a session key of its own, and the owner is answered (R384). -/
  | opens (b : Fin 16) (msg : List Byte) (secret : List Byte) (h : vfAnswers s b.val = true) (h1 : berthState s b.val = 1)
      (h2 : s.bit fRngFailed = false) (h3 : Config.decaps (s.berth b.val).kemKey (msg.take (msg.length - 32)) = some secret) :
      SessionRow s (.openSession b msg) (also (wordsAndEvent (pgBerth b.val) [0x050]) (parts [.berth b.val, .keys])) (fun t =>
        berthState t b.val = 2 ∧ t.bit (fBstSession b.val) = true ∧
          t.berth b.val = { s.berth b.val with session := s.drawn + 1 } ∧ t.drawn = s.drawn + 1 ∧ EventSet s t (pgBerth b.val) 2 ∧
          Out.session b.val (Config.sessionConfirm (secret ++ msg)) ∈ t.out)
  /-- A session that cannot be opened (R384, R380). -/
  | fails (b : Fin 16) (msg : List Byte) (h : vfAnswers s b.val = true)
      (h1 : berthState s b.val ≠ 1 ∨ s.bit fRngFailed = true ∨
        Config.decaps (s.berth b.val).kemKey (msg.take (msg.length - 32)) = none) :
      SessionRow s (.openSession b msg) (wordsAndEvent (pgBerth b.val) []) (fun t =>
        EventSet s t (pgBerth b.val) 3 ∧ berthState t b.val = berthState s b.val)
  /-- LINK_EXPORT answers with the sealed link key (R383). -/
  | exports (b : Fin 16) (msg : List Byte) (h : MessageTaken s b.val msg false) :
      SessionRow s (.linkExport b msg) (parts [.signals]) (fun t =>
        Out.session b.val (Config.sealKey (s.berth b.val).linkKey msg) ∈ t.out)
  /-- LINK_IMPORT puts a key in the place of the berth's own (R383). -/
  | imports (b : Fin 16) (msg : List Byte) (k : Nat) (h : MessageTaken s b.val msg false) (h1 : s.bit fRngFailed = false)
      (h2 : Config.unsealKey (s.berth b.val).kemKey msg = some k) :
      SessionRow s (.linkImport b msg) (parts [.berth b.val, .signals]) (fun t =>
        t.berth b.val = { s.berth b.val with linkKey := k })
  /-- One that does not open is refused (R383). -/
  | importFails (b : Fin 16) (msg : List Byte) (h : MessageTaken s b.val msg false)
      (h1 : s.bit fRngFailed = true ∨ Config.unsealKey (s.berth b.val).kemKey msg = none) :
      SessionRow s (.linkImport b msg) (wordsAndEvent pgSec []) (fun t => EventSet s t pgSec 1 ∧ t.berth b.val = s.berth b.val)
  /-- IDE_KM makes the stream active (R386). -/
  | ideKm (b : Fin 16) (msg : List Byte) (h : MessageTaken s b.val msg true) :
      SessionRow s (.ideKm b msg) (words (pgBerth b.val) [0x050]) (fun t => t.bit (fBstIde b.val) = true)
  /-- A message that fails its tag, or comes before an IDE stream that must be active (R386). -/
  | messageFails (i : Instr) (b : Fin 16) (msg : List Byte) (km : Bool)
      (hi : (i = .linkExport b msg ∧ km = false) ∨ (i = .linkImport b msg ∧ km = false) ∨ (i = .ideKm b msg ∧ km = true))
      (h : vfAnswers s b.val = true) (h1 : sessionTakes s b.val msg km = false) :
      SessionRow s i (wordsAndEvent (pgBerth b.val) []) (fun t => EventSet s t (pgBerth b.val) 3 ∧ t.berth b.val = s.berth b.val)
  /-- KEYLOCK sets or clears LOCK of a page of the berth (R391). -/
  | keylock (b : Fin 16) (page : BitVec 14) (on : Bool) (h : vfAnswers s b.val = true) (h1 : s.bit (fBstSession b.val) = true)
      (h2 : s.bit (fBstIde b.val) = true) (h3 : pageOwner s page.toNat = b.val) :
      SessionRow s (.keylock b page on) (words page.toNat [0x028]) (fun t => t.bit ⟨page.toNat, 0x028, 0, 1⟩ = on)
  /-- … and is refused on a page that is not, or without session or IDE (R391). -/
  | keylockRefused (b : Fin 16) (page : BitVec 14) (on : Bool) (h : vfAnswers s b.val = true)
      (h1 : s.bit (fBstSession b.val) = false ∨ s.bit (fBstIde b.val) = false ∨ pageOwner s page.toNat ≠ b.val) :
      SessionRow s (.keylock b page on) (wordsAndEvent (pgBerth b.val) []) (fun t => EventSet s t (pgBerth b.val) 3)
  /-- The random bit generator fails its health test: RNG, its alarms, ALARM (R380). -/
  | rngFail (h : running s = true) :
      SessionRow s .rngFail (wordsAndEvent pgSec [0x040]) (fun t =>
        t.bit fRngFailed = true ∧ t.get ⟨pgSec, 0x040, 16, 16⟩ = min (s.get ⟨pgSec, 0x040, 16, 16⟩ + 1) 65535 ∧ EventSet s t pgSec 4)
  /-- An IDE failure is counted; the berth's stream is over (R392). -/
  | ideFail (func : Fin 17) (b : Nat) (h : hostUp s = true) (h1 : func.val ≠ 0) (h2 : vfBerth s func.val = some b) (h3 : b < 16) :
      SessionRow s (.ideFail func) (also (wordsAndEvent pgSec [0x048]) (words (pgBerth b) [0x050])) (fun t =>
        t.bit (fBstIde b) = false ∧ t.rdN pgSec 0x048 = min (s.rdN pgSec 0x048 + 1) (2 ^ 32 - 1) ∧ EventSet s t pgSec 3)
  /-- … and of the physical function's (R392). -/
  | ideFailHost (func : Fin 17) (h : hostUp s = true) (h1 : func.val = 0 ∨ vfBerth s func.val = none) :
      SessionRow s (.ideFail func) (wordsAndEvent pgSec [0x048]) (fun t =>
        t.rdN pgSec 0x048 = min (s.rdN pgSec 0x048 + 1) (2 ^ 32 - 1) ∧ EventSet s t pgSec 3)

/-- SPDM over DOE (14 R388, R389). -/
inductive SpdmRow (s : State) : Instr → (Part → Prop) → (State → Prop) → Prop where
  /-- Version, capabilities and algorithms are negotiated in this order. -/
  | negotiates (i : Instr) (func : Fin 17) (msg : List Byte) (need next code : Nat) (h : Negotiated s func.val need)
      (hi : (i = .getVersion func msg ∧ need = 0 ∧ next = 1 ∧ code = 0x04) ∨ (i = .getCapabilities func msg ∧ need = 1 ∧ next = 3 ∧
        code = 0x61) ∨ (i = .negotiateAlgorithms func msg ∧ need = 3 ∧ next = 7 ∧ code = 0x63)) :
      SpdmRow s i (parts [.doe, .signals]) (fun t => doeState t func.val = next ∧ Responded t func.val code msg)
  /-- The identity's digest, certificate, challenge and measurements (R387, R389). -/
  | identity (i : Instr) (func : Fin 17) (msg : List Byte) (code : Nat) (body : List Byte) (h : Negotiated s func.val 7)
      (h1 : s.bit fIdentity = true)
      (hi : (i = .getDigests func msg ∧ code = 0x01 ∧ body = msg ++ Config.shake256 Config.certificate 32) ∨
        (i = .getCertificate func msg ∧ code = 0x02 ∧ body = msg ++ Config.certificate) ∨
        (i = .spdmChallenge func msg ∧ code = 0x03 ∧ body = signed (msg ++ regBytes s pgIdent 0x040 8)) ∨
        (i = .getMeasurements func msg ∧ code = 0x60 ∧
          body = signed (msg ++ (measurements s (measuredFor s func.val msg)).flatten))) :
      SpdmRow s i (parts [.signals]) (fun t => Responded t func.val code body)
  /-- Without an identity they are answered with ERROR (R387). -/
  | noIdentity (i : Instr) (func : Fin 17) (msg : List Byte) (h : Negotiated s func.val 7) (h1 : s.bit fIdentity = false)
      (hi : i = .getDigests func msg ∨ i = .getCertificate func msg ∨ i = .spdmChallenge func msg ∨ i = .getMeasurements func msg) :
      SpdmRow s i (parts [.signals]) (fun t => Responded t func.val 0x7F [])
  /-- A request out of order is answered with ERROR. -/
  | outOfOrder (i : Instr) (func : Fin 17) (msg : List Byte) (need : Nat) (h : doeAnswers s func.val = true)
      (h1 : doeState s func.val &&& need ≠ need)
      (hi : (i = .getCapabilities func msg ∧ need = 1) ∨ (i = .negotiateAlgorithms func msg ∧ need = 3) ∨ (need = 7 ∧
        (i = .getDigests func msg ∨ i = .getCertificate func msg ∨ i = .spdmChallenge func msg ∨ i = .getMeasurements func msg ∨
          i = .chunkSend func msg ∨ i = .chunkGet func msg ∨ i = .vendorDefinedRequest func msg))) :
      SpdmRow s i (parts [.signals]) (fun t => Responded t func.val 0x7F [])
  /-- A large message comes in parts, which are kept in order … -/
  | chunkSend (func : Fin 17) (msg : List Byte) (h : Negotiated s func.val 7) :
      SpdmRow s (.chunkSend func msg) (parts [.doe, .signals]) (fun t =>
        storeGet t.doeBuf func.val [] = storeGet s.doeBuf func.val [] ++ msg ∧ Responded t func.val 0x05 msg ∧ t.doe = s.doe)
  /-- … and go out. -/
  | chunkGet (func : Fin 17) (msg : List Byte) (h : Negotiated s func.val 7) :
      SpdmRow s (.chunkGet func msg) (parts [.signals]) (fun t => Responded t func.val 0x06 (msg ++ storeGet s.doeBuf func.val []))
  /-- VENDOR_DEFINED_REQUEST carries the messages of a berth's session … -/
  | vendor (func : Fin 17) (msg : List Byte) (h : Negotiated s func.val 7)
      (h1 : func.val ≠ 0 ∨ s.bit fRngFailed = true ∨ Config.unsealKey 0 msg = none) :
      SpdmRow s (.vendorDefinedRequest func msg) (parts [.signals]) (fun t => Responded t func.val 0x7E msg)
  /-- … and on the physical function the host's link key (R383). -/
  | vendorHost (func : Fin 17) (msg : List Byte) (k : Nat) (h : Negotiated s func.val 7) (h1 : func.val = 0)
      (h2 : s.bit fRngFailed = false) (h3 : Config.unsealKey 0 msg = some k) :
      SpdmRow s (.vendorDefinedRequest func msg) (also (words pgSec [0x050]) (parts [.keys])) (fun t =>
        t.hostKey = k ∧ t.drawn = s.drawn ∧ t.rd pgSec 0x050 = 1 ∧ Responded t func.val 0x7E msg)

end Sys2Proof.Claims

/-- Berths are opened, bound, unbound and torn down (14 R374 to R380; 19 R478; readings: log 54). -/
def Obligations.BerthResults : Prop := Rows BerthRow

/-- Owner sessions, key messages, and failures of the generator and of IDE (14 R380 to R386, R391, R392; readings: log 54). -/
def Sys2Proof.Claims.claimSessionResults : Prop := Rows SessionRow

/-- SPDM requests are answered in the order of their negotiation (14 R387 to R389; readings: logs 22 and 54). -/
def Sys2Proof.Claims.claimSpdmResults : Prop := Rows SpdmRow

/-- Session, page lock and link key commands, and the SPDM responder (14 R380 to R393; readings: logs 21, 22 and 54). -/
def Obligations.SecureSessionResults : Prop := claimSessionResults ∧ claimSpdmResults

namespace Sys2Proof.Claims
open Sys2Proof.Machine

/-- What a refused access leaves: GLOBAL's ACCESS, with its place, source and count (17 R438, R441). -/
abbrev accessParts : Part → Prop := wordsAndEvent pgGlobal [0x040, 0x044, 0x048]

/-- The access has been refused. -/
abbrev Refused (s t : State) : Prop :=
  EventSet s t pgGlobal 0 ∧ t.rdN pgGlobal 0x048 = min (s.rdN pgGlobal 0x048 + 1) (2 ^ 32 - 1)

/-! The chip's resets. -/

/-- Everything but what survives a chip reset whole. -/
abbrev chipParts (p : Part) : Prop := p ≠ .queue ∧ p ≠ .flash ∧ p ≠ .i3c

/-- A chip reset has taken place (15 R410, R412; 19 R474): state is as after power-on, but for the logbook's entries, the defect map,
the straps, the pins, and HBM, which is undefined. -/
abbrev ChipFresh (s t : State) (phase : Phase) : Prop :=
  (∀ page off, off < 4096 → page ≠ pgLog → (page = pgBoot → off ≠ 0x00C) → t.rd page off = regReset page off) ∧
  t.get fStage = 0 ∧ t.bit fMapValid = (keptMap s).isSome ∧ t.bit fImageValid = false ∧ t.tide = Tide.reset ∧ t.cores = [] ∧
  t.links = [] ∧ t.ports = [] ∧ t.ferries = [] ∧ t.groups = [] ∧ t.objects = [] ∧ t.tierQ = [] ∧ t.tierMoves = [] ∧
  t.indexes = [] ∧ t.engines = [] ∧ t.berths = [] ∧ t.landing = [] ∧ t.held = [] ∧ t.hostKey = 0 ∧ t.mem = [] ∧ t.poison = [] ∧
  t.image = [] ∧ t.bar4 = [] ∧ t.log.slots = s.log.slots ∧ t.log.next = s.log.next ∧ t.log.oldest = s.log.oldest ∧
  t.log.discarded = s.log.discarded ∧
  t.boot = { Boot.reset with
    phase := phase
    perst := t.boot.perst
    i3cStrap := s.boot.i3cStrap
    strap := s.boot.strap
    map := keptMap s } ∧
  ∀ n, n < 16 → s.bit (fLnkEn n) = true → Out.lasers n false ∈ t.out

/-! Bring-up. -/

/-- The step `n` of the sequence is under way. -/
abbrev AtStage (s : State) (n : Nat) : Prop := running s = true ∧ s.get fStage = n

/-- BOOT.STATUS, and what the harbourmaster keeps. -/
abbrev bootParts : Part → Prop := also (words pgBoot [0x00C]) (parts [.boot])

/-- A write of BOOT.CMD that asks for one thing, its bit `b`, with FAST as `fast`. -/
abbrev BootCmd (s : State) (a : Access) (b : Nat) : Prop :=
  HostTakes s pgBoot 0x080 a ∧ ∀ i ∈ [0, 2, 3, 4], a.data.getLsbD i = decide (i = b)

/-- Words of a digest in a page's registers. -/
abbrev DigestIn (t : State) (page off : Nat) (d : List Byte) : Prop :=
  ∀ i w, i < 8 → nth (wordsOf d) i = some w → t.rd page (off + 4 * i) = w

/-- A digest's words. -/
abbrev digestWords (page off : Nat) : Part → Prop := words page ((List.range 8).map (fun i => off + 4 * i))

/-- The image has been verified (15 R399): its digest, version and operator, and step 5. -/
abbrev Verified (t : State) (img : State) : Prop :=
  t.get fStage = 4 ∧ t.bit fImageValid = true ∧ t.rdN pgBoot 0x048 = imageNat img 12 4 ∧ t.boot.opKey = img.imageBytes 16 32 ∧
    DigestIn t pgBoot 0x04C (Config.shake256 (img.imageBytes 0 (imgSigned img)) 32)

/-- What verification changes. -/
abbrev verifyParts : Part → Prop := also (also (wordsAndEvent pgBoot [0x00C, 0x044, 0x048]) (digestWords pgBoot 0x04C)) (parts [.boot])

/-- A relayed image as given. -/
def withImage (s : State) (bytes : List Byte) : State :=
  if bytes.isEmpty then s else { s with image := [] }.storeImage 0 bytes

/-- Its length. -/
def relayLen (s : State) (bytes : List Byte) : Nat := if bytes.isEmpty then imgLen s else bytes.length

/-- The header of the first relay piece to a neighbour (15 R409). -/
def relayHeader (s : State) (n : Nat) : ConsHdr :=
  { kind := 4, stream := n, seq := 0, due := 0, len := ceilDiv (imgLen s) 4096, attempt := 0, berth := 255, src := nodeId s,
    dst := farNode s n, srcPlace := 64, dstPlace := 64, addr := 0 }

/-- All enabled links that are OFF train (15 R396). -/
abbrev AllTrain (s t : State) : Prop :=
  s.bit fCfgValid = true → ∀ n, n < 16 → (s.bit (fLnkEn n) = true ∧ linkState s n = 0) → Training s t n

/-- What that changes. -/
abbrev allTrainParts (p : Part) : Prop := ∃ n, n < 16 ∧ trainParts n [0x00C] p

/-- What the self-test or the map may change in a cluster: SUBST, BANKS, an event; a core; a withheld bank. -/
abbrev spareParts (cl : Nat) : Part → Prop :=
  also (wordsAndEvent (pgCl cl) [0x048, 0x04C]) (fun p => p = .withheld ∨ ∃ j, j < 64 ∧ p = .core (64 * cl + j))

/-- Every scratchpad reads zero. -/
abbrev ScratchZero (t : State) : Prop := ∀ cl, cl < 64 → ∀ off, off < scratchSize → t.byte (scratchAddr cl off) = 0

/-- The bytes of the scratchpads. -/
abbrev scratchBytes (p : Part) : Prop := ∃ cl, cl < 64 ∧ bytesAt (scratchAddr cl 0) scratchSize p

/-- The self-test of a full path reports these failures only. -/
abbrev SelfTest (s : State) (r : StageReport) (cores : List CoreId) (banks : List (Nat × Nat)) : Prop :=
  AtStage s 5 ∧ s.bit fPath = false ∧ r.failed = cores ∧ r.banks = banks ∧ r.lanes = []

/-- The lists of missed chunks are judged (15 R407). -/
abbrev Nacked (s : State) (missed l : List (CoreId × BitVec 16)) : Prop :=
  AtStage s 7 ∧ (s.boot.missing ≠ [] ∨ (s.boot.rounds = 0 ∧ s.boot.lastTry = 0)) ∧ stillMissing s missed = l

/-- What the fencing of a physical core changes. -/
abbrev fenceParts (cl : Nat) : Part → Prop := also (spareParts cl) (also (words pgBoot [0x06C]) (parts [.boot]))

/-- Bring-up (15 R395 to R409). -/
inductive BootRow (s : State) : Instr → (Part → Prop) → (State → Prop) → Prop where
  /-- 48 V is stable: the straps are sampled, and the sequence begins unless PERST# holds it (R395). -/
  | cold (strap : BitVec 2) (h : s.boot.phase = .off) :
      BootRow s (.coldStart strap) (parts [.boot]) (fun t =>
        t.boot = { s.boot with phase := if s.boot.perst then .held else .running, i3cStrap := strap, strap := strap })
  /-- PERST# asserts: a chip reset until it deasserts (R410; 18 R463). -/
  | perst (h : s.boot.phase = .running ∨ s.boot.phase = .scanning) :
      BootRow s .perstAssert chipParts (fun t => ChipFresh s t .held ∧ t.boot.perst = true)
  /-- … of a chip that does not run, the pin only. -/
  | perstIdle (h : s.boot.phase = .off ∨ s.boot.phase = .held ∨ s.boot.phase = .tripped) :
      BootRow s .perstAssert (parts [.boot]) (fun t => t.boot = { s.boot with perst := true })
  /-- PERST# deasserts: the sequence begins (18 R463). -/
  | perstEnds (strap : BitVec 2) (h : s.boot.phase = .held) :
      BootRow s (.perstDeassert strap) (parts [.boot]) (fun t =>
        t.boot = { s.boot with perst := false, phase := .running, strap := strap })
  | perstEndsIdle (strap : BitVec 2) (h : s.boot.phase ≠ .held) :
      BootRow s (.perstDeassert strap) (parts [.boot]) (fun t => t.boot = { s.boot with perst := false })
  /-- Step 1 (R396): the strap is sampled, the image area is empty, the configuration judged (11 R302). -/
  | rom (r : StageReport) (h : AtStage s 0) (h1 : r.isrothOk = true) (h2 : r.strap ≠ 3)
      (h3 : s.get ⟨pgTopo, 0x040, 2, 14⟩ < 2 ^ s.get ⟨pgTopo, 0x040, 16, 4⟩) :
      BootRow s (.stageDone r) (also bootParts (also (words pgTopo [0x00C]) (parts [.image]))) (fun t =>
        t.get fStage = 1 ∧ t.boot.strap = r.strap ∧ t.image = [] ∧ t.bit fCfgValid = true)
  /-- … with an illegal strap or SELF: 0x5008 (11 R302; 18 R458). -/
  | romBadConfig (r : StageReport) (h : AtStage s 0) (h1 : r.isrothOk = true)
      (h2 : r.strap = 3 ∨ 2 ^ s.get ⟨pgTopo, 0x040, 16, 4⟩ ≤ s.get ⟨pgTopo, 0x040, 2, 14⟩) :
      BootRow s (.stageDone r) (also bootParts (also (wordsAndEvent pgTopo [0x00C]) (parts [.image]))) (fun t =>
        t.get fStage = 1 ∧ t.bit fCfgValid = false ∧ EventSet s t pgTopo 1)
  /-- The Isroth die fails its own test: FAILED (R397). -/
  | romFails (r : StageReport) (h : AtStage s 0) (h1 : r.isrothOk = false) :
      BootRow s (.stageDone r) (also (wordsAndEvent pgBoot [0x00C]) (parts [.boot, .image])) (fun t =>
        t.get fStage = 11 ∧ EventSet s t pgBoot 4)
  /-- Step 2: the identity (R396; 14 R387). -/
  | puf (r : StageReport) (h : AtStage s 1) (h1 : r.pufOk = true) :
      BootRow s (.stageDone r)
        (also (words pgBoot [0x00C]) (also (also (words pgIdent [0x064]) (digestWords pgIdent 0x040)) (words pgSec [0x040]))) (fun t =>
        t.get fStage = 2 ∧ t.bit fIdentity = true ∧ t.bit ⟨pgIdent, 0x064, 1, 1⟩ = r.certPresent ∧
          DigestIn t pgIdent 0x040 Config.identityDigest)
  /-- … or none (14 R387). -/
  | pufFails (r : StageReport) (h : AtStage s 1) (h1 : r.pufOk = false) :
      BootRow s (.stageDone r) (also (words pgBoot [0x00C]) (also (words pgIdent [0x064]) (wordsAndEvent pgSec [0x040]))) (fun t =>
        t.get fStage = 2 ∧ t.bit fIdentity = false ∧ EventSet s t pgSec 0)
  /-- Step 5: the cores have power (R396, R401). -/
  | cores (r : StageReport) (h : AtStage s 4) : BootRow s (.stageDone r) (words pgBoot [0x00C]) (fun t => t.get fStage = 5)
  /-- Step 6 of a full path with nothing to repair: every scratchpad is zero (R402, R484). -/
  | testClean (r : StageReport) (h : SelfTest s r [] []) :
      BootRow s (.stageDone r) (also bootParts scratchBytes) (fun t =>
        t.get fStage = 6 ∧ t.boot.found = DefectMap.empty ∧ t.boot.sparesLeft = r.spares ∧ ScratchZero t)
  /-- A core has failed: the lowest passing spare takes its id (R402). -/
  | testSpare (r : StageReport) (id : CoreId) (i : Nat) (h : SelfTest s r [id] []) (h1 : coreOk id = true) (h2 : s.bit fSpareEn = true)
      (h3 : i < 4) (h4 : (id.toNat / 64, i) ∈ r.spares) (h5 : ∀ j, j < i → (id.toNat / 64, j) ∉ r.spares) :
      BootRow s (.stageDone r) (also (also bootParts scratchBytes) (spareParts (id.toNat / 64))) (fun t =>
        t.get fStage = 6 ∧ t.get (substByte (id.toNat / 64) i) = id.toNat % 64 + 128 ∧ EventSet s t (pgCl (id.toNat / 64)) 2 ∧
          t.boot.found.subst = [(id.toNat / 64, i, id.toNat % 64)] ∧ t.core id = s.core id ∧ ScratchZero t)
  /-- … or, without one, it is FENCED (R402). -/
  | testFenced (r : StageReport) (id : CoreId) (h : SelfTest s r [id] []) (h1 : coreOk id = true)
      (h2 : s.bit fSpareEn = false ∨ ∀ j, j < 4 → (id.toNat / 64, j) ∉ r.spares) :
      BootRow s (.stageDone r) (also (also bootParts scratchBytes) (spareParts (id.toNat / 64))) (fun t =>
        t.get fStage = 6 ∧ t.core id = { s.core id with state := .fenced } ∧ EventSet s t (pgCl (id.toNat / 64)) 1 ∧
          t.boot.found.fenced = [id] ∧ ScratchZero t)
  /-- A scratchpad bank has failed: its group's spare bank, or its granules are withheld (R402). -/
  | testBank (r : StageReport) (cl b : Nat) (h : SelfTest s r [] [(cl, b)]) (h1 : cl < 64) (h2 : b < 352) :
      BootRow s (.stageDone r) (also (also bootParts scratchBytes) (spareParts cl)) (fun t =>
        t.get fStage = 6 ∧ ScratchZero t ∧
          if s.bit fSpareEn then t.get (fBanksSpare cl) = (s.get (fBanksSpare cl) + 1) % 16 ∧ EventSet s t (pgCl cl) 2 ∧
            t.withheld = s.withheld ∧ t.boot.found.spareBanks = [(cl, b / 32)]
          else t.get (fBanksHeld cl) = (s.get (fBanksHeld cl) + 1) % 256 ∧ EventSet s t (pgCl cl) 3 ∧
            t.withheld = s.withheld ++ (List.range 8).map (fun k => (0, scratchAddr cl 0 / granule 0 + 8 * b + k)) ∧
            t.boot.found.withheld = [(cl, b)])
  /-- Step 6 of the fast path applies the map (R405). -/
  | mapApplied (r : StageReport) (m : DefectMap) (h : AtStage s 5) (h1 : s.bit fPath = true) (h2 : s.boot.map = some m) :
      BootRow s (.stageDone r)
        (also (also bootParts scratchBytes) (also someLinks (fun p => (∃ cl, spareParts cl p) ∨ ∃ c, p = .core c))) (fun t =>
        t.get fStage = 6 ∧ t.boot.found = m ∧ ScratchZero t ∧ ∀ id ∈ m.fenced, (t.core id).state = .fenced)
  /-- Step 7 of a full path with no defect: the map is written, HBM undefined (R403, R404, R484). -/
  | hbmClean (r : StageReport) (h : AtStage s 6) (h1 : s.bit fPath = false) (h2 : r.rows = []) :
      BootRow s (.stageDone r) (also bootParts (also (bytesAt hbmBase (32 * stackSize)) (parts [.fresh]))) (fun t =>
        t.get fStage = 7 ∧ t.bit fMapValid = true ∧ t.boot.map = some { s.boot.found with hbm := [] })
  /-- … with a stack that has rows repaired and granules withheld (R403; 12 R329). -/
  | hbmRepaired (r : StageReport) (k n : Nat) (gs : List Nat) (h : AtStage s 6) (h1 : s.bit fPath = false)
      (h2 : r.rows = [(k, n, gs, true)]) (h3 : k < 32) (h4 : ∀ g ∈ gs, g < 32768) (h5 : gs.length ≤ 1024) :
      BootRow s (.stageDone r)
        (also (also bootParts (also (bytesAt hbmBase (32 * stackSize)) (parts [.fresh, .withheld]))) (words (pgHs k) [0x048, 0x04C])) (fun t =>
        t.get fStage = 7 ∧ t.rdN (pgHs k) 0x048 = n % 2 ^ 16 ∧ t.rdN (pgHs k) 0x04C = gs.length ∧
          t.withheld = s.withheld ++ gs.map (fun g => (1, stackAddr k 0 / granule 1 + g)) ∧ t.bit fMapValid = true)
  /-- … with a stack that is out of service: untrained, or past 1,024 granules withheld (R403). -/
  | hbmOut (r : StageReport) (k n : Nat) (gs : List Nat) (ok : Bool) (h : AtStage s 6) (h1 : s.bit fPath = false)
      (h2 : r.rows = [(k, n, gs, ok)]) (h3 : k < 32) (h4 : ∀ g ∈ gs, g < 32768) (h5 : ok = false ∨ 1024 < gs.length) :
      BootRow s (.stageDone r)
        (also (also (wordsAndEvent pgBoot [0x00C]) (also (bytesAt hbmBase (32 * stackSize)) (parts [.fresh, .boot])))
          (words (pgHs k) [0x048, 0x04C])) (fun t =>
        t.get fStage = 7 ∧ t.rdN (pgHs k) 0x04C = 32768 ∧ EventSet s t pgBoot 4 ∧ t.bit fMapValid = true)
  /-- Step 8 ends: enabled links train (R396, R406). -/
  | broadcast (r : StageReport) (h : AtStage s 7) (h1 : s.boot.missing = []) (h2 : s.boot.repairBegun = false) :
      BootRow s (.stageDone r) (also bootParts allTrainParts) (fun t => t.get fStage = 8 ∧ AllTrain s t)
  /-- … and with it a repair (R408). -/
  | broadcastRepaired (r : StageReport) (h : AtStage s 7) (h1 : s.boot.missing = []) (h2 : s.boot.repairBegun = true) :
      BootRow s (.stageDone r) (also (also (wordsAndEvent pgBoot [0x00C]) (parts [.boot, .log])) allTrainParts) (fun t =>
        t.get fStage = 8 ∧ AllTrain s t ∧ EventSet s t pgBoot 3)
  /-- Step 9 ends when no enabled link is in training (R396). -/
  | linksTrained (r : StageReport) (h : AtStage s 8) (h1 : linksOver s = true) (h2 : relayLinks s = []) :
      BootRow s (.stageDone r) (words pgBoot [0x00C]) (fun t => t.get fStage = 9)
  /-- Step 10 ends with the tide LOCKED or a root's: READY (R396). -/
  | ready (r : StageReport) (h : AtStage s 9) (h1 : tideState s = 2 ∨ tideState s = 5 ∨ tideState s = 6) :
      BootRow s (.stageDone r) (wordsAndEvent pgBoot [0x00C, 0x070]) (fun t =>
        t.get fStage = 10 ∧ stageReady t = true ∧ t.rdN pgBoot 0x070 = s.tide.clock / 10 ^ 6 % 2 ^ 32 ∧ EventSet s t pgBoot 1)
  /-- VERIFY in AWAIT_IMAGE begins, on the path asked for (R399). -/
  | verify (a : Access) (h : BootCmd s a 0) (h1 : s.get fStage = 2) (h2 : a.data.getLsbD 1 = true → mapGood s = true) :
      BootRow s (.verify a) (words pgBoot [0x00C]) (fun t => t.get fStage = 3 ∧ t.bit fPath = a.data.getLsbD 1)
  /-- … on the full path where the map does not allow the fast one (R405). -/
  | verifyFull (a : Access) (h : BootCmd s a 0) (h1 : s.get fStage = 2) (h2 : a.data.getLsbD 1 = true) (h3 : mapGood s = false) :
      BootRow s (.verify a) (wordsAndEvent pgBoot [0x00C]) (fun t => t.get fStage = 3 ∧ t.bit fPath = false ∧ EventSet s t pgBoot 2)
  /-- VERIFY and AWAIT_RELAY elsewhere are ignored (R400). -/
  | cmdRefused (i : Instr) (a : Access) (hi : (i = .verify a ∧ BootCmd s a 0) ∨ (i = .awaitRelay a ∧ BootCmd s a 2))
      (h1 : s.get fStage ≠ 2) : BootRow s i accessParts (fun t => Refused s t)
  /-- A good image is in force (R399). -/
  | verified (h : AtStage s 3) (h1 : verifyFails s (s.rdN pgBoot 0x040) = none) (h2 : relayLinks s = []) :
      BootRow s .verifyDone verifyParts (fun t => Verified t s)
  /-- … and sails on to a neighbour that RELAY_OUT names (R409). -/
  | verifiedRelays (n : Nat) (h : AtStage s 3) (h1 : verifyFails s (s.rdN pgBoot 0x040) = none) (h2 : relayLinks s = [n])
      (h3 : trained s n = true) (h4 : linkRole s n = 2) (h5 : 0 < imgLen s) (h6 : imgLen s ≤ 2 ^ 22) (h7 : portOf s n < 16)
      (h8 : hdrGood (hdrBytes (relayHeader s n)) = true) (h9 : (hdrOf (hdrBytes (relayHeader s n))).kind = 4)
      (h10 : storeGet s.sealCtr (linkKeyOf s (hdrOf (hdrBytes (relayHeader s n))).berth) 0 + 1 < 2 ^ 64) :
      BootRow s .verifyDone (also verifyParts (also (also someLinks flitsSent) (parts [.held]))) (fun t =>
        Verified t s ∧ (∃ x ∈ t.held, x.hdr = hdrBytes (relayHeader s n) ∧ x.attempt = 0 ∧ x.port = portOf s n) ∧
          Out.sail (portOf s n) (withAttempt (hdrBytes (relayHeader s n)) 0) (sealBlkOf 255 0)
            (consCrc (hdrBytes (relayHeader s n)) (s.imageBytes 0 (imgLen s))) ∈ t.out)
  /-- A bad one returns to AWAIT_IMAGE with the check's code; a chunk is named (R399). -/
  | verifyFailed (code chunk : Nat) (h : AtStage s 3) (h1 : verifyFails s (s.rdN pgBoot 0x040) = some (code, chunk)) :
      BootRow s .verifyDone (wordsAndEvent pgBoot [0x00C, 0x044]) (fun t =>
        t.get fStage = 2 ∧ EventSet s t pgBoot 0 ∧ (code = 0xB003 → t.rdN pgBoot 0x044 = chunk) ∧ t.bit fImageValid = s.bit fImageValid)
  /-- AWAIT_RELAY: enabled links train at once (R409). -/
  | awaitRelay (a : Access) (h : BootCmd s a 2) (h1 : s.get fStage = 2) :
      BootRow s (.awaitRelay a) (also bootParts allTrainParts) (fun t =>
        t.get fStage = 12 ∧ t.boot.fastAsked = a.data.getLsbD 1 ∧ AllTrain s t)
  /-- A relayed image is verified as the host's own (R409). -/
  | relayed (link : Fin 16) (bytes : List Byte) (h : AtStage s 12) (h1 : trained s link.val = true)
      (h2 : s.boot.fastAsked = true → mapGood s = true) (h3 : verifyFails (withImage s bytes) (relayLen s bytes) = none)
      (h4 : relayLinks s = []) :
      BootRow s (.relayImage link bytes) (also verifyParts (parts [.image])) (fun t =>
        Verified t (withImage s bytes) ∧ t.bit fPath = s.boot.fastAsked)
  /-- … and the chip waits on where it fails (R409). -/
  | relayFailed (link : Fin 16) (bytes : List Byte) (h : AtStage s 12) (h1 : trained s link.val = true) (f : Nat × Nat)
      (h2 : s.boot.fastAsked = true → mapGood s = true) (h3 : verifyFails (withImage s bytes) (relayLen s bytes) = some f) :
      BootRow s (.relayImage link bytes) (also (wordsAndEvent pgBoot [0x00C]) (parts [.image])) (fun t =>
        t.get fStage = 12 ∧ EventSet s t pgBoot 5)
  /-- No live core misses a chunk (R407). -/
  | allHold (missed : List (CoreId × BitVec 16)) (h : Nacked s missed []) :
      BootRow s (.nackList missed) (parts [.boot, .signals]) (fun t => t.boot = { s.boot with missing := [] })
  /-- A repair round, the first of which is reported (R407, R408). -/
  | repair (missed l : List (CoreId × BitVec 16)) (h : Nacked s missed l) (h1 : l ≠ []) (h2 : s.boot.lastTry = 0)
      (h3 : s.boot.rounds < s.get ⟨pgBoot, 0x07C, 0, 2⟩) :
      BootRow s (.nackList missed) (also (wordsAndEvent pgBoot [0x06C]) (parts [.boot, .log])) (fun t =>
        t.boot = { s.boot with missing := l, rounds := s.boot.rounds + 1, repairBegun := true } ∧
          t.get fRounds = s.boot.rounds + 1 ∧ (s.boot.repairBegun = false → EventSet s t pgBoot 3))
  /-- After the last round the core is reset and tries once more (R407). -/
  | lastReset (missed : List (CoreId × BitVec 16)) (id : CoreId) (m : BitVec 16) (h : Nacked s missed [(id, m)])
      (h2 : s.boot.lastTry = 0) (h3 : s.get ⟨pgBoot, 0x07C, 0, 2⟩ ≤ s.boot.rounds) :
      BootRow s (.nackList missed) (fun p => p = .boot ∨ p = .signals ∨ p = .core id.toNat ∨
          ∃ o, ((0x208 ≤ o ∧ o < 0x228) ∨ (0x800 ≤ o ∧ o < 0x908)) ∧ p = .reg (regKey (corePage id) o)) (fun t =>
        t.boot = { s.boot with missing := [(id, m)], lastTry := 1 } ∧
          t.core id = { Core.reset with cycles := (s.core id).cycles })
  /-- Then its physical core is fenced, and a spare takes the id (R407). -/
  | lastSpare (missed : List (CoreId × BitVec 16)) (id : CoreId) (m : BitVec 16) (i : Nat) (h : Nacked s missed [(id, m)])
      (h2 : s.boot.lastTry = 1) (h3 : s.bit fSpareEn = true) (h4 : spareFor s (id.toNat / 64) = some i) :
      BootRow s (.nackList missed) (fenceParts (id.toNat / 64)) (fun t =>
        t.get (substByte (id.toNat / 64) i) = id.toNat % 64 + 128 ∧ t.core id = s.core id ∧
          EventsSet s t (pgCl (id.toNat / 64)) 6 ∧ t.get fBcastFenced = (s.get fBcastFenced + 1) % 4096 ∧
          t.boot.missing = [(id, m)] ∧ t.boot.lastTry = 2)
  /-- … or the id is FENCED: without a spare, or when the spare fails its one attempt (R407). -/
  | lastFenced (missed : List (CoreId × BitVec 16)) (id : CoreId) (m : BitVec 16) (h : Nacked s missed [(id, m)])
      (h2 : (s.boot.lastTry = 1 ∧ (s.bit fSpareEn = false ∨ spareFor s (id.toNat / 64) = none)) ∨ 2 ≤ s.boot.lastTry) :
      BootRow s (.nackList missed) (fenceParts (id.toNat / 64)) (fun t =>
        t.core id = { s.core id with state := .fenced } ∧ EventSet s t (pgCl (id.toNat / 64)) 1 ∧
          t.get fBcastFenced = (s.get fBcastFenced + 1) % 4096 ∧ t.boot.missing = [])
  /-- CLEAR_MAP: no fast path until the next full path (R404). -/
  | clearMap (a : Access) (h : BootCmd s a 4) :
      BootRow s (.clearMap a) bootParts (fun t => t.bit fMapValid = false ∧ t.boot = { s.boot with map := none } ∧ mapGood t = false)

/-- A reset of `u` has begun: what it takes over, and what crosses its boundary (15 R411, R413). -/
abbrev ResetBegun (s t : State) (u : ResetUnit) : Prop :=
  t.boot.resets = s.boot.resets.filter (fun r => !unitCovers u r) ++ [u] ∧
  t.held = s.held.filter (fun h => !(h.len != 0 && unitHasPlace u h.addr)) ∧
  (∀ h ∈ s.held, h.len ≠ 0 → unitHasPlace u h.addr = true → Out.sourceReset h.key ∈ t.out) ∧
  ∀ l ∈ s.landing, ∀ a, l.st = .landing → l.target ≠ .absorbed → l.addr = some a → unitHasPlace u a = true →
    Out.absorbedNotice l.key ∈ t.out ∧ ∃ m, findLanding t l.key = some m ∧ m.target = .absorbed

/-- The host's write that asks for the reset of `u` (15 R397, R410). -/
def ResetAsked (s : State) (i : Instr) (u : ResetUnit) : Prop :=
  (∃ (cl : Fin 64) (a : Access), i = .coreReset cl a ∧ HostTakes s (pgCl cl.val) 0x050 a ∧ a.data.getLsbD 1 = false ∧
    a.data.getLsbD 0 = true ∧ bitsOf a.data.toNat 8 6 < 48 ∧ u = .core (BitVec.ofNat 12 (64 * cl.val + bitsOf a.data.toNat 8 6))) ∨
  (∃ (cl : Fin 64) (a : Access), i = .clusterReset cl a ∧ HostTakes s (pgCl cl.val) 0x050 a ∧ a.data.getLsbD 1 = true ∧
    u = .cluster cl) ∨
  ∃ (die : Fin 8) (a : Access), i = .preset die a ∧ HostTakes s (pgCd die.val) 0x040 a ∧ a.data.getLsbD 0 = true ∧
    partState s die.val ≠ 2 ∧ u = .partition die

/-- A reset that can act (15 R410, R412). -/
abbrev ResetActs (s : State) (u : ResetUnit) : Prop := resetDue s u = true

/-- Resets (15 R410 to R414; 18 R462, R463; 16 R417). -/
inductive ResetRow (s : State) : Instr → (Part → Prop) → (State → Prop) → Prop where
  /-- A core, cluster or partition reset begins, and takes over the smaller ones (R410, R411, R413). -/
  | begins (i : Instr) (u : ResetUnit) (h : ResetAsked s i u) (h1 : stageReady s = true)
      (h2 : ∀ r ∈ s.boot.resets, unitCovers r u = false) :
      ResetRow s i (parts [.boot, .held, .landings, .signals]) (fun t => ResetBegun s t u)
  /-- … or is part of a larger one under way (R413). -/
  | covered (i : Instr) (u r : ResetUnit) (h : ResetAsked s i u) (h1 : stageReady s = true) (h2 : r ∈ s.boot.resets)
      (h3 : unitCovers r u = true) : ResetRow s i (parts [.signals]) (fun t => t.boot = s.boot)
  /-- A partition in P2 ignores it (R413). -/
  | ignored (die : Fin 8) (a : Access) (h : HostTakes s (pgCd die.val) 0x040 a) (h1 : stageReady s = true)
      (h2 : partState s die.val = 2) : ResetRow s (.preset die a) (parts [.signals]) (fun t => t.boot = s.boot)
  /-- Before READY they are ignored, and the host sees ACCESS (R397). -/
  | early (i : Instr) (u : ResetUnit) (h : ResetAsked s i u) (h1 : stageReady s = false) :
      ResetRow s i accessParts (fun t => Refused s t ∧ t.boot = s.boot)
  /-- A core reset acts: the core is OFF, its port block and claims clear; a fenced core stays fenced (R412). -/
  | core (id : CoreId) (h : coreOk id = true) (h1 : ResetActs s (.core id)) :
      ResetRow s (.resetDone (.core id))
        (also (fun p => p = .core id.toNat ∨ p = .boot ∨ ∃ o, ((0x208 ≤ o ∧ o < 0x228) ∨ (0x800 ≤ o ∧ o < 0x908)) ∧
          p = .reg (regKey (corePage id) o)) (wordsAndEvent (pgCl (id.toNat / 64)) [])) (fun t =>
        ((s.core id).state = .fenced → t.core id = s.core id) ∧
          ((s.core id).state ≠ .fenced → t.core id = { Core.reset with cycles := (s.core id).cycles }) ∧
          t.rd64 (corePage id) 0x900 = 0 ∧ (∀ n, n < 64 → t.rd (corePage id) (0x800 + 4 * n) = 0) ∧
          t.boot = { s.boot with resets := s.boot.resets.filter (fun r => r != .core id) } ∧
          EventSet s t (pgCl (id.toNat / 64)) 0)
  /-- A cluster reset acts (R412). -/
  | cluster (c : Fin 64) (h1 : ResetActs s (.cluster c)) :
      ResetRow s (.resetDone (.cluster c)) (also (clusterParts c.val) (parts [.signals])) (fun t =>
        ClusterClear s t c.val ∧ t.boot = { s.boot with resets := s.boot.resets.filter (fun r => r != .cluster c) } ∧
          EventSet s t (pgCl c.val) 0)
  /-- A partition reset acts: its eight clusters, and the counters of the die's local port (R412). -/
  | partition (n : Fin 8) (h1 : ResetActs s (.partition n)) :
      ResetRow s (.resetDone (.partition n))
        (also (fun p => (∃ k, k < 8 ∧ clusterParts (8 * n.val + k) p) ∨ p = .blocks ∨ ∃ i, i < 7 ∧ p = .reg (regKey (pgPort (16 + n.val))
          (0x408 + 4 * i))) (wordsAndEvent (pgCd n.val) [])) (fun t =>
        (∀ k, k < 8 → ClusterClear s t (8 * n.val + k)) ∧
          (∀ i, i < 7 → t.rd (pgPort (16 + n.val)) (0x408 + 4 * i) = 0) ∧
          t.boot = { s.boot with resets := s.boot.resets.filter (fun r => r != .partition n) } ∧ EventSet s t (pgCd n.val) 0)
  /-- CHIP_RESET (R410, R412). -/
  | chip (a : Access) (h : BootCmd s a 3) : ResetRow s (.chipReset a) chipParts (fun t => ChipFresh s t .running ∧ t.boot.perst = s.boot.perst)
  /-- 48 V goes: nothing is retained but the flash and the pin (16 R417). -/
  | removed :
      ResetRow s .p48Removed (fun p => p ≠ .queue ∧ p ≠ .flash) (fun t =>
        t.regs = [] ∧ t.bar4 = [] ∧ t.log = Logbook.reset ∧ t.mem = [] ∧ t.blurred = [] ∧ t.cores = [] ∧ t.berths = [] ∧ t.tide = Tide.reset ∧
          t.boot = { Boot.reset with phase := .off, perst := s.boot.perst })
  /-- A Hot Reset, a link-down or a Function Level Reset of the physical function: functions, masks, mailboxes and IDE streams, and
  no more (R414; 18 R463). -/
  | link (i : Instr) (hi : i = .hotReset ∨ i = .pcieLinkDown ∨ i = .flr 0) (h : hostUp s = true) :
      ResetRow s i (fun p => (∃ k, p = .bar4 k) ∨ p = .masks ∨ p = .doe ∨ p = .signals ∨ ∃ b, b < 16 ∧ p = .reg (regKey (pgBerth b) 0x050))
        (fun t => t.bar4 = [] ∧ t.fmask = [] ∧ t.doe = [] ∧ t.doeBuf = [] ∧
          ∀ b, b < 16 → t.bit (fBstIde b) = false ∧ berthState t b = berthState s b)
  /-- A Function Level Reset of one virtual function (R414; 18 R463). -/
  | flr (f : Fin 17) (h : hostUp s = true) (h1 : f.val ≠ 0) :
      ResetRow s (.flr f) (fun p => (∃ o, o < 2 ^ 24 ∧ p = .bar4 (bar4Key f.val o)) ∨ p = .masks ∨ p = .doe ∨ p = .signals ∨
          ∃ b, b < 16 ∧ berthVf s b = f.val ∧ p = .reg (regKey (pgBerth b) 0x050)) (fun t =>
        (∀ o, o < 2 ^ 24 → t.rdBar4 f.val o = bar4Reset o) ∧ t.fmask = s.fmask.filter (fun g => !(g == f.val)) ∧ doeState t f.val = 0 ∧
          storeGet t.doeBuf f.val [] = [] ∧ (∀ g, g ≠ f.val → doeState t g = doeState s g) ∧
          ∀ b, b < 16 → berthVf s b = f.val → t.bit (fBstIde b) = false)

end Sys2Proof.Claims

/-- The steps of bring-up, the image, the path, self-test, broadcast (15 R395 to R409; readings: log 53). -/
def Obligations.BringUpResults : Prop := Rows BootRow

/-- Resets of every level (15 R410 to R414; 16 R417; 18 R463; readings: log 53). -/
def Obligations.ResetResults : Prop := Rows ResetRow

namespace Sys2Proof.Claims
open Sys2Proof.Machine

/-! Power and heat (16_power_and_heat). -/

/-- The host's write of a PCMD word, as one of its three commands. -/
def IsPcmd (i : Instr) (a : Access) : Prop := i = .module a ∨ i = .partition a ∨ i = .ceiling a

/-- A PCMD that nothing refuses (R419). -/
abbrev PowerTakes (s : State) (a : Access) : Prop := HostTakes s pgPower 0x040 a ∧ powerCause s a.data = 0

/-- A slot of the scheduler. -/
def slotOf (s : State) (i : Nat) : Option (W32 × W64) := storeGet s.powerSlots i none

/-- A command begins a transition: another state is in effect, and a partition or ceiling moves in M0 only (R419, R420). -/
abbrev Moves (s : State) (v : W32) : Prop := inEffect s v = false ∧ (pOp v = 1 ∨ s.get fMstate = 0)

/-- The values a command of this kind commands (R418, R422). -/
abbrev Commanded (s t : State) (v : W32) : Prop :=
  (∀ n, n < 8 → commanded t n = if pOp v = 2 ∧ pPart v = n then pTo v else commanded s n) ∧
  ∀ n, n < 8 → commandedMhz t n = if pOp v ≠ 2 ∧ pOp v = 3 ∧ pPart v = n then ceilMhz (pMhz v) else commandedMhz s n

/-- A transition is under way: BUSY, and the partitions that lose power drain (R420; 15 R411). -/
abbrev Transits (s t : State) (v : W32) : Prop :=
  t.transition = some v ∧ t.bit fPowerBusy = true ∧ Commanded s t v ∧
    ∀ n ∈ offParts s v, ∃ r ∈ t.boot.resets, ∃ m : Fin 8, m.val = n ∧ unitCovers r (.partition m) = true

/-- What the beginning of a transition changes. -/
abbrev transitParts : Part → Prop := also (words pgPower [0x00C]) (parts [.power, .boot, .held, .landings])

/-- EVT bits of a heat reading of a stack (R423, R424, R426). -/
def stackBits (s : State) (k : Nat) (t : Int) : W32 :=
  (if (hotSet s ≤ t ∧ s.bit (fHot k) = false) ∨ (t ≤ hotClr s ∧ s.bit (fHot k) = true) then 1 else 0) |||
  (if 95 ≤ t ∧ s.bit (fCrit k) = false then 2 else if t ≤ critClr s ∧ s.bit (fStop k) = true then 8 else 0)

/-- The trip has happened (R428): the lasers go dark and the chip is held by it. -/
abbrev Tripped (s t : State) : Prop :=
  t.boot = { s.boot with phase := .tripped } ∧ (t.rd pgTherm 0x010).getLsbD 5 = true ∧
    ∀ n, n < 16 → s.bit ⟨pgLnk n, 0x008, 0, 1⟩ = true → Out.lasers n false ∈ t.out

/-- What a trip changes. -/
abbrev tripParts : Part → Prop := also (also (wordsAndEvent pgTherm []) (eventParts pgLog)) (parts [.boot, .log])

/-- EVT bits of readings of the input (R429). -/
def vinBits (s : State) (mv : Nat) : W32 := if vinOut mv = true ∧ (s.rdN pgPower 0x084 = 0 ∨ vinOut (s.rdN pgPower 0x084) = false) then 16 else 0
def pinBits (s : State) (w : Nat) : W32 :=
  if s.get ⟨pgPower, 0x08C, 0, 16⟩ < w ∧ s.rdN pgPower 0x088 ≤ s.get ⟨pgPower, 0x08C, 0, 16⟩ then 8 else 0

/-- Power and heat (R417 to R429). -/
inductive PowerRow (s : State) : Instr → (Part → Prop) → (State → Prop) → Prop where
  /-- A refused PCMD: STATUS.CAUSE, the least that holds (R419). -/
  | refused (i : Instr) (a : Access) (hi : IsPcmd i a) (h : HostTakes s pgPower 0x040 a) (h1 : powerCause s a.data ≠ 0) :
      PowerRow s i (wordsAndEvent pgPower [0x00C]) (fun t =>
        t.get fPowerCause = powerCause s a.data ∧ EventSet s t pgPower 1 ∧ t.bit fPowerBusy = s.bit fPowerBusy)
  /-- A command to the state in effect completes at once (R420); so does a partition's or ceiling's in M1 or M2, which waits for M0
  (R419). -/
  | atOnce (i : Instr) (a : Access) (hi : IsPcmd i a) (h : PowerTakes s a) (h1 : pAt a.data = false) (h2 : pOp a.data ≠ 0)
      (h3 : inEffect s a.data = true ∨ (pOp a.data ≠ 1 ∧ s.get fMstate ≠ 0)) :
      PowerRow s i (also (wordsAndEvent pgPower []) (parts [.power])) (fun t =>
        EventSet s t pgPower 0 ∧ Commanded s t a.data ∧ t.transition = s.transition)
  /-- Any other begins a transition (R420). -/
  | transits (i : Instr) (a : Access) (hi : IsPcmd i a) (h : PowerTakes s a) (h1 : pAt a.data = false) (h2 : pOp a.data ≠ 0)
      (h3 : Moves s a.data) : PowerRow s i transitParts (fun t => Transits s t a.data)
  /-- OP 0 does nothing. -/
  | none (i : Instr) (a : Access) (hi : IsPcmd i a) (h : PowerTakes s a) (h2 : pOp a.data = 0) :
      PowerRow s i (parts [.signals]) (fun t => t.transition = s.transition ∧ t.powerSlots = s.powerSlots)
  /-- With AT the lowest free slot takes it with PAT (R421). -/
  | scheduled (i : Instr) (a : Access) (n : Nat) (hi : IsPcmd i a) (h : PowerTakes s a) (h1 : pAt a.data = true)
      (h2 : refusedR22 s (s.rd64 pgPower 0x044) = false) (h3 : n < 16) (h4 : slotOf s n = .none)
      (h5 : ∀ m, m < n → slotOf s m ≠ .none) :
      PowerRow s i (parts [.power, .signals]) (fun t =>
        slotOf t n = some (a.data, s.rd64 pgPower 0x044) ∧ (∀ m, m < 16 → m ≠ n → slotOf t m = slotOf s m) ∧ t.transition = s.transition ∧
          t.partCmd = s.partCmd)
  /-- … unless its tide is refused (01 R22). -/
  | unscheduled (i : Instr) (a : Access) (hi : IsPcmd i a) (h : PowerTakes s a) (h1 : pAt a.data = true)
      (h2 : refusedR22 s (s.rd64 pgPower 0x044) = true) :
      PowerRow s i (wordsAndEvent pgPower []) (fun t => EventSet s t pgPower 1 ∧ t.powerSlots = s.powerSlots)
  /-- A scheduled action begins its transition at its tide; past it, it is reported late (R421). -/
  | acts (slot : Fin 16) (v : W32) (at_ : W64) (h : slotOf s slot.val = some (v, at_)) (h1 : running s = true)
      (h2 : reachedNow s at_ = true) (h3 : s.transition = .none) (h4 : slotTurn s slot.val at_ = true) (h5 : Moves s v) :
      PowerRow s (.scheduledAction slot) (also transitParts (eventParts pgPower)) (fun t =>
        Transits s t v ∧ slotOf t slot.val = .none ∧
          if s.now = at_ then t.rd pgPower 0x010 = s.rd pgPower 0x010 else EventSet s t pgPower 2)
  /-- … or completes at once. -/
  | actsAtOnce (slot : Fin 16) (v : W32) (h : slotOf s slot.val = some (v, s.now)) (h1 : running s = true)
      (h2 : reachedNow s s.now = true) (h3 : s.transition = .none) (h4 : slotTurn s slot.val s.now = true)
      (h5 : inEffect s v = true ∨ (pOp v ≠ 1 ∧ s.get fMstate ≠ 0)) :
      PowerRow s (.scheduledAction slot) (also (wordsAndEvent pgPower []) (parts [.power])) (fun t =>
        EventSet s t pgPower 0 ∧ Commanded s t v ∧ slotOf t slot.val = .none ∧ t.transition = .none)
  /-- SLOT_CANCEL empties the slots it names (R421). -/
  | cancel (a : Access) (h : HostTakes s pgPower 0x060 a) :
      PowerRow s (.slotCancel a) (parts [.power, .signals]) (fun t =>
        (∀ i, i < 16 → slotOf t i = if a.data.getLsbD i then .none else slotOf s i) ∧ t.transition = s.transition ∧
          t.partCmd = s.partCmd)
  /-- A transition completes: the states and ceilings in effect; what lost power is reset, and what has it again reads zero (R417,
  R420, R422). -/
  | completes (v : W32) (h : s.transition = some v) (h1 : powerEnds s v = true) :
      PowerRow s .transitionDone
        (also (also (wordsAndEvent pgPower (0x00C :: (List.range 8).map (fun n => 0x064 + 4 * n))) (parts [.power, .boot, .blocks]))
          (fun p => (∃ n ∈ offParts s v, (∃ k, k < 8 ∧ clusterParts (8 * n + k) p) ∨ wordsAndEvent (pgCd n) [] p ∨
              ∃ i, i < 7 ∧ p = .reg (regKey (pgPort (16 + n)) (0x408 + 4 * i))) ∨
            ∃ n ∈ risingParts s v, ∃ k, k < 8 ∧ bytesAt (scratchAddr (8 * n + k) 0) scratchSize p)) (fun t =>
        t.transition = .none ∧ t.bit fPowerBusy = false ∧ EventSet s t pgPower 0 ∧
          (∀ n, n < 8 → partState t n = targetState s v n % 4) ∧ t.get fMstate = (if pOp v = 1 then pTo v else s.get fMstate) ∧
          (t.get fMstate = 0 → ∀ n, n < 8 → t.rdN pgPower (0x064 + 4 * n) = commandedMhz s n % 2 ^ 32) ∧
          (∀ n : Fin 8, n.val ∈ offParts s v → ResetUnit.partition n ∈ s.boot.resets →
            ∀ k, k < 8 → ClusterClear s t (8 * n.val + k)) ∧
          ∀ n ∈ risingParts s v, ∀ k, k < 8 → ∀ off, off < scratchSize → t.byte (scratchAddr (8 * n + k) off) = 0)
  /-- VIN shows the input; leaving its range is reported (R429). -/
  | input (mv : BitVec 16) (h : running s = true) :
      PowerRow s (.inputRange mv) (wordsAndEvent pgPower [0x084]) (fun t =>
        t.rdN pgPower 0x084 = mv.toNat ∧ EventsSet s t pgPower (vinBits s mv.toNat))
  /-- A power reading (R429). -/
  | reading (mv watts : BitVec 16) (joules : BitVec 64) (h : running s = true) :
      PowerRow s (.powerReading mv watts joules) (wordsAndEvent pgPower [0x084, 0x088, 0x090, 0x094]) (fun t =>
        t.rdN pgPower 0x084 = mv.toNat ∧ t.rdN pgPower 0x088 = watts.toNat ∧ t.rd64 pgPower 0x090 = s.rd64 pgPower 0x090 + joules ∧
          EventsSet s t pgPower (vinBits s mv.toNat ||| pinBits s watts.toNat))
  /-- A stack's reading: TEMP and STATUS, HOT and CRITICAL with their hysteresis, and a stopped stack that resumes (R423 to R426). -/
  | stack (k : Fin 32) (temp : BitVec 8) (h : running s = true) :
      PowerRow s (.tempReading (.stack k) temp)
        (also (also (wordsAndEvent pgTherm [0x050, 0x054, 0x058]) (words (pgHs k.val) [0x00C, 0x050, 0x054])) (parts [.power, .log]))
        (fun t =>
        t.rdN (pgHs k.val) 0x050 = temp.toNat ∧ t.bit ⟨pgHs k.val, 0x00C, 1, 1⟩ = decide (85 ≤ temp.toInt) ∧
          t.bit ⟨pgHs k.val, 0x00C, 2, 1⟩ = decide (95 ≤ temp.toInt) ∧
          t.bit (fHot k.val) = (if hotSet s ≤ temp.toInt ∧ s.bit (fHot k.val) = false then true
            else if temp.toInt ≤ hotClr s then false else s.bit (fHot k.val)) ∧
          t.bit (fCrit k.val) = (if 95 ≤ temp.toInt ∧ s.bit (fCrit k.val) = false then true
            else if temp.toInt ≤ critClr s then false else s.bit (fCrit k.val)) ∧
          t.bit (fStop k.val) = (if ¬ (95 ≤ temp.toInt ∧ s.bit (fCrit k.val) = false) ∧ temp.toInt ≤ critClr s then false
            else s.bit (fStop k.val)) ∧
          (95 ≤ temp.toInt → s.bit (fCrit k.val) = false →
            storeGet t.critAt k.val .none = some ((storeGet s.critAt k.val .none).getD (stopTide s))) ∧
          EventsSet s t pgTherm (stackBits s k.val temp.toInt))
  /-- A junction's reading below the trip: its word, TMAX, and JWARN on the way up (R427). -/
  | junction (unit : HeatUnit) (off : Nat) (temp : BitVec 8) (h : running s = true) (h1 : junctionReg unit = some off)
      (h2 : temp.toInt < 105) :
      PowerRow s (.tempReading unit temp) (wordsAndEvent pgTherm [off, 0x080]) (fun t =>
        t.rdN pgTherm off = temp.toNat ∧ readingOf t 0x080 = max (readingOf s 0x080) temp.toInt ∧
          EventsSet s t pgTherm (if (s.rdN pgTherm 0x04C : Int) ≤ temp.toInt ∧ readingOf s off < s.rdN pgTherm 0x04C then 16 else 0))
  /-- … and from 105 degrees on: the trip (R428). -/
  | trips (unit : HeatUnit) (off : Nat) (temp : BitVec 8) (h : running s = true) (h1 : junctionReg unit = some off)
      (h2 : 105 ≤ temp.toInt) :
      PowerRow s (.tempReading unit temp) (also tripParts (words pgTherm [off, 0x080])) (fun t =>
        Tripped s t ∧ t.rdN pgTherm off = temp.toNat)
  /-- The comparator trips without firmware, in any state with 48 V (R428). -/
  | thermtrip (unit : HeatUnit) (temp : BitVec 8) (h : (junctionReg unit).isSome = true) (h1 : 105 ≤ temp.toInt)
      (h2 : s.boot.phase ≠ .off) (h3 : s.boot.phase ≠ .tripped) :
      PowerRow s (.thermtrip unit temp) tripParts (fun t => Tripped s t)
  /-- Issue to a critical stack stops at its tide (R424). -/
  | stops (k : Fin 32) (h : stopDue s k.val = true) :
      PowerRow s (.stackStop k) (also (also (wordsAndEvent pgTherm [0x058]) (words (pgHs k.val) [0x054])) (parts [.power])) (fun t =>
        t.bit (fStop k.val) = true ∧ t.bit ⟨pgHs k.val, 0x054, 2, 1⟩ = true ∧ storeGet t.critAt k.val .none = .none ∧
          EventSet s t pgTherm 2)

end Sys2Proof.Claims

/-- Power states, scheduled actions, readings, heat and the trip (16 R417 to R429; readings: log 56). -/
def Obligations.PowerResults : Prop := Rows PowerRow

namespace Sys2Proof.Claims
open Sys2Proof.Machine

/-! Host accesses (17_register_pages). -/

/-- A host write of one BAR0 word, by the command that names the register or by the general one. -/
inductive HostWriteOf : Instr → Nat → Nat → Access → Prop where
  | register (addr : BitVec 26) (a : Access) : HostWriteOf (.registerWrite .bar0 addr a) (addr.toNat / 4096) (addr.toNat % 4096) a
  | pairLo (p : BitVec 14) (o : BitVec 12) (a : Access) : HostWriteOf (.pairLoWrite p o a) p.toNat o.toNat a
  | pairHi (p : BitVec 14) (o : BitVec 12) (a : Access) : HostWriteOf (.pairHiWrite p o a) p.toNat o.toNat a
  | evtClear (p : BitVec 14) (a : Access) : HostWriteOf (.evtClear p a) p.toNat 0x010 a
  | evtSet (p : BitVec 14) (a : Access) : HostWriteOf (.evtSet p a) p.toNat 0x018 a
  | tide (i : Instr) (a : Access) (h : i = .run a ∨ i = .root a) : HostWriteOf i pgTide 0x008 a
  | stand (i : Instr) (a : Access) (h : i = .schedule a ∨ i = .standResume a ∨ i = .cancel a) : HostWriteOf i pgTide 0x05C a
  | specEn (id : CoreId) (a : Access) (h : coreOk id = true) : HostWriteOf (.specEn id a) (corePage id) 0x200 a
  | qwin (p : Fin 24) (a : Access) : HostWriteOf (.qwin p a) (pgPort p.val) 0x400 a
  | core (i : Instr) (id : CoreId) (a : Access) (h : coreOk id = true) (h1 : i = .start id a ∨ i = .stop id a ∨ i = .resume id a) :
      HostWriteOf i (corePage id) 0x008 a
  | fn (i : Instr) (b : Fin 16) (a : Access) (h : i = .fnLoad b a ∨ i = .fnUnload b a ∨ i = .fnLoadStd b a) :
      HostWriteOf i (pgBerth b.val) 0x60C a
  | bollard (cl n : Fin 64) (a : Access) : HostWriteOf (.bollard cl n a) (pgCl cl.val) (0x800 + 4 * n.val) a
  | ferry (i : Instr) (f : Fin 8) (a : Access) (h : i = .arm f a ∨ i = .append f a ∨ i = .abort f a) :
      HostWriteOf i (pgFerry f.val) 0x06C a
  | group (i : Instr) (g : Fin 64) (a : Access) (h : i = .create g a ∨ i = .delete g a) :
      HostWriteOf i (pgGtab g.val) (gOff g.val 0x1C) a
  | tail (g : Fin 64) (a : Access) : HostWriteOf (.tail g a) (pgCq g.val) 0x050 a
  | link (i : Instr) (n : Fin 16) (a : Access) (h : i = .linkEn n a ∨ i = .retrain n a) : HostWriteOf i (pgLnk n.val) 0x008 a
  | apply (a : Access) : HostWriteOf (.apply a) pgTopo 0x04C a
  | self (a : Access) : HostWriteOf (.self a) pgTopo 0x040 a
  | tierEn (a : Access) : HostWriteOf (.tierEn a) pgTier 0x008 a
  | tqTail (b : Fin 16) (a : Access) : HostWriteOf (.tqTail b a) (pgBerth b.val) 0x668 a
  | hqTail (a : Access) : HostWriteOf (.hqTail a) pgTier 0x05C a
  | flashEn (a : Access) : HostWriteOf (.flashEn a) pgFlash 0x008 a
  | test (k : Fin 32) (a : Access) : HostWriteOf (.test k a) (pgHs k.val) 0x008 a
  | go (k c : Fin 32) (a : Access) : HostWriteOf (.go k c a) (pgHs k.val) (genOff c.val 0) a
  | index (i : Instr) (a : Access) (h : i = .indexCreate a ∨ i = .merge a ∨ i = .retire a ∨ i = .destroy a) :
      HostWriteOf i pgSketch 0x060 a
  | berth (i : Instr) (b : Fin 16) (a : Access) (h : IsBcmd i b a) : HostWriteOf i (pgBerth b.val) 0x04C a
  | boot (i : Instr) (a : Access) (h : i = .verify a ∨ i = .awaitRelay a ∨ i = .chipReset a ∨ i = .clearMap a) :
      HostWriteOf i pgBoot 0x080 a
  | reset (i : Instr) (cl : Fin 64) (a : Access) (h : i = .coreReset cl a ∨ i = .clusterReset cl a) :
      HostWriteOf i (pgCl cl.val) 0x050 a
  | preset (n : Fin 8) (a : Access) : HostWriteOf (.preset n a) (pgCd n.val) 0x040 a
  | power (i : Instr) (a : Access) (h : IsPcmd i a) : HostWriteOf i pgPower 0x040 a
  | slots (a : Access) : HostWriteOf (.slotCancel a) pgPower 0x060 a
  | release (a : Access) : HostWriteOf (.release a) pgLog 0x048 a
  | thresh (a : Access) : HostWriteOf (.thresh a) pgLog 0x084 a
  | dma (a : Access) : HostWriteOf (.dmaStart a) pgLog 0x080 a
  | debug (i : Instr) (a : Access) (h : i = .challenge a ∨ i = .respond a ∨ i = .close a) : HostWriteOf i pgDebug 0x04C a
  | step (a : Access) : HostWriteOf (.obsStep a) pgDebug 0x0C8 a

/-- A register is listed there, and a virtual function may reach its page: it is the berth's that owns it (17 R432, R434). -/
abbrev Reaches (s : State) (page off : Nat) (a : Access) (k : PageKind) (n : Nat) (r : RegRow) : Prop :=
  pageAt page = some (k, n) ∧ (∃ j hi, rowAt page off = some (r, j, hi)) ∧
    (a.func.val = 0 ∨ (k ≠ .ident ∧ vfBerth s a.func.val = some (pageOwner s page)))

/-- What happens to a host write before its register sees it (00 R15; 17 R432 to R436, R441; 14 R377). -/
inductive GateRow (s : State) : Instr → (Part → Prop) → (State → Prop) → Prop where
  /-- Before the link is up, and from a VF that a teardown has closed, nothing arrives. -/
  | unseen (i : Instr) (page off : Nat) (a : Access) (hi : HostWriteOf i page off a)
      (h : hostUp s = false ∨ vfClosed s a.func.val = true) : GateRow s i nothing (fun t => t = s)
  /-- A write of part of a word is refused (00 R15). -/
  | part (i : Instr) (page off : Nat) (a : Access) (hi : HostWriteOf i page off a) (h : hostUp s = true)
      (h1 : vfClosed s a.func.val = false) (h2 : a.be ≠ 15) : GateRow s i accessParts (fun t => Refused s t)
  /-- So is one to an offset where no register is (17 R432). -/
  | unlisted (i : Instr) (page off : Nat) (a : Access) (hi : HostWriteOf i page off a) (h : hostUp s = true)
      (h1 : vfClosed s a.func.val = false) (h2 : rowAt page off = none) : GateRow s i accessParts (fun t => Refused s t)
  /-- … or by a VF to a page that its berth does not own (17 R434). -/
  | foreign (i : Instr) (page off : Nat) (a : Access) (k : PageKind) (n : Nat) (hi : HostWriteOf i page off a) (h : hostUp s = true)
      (h1 : vfClosed s a.func.val = false) (h2 : a.func.val ≠ 0) (h3 : pageAt page = some (k, n)) (h4 : k ≠ .ident)
      (h5 : vfBerth s a.func.val ≠ some (pageOwner s page)) : GateRow s i accessParts (fun t => Refused s t)
  /-- … or to a cluster's or core's page of a die without power (17 R436). -/
  | noPower (i : Instr) (page off : Nat) (a : Access) (k : PageKind) (n : Nat) (r : RegRow) (hi : HostWriteOf i page off a)
      (h : hostUp s = true) (h1 : vfClosed s a.func.val = false) (h2 : Reaches s page off a k n r)
      (h3 : (k = .cl ∧ partState s (n / 8) = 2) ∨ (k = .core ∧ partState s (n / 512) = 2)) :
      GateRow s i accessParts (fun t => Refused s t)
  /-- … or to a lockable register of a locked page, unless it comes on its owner's IDE stream (17 R441; 14 R391). -/
  | locked (i : Instr) (page off : Nat) (a : Access) (k : PageKind) (n : Nat) (r : RegRow) (hi : HostWriteOf i page off a)
      (h : hostUp s = true) (h1 : vfClosed s a.func.val = false) (h2 : Reaches s page off a k n r) (h3 : r.kind = .rwl)
      (h4 : pageLocked s page = true) (h5 : onOwnersStream s page a = false) : GateRow s i accessParts (fun t => Refused s t)
  /-- A write of a read-only register is dropped (17 R433). -/
  | readOnly (i : Instr) (page off : Nat) (a : Access) (k : PageKind) (n : Nat) (r : RegRow) (hi : HostWriteOf i page off a)
      (h : hostUp s = true) (h1 : a.be = 15) (h2 : a.func.val = 0) (h3 : Reaches s page off a k n r) (h4 : r.kind = .ro)
      (h5 : k ≠ .cl) (h6 : k ≠ .core) : GateRow s i nothing (fun t => t = s)

/-! Register writes. -/

/-- A write that has passed the gate reaches a register of its page's block. -/
def Writes (s : State) (i : Instr) (page off : Nat) (a : Access) (k : PageKind) (n : Nat) (r : RegRow) (hi : Bool) : Prop :=
  HostWriteOf i page off a ∧ HostTakes s page off a ∧ pageAt page = some (k, n) ∧ (∃ j, rowAt page off = some (r, j, hi)) ∧ 0x040 ≤ off

/-- Only these commands are general ones. -/
def General (i : Instr) : Prop :=
  (∃ addr a, i = .registerWrite .bar0 addr a) ∨ (∃ p o a, i = .pairLoWrite p o a) ∨ ∃ p o a, i = .pairHiWrite p o a

/-- Registers of a block that do nothing but hold what is written. -/
def plainReg (k : PageKind) (off : Nat) : Bool :=
  match k with
  | .global | .ident | .sec | .slip => true
  | .boot => off != 0x078 && off != 0x080
  | .tide => off != 0x05C && off != 0x07C && off != 0x080
  | .power => off != 0x040 && off != 0x060
  | .therm => off != 0x040 && off != 0x044 && off != 0x04C
  | .debug => off != 0x04C && off != 0x0C0 && off != 0x0C8
  | .log => off != 0x048 && off != 0x080 && off != 0x084
  | .berth => off != 0x048 && off != 0x04C && (off < 0x100 || 0x200 ≤ off) && off != 0x60C && off != 0x660 && off != 0x668
  | .lnk => off != 0x044 && off != 0x400 && off != 0x404
  | .topo => off != 0x040 && off != 0x04C
  | .cq => off != 0x048 && off != 0x050
  | .gtab => false
  | .hs => off < 0x400 || off % 32 != 0
  | .flash => true
  | .ftl => false
  | .tier => off != 0x054 && off != 0x05C
  | .sketch => off != 0x060
  | .cl => off != 0x050 && (off < 0x800 || 0x900 ≤ off) && off != 0xA08
  | .cd => off != 0x040 && off != 0x400 && off != 0x404
  | .ferry => off != 0x06C
  | .core => off != 0x200 && off != 0x06C

/-- Registers that store the nearest value they allow. -/
inductive Clamped : Nat → Nat → Nat → Nat → Prop where
  | pace (v : Nat) : Clamped pgTherm 0x044 v (max 50 (min 100 (v % 128)))
  | jwarn (v : Nat) : Clamped pgTherm 0x04C v (max 85 (min 104 (v % 256)))
  | cqSize (g v : Nat) (h : g < 64) : Clamped (pgCq g) 0x048 v (max 4 (min 16 (v % 32)))
  | tierSize (v : Nat) : Clamped pgTier 0x054 v (max 4 (min 12 (v % 32)))
  | berthSize (b v : Nat) (h : b < 16) : Clamped (pgBerth b) 0x660 v (max 4 (min 12 (v % 32)))

/-- What FTL's registers store. -/
def ftlValue (off v : Nat) : Nat :=
  if off = 0x040 then max 10000 (min 1000000 v) else if off = 0x048 then max 1 (min 25 v)
  else if off = 0x044 ∨ off = 0x04C then max 1 v else v

/-- A pair whose words are the register file's own. -/
abbrev filePair (k : PageKind) (lo : Nat) : Prop := (k = .core → coreOwn lo = false) ∧ (k = .berth → lo < 0x100 ∨ 0x200 ≤ lo)

/-- The low word of a pair's write: the one held since LO was written, else the register's (00 R14). -/
def heldLo (s : State) (f : Fin 17) (k : PageKind) (n page lo : Nat) : W32 :=
  (storeGet s.pairWrite (pairKey f.val page lo) none).getD (if k = .core then coreWord s (BitVec.ofNat 12 n) lo else s.rd page lo)

/-- Writes of registers that are no commands of their own (00 R14; 17 R438 to R440). -/
inductive WriteRow (s : State) : Instr → (Part → Prop) → (State → Prop) → Prop where
  /-- A plain register holds what is written, in the bits it has. -/
  | plain (i : Instr) (page off : Nat) (a : Access) (k : PageKind) (n : Nat) (r : RegRow) (hi : Bool) (hg : General i)
      (h : Writes s i page off a k n r hi) (h1 : r.pair = false) (h2 : plainReg k off = true) (h3 : k = .core → coreOwn off = false)
      (h4 : stateGate s k n page off = .take) :
      WriteRow s i (words page [off]) (fun t => t.rd page off = a.data &&& BitVec.ofNat 32 r.mask)
  /-- Some take the nearest value they allow. -/
  | clamped (i : Instr) (page off v : Nat) (a : Access) (k : PageKind) (n : Nat) (r : RegRow) (hi : Bool) (hg : General i)
      (h : Writes s i page off a k n r hi) (h1 : Clamped page off a.data.toNat v) (h4 : stateGate s k n page off = .take) :
      WriteRow s i (words page [off]) (fun t => t.rdN page off = v)
  /-- GTAB's, while no page is locked whose owner they change (R441). -/
  | group (i : Instr) (page off : Nat) (a : Access) (n : Nat) (r : RegRow) (hi : Bool) (hg : General i)
      (h : Writes s i page off a .gtab n r hi) (h1 : r.pair = false) (h2 : (off - 0x040) % 0x40 ≠ 0x1C)
      (h3 : lockedPages s = []) (h4 : stateGate s .gtab n page off = .take) :
      WriteRow s i (words page [off]) (fun t => t.rd page off = a.data &&& BitVec.ofNat 32 r.mask)
  /-- FTL's rates and periods keep their limits (12, the FTL page). -/
  | flashLayer (i : Instr) (off : Nat) (a : Access) (n : Nat) (r : RegRow) (hi : Bool) (hg : General i)
      (h : Writes s i pgFtl off a .ftl n r hi) (h1 : r.pair = false) (h2 : r.mask < 2 ^ 32) :
      WriteRow s i (words pgFtl [off]) (fun t => t.rdN pgFtl off = ftlValue off (a.data.toNat &&& r.mask))
  /-- RBASE of an unbound region is a multiple of its tier's granule (14 R375). -/
  | regionBase (i : Instr) (b n : Nat) (a : Access) (r : RegRow) (hg : General i) (hb : b < 16) (hn : n < 16)
      (h : Writes s i (pgBerth b) (0x104 + 16 * n) a .berth b r true) (h1 : r.pair = true) (h2 : regionBound s b n = false) (w : Nat)
      (h3 : w = (a.data ++ heldLo s a.func .berth b (pgBerth b) (0x100 + 16 * n)).toNat) :
      WriteRow s i (also (parts [.pairs]) (words (pgBerth b) [0x100 + 16 * n, 0x104 + 16 * n])) (fun t =>
        t.rd64 (pgBerth b) (0x100 + 16 * n) = BitVec.ofNat 64 (w / granule (regionTier s b n) * granule (regionTier s b n)))
  /-- PC and the scalar registers of a core at rest (05 R122, the core page). -/
  | coreOwnPair (i : Instr) (page lo : Nat) (a : Access) (n : Nat) (r : RegRow) (hg : General i)
      (h : Writes s i page (lo + 4) a .core n r true) (h1 : r.pair = true) (h2 : coreOwn lo = true) (h3 : coreOwn (lo + 4) = true)
      (h4 : coreQuiet (s.core (BitVec.ofNat 12 n)) = true) (w : W64) (h5 : w = a.data ++ heldLo s a.func .core n page lo) :
      WriteRow s i (parts [.pairs, .core (n % 4096), .signals]) (fun t =>
        t.core (BitVec.ofNat 12 n) = (if lo = 0x050 then { s.core (BitVec.ofNat 12 n) with pc := w &&& ~~~7 }
          else (s.core (BitVec.ofNat 12 n)).setS ((lo - 0x100) / 8) w))
  /-- AFLAGS of a core at rest (05, the core page). -/
  | aflags (i : Instr) (page : Nat) (a : Access) (n : Nat) (r : RegRow) (hg : General i) (h : Writes s i page 0x06C a .core n r false)
      (h1 : r.pair = false) (h4 : coreQuiet (s.core (BitVec.ofNat 12 n)) = true) :
      WriteRow s i (parts [.core (n % 4096), .signals]) (fun t =>
        t.core (BitVec.ofNat 12 n) = { s.core (BitVec.ofNat 12 n) with aflags := a.data &&& 0xFF })
  /-- A register that takes writes only in some state refuses them in the others. -/
  | wrongState (i : Instr) (page off : Nat) (a : Access) (k : PageKind) (n : Nat) (r : RegRow) (hi : Bool) (hg : General i)
      (h : Writes s i page off a k n r hi) (h1 : stateGate s k n page off = .refuse) :
      WriteRow s i accessParts (fun t => Refused s t)
  /-- A write of LO is held (00 R14). -/
  | pairLo (i : Instr) (page off : Nat) (a : Access) (k : PageKind) (n : Nat) (r : RegRow) (hg : General i)
      (h : Writes s i page off a k n r false) (h1 : r.pair = true) (h4 : stateGate s k n page off = .take) :
      WriteRow s i (parts [.pairs, .signals]) (fun t =>
        storeGet t.pairWrite (pairKey a.func.val page off) none = some a.data ∧ t.rd64 page off = s.rd64 page off)
  /-- The write of HI takes effect with it, as one value (00 R14). -/
  | pairHi (i : Instr) (page lo : Nat) (a : Access) (k : PageKind) (n : Nat) (r : RegRow) (hg : General i)
      (h : Writes s i page (lo + 4) a k n r true) (h1 : r.pair = true) (h2 : filePair k lo)
      (h4 : stateGate s k n page (lo + 4) = .take) :
      WriteRow s i (also (parts [.pairs]) (words page [lo, lo + 4])) (fun t =>
        t.rd64 page lo = (a.data ++ heldLo s a.func k n page lo) &&& BitVec.ofNat 64 r.mask ∧
          storeGet t.pairWrite (pairKey a.func.val page lo) none = none)
  /-- EVT: the bits written 1 clear; ERRCODE clears with its own; EVT_TIDE with the last (R438 to R440). -/
  | clears (i : Instr) (page : Nat) (a : Access) (hi : HostWriteOf i page 0x010 a) (h : HostTakes s page 0x010 a) :
      WriteRow s i (words page [0x010, 0x01C, 0x020, 0x024]) (fun t =>
        t.rd page 0x010 = s.rd page 0x010 &&& ~~~a.data ∧
          t.rd page 0x01C = (if s.get ⟨page, 0x01C, 0, 16⟩ ≠ 0 ∧ a.data.getLsbD (s.get ⟨page, 0x01C, 16, 5⟩) = true then 0
            else s.rd page 0x01C) ∧
          t.rd64 page 0x020 = (if s.rd page 0x010 &&& ~~~a.data = 0 then 0 else s.rd64 page 0x020))
  /-- EVT_EN. -/
  | enables (i : Instr) (page : Nat) (a : Access) (k : PageKind) (n : Nat) (r : RegRow) (hi : Bool) (hw : HostWriteOf i page 0x014 a)
      (h : HostTakes s page 0x014 a) (h1 : pageAt page = some (k, n)) (h2 : ∃ j, rowAt page 0x014 = some (r, j, hi)) :
      WriteRow s i (words page [0x014]) (fun t => t.rd page 0x014 = a.data &&& BitVec.ofNat 32 r.mask)
  /-- EVT_SET under CONTROL or TEST forces the bits the page has (R438; 19 R475). -/
  | forces (i : Instr) (page : Nat) (a : Access) (k : PageKind) (n : Nat) (hi : HostWriteOf i page 0x018 a)
      (h : HostTakes s page 0x018 a) (h1 : pageAt page = some (k, n)) (h2 : a.func.val = 0) (h3 : 2 ≤ debugLevel s) :
      WriteRow s i (also (wordsAndEvent page []) (parts [.fresh])) (fun t =>
        t.rd page 0x010 = s.rd page 0x010 ||| (a.data &&& BitVec.ofNat 32 (pageEvtMask k)))
  /-- … and is refused otherwise (R438). -/
  | forceRefused (i : Instr) (page : Nat) (a : Access) (k : PageKind) (n : Nat) (hi : HostWriteOf i page 0x018 a)
      (h : HostTakes s page 0x018 a) (h1 : pageAt page = some (k, n)) (h2 : a.func.val ≠ 0 ∨ debugLevel s < 2) :
      WriteRow s i accessParts (fun t => Refused s t)

/-! Register reads. -/

/-- A host read of one BAR0 word. -/
inductive HostReadOf : Instr → Nat → Nat → Nat → Prop where
  | register (addr : BitVec 26) (f : Fin 17) : HostReadOf (.registerRead .bar0 addr f) f.val (addr.toNat / 4096) (addr.toNat % 4096)
  | pairLo (f : Fin 17) (p : BitVec 14) (o : BitVec 12) : HostReadOf (.pairLoRead f p o) f.val p.toNat o.toNat
  | pairHi (f : Fin 17) (p : BitVec 14) (o : BitVec 12) : HostReadOf (.pairHiRead f p o) f.val p.toNat o.toNat
  | rdWord (f : Fin 17) : HostReadOf (.rdWord f) f.val pgLog 0x070

/-- The read arrives, and a register is listed there that the function may read (17 R432 to R434). -/
def Reads (s : State) (i : Instr) (func page off : Nat) (r : RegRow) (hi : Bool) : Prop :=
  HostReadOf i func page off ∧ hostUp s = true ∧ vfClosed s func = false ∧
    (∃ k n, pageAt page = some (k, n) ∧ mayRead s func page k = true) ∧ ∃ j, rowAt page off = some (r, j, hi)

/-- The latch of a pair (00 R13). -/
def latchOf (t : State) (func page lo : Nat) : Option W32 := storeGet t.pairRead (pairKey func page lo) none

/-- Reads (00 R13; 17 R432 to R434; 19 R472). -/
inductive ReadRow (s : State) : Instr → (Part → Prop) → (State → Prop) → Prop where
  /-- A register answers what it holds or computes. -/
  | word (i : Instr) (func page off : Nat) (r : RegRow) (hi : Bool) (h : Reads s i func page off r hi) (h1 : r.kind ≠ .wo)
      (h2 : r.pair = false) (h3 : page ≠ pgLog ∨ off ≠ 0x070) :
      ReadRow s i (parts [.signals]) (fun t => Out.readData func (regWord s page off) ∈ t.out)
  /-- One that is only written reads zero. -/
  | writeOnly (i : Instr) (func page off : Nat) (r : RegRow) (hi : Bool) (h : Reads s i func page off r hi) (h1 : r.kind = .wo) :
      ReadRow s i (parts [.signals]) (fun t => Out.readData func 0 ∈ t.out)
  /-- LO of a pair answers and latches HI (00 R13). -/
  | pairLo (i : Instr) (func page off : Nat) (r : RegRow) (h : Reads s i func page off r false) (h1 : r.kind ≠ .wo)
      (h2 : r.pair = true) :
      ReadRow s i (parts [.pairs, .signals]) (fun t =>
        Out.readData func (regWord s page off) ∈ t.out ∧ latchOf t func page off = some (regWord s page (off + 4)))
  /-- HI answers the latch and consumes it … (00 R13). -/
  | pairHi (i : Instr) (func page lo : Nat) (w : W32) (r : RegRow) (h : Reads s i func page (lo + 4) r true) (h1 : r.kind ≠ .wo)
      (h2 : r.pair = true) (h3 : latchOf s func page lo = some w) :
      ReadRow s i (parts [.pairs, .signals]) (fun t => Out.readData func w ∈ t.out ∧ latchOf t func page lo = none)
  /-- … or, without one, what the register holds (00 R13). -/
  | pairHiFree (i : Instr) (func page lo : Nat) (r : RegRow) (h : Reads s i func page (lo + 4) r true) (h1 : r.kind ≠ .wo)
      (h2 : r.pair = true) (h3 : latchOf s func page lo = none) :
      ReadRow s i (parts [.signals]) (fun t => Out.readData func (regWord s page (lo + 4)) ∈ t.out)
  /-- RD_WORD[7] ends an entry: RD_SEQ moves on (19 R472). -/
  | entry (i : Instr) (func : Nat) (r : RegRow) (hi : Bool) (h : Reads s i func pgLog 0x070 r hi) (h1 : r.kind ≠ .wo)
      (h2 : r.pair = false) :
      ReadRow s i (words pgLog [0x050]) (fun t =>
        Out.readData func (logWord s (s.rd pgLog 0x050) 7) ∈ t.out ∧ t.rd pgLog 0x050 = s.rd pgLog 0x050 + 1)
  /-- A read that a rule refuses answers zero (17 R432, R434). -/
  | refused (i : Instr) (func page off : Nat) (hi : HostReadOf i func page off) (h : hostUp s = true) (h1 : vfClosed s func = false)
      (h2 : rowAt page off = none ∨ ∃ k n, pageAt page = some (k, n) ∧ mayRead s func page k = false) :
      ReadRow s i accessParts (fun t => Refused s t ∧ Out.readData func 0 ∈ t.out)

/-! BAR4 (R444 to R448). -/

/-- An access of a BAR4 word by a function that has one. -/
abbrev HasBar4 (s : State) (f : Fin 17) : Prop :=
  hostUp s = true ∧ vfClosed s f.val = false ∧ (f.val = 0 ∨ (vfBerth s f.val).isSome = true)

/-- A vector is masked: the function, or its own entry. -/
abbrev Masked (s : State) (func vec : Nat) : Prop :=
  s.fmask.contains func = true ∨ (s.rdBar4 func (0x10000 + 16 * vec + 12)).getLsbD 0 = true

/-- BAR4: the window's base, routing, pending words (R444 to R446, R448). -/
inductive Bar4Row (s : State) : Instr → (Part → Prop) → (State → Prop) → Prop where
  | read (addr : BitVec 26) (f : Fin 17) (w : W32) (h : HasBar4 s f) (h1 : bar4Word s f.val (addr.toNat % 2 ^ 24) = some w)
      (h2 : addr.toNat % 2 ^ 24 ≠ 0) (h3 : addr.toNat % 2 ^ 24 ≠ 4) :
      Bar4Row s (.registerRead .bar4 addr f) (parts [.signals]) (fun t => Out.readData f.val w ∈ t.out)
  | readRefused (addr : BitVec 26) (f : Fin 17) (h : hostUp s = true) (h0 : vfClosed s f.val = false)
      (h1 : bar4Word s f.val (addr.toNat % 2 ^ 24) = none ∨ (f.val ≠ 0 ∧ vfBerth s f.val = none)) :
      Bar4Row s (.registerRead .bar4 addr f) accessParts (fun t => Refused s t ∧ Out.readData f.val 0 ∈ t.out)
  /-- The vector of each class (R446). -/
  | route (addr : BitVec 26) (a : Access) (h : HasBar4 s a.func) (h1 : a.be = 15) (h2 : 0x100 ≤ addr.toNat % 2 ^ 24)
      (h3 : addr.toNat % 2 ^ 24 < 0x200) (h4 : addr.toNat % 4 = 0) :
      Bar4Row s (.registerWrite .bar4 addr a) (parts [.bar4 (bar4Key a.func.val (addr.toNat % 2 ^ 24)), .signals]) (fun t =>
        t.rdBar4 a.func.val (addr.toNat % 2 ^ 24) = a.data)
  /-- WIN_BASE takes effect with its HI word, at a multiple of 2 MiB (00 R14; R443). -/
  | winBase (addr : BitVec 26) (a : Access) (lo : W32) (h : HasBar4 s a.func) (h1 : a.be = 15) (h2 : addr.toNat % 2 ^ 24 = 4)
      (h3 : lo = (storeGet s.pairWrite (pairKey (32 + a.func.val) 0 0) none).getD (s.rdBar4 a.func.val 0)) :
      Bar4Row s (.registerWrite .bar4 addr a) (parts [.pairs, .bar4 (bar4Key a.func.val 0), .bar4 (bar4Key a.func.val 4), .signals]) (fun t =>
        winBase t a.func.val = (lo &&& 0xFFE00000).toNat + 2 ^ 32 * (a.data.toNat % 2 ^ 16) ∧
          storeGet t.pairWrite (pairKey (32 + a.func.val) 0 0) none = none)
  | winBaseLo (addr : BitVec 26) (a : Access) (h : HasBar4 s a.func) (h1 : a.be = 15) (h2 : addr.toNat % 2 ^ 24 = 0) :
      Bar4Row s (.registerWrite .bar4 addr a) (parts [.pairs, .signals]) (fun t =>
        storeGet t.pairWrite (pairKey (32 + a.func.val) 0 0) none = some a.data ∧ winBase t a.func.val = winBase s a.func.val)

/-- Vectors sent again and unmasked (17 R447). -/
inductive SignalRow (s : State) : Instr → (Part → Prop) → (State → Prop) → Prop where
  /-- REARM sends the vector of every class it names that is pending again (R447). -/
  | rearm (k : Fin 8) (a : Access) (h : HasBar4 s a.func) (h1 : a.be = 15) :
      SignalRow s (.rearm k a) (parts [.signals]) (fun t => ∀ j : Fin 32, a.data.getLsbD j.val = true →
        s.pend.contains (a.func.val * 256 + 32 * k.val + j.val) = true →
        (Masked s a.func.val (classVector s a.func.val (32 * k.val + j.val)) →
          (a.func.val, classVector s a.func.val (32 * k.val + j.val)) ∈ t.pba) ∧
        (¬ Masked s a.func.val (classVector s a.func.val (32 * k.val + j.val)) →
          Out.msix a.func.val (classVector s a.func.val (32 * k.val + j.val)) ∈ t.out))
  /-- A vector is unmasked: what it has pending goes out (R447). -/
  | unmask (f : Fin 17) (v : BitVec 8) (h : hostUp s = true) :
      SignalRow s (.msixUnmask f (some v)) (parts [.bar4 (bar4Key f.val (0x10000 + 16 * v.toNat + 12)), .signals]) (fun t =>
        (t.rdBar4 f.val (0x10000 + 16 * v.toNat + 12)).getLsbD 0 = false ∧
          (s.pba.contains (f.val, v.toNat) = true → s.fmask.contains f.val = false →
            Out.msix f.val v.toNat ∈ t.out))
  /-- … or the function. -/
  | unmaskAll (f : Fin 17) (h : hostUp s = true) :
      SignalRow s (.msixUnmask f none) (parts [.masks, .signals]) (fun t =>
        t.fmask.contains f.val = false ∧ ∀ v, (f.val, v) ∈ s.pba →
          (s.rdBar4 f.val (0x10000 + 16 * v + 12)).getLsbD 0 = false → Out.msix f.val v ∈ t.out)

/-! BAR2 (R443). -/

/-- A request of a function that has a window, to a place of the chip, after READY. -/
abbrev WindowTo (s : State) (f : Fin 17) (off : BitVec 36) (op : WinOp) (a : Nat) : Prop :=
  HasBar4 s f ∧ stageReady s = true ∧ a = winBase s f.val + off.toNat ∧ onePlace a (winLen op) = true

/-- Reads of memory by the window: the bytes answered, counted; units that turn out uncorrectable. -/
abbrev windowReads (p : Part) : Prop := p = .fresh ∨ p = .signals ∨ ∃ k, k < 32 ∧ wordsAndEvent (pgHs k) [0x044, 0x058, 0x05C] p

/-- A byte as the window answers it: a free value where it is undefined (log 57). -/
abbrev Answered (s : State) (a n : Nat) (see : Nat → Byte) (bs : List Byte) : Prop :=
  bs.length = n ∧ ∀ j, j < n → bs.getD j 0 = if openByte s (a + j) then (Config.freeValue (s.fresh + j)).setWidth 8 else see (a + j)

/-- The window (R443; 14 R390, R391; 15 R398). -/
inductive WindowRow (s : State) : Instr → (Part → Prop) → (State → Prop) → Prop where
  /-- Plaintext for a host of its own memory, and for a berth over its IDE stream. -/
  | plain (f : Fin 17) (ide : Bool) (off : BitVec 36) (n a : Nat) (h : WindowTo s f off (.read n) a)
      (h1 : winView s f.val ide a n false = .plain) (h2 : winStopped s a n = false) (h3 : placeResetting s a = false) :
      WindowRow s (.windowAccess f ide off (.read n)) windowReads (fun t =>
        (∃ bs, Answered s a n s.byte bs ∧ Out.readBytes f.val bs ∈ t.out) ∧ t.fresh = s.fresh + n)
  /-- Ciphertext of a berth's HBM otherwise. -/
  | cipher (f : Fin 17) (ide : Bool) (off : BitVec 36) (n a b : Nat) (h : WindowTo s f off (.read n) a)
      (h1 : winView s f.val ide a n false = .cipher) (h2 : winStopped s a n = false) (h3 : placeResetting s a = false)
      (h4 : ∀ j, j < n → berthAt s (a + j) = some b) :
      WindowRow s (.windowAccess f ide off (.read n)) windowReads (fun t =>
        (∃ bs, Answered s a n (cipherByte s b) bs ∧ Out.readBytes f.val bs ∈ t.out) ∧ t.fresh = s.fresh + n)
  /-- Zeros, and ACCESS, where neither may be seen. -/
  | hidden (f : Fin 17) (ide : Bool) (off : BitVec 36) (n a : Nat) (h : WindowTo s f off (.read n) a)
      (h1 : winView s f.val ide a n false = .hidden) :
      WindowRow s (.windowAccess f ide off (.read n)) accessParts (fun t =>
        Refused s t ∧ Out.readBytes f.val (List.replicate n 0) ∈ t.out)
  /-- Completer Abort of a stopped place. -/
  | stopped (f : Fin 17) (ide : Bool) (off : BitVec 36) (n a : Nat) (h : WindowTo s f off (.read n) a)
      (h1 : winView s f.val ide a n false ≠ .hidden) (h2 : winStopped s a n = true) :
      WindowRow s (.windowAccess f ide off (.read n)) accessParts (fun t => Refused s t ∧ Out.completerAbort f.val ∈ t.out)
  /-- … and of a place in reset. -/
  | resetting (f : Fin 17) (ide : Bool) (off : BitVec 36) (n a : Nat) (h : WindowTo s f off (.read n) a)
      (h1 : winView s f.val ide a n false ≠ .hidden) (h2 : winStopped s a n = false) (h3 : placeResetting s a = true) :
      WindowRow s (.windowAccess f ide off (.read n)) (parts [.signals]) (fun t => Out.completerAbort f.val ∈ t.out)
  /-- A write where the function sees plaintext. -/
  | writes (f : Fin 17) (ide : Bool) (off : BitVec 36) (bs : List Byte) (a : Nat) (h : WindowTo s f off (.write bs) a)
      (h1 : winView s f.val ide a bs.length true = .plain) (h2 : frozen s a bs.length = false)
      (h3 : winStopped s a bs.length = false) (h4 : placeResetting s a = false) (h5 : heldBlocks s a bs.length = false)
      (h6 : s.poison = []) :
      WindowRow s (.windowAccess f ide off (.write bs)) (also (parts [.signals]) (writesAt a bs.length)) (fun t =>
        ∀ j, j < bs.length → t.byte (a + j) = bs.getD j 0)
  /-- … which is dropped elsewhere, in a frozen range and at a stopped place. -/
  | writeRefused (f : Fin 17) (ide : Bool) (off : BitVec 36) (bs : List Byte) (a : Nat) (h : WindowTo s f off (.write bs) a)
      (h1 : winView s f.val ide a bs.length true ≠ .plain ∨ frozen s a bs.length = true ∨ winStopped s a bs.length = true) :
      WindowRow s (.windowAccess f ide off (.write bs)) accessParts (fun t => Refused s t)
  /-- The image area in AWAIT_IMAGE (15 R398). -/
  | imageRead (f : Fin 17) (ide : Bool) (off : BitVec 36) (n : Nat) (h : HasBar4 s f) (h1 : s.get fStage = 2)
      (h2 : off.toNat + n ≤ 130 * 2 ^ 20) :
      WindowRow s (.windowAccess f ide off (.read n)) (parts [.signals]) (fun t =>
        Out.readBytes f.val (s.imageBytes off.toNat n) ∈ t.out)
  | imageWrite (f : Fin 17) (ide : Bool) (off : BitVec 36) (bs : List Byte) (h : HasBar4 s f) (h1 : s.get fStage = 2)
      (h2 : off.toNat + bs.length ≤ 130 * 2 ^ 20) :
      WindowRow s (.windowAccess f ide off (.write bs)) (parts [.signals, .image]) (fun t =>
        ∀ j, j < bs.length → t.imageByte (off.toNat + j) = bs.getD j 0)
  /-- Nothing else before READY (15 R398). -/
  | early (f : Fin 17) (ide : Bool) (off : BitVec 36) (op : WinOp) (h : HasBar4 s f) (h1 : stageReady s = false)
      (h2 : s.get fStage ≠ 2 ∨ 130 * 2 ^ 20 < off.toNat + winLen op) :
      WindowRow s (.windowAccess f ide off op) accessParts (fun t => Refused s t)

end Sys2Proof.Claims

/-- What a host write meets before its register (00 R15; 17 R432 to R436, R441; readings: log 57). -/
def Obligations.HostWriteGate : Prop := Rows GateRow

/-- A general write of a register that has a command of its own is that command (17, the rows of BAR0). -/
def Obligations.RegisterWriteIsItsCommand : Prop :=
  ∀ (i : Instr) (page off : Nat) (a : Access) (addr : BitVec 26) (s : State),
    HostWriteOf i page off a → addr.toNat = page * 4096 + off → off < 4096 →
    exec (.registerWrite .bar0 addr a) s = exec i s

/-- Register writes, pairs, events cleared, enabled and forced (00 R14; 17 R438 to R440; readings: logs 30 and 57). -/
def Obligations.RegisterWriteResults : Prop := Rows WriteRow

/-- Register reads (00 R13; 17 R432 to R434; 19 R472; readings: log 57). -/
def Obligations.RegisterReadResults : Prop := Rows ReadRow

/-- BAR4 (17 R443 to R446; readings: log 57). -/
def Obligations.Bar4Results : Prop := Rows Bar4Row

/-- The window BAR2 (17 R443; 14 R390, R391; 15 R398; readings: log 57). -/
def Obligations.WindowResults : Prop := Rows WindowRow

namespace Sys2Proof.Claims
open Sys2Proof.Machine

/-! The logbook (19_debug_and_log). -/

/-- The condition COUNT ≥ THRESH has become true: THRESH in EVT (R481). -/
def threshBits (s t : State) : W32 := if overThresh s = false ∧ overThresh t = true then 1 else 0

/-- The port takes an entry whose source has lost none (R469, R470). -/
abbrev Storing (s : State) (e : LogEntry) : Prop :=
  running s = true ∧ nextLogged s.log.queue = some e ∧ (storeGet s.log.lost e.source.toNat (0, 0)).1 = 0

/-- What the port changes. -/
abbrev portParts : Part → Prop := also (wordsAndEvent pgLog []) (parts [.log])

/-- The logbook's port, draining and copying (19 R467 to R474, R481). -/
inductive LogRow (s : State) : Instr → (Part → Prop) → (State → Prop) → Prop where
  /-- An entry goes into a free slot under the next sequence number (R471). -/
  | stores (e : LogEntry) (h : Storing s e) (h1 : logCount s < 32768) :
      LogRow s .logStore portParts (fun t =>
        t.log.next = s.log.next + 1 ∧ t.log.oldest = s.log.oldest ∧ logAt t s.log.next = some e ∧
          (∀ q, q ≠ s.log.next → logAt t q = logAt s q) ∧ t.log.queue = popSource e.source s.log.queue ∧
          EventsSet s t pgLog (threshBits s t))
  /-- A source that has lost entries has its GAP entry placed behind what it still queues (R468, R470). -/
  | gap (e : LogEntry) (n : Nat) (at_ : W64) (h : running s = true) (h1 : nextLogged s.log.queue = some e)
      (h2 : storeGet s.log.lost e.source.toNat (0, 0) = (n, at_)) (h3 : n ≠ 0) (h4 : logCount s < 32768) :
      LogRow s .logStore portParts (fun t =>
        t.log.queue = popSource e.source s.log.queue ++ [gapEntry e.source n at_] ∧ logAt t s.log.next = some e ∧
          (storeGet t.log.lost e.source.toNat (0, 0)).1 = 0)
  /-- Full, the oldest entry is overwritten (R471). -/
  | wraps (e : LogEntry) (h : Storing s e) (h1 : logCount s = 32768) (h2 : s.bit fLogStop = false) :
      LogRow s .logStore portParts (fun t =>
        t.log.next = s.log.next + 1 ∧ t.log.oldest = s.log.oldest + 1 ∧ logAt t s.log.next = some e ∧ logAt t s.log.oldest = none ∧
          (t.rd pgLog 0x010).getLsbD 2 = true)
  /-- … or, with STOP, the entry is discarded and counted (R471). -/
  | discards (e : LogEntry) (h : Storing s e) (h1 : logCount s = 32768) (h2 : s.bit fLogStop = true) :
      LogRow s .logStore portParts (fun t =>
        t.log.next = s.log.next ∧ t.log.oldest = s.log.oldest ∧ t.log.slots = s.log.slots ∧
          t.log.discarded.toNat = min (s.log.discarded.toNat + 1) (2 ^ 32 - 1) ∧ EventSet s t pgLog 1)
  /-- RELEASE frees the entries before its sequence number (R472). -/
  | release (a : Access) (h : HostTakes s pgLog 0x048 a) (h1 : (a.data - s.log.oldest).toNat ≤ logCount s) :
      LogRow s (.release a) (parts [.log, .signals]) (fun t =>
        t.log.oldest = a.data ∧ t.log.next = s.log.next ∧ t.log.slots = s.log.slots)
  /-- … and refuses one outside the retained ones (R472). -/
  | releaseRefused (a : Access) (h : HostTakes s pgLog 0x048 a) (h1 : logCount s < (a.data - s.log.oldest).toNat) :
      LogRow s (.release a) accessParts (fun t => Refused s t ∧ t.log.oldest = s.log.oldest)
  /-- THRESH (R481). -/
  | thresh (a : Access) (h : HostTakes s pgLog 0x084 a) :
      LogRow s (.thresh a) (wordsAndEvent pgLog [0x084]) (fun t =>
        t.rdN pgLog 0x084 = a.data.toNat % 2 ^ 16 ∧ EventsSet s t pgLog (threshBits s t))
  /-- DMA_CMD begins a copy of DMA_COUNT entries from OLDEST (R473). -/
  | dmaStart (a : Access) (h : HostTakes s pgLog 0x080 a) (h1 : a.data.getLsbD 0 = true) (h2 : s.log.dma = none) (hm : s.busMaster = true)
      (h3 : 1 ≤ s.get ⟨pgLog, 0x07C, 0, 16⟩) (h4 : s.get ⟨pgLog, 0x07C, 0, 16⟩ ≤ 32768) :
      LogRow s (.dmaStart a) (parts [.log, .signals]) (fun t =>
        t.log = { s.log with dma := some (s.log.oldest, s.get ⟨pgLog, 0x07C, 0, 16⟩, a.data.getLsbD 1) })
  /-- … and is refused while one runs, while Bus Master Enable is clear, or without a count (R473). -/
  | dmaRefused (a : Access) (h : HostTakes s pgLog 0x080 a) (h1 : a.data.getLsbD 0 = true)
      (h2 : s.log.dma ≠ none ∨ s.busMaster = false ∨ s.get ⟨pgLog, 0x07C, 0, 16⟩ = 0 ∨ 32768 < s.get ⟨pgLog, 0x07C, 0, 16⟩) :
      LogRow s (.dmaStart a) accessParts (fun t => Refused s t ∧ t.log.dma = s.log.dma)
  /-- The copy is in host memory; with RELEASE_AFTER its entries are released (R473). -/
  | dmaDone (q : W32) (n : Nat) (after : Bool) (h : s.log.dma = some (q, n, after)) (h1 : running s = true)
      (h2 : after = true → (q + BitVec.ofNat 32 n - s.log.oldest).toNat ≤ logCount s) :
      LogRow s .dmaDone portParts (fun t =>
        t.log.dma = none ∧ EventSet s t pgLog 3 ∧ t.log.oldest = (if after then q + BitVec.ofNat 32 n else s.log.oldest) ∧
          Out.dma (s.rd64 pgLog 0x074) ((List.range n).map (fun i => logBytes s (q + BitVec.ofNat 32 i))).flatten ∈ t.out)

/-! Field access. -/

/-- The host's write of DEBUG.CMD, as one of its three commands, with a code. -/
def DebugCmd (s : State) (i : Instr) (a : Access) (code : Nat) : Prop :=
  (i = .challenge a ∨ i = .respond a ∨ i = .close a) ∧ HostTakes s pgDebug 0x04C a ∧ a.data.toNat = code

/-- The words of the challenge block. -/
abbrev blockWords : Part → Prop := words pgDebug ((List.range 24).map (fun i => 0x050 + 4 * i))

/-- Field access: challenge, response, closing and STEP (19 R475 to R479). -/
inductive DebugRow (s : State) : Instr → (Part → Prop) → (State → Prop) → Prop where
  /-- CHALLENGE makes a challenge of a level and an expiry (R476). -/
  | challenge (i : Instr) (a : Access) (h : DebugCmd s i a 1) (h1 : challengeCause s = 0) :
      DebugRow s i (also (also blockWords (words pgDebug [0x00C])) (parts [.keys])) (fun t =>
        t.bit fChalValid = true ∧ t.rdN pgDebug 0x050 = 0x47444B48 ∧ chalLevel t = s.get ⟨pgDebug, 0x040, 0, 2⟩ ∧
          chalExpiry t = (if s.tideValid then s.rd64 pgDebug 0x044 else BitVec.allOnes 64) ∧ debugLevel t = debugLevel s)
  /-- … or is refused with the least cause that holds (R476). -/
  | challengeRefused (i : Instr) (a : Access) (h : DebugCmd s i a 1) (h1 : challengeCause s ≠ 0) :
      DebugRow s i (wordsAndEvent pgDebug [0x00C]) (fun t =>
        t.get fDebugCause = challengeCause s ∧ EventSet s t pgDebug 2 ∧ t.bit fChalValid = s.bit fChalValid)
  /-- RESPOND begins the verification (R477). -/
  | respond (i : Instr) (a : Access) (h : DebugCmd s i a 2) (h1 : s.responding = false) (h2 : s.bit fChalValid = true) :
      DebugRow s i (also (words pgDebug [0x00C]) (parts [.debug])) (fun t => t.responding = true ∧ t.bit fDebugBusy = true)
  /-- … of a challenge there is: cause 6 (R477). -/
  | respondRefused (i : Instr) (a : Access) (h : DebugCmd s i a 2) (h1 : s.responding = false) (h2 : s.bit fChalValid = false) :
      DebugRow s i (wordsAndEvent pgDebug [0x00C]) (fun t => t.get fDebugCause = 6 ∧ EventSet s t pgDebug 2)
  /-- Verification opens access at the challenge's level until its expiry (R477, R478). -/
  | opened (h : running s = true) (h1 : s.responding = true) (h2 : respondCause s = 0) :
      DebugRow s .opened (also (wordsAndEvent pgDebug [0x00C, 0x0B0, 0x0B4]) (parts [.debug])) (fun t =>
        debugLevel t = chalLevel s % 4 ∧ t.rd64 pgDebug 0x0B0 = chalExpiry s ∧ t.bit fChalValid = false ∧ t.responding = false ∧
          t.bit fDebugBusy = false ∧ t.bit fNoExpiry = decide (chalExpiry s = BitVec.allOnes 64) ∧ EventSet s t pgDebug 0)
  /-- … or is refused; the challenge is used up (R477). -/
  | openRefused (h : running s = true) (h1 : s.responding = true) (h2 : respondCause s ≠ 0) :
      DebugRow s .opened (also (wordsAndEvent pgDebug [0x00C]) (parts [.debug])) (fun t =>
        debugLevel t = debugLevel s ∧ t.get fDebugCause = respondCause s ∧ t.bit fChalValid = false ∧ t.responding = false ∧
          EventSet s t pgDebug 2)
  /-- CLOSE, and the expiry tide, close open access (R478). -/
  | closes (i : Instr) (hi : (∃ a, DebugCmd s i a 4) ∨ (i = .debugExpiry ∧ expiryDue s = true)) (h : debugLevel s ≠ 0) :
      DebugRow s i debugCloses (fun t =>
        debugLevel t = 0 ∧ t.rd pgDebug 0x0C0 = 0 ∧ t.tapIr = 1 ∧ t.responding = false ∧ EventSet s t pgDebug 1)
  /-- CLOSE without open access does nothing. -/
  | closeIdle (i : Instr) (a : Access) (h : DebugCmd s i a 4) (h1 : debugLevel s = 0) :
      DebugRow s i (parts [.signals]) (fun t => debugLevel t = 0)
  /-- A word that is no command: cause 1 (R476). -/
  | badCommand (i : Instr) (a : Access) (n : Nat) (h : DebugCmd s i a n) (h1 : n = 3 ∨ 4 < n) :
      DebugRow s i (wordsAndEvent pgDebug [0x00C]) (fun t => t.get fDebugCause = 1 ∧ EventSet s t pgDebug 2)
  /-- STEP issues the instruction at a stopped core's PC, and the core is STOPPED again (R479): shown for the register-to-register
  scalar instructions. -/
  | step (i : Instr) (id : CoreId) (f : RegF) (op : W64 → W64 → W64) (a : Access) (w : W64) (rest : List (Nat × W64))
      (h : HostTakes s pgDebug 0x0C8 a) (h1 : 2 ≤ debugLevel s) (h2 : stepTakes s = true) (h3 : BitVec.ofNat 12 (obsIndex s) = id)
      (h4 : (s.core id).fetchq = ((s.core id).pc.toNat, w) :: rest) (h5 : decodeCoreWord id w = some i) (h6 : AluRow i id f op)
      (h7 : ScalarWord f) (h8 : Ready (updCore s id (fun c => { c with state := .running })) id) (h9 : (s.core id).hold = []) :
      DebugRow s (.obsStep a) (also (coreParts id) (eventParts (corePage id))) (fun t =>
        t.core id = (retired (s.core id)).setS f.d.toNat (op ((s.core id).s f.a.toNat) ((s.core id).s f.b.toNat)) ∧
          t.rd64 (corePage id) 0x080 = s.rd64 (corePage id) 0x080 + 1 ∧ EventSet s t (corePage id) 1)
  /-- Below CONTROL, or of anything but a stopped core of the host's, it is refused (R479). -/
  | stepRefused (a : Access) (h : HostTakes s pgDebug 0x0C8 a) (h1 : debugLevel s < 2 ∨ stepTakes s = false) :
      DebugRow s (.obsStep a) accessParts (fun t => Refused s t)

/-! Pins. -/

/-- TDO has shifted out a register of `bits` cells, under an instruction. -/
abbrev Shifted (t : State) (ir bits value : Nat) : Prop := t.tapIr = BitVec.ofNat 5 ir ∧ Out.tdo bits value ∈ t.out

/-- The test port (18 R465; 19 R480). -/
inductive TapRow (s : State) : Instr → (Part → Prop) → (State → Prop) → Prop where
  /-- Test-Logic-Reset selects IDCODE. -/
  | reset (h : running s = true ∨ s.boot.phase = .scanning) : TapRow s .tapReset (parts [.tap]) (fun t => t.tapIr = 1 ∧ t.cells = s.cells)
  | idcode (h : running s = true) : TapRow s .idcode (parts [.tap, .signals]) (fun t => Shifted t 1 32 0x10F0158B ∧ t.cells = s.cells)
  | bypass (h : running s = true) : TapRow s .bypass (parts [.tap, .signals]) (fun t => Shifted t 0x1F 1 0 ∧ t.cells = s.cells)
  /-- SAMPLE/PRELOAD shows the pins and loads the cells. -/
  | sample (pins shiftIn : BitVec 10) (h : running s = true) (h1 : debugLevel s = 3) :
      TapRow s (.samplePreload pins shiftIn) (parts [.tap, .signals]) (fun t => Shifted t 2 10 pins.toNat ∧ t.cells = shiftIn)
  /-- EXTEST drives the pins from the cells. -/
  | extest (shiftIn : BitVec 10) (h : running s = true) (h1 : debugLevel s = 3) :
      TapRow s (.extest shiftIn) (parts [.tap, .signals]) (fun t =>
        Shifted t 3 10 s.cells.toNat ∧ t.cells = shiftIn ∧ Out.pin shiftIn ∈ t.out)
  /-- SCAN stops every clock until chip reset. -/
  | scan (h : running s = true) (h1 : debugLevel s = 3) :
      TapRow s .scan (parts [.tap, .boot, .signals]) (fun t => t.boot = { s.boot with phase := .scanning } ∧ t.tapIr = 8)
  /-- MBIST answers with the die's result and leaves its scratchpads undefined. -/
  | mbist (die : Fin 8) (h : running s = true) (h1 : debugLevel s = 3) :
      TapRow s (.mbist die)
        (also (parts [.tap, .signals, .fresh]) (fun p => ∃ c, c < 8 ∧ bytesAt (scratchAddr (8 * die.val + c) 0) scratchSize p)) (fun t =>
        Shifted t 9 32 (Config.mbistResult die.val).toNat ∧ t.cells = s.cells)
  /-- Without TEST they act as BYPASS (18 R465). -/
  | closed (i : Instr) (ir : Nat) (h : running s = true) (h1 : debugLevel s ≠ 3)
      (hi : (∃ p q, i = .samplePreload p q ∧ ir = 2) ∨ (∃ q, i = .extest q ∧ ir = 3) ∨ (i = .scan ∧ ir = 8) ∨ ∃ d, i = .mbist d ∧ ir = 9) :
      TapRow s i (parts [.tap, .signals]) (fun t => Shifted t ir 1 0 ∧ t.cells = s.cells)

/-- The I3C target is addressed (18 R464). -/
abbrev Addressed (s : State) : Prop := s.boot.phase ≠ .off ∧ s.i3cDyn.isSome = true

/-- The I3C target (18 R458, R464). -/
inductive I3cRow (s : State) : Instr → (Part → Prop) → (State → Prop) → Prop where
  /-- ENTDAA: identity, then the address. -/
  | entdaa (addr : BitVec 7) (h : s.boot.phase ≠ .off) (h1 : s.i3cDyn = none) :
      I3cRow s (.entdaa addr) (parts [.i3c, .signals]) (fun t =>
        t.i3cDyn = some addr ∧ t.i3cOff = s.i3cOff ∧ t.i3cIbi = s.i3cIbi ∧ Out.i3c (pidBytes ++ [Config.i3cBcr, Config.i3cDcr]) ∈ t.out)
  /-- SETDASA at the static address 0x50 and the straps. -/
  | setdasa (static dynamic : BitVec 7) (h : s.boot.phase ≠ .off) (h1 : s.i3cDyn = none)
      (h2 : static.toNat = 0x50 + s.boot.i3cStrap.toNat) :
      I3cRow s (.setdasa static dynamic) (parts [.i3c]) (fun t =>
        t.i3cDyn = some dynamic ∧ t.i3cOff = s.i3cOff ∧ t.i3cIbi = s.i3cIbi)
  | rstdaa (h : s.boot.phase ≠ .off) :
      I3cRow s .rstdaa (parts [.i3c]) (fun t => t.i3cDyn = none ∧ t.i3cOff = s.i3cOff ∧ t.i3cIbi = s.i3cIbi)
  /-- The codes that read. -/
  | answers (i : Instr) (bytes : List Byte) (h : Addressed s)
      (hi : (i = .getpid ∧ bytes = pidBytes) ∨ (i = .getbcr ∧ bytes = [Config.i3cBcr]) ∨ (i = .getdcr ∧ bytes = [Config.i3cDcr]) ∨
        (i = .getstatus ∧ bytes = (bytesLE 2 Config.i3cStatus.toNat).reverse)) :
      I3cRow s i (parts [.signals]) (fun t => Out.i3c bytes ∈ t.out ∧ t.pend = s.pend)
  /-- ENEC and DISEC: the in-band interrupt. -/
  | ibi (i : Instr) (on : Bool) (h : s.boot.phase ≠ .off) (hi : (i = .enec ∧ on = true) ∨ (i = .disec ∧ on = false)) :
      I3cRow s i (parts [.i3c]) (fun t => t.i3cIbi = on ∧ t.i3cDyn = s.i3cDyn ∧ t.i3cOff = s.i3cOff)
  /-- A write sets the offset; a read answers from it upward, and wraps after 0x0F. -/
  | write (b : Byte) (rest : List Byte) (h : s.boot.phase ≠ .off) :
      I3cRow s (.i3cWrite (b :: rest)) (parts [.i3c]) (fun t =>
        t.i3cOff.toNat = b.toNat % 16 ∧ t.i3cDyn = s.i3cDyn ∧ t.i3cIbi = s.i3cIbi)
  | read (n : Nat) (h : s.boot.phase ≠ .off) :
      I3cRow s (.i3cRead n) (parts [.signals]) (fun t =>
        Out.i3c ((List.range n).map (fun i => i3cByte s ((s.i3cOff.toNat + i) % 16))) ∈ t.out ∧ t.i3cOff = s.i3cOff)

end Sys2Proof.Claims

/-- The logbook stores, wraps, stops, is drained and copied (19 R467 to R474, R481; readings: log 55). -/
def Obligations.LogbookResults : Prop := Rows LogRow

/-- Field access (19 R475 to R479; readings: log 55). -/
def Obligations.DebugResults : Prop := Rows DebugRow

/-- The test port (18 R465; 19 R480; readings: log 58). -/
def Sys2Proof.Claims.claimTestPortResults : Prop := Rows TapRow

/-- The I3C target (18 R458, R464; readings: logs 23 and 58). -/
def Sys2Proof.Claims.claimI3cResults : Prop := Rows I3cRow

/-- The test port and the I3C target (18 R464 to R466; 19 R480; readings: logs 23 and 58). -/
def Obligations.PinResults : Prop := claimTestPortResults ∧ claimI3cResults

namespace Sys2Proof.Claims
open Sys2Proof.Machine

/-- Of every function and class, PEND is 1 exactly for those that the pages call pending (17 R447). -/
abbrev PendingTracks (s : State) : Prop := s.pend = pendingClasses s

/-- The fields of a header fit their places (02 R54). -/
abbrev HeaderFits (h : ConsHdr) : Prop :=
  h.kind < 16 ∧ h.stream < 2 ^ 16 ∧ h.len < 2 ^ 16 ∧ h.attempt < 256 ∧ h.berth < 256 ∧ h.src < 2 ^ 16 ∧ h.dst < 2 ^ 16
    ∧ h.srcPlace < 256 ∧ h.dstPlace < 256 ∧ h.addr < 2 ^ 64

/-- The fields of a beacon fit theirs (01 R32). -/
abbrev BeaconFits (b : BeaconMsg) : Prop := b.sender < 2 ^ 16 ∧ b.root < 2 ^ 16 ∧ b.hops < 256 ∧ b.state < 8

/-- The formats whose elements are converted to and from values (03 R86, R87): codes 0 to 11 and XF40. -/
abbrev Convertible (code : Nat) : Prop := code < 12 ∨ code = cXf40

/-- A function's vector sends nothing: the function or the vector is masked (17 R447). -/
abbrev VectorMasked (s : State) (f v : Nat) : Prop :=
  s.fmask.contains f = true ∨ (s.rdBar4 f (0x10000 + 16 * v + 12)).getLsbD 0 = true

end Sys2Proof.Claims

/-- A step runs the command at the front of the queue, with the queue's rest. -/
def Obligations.StepRunsTheFrontCommand : Prop :=
  ∀ (s : State) (c : Instr) (rest : List Instr), s.pending = c :: rest → step s = exec c { s with pending := rest }

/-- What reset leaves, where the spec gives it: the page tables' reset values, an invalid tide, bring-up at STAGE 0, an empty logbook, no
event, no interrupt. -/
def Obligations.ResetValues : Prop :=
  State.reset.pending = [] ∧ State.reset.get fStage = 0
  ∧ State.reset.tideValid = false ∧ State.reset.standing = false ∧ State.reset.now = 0
  ∧ (∀ page, State.reset.rd page 0x010 = 0 ∧ State.reset.rd page 0x014 = 0 ∧ State.reset.rd64 page 0x020 = 0)
  ∧ State.reset.rdN pgTide 0x07C = 64 ∧ State.reset.rdN pgTide 0x080 = 256
  ∧ State.reset.rdN pgBoot 0x07C = 3 ∧ State.reset.rdN pgPower 0x08C = 9500
  ∧ State.reset.rdN pgTherm 0x040 = 0x005A5550 ∧ State.reset.rdN pgTherm 0x044 = 75 ∧ State.reset.rdN pgTherm 0x04C = 100
  ∧ (∀ n, n < 16 → State.reset.rdN (pgLnk n) 0x040 = 16 ∧ State.reset.rdN (pgLnk n) 0x044 = 4)
  ∧ (∀ g, g < 64 → State.reset.rdN (pgGtab g) (gOff g 0x08) = 0x16220000 ∧ State.reset.rdN (pgGtab g) (gOff g 0x18) = 0x80000
      ∧ State.reset.rdN (pgGtab g) (gOff g 0x30) = 0xFF ∧ State.reset.rdN (pgCq g) 0x048 = 4
      ∧ State.reset.rdN (pgCq g) 0x060 = 0x7FFFFFFF)
  ∧ (∀ cl, cl < 64 → State.reset.rdN (pgCl cl) 0xA08 = 0x00010004)
  ∧ (∀ f c, c < 256 → classVector State.reset f c = c)
  ∧ State.reset.log.next = 0 ∧ State.reset.log.oldest = 0 ∧ State.reset.log.discarded = 0
  ∧ State.reset.pend = [] ∧ State.reset.alert = false

/-- Both invariants hold after reset. -/
def Obligations.ResetHoldsTheInvariants : Prop := Memory.wf State.reset = true ∧ PendingTracks State.reset

/-- Every step keeps the memory in its canonical form. -/
def Obligations.StepKeepsMemoryCanonical : Prop :=
  ∀ s t : State, Memory.wf s = true → step s = .next t → Memory.wf t = true

/-- After every step, PEND is as the pages' events have it. -/
def Obligations.StepKeepsPending : Prop :=
  ∀ s t : State, PendingTracks s → step s = .next t → PendingTracks t

/-- What PEND says, and when a message goes (17 R446, R447). A class pends for a function just while a page of that class that
signals to it has EVT AND EVT_EN not zero. Where a class rises, the message goes on its ROUTE vector, or the vector's PBA bit is set
while it is masked. Where none rises and ALERT_N stays, nothing is sent; several causes on one vector send one message. REARM sends a
pending class again, and an unmasked vector what it has pending. -/
def Obligations.InterruptsFollowEvents : Prop :=
  (∀ (s : State) (f c : Nat), storeWf regDefault s.regs = true → c < 256 →
    (f * 256 + c ∈ pendingClasses s ↔
      ∃ page, s.rd page 0x010 &&& s.rd page 0x014 ≠ 0 ∧ pageFunc s page = f ∧ pageClass page = c))
  ∧ (∀ (s : State) (f c : Nat), c < 256 → f * 256 + c ∈ pendingClasses s → f * 256 + c ∉ s.pend →
      (VectorMasked s f (classVector s f c) → (f, classVector s f c) ∈ (signal s).pba)
      ∧ (¬ VectorMasked s f (classVector s f c) → Out.msix f (classVector s f c) ∈ (signal s).out))
  ∧ (∀ s : State, (∀ k ∈ pendingClasses s, k ∈ s.pend) → alertN s = s.alert →
      (signal s).out = s.out ∧ (signal s).pba = s.pba)
  ∧ (∀ (s : State) (f v : Nat), (signal s).out.count (.msix f v) ≤ s.out.count (.msix f v) + 1)
  ∧ Rows SignalRow

/-- A core's instruction word and the instruction it spells determine each other: no bit of an encoding is dropped, and no two
words spell one instruction (06 R158 to R180). -/
def Obligations.CoreWordsRoundTrip : Prop :=
  (∀ (i : Instr) (id : CoreId) (w : W64), encodeCoreWord i = some (id, w) → decodeCoreWord id w = some i)
  ∧ (∀ (i : Instr) (id : CoreId) (w : W64), decodeCoreWord id w = some i → encodeCoreWord i = some (id, w))

/-- A few words written out from 06's layouts, and three that are reserved (06 R158 to R161, R167, R171, R174, R177). -/
def Obligations.CoreWordsRead : Prop :=
  ∀ id : CoreId,
    decodeCoreWord id 0x0030420000000000 = some (.add id ⟨3, 1, 2, 0, 0, 0, 0, 0, 0, 0, 0⟩)
    ∧ decodeCoreWord id 0x04510000FFFFFFFF = some (.addi id ⟨5, 4, 0, 0, 0xFFFFFFFF⟩)
    ∧ decodeCoreWord id 0x43F0420C0FEC0000 = some (.vfma id ⟨63, 1, 2, 3, 15, 2, 1, 1, 0, 0, 0⟩)
    ∧ decodeCoreWord id 0x64518001320F0020 = some (.vst id ⟨5, 6, 0, 0, 0, 2, 1, 1, 0, 4, 15, 32⟩)
    ∧ decodeCoreWord id 0x808D4483E3C00FC0 = some (.mma id ⟨2, 3, 5, 1, 2, 0, 0, 31, 15, 63, 0⟩)
    ∧ decodeCoreWord id 0xA0824A0044000000 = some (.sfn id 17 ⟨8, 9, 10, 0, 0, 0, 0, 0, 0, 0, 0⟩)
    ∧ decodeCoreWord id 0xC010831056380000 = some (.move id ⟨1, 2, 3, 4, 5, 1, 2, 3, 1, 0⟩)
    ∧ decodeCoreWord id 0x0C00000000000000 = none
    ∧ decodeCoreWord id 0x0000000038000000 = none
    ∧ decodeCoreWord id 0xA000000008000000 = none

/-- Consignment headers and beacons keep every field through their bytes (02 R54; 01 R32). -/
def Obligations.HeadersRoundTrip : Prop :=
  (∀ h : ConsHdr, HeaderFits h → (hdrBytes h).length = 48 ∧ hdrOf (hdrBytes h) = h)
  ∧ (∀ b : BeaconMsg, BeaconFits b → (beaconBytes b).length = 40 ∧ beaconOf (beaconBytes b) = some b)

/-- What a format holds converts to it exactly, in every mode and with no flag (03 R97, R98; XF40 reads a subnormal as zero, R88). -/
def Obligations.HeldValuesConvertExactly : Prop :=
  ∀ (code bits rm : Nat) (sat : Bool), Convertible code → bits < 2 ^ fmtBits code → elemValue code bits ≠ Machine.Num.nan →
    (code = cXf40 → bitsOf bits 31 8 = 0 → bitsOf bits 0 31 = 0) →
    narrowTo code rm sat (elemValue code bits) = ⟨bits, 0⟩
end

