-- ==== Sys2Proof/Laws/Store.lean ====
section
/-! SUPPORT. Sparse data: reading what has been written, reading elsewhere, and the canonical form that every write keeps. -/

namespace Sys2Proof.Machine

variable {α : Type}

theorem storeGet_storeSet_same (m : Store α) (k : Nat) (v d : α) : storeGet (storeSet m k v) k d = v := by
  induction m with
  | nil => simp [storeSet, storeGet]
  | cons x r ih =>
    obtain ⟨j, w⟩ := x
    unfold storeSet
    split
    · simp [storeGet]
    · split
      · simp [storeGet]
      · rename_i h1 h2
        simp [storeGet, ih, Ne.symm h2]

theorem storeGet_storeSet_other (m : Store α) {k j : Nat} (v d : α) (h : j ≠ k) :
    storeGet (storeSet m k v) j d = storeGet m j d := by
  induction m with
  | nil => simp [storeSet, storeGet, Ne.symm h]
  | cons x r ih =>
    obtain ⟨i, w⟩ := x
    unfold storeSet
    split
    · simp [storeGet, Ne.symm h]
    · split
      · rename_i h1 h2
        subst h2
        simp [storeGet, Ne.symm h]
      · simp [storeGet, ih]

theorem storeGet_filter_drop (m : Store α) (k : Nat) (d : α) : storeGet (m.filter (fun x => x.1 != k)) k d = d := by
  induction m with
  | nil => rfl
  | cons x r ih =>
    obtain ⟨i, w⟩ := x
    by_cases h : i = k <;> simp [h, storeGet, ih]

/-- Keeping the keys that satisfy `p` leaves what they read as. -/
theorem storeGet_filter_of_pos (m : Store α) (p : Nat → Bool) {k : Nat} (d : α) (h : p k = true) :
    storeGet (m.filter (fun x => p x.1)) k d = storeGet m k d := by
  induction m with
  | nil => rfl
  | cons x r ih =>
    obtain ⟨i, w⟩ := x
    by_cases hi : i = k
    · subst hi
      simp [h, storeGet]
    · by_cases hp : p i = true <;> simp [hp, storeGet, hi, ih]

/-- A key that is dropped reads as unlisted. -/
theorem storeGet_filter_of_neg (m : Store α) (p : Nat → Bool) {k : Nat} (d : α) (h : p k = false) :
    storeGet (m.filter (fun x => p x.1)) k d = d := by
  induction m with
  | nil => rfl
  | cons x r ih =>
    obtain ⟨i, w⟩ := x
    by_cases hi : i = k
    · subst hi
      simp [h, ih]
    · by_cases hp : p i = true <;> simp [hp, storeGet, hi, ih]

theorem storeGet_storeKeep_pos (m : Store α) (p : Nat → Bool) {k : Nat} (d : α) (h : p k = true) :
    storeGet (storeKeep p m) k d = storeGet m k d := storeGet_filter_of_pos m p d h

theorem storeGet_storeKeep_neg (m : Store α) (p : Nat → Bool) {k : Nat} (d : α) (h : p k = false) :
    storeGet (storeKeep p m) k d = d := storeGet_filter_of_neg m p d h

/-- Read after write at the same key. -/
@[simp] theorem storeGet_storePut_same [DecidableEq α] (m : Store α) (k : Nat) (v d : α) :
    storeGet (storePut m k v d) k d = v := by
  unfold storePut
  split
  · rename_i h
    rw [h]
    exact storeGet_filter_drop m k d
  · exact storeGet_storeSet_same m k v d

/-- A write leaves every other key as it was. -/
theorem storeGet_storePut_other [DecidableEq α] (m : Store α) {k j : Nat} (v d e : α) (h : j ≠ k) :
    storeGet (storePut m k v d) j e = storeGet m j e := by
  unfold storePut
  split
  · exact storeGet_filter_of_pos m (fun i => i != k) e (by simpa using h)
  · exact storeGet_storeSet_other m v e h

/-! The canonical form. -/

variable [DecidableEq α]

theorem storeAbove_mono (dflt : Nat → α) {lo hi : Nat} (h : lo ≤ hi) (m : Store α) (w : storeAbove dflt hi m = true) :
    storeAbove dflt lo m = true := by
  cases m with
  | nil => rfl
  | cons x r =>
    obtain ⟨j, v⟩ := x
    simp only [storeAbove, Bool.and_eq_true, decide_eq_true_eq] at w ⊢
    exact ⟨⟨by omega, w.1.2⟩, w.2⟩

theorem storeAbove_wf (dflt : Nat → α) {lo : Nat} {m : Store α} (w : storeAbove dflt lo m = true) : storeWf dflt m = true := by
  cases m with
  | nil => rfl
  | cons x r =>
    obtain ⟨j, v⟩ := x
    simp only [storeAbove, Bool.and_eq_true, decide_eq_true_eq] at w
    simp only [storeWf, Bool.and_eq_true, decide_eq_true_eq]
    exact ⟨w.1.2, w.2⟩

theorem storeAbove_filter (dflt : Nat → α) (p : Nat → Bool) {lo : Nat} {m : Store α} (w : storeAbove dflt lo m = true) :
    storeAbove dflt lo (m.filter (fun x => p x.1)) = true := by
  induction m generalizing lo with
  | nil => rfl
  | cons x r ih =>
    obtain ⟨j, v⟩ := x
    simp only [storeAbove, Bool.and_eq_true, decide_eq_true_eq] at w
    by_cases hp : p j = true
    · simp only [List.filter_cons, hp, if_true, storeAbove, Bool.and_eq_true, decide_eq_true_eq]
      exact ⟨w.1, ih w.2⟩
    · simp only [List.filter_cons, hp]
      exact storeAbove_mono dflt (by omega) _ (ih w.2)

theorem storeWf_filter (dflt : Nat → α) (p : Nat → Bool) {m : Store α} (w : storeWf dflt m = true) :
    storeWf dflt (m.filter (fun x => p x.1)) = true := by
  cases m with
  | nil => rfl
  | cons x r =>
    obtain ⟨j, v⟩ := x
    simp only [storeWf, Bool.and_eq_true, decide_eq_true_eq] at w
    by_cases hp : p j = true
    · simp only [List.filter_cons, hp, if_true, storeWf, Bool.and_eq_true, decide_eq_true_eq]
      exact ⟨w.1, storeAbove_filter dflt p w.2⟩
    · simp only [List.filter_cons, hp]
      exact storeAbove_wf dflt (storeAbove_filter dflt p w.2)

theorem storeAbove_storeSet (dflt : Nat → α) {lo k : Nat} {v : α} {m : Store α} (hk : lo < k) (hv : v ≠ dflt k)
    (w : storeAbove dflt lo m = true) : storeAbove dflt lo (storeSet m k v) = true := by
  induction m generalizing lo with
  | nil => simp [storeSet, storeAbove, hk, hv]
  | cons x r ih =>
    obtain ⟨j, u⟩ := x
    simp only [storeAbove, Bool.and_eq_true, decide_eq_true_eq] at w
    unfold storeSet
    split
    · rename_i h
      simp [storeAbove, hk, hv, h, w.1.2, w.2]
    · split
      · rename_i h
        subst h
        simp [storeAbove, hk, hv, w.2]
      · simp only [storeAbove, Bool.and_eq_true, decide_eq_true_eq]
        exact ⟨w.1, ih (by omega) w.2⟩

theorem storeWf_storeSet (dflt : Nat → α) {k : Nat} {v : α} {m : Store α} (hv : v ≠ dflt k) (w : storeWf dflt m = true) :
    storeWf dflt (storeSet m k v) = true := by
  cases m with
  | nil => simp [storeSet, storeWf, storeAbove, hv]
  | cons x r =>
    obtain ⟨j, u⟩ := x
    simp only [storeWf, Bool.and_eq_true, decide_eq_true_eq] at w
    unfold storeSet
    split
    · rename_i h
      simp [storeWf, storeAbove, hv, h, w.1, w.2]
    · split
      · rename_i h
        subst h
        simp [storeWf, hv, w.2]
      · simp only [storeWf, Bool.and_eq_true, decide_eq_true_eq]
        exact ⟨w.1, storeAbove_storeSet dflt (by omega) hv w.2⟩

/-- A write keeps the canonical form. -/
theorem storeWf_storePut (dflt : Nat → α) {m : Store α} (k : Nat) (v : α) (w : storeWf dflt m = true) :
    storeWf dflt (storePut m k v (dflt k)) = true := by
  unfold storePut
  split
  · exact storeWf_filter dflt (fun i => i != k) w
  · rename_i h
    exact storeWf_storeSet dflt h w

end Sys2Proof.Machine
end

