-- ==== Sys2Proof/Laws/Frame.lean ====
section
/-! SUPPORT. What each shared operation can change: one lemma per operation, in a form that `simp` chains backwards through a
command's effect. -/

namespace Sys2Proof.Machine

theorem Same.refl (p : Part) (s : State) : Same p s s := by cases p <;> simp [Same]

theorem Same.symm {p : Part} {s t : State} (h : Same p s t) : Same p t s := by
  cases p <;> simp_all [Same]

theorem Same.trans {p : Part} {s t u : State} (h : Same p s t) (k : Same p t u) : Same p s u := by
  cases p <;> simp_all [Same]

@[simp] theorem Changes.refl (s : State) (may : Part → Prop) : Changes s s may := fun p _ => Same.refl p s

theorem Changes.trans {s t u : State} {may : Part → Prop} (h : Changes s t may) (k : Changes t u may) : Changes s u may :=
  fun p hp => (h p hp).trans (k p hp)

theorem Changes.mono {s t : State} {may more : Part → Prop} (h : Changes s t may) (le : ∀ p, may p → more p) :
    Changes s t more := fun p hp => h p (fun hq => hp (le p hq))

/-- An operation that changes only what may change is transparent. -/
theorem Changes.step_iff {s t u : State} {may : Part → Prop} (k : Changes t u may) : Changes s u may ↔ Changes s t may :=
  ⟨fun h p hp => (h p hp).trans (k p hp).symm, fun h => h.trans k⟩

/-- A choice between two effects. -/
theorem changes_ite {s t u : State} {may : Part → Prop} {c : Prop} [Decidable c] :
    Changes s (if c then t else u) may ↔ (c → Changes s t may) ∧ (¬c → Changes s u may) := by
  by_cases h : c <;> simp [h]

variable {s t : State} {may : Part → Prop}

/-! One field of the state. -/

@[simp] theorem changes_pending {x : List Instr} (h : may .queue) :
    Changes s { t with pending := x } may ↔ Changes s t may := by
  refine Changes.step_iff (fun q hq => ?_)
  cases q <;> first | exact absurd h hq | simp [Same, State.byte, State.blank, State.link, State.ferry, State.group, State.obj,
    State.index, State.engine, State.berth]

@[simp] theorem changes_pairRead {x : Store (Option W32)} (h : may .pairs) :
    Changes s { t with pairRead := x } may ↔ Changes s t may := by
  refine Changes.step_iff (fun q hq => ?_)
  cases q <;> first | exact absurd h hq | simp [Same, State.byte, State.blank, State.link, State.ferry, State.group, State.obj,
    State.index, State.engine, State.berth]

@[simp] theorem changes_pairWrite {x : Store (Option W32)} (h : may .pairs) :
    Changes s { t with pairWrite := x } may ↔ Changes s t may := by
  refine Changes.step_iff (fun q hq => ?_)
  cases q <;> first | exact absurd h hq | simp [Same, State.byte, State.blank, State.link, State.ferry, State.group, State.obj,
    State.index, State.engine, State.berth]

@[simp] theorem changes_tide {x : Tide} (h : may .tide) :
    Changes s { t with tide := x } may ↔ Changes s t may := by
  refine Changes.step_iff (fun q hq => ?_)
  cases q <;> first | exact absurd h hq | simp [Same, State.byte, State.blank, State.link, State.ferry, State.group, State.obj,
    State.index, State.engine, State.berth]

@[simp] theorem changes_landing {x : List Landing} (h : may .landings) :
    Changes s { t with landing := x } may ↔ Changes s t may := by
  refine Changes.step_iff (fun q hq => ?_)
  cases q <;> first | exact absurd h hq | simp [Same, State.byte, State.blank, State.link, State.ferry, State.group, State.obj,
    State.index, State.engine, State.berth]

@[simp] theorem changes_held {x : List Held} (h : may .held) :
    Changes s { t with held := x } may ↔ Changes s t may := by
  refine Changes.step_iff (fun q hq => ?_)
  cases q <;> first | exact absurd h hq | simp [Same, State.byte, State.blank, State.link, State.ferry, State.group, State.obj,
    State.index, State.engine, State.berth]

@[simp] theorem changes_fullBlocks {x : List (Nat × Nat)} (h : may .blocks) :
    Changes s { t with fullBlocks := x } may ↔ Changes s t may := by
  refine Changes.step_iff (fun q hq => ?_)
  cases q <;> first | exact absurd h hq | simp [Same, State.byte, State.blank, State.link, State.ferry, State.group, State.obj,
    State.index, State.engine, State.berth]

@[simp] theorem changes_sealCtr {x : Store Nat} (h : may .seals) :
    Changes s { t with sealCtr := x } may ↔ Changes s t may := by
  refine Changes.step_iff (fun q hq => ?_)
  cases q <;> first | exact absurd h hq | simp [Same, State.byte, State.blank, State.link, State.ferry, State.group, State.obj,
    State.index, State.engine, State.berth]

@[simp] theorem changes_ports {x : Store Nat} (h : may .ports) :
    Changes s { t with ports := x } may ↔ Changes s t may := by
  refine Changes.step_iff (fun q hq => ?_)
  cases q <;> first | exact absurd h hq | simp [Same, State.byte, State.blank, State.link, State.ferry, State.group, State.obj,
    State.index, State.engine, State.berth]

@[simp] theorem changes_routeWait {x : List RouteMsg} (h : may .routes) :
    Changes s { t with routeWait := x } may ↔ Changes s t may := by
  refine Changes.step_iff (fun q hq => ?_)
  cases q <;> first | exact absurd h hq | simp [Same, State.byte, State.blank, State.link, State.ferry, State.group, State.obj,
    State.index, State.engine, State.berth]

@[simp] theorem changes_noRouted {x : List ConsKey} (h : may .routes) :
    Changes s { t with noRouted := x } may ↔ Changes s t may := by
  refine Changes.step_iff (fun q hq => ?_)
  cases q <;> first | exact absurd h hq | simp [Same, State.byte, State.blank, State.link, State.ferry, State.group, State.obj,
    State.index, State.engine, State.berth]

@[simp] theorem changes_applyWaits {x : Option (List (Nat × Option W64))} (h : may .routes) :
    Changes s { t with applyWaits := x } may ↔ Changes s t may := by
  refine Changes.step_iff (fun q hq => ?_)
  cases q <;> first | exact absurd h hq | simp [Same, State.byte, State.blank, State.link, State.ferry, State.group, State.obj,
    State.index, State.engine, State.berth]

@[simp] theorem changes_tierQ {x : List TierReq} (h : may .requests) :
    Changes s { t with tierQ := x } may ↔ Changes s t may := by
  refine Changes.step_iff (fun q hq => ?_)
  cases q <;> first | exact absurd h hq | simp [Same, State.byte, State.blank, State.link, State.ferry, State.group, State.obj,
    State.index, State.engine, State.berth]

@[simp] theorem changes_tierMoves {x : List TierMove} (h : may .moves) :
    Changes s { t with tierMoves := x } may ↔ Changes s t may := by
  refine Changes.step_iff (fun q hq => ?_)
  cases q <;> first | exact absurd h hq | simp [Same, State.byte, State.blank, State.link, State.ferry, State.group, State.obj,
    State.index, State.engine, State.berth]

@[simp] theorem changes_boot {x : Boot} (h : may .boot) :
    Changes s { t with boot := x } may ↔ Changes s t may := by
  refine Changes.step_iff (fun q hq => ?_)
  cases q <;> first | exact absurd h hq | simp [Same, State.byte, State.blank, State.link, State.ferry, State.group, State.obj,
    State.index, State.engine, State.berth]

@[simp] theorem changes_partCmd {x : Store Nat} (h : may .power) :
    Changes s { t with partCmd := x } may ↔ Changes s t may := by
  refine Changes.step_iff (fun q hq => ?_)
  cases q <;> first | exact absurd h hq | simp [Same, State.byte, State.blank, State.link, State.ferry, State.group, State.obj,
    State.index, State.engine, State.berth]

@[simp] theorem changes_powerSlots {x : Store (Option (W32 × W64))} (h : may .power) :
    Changes s { t with powerSlots := x } may ↔ Changes s t may := by
  refine Changes.step_iff (fun q hq => ?_)
  cases q <;> first | exact absurd h hq | simp [Same, State.byte, State.blank, State.link, State.ferry, State.group, State.obj,
    State.index, State.engine, State.berth]

@[simp] theorem changes_transition {x : Option W32} (h : may .power) :
    Changes s { t with transition := x } may ↔ Changes s t may := by
  refine Changes.step_iff (fun q hq => ?_)
  cases q <;> first | exact absurd h hq | simp [Same, State.byte, State.blank, State.link, State.ferry, State.group, State.obj,
    State.index, State.engine, State.berth]

@[simp] theorem changes_critAt {x : Store (Option W64)} (h : may .power) :
    Changes s { t with critAt := x } may ↔ Changes s t may := by
  refine Changes.step_iff (fun q hq => ?_)
  cases q <;> first | exact absurd h hq | simp [Same, State.byte, State.blank, State.link, State.ferry, State.group, State.obj,
    State.index, State.engine, State.berth]

@[simp] theorem changes_pba {x : List (Nat × Nat)} (h : may .signals) :
    Changes s { t with pba := x } may ↔ Changes s t may := by
  refine Changes.step_iff (fun q hq => ?_)
  cases q <;> first | exact absurd h hq | simp [Same, State.byte, State.blank, State.link, State.ferry, State.group, State.obj,
    State.index, State.engine, State.berth]

@[simp] theorem changes_fmask {x : List Nat} (h : may .masks) :
    Changes s { t with fmask := x } may ↔ Changes s t may := by
  refine Changes.step_iff (fun q hq => ?_)
  cases q <;> first | exact absurd h hq | simp [Same, State.byte, State.blank, State.link, State.ferry, State.group, State.obj,
    State.index, State.engine, State.berth]

@[simp] theorem changes_busMaster {x : Bool} (h : may .busMaster) :
    Changes s { t with busMaster := x } may ↔ Changes s t may := by
  refine Changes.step_iff (fun q hq => ?_)
  cases q <;> first | exact absurd h hq | simp [Same, State.byte, State.blank, State.link, State.ferry, State.group, State.obj,
    State.index, State.engine, State.berth]

@[simp] theorem changes_pend {x : List Nat} (h : may .signals) :
    Changes s { t with pend := x } may ↔ Changes s t may := by
  refine Changes.step_iff (fun q hq => ?_)
  cases q <;> first | exact absurd h hq | simp [Same, State.byte, State.blank, State.link, State.ferry, State.group, State.obj,
    State.index, State.engine, State.berth]

@[simp] theorem changes_log {x : Logbook} (h : may .log) :
    Changes s { t with log := x } may ↔ Changes s t may := by
  refine Changes.step_iff (fun q hq => ?_)
  cases q <;> first | exact absurd h hq | simp [Same, State.byte, State.blank, State.link, State.ferry, State.group, State.obj,
    State.index, State.engine, State.berth]

@[simp] theorem changes_responding {x : Bool} (h : may .debug) :
    Changes s { t with responding := x } may ↔ Changes s t may := by
  refine Changes.step_iff (fun q hq => ?_)
  cases q <;> first | exact absurd h hq | simp [Same, State.byte, State.blank, State.link, State.ferry, State.group, State.obj,
    State.index, State.engine, State.berth]

@[simp] theorem changes_hostKey {x : Nat} (h : may .keys) :
    Changes s { t with hostKey := x } may ↔ Changes s t may := by
  refine Changes.step_iff (fun q hq => ?_)
  cases q <;> first | exact absurd h hq | simp [Same, State.byte, State.blank, State.link, State.ferry, State.group, State.obj,
    State.index, State.engine, State.berth]

@[simp] theorem changes_drawn {x : Nat} (h : may .keys) :
    Changes s { t with drawn := x } may ↔ Changes s t may := by
  refine Changes.step_iff (fun q hq => ?_)
  cases q <;> first | exact absurd h hq | simp [Same, State.byte, State.blank, State.link, State.ferry, State.group, State.obj,
    State.index, State.engine, State.berth]

@[simp] theorem changes_doe {x : Store Nat} (h : may .doe) :
    Changes s { t with doe := x } may ↔ Changes s t may := by
  refine Changes.step_iff (fun q hq => ?_)
  cases q <;> first | exact absurd h hq | simp [Same, State.byte, State.blank, State.link, State.ferry, State.group, State.obj,
    State.index, State.engine, State.berth]

@[simp] theorem changes_doeBuf {x : Store (List Byte)} (h : may .doe) :
    Changes s { t with doeBuf := x } may ↔ Changes s t may := by
  refine Changes.step_iff (fun q hq => ?_)
  cases q <;> first | exact absurd h hq | simp [Same, State.byte, State.blank, State.link, State.ferry, State.group, State.obj,
    State.index, State.engine, State.berth]

@[simp] theorem changes_alert {x : Bool} (h : may .signals) :
    Changes s { t with alert := x } may ↔ Changes s t may := by
  refine Changes.step_iff (fun q hq => ?_)
  cases q <;> first | exact absurd h hq | simp [Same, State.byte, State.blank, State.link, State.ferry, State.group, State.obj,
    State.index, State.engine, State.berth]

@[simp] theorem changes_i3cDyn {x : Option (BitVec 7)} (h : may .i3c) :
    Changes s { t with i3cDyn := x } may ↔ Changes s t may := by
  refine Changes.step_iff (fun q hq => ?_)
  cases q <;> first | exact absurd h hq | simp [Same, State.byte, State.blank, State.link, State.ferry, State.group, State.obj,
    State.index, State.engine, State.berth]

@[simp] theorem changes_i3cOff {x : BitVec 4} (h : may .i3c) :
    Changes s { t with i3cOff := x } may ↔ Changes s t may := by
  refine Changes.step_iff (fun q hq => ?_)
  cases q <;> first | exact absurd h hq | simp [Same, State.byte, State.blank, State.link, State.ferry, State.group, State.obj,
    State.index, State.engine, State.berth]

@[simp] theorem changes_i3cIbi {x : Bool} (h : may .i3c) :
    Changes s { t with i3cIbi := x } may ↔ Changes s t may := by
  refine Changes.step_iff (fun q hq => ?_)
  cases q <;> first | exact absurd h hq | simp [Same, State.byte, State.blank, State.link, State.ferry, State.group, State.obj,
    State.index, State.engine, State.berth]

@[simp] theorem changes_tapIr {x : BitVec 5} (h : may .tap) :
    Changes s { t with tapIr := x } may ↔ Changes s t may := by
  refine Changes.step_iff (fun q hq => ?_)
  cases q <;> first | exact absurd h hq | simp [Same, State.byte, State.blank, State.link, State.ferry, State.group, State.obj,
    State.index, State.engine, State.berth]

@[simp] theorem changes_cells {x : BitVec 10} (h : may .tap) :
    Changes s { t with cells := x } may ↔ Changes s t may := by
  refine Changes.step_iff (fun q hq => ?_)
  cases q <;> first | exact absurd h hq | simp [Same, State.byte, State.blank, State.link, State.ferry, State.group, State.obj,
    State.index, State.engine, State.berth]

@[simp] theorem changes_poison {x : List Nat} (h : may .poison) :
    Changes s { t with poison := x } may ↔ Changes s t may := by
  refine Changes.step_iff (fun q hq => ?_)
  cases q <;> first | exact absurd h hq | simp [Same, State.byte, State.blank, State.link, State.ferry, State.group, State.obj,
    State.index, State.engine, State.berth]

@[simp] theorem changes_image {x : List Host.Cell} (h : may .image) :
    Changes s { t with image := x } may ↔ Changes s t may := by
  refine Changes.step_iff (fun q hq => ?_)
  cases q <;> first | exact absurd h hq | simp [Same, State.byte, State.blank, State.link, State.ferry, State.group, State.obj,
    State.index, State.engine, State.berth]

@[simp] theorem changes_flash {x : List Host.Cell} (h : may .flash) :
    Changes s { t with flash := x } may ↔ Changes s t may := by
  refine Changes.step_iff (fun q hq => ?_)
  cases q <;> first | exact absurd h hq | simp [Same, State.byte, State.blank, State.link, State.ferry, State.group, State.obj,
    State.index, State.engine, State.berth]

@[simp] theorem changes_withheld {x : List (Nat × Nat)} (h : may .withheld) :
    Changes s { t with withheld := x } may ↔ Changes s t may := by
  refine Changes.step_iff (fun q hq => ?_)
  cases q <;> first | exact absurd h hq | simp [Same, State.byte, State.blank, State.link, State.ferry, State.group, State.obj,
    State.index, State.engine, State.berth]

@[simp] theorem changes_out {x : List Out} (h : may .signals) :
    Changes s { t with out := x } may ↔ Changes s t may := by
  refine Changes.step_iff (fun q hq => ?_)
  cases q <;> first | exact absurd h hq | simp [Same, State.byte, State.blank, State.link, State.ferry, State.group, State.obj,
    State.index, State.engine, State.berth]

@[simp] theorem changes_fresh {x : Nat} (h : may .fresh) :
    Changes s { t with fresh := x } may ↔ Changes s t may := by
  refine Changes.step_iff (fun q hq => ?_)
  cases q <;> first | exact absurd h hq | simp [Same, State.byte, State.blank, State.link, State.ferry, State.group, State.obj,
    State.index, State.engine, State.berth]

/-! One keyed field: every key that may not change reads as before. -/

theorem changes_regs {x : Store W32}
    (h : ∀ k, ¬ may (.reg k) → storeGet x k (regDefault k) = storeGet t.regs k (regDefault k)) :
    Changes s { t with regs := x } may ↔ Changes s t may := by
  refine Changes.step_iff (fun q hq => ?_)
  cases q <;> first | exact h _ hq | simp [Same, State.byte, State.blank, State.link, State.ferry, State.group, State.obj,
    State.index, State.engine, State.berth]

theorem changes_bar4 {x : Store W32}
    (h : ∀ k, ¬ may (.bar4 k) → storeGet x k (bar4Reset (k % 2 ^ 24)) = storeGet t.bar4 k (bar4Reset (k % 2 ^ 24))) :
    Changes s { t with bar4 := x } may ↔ Changes s t may := by
  refine Changes.step_iff (fun q hq => ?_)
  cases q <;> first | exact h _ hq | simp [Same, State.byte, State.blank, State.link, State.ferry, State.group, State.obj,
    State.index, State.engine, State.berth]

theorem changes_cores {x : Store Core}
    (h : ∀ k, ¬ may (.core k) → storeGet x k (Core.reset) = storeGet t.cores k (Core.reset)) :
    Changes s { t with cores := x } may ↔ Changes s t may := by
  refine Changes.step_iff (fun q hq => ?_)
  cases q <;> first | exact h _ hq | simp [Same, State.byte, State.blank, State.link, State.ferry, State.group, State.obj,
    State.index, State.engine, State.berth]

theorem changes_links {x : Store LinkRun}
    (h : ∀ k, ¬ may (.link k) → storeGet x k (LinkRun.reset) = storeGet t.links k (LinkRun.reset)) :
    Changes s { t with links := x } may ↔ Changes s t may := by
  refine Changes.step_iff (fun q hq => ?_)
  cases q <;> first | exact h _ hq | simp [Same, State.byte, State.blank, State.ferry, State.group, State.obj,
    State.index, State.engine, State.berth]

theorem changes_ferries {x : Store FerryRun}
    (h : ∀ k, ¬ may (.ferry k) → storeGet x k (FerryRun.reset) = storeGet t.ferries k (FerryRun.reset)) :
    Changes s { t with ferries := x } may ↔ Changes s t may := by
  refine Changes.step_iff (fun q hq => ?_)
  cases q <;> first | exact h _ hq | simp [Same, State.byte, State.blank, State.link, State.group, State.obj,
    State.index, State.engine, State.berth]

theorem changes_groups {x : Store GroupRun}
    (h : ∀ k, ¬ may (.group k) → storeGet x k (GroupRun.reset) = storeGet t.groups k (GroupRun.reset)) :
    Changes s { t with groups := x } may ↔ Changes s t may := by
  refine Changes.step_iff (fun q hq => ?_)
  cases q <;> first | exact h _ hq | simp [Same, State.byte, State.blank, State.link, State.ferry, State.obj,
    State.index, State.engine, State.berth]

theorem changes_objects {x : Store ObjEntry}
    (h : ∀ k, ¬ may (.obj k) → storeGet x k (ObjEntry.free) = storeGet t.objects k (ObjEntry.free)) :
    Changes s { t with objects := x } may ↔ Changes s t may := by
  refine Changes.step_iff (fun q hq => ?_)
  cases q <;> first | exact h _ hq | simp [Same, State.byte, State.blank, State.link, State.ferry, State.group,
    State.index, State.engine, State.berth]

theorem changes_indexes {x : Store Index}
    (h : ∀ k, ¬ may (.index k) → storeGet x k (Index.reset) = storeGet t.indexes k (Index.reset)) :
    Changes s { t with indexes := x } may ↔ Changes s t may := by
  refine Changes.step_iff (fun q hq => ?_)
  cases q <;> first | exact h _ hq | simp [Same, State.byte, State.blank, State.link, State.ferry, State.group, State.obj, State.engine, State.berth]

theorem changes_engines {x : Store Engine}
    (h : ∀ k, ¬ may (.engine k) → storeGet x k (Engine.reset) = storeGet t.engines k (Engine.reset)) :
    Changes s { t with engines := x } may ↔ Changes s t may := by
  refine Changes.step_iff (fun q hq => ?_)
  cases q <;> first | exact h _ hq | simp [Same, State.byte, State.blank, State.link, State.ferry, State.group, State.obj,
    State.index, State.berth]

theorem changes_berths {x : Store BerthRun}
    (h : ∀ k, ¬ may (.berth k) → storeGet x k (BerthRun.reset) = storeGet t.berths k (BerthRun.reset)) :
    Changes s { t with berths := x } may ↔ Changes s t may := by
  refine Changes.step_iff (fun q hq => ?_)
  cases q <;> first | exact h _ hq | simp [Same, State.byte, State.blank, State.link, State.ferry, State.group, State.obj,
    State.index, State.engine]

/-! Registers. -/

@[simp] theorem changes_wr {p o : Nat} {v : W32} (h : may (.reg (regKey p o))) :
    Changes s (t.wr p o v) may ↔ Changes s t may :=
  changes_regs (fun _ hk => storeGet_storePut_other _ _ _ _ (fun e => hk (e ▸ h)))

@[simp] theorem changes_wrN {p o v : Nat} (h : may (.reg (regKey p o))) :
    Changes s (t.wrN p o v) may ↔ Changes s t may := changes_wr h

@[simp] theorem changes_wr64 {p o : Nat} {v : W64} (h : may (.reg (regKey p o))) (h' : may (.reg (regKey p (o + 4)))) :
    Changes s (t.wr64 p o v) may ↔ Changes s t may := by
  unfold State.wr64
  rw [changes_wr h', changes_wr h]

@[simp] theorem changes_put {f : Fld} {v : Nat} (h : may (.reg (regKey f.page f.off))) :
    Changes s (t.put f v) may ↔ Changes s t may := changes_wr h

@[simp] theorem changes_putBit {f : Fld} {b : Bool} (h : may (.reg (regKey f.page f.off))) :
    Changes s (t.putBit f b) may ↔ Changes s t may := changes_wr h

@[simp] theorem changes_incSat {p o : Nat} (h : may (.reg (regKey p o))) :
    Changes s (t.incSat p o) may ↔ Changes s t may := changes_wr h

@[simp] theorem changes_addSat {p o n : Nat} (h : may (.reg (regKey p o))) :
    Changes s (t.addSat p o n) may ↔ Changes s t may := changes_wr h

@[simp] theorem changes_add64 {p o n : Nat} (h : may (.reg (regKey p o))) (h' : may (.reg (regKey p (o + 4)))) :
    Changes s (t.add64 p o n) may ↔ Changes s t may := changes_wr64 h h'

@[simp] theorem changes_wrBar4 {f o : Nat} {v : W32} (h : may (.bar4 (bar4Key f o))) :
    Changes s (t.wrBar4 f o v) may ↔ Changes s t may :=
  changes_bar4 (fun _ hk => storeGet_storePut_other _ _ _ _ (fun e => hk (e ▸ h)))

/-! Units. -/

@[simp] theorem changes_setCore {id : CoreId} {c : Core} (h : may (.core id.toNat)) :
    Changes s (t.setCore id c) may ↔ Changes s t may :=
  changes_cores (fun _ hk => storeGet_storePut_other _ _ _ _ (fun e => hk (e ▸ h)))

@[simp] theorem changes_setLink {n : Nat} {x : LinkRun} (h : may (.link n)) :
    Changes s (t.setLink n x) may ↔ Changes s t may :=
  changes_links (fun _ hk => storeGet_storePut_other _ _ _ _ (fun e => hk (e ▸ h)))

@[simp] theorem changes_setFerry {n : Nat} {x : FerryRun} (h : may (.ferry n)) :
    Changes s (t.setFerry n x) may ↔ Changes s t may :=
  changes_ferries (fun _ hk => storeGet_storePut_other _ _ _ _ (fun e => hk (e ▸ h)))

@[simp] theorem changes_setGroup {n : Nat} {x : GroupRun} (h : may (.group n)) :
    Changes s (t.setGroup n x) may ↔ Changes s t may :=
  changes_groups (fun _ hk => storeGet_storePut_other _ _ _ _ (fun e => hk (e ▸ h)))

@[simp] theorem changes_setObj {n : Nat} {x : ObjEntry} (h : may (.obj n)) :
    Changes s (t.setObj n x) may ↔ Changes s t may :=
  changes_objects (fun _ hk => storeGet_storePut_other _ _ _ _ (fun e => hk (e ▸ h)))

@[simp] theorem changes_setIndex {n : Nat} {x : Index} (h : may (.index n)) :
    Changes s (t.setIndex n x) may ↔ Changes s t may :=
  changes_indexes (fun _ hk => storeGet_storePut_other _ _ _ _ (fun e => hk (e ▸ h)))

@[simp] theorem changes_setEngine {n : Nat} {x : Engine} (h : may (.engine n)) :
    Changes s (t.setEngine n x) may ↔ Changes s t may :=
  changes_engines (fun _ hk => storeGet_storePut_other _ _ _ _ (fun e => hk (e ▸ h)))

@[simp] theorem changes_setBerth {n : Nat} {x : BerthRun} (h : may (.berth n)) :
    Changes s (t.setBerth n x) may ↔ Changes s t may :=
  changes_berths (fun _ hk => storeGet_storePut_other _ _ _ _ (fun e => hk (e ▸ h)))

/-! Memory. -/

theorem byte_storeByte_same (t : State) (a : Nat) (v : Byte) : (t.storeByte a v).byte a = v := by
  simp [State.storeByte, State.byte, State.blank]

theorem byte_storeByte_other (t : State) {a b : Nat} (v : Byte) (h : b ≠ a) : (t.storeByte a v).byte b = t.byte b := by
  simp [State.storeByte, State.byte, State.blank, storeGet_storePut_other _ _ _ _ h]

@[simp] theorem changes_storeByte {a : Nat} {v : Byte} (h : may (.byte a)) :
    Changes s (t.storeByte a v) may ↔ Changes s t may := by
  refine Changes.step_iff (fun q hq => ?_)
  by_cases hc : ∃ k, q = .byte k
  · obtain ⟨k, rfl⟩ := hc
    exact byte_storeByte_other t v (fun e => hq (e ▸ h))
  · cases q <;> first | exact absurd ⟨_, rfl⟩ hc | exact (rfl : _ = _) | simp [Same, State.storeByte]

theorem changes_storeBytes {bs : List Byte} {a : Nat} (h : ∀ i, i < bs.length → may (.byte (a + i))) :
    Changes s (t.storeBytes a bs) may ↔ Changes s t may := by
  induction bs generalizing a t with
  | nil => rfl
  | cons b bs ih =>
    rw [State.storeBytes, ih, changes_storeByte (by simpa using h 0 (by simp))]
    intro i hi
    have := h (i + 1) (by simpa using hi)
    rwa [show a + (i + 1) = a + 1 + i by omega] at this

/-! Outputs, interrupts, the logbook's queue, events. -/

@[simp] theorem changes_emit {o : Out} (h : may .signals) : Changes s (t.emit o) may ↔ Changes s t may := changes_out h

@[simp] theorem changes_sendVector {f v : Nat} (h : may .signals) : Changes s (sendVector t f v) may ↔ Changes s t may := by
  unfold sendVector
  split
  · split
    · rfl
    · exact changes_pba h
  · exact changes_emit h

theorem changes_foldl {β : Type} {f : State → β → State} (h : ∀ t x, Changes s (f t x) may ↔ Changes s t may) (l : List β) :
    Changes s (l.foldl f t) may ↔ Changes s t may := by
  induction l generalizing t with
  | nil => rfl
  | cons x l ih => rw [List.foldl_cons, ih, h]

@[simp] theorem changes_sendVectors {l : List (Nat × Nat)} (h : may .signals) :
    Changes s (sendVectors t l) may ↔ Changes s t may := changes_foldl (fun _ _ => changes_sendVector h) _

@[simp] theorem changes_driveAlert (h : may .signals) : Changes s (driveAlert t) may ↔ Changes s t may := by
  simp only [driveAlert]
  split
  · rw [changes_emit h, changes_alert h]
  · rw [changes_alert h]

/-- Interrupt signalling changes the pending classes, the pending vectors, ALERT_N and the outputs, and nothing else. -/
@[simp] theorem changes_signal (h : may .signals) : Changes s (signal t) may ↔ Changes s t may := by
  simp only [signal]
  rw [changes_driveAlert h, changes_sendVectors h, changes_pend h]

@[simp] theorem changes_logAdd {e : LogEntry} (h : may .log) : Changes s (logAdd t e) may ↔ Changes s t may := by
  simp only [logAdd]
  split <;> exact changes_log h

@[simp] theorem changes_logAdapt {p d : Nat} {e : Bool} (h : may .log) :
    Changes s (logAdapt t p e d) may ↔ Changes s t may := changes_logAdd h

/-- The words of a page that an event changes: EVT, ERRCODE and EVT_TIDE. -/
def eventWords (page : Nat) : List Part :=
  [.reg (regKey page 0x010), .reg (regKey page 0x01C), .reg (regKey page 0x020), .reg (regKey page 0x024)]

theorem changes_setEvt {p b c : Nat} {f : Bool} (h : ∀ x ∈ eventWords p, may x) :
    Changes s (setEvt t p b c f) may ↔ Changes s t may := by
  simp only [eventWords, List.mem_cons, List.not_mem_nil, or_false, forall_eq_or_imp, forall_eq] at h
  obtain ⟨h1, h2, h3, h4⟩ := h
  unfold setEvt
  simp only []
  split <;> split <;> (try split) <;> simp [h1, h2, h3, h4]

theorem changes_raiseWith {p b c : Nat} {d : W32 × W32 × W32 × W32} (h : ∀ x ∈ eventWords p, may x) (hl : may .log) :
    Changes s (raiseWith t p b c d) may ↔ Changes s t may := by
  simp only [raiseWith]
  split
  · exact changes_setEvt h
  · rw [changes_logAdd hl, changes_setEvt h]

theorem changes_raise {p b c : Nat} (h : ∀ x ∈ eventWords p, may x) (hl : may .log) :
    Changes s (raise t p b c) may ↔ Changes s t may := by
  simp only [raise]
  split
  · exact changes_setEvt h
  · rw [changes_logAdd hl, changes_setEvt h]

theorem changes_clearEvt {p : Nat} {v : W32} (h : ∀ x ∈ eventWords p, may x) :
    Changes s (clearEvt t p v) may ↔ Changes s t may := by
  simp only [eventWords, List.mem_cons, List.not_mem_nil, or_false, forall_eq_or_imp, forall_eq] at h
  obtain ⟨h1, h2, h3, h4⟩ := h
  unfold clearEvt
  simp only []
  split <;> split <;> simp [h1, h2, h3, h4]

end Sys2Proof.Machine
end

