-- ==== Sys2Proof/Laws/State.lean ====
section
/-! SUPPORT. What each update of the state leaves as it was: one lemma per field per update. -/

namespace Sys2Proof.Machine.State

variable (s : State)

/-! wr changes regs only. -/

@[simp] theorem wr_pending (p o : Nat) (v : W32) : (s.wr p o v).pending = s.pending := rfl
@[simp] theorem wr_pairRead (p o : Nat) (v : W32) : (s.wr p o v).pairRead = s.pairRead := rfl
@[simp] theorem wr_pairWrite (p o : Nat) (v : W32) : (s.wr p o v).pairWrite = s.pairWrite := rfl
@[simp] theorem wr_tide (p o : Nat) (v : W32) : (s.wr p o v).tide = s.tide := rfl
@[simp] theorem wr_landing (p o : Nat) (v : W32) : (s.wr p o v).landing = s.landing := rfl
@[simp] theorem wr_held (p o : Nat) (v : W32) : (s.wr p o v).held = s.held := rfl
@[simp] theorem wr_fullBlocks (p o : Nat) (v : W32) : (s.wr p o v).fullBlocks = s.fullBlocks := rfl
@[simp] theorem wr_sealCtr (p o : Nat) (v : W32) : (s.wr p o v).sealCtr = s.sealCtr := rfl
@[simp] theorem wr_cores (p o : Nat) (v : W32) : (s.wr p o v).cores = s.cores := rfl
@[simp] theorem wr_links (p o : Nat) (v : W32) : (s.wr p o v).links = s.links := rfl
@[simp] theorem wr_ports (p o : Nat) (v : W32) : (s.wr p o v).ports = s.ports := rfl
@[simp] theorem wr_routeWait (p o : Nat) (v : W32) : (s.wr p o v).routeWait = s.routeWait := rfl
@[simp] theorem wr_noRouted (p o : Nat) (v : W32) : (s.wr p o v).noRouted = s.noRouted := rfl
@[simp] theorem wr_applyWaits (p o : Nat) (v : W32) : (s.wr p o v).applyWaits = s.applyWaits := rfl
@[simp] theorem wr_ferries (p o : Nat) (v : W32) : (s.wr p o v).ferries = s.ferries := rfl
@[simp] theorem wr_groups (p o : Nat) (v : W32) : (s.wr p o v).groups = s.groups := rfl
@[simp] theorem wr_objects (p o : Nat) (v : W32) : (s.wr p o v).objects = s.objects := rfl
@[simp] theorem wr_tierQ (p o : Nat) (v : W32) : (s.wr p o v).tierQ = s.tierQ := rfl
@[simp] theorem wr_tierMoves (p o : Nat) (v : W32) : (s.wr p o v).tierMoves = s.tierMoves := rfl
@[simp] theorem wr_indexes (p o : Nat) (v : W32) : (s.wr p o v).indexes = s.indexes := rfl
@[simp] theorem wr_engines (p o : Nat) (v : W32) : (s.wr p o v).engines = s.engines := rfl
@[simp] theorem wr_berths (p o : Nat) (v : W32) : (s.wr p o v).berths = s.berths := rfl
@[simp] theorem wr_boot (p o : Nat) (v : W32) : (s.wr p o v).boot = s.boot := rfl
@[simp] theorem wr_partCmd (p o : Nat) (v : W32) : (s.wr p o v).partCmd = s.partCmd := rfl
@[simp] theorem wr_powerSlots (p o : Nat) (v : W32) : (s.wr p o v).powerSlots = s.powerSlots := rfl
@[simp] theorem wr_transition (p o : Nat) (v : W32) : (s.wr p o v).transition = s.transition := rfl
@[simp] theorem wr_critAt (p o : Nat) (v : W32) : (s.wr p o v).critAt = s.critAt := rfl
@[simp] theorem wr_bar4 (p o : Nat) (v : W32) : (s.wr p o v).bar4 = s.bar4 := rfl
@[simp] theorem wr_pba (p o : Nat) (v : W32) : (s.wr p o v).pba = s.pba := rfl
@[simp] theorem wr_fmask (p o : Nat) (v : W32) : (s.wr p o v).fmask = s.fmask := rfl
@[simp] theorem wr_pend (p o : Nat) (v : W32) : (s.wr p o v).pend = s.pend := rfl
@[simp] theorem wr_busMaster (p o : Nat) (v : W32) : (s.wr p o v).busMaster = s.busMaster := rfl
@[simp] theorem wr_log (p o : Nat) (v : W32) : (s.wr p o v).log = s.log := rfl
@[simp] theorem wr_responding (p o : Nat) (v : W32) : (s.wr p o v).responding = s.responding := rfl
@[simp] theorem wr_hostKey (p o : Nat) (v : W32) : (s.wr p o v).hostKey = s.hostKey := rfl
@[simp] theorem wr_drawn (p o : Nat) (v : W32) : (s.wr p o v).drawn = s.drawn := rfl
@[simp] theorem wr_doe (p o : Nat) (v : W32) : (s.wr p o v).doe = s.doe := rfl
@[simp] theorem wr_doeBuf (p o : Nat) (v : W32) : (s.wr p o v).doeBuf = s.doeBuf := rfl
@[simp] theorem wr_alert (p o : Nat) (v : W32) : (s.wr p o v).alert = s.alert := rfl
@[simp] theorem wr_i3cDyn (p o : Nat) (v : W32) : (s.wr p o v).i3cDyn = s.i3cDyn := rfl
@[simp] theorem wr_i3cOff (p o : Nat) (v : W32) : (s.wr p o v).i3cOff = s.i3cOff := rfl
@[simp] theorem wr_i3cIbi (p o : Nat) (v : W32) : (s.wr p o v).i3cIbi = s.i3cIbi := rfl
@[simp] theorem wr_tapIr (p o : Nat) (v : W32) : (s.wr p o v).tapIr = s.tapIr := rfl
@[simp] theorem wr_cells (p o : Nat) (v : W32) : (s.wr p o v).cells = s.cells := rfl
@[simp] theorem wr_mem (p o : Nat) (v : W32) : (s.wr p o v).mem = s.mem := rfl
@[simp] theorem wr_poison (p o : Nat) (v : W32) : (s.wr p o v).poison = s.poison := rfl
@[simp] theorem wr_blurred (p o : Nat) (v : W32) : (s.wr p o v).blurred = s.blurred := rfl
@[simp] theorem wr_image (p o : Nat) (v : W32) : (s.wr p o v).image = s.image := rfl
@[simp] theorem wr_flash (p o : Nat) (v : W32) : (s.wr p o v).flash = s.flash := rfl
@[simp] theorem wr_withheld (p o : Nat) (v : W32) : (s.wr p o v).withheld = s.withheld := rfl
@[simp] theorem wr_out (p o : Nat) (v : W32) : (s.wr p o v).out = s.out := rfl
@[simp] theorem wr_fresh (p o : Nat) (v : W32) : (s.wr p o v).fresh = s.fresh := rfl

/-! wrN changes regs only. -/

@[simp] theorem wrN_pending (p o v : Nat) : (s.wrN p o v).pending = s.pending := rfl
@[simp] theorem wrN_pairRead (p o v : Nat) : (s.wrN p o v).pairRead = s.pairRead := rfl
@[simp] theorem wrN_pairWrite (p o v : Nat) : (s.wrN p o v).pairWrite = s.pairWrite := rfl
@[simp] theorem wrN_tide (p o v : Nat) : (s.wrN p o v).tide = s.tide := rfl
@[simp] theorem wrN_landing (p o v : Nat) : (s.wrN p o v).landing = s.landing := rfl
@[simp] theorem wrN_held (p o v : Nat) : (s.wrN p o v).held = s.held := rfl
@[simp] theorem wrN_fullBlocks (p o v : Nat) : (s.wrN p o v).fullBlocks = s.fullBlocks := rfl
@[simp] theorem wrN_sealCtr (p o v : Nat) : (s.wrN p o v).sealCtr = s.sealCtr := rfl
@[simp] theorem wrN_cores (p o v : Nat) : (s.wrN p o v).cores = s.cores := rfl
@[simp] theorem wrN_links (p o v : Nat) : (s.wrN p o v).links = s.links := rfl
@[simp] theorem wrN_ports (p o v : Nat) : (s.wrN p o v).ports = s.ports := rfl
@[simp] theorem wrN_routeWait (p o v : Nat) : (s.wrN p o v).routeWait = s.routeWait := rfl
@[simp] theorem wrN_noRouted (p o v : Nat) : (s.wrN p o v).noRouted = s.noRouted := rfl
@[simp] theorem wrN_applyWaits (p o v : Nat) : (s.wrN p o v).applyWaits = s.applyWaits := rfl
@[simp] theorem wrN_ferries (p o v : Nat) : (s.wrN p o v).ferries = s.ferries := rfl
@[simp] theorem wrN_groups (p o v : Nat) : (s.wrN p o v).groups = s.groups := rfl
@[simp] theorem wrN_objects (p o v : Nat) : (s.wrN p o v).objects = s.objects := rfl
@[simp] theorem wrN_tierQ (p o v : Nat) : (s.wrN p o v).tierQ = s.tierQ := rfl
@[simp] theorem wrN_tierMoves (p o v : Nat) : (s.wrN p o v).tierMoves = s.tierMoves := rfl
@[simp] theorem wrN_indexes (p o v : Nat) : (s.wrN p o v).indexes = s.indexes := rfl
@[simp] theorem wrN_engines (p o v : Nat) : (s.wrN p o v).engines = s.engines := rfl
@[simp] theorem wrN_berths (p o v : Nat) : (s.wrN p o v).berths = s.berths := rfl
@[simp] theorem wrN_boot (p o v : Nat) : (s.wrN p o v).boot = s.boot := rfl
@[simp] theorem wrN_partCmd (p o v : Nat) : (s.wrN p o v).partCmd = s.partCmd := rfl
@[simp] theorem wrN_powerSlots (p o v : Nat) : (s.wrN p o v).powerSlots = s.powerSlots := rfl
@[simp] theorem wrN_transition (p o v : Nat) : (s.wrN p o v).transition = s.transition := rfl
@[simp] theorem wrN_critAt (p o v : Nat) : (s.wrN p o v).critAt = s.critAt := rfl
@[simp] theorem wrN_bar4 (p o v : Nat) : (s.wrN p o v).bar4 = s.bar4 := rfl
@[simp] theorem wrN_pba (p o v : Nat) : (s.wrN p o v).pba = s.pba := rfl
@[simp] theorem wrN_fmask (p o v : Nat) : (s.wrN p o v).fmask = s.fmask := rfl
@[simp] theorem wrN_pend (p o v : Nat) : (s.wrN p o v).pend = s.pend := rfl
@[simp] theorem wrN_busMaster (p o v : Nat) : (s.wrN p o v).busMaster = s.busMaster := rfl
@[simp] theorem wrN_log (p o v : Nat) : (s.wrN p o v).log = s.log := rfl
@[simp] theorem wrN_responding (p o v : Nat) : (s.wrN p o v).responding = s.responding := rfl
@[simp] theorem wrN_hostKey (p o v : Nat) : (s.wrN p o v).hostKey = s.hostKey := rfl
@[simp] theorem wrN_drawn (p o v : Nat) : (s.wrN p o v).drawn = s.drawn := rfl
@[simp] theorem wrN_doe (p o v : Nat) : (s.wrN p o v).doe = s.doe := rfl
@[simp] theorem wrN_doeBuf (p o v : Nat) : (s.wrN p o v).doeBuf = s.doeBuf := rfl
@[simp] theorem wrN_alert (p o v : Nat) : (s.wrN p o v).alert = s.alert := rfl
@[simp] theorem wrN_i3cDyn (p o v : Nat) : (s.wrN p o v).i3cDyn = s.i3cDyn := rfl
@[simp] theorem wrN_i3cOff (p o v : Nat) : (s.wrN p o v).i3cOff = s.i3cOff := rfl
@[simp] theorem wrN_i3cIbi (p o v : Nat) : (s.wrN p o v).i3cIbi = s.i3cIbi := rfl
@[simp] theorem wrN_tapIr (p o v : Nat) : (s.wrN p o v).tapIr = s.tapIr := rfl
@[simp] theorem wrN_cells (p o v : Nat) : (s.wrN p o v).cells = s.cells := rfl
@[simp] theorem wrN_mem (p o v : Nat) : (s.wrN p o v).mem = s.mem := rfl
@[simp] theorem wrN_poison (p o v : Nat) : (s.wrN p o v).poison = s.poison := rfl
@[simp] theorem wrN_blurred (p o v : Nat) : (s.wrN p o v).blurred = s.blurred := rfl
@[simp] theorem wrN_image (p o v : Nat) : (s.wrN p o v).image = s.image := rfl
@[simp] theorem wrN_flash (p o v : Nat) : (s.wrN p o v).flash = s.flash := rfl
@[simp] theorem wrN_withheld (p o v : Nat) : (s.wrN p o v).withheld = s.withheld := rfl
@[simp] theorem wrN_out (p o v : Nat) : (s.wrN p o v).out = s.out := rfl
@[simp] theorem wrN_fresh (p o v : Nat) : (s.wrN p o v).fresh = s.fresh := rfl

/-! wr64 changes regs only. -/

@[simp] theorem wr64_pending (p o : Nat) (v : W64) : (s.wr64 p o v).pending = s.pending := rfl
@[simp] theorem wr64_pairRead (p o : Nat) (v : W64) : (s.wr64 p o v).pairRead = s.pairRead := rfl
@[simp] theorem wr64_pairWrite (p o : Nat) (v : W64) : (s.wr64 p o v).pairWrite = s.pairWrite := rfl
@[simp] theorem wr64_tide (p o : Nat) (v : W64) : (s.wr64 p o v).tide = s.tide := rfl
@[simp] theorem wr64_landing (p o : Nat) (v : W64) : (s.wr64 p o v).landing = s.landing := rfl
@[simp] theorem wr64_held (p o : Nat) (v : W64) : (s.wr64 p o v).held = s.held := rfl
@[simp] theorem wr64_fullBlocks (p o : Nat) (v : W64) : (s.wr64 p o v).fullBlocks = s.fullBlocks := rfl
@[simp] theorem wr64_sealCtr (p o : Nat) (v : W64) : (s.wr64 p o v).sealCtr = s.sealCtr := rfl
@[simp] theorem wr64_cores (p o : Nat) (v : W64) : (s.wr64 p o v).cores = s.cores := rfl
@[simp] theorem wr64_links (p o : Nat) (v : W64) : (s.wr64 p o v).links = s.links := rfl
@[simp] theorem wr64_ports (p o : Nat) (v : W64) : (s.wr64 p o v).ports = s.ports := rfl
@[simp] theorem wr64_routeWait (p o : Nat) (v : W64) : (s.wr64 p o v).routeWait = s.routeWait := rfl
@[simp] theorem wr64_noRouted (p o : Nat) (v : W64) : (s.wr64 p o v).noRouted = s.noRouted := rfl
@[simp] theorem wr64_applyWaits (p o : Nat) (v : W64) : (s.wr64 p o v).applyWaits = s.applyWaits := rfl
@[simp] theorem wr64_ferries (p o : Nat) (v : W64) : (s.wr64 p o v).ferries = s.ferries := rfl
@[simp] theorem wr64_groups (p o : Nat) (v : W64) : (s.wr64 p o v).groups = s.groups := rfl
@[simp] theorem wr64_objects (p o : Nat) (v : W64) : (s.wr64 p o v).objects = s.objects := rfl
@[simp] theorem wr64_tierQ (p o : Nat) (v : W64) : (s.wr64 p o v).tierQ = s.tierQ := rfl
@[simp] theorem wr64_tierMoves (p o : Nat) (v : W64) : (s.wr64 p o v).tierMoves = s.tierMoves := rfl
@[simp] theorem wr64_indexes (p o : Nat) (v : W64) : (s.wr64 p o v).indexes = s.indexes := rfl
@[simp] theorem wr64_engines (p o : Nat) (v : W64) : (s.wr64 p o v).engines = s.engines := rfl
@[simp] theorem wr64_berths (p o : Nat) (v : W64) : (s.wr64 p o v).berths = s.berths := rfl
@[simp] theorem wr64_boot (p o : Nat) (v : W64) : (s.wr64 p o v).boot = s.boot := rfl
@[simp] theorem wr64_partCmd (p o : Nat) (v : W64) : (s.wr64 p o v).partCmd = s.partCmd := rfl
@[simp] theorem wr64_powerSlots (p o : Nat) (v : W64) : (s.wr64 p o v).powerSlots = s.powerSlots := rfl
@[simp] theorem wr64_transition (p o : Nat) (v : W64) : (s.wr64 p o v).transition = s.transition := rfl
@[simp] theorem wr64_critAt (p o : Nat) (v : W64) : (s.wr64 p o v).critAt = s.critAt := rfl
@[simp] theorem wr64_bar4 (p o : Nat) (v : W64) : (s.wr64 p o v).bar4 = s.bar4 := rfl
@[simp] theorem wr64_pba (p o : Nat) (v : W64) : (s.wr64 p o v).pba = s.pba := rfl
@[simp] theorem wr64_fmask (p o : Nat) (v : W64) : (s.wr64 p o v).fmask = s.fmask := rfl
@[simp] theorem wr64_pend (p o : Nat) (v : W64) : (s.wr64 p o v).pend = s.pend := rfl
@[simp] theorem wr64_busMaster (p o : Nat) (v : W64) : (s.wr64 p o v).busMaster = s.busMaster := rfl
@[simp] theorem wr64_log (p o : Nat) (v : W64) : (s.wr64 p o v).log = s.log := rfl
@[simp] theorem wr64_responding (p o : Nat) (v : W64) : (s.wr64 p o v).responding = s.responding := rfl
@[simp] theorem wr64_hostKey (p o : Nat) (v : W64) : (s.wr64 p o v).hostKey = s.hostKey := rfl
@[simp] theorem wr64_drawn (p o : Nat) (v : W64) : (s.wr64 p o v).drawn = s.drawn := rfl
@[simp] theorem wr64_doe (p o : Nat) (v : W64) : (s.wr64 p o v).doe = s.doe := rfl
@[simp] theorem wr64_doeBuf (p o : Nat) (v : W64) : (s.wr64 p o v).doeBuf = s.doeBuf := rfl
@[simp] theorem wr64_alert (p o : Nat) (v : W64) : (s.wr64 p o v).alert = s.alert := rfl
@[simp] theorem wr64_i3cDyn (p o : Nat) (v : W64) : (s.wr64 p o v).i3cDyn = s.i3cDyn := rfl
@[simp] theorem wr64_i3cOff (p o : Nat) (v : W64) : (s.wr64 p o v).i3cOff = s.i3cOff := rfl
@[simp] theorem wr64_i3cIbi (p o : Nat) (v : W64) : (s.wr64 p o v).i3cIbi = s.i3cIbi := rfl
@[simp] theorem wr64_tapIr (p o : Nat) (v : W64) : (s.wr64 p o v).tapIr = s.tapIr := rfl
@[simp] theorem wr64_cells (p o : Nat) (v : W64) : (s.wr64 p o v).cells = s.cells := rfl
@[simp] theorem wr64_mem (p o : Nat) (v : W64) : (s.wr64 p o v).mem = s.mem := rfl
@[simp] theorem wr64_poison (p o : Nat) (v : W64) : (s.wr64 p o v).poison = s.poison := rfl
@[simp] theorem wr64_blurred (p o : Nat) (v : W64) : (s.wr64 p o v).blurred = s.blurred := rfl
@[simp] theorem wr64_image (p o : Nat) (v : W64) : (s.wr64 p o v).image = s.image := rfl
@[simp] theorem wr64_flash (p o : Nat) (v : W64) : (s.wr64 p o v).flash = s.flash := rfl
@[simp] theorem wr64_withheld (p o : Nat) (v : W64) : (s.wr64 p o v).withheld = s.withheld := rfl
@[simp] theorem wr64_out (p o : Nat) (v : W64) : (s.wr64 p o v).out = s.out := rfl
@[simp] theorem wr64_fresh (p o : Nat) (v : W64) : (s.wr64 p o v).fresh = s.fresh := rfl

/-! put changes regs only. -/

@[simp] theorem put_pending (f : Fld) (v : Nat) : (s.put f v).pending = s.pending := rfl
@[simp] theorem put_pairRead (f : Fld) (v : Nat) : (s.put f v).pairRead = s.pairRead := rfl
@[simp] theorem put_pairWrite (f : Fld) (v : Nat) : (s.put f v).pairWrite = s.pairWrite := rfl
@[simp] theorem put_tide (f : Fld) (v : Nat) : (s.put f v).tide = s.tide := rfl
@[simp] theorem put_landing (f : Fld) (v : Nat) : (s.put f v).landing = s.landing := rfl
@[simp] theorem put_held (f : Fld) (v : Nat) : (s.put f v).held = s.held := rfl
@[simp] theorem put_fullBlocks (f : Fld) (v : Nat) : (s.put f v).fullBlocks = s.fullBlocks := rfl
@[simp] theorem put_sealCtr (f : Fld) (v : Nat) : (s.put f v).sealCtr = s.sealCtr := rfl
@[simp] theorem put_cores (f : Fld) (v : Nat) : (s.put f v).cores = s.cores := rfl
@[simp] theorem put_links (f : Fld) (v : Nat) : (s.put f v).links = s.links := rfl
@[simp] theorem put_ports (f : Fld) (v : Nat) : (s.put f v).ports = s.ports := rfl
@[simp] theorem put_routeWait (f : Fld) (v : Nat) : (s.put f v).routeWait = s.routeWait := rfl
@[simp] theorem put_noRouted (f : Fld) (v : Nat) : (s.put f v).noRouted = s.noRouted := rfl
@[simp] theorem put_applyWaits (f : Fld) (v : Nat) : (s.put f v).applyWaits = s.applyWaits := rfl
@[simp] theorem put_ferries (f : Fld) (v : Nat) : (s.put f v).ferries = s.ferries := rfl
@[simp] theorem put_groups (f : Fld) (v : Nat) : (s.put f v).groups = s.groups := rfl
@[simp] theorem put_objects (f : Fld) (v : Nat) : (s.put f v).objects = s.objects := rfl
@[simp] theorem put_tierQ (f : Fld) (v : Nat) : (s.put f v).tierQ = s.tierQ := rfl
@[simp] theorem put_tierMoves (f : Fld) (v : Nat) : (s.put f v).tierMoves = s.tierMoves := rfl
@[simp] theorem put_indexes (f : Fld) (v : Nat) : (s.put f v).indexes = s.indexes := rfl
@[simp] theorem put_engines (f : Fld) (v : Nat) : (s.put f v).engines = s.engines := rfl
@[simp] theorem put_berths (f : Fld) (v : Nat) : (s.put f v).berths = s.berths := rfl
@[simp] theorem put_boot (f : Fld) (v : Nat) : (s.put f v).boot = s.boot := rfl
@[simp] theorem put_partCmd (f : Fld) (v : Nat) : (s.put f v).partCmd = s.partCmd := rfl
@[simp] theorem put_powerSlots (f : Fld) (v : Nat) : (s.put f v).powerSlots = s.powerSlots := rfl
@[simp] theorem put_transition (f : Fld) (v : Nat) : (s.put f v).transition = s.transition := rfl
@[simp] theorem put_critAt (f : Fld) (v : Nat) : (s.put f v).critAt = s.critAt := rfl
@[simp] theorem put_bar4 (f : Fld) (v : Nat) : (s.put f v).bar4 = s.bar4 := rfl
@[simp] theorem put_pba (f : Fld) (v : Nat) : (s.put f v).pba = s.pba := rfl
@[simp] theorem put_fmask (f : Fld) (v : Nat) : (s.put f v).fmask = s.fmask := rfl
@[simp] theorem put_pend (f : Fld) (v : Nat) : (s.put f v).pend = s.pend := rfl
@[simp] theorem put_busMaster (f : Fld) (v : Nat) : (s.put f v).busMaster = s.busMaster := rfl
@[simp] theorem put_log (f : Fld) (v : Nat) : (s.put f v).log = s.log := rfl
@[simp] theorem put_responding (f : Fld) (v : Nat) : (s.put f v).responding = s.responding := rfl
@[simp] theorem put_hostKey (f : Fld) (v : Nat) : (s.put f v).hostKey = s.hostKey := rfl
@[simp] theorem put_drawn (f : Fld) (v : Nat) : (s.put f v).drawn = s.drawn := rfl
@[simp] theorem put_doe (f : Fld) (v : Nat) : (s.put f v).doe = s.doe := rfl
@[simp] theorem put_doeBuf (f : Fld) (v : Nat) : (s.put f v).doeBuf = s.doeBuf := rfl
@[simp] theorem put_alert (f : Fld) (v : Nat) : (s.put f v).alert = s.alert := rfl
@[simp] theorem put_i3cDyn (f : Fld) (v : Nat) : (s.put f v).i3cDyn = s.i3cDyn := rfl
@[simp] theorem put_i3cOff (f : Fld) (v : Nat) : (s.put f v).i3cOff = s.i3cOff := rfl
@[simp] theorem put_i3cIbi (f : Fld) (v : Nat) : (s.put f v).i3cIbi = s.i3cIbi := rfl
@[simp] theorem put_tapIr (f : Fld) (v : Nat) : (s.put f v).tapIr = s.tapIr := rfl
@[simp] theorem put_cells (f : Fld) (v : Nat) : (s.put f v).cells = s.cells := rfl
@[simp] theorem put_mem (f : Fld) (v : Nat) : (s.put f v).mem = s.mem := rfl
@[simp] theorem put_poison (f : Fld) (v : Nat) : (s.put f v).poison = s.poison := rfl
@[simp] theorem put_blurred (f : Fld) (v : Nat) : (s.put f v).blurred = s.blurred := rfl
@[simp] theorem put_image (f : Fld) (v : Nat) : (s.put f v).image = s.image := rfl
@[simp] theorem put_flash (f : Fld) (v : Nat) : (s.put f v).flash = s.flash := rfl
@[simp] theorem put_withheld (f : Fld) (v : Nat) : (s.put f v).withheld = s.withheld := rfl
@[simp] theorem put_out (f : Fld) (v : Nat) : (s.put f v).out = s.out := rfl
@[simp] theorem put_fresh (f : Fld) (v : Nat) : (s.put f v).fresh = s.fresh := rfl

/-! putBit changes regs only. -/

@[simp] theorem putBit_pending (f : Fld) (b : Bool) : (s.putBit f b).pending = s.pending := rfl
@[simp] theorem putBit_pairRead (f : Fld) (b : Bool) : (s.putBit f b).pairRead = s.pairRead := rfl
@[simp] theorem putBit_pairWrite (f : Fld) (b : Bool) : (s.putBit f b).pairWrite = s.pairWrite := rfl
@[simp] theorem putBit_tide (f : Fld) (b : Bool) : (s.putBit f b).tide = s.tide := rfl
@[simp] theorem putBit_landing (f : Fld) (b : Bool) : (s.putBit f b).landing = s.landing := rfl
@[simp] theorem putBit_held (f : Fld) (b : Bool) : (s.putBit f b).held = s.held := rfl
@[simp] theorem putBit_fullBlocks (f : Fld) (b : Bool) : (s.putBit f b).fullBlocks = s.fullBlocks := rfl
@[simp] theorem putBit_sealCtr (f : Fld) (b : Bool) : (s.putBit f b).sealCtr = s.sealCtr := rfl
@[simp] theorem putBit_cores (f : Fld) (b : Bool) : (s.putBit f b).cores = s.cores := rfl
@[simp] theorem putBit_links (f : Fld) (b : Bool) : (s.putBit f b).links = s.links := rfl
@[simp] theorem putBit_ports (f : Fld) (b : Bool) : (s.putBit f b).ports = s.ports := rfl
@[simp] theorem putBit_routeWait (f : Fld) (b : Bool) : (s.putBit f b).routeWait = s.routeWait := rfl
@[simp] theorem putBit_noRouted (f : Fld) (b : Bool) : (s.putBit f b).noRouted = s.noRouted := rfl
@[simp] theorem putBit_applyWaits (f : Fld) (b : Bool) : (s.putBit f b).applyWaits = s.applyWaits := rfl
@[simp] theorem putBit_ferries (f : Fld) (b : Bool) : (s.putBit f b).ferries = s.ferries := rfl
@[simp] theorem putBit_groups (f : Fld) (b : Bool) : (s.putBit f b).groups = s.groups := rfl
@[simp] theorem putBit_objects (f : Fld) (b : Bool) : (s.putBit f b).objects = s.objects := rfl
@[simp] theorem putBit_tierQ (f : Fld) (b : Bool) : (s.putBit f b).tierQ = s.tierQ := rfl
@[simp] theorem putBit_tierMoves (f : Fld) (b : Bool) : (s.putBit f b).tierMoves = s.tierMoves := rfl
@[simp] theorem putBit_indexes (f : Fld) (b : Bool) : (s.putBit f b).indexes = s.indexes := rfl
@[simp] theorem putBit_engines (f : Fld) (b : Bool) : (s.putBit f b).engines = s.engines := rfl
@[simp] theorem putBit_berths (f : Fld) (b : Bool) : (s.putBit f b).berths = s.berths := rfl
@[simp] theorem putBit_boot (f : Fld) (b : Bool) : (s.putBit f b).boot = s.boot := rfl
@[simp] theorem putBit_partCmd (f : Fld) (b : Bool) : (s.putBit f b).partCmd = s.partCmd := rfl
@[simp] theorem putBit_powerSlots (f : Fld) (b : Bool) : (s.putBit f b).powerSlots = s.powerSlots := rfl
@[simp] theorem putBit_transition (f : Fld) (b : Bool) : (s.putBit f b).transition = s.transition := rfl
@[simp] theorem putBit_critAt (f : Fld) (b : Bool) : (s.putBit f b).critAt = s.critAt := rfl
@[simp] theorem putBit_bar4 (f : Fld) (b : Bool) : (s.putBit f b).bar4 = s.bar4 := rfl
@[simp] theorem putBit_pba (f : Fld) (b : Bool) : (s.putBit f b).pba = s.pba := rfl
@[simp] theorem putBit_fmask (f : Fld) (b : Bool) : (s.putBit f b).fmask = s.fmask := rfl
@[simp] theorem putBit_pend (f : Fld) (b : Bool) : (s.putBit f b).pend = s.pend := rfl
@[simp] theorem putBit_busMaster (f : Fld) (b : Bool) : (s.putBit f b).busMaster = s.busMaster := rfl
@[simp] theorem putBit_log (f : Fld) (b : Bool) : (s.putBit f b).log = s.log := rfl
@[simp] theorem putBit_responding (f : Fld) (b : Bool) : (s.putBit f b).responding = s.responding := rfl
@[simp] theorem putBit_hostKey (f : Fld) (b : Bool) : (s.putBit f b).hostKey = s.hostKey := rfl
@[simp] theorem putBit_drawn (f : Fld) (b : Bool) : (s.putBit f b).drawn = s.drawn := rfl
@[simp] theorem putBit_doe (f : Fld) (b : Bool) : (s.putBit f b).doe = s.doe := rfl
@[simp] theorem putBit_doeBuf (f : Fld) (b : Bool) : (s.putBit f b).doeBuf = s.doeBuf := rfl
@[simp] theorem putBit_alert (f : Fld) (b : Bool) : (s.putBit f b).alert = s.alert := rfl
@[simp] theorem putBit_i3cDyn (f : Fld) (b : Bool) : (s.putBit f b).i3cDyn = s.i3cDyn := rfl
@[simp] theorem putBit_i3cOff (f : Fld) (b : Bool) : (s.putBit f b).i3cOff = s.i3cOff := rfl
@[simp] theorem putBit_i3cIbi (f : Fld) (b : Bool) : (s.putBit f b).i3cIbi = s.i3cIbi := rfl
@[simp] theorem putBit_tapIr (f : Fld) (b : Bool) : (s.putBit f b).tapIr = s.tapIr := rfl
@[simp] theorem putBit_cells (f : Fld) (b : Bool) : (s.putBit f b).cells = s.cells := rfl
@[simp] theorem putBit_mem (f : Fld) (b : Bool) : (s.putBit f b).mem = s.mem := rfl
@[simp] theorem putBit_poison (f : Fld) (b : Bool) : (s.putBit f b).poison = s.poison := rfl
@[simp] theorem putBit_blurred (f : Fld) (b : Bool) : (s.putBit f b).blurred = s.blurred := rfl
@[simp] theorem putBit_image (f : Fld) (b : Bool) : (s.putBit f b).image = s.image := rfl
@[simp] theorem putBit_flash (f : Fld) (b : Bool) : (s.putBit f b).flash = s.flash := rfl
@[simp] theorem putBit_withheld (f : Fld) (b : Bool) : (s.putBit f b).withheld = s.withheld := rfl
@[simp] theorem putBit_out (f : Fld) (b : Bool) : (s.putBit f b).out = s.out := rfl
@[simp] theorem putBit_fresh (f : Fld) (b : Bool) : (s.putBit f b).fresh = s.fresh := rfl

/-! incSat changes regs only. -/

@[simp] theorem incSat_pending (p o : Nat) : (s.incSat p o).pending = s.pending := rfl
@[simp] theorem incSat_pairRead (p o : Nat) : (s.incSat p o).pairRead = s.pairRead := rfl
@[simp] theorem incSat_pairWrite (p o : Nat) : (s.incSat p o).pairWrite = s.pairWrite := rfl
@[simp] theorem incSat_tide (p o : Nat) : (s.incSat p o).tide = s.tide := rfl
@[simp] theorem incSat_landing (p o : Nat) : (s.incSat p o).landing = s.landing := rfl
@[simp] theorem incSat_held (p o : Nat) : (s.incSat p o).held = s.held := rfl
@[simp] theorem incSat_fullBlocks (p o : Nat) : (s.incSat p o).fullBlocks = s.fullBlocks := rfl
@[simp] theorem incSat_sealCtr (p o : Nat) : (s.incSat p o).sealCtr = s.sealCtr := rfl
@[simp] theorem incSat_cores (p o : Nat) : (s.incSat p o).cores = s.cores := rfl
@[simp] theorem incSat_links (p o : Nat) : (s.incSat p o).links = s.links := rfl
@[simp] theorem incSat_ports (p o : Nat) : (s.incSat p o).ports = s.ports := rfl
@[simp] theorem incSat_routeWait (p o : Nat) : (s.incSat p o).routeWait = s.routeWait := rfl
@[simp] theorem incSat_noRouted (p o : Nat) : (s.incSat p o).noRouted = s.noRouted := rfl
@[simp] theorem incSat_applyWaits (p o : Nat) : (s.incSat p o).applyWaits = s.applyWaits := rfl
@[simp] theorem incSat_ferries (p o : Nat) : (s.incSat p o).ferries = s.ferries := rfl
@[simp] theorem incSat_groups (p o : Nat) : (s.incSat p o).groups = s.groups := rfl
@[simp] theorem incSat_objects (p o : Nat) : (s.incSat p o).objects = s.objects := rfl
@[simp] theorem incSat_tierQ (p o : Nat) : (s.incSat p o).tierQ = s.tierQ := rfl
@[simp] theorem incSat_tierMoves (p o : Nat) : (s.incSat p o).tierMoves = s.tierMoves := rfl
@[simp] theorem incSat_indexes (p o : Nat) : (s.incSat p o).indexes = s.indexes := rfl
@[simp] theorem incSat_engines (p o : Nat) : (s.incSat p o).engines = s.engines := rfl
@[simp] theorem incSat_berths (p o : Nat) : (s.incSat p o).berths = s.berths := rfl
@[simp] theorem incSat_boot (p o : Nat) : (s.incSat p o).boot = s.boot := rfl
@[simp] theorem incSat_partCmd (p o : Nat) : (s.incSat p o).partCmd = s.partCmd := rfl
@[simp] theorem incSat_powerSlots (p o : Nat) : (s.incSat p o).powerSlots = s.powerSlots := rfl
@[simp] theorem incSat_transition (p o : Nat) : (s.incSat p o).transition = s.transition := rfl
@[simp] theorem incSat_critAt (p o : Nat) : (s.incSat p o).critAt = s.critAt := rfl
@[simp] theorem incSat_bar4 (p o : Nat) : (s.incSat p o).bar4 = s.bar4 := rfl
@[simp] theorem incSat_pba (p o : Nat) : (s.incSat p o).pba = s.pba := rfl
@[simp] theorem incSat_fmask (p o : Nat) : (s.incSat p o).fmask = s.fmask := rfl
@[simp] theorem incSat_pend (p o : Nat) : (s.incSat p o).pend = s.pend := rfl
@[simp] theorem incSat_busMaster (p o : Nat) : (s.incSat p o).busMaster = s.busMaster := rfl
@[simp] theorem incSat_log (p o : Nat) : (s.incSat p o).log = s.log := rfl
@[simp] theorem incSat_responding (p o : Nat) : (s.incSat p o).responding = s.responding := rfl
@[simp] theorem incSat_hostKey (p o : Nat) : (s.incSat p o).hostKey = s.hostKey := rfl
@[simp] theorem incSat_drawn (p o : Nat) : (s.incSat p o).drawn = s.drawn := rfl
@[simp] theorem incSat_doe (p o : Nat) : (s.incSat p o).doe = s.doe := rfl
@[simp] theorem incSat_doeBuf (p o : Nat) : (s.incSat p o).doeBuf = s.doeBuf := rfl
@[simp] theorem incSat_alert (p o : Nat) : (s.incSat p o).alert = s.alert := rfl
@[simp] theorem incSat_i3cDyn (p o : Nat) : (s.incSat p o).i3cDyn = s.i3cDyn := rfl
@[simp] theorem incSat_i3cOff (p o : Nat) : (s.incSat p o).i3cOff = s.i3cOff := rfl
@[simp] theorem incSat_i3cIbi (p o : Nat) : (s.incSat p o).i3cIbi = s.i3cIbi := rfl
@[simp] theorem incSat_tapIr (p o : Nat) : (s.incSat p o).tapIr = s.tapIr := rfl
@[simp] theorem incSat_cells (p o : Nat) : (s.incSat p o).cells = s.cells := rfl
@[simp] theorem incSat_mem (p o : Nat) : (s.incSat p o).mem = s.mem := rfl
@[simp] theorem incSat_poison (p o : Nat) : (s.incSat p o).poison = s.poison := rfl
@[simp] theorem incSat_blurred (p o : Nat) : (s.incSat p o).blurred = s.blurred := rfl
@[simp] theorem incSat_image (p o : Nat) : (s.incSat p o).image = s.image := rfl
@[simp] theorem incSat_flash (p o : Nat) : (s.incSat p o).flash = s.flash := rfl
@[simp] theorem incSat_withheld (p o : Nat) : (s.incSat p o).withheld = s.withheld := rfl
@[simp] theorem incSat_out (p o : Nat) : (s.incSat p o).out = s.out := rfl
@[simp] theorem incSat_fresh (p o : Nat) : (s.incSat p o).fresh = s.fresh := rfl

/-! addSat changes regs only. -/

@[simp] theorem addSat_pending (p o n : Nat) : (s.addSat p o n).pending = s.pending := rfl
@[simp] theorem addSat_pairRead (p o n : Nat) : (s.addSat p o n).pairRead = s.pairRead := rfl
@[simp] theorem addSat_pairWrite (p o n : Nat) : (s.addSat p o n).pairWrite = s.pairWrite := rfl
@[simp] theorem addSat_tide (p o n : Nat) : (s.addSat p o n).tide = s.tide := rfl
@[simp] theorem addSat_landing (p o n : Nat) : (s.addSat p o n).landing = s.landing := rfl
@[simp] theorem addSat_held (p o n : Nat) : (s.addSat p o n).held = s.held := rfl
@[simp] theorem addSat_fullBlocks (p o n : Nat) : (s.addSat p o n).fullBlocks = s.fullBlocks := rfl
@[simp] theorem addSat_sealCtr (p o n : Nat) : (s.addSat p o n).sealCtr = s.sealCtr := rfl
@[simp] theorem addSat_cores (p o n : Nat) : (s.addSat p o n).cores = s.cores := rfl
@[simp] theorem addSat_links (p o n : Nat) : (s.addSat p o n).links = s.links := rfl
@[simp] theorem addSat_ports (p o n : Nat) : (s.addSat p o n).ports = s.ports := rfl
@[simp] theorem addSat_routeWait (p o n : Nat) : (s.addSat p o n).routeWait = s.routeWait := rfl
@[simp] theorem addSat_noRouted (p o n : Nat) : (s.addSat p o n).noRouted = s.noRouted := rfl
@[simp] theorem addSat_applyWaits (p o n : Nat) : (s.addSat p o n).applyWaits = s.applyWaits := rfl
@[simp] theorem addSat_ferries (p o n : Nat) : (s.addSat p o n).ferries = s.ferries := rfl
@[simp] theorem addSat_groups (p o n : Nat) : (s.addSat p o n).groups = s.groups := rfl
@[simp] theorem addSat_objects (p o n : Nat) : (s.addSat p o n).objects = s.objects := rfl
@[simp] theorem addSat_tierQ (p o n : Nat) : (s.addSat p o n).tierQ = s.tierQ := rfl
@[simp] theorem addSat_tierMoves (p o n : Nat) : (s.addSat p o n).tierMoves = s.tierMoves := rfl
@[simp] theorem addSat_indexes (p o n : Nat) : (s.addSat p o n).indexes = s.indexes := rfl
@[simp] theorem addSat_engines (p o n : Nat) : (s.addSat p o n).engines = s.engines := rfl
@[simp] theorem addSat_berths (p o n : Nat) : (s.addSat p o n).berths = s.berths := rfl
@[simp] theorem addSat_boot (p o n : Nat) : (s.addSat p o n).boot = s.boot := rfl
@[simp] theorem addSat_partCmd (p o n : Nat) : (s.addSat p o n).partCmd = s.partCmd := rfl
@[simp] theorem addSat_powerSlots (p o n : Nat) : (s.addSat p o n).powerSlots = s.powerSlots := rfl
@[simp] theorem addSat_transition (p o n : Nat) : (s.addSat p o n).transition = s.transition := rfl
@[simp] theorem addSat_critAt (p o n : Nat) : (s.addSat p o n).critAt = s.critAt := rfl
@[simp] theorem addSat_bar4 (p o n : Nat) : (s.addSat p o n).bar4 = s.bar4 := rfl
@[simp] theorem addSat_pba (p o n : Nat) : (s.addSat p o n).pba = s.pba := rfl
@[simp] theorem addSat_fmask (p o n : Nat) : (s.addSat p o n).fmask = s.fmask := rfl
@[simp] theorem addSat_pend (p o n : Nat) : (s.addSat p o n).pend = s.pend := rfl
@[simp] theorem addSat_busMaster (p o n : Nat) : (s.addSat p o n).busMaster = s.busMaster := rfl
@[simp] theorem addSat_log (p o n : Nat) : (s.addSat p o n).log = s.log := rfl
@[simp] theorem addSat_responding (p o n : Nat) : (s.addSat p o n).responding = s.responding := rfl
@[simp] theorem addSat_hostKey (p o n : Nat) : (s.addSat p o n).hostKey = s.hostKey := rfl
@[simp] theorem addSat_drawn (p o n : Nat) : (s.addSat p o n).drawn = s.drawn := rfl
@[simp] theorem addSat_doe (p o n : Nat) : (s.addSat p o n).doe = s.doe := rfl
@[simp] theorem addSat_doeBuf (p o n : Nat) : (s.addSat p o n).doeBuf = s.doeBuf := rfl
@[simp] theorem addSat_alert (p o n : Nat) : (s.addSat p o n).alert = s.alert := rfl
@[simp] theorem addSat_i3cDyn (p o n : Nat) : (s.addSat p o n).i3cDyn = s.i3cDyn := rfl
@[simp] theorem addSat_i3cOff (p o n : Nat) : (s.addSat p o n).i3cOff = s.i3cOff := rfl
@[simp] theorem addSat_i3cIbi (p o n : Nat) : (s.addSat p o n).i3cIbi = s.i3cIbi := rfl
@[simp] theorem addSat_tapIr (p o n : Nat) : (s.addSat p o n).tapIr = s.tapIr := rfl
@[simp] theorem addSat_cells (p o n : Nat) : (s.addSat p o n).cells = s.cells := rfl
@[simp] theorem addSat_mem (p o n : Nat) : (s.addSat p o n).mem = s.mem := rfl
@[simp] theorem addSat_poison (p o n : Nat) : (s.addSat p o n).poison = s.poison := rfl
@[simp] theorem addSat_blurred (p o n : Nat) : (s.addSat p o n).blurred = s.blurred := rfl
@[simp] theorem addSat_image (p o n : Nat) : (s.addSat p o n).image = s.image := rfl
@[simp] theorem addSat_flash (p o n : Nat) : (s.addSat p o n).flash = s.flash := rfl
@[simp] theorem addSat_withheld (p o n : Nat) : (s.addSat p o n).withheld = s.withheld := rfl
@[simp] theorem addSat_out (p o n : Nat) : (s.addSat p o n).out = s.out := rfl
@[simp] theorem addSat_fresh (p o n : Nat) : (s.addSat p o n).fresh = s.fresh := rfl

/-! add64 changes regs only. -/

@[simp] theorem add64_pending (p o n : Nat) : (s.add64 p o n).pending = s.pending := rfl
@[simp] theorem add64_pairRead (p o n : Nat) : (s.add64 p o n).pairRead = s.pairRead := rfl
@[simp] theorem add64_pairWrite (p o n : Nat) : (s.add64 p o n).pairWrite = s.pairWrite := rfl
@[simp] theorem add64_tide (p o n : Nat) : (s.add64 p o n).tide = s.tide := rfl
@[simp] theorem add64_landing (p o n : Nat) : (s.add64 p o n).landing = s.landing := rfl
@[simp] theorem add64_held (p o n : Nat) : (s.add64 p o n).held = s.held := rfl
@[simp] theorem add64_fullBlocks (p o n : Nat) : (s.add64 p o n).fullBlocks = s.fullBlocks := rfl
@[simp] theorem add64_sealCtr (p o n : Nat) : (s.add64 p o n).sealCtr = s.sealCtr := rfl
@[simp] theorem add64_cores (p o n : Nat) : (s.add64 p o n).cores = s.cores := rfl
@[simp] theorem add64_links (p o n : Nat) : (s.add64 p o n).links = s.links := rfl
@[simp] theorem add64_ports (p o n : Nat) : (s.add64 p o n).ports = s.ports := rfl
@[simp] theorem add64_routeWait (p o n : Nat) : (s.add64 p o n).routeWait = s.routeWait := rfl
@[simp] theorem add64_noRouted (p o n : Nat) : (s.add64 p o n).noRouted = s.noRouted := rfl
@[simp] theorem add64_applyWaits (p o n : Nat) : (s.add64 p o n).applyWaits = s.applyWaits := rfl
@[simp] theorem add64_ferries (p o n : Nat) : (s.add64 p o n).ferries = s.ferries := rfl
@[simp] theorem add64_groups (p o n : Nat) : (s.add64 p o n).groups = s.groups := rfl
@[simp] theorem add64_objects (p o n : Nat) : (s.add64 p o n).objects = s.objects := rfl
@[simp] theorem add64_tierQ (p o n : Nat) : (s.add64 p o n).tierQ = s.tierQ := rfl
@[simp] theorem add64_tierMoves (p o n : Nat) : (s.add64 p o n).tierMoves = s.tierMoves := rfl
@[simp] theorem add64_indexes (p o n : Nat) : (s.add64 p o n).indexes = s.indexes := rfl
@[simp] theorem add64_engines (p o n : Nat) : (s.add64 p o n).engines = s.engines := rfl
@[simp] theorem add64_berths (p o n : Nat) : (s.add64 p o n).berths = s.berths := rfl
@[simp] theorem add64_boot (p o n : Nat) : (s.add64 p o n).boot = s.boot := rfl
@[simp] theorem add64_partCmd (p o n : Nat) : (s.add64 p o n).partCmd = s.partCmd := rfl
@[simp] theorem add64_powerSlots (p o n : Nat) : (s.add64 p o n).powerSlots = s.powerSlots := rfl
@[simp] theorem add64_transition (p o n : Nat) : (s.add64 p o n).transition = s.transition := rfl
@[simp] theorem add64_critAt (p o n : Nat) : (s.add64 p o n).critAt = s.critAt := rfl
@[simp] theorem add64_bar4 (p o n : Nat) : (s.add64 p o n).bar4 = s.bar4 := rfl
@[simp] theorem add64_pba (p o n : Nat) : (s.add64 p o n).pba = s.pba := rfl
@[simp] theorem add64_fmask (p o n : Nat) : (s.add64 p o n).fmask = s.fmask := rfl
@[simp] theorem add64_pend (p o n : Nat) : (s.add64 p o n).pend = s.pend := rfl
@[simp] theorem add64_busMaster (p o n : Nat) : (s.add64 p o n).busMaster = s.busMaster := rfl
@[simp] theorem add64_log (p o n : Nat) : (s.add64 p o n).log = s.log := rfl
@[simp] theorem add64_responding (p o n : Nat) : (s.add64 p o n).responding = s.responding := rfl
@[simp] theorem add64_hostKey (p o n : Nat) : (s.add64 p o n).hostKey = s.hostKey := rfl
@[simp] theorem add64_drawn (p o n : Nat) : (s.add64 p o n).drawn = s.drawn := rfl
@[simp] theorem add64_doe (p o n : Nat) : (s.add64 p o n).doe = s.doe := rfl
@[simp] theorem add64_doeBuf (p o n : Nat) : (s.add64 p o n).doeBuf = s.doeBuf := rfl
@[simp] theorem add64_alert (p o n : Nat) : (s.add64 p o n).alert = s.alert := rfl
@[simp] theorem add64_i3cDyn (p o n : Nat) : (s.add64 p o n).i3cDyn = s.i3cDyn := rfl
@[simp] theorem add64_i3cOff (p o n : Nat) : (s.add64 p o n).i3cOff = s.i3cOff := rfl
@[simp] theorem add64_i3cIbi (p o n : Nat) : (s.add64 p o n).i3cIbi = s.i3cIbi := rfl
@[simp] theorem add64_tapIr (p o n : Nat) : (s.add64 p o n).tapIr = s.tapIr := rfl
@[simp] theorem add64_cells (p o n : Nat) : (s.add64 p o n).cells = s.cells := rfl
@[simp] theorem add64_mem (p o n : Nat) : (s.add64 p o n).mem = s.mem := rfl
@[simp] theorem add64_poison (p o n : Nat) : (s.add64 p o n).poison = s.poison := rfl
@[simp] theorem add64_blurred (p o n : Nat) : (s.add64 p o n).blurred = s.blurred := rfl
@[simp] theorem add64_image (p o n : Nat) : (s.add64 p o n).image = s.image := rfl
@[simp] theorem add64_flash (p o n : Nat) : (s.add64 p o n).flash = s.flash := rfl
@[simp] theorem add64_withheld (p o n : Nat) : (s.add64 p o n).withheld = s.withheld := rfl
@[simp] theorem add64_out (p o n : Nat) : (s.add64 p o n).out = s.out := rfl
@[simp] theorem add64_fresh (p o n : Nat) : (s.add64 p o n).fresh = s.fresh := rfl

/-! wrBar4 changes bar4 only. -/

@[simp] theorem wrBar4_pending (f o : Nat) (v : W32) : (s.wrBar4 f o v).pending = s.pending := rfl
@[simp] theorem wrBar4_regs (f o : Nat) (v : W32) : (s.wrBar4 f o v).regs = s.regs := rfl
@[simp] theorem wrBar4_pairRead (f o : Nat) (v : W32) : (s.wrBar4 f o v).pairRead = s.pairRead := rfl
@[simp] theorem wrBar4_pairWrite (f o : Nat) (v : W32) : (s.wrBar4 f o v).pairWrite = s.pairWrite := rfl
@[simp] theorem wrBar4_tide (f o : Nat) (v : W32) : (s.wrBar4 f o v).tide = s.tide := rfl
@[simp] theorem wrBar4_landing (f o : Nat) (v : W32) : (s.wrBar4 f o v).landing = s.landing := rfl
@[simp] theorem wrBar4_held (f o : Nat) (v : W32) : (s.wrBar4 f o v).held = s.held := rfl
@[simp] theorem wrBar4_fullBlocks (f o : Nat) (v : W32) : (s.wrBar4 f o v).fullBlocks = s.fullBlocks := rfl
@[simp] theorem wrBar4_sealCtr (f o : Nat) (v : W32) : (s.wrBar4 f o v).sealCtr = s.sealCtr := rfl
@[simp] theorem wrBar4_cores (f o : Nat) (v : W32) : (s.wrBar4 f o v).cores = s.cores := rfl
@[simp] theorem wrBar4_links (f o : Nat) (v : W32) : (s.wrBar4 f o v).links = s.links := rfl
@[simp] theorem wrBar4_ports (f o : Nat) (v : W32) : (s.wrBar4 f o v).ports = s.ports := rfl
@[simp] theorem wrBar4_routeWait (f o : Nat) (v : W32) : (s.wrBar4 f o v).routeWait = s.routeWait := rfl
@[simp] theorem wrBar4_noRouted (f o : Nat) (v : W32) : (s.wrBar4 f o v).noRouted = s.noRouted := rfl
@[simp] theorem wrBar4_applyWaits (f o : Nat) (v : W32) : (s.wrBar4 f o v).applyWaits = s.applyWaits := rfl
@[simp] theorem wrBar4_ferries (f o : Nat) (v : W32) : (s.wrBar4 f o v).ferries = s.ferries := rfl
@[simp] theorem wrBar4_groups (f o : Nat) (v : W32) : (s.wrBar4 f o v).groups = s.groups := rfl
@[simp] theorem wrBar4_objects (f o : Nat) (v : W32) : (s.wrBar4 f o v).objects = s.objects := rfl
@[simp] theorem wrBar4_tierQ (f o : Nat) (v : W32) : (s.wrBar4 f o v).tierQ = s.tierQ := rfl
@[simp] theorem wrBar4_tierMoves (f o : Nat) (v : W32) : (s.wrBar4 f o v).tierMoves = s.tierMoves := rfl
@[simp] theorem wrBar4_indexes (f o : Nat) (v : W32) : (s.wrBar4 f o v).indexes = s.indexes := rfl
@[simp] theorem wrBar4_engines (f o : Nat) (v : W32) : (s.wrBar4 f o v).engines = s.engines := rfl
@[simp] theorem wrBar4_berths (f o : Nat) (v : W32) : (s.wrBar4 f o v).berths = s.berths := rfl
@[simp] theorem wrBar4_boot (f o : Nat) (v : W32) : (s.wrBar4 f o v).boot = s.boot := rfl
@[simp] theorem wrBar4_partCmd (f o : Nat) (v : W32) : (s.wrBar4 f o v).partCmd = s.partCmd := rfl
@[simp] theorem wrBar4_powerSlots (f o : Nat) (v : W32) : (s.wrBar4 f o v).powerSlots = s.powerSlots := rfl
@[simp] theorem wrBar4_transition (f o : Nat) (v : W32) : (s.wrBar4 f o v).transition = s.transition := rfl
@[simp] theorem wrBar4_critAt (f o : Nat) (v : W32) : (s.wrBar4 f o v).critAt = s.critAt := rfl
@[simp] theorem wrBar4_pba (f o : Nat) (v : W32) : (s.wrBar4 f o v).pba = s.pba := rfl
@[simp] theorem wrBar4_fmask (f o : Nat) (v : W32) : (s.wrBar4 f o v).fmask = s.fmask := rfl
@[simp] theorem wrBar4_pend (f o : Nat) (v : W32) : (s.wrBar4 f o v).pend = s.pend := rfl
@[simp] theorem wrBar4_busMaster (f o : Nat) (v : W32) : (s.wrBar4 f o v).busMaster = s.busMaster := rfl
@[simp] theorem wrBar4_log (f o : Nat) (v : W32) : (s.wrBar4 f o v).log = s.log := rfl
@[simp] theorem wrBar4_responding (f o : Nat) (v : W32) : (s.wrBar4 f o v).responding = s.responding := rfl
@[simp] theorem wrBar4_hostKey (f o : Nat) (v : W32) : (s.wrBar4 f o v).hostKey = s.hostKey := rfl
@[simp] theorem wrBar4_drawn (f o : Nat) (v : W32) : (s.wrBar4 f o v).drawn = s.drawn := rfl
@[simp] theorem wrBar4_doe (f o : Nat) (v : W32) : (s.wrBar4 f o v).doe = s.doe := rfl
@[simp] theorem wrBar4_doeBuf (f o : Nat) (v : W32) : (s.wrBar4 f o v).doeBuf = s.doeBuf := rfl
@[simp] theorem wrBar4_alert (f o : Nat) (v : W32) : (s.wrBar4 f o v).alert = s.alert := rfl
@[simp] theorem wrBar4_i3cDyn (f o : Nat) (v : W32) : (s.wrBar4 f o v).i3cDyn = s.i3cDyn := rfl
@[simp] theorem wrBar4_i3cOff (f o : Nat) (v : W32) : (s.wrBar4 f o v).i3cOff = s.i3cOff := rfl
@[simp] theorem wrBar4_i3cIbi (f o : Nat) (v : W32) : (s.wrBar4 f o v).i3cIbi = s.i3cIbi := rfl
@[simp] theorem wrBar4_tapIr (f o : Nat) (v : W32) : (s.wrBar4 f o v).tapIr = s.tapIr := rfl
@[simp] theorem wrBar4_cells (f o : Nat) (v : W32) : (s.wrBar4 f o v).cells = s.cells := rfl
@[simp] theorem wrBar4_mem (f o : Nat) (v : W32) : (s.wrBar4 f o v).mem = s.mem := rfl
@[simp] theorem wrBar4_poison (f o : Nat) (v : W32) : (s.wrBar4 f o v).poison = s.poison := rfl
@[simp] theorem wrBar4_blurred (f o : Nat) (v : W32) : (s.wrBar4 f o v).blurred = s.blurred := rfl
@[simp] theorem wrBar4_image (f o : Nat) (v : W32) : (s.wrBar4 f o v).image = s.image := rfl
@[simp] theorem wrBar4_flash (f o : Nat) (v : W32) : (s.wrBar4 f o v).flash = s.flash := rfl
@[simp] theorem wrBar4_withheld (f o : Nat) (v : W32) : (s.wrBar4 f o v).withheld = s.withheld := rfl
@[simp] theorem wrBar4_out (f o : Nat) (v : W32) : (s.wrBar4 f o v).out = s.out := rfl
@[simp] theorem wrBar4_fresh (f o : Nat) (v : W32) : (s.wrBar4 f o v).fresh = s.fresh := rfl

/-! setCore changes cores only. -/

@[simp] theorem setCore_pending (id : CoreId) (c : Core) : (s.setCore id c).pending = s.pending := rfl
@[simp] theorem setCore_regs (id : CoreId) (c : Core) : (s.setCore id c).regs = s.regs := rfl
@[simp] theorem setCore_pairRead (id : CoreId) (c : Core) : (s.setCore id c).pairRead = s.pairRead := rfl
@[simp] theorem setCore_pairWrite (id : CoreId) (c : Core) : (s.setCore id c).pairWrite = s.pairWrite := rfl
@[simp] theorem setCore_tide (id : CoreId) (c : Core) : (s.setCore id c).tide = s.tide := rfl
@[simp] theorem setCore_landing (id : CoreId) (c : Core) : (s.setCore id c).landing = s.landing := rfl
@[simp] theorem setCore_held (id : CoreId) (c : Core) : (s.setCore id c).held = s.held := rfl
@[simp] theorem setCore_fullBlocks (id : CoreId) (c : Core) : (s.setCore id c).fullBlocks = s.fullBlocks := rfl
@[simp] theorem setCore_sealCtr (id : CoreId) (c : Core) : (s.setCore id c).sealCtr = s.sealCtr := rfl
@[simp] theorem setCore_links (id : CoreId) (c : Core) : (s.setCore id c).links = s.links := rfl
@[simp] theorem setCore_ports (id : CoreId) (c : Core) : (s.setCore id c).ports = s.ports := rfl
@[simp] theorem setCore_routeWait (id : CoreId) (c : Core) : (s.setCore id c).routeWait = s.routeWait := rfl
@[simp] theorem setCore_noRouted (id : CoreId) (c : Core) : (s.setCore id c).noRouted = s.noRouted := rfl
@[simp] theorem setCore_applyWaits (id : CoreId) (c : Core) : (s.setCore id c).applyWaits = s.applyWaits := rfl
@[simp] theorem setCore_ferries (id : CoreId) (c : Core) : (s.setCore id c).ferries = s.ferries := rfl
@[simp] theorem setCore_groups (id : CoreId) (c : Core) : (s.setCore id c).groups = s.groups := rfl
@[simp] theorem setCore_objects (id : CoreId) (c : Core) : (s.setCore id c).objects = s.objects := rfl
@[simp] theorem setCore_tierQ (id : CoreId) (c : Core) : (s.setCore id c).tierQ = s.tierQ := rfl
@[simp] theorem setCore_tierMoves (id : CoreId) (c : Core) : (s.setCore id c).tierMoves = s.tierMoves := rfl
@[simp] theorem setCore_indexes (id : CoreId) (c : Core) : (s.setCore id c).indexes = s.indexes := rfl
@[simp] theorem setCore_engines (id : CoreId) (c : Core) : (s.setCore id c).engines = s.engines := rfl
@[simp] theorem setCore_berths (id : CoreId) (c : Core) : (s.setCore id c).berths = s.berths := rfl
@[simp] theorem setCore_boot (id : CoreId) (c : Core) : (s.setCore id c).boot = s.boot := rfl
@[simp] theorem setCore_partCmd (id : CoreId) (c : Core) : (s.setCore id c).partCmd = s.partCmd := rfl
@[simp] theorem setCore_powerSlots (id : CoreId) (c : Core) : (s.setCore id c).powerSlots = s.powerSlots := rfl
@[simp] theorem setCore_transition (id : CoreId) (c : Core) : (s.setCore id c).transition = s.transition := rfl
@[simp] theorem setCore_critAt (id : CoreId) (c : Core) : (s.setCore id c).critAt = s.critAt := rfl
@[simp] theorem setCore_bar4 (id : CoreId) (c : Core) : (s.setCore id c).bar4 = s.bar4 := rfl
@[simp] theorem setCore_pba (id : CoreId) (c : Core) : (s.setCore id c).pba = s.pba := rfl
@[simp] theorem setCore_fmask (id : CoreId) (c : Core) : (s.setCore id c).fmask = s.fmask := rfl
@[simp] theorem setCore_pend (id : CoreId) (c : Core) : (s.setCore id c).pend = s.pend := rfl
@[simp] theorem setCore_busMaster (id : CoreId) (c : Core) : (s.setCore id c).busMaster = s.busMaster := rfl
@[simp] theorem setCore_log (id : CoreId) (c : Core) : (s.setCore id c).log = s.log := rfl
@[simp] theorem setCore_responding (id : CoreId) (c : Core) : (s.setCore id c).responding = s.responding := rfl
@[simp] theorem setCore_hostKey (id : CoreId) (c : Core) : (s.setCore id c).hostKey = s.hostKey := rfl
@[simp] theorem setCore_drawn (id : CoreId) (c : Core) : (s.setCore id c).drawn = s.drawn := rfl
@[simp] theorem setCore_doe (id : CoreId) (c : Core) : (s.setCore id c).doe = s.doe := rfl
@[simp] theorem setCore_doeBuf (id : CoreId) (c : Core) : (s.setCore id c).doeBuf = s.doeBuf := rfl
@[simp] theorem setCore_alert (id : CoreId) (c : Core) : (s.setCore id c).alert = s.alert := rfl
@[simp] theorem setCore_i3cDyn (id : CoreId) (c : Core) : (s.setCore id c).i3cDyn = s.i3cDyn := rfl
@[simp] theorem setCore_i3cOff (id : CoreId) (c : Core) : (s.setCore id c).i3cOff = s.i3cOff := rfl
@[simp] theorem setCore_i3cIbi (id : CoreId) (c : Core) : (s.setCore id c).i3cIbi = s.i3cIbi := rfl
@[simp] theorem setCore_tapIr (id : CoreId) (c : Core) : (s.setCore id c).tapIr = s.tapIr := rfl
@[simp] theorem setCore_cells (id : CoreId) (c : Core) : (s.setCore id c).cells = s.cells := rfl
@[simp] theorem setCore_mem (id : CoreId) (c : Core) : (s.setCore id c).mem = s.mem := rfl
@[simp] theorem setCore_poison (id : CoreId) (c : Core) : (s.setCore id c).poison = s.poison := rfl
@[simp] theorem setCore_blurred (id : CoreId) (c : Core) : (s.setCore id c).blurred = s.blurred := rfl
@[simp] theorem setCore_image (id : CoreId) (c : Core) : (s.setCore id c).image = s.image := rfl
@[simp] theorem setCore_flash (id : CoreId) (c : Core) : (s.setCore id c).flash = s.flash := rfl
@[simp] theorem setCore_withheld (id : CoreId) (c : Core) : (s.setCore id c).withheld = s.withheld := rfl
@[simp] theorem setCore_out (id : CoreId) (c : Core) : (s.setCore id c).out = s.out := rfl
@[simp] theorem setCore_fresh (id : CoreId) (c : Core) : (s.setCore id c).fresh = s.fresh := rfl

/-! setLink changes links only. -/

@[simp] theorem setLink_pending (n : Nat) (x : LinkRun) : (s.setLink n x).pending = s.pending := rfl
@[simp] theorem setLink_regs (n : Nat) (x : LinkRun) : (s.setLink n x).regs = s.regs := rfl
@[simp] theorem setLink_pairRead (n : Nat) (x : LinkRun) : (s.setLink n x).pairRead = s.pairRead := rfl
@[simp] theorem setLink_pairWrite (n : Nat) (x : LinkRun) : (s.setLink n x).pairWrite = s.pairWrite := rfl
@[simp] theorem setLink_tide (n : Nat) (x : LinkRun) : (s.setLink n x).tide = s.tide := rfl
@[simp] theorem setLink_landing (n : Nat) (x : LinkRun) : (s.setLink n x).landing = s.landing := rfl
@[simp] theorem setLink_held (n : Nat) (x : LinkRun) : (s.setLink n x).held = s.held := rfl
@[simp] theorem setLink_fullBlocks (n : Nat) (x : LinkRun) : (s.setLink n x).fullBlocks = s.fullBlocks := rfl
@[simp] theorem setLink_sealCtr (n : Nat) (x : LinkRun) : (s.setLink n x).sealCtr = s.sealCtr := rfl
@[simp] theorem setLink_cores (n : Nat) (x : LinkRun) : (s.setLink n x).cores = s.cores := rfl
@[simp] theorem setLink_ports (n : Nat) (x : LinkRun) : (s.setLink n x).ports = s.ports := rfl
@[simp] theorem setLink_routeWait (n : Nat) (x : LinkRun) : (s.setLink n x).routeWait = s.routeWait := rfl
@[simp] theorem setLink_noRouted (n : Nat) (x : LinkRun) : (s.setLink n x).noRouted = s.noRouted := rfl
@[simp] theorem setLink_applyWaits (n : Nat) (x : LinkRun) : (s.setLink n x).applyWaits = s.applyWaits := rfl
@[simp] theorem setLink_ferries (n : Nat) (x : LinkRun) : (s.setLink n x).ferries = s.ferries := rfl
@[simp] theorem setLink_groups (n : Nat) (x : LinkRun) : (s.setLink n x).groups = s.groups := rfl
@[simp] theorem setLink_objects (n : Nat) (x : LinkRun) : (s.setLink n x).objects = s.objects := rfl
@[simp] theorem setLink_tierQ (n : Nat) (x : LinkRun) : (s.setLink n x).tierQ = s.tierQ := rfl
@[simp] theorem setLink_tierMoves (n : Nat) (x : LinkRun) : (s.setLink n x).tierMoves = s.tierMoves := rfl
@[simp] theorem setLink_indexes (n : Nat) (x : LinkRun) : (s.setLink n x).indexes = s.indexes := rfl
@[simp] theorem setLink_engines (n : Nat) (x : LinkRun) : (s.setLink n x).engines = s.engines := rfl
@[simp] theorem setLink_berths (n : Nat) (x : LinkRun) : (s.setLink n x).berths = s.berths := rfl
@[simp] theorem setLink_boot (n : Nat) (x : LinkRun) : (s.setLink n x).boot = s.boot := rfl
@[simp] theorem setLink_partCmd (n : Nat) (x : LinkRun) : (s.setLink n x).partCmd = s.partCmd := rfl
@[simp] theorem setLink_powerSlots (n : Nat) (x : LinkRun) : (s.setLink n x).powerSlots = s.powerSlots := rfl
@[simp] theorem setLink_transition (n : Nat) (x : LinkRun) : (s.setLink n x).transition = s.transition := rfl
@[simp] theorem setLink_critAt (n : Nat) (x : LinkRun) : (s.setLink n x).critAt = s.critAt := rfl
@[simp] theorem setLink_bar4 (n : Nat) (x : LinkRun) : (s.setLink n x).bar4 = s.bar4 := rfl
@[simp] theorem setLink_pba (n : Nat) (x : LinkRun) : (s.setLink n x).pba = s.pba := rfl
@[simp] theorem setLink_fmask (n : Nat) (x : LinkRun) : (s.setLink n x).fmask = s.fmask := rfl
@[simp] theorem setLink_pend (n : Nat) (x : LinkRun) : (s.setLink n x).pend = s.pend := rfl
@[simp] theorem setLink_busMaster (n : Nat) (x : LinkRun) : (s.setLink n x).busMaster = s.busMaster := rfl
@[simp] theorem setLink_log (n : Nat) (x : LinkRun) : (s.setLink n x).log = s.log := rfl
@[simp] theorem setLink_responding (n : Nat) (x : LinkRun) : (s.setLink n x).responding = s.responding := rfl
@[simp] theorem setLink_hostKey (n : Nat) (x : LinkRun) : (s.setLink n x).hostKey = s.hostKey := rfl
@[simp] theorem setLink_drawn (n : Nat) (x : LinkRun) : (s.setLink n x).drawn = s.drawn := rfl
@[simp] theorem setLink_doe (n : Nat) (x : LinkRun) : (s.setLink n x).doe = s.doe := rfl
@[simp] theorem setLink_doeBuf (n : Nat) (x : LinkRun) : (s.setLink n x).doeBuf = s.doeBuf := rfl
@[simp] theorem setLink_alert (n : Nat) (x : LinkRun) : (s.setLink n x).alert = s.alert := rfl
@[simp] theorem setLink_i3cDyn (n : Nat) (x : LinkRun) : (s.setLink n x).i3cDyn = s.i3cDyn := rfl
@[simp] theorem setLink_i3cOff (n : Nat) (x : LinkRun) : (s.setLink n x).i3cOff = s.i3cOff := rfl
@[simp] theorem setLink_i3cIbi (n : Nat) (x : LinkRun) : (s.setLink n x).i3cIbi = s.i3cIbi := rfl
@[simp] theorem setLink_tapIr (n : Nat) (x : LinkRun) : (s.setLink n x).tapIr = s.tapIr := rfl
@[simp] theorem setLink_cells (n : Nat) (x : LinkRun) : (s.setLink n x).cells = s.cells := rfl
@[simp] theorem setLink_mem (n : Nat) (x : LinkRun) : (s.setLink n x).mem = s.mem := rfl
@[simp] theorem setLink_poison (n : Nat) (x : LinkRun) : (s.setLink n x).poison = s.poison := rfl
@[simp] theorem setLink_blurred (n : Nat) (x : LinkRun) : (s.setLink n x).blurred = s.blurred := rfl
@[simp] theorem setLink_image (n : Nat) (x : LinkRun) : (s.setLink n x).image = s.image := rfl
@[simp] theorem setLink_flash (n : Nat) (x : LinkRun) : (s.setLink n x).flash = s.flash := rfl
@[simp] theorem setLink_withheld (n : Nat) (x : LinkRun) : (s.setLink n x).withheld = s.withheld := rfl
@[simp] theorem setLink_out (n : Nat) (x : LinkRun) : (s.setLink n x).out = s.out := rfl
@[simp] theorem setLink_fresh (n : Nat) (x : LinkRun) : (s.setLink n x).fresh = s.fresh := rfl

/-! setFerry changes ferries only. -/

@[simp] theorem setFerry_pending (n : Nat) (x : FerryRun) : (s.setFerry n x).pending = s.pending := rfl
@[simp] theorem setFerry_regs (n : Nat) (x : FerryRun) : (s.setFerry n x).regs = s.regs := rfl
@[simp] theorem setFerry_pairRead (n : Nat) (x : FerryRun) : (s.setFerry n x).pairRead = s.pairRead := rfl
@[simp] theorem setFerry_pairWrite (n : Nat) (x : FerryRun) : (s.setFerry n x).pairWrite = s.pairWrite := rfl
@[simp] theorem setFerry_tide (n : Nat) (x : FerryRun) : (s.setFerry n x).tide = s.tide := rfl
@[simp] theorem setFerry_landing (n : Nat) (x : FerryRun) : (s.setFerry n x).landing = s.landing := rfl
@[simp] theorem setFerry_held (n : Nat) (x : FerryRun) : (s.setFerry n x).held = s.held := rfl
@[simp] theorem setFerry_fullBlocks (n : Nat) (x : FerryRun) : (s.setFerry n x).fullBlocks = s.fullBlocks := rfl
@[simp] theorem setFerry_sealCtr (n : Nat) (x : FerryRun) : (s.setFerry n x).sealCtr = s.sealCtr := rfl
@[simp] theorem setFerry_cores (n : Nat) (x : FerryRun) : (s.setFerry n x).cores = s.cores := rfl
@[simp] theorem setFerry_links (n : Nat) (x : FerryRun) : (s.setFerry n x).links = s.links := rfl
@[simp] theorem setFerry_ports (n : Nat) (x : FerryRun) : (s.setFerry n x).ports = s.ports := rfl
@[simp] theorem setFerry_routeWait (n : Nat) (x : FerryRun) : (s.setFerry n x).routeWait = s.routeWait := rfl
@[simp] theorem setFerry_noRouted (n : Nat) (x : FerryRun) : (s.setFerry n x).noRouted = s.noRouted := rfl
@[simp] theorem setFerry_applyWaits (n : Nat) (x : FerryRun) : (s.setFerry n x).applyWaits = s.applyWaits := rfl
@[simp] theorem setFerry_groups (n : Nat) (x : FerryRun) : (s.setFerry n x).groups = s.groups := rfl
@[simp] theorem setFerry_objects (n : Nat) (x : FerryRun) : (s.setFerry n x).objects = s.objects := rfl
@[simp] theorem setFerry_tierQ (n : Nat) (x : FerryRun) : (s.setFerry n x).tierQ = s.tierQ := rfl
@[simp] theorem setFerry_tierMoves (n : Nat) (x : FerryRun) : (s.setFerry n x).tierMoves = s.tierMoves := rfl
@[simp] theorem setFerry_indexes (n : Nat) (x : FerryRun) : (s.setFerry n x).indexes = s.indexes := rfl
@[simp] theorem setFerry_engines (n : Nat) (x : FerryRun) : (s.setFerry n x).engines = s.engines := rfl
@[simp] theorem setFerry_berths (n : Nat) (x : FerryRun) : (s.setFerry n x).berths = s.berths := rfl
@[simp] theorem setFerry_boot (n : Nat) (x : FerryRun) : (s.setFerry n x).boot = s.boot := rfl
@[simp] theorem setFerry_partCmd (n : Nat) (x : FerryRun) : (s.setFerry n x).partCmd = s.partCmd := rfl
@[simp] theorem setFerry_powerSlots (n : Nat) (x : FerryRun) : (s.setFerry n x).powerSlots = s.powerSlots := rfl
@[simp] theorem setFerry_transition (n : Nat) (x : FerryRun) : (s.setFerry n x).transition = s.transition := rfl
@[simp] theorem setFerry_critAt (n : Nat) (x : FerryRun) : (s.setFerry n x).critAt = s.critAt := rfl
@[simp] theorem setFerry_bar4 (n : Nat) (x : FerryRun) : (s.setFerry n x).bar4 = s.bar4 := rfl
@[simp] theorem setFerry_pba (n : Nat) (x : FerryRun) : (s.setFerry n x).pba = s.pba := rfl
@[simp] theorem setFerry_fmask (n : Nat) (x : FerryRun) : (s.setFerry n x).fmask = s.fmask := rfl
@[simp] theorem setFerry_pend (n : Nat) (x : FerryRun) : (s.setFerry n x).pend = s.pend := rfl
@[simp] theorem setFerry_busMaster (n : Nat) (x : FerryRun) : (s.setFerry n x).busMaster = s.busMaster := rfl
@[simp] theorem setFerry_log (n : Nat) (x : FerryRun) : (s.setFerry n x).log = s.log := rfl
@[simp] theorem setFerry_responding (n : Nat) (x : FerryRun) : (s.setFerry n x).responding = s.responding := rfl
@[simp] theorem setFerry_hostKey (n : Nat) (x : FerryRun) : (s.setFerry n x).hostKey = s.hostKey := rfl
@[simp] theorem setFerry_drawn (n : Nat) (x : FerryRun) : (s.setFerry n x).drawn = s.drawn := rfl
@[simp] theorem setFerry_doe (n : Nat) (x : FerryRun) : (s.setFerry n x).doe = s.doe := rfl
@[simp] theorem setFerry_doeBuf (n : Nat) (x : FerryRun) : (s.setFerry n x).doeBuf = s.doeBuf := rfl
@[simp] theorem setFerry_alert (n : Nat) (x : FerryRun) : (s.setFerry n x).alert = s.alert := rfl
@[simp] theorem setFerry_i3cDyn (n : Nat) (x : FerryRun) : (s.setFerry n x).i3cDyn = s.i3cDyn := rfl
@[simp] theorem setFerry_i3cOff (n : Nat) (x : FerryRun) : (s.setFerry n x).i3cOff = s.i3cOff := rfl
@[simp] theorem setFerry_i3cIbi (n : Nat) (x : FerryRun) : (s.setFerry n x).i3cIbi = s.i3cIbi := rfl
@[simp] theorem setFerry_tapIr (n : Nat) (x : FerryRun) : (s.setFerry n x).tapIr = s.tapIr := rfl
@[simp] theorem setFerry_cells (n : Nat) (x : FerryRun) : (s.setFerry n x).cells = s.cells := rfl
@[simp] theorem setFerry_mem (n : Nat) (x : FerryRun) : (s.setFerry n x).mem = s.mem := rfl
@[simp] theorem setFerry_poison (n : Nat) (x : FerryRun) : (s.setFerry n x).poison = s.poison := rfl
@[simp] theorem setFerry_blurred (n : Nat) (x : FerryRun) : (s.setFerry n x).blurred = s.blurred := rfl
@[simp] theorem setFerry_image (n : Nat) (x : FerryRun) : (s.setFerry n x).image = s.image := rfl
@[simp] theorem setFerry_flash (n : Nat) (x : FerryRun) : (s.setFerry n x).flash = s.flash := rfl
@[simp] theorem setFerry_withheld (n : Nat) (x : FerryRun) : (s.setFerry n x).withheld = s.withheld := rfl
@[simp] theorem setFerry_out (n : Nat) (x : FerryRun) : (s.setFerry n x).out = s.out := rfl
@[simp] theorem setFerry_fresh (n : Nat) (x : FerryRun) : (s.setFerry n x).fresh = s.fresh := rfl

/-! setGroup changes groups only. -/

@[simp] theorem setGroup_pending (n : Nat) (x : GroupRun) : (s.setGroup n x).pending = s.pending := rfl
@[simp] theorem setGroup_regs (n : Nat) (x : GroupRun) : (s.setGroup n x).regs = s.regs := rfl
@[simp] theorem setGroup_pairRead (n : Nat) (x : GroupRun) : (s.setGroup n x).pairRead = s.pairRead := rfl
@[simp] theorem setGroup_pairWrite (n : Nat) (x : GroupRun) : (s.setGroup n x).pairWrite = s.pairWrite := rfl
@[simp] theorem setGroup_tide (n : Nat) (x : GroupRun) : (s.setGroup n x).tide = s.tide := rfl
@[simp] theorem setGroup_landing (n : Nat) (x : GroupRun) : (s.setGroup n x).landing = s.landing := rfl
@[simp] theorem setGroup_held (n : Nat) (x : GroupRun) : (s.setGroup n x).held = s.held := rfl
@[simp] theorem setGroup_fullBlocks (n : Nat) (x : GroupRun) : (s.setGroup n x).fullBlocks = s.fullBlocks := rfl
@[simp] theorem setGroup_sealCtr (n : Nat) (x : GroupRun) : (s.setGroup n x).sealCtr = s.sealCtr := rfl
@[simp] theorem setGroup_cores (n : Nat) (x : GroupRun) : (s.setGroup n x).cores = s.cores := rfl
@[simp] theorem setGroup_links (n : Nat) (x : GroupRun) : (s.setGroup n x).links = s.links := rfl
@[simp] theorem setGroup_ports (n : Nat) (x : GroupRun) : (s.setGroup n x).ports = s.ports := rfl
@[simp] theorem setGroup_routeWait (n : Nat) (x : GroupRun) : (s.setGroup n x).routeWait = s.routeWait := rfl
@[simp] theorem setGroup_noRouted (n : Nat) (x : GroupRun) : (s.setGroup n x).noRouted = s.noRouted := rfl
@[simp] theorem setGroup_applyWaits (n : Nat) (x : GroupRun) : (s.setGroup n x).applyWaits = s.applyWaits := rfl
@[simp] theorem setGroup_ferries (n : Nat) (x : GroupRun) : (s.setGroup n x).ferries = s.ferries := rfl
@[simp] theorem setGroup_objects (n : Nat) (x : GroupRun) : (s.setGroup n x).objects = s.objects := rfl
@[simp] theorem setGroup_tierQ (n : Nat) (x : GroupRun) : (s.setGroup n x).tierQ = s.tierQ := rfl
@[simp] theorem setGroup_tierMoves (n : Nat) (x : GroupRun) : (s.setGroup n x).tierMoves = s.tierMoves := rfl
@[simp] theorem setGroup_indexes (n : Nat) (x : GroupRun) : (s.setGroup n x).indexes = s.indexes := rfl
@[simp] theorem setGroup_engines (n : Nat) (x : GroupRun) : (s.setGroup n x).engines = s.engines := rfl
@[simp] theorem setGroup_berths (n : Nat) (x : GroupRun) : (s.setGroup n x).berths = s.berths := rfl
@[simp] theorem setGroup_boot (n : Nat) (x : GroupRun) : (s.setGroup n x).boot = s.boot := rfl
@[simp] theorem setGroup_partCmd (n : Nat) (x : GroupRun) : (s.setGroup n x).partCmd = s.partCmd := rfl
@[simp] theorem setGroup_powerSlots (n : Nat) (x : GroupRun) : (s.setGroup n x).powerSlots = s.powerSlots := rfl
@[simp] theorem setGroup_transition (n : Nat) (x : GroupRun) : (s.setGroup n x).transition = s.transition := rfl
@[simp] theorem setGroup_critAt (n : Nat) (x : GroupRun) : (s.setGroup n x).critAt = s.critAt := rfl
@[simp] theorem setGroup_bar4 (n : Nat) (x : GroupRun) : (s.setGroup n x).bar4 = s.bar4 := rfl
@[simp] theorem setGroup_pba (n : Nat) (x : GroupRun) : (s.setGroup n x).pba = s.pba := rfl
@[simp] theorem setGroup_fmask (n : Nat) (x : GroupRun) : (s.setGroup n x).fmask = s.fmask := rfl
@[simp] theorem setGroup_pend (n : Nat) (x : GroupRun) : (s.setGroup n x).pend = s.pend := rfl
@[simp] theorem setGroup_busMaster (n : Nat) (x : GroupRun) : (s.setGroup n x).busMaster = s.busMaster := rfl
@[simp] theorem setGroup_log (n : Nat) (x : GroupRun) : (s.setGroup n x).log = s.log := rfl
@[simp] theorem setGroup_responding (n : Nat) (x : GroupRun) : (s.setGroup n x).responding = s.responding := rfl
@[simp] theorem setGroup_hostKey (n : Nat) (x : GroupRun) : (s.setGroup n x).hostKey = s.hostKey := rfl
@[simp] theorem setGroup_drawn (n : Nat) (x : GroupRun) : (s.setGroup n x).drawn = s.drawn := rfl
@[simp] theorem setGroup_doe (n : Nat) (x : GroupRun) : (s.setGroup n x).doe = s.doe := rfl
@[simp] theorem setGroup_doeBuf (n : Nat) (x : GroupRun) : (s.setGroup n x).doeBuf = s.doeBuf := rfl
@[simp] theorem setGroup_alert (n : Nat) (x : GroupRun) : (s.setGroup n x).alert = s.alert := rfl
@[simp] theorem setGroup_i3cDyn (n : Nat) (x : GroupRun) : (s.setGroup n x).i3cDyn = s.i3cDyn := rfl
@[simp] theorem setGroup_i3cOff (n : Nat) (x : GroupRun) : (s.setGroup n x).i3cOff = s.i3cOff := rfl
@[simp] theorem setGroup_i3cIbi (n : Nat) (x : GroupRun) : (s.setGroup n x).i3cIbi = s.i3cIbi := rfl
@[simp] theorem setGroup_tapIr (n : Nat) (x : GroupRun) : (s.setGroup n x).tapIr = s.tapIr := rfl
@[simp] theorem setGroup_cells (n : Nat) (x : GroupRun) : (s.setGroup n x).cells = s.cells := rfl
@[simp] theorem setGroup_mem (n : Nat) (x : GroupRun) : (s.setGroup n x).mem = s.mem := rfl
@[simp] theorem setGroup_poison (n : Nat) (x : GroupRun) : (s.setGroup n x).poison = s.poison := rfl
@[simp] theorem setGroup_blurred (n : Nat) (x : GroupRun) : (s.setGroup n x).blurred = s.blurred := rfl
@[simp] theorem setGroup_image (n : Nat) (x : GroupRun) : (s.setGroup n x).image = s.image := rfl
@[simp] theorem setGroup_flash (n : Nat) (x : GroupRun) : (s.setGroup n x).flash = s.flash := rfl
@[simp] theorem setGroup_withheld (n : Nat) (x : GroupRun) : (s.setGroup n x).withheld = s.withheld := rfl
@[simp] theorem setGroup_out (n : Nat) (x : GroupRun) : (s.setGroup n x).out = s.out := rfl
@[simp] theorem setGroup_fresh (n : Nat) (x : GroupRun) : (s.setGroup n x).fresh = s.fresh := rfl

/-! setObj changes objects only. -/

@[simp] theorem setObj_pending (n : Nat) (x : ObjEntry) : (s.setObj n x).pending = s.pending := rfl
@[simp] theorem setObj_regs (n : Nat) (x : ObjEntry) : (s.setObj n x).regs = s.regs := rfl
@[simp] theorem setObj_pairRead (n : Nat) (x : ObjEntry) : (s.setObj n x).pairRead = s.pairRead := rfl
@[simp] theorem setObj_pairWrite (n : Nat) (x : ObjEntry) : (s.setObj n x).pairWrite = s.pairWrite := rfl
@[simp] theorem setObj_tide (n : Nat) (x : ObjEntry) : (s.setObj n x).tide = s.tide := rfl
@[simp] theorem setObj_landing (n : Nat) (x : ObjEntry) : (s.setObj n x).landing = s.landing := rfl
@[simp] theorem setObj_held (n : Nat) (x : ObjEntry) : (s.setObj n x).held = s.held := rfl
@[simp] theorem setObj_fullBlocks (n : Nat) (x : ObjEntry) : (s.setObj n x).fullBlocks = s.fullBlocks := rfl
@[simp] theorem setObj_sealCtr (n : Nat) (x : ObjEntry) : (s.setObj n x).sealCtr = s.sealCtr := rfl
@[simp] theorem setObj_cores (n : Nat) (x : ObjEntry) : (s.setObj n x).cores = s.cores := rfl
@[simp] theorem setObj_links (n : Nat) (x : ObjEntry) : (s.setObj n x).links = s.links := rfl
@[simp] theorem setObj_ports (n : Nat) (x : ObjEntry) : (s.setObj n x).ports = s.ports := rfl
@[simp] theorem setObj_routeWait (n : Nat) (x : ObjEntry) : (s.setObj n x).routeWait = s.routeWait := rfl
@[simp] theorem setObj_noRouted (n : Nat) (x : ObjEntry) : (s.setObj n x).noRouted = s.noRouted := rfl
@[simp] theorem setObj_applyWaits (n : Nat) (x : ObjEntry) : (s.setObj n x).applyWaits = s.applyWaits := rfl
@[simp] theorem setObj_ferries (n : Nat) (x : ObjEntry) : (s.setObj n x).ferries = s.ferries := rfl
@[simp] theorem setObj_groups (n : Nat) (x : ObjEntry) : (s.setObj n x).groups = s.groups := rfl
@[simp] theorem setObj_tierQ (n : Nat) (x : ObjEntry) : (s.setObj n x).tierQ = s.tierQ := rfl
@[simp] theorem setObj_tierMoves (n : Nat) (x : ObjEntry) : (s.setObj n x).tierMoves = s.tierMoves := rfl
@[simp] theorem setObj_indexes (n : Nat) (x : ObjEntry) : (s.setObj n x).indexes = s.indexes := rfl
@[simp] theorem setObj_engines (n : Nat) (x : ObjEntry) : (s.setObj n x).engines = s.engines := rfl
@[simp] theorem setObj_berths (n : Nat) (x : ObjEntry) : (s.setObj n x).berths = s.berths := rfl
@[simp] theorem setObj_boot (n : Nat) (x : ObjEntry) : (s.setObj n x).boot = s.boot := rfl
@[simp] theorem setObj_partCmd (n : Nat) (x : ObjEntry) : (s.setObj n x).partCmd = s.partCmd := rfl
@[simp] theorem setObj_powerSlots (n : Nat) (x : ObjEntry) : (s.setObj n x).powerSlots = s.powerSlots := rfl
@[simp] theorem setObj_transition (n : Nat) (x : ObjEntry) : (s.setObj n x).transition = s.transition := rfl
@[simp] theorem setObj_critAt (n : Nat) (x : ObjEntry) : (s.setObj n x).critAt = s.critAt := rfl
@[simp] theorem setObj_bar4 (n : Nat) (x : ObjEntry) : (s.setObj n x).bar4 = s.bar4 := rfl
@[simp] theorem setObj_pba (n : Nat) (x : ObjEntry) : (s.setObj n x).pba = s.pba := rfl
@[simp] theorem setObj_fmask (n : Nat) (x : ObjEntry) : (s.setObj n x).fmask = s.fmask := rfl
@[simp] theorem setObj_pend (n : Nat) (x : ObjEntry) : (s.setObj n x).pend = s.pend := rfl
@[simp] theorem setObj_busMaster (n : Nat) (x : ObjEntry) : (s.setObj n x).busMaster = s.busMaster := rfl
@[simp] theorem setObj_log (n : Nat) (x : ObjEntry) : (s.setObj n x).log = s.log := rfl
@[simp] theorem setObj_responding (n : Nat) (x : ObjEntry) : (s.setObj n x).responding = s.responding := rfl
@[simp] theorem setObj_hostKey (n : Nat) (x : ObjEntry) : (s.setObj n x).hostKey = s.hostKey := rfl
@[simp] theorem setObj_drawn (n : Nat) (x : ObjEntry) : (s.setObj n x).drawn = s.drawn := rfl
@[simp] theorem setObj_doe (n : Nat) (x : ObjEntry) : (s.setObj n x).doe = s.doe := rfl
@[simp] theorem setObj_doeBuf (n : Nat) (x : ObjEntry) : (s.setObj n x).doeBuf = s.doeBuf := rfl
@[simp] theorem setObj_alert (n : Nat) (x : ObjEntry) : (s.setObj n x).alert = s.alert := rfl
@[simp] theorem setObj_i3cDyn (n : Nat) (x : ObjEntry) : (s.setObj n x).i3cDyn = s.i3cDyn := rfl
@[simp] theorem setObj_i3cOff (n : Nat) (x : ObjEntry) : (s.setObj n x).i3cOff = s.i3cOff := rfl
@[simp] theorem setObj_i3cIbi (n : Nat) (x : ObjEntry) : (s.setObj n x).i3cIbi = s.i3cIbi := rfl
@[simp] theorem setObj_tapIr (n : Nat) (x : ObjEntry) : (s.setObj n x).tapIr = s.tapIr := rfl
@[simp] theorem setObj_cells (n : Nat) (x : ObjEntry) : (s.setObj n x).cells = s.cells := rfl
@[simp] theorem setObj_mem (n : Nat) (x : ObjEntry) : (s.setObj n x).mem = s.mem := rfl
@[simp] theorem setObj_poison (n : Nat) (x : ObjEntry) : (s.setObj n x).poison = s.poison := rfl
@[simp] theorem setObj_blurred (n : Nat) (x : ObjEntry) : (s.setObj n x).blurred = s.blurred := rfl
@[simp] theorem setObj_image (n : Nat) (x : ObjEntry) : (s.setObj n x).image = s.image := rfl
@[simp] theorem setObj_flash (n : Nat) (x : ObjEntry) : (s.setObj n x).flash = s.flash := rfl
@[simp] theorem setObj_withheld (n : Nat) (x : ObjEntry) : (s.setObj n x).withheld = s.withheld := rfl
@[simp] theorem setObj_out (n : Nat) (x : ObjEntry) : (s.setObj n x).out = s.out := rfl
@[simp] theorem setObj_fresh (n : Nat) (x : ObjEntry) : (s.setObj n x).fresh = s.fresh := rfl

/-! setIndex changes indexes only. -/

@[simp] theorem setIndex_pending (n : Nat) (x : Index) : (s.setIndex n x).pending = s.pending := rfl
@[simp] theorem setIndex_regs (n : Nat) (x : Index) : (s.setIndex n x).regs = s.regs := rfl
@[simp] theorem setIndex_pairRead (n : Nat) (x : Index) : (s.setIndex n x).pairRead = s.pairRead := rfl
@[simp] theorem setIndex_pairWrite (n : Nat) (x : Index) : (s.setIndex n x).pairWrite = s.pairWrite := rfl
@[simp] theorem setIndex_tide (n : Nat) (x : Index) : (s.setIndex n x).tide = s.tide := rfl
@[simp] theorem setIndex_landing (n : Nat) (x : Index) : (s.setIndex n x).landing = s.landing := rfl
@[simp] theorem setIndex_held (n : Nat) (x : Index) : (s.setIndex n x).held = s.held := rfl
@[simp] theorem setIndex_fullBlocks (n : Nat) (x : Index) : (s.setIndex n x).fullBlocks = s.fullBlocks := rfl
@[simp] theorem setIndex_sealCtr (n : Nat) (x : Index) : (s.setIndex n x).sealCtr = s.sealCtr := rfl
@[simp] theorem setIndex_cores (n : Nat) (x : Index) : (s.setIndex n x).cores = s.cores := rfl
@[simp] theorem setIndex_links (n : Nat) (x : Index) : (s.setIndex n x).links = s.links := rfl
@[simp] theorem setIndex_ports (n : Nat) (x : Index) : (s.setIndex n x).ports = s.ports := rfl
@[simp] theorem setIndex_routeWait (n : Nat) (x : Index) : (s.setIndex n x).routeWait = s.routeWait := rfl
@[simp] theorem setIndex_noRouted (n : Nat) (x : Index) : (s.setIndex n x).noRouted = s.noRouted := rfl
@[simp] theorem setIndex_applyWaits (n : Nat) (x : Index) : (s.setIndex n x).applyWaits = s.applyWaits := rfl
@[simp] theorem setIndex_ferries (n : Nat) (x : Index) : (s.setIndex n x).ferries = s.ferries := rfl
@[simp] theorem setIndex_groups (n : Nat) (x : Index) : (s.setIndex n x).groups = s.groups := rfl
@[simp] theorem setIndex_objects (n : Nat) (x : Index) : (s.setIndex n x).objects = s.objects := rfl
@[simp] theorem setIndex_tierQ (n : Nat) (x : Index) : (s.setIndex n x).tierQ = s.tierQ := rfl
@[simp] theorem setIndex_tierMoves (n : Nat) (x : Index) : (s.setIndex n x).tierMoves = s.tierMoves := rfl
@[simp] theorem setIndex_engines (n : Nat) (x : Index) : (s.setIndex n x).engines = s.engines := rfl
@[simp] theorem setIndex_berths (n : Nat) (x : Index) : (s.setIndex n x).berths = s.berths := rfl
@[simp] theorem setIndex_boot (n : Nat) (x : Index) : (s.setIndex n x).boot = s.boot := rfl
@[simp] theorem setIndex_partCmd (n : Nat) (x : Index) : (s.setIndex n x).partCmd = s.partCmd := rfl
@[simp] theorem setIndex_powerSlots (n : Nat) (x : Index) : (s.setIndex n x).powerSlots = s.powerSlots := rfl
@[simp] theorem setIndex_transition (n : Nat) (x : Index) : (s.setIndex n x).transition = s.transition := rfl
@[simp] theorem setIndex_critAt (n : Nat) (x : Index) : (s.setIndex n x).critAt = s.critAt := rfl
@[simp] theorem setIndex_bar4 (n : Nat) (x : Index) : (s.setIndex n x).bar4 = s.bar4 := rfl
@[simp] theorem setIndex_pba (n : Nat) (x : Index) : (s.setIndex n x).pba = s.pba := rfl
@[simp] theorem setIndex_fmask (n : Nat) (x : Index) : (s.setIndex n x).fmask = s.fmask := rfl
@[simp] theorem setIndex_pend (n : Nat) (x : Index) : (s.setIndex n x).pend = s.pend := rfl
@[simp] theorem setIndex_busMaster (n : Nat) (x : Index) : (s.setIndex n x).busMaster = s.busMaster := rfl
@[simp] theorem setIndex_log (n : Nat) (x : Index) : (s.setIndex n x).log = s.log := rfl
@[simp] theorem setIndex_responding (n : Nat) (x : Index) : (s.setIndex n x).responding = s.responding := rfl
@[simp] theorem setIndex_hostKey (n : Nat) (x : Index) : (s.setIndex n x).hostKey = s.hostKey := rfl
@[simp] theorem setIndex_drawn (n : Nat) (x : Index) : (s.setIndex n x).drawn = s.drawn := rfl
@[simp] theorem setIndex_doe (n : Nat) (x : Index) : (s.setIndex n x).doe = s.doe := rfl
@[simp] theorem setIndex_doeBuf (n : Nat) (x : Index) : (s.setIndex n x).doeBuf = s.doeBuf := rfl
@[simp] theorem setIndex_alert (n : Nat) (x : Index) : (s.setIndex n x).alert = s.alert := rfl
@[simp] theorem setIndex_i3cDyn (n : Nat) (x : Index) : (s.setIndex n x).i3cDyn = s.i3cDyn := rfl
@[simp] theorem setIndex_i3cOff (n : Nat) (x : Index) : (s.setIndex n x).i3cOff = s.i3cOff := rfl
@[simp] theorem setIndex_i3cIbi (n : Nat) (x : Index) : (s.setIndex n x).i3cIbi = s.i3cIbi := rfl
@[simp] theorem setIndex_tapIr (n : Nat) (x : Index) : (s.setIndex n x).tapIr = s.tapIr := rfl
@[simp] theorem setIndex_cells (n : Nat) (x : Index) : (s.setIndex n x).cells = s.cells := rfl
@[simp] theorem setIndex_mem (n : Nat) (x : Index) : (s.setIndex n x).mem = s.mem := rfl
@[simp] theorem setIndex_poison (n : Nat) (x : Index) : (s.setIndex n x).poison = s.poison := rfl
@[simp] theorem setIndex_blurred (n : Nat) (x : Index) : (s.setIndex n x).blurred = s.blurred := rfl
@[simp] theorem setIndex_image (n : Nat) (x : Index) : (s.setIndex n x).image = s.image := rfl
@[simp] theorem setIndex_flash (n : Nat) (x : Index) : (s.setIndex n x).flash = s.flash := rfl
@[simp] theorem setIndex_withheld (n : Nat) (x : Index) : (s.setIndex n x).withheld = s.withheld := rfl
@[simp] theorem setIndex_out (n : Nat) (x : Index) : (s.setIndex n x).out = s.out := rfl
@[simp] theorem setIndex_fresh (n : Nat) (x : Index) : (s.setIndex n x).fresh = s.fresh := rfl

/-! setEngine changes engines only. -/

@[simp] theorem setEngine_pending (n : Nat) (x : Engine) : (s.setEngine n x).pending = s.pending := rfl
@[simp] theorem setEngine_regs (n : Nat) (x : Engine) : (s.setEngine n x).regs = s.regs := rfl
@[simp] theorem setEngine_pairRead (n : Nat) (x : Engine) : (s.setEngine n x).pairRead = s.pairRead := rfl
@[simp] theorem setEngine_pairWrite (n : Nat) (x : Engine) : (s.setEngine n x).pairWrite = s.pairWrite := rfl
@[simp] theorem setEngine_tide (n : Nat) (x : Engine) : (s.setEngine n x).tide = s.tide := rfl
@[simp] theorem setEngine_landing (n : Nat) (x : Engine) : (s.setEngine n x).landing = s.landing := rfl
@[simp] theorem setEngine_held (n : Nat) (x : Engine) : (s.setEngine n x).held = s.held := rfl
@[simp] theorem setEngine_fullBlocks (n : Nat) (x : Engine) : (s.setEngine n x).fullBlocks = s.fullBlocks := rfl
@[simp] theorem setEngine_sealCtr (n : Nat) (x : Engine) : (s.setEngine n x).sealCtr = s.sealCtr := rfl
@[simp] theorem setEngine_cores (n : Nat) (x : Engine) : (s.setEngine n x).cores = s.cores := rfl
@[simp] theorem setEngine_links (n : Nat) (x : Engine) : (s.setEngine n x).links = s.links := rfl
@[simp] theorem setEngine_ports (n : Nat) (x : Engine) : (s.setEngine n x).ports = s.ports := rfl
@[simp] theorem setEngine_routeWait (n : Nat) (x : Engine) : (s.setEngine n x).routeWait = s.routeWait := rfl
@[simp] theorem setEngine_noRouted (n : Nat) (x : Engine) : (s.setEngine n x).noRouted = s.noRouted := rfl
@[simp] theorem setEngine_applyWaits (n : Nat) (x : Engine) : (s.setEngine n x).applyWaits = s.applyWaits := rfl
@[simp] theorem setEngine_ferries (n : Nat) (x : Engine) : (s.setEngine n x).ferries = s.ferries := rfl
@[simp] theorem setEngine_groups (n : Nat) (x : Engine) : (s.setEngine n x).groups = s.groups := rfl
@[simp] theorem setEngine_objects (n : Nat) (x : Engine) : (s.setEngine n x).objects = s.objects := rfl
@[simp] theorem setEngine_tierQ (n : Nat) (x : Engine) : (s.setEngine n x).tierQ = s.tierQ := rfl
@[simp] theorem setEngine_tierMoves (n : Nat) (x : Engine) : (s.setEngine n x).tierMoves = s.tierMoves := rfl
@[simp] theorem setEngine_indexes (n : Nat) (x : Engine) : (s.setEngine n x).indexes = s.indexes := rfl
@[simp] theorem setEngine_berths (n : Nat) (x : Engine) : (s.setEngine n x).berths = s.berths := rfl
@[simp] theorem setEngine_boot (n : Nat) (x : Engine) : (s.setEngine n x).boot = s.boot := rfl
@[simp] theorem setEngine_partCmd (n : Nat) (x : Engine) : (s.setEngine n x).partCmd = s.partCmd := rfl
@[simp] theorem setEngine_powerSlots (n : Nat) (x : Engine) : (s.setEngine n x).powerSlots = s.powerSlots := rfl
@[simp] theorem setEngine_transition (n : Nat) (x : Engine) : (s.setEngine n x).transition = s.transition := rfl
@[simp] theorem setEngine_critAt (n : Nat) (x : Engine) : (s.setEngine n x).critAt = s.critAt := rfl
@[simp] theorem setEngine_bar4 (n : Nat) (x : Engine) : (s.setEngine n x).bar4 = s.bar4 := rfl
@[simp] theorem setEngine_pba (n : Nat) (x : Engine) : (s.setEngine n x).pba = s.pba := rfl
@[simp] theorem setEngine_fmask (n : Nat) (x : Engine) : (s.setEngine n x).fmask = s.fmask := rfl
@[simp] theorem setEngine_pend (n : Nat) (x : Engine) : (s.setEngine n x).pend = s.pend := rfl
@[simp] theorem setEngine_busMaster (n : Nat) (x : Engine) : (s.setEngine n x).busMaster = s.busMaster := rfl
@[simp] theorem setEngine_log (n : Nat) (x : Engine) : (s.setEngine n x).log = s.log := rfl
@[simp] theorem setEngine_responding (n : Nat) (x : Engine) : (s.setEngine n x).responding = s.responding := rfl
@[simp] theorem setEngine_hostKey (n : Nat) (x : Engine) : (s.setEngine n x).hostKey = s.hostKey := rfl
@[simp] theorem setEngine_drawn (n : Nat) (x : Engine) : (s.setEngine n x).drawn = s.drawn := rfl
@[simp] theorem setEngine_doe (n : Nat) (x : Engine) : (s.setEngine n x).doe = s.doe := rfl
@[simp] theorem setEngine_doeBuf (n : Nat) (x : Engine) : (s.setEngine n x).doeBuf = s.doeBuf := rfl
@[simp] theorem setEngine_alert (n : Nat) (x : Engine) : (s.setEngine n x).alert = s.alert := rfl
@[simp] theorem setEngine_i3cDyn (n : Nat) (x : Engine) : (s.setEngine n x).i3cDyn = s.i3cDyn := rfl
@[simp] theorem setEngine_i3cOff (n : Nat) (x : Engine) : (s.setEngine n x).i3cOff = s.i3cOff := rfl
@[simp] theorem setEngine_i3cIbi (n : Nat) (x : Engine) : (s.setEngine n x).i3cIbi = s.i3cIbi := rfl
@[simp] theorem setEngine_tapIr (n : Nat) (x : Engine) : (s.setEngine n x).tapIr = s.tapIr := rfl
@[simp] theorem setEngine_cells (n : Nat) (x : Engine) : (s.setEngine n x).cells = s.cells := rfl
@[simp] theorem setEngine_mem (n : Nat) (x : Engine) : (s.setEngine n x).mem = s.mem := rfl
@[simp] theorem setEngine_poison (n : Nat) (x : Engine) : (s.setEngine n x).poison = s.poison := rfl
@[simp] theorem setEngine_blurred (n : Nat) (x : Engine) : (s.setEngine n x).blurred = s.blurred := rfl
@[simp] theorem setEngine_image (n : Nat) (x : Engine) : (s.setEngine n x).image = s.image := rfl
@[simp] theorem setEngine_flash (n : Nat) (x : Engine) : (s.setEngine n x).flash = s.flash := rfl
@[simp] theorem setEngine_withheld (n : Nat) (x : Engine) : (s.setEngine n x).withheld = s.withheld := rfl
@[simp] theorem setEngine_out (n : Nat) (x : Engine) : (s.setEngine n x).out = s.out := rfl
@[simp] theorem setEngine_fresh (n : Nat) (x : Engine) : (s.setEngine n x).fresh = s.fresh := rfl

/-! setBerth changes berths only. -/

@[simp] theorem setBerth_pending (n : Nat) (x : BerthRun) : (s.setBerth n x).pending = s.pending := rfl
@[simp] theorem setBerth_regs (n : Nat) (x : BerthRun) : (s.setBerth n x).regs = s.regs := rfl
@[simp] theorem setBerth_pairRead (n : Nat) (x : BerthRun) : (s.setBerth n x).pairRead = s.pairRead := rfl
@[simp] theorem setBerth_pairWrite (n : Nat) (x : BerthRun) : (s.setBerth n x).pairWrite = s.pairWrite := rfl
@[simp] theorem setBerth_tide (n : Nat) (x : BerthRun) : (s.setBerth n x).tide = s.tide := rfl
@[simp] theorem setBerth_landing (n : Nat) (x : BerthRun) : (s.setBerth n x).landing = s.landing := rfl
@[simp] theorem setBerth_held (n : Nat) (x : BerthRun) : (s.setBerth n x).held = s.held := rfl
@[simp] theorem setBerth_fullBlocks (n : Nat) (x : BerthRun) : (s.setBerth n x).fullBlocks = s.fullBlocks := rfl
@[simp] theorem setBerth_sealCtr (n : Nat) (x : BerthRun) : (s.setBerth n x).sealCtr = s.sealCtr := rfl
@[simp] theorem setBerth_cores (n : Nat) (x : BerthRun) : (s.setBerth n x).cores = s.cores := rfl
@[simp] theorem setBerth_links (n : Nat) (x : BerthRun) : (s.setBerth n x).links = s.links := rfl
@[simp] theorem setBerth_ports (n : Nat) (x : BerthRun) : (s.setBerth n x).ports = s.ports := rfl
@[simp] theorem setBerth_routeWait (n : Nat) (x : BerthRun) : (s.setBerth n x).routeWait = s.routeWait := rfl
@[simp] theorem setBerth_noRouted (n : Nat) (x : BerthRun) : (s.setBerth n x).noRouted = s.noRouted := rfl
@[simp] theorem setBerth_applyWaits (n : Nat) (x : BerthRun) : (s.setBerth n x).applyWaits = s.applyWaits := rfl
@[simp] theorem setBerth_ferries (n : Nat) (x : BerthRun) : (s.setBerth n x).ferries = s.ferries := rfl
@[simp] theorem setBerth_groups (n : Nat) (x : BerthRun) : (s.setBerth n x).groups = s.groups := rfl
@[simp] theorem setBerth_objects (n : Nat) (x : BerthRun) : (s.setBerth n x).objects = s.objects := rfl
@[simp] theorem setBerth_tierQ (n : Nat) (x : BerthRun) : (s.setBerth n x).tierQ = s.tierQ := rfl
@[simp] theorem setBerth_tierMoves (n : Nat) (x : BerthRun) : (s.setBerth n x).tierMoves = s.tierMoves := rfl
@[simp] theorem setBerth_indexes (n : Nat) (x : BerthRun) : (s.setBerth n x).indexes = s.indexes := rfl
@[simp] theorem setBerth_engines (n : Nat) (x : BerthRun) : (s.setBerth n x).engines = s.engines := rfl
@[simp] theorem setBerth_boot (n : Nat) (x : BerthRun) : (s.setBerth n x).boot = s.boot := rfl
@[simp] theorem setBerth_partCmd (n : Nat) (x : BerthRun) : (s.setBerth n x).partCmd = s.partCmd := rfl
@[simp] theorem setBerth_powerSlots (n : Nat) (x : BerthRun) : (s.setBerth n x).powerSlots = s.powerSlots := rfl
@[simp] theorem setBerth_transition (n : Nat) (x : BerthRun) : (s.setBerth n x).transition = s.transition := rfl
@[simp] theorem setBerth_critAt (n : Nat) (x : BerthRun) : (s.setBerth n x).critAt = s.critAt := rfl
@[simp] theorem setBerth_bar4 (n : Nat) (x : BerthRun) : (s.setBerth n x).bar4 = s.bar4 := rfl
@[simp] theorem setBerth_pba (n : Nat) (x : BerthRun) : (s.setBerth n x).pba = s.pba := rfl
@[simp] theorem setBerth_fmask (n : Nat) (x : BerthRun) : (s.setBerth n x).fmask = s.fmask := rfl
@[simp] theorem setBerth_pend (n : Nat) (x : BerthRun) : (s.setBerth n x).pend = s.pend := rfl
@[simp] theorem setBerth_busMaster (n : Nat) (x : BerthRun) : (s.setBerth n x).busMaster = s.busMaster := rfl
@[simp] theorem setBerth_log (n : Nat) (x : BerthRun) : (s.setBerth n x).log = s.log := rfl
@[simp] theorem setBerth_responding (n : Nat) (x : BerthRun) : (s.setBerth n x).responding = s.responding := rfl
@[simp] theorem setBerth_hostKey (n : Nat) (x : BerthRun) : (s.setBerth n x).hostKey = s.hostKey := rfl
@[simp] theorem setBerth_drawn (n : Nat) (x : BerthRun) : (s.setBerth n x).drawn = s.drawn := rfl
@[simp] theorem setBerth_doe (n : Nat) (x : BerthRun) : (s.setBerth n x).doe = s.doe := rfl
@[simp] theorem setBerth_doeBuf (n : Nat) (x : BerthRun) : (s.setBerth n x).doeBuf = s.doeBuf := rfl
@[simp] theorem setBerth_alert (n : Nat) (x : BerthRun) : (s.setBerth n x).alert = s.alert := rfl
@[simp] theorem setBerth_i3cDyn (n : Nat) (x : BerthRun) : (s.setBerth n x).i3cDyn = s.i3cDyn := rfl
@[simp] theorem setBerth_i3cOff (n : Nat) (x : BerthRun) : (s.setBerth n x).i3cOff = s.i3cOff := rfl
@[simp] theorem setBerth_i3cIbi (n : Nat) (x : BerthRun) : (s.setBerth n x).i3cIbi = s.i3cIbi := rfl
@[simp] theorem setBerth_tapIr (n : Nat) (x : BerthRun) : (s.setBerth n x).tapIr = s.tapIr := rfl
@[simp] theorem setBerth_cells (n : Nat) (x : BerthRun) : (s.setBerth n x).cells = s.cells := rfl
@[simp] theorem setBerth_mem (n : Nat) (x : BerthRun) : (s.setBerth n x).mem = s.mem := rfl
@[simp] theorem setBerth_poison (n : Nat) (x : BerthRun) : (s.setBerth n x).poison = s.poison := rfl
@[simp] theorem setBerth_blurred (n : Nat) (x : BerthRun) : (s.setBerth n x).blurred = s.blurred := rfl
@[simp] theorem setBerth_image (n : Nat) (x : BerthRun) : (s.setBerth n x).image = s.image := rfl
@[simp] theorem setBerth_flash (n : Nat) (x : BerthRun) : (s.setBerth n x).flash = s.flash := rfl
@[simp] theorem setBerth_withheld (n : Nat) (x : BerthRun) : (s.setBerth n x).withheld = s.withheld := rfl
@[simp] theorem setBerth_out (n : Nat) (x : BerthRun) : (s.setBerth n x).out = s.out := rfl
@[simp] theorem setBerth_fresh (n : Nat) (x : BerthRun) : (s.setBerth n x).fresh = s.fresh := rfl

/-! storeByte changes mem only. -/

@[simp] theorem storeByte_pending (a : Nat) (v : Byte) : (s.storeByte a v).pending = s.pending := rfl
@[simp] theorem storeByte_regs (a : Nat) (v : Byte) : (s.storeByte a v).regs = s.regs := rfl
@[simp] theorem storeByte_pairRead (a : Nat) (v : Byte) : (s.storeByte a v).pairRead = s.pairRead := rfl
@[simp] theorem storeByte_pairWrite (a : Nat) (v : Byte) : (s.storeByte a v).pairWrite = s.pairWrite := rfl
@[simp] theorem storeByte_tide (a : Nat) (v : Byte) : (s.storeByte a v).tide = s.tide := rfl
@[simp] theorem storeByte_landing (a : Nat) (v : Byte) : (s.storeByte a v).landing = s.landing := rfl
@[simp] theorem storeByte_held (a : Nat) (v : Byte) : (s.storeByte a v).held = s.held := rfl
@[simp] theorem storeByte_fullBlocks (a : Nat) (v : Byte) : (s.storeByte a v).fullBlocks = s.fullBlocks := rfl
@[simp] theorem storeByte_sealCtr (a : Nat) (v : Byte) : (s.storeByte a v).sealCtr = s.sealCtr := rfl
@[simp] theorem storeByte_cores (a : Nat) (v : Byte) : (s.storeByte a v).cores = s.cores := rfl
@[simp] theorem storeByte_links (a : Nat) (v : Byte) : (s.storeByte a v).links = s.links := rfl
@[simp] theorem storeByte_ports (a : Nat) (v : Byte) : (s.storeByte a v).ports = s.ports := rfl
@[simp] theorem storeByte_routeWait (a : Nat) (v : Byte) : (s.storeByte a v).routeWait = s.routeWait := rfl
@[simp] theorem storeByte_noRouted (a : Nat) (v : Byte) : (s.storeByte a v).noRouted = s.noRouted := rfl
@[simp] theorem storeByte_applyWaits (a : Nat) (v : Byte) : (s.storeByte a v).applyWaits = s.applyWaits := rfl
@[simp] theorem storeByte_ferries (a : Nat) (v : Byte) : (s.storeByte a v).ferries = s.ferries := rfl
@[simp] theorem storeByte_groups (a : Nat) (v : Byte) : (s.storeByte a v).groups = s.groups := rfl
@[simp] theorem storeByte_objects (a : Nat) (v : Byte) : (s.storeByte a v).objects = s.objects := rfl
@[simp] theorem storeByte_tierQ (a : Nat) (v : Byte) : (s.storeByte a v).tierQ = s.tierQ := rfl
@[simp] theorem storeByte_tierMoves (a : Nat) (v : Byte) : (s.storeByte a v).tierMoves = s.tierMoves := rfl
@[simp] theorem storeByte_indexes (a : Nat) (v : Byte) : (s.storeByte a v).indexes = s.indexes := rfl
@[simp] theorem storeByte_engines (a : Nat) (v : Byte) : (s.storeByte a v).engines = s.engines := rfl
@[simp] theorem storeByte_berths (a : Nat) (v : Byte) : (s.storeByte a v).berths = s.berths := rfl
@[simp] theorem storeByte_boot (a : Nat) (v : Byte) : (s.storeByte a v).boot = s.boot := rfl
@[simp] theorem storeByte_partCmd (a : Nat) (v : Byte) : (s.storeByte a v).partCmd = s.partCmd := rfl
@[simp] theorem storeByte_powerSlots (a : Nat) (v : Byte) : (s.storeByte a v).powerSlots = s.powerSlots := rfl
@[simp] theorem storeByte_transition (a : Nat) (v : Byte) : (s.storeByte a v).transition = s.transition := rfl
@[simp] theorem storeByte_critAt (a : Nat) (v : Byte) : (s.storeByte a v).critAt = s.critAt := rfl
@[simp] theorem storeByte_bar4 (a : Nat) (v : Byte) : (s.storeByte a v).bar4 = s.bar4 := rfl
@[simp] theorem storeByte_pba (a : Nat) (v : Byte) : (s.storeByte a v).pba = s.pba := rfl
@[simp] theorem storeByte_fmask (a : Nat) (v : Byte) : (s.storeByte a v).fmask = s.fmask := rfl
@[simp] theorem storeByte_pend (a : Nat) (v : Byte) : (s.storeByte a v).pend = s.pend := rfl
@[simp] theorem storeByte_busMaster (a : Nat) (v : Byte) : (s.storeByte a v).busMaster = s.busMaster := rfl
@[simp] theorem storeByte_log (a : Nat) (v : Byte) : (s.storeByte a v).log = s.log := rfl
@[simp] theorem storeByte_responding (a : Nat) (v : Byte) : (s.storeByte a v).responding = s.responding := rfl
@[simp] theorem storeByte_hostKey (a : Nat) (v : Byte) : (s.storeByte a v).hostKey = s.hostKey := rfl
@[simp] theorem storeByte_drawn (a : Nat) (v : Byte) : (s.storeByte a v).drawn = s.drawn := rfl
@[simp] theorem storeByte_doe (a : Nat) (v : Byte) : (s.storeByte a v).doe = s.doe := rfl
@[simp] theorem storeByte_doeBuf (a : Nat) (v : Byte) : (s.storeByte a v).doeBuf = s.doeBuf := rfl
@[simp] theorem storeByte_alert (a : Nat) (v : Byte) : (s.storeByte a v).alert = s.alert := rfl
@[simp] theorem storeByte_i3cDyn (a : Nat) (v : Byte) : (s.storeByte a v).i3cDyn = s.i3cDyn := rfl
@[simp] theorem storeByte_i3cOff (a : Nat) (v : Byte) : (s.storeByte a v).i3cOff = s.i3cOff := rfl
@[simp] theorem storeByte_i3cIbi (a : Nat) (v : Byte) : (s.storeByte a v).i3cIbi = s.i3cIbi := rfl
@[simp] theorem storeByte_tapIr (a : Nat) (v : Byte) : (s.storeByte a v).tapIr = s.tapIr := rfl
@[simp] theorem storeByte_cells (a : Nat) (v : Byte) : (s.storeByte a v).cells = s.cells := rfl
@[simp] theorem storeByte_poison (a : Nat) (v : Byte) : (s.storeByte a v).poison = s.poison := rfl
@[simp] theorem storeByte_blurred (a : Nat) (v : Byte) : (s.storeByte a v).blurred = s.blurred := rfl
@[simp] theorem storeByte_image (a : Nat) (v : Byte) : (s.storeByte a v).image = s.image := rfl
@[simp] theorem storeByte_flash (a : Nat) (v : Byte) : (s.storeByte a v).flash = s.flash := rfl
@[simp] theorem storeByte_withheld (a : Nat) (v : Byte) : (s.storeByte a v).withheld = s.withheld := rfl
@[simp] theorem storeByte_out (a : Nat) (v : Byte) : (s.storeByte a v).out = s.out := rfl
@[simp] theorem storeByte_fresh (a : Nat) (v : Byte) : (s.storeByte a v).fresh = s.fresh := rfl

/-! emit changes out only. -/

@[simp] theorem emit_pending (o : Out) : (s.emit o).pending = s.pending := rfl
@[simp] theorem emit_regs (o : Out) : (s.emit o).regs = s.regs := rfl
@[simp] theorem emit_pairRead (o : Out) : (s.emit o).pairRead = s.pairRead := rfl
@[simp] theorem emit_pairWrite (o : Out) : (s.emit o).pairWrite = s.pairWrite := rfl
@[simp] theorem emit_tide (o : Out) : (s.emit o).tide = s.tide := rfl
@[simp] theorem emit_landing (o : Out) : (s.emit o).landing = s.landing := rfl
@[simp] theorem emit_held (o : Out) : (s.emit o).held = s.held := rfl
@[simp] theorem emit_fullBlocks (o : Out) : (s.emit o).fullBlocks = s.fullBlocks := rfl
@[simp] theorem emit_sealCtr (o : Out) : (s.emit o).sealCtr = s.sealCtr := rfl
@[simp] theorem emit_cores (o : Out) : (s.emit o).cores = s.cores := rfl
@[simp] theorem emit_links (o : Out) : (s.emit o).links = s.links := rfl
@[simp] theorem emit_ports (o : Out) : (s.emit o).ports = s.ports := rfl
@[simp] theorem emit_routeWait (o : Out) : (s.emit o).routeWait = s.routeWait := rfl
@[simp] theorem emit_noRouted (o : Out) : (s.emit o).noRouted = s.noRouted := rfl
@[simp] theorem emit_applyWaits (o : Out) : (s.emit o).applyWaits = s.applyWaits := rfl
@[simp] theorem emit_ferries (o : Out) : (s.emit o).ferries = s.ferries := rfl
@[simp] theorem emit_groups (o : Out) : (s.emit o).groups = s.groups := rfl
@[simp] theorem emit_objects (o : Out) : (s.emit o).objects = s.objects := rfl
@[simp] theorem emit_tierQ (o : Out) : (s.emit o).tierQ = s.tierQ := rfl
@[simp] theorem emit_tierMoves (o : Out) : (s.emit o).tierMoves = s.tierMoves := rfl
@[simp] theorem emit_indexes (o : Out) : (s.emit o).indexes = s.indexes := rfl
@[simp] theorem emit_engines (o : Out) : (s.emit o).engines = s.engines := rfl
@[simp] theorem emit_berths (o : Out) : (s.emit o).berths = s.berths := rfl
@[simp] theorem emit_boot (o : Out) : (s.emit o).boot = s.boot := rfl
@[simp] theorem emit_partCmd (o : Out) : (s.emit o).partCmd = s.partCmd := rfl
@[simp] theorem emit_powerSlots (o : Out) : (s.emit o).powerSlots = s.powerSlots := rfl
@[simp] theorem emit_transition (o : Out) : (s.emit o).transition = s.transition := rfl
@[simp] theorem emit_critAt (o : Out) : (s.emit o).critAt = s.critAt := rfl
@[simp] theorem emit_bar4 (o : Out) : (s.emit o).bar4 = s.bar4 := rfl
@[simp] theorem emit_pba (o : Out) : (s.emit o).pba = s.pba := rfl
@[simp] theorem emit_fmask (o : Out) : (s.emit o).fmask = s.fmask := rfl
@[simp] theorem emit_pend (o : Out) : (s.emit o).pend = s.pend := rfl
@[simp] theorem emit_busMaster (o : Out) : (s.emit o).busMaster = s.busMaster := rfl
@[simp] theorem emit_log (o : Out) : (s.emit o).log = s.log := rfl
@[simp] theorem emit_responding (o : Out) : (s.emit o).responding = s.responding := rfl
@[simp] theorem emit_hostKey (o : Out) : (s.emit o).hostKey = s.hostKey := rfl
@[simp] theorem emit_drawn (o : Out) : (s.emit o).drawn = s.drawn := rfl
@[simp] theorem emit_doe (o : Out) : (s.emit o).doe = s.doe := rfl
@[simp] theorem emit_doeBuf (o : Out) : (s.emit o).doeBuf = s.doeBuf := rfl
@[simp] theorem emit_alert (o : Out) : (s.emit o).alert = s.alert := rfl
@[simp] theorem emit_i3cDyn (o : Out) : (s.emit o).i3cDyn = s.i3cDyn := rfl
@[simp] theorem emit_i3cOff (o : Out) : (s.emit o).i3cOff = s.i3cOff := rfl
@[simp] theorem emit_i3cIbi (o : Out) : (s.emit o).i3cIbi = s.i3cIbi := rfl
@[simp] theorem emit_tapIr (o : Out) : (s.emit o).tapIr = s.tapIr := rfl
@[simp] theorem emit_cells (o : Out) : (s.emit o).cells = s.cells := rfl
@[simp] theorem emit_mem (o : Out) : (s.emit o).mem = s.mem := rfl
@[simp] theorem emit_poison (o : Out) : (s.emit o).poison = s.poison := rfl
@[simp] theorem emit_blurred (o : Out) : (s.emit o).blurred = s.blurred := rfl
@[simp] theorem emit_image (o : Out) : (s.emit o).image = s.image := rfl
@[simp] theorem emit_flash (o : Out) : (s.emit o).flash = s.flash := rfl
@[simp] theorem emit_withheld (o : Out) : (s.emit o).withheld = s.withheld := rfl
@[simp] theorem emit_fresh (o : Out) : (s.emit o).fresh = s.fresh := rfl

end Sys2Proof.Machine.State
end

