-- ==== Sys2Proof/Laws/Fields.lean ====
section
/-! SUPPORT. Interrupt signalling and the logbook's queue leave everything else as it was, field by field. -/

namespace Sys2Proof.Machine

theorem sendVector_eq (s : State) (f v : Nat) : ∃ b o, sendVector s f v = { s with pba := b, out := o } := by
  unfold sendVector
  split
  · split
    · exact ⟨s.pba, s.out, rfl⟩
    · exact ⟨_, s.out, rfl⟩
  · exact ⟨s.pba, _, rfl⟩

theorem sendVectors_eq (s : State) (l : List (Nat × Nat)) : ∃ b o, sendVectors s l = { s with pba := b, out := o } := by
  unfold sendVectors
  generalize l.dedup = l
  induction l generalizing s with
  | nil => exact ⟨s.pba, s.out, rfl⟩
  | cons x l ih =>
    obtain ⟨b, o, h⟩ := sendVector_eq s x.1 x.2
    obtain ⟨c, q, k⟩ := ih (sendVector s x.1 x.2)
    exact ⟨c, q, by rw [List.foldl_cons, k, h]⟩

theorem driveAlert_eq (s : State) : ∃ a o, driveAlert s = { s with alert := a, out := o } := by
  simp only [driveAlert]
  split
  · exact ⟨_, _, rfl⟩
  · exact ⟨_, s.out, rfl⟩

/-- Interrupt signalling changes four fields only. -/
theorem signal_eq (s : State) : ∃ p b a o, signal s = { s with pend := p, pba := b, alert := a, out := o } := by
  simp only [signal]
  generalize (List.map _ _) = l
  obtain ⟨b, o, h⟩ := sendVectors_eq { s with pend := pendingClasses s } l
  obtain ⟨a, q, k⟩ := driveAlert_eq (sendVectors { s with pend := pendingClasses s } l)
  exact ⟨pendingClasses s, b, a, q, by rw [k, h]⟩

/-- Queueing an entry changes the logbook only. -/
theorem logAdd_eq (s : State) (e : LogEntry) : ∃ g, logAdd s e = { s with log := g } := by
  simp only [logAdd]
  split <;> exact ⟨_, rfl⟩

@[simp] theorem signal_pending (s : State) : (signal s).pending = s.pending := by
  obtain ⟨_, _, _, _, h⟩ := signal_eq s; rw [h]
@[simp] theorem signal_regs (s : State) : (signal s).regs = s.regs := by
  obtain ⟨_, _, _, _, h⟩ := signal_eq s; rw [h]
@[simp] theorem signal_pairRead (s : State) : (signal s).pairRead = s.pairRead := by
  obtain ⟨_, _, _, _, h⟩ := signal_eq s; rw [h]
@[simp] theorem signal_pairWrite (s : State) : (signal s).pairWrite = s.pairWrite := by
  obtain ⟨_, _, _, _, h⟩ := signal_eq s; rw [h]
@[simp] theorem signal_tide (s : State) : (signal s).tide = s.tide := by
  obtain ⟨_, _, _, _, h⟩ := signal_eq s; rw [h]
@[simp] theorem signal_landing (s : State) : (signal s).landing = s.landing := by
  obtain ⟨_, _, _, _, h⟩ := signal_eq s; rw [h]
@[simp] theorem signal_held (s : State) : (signal s).held = s.held := by
  obtain ⟨_, _, _, _, h⟩ := signal_eq s; rw [h]
@[simp] theorem signal_fullBlocks (s : State) : (signal s).fullBlocks = s.fullBlocks := by
  obtain ⟨_, _, _, _, h⟩ := signal_eq s; rw [h]
@[simp] theorem signal_sealCtr (s : State) : (signal s).sealCtr = s.sealCtr := by
  obtain ⟨_, _, _, _, h⟩ := signal_eq s; rw [h]
@[simp] theorem signal_cores (s : State) : (signal s).cores = s.cores := by
  obtain ⟨_, _, _, _, h⟩ := signal_eq s; rw [h]
@[simp] theorem signal_links (s : State) : (signal s).links = s.links := by
  obtain ⟨_, _, _, _, h⟩ := signal_eq s; rw [h]
@[simp] theorem signal_ports (s : State) : (signal s).ports = s.ports := by
  obtain ⟨_, _, _, _, h⟩ := signal_eq s; rw [h]
@[simp] theorem signal_routeWait (s : State) : (signal s).routeWait = s.routeWait := by
  obtain ⟨_, _, _, _, h⟩ := signal_eq s; rw [h]
@[simp] theorem signal_noRouted (s : State) : (signal s).noRouted = s.noRouted := by
  obtain ⟨_, _, _, _, h⟩ := signal_eq s; rw [h]
@[simp] theorem signal_applyWaits (s : State) : (signal s).applyWaits = s.applyWaits := by
  obtain ⟨_, _, _, _, h⟩ := signal_eq s; rw [h]
@[simp] theorem signal_ferries (s : State) : (signal s).ferries = s.ferries := by
  obtain ⟨_, _, _, _, h⟩ := signal_eq s; rw [h]
@[simp] theorem signal_groups (s : State) : (signal s).groups = s.groups := by
  obtain ⟨_, _, _, _, h⟩ := signal_eq s; rw [h]
@[simp] theorem signal_objects (s : State) : (signal s).objects = s.objects := by
  obtain ⟨_, _, _, _, h⟩ := signal_eq s; rw [h]
@[simp] theorem signal_tierQ (s : State) : (signal s).tierQ = s.tierQ := by
  obtain ⟨_, _, _, _, h⟩ := signal_eq s; rw [h]
@[simp] theorem signal_tierMoves (s : State) : (signal s).tierMoves = s.tierMoves := by
  obtain ⟨_, _, _, _, h⟩ := signal_eq s; rw [h]
@[simp] theorem signal_indexes (s : State) : (signal s).indexes = s.indexes := by
  obtain ⟨_, _, _, _, h⟩ := signal_eq s; rw [h]
@[simp] theorem signal_engines (s : State) : (signal s).engines = s.engines := by
  obtain ⟨_, _, _, _, h⟩ := signal_eq s; rw [h]
@[simp] theorem signal_berths (s : State) : (signal s).berths = s.berths := by
  obtain ⟨_, _, _, _, h⟩ := signal_eq s; rw [h]
@[simp] theorem signal_boot (s : State) : (signal s).boot = s.boot := by
  obtain ⟨_, _, _, _, h⟩ := signal_eq s; rw [h]
@[simp] theorem signal_partCmd (s : State) : (signal s).partCmd = s.partCmd := by
  obtain ⟨_, _, _, _, h⟩ := signal_eq s; rw [h]
@[simp] theorem signal_powerSlots (s : State) : (signal s).powerSlots = s.powerSlots := by
  obtain ⟨_, _, _, _, h⟩ := signal_eq s; rw [h]
@[simp] theorem signal_transition (s : State) : (signal s).transition = s.transition := by
  obtain ⟨_, _, _, _, h⟩ := signal_eq s; rw [h]
@[simp] theorem signal_critAt (s : State) : (signal s).critAt = s.critAt := by
  obtain ⟨_, _, _, _, h⟩ := signal_eq s; rw [h]
@[simp] theorem signal_bar4 (s : State) : (signal s).bar4 = s.bar4 := by
  obtain ⟨_, _, _, _, h⟩ := signal_eq s; rw [h]
@[simp] theorem signal_fmask (s : State) : (signal s).fmask = s.fmask := by
  obtain ⟨_, _, _, _, h⟩ := signal_eq s; rw [h]
@[simp] theorem signal_busMaster (s : State) : (signal s).busMaster = s.busMaster := by
  obtain ⟨_, _, _, _, h⟩ := signal_eq s; rw [h]
@[simp] theorem signal_log (s : State) : (signal s).log = s.log := by
  obtain ⟨_, _, _, _, h⟩ := signal_eq s; rw [h]
@[simp] theorem signal_responding (s : State) : (signal s).responding = s.responding := by
  obtain ⟨_, _, _, _, h⟩ := signal_eq s; rw [h]
@[simp] theorem signal_hostKey (s : State) : (signal s).hostKey = s.hostKey := by
  obtain ⟨_, _, _, _, h⟩ := signal_eq s; rw [h]
@[simp] theorem signal_drawn (s : State) : (signal s).drawn = s.drawn := by
  obtain ⟨_, _, _, _, h⟩ := signal_eq s; rw [h]
@[simp] theorem signal_doe (s : State) : (signal s).doe = s.doe := by
  obtain ⟨_, _, _, _, h⟩ := signal_eq s; rw [h]
@[simp] theorem signal_doeBuf (s : State) : (signal s).doeBuf = s.doeBuf := by
  obtain ⟨_, _, _, _, h⟩ := signal_eq s; rw [h]
@[simp] theorem signal_i3cDyn (s : State) : (signal s).i3cDyn = s.i3cDyn := by
  obtain ⟨_, _, _, _, h⟩ := signal_eq s; rw [h]
@[simp] theorem signal_i3cOff (s : State) : (signal s).i3cOff = s.i3cOff := by
  obtain ⟨_, _, _, _, h⟩ := signal_eq s; rw [h]
@[simp] theorem signal_i3cIbi (s : State) : (signal s).i3cIbi = s.i3cIbi := by
  obtain ⟨_, _, _, _, h⟩ := signal_eq s; rw [h]
@[simp] theorem signal_tapIr (s : State) : (signal s).tapIr = s.tapIr := by
  obtain ⟨_, _, _, _, h⟩ := signal_eq s; rw [h]
@[simp] theorem signal_cells (s : State) : (signal s).cells = s.cells := by
  obtain ⟨_, _, _, _, h⟩ := signal_eq s; rw [h]
@[simp] theorem signal_mem (s : State) : (signal s).mem = s.mem := by
  obtain ⟨_, _, _, _, h⟩ := signal_eq s; rw [h]
@[simp] theorem signal_poison (s : State) : (signal s).poison = s.poison := by
  obtain ⟨_, _, _, _, h⟩ := signal_eq s; rw [h]
@[simp] theorem signal_blurred (s : State) : (signal s).blurred = s.blurred := by
  obtain ⟨_, _, _, _, h⟩ := signal_eq s; rw [h]
@[simp] theorem signal_image (s : State) : (signal s).image = s.image := by
  obtain ⟨_, _, _, _, h⟩ := signal_eq s; rw [h]
@[simp] theorem signal_flash (s : State) : (signal s).flash = s.flash := by
  obtain ⟨_, _, _, _, h⟩ := signal_eq s; rw [h]
@[simp] theorem signal_withheld (s : State) : (signal s).withheld = s.withheld := by
  obtain ⟨_, _, _, _, h⟩ := signal_eq s; rw [h]
@[simp] theorem signal_fresh (s : State) : (signal s).fresh = s.fresh := by
  obtain ⟨_, _, _, _, h⟩ := signal_eq s; rw [h]

@[simp] theorem logAdd_pending (s : State) (e : LogEntry) : (logAdd s e).pending = s.pending := by
  obtain ⟨_, h⟩ := logAdd_eq s e; rw [h]
@[simp] theorem logAdd_regs (s : State) (e : LogEntry) : (logAdd s e).regs = s.regs := by
  obtain ⟨_, h⟩ := logAdd_eq s e; rw [h]
@[simp] theorem logAdd_pairRead (s : State) (e : LogEntry) : (logAdd s e).pairRead = s.pairRead := by
  obtain ⟨_, h⟩ := logAdd_eq s e; rw [h]
@[simp] theorem logAdd_pairWrite (s : State) (e : LogEntry) : (logAdd s e).pairWrite = s.pairWrite := by
  obtain ⟨_, h⟩ := logAdd_eq s e; rw [h]
@[simp] theorem logAdd_tide (s : State) (e : LogEntry) : (logAdd s e).tide = s.tide := by
  obtain ⟨_, h⟩ := logAdd_eq s e; rw [h]
@[simp] theorem logAdd_landing (s : State) (e : LogEntry) : (logAdd s e).landing = s.landing := by
  obtain ⟨_, h⟩ := logAdd_eq s e; rw [h]
@[simp] theorem logAdd_held (s : State) (e : LogEntry) : (logAdd s e).held = s.held := by
  obtain ⟨_, h⟩ := logAdd_eq s e; rw [h]
@[simp] theorem logAdd_fullBlocks (s : State) (e : LogEntry) : (logAdd s e).fullBlocks = s.fullBlocks := by
  obtain ⟨_, h⟩ := logAdd_eq s e; rw [h]
@[simp] theorem logAdd_sealCtr (s : State) (e : LogEntry) : (logAdd s e).sealCtr = s.sealCtr := by
  obtain ⟨_, h⟩ := logAdd_eq s e; rw [h]
@[simp] theorem logAdd_cores (s : State) (e : LogEntry) : (logAdd s e).cores = s.cores := by
  obtain ⟨_, h⟩ := logAdd_eq s e; rw [h]
@[simp] theorem logAdd_links (s : State) (e : LogEntry) : (logAdd s e).links = s.links := by
  obtain ⟨_, h⟩ := logAdd_eq s e; rw [h]
@[simp] theorem logAdd_ports (s : State) (e : LogEntry) : (logAdd s e).ports = s.ports := by
  obtain ⟨_, h⟩ := logAdd_eq s e; rw [h]
@[simp] theorem logAdd_routeWait (s : State) (e : LogEntry) : (logAdd s e).routeWait = s.routeWait := by
  obtain ⟨_, h⟩ := logAdd_eq s e; rw [h]
@[simp] theorem logAdd_noRouted (s : State) (e : LogEntry) : (logAdd s e).noRouted = s.noRouted := by
  obtain ⟨_, h⟩ := logAdd_eq s e; rw [h]
@[simp] theorem logAdd_applyWaits (s : State) (e : LogEntry) : (logAdd s e).applyWaits = s.applyWaits := by
  obtain ⟨_, h⟩ := logAdd_eq s e; rw [h]
@[simp] theorem logAdd_ferries (s : State) (e : LogEntry) : (logAdd s e).ferries = s.ferries := by
  obtain ⟨_, h⟩ := logAdd_eq s e; rw [h]
@[simp] theorem logAdd_groups (s : State) (e : LogEntry) : (logAdd s e).groups = s.groups := by
  obtain ⟨_, h⟩ := logAdd_eq s e; rw [h]
@[simp] theorem logAdd_objects (s : State) (e : LogEntry) : (logAdd s e).objects = s.objects := by
  obtain ⟨_, h⟩ := logAdd_eq s e; rw [h]
@[simp] theorem logAdd_tierQ (s : State) (e : LogEntry) : (logAdd s e).tierQ = s.tierQ := by
  obtain ⟨_, h⟩ := logAdd_eq s e; rw [h]
@[simp] theorem logAdd_tierMoves (s : State) (e : LogEntry) : (logAdd s e).tierMoves = s.tierMoves := by
  obtain ⟨_, h⟩ := logAdd_eq s e; rw [h]
@[simp] theorem logAdd_indexes (s : State) (e : LogEntry) : (logAdd s e).indexes = s.indexes := by
  obtain ⟨_, h⟩ := logAdd_eq s e; rw [h]
@[simp] theorem logAdd_engines (s : State) (e : LogEntry) : (logAdd s e).engines = s.engines := by
  obtain ⟨_, h⟩ := logAdd_eq s e; rw [h]
@[simp] theorem logAdd_berths (s : State) (e : LogEntry) : (logAdd s e).berths = s.berths := by
  obtain ⟨_, h⟩ := logAdd_eq s e; rw [h]
@[simp] theorem logAdd_boot (s : State) (e : LogEntry) : (logAdd s e).boot = s.boot := by
  obtain ⟨_, h⟩ := logAdd_eq s e; rw [h]
@[simp] theorem logAdd_partCmd (s : State) (e : LogEntry) : (logAdd s e).partCmd = s.partCmd := by
  obtain ⟨_, h⟩ := logAdd_eq s e; rw [h]
@[simp] theorem logAdd_powerSlots (s : State) (e : LogEntry) : (logAdd s e).powerSlots = s.powerSlots := by
  obtain ⟨_, h⟩ := logAdd_eq s e; rw [h]
@[simp] theorem logAdd_transition (s : State) (e : LogEntry) : (logAdd s e).transition = s.transition := by
  obtain ⟨_, h⟩ := logAdd_eq s e; rw [h]
@[simp] theorem logAdd_critAt (s : State) (e : LogEntry) : (logAdd s e).critAt = s.critAt := by
  obtain ⟨_, h⟩ := logAdd_eq s e; rw [h]
@[simp] theorem logAdd_bar4 (s : State) (e : LogEntry) : (logAdd s e).bar4 = s.bar4 := by
  obtain ⟨_, h⟩ := logAdd_eq s e; rw [h]
@[simp] theorem logAdd_pba (s : State) (e : LogEntry) : (logAdd s e).pba = s.pba := by
  obtain ⟨_, h⟩ := logAdd_eq s e; rw [h]
@[simp] theorem logAdd_fmask (s : State) (e : LogEntry) : (logAdd s e).fmask = s.fmask := by
  obtain ⟨_, h⟩ := logAdd_eq s e; rw [h]
@[simp] theorem logAdd_pend (s : State) (e : LogEntry) : (logAdd s e).pend = s.pend := by
  obtain ⟨_, h⟩ := logAdd_eq s e; rw [h]
@[simp] theorem logAdd_busMaster (s : State) (e : LogEntry) : (logAdd s e).busMaster = s.busMaster := by
  obtain ⟨_, h⟩ := logAdd_eq s e; rw [h]
@[simp] theorem logAdd_responding (s : State) (e : LogEntry) : (logAdd s e).responding = s.responding := by
  obtain ⟨_, h⟩ := logAdd_eq s e; rw [h]
@[simp] theorem logAdd_hostKey (s : State) (e : LogEntry) : (logAdd s e).hostKey = s.hostKey := by
  obtain ⟨_, h⟩ := logAdd_eq s e; rw [h]
@[simp] theorem logAdd_drawn (s : State) (e : LogEntry) : (logAdd s e).drawn = s.drawn := by
  obtain ⟨_, h⟩ := logAdd_eq s e; rw [h]
@[simp] theorem logAdd_doe (s : State) (e : LogEntry) : (logAdd s e).doe = s.doe := by
  obtain ⟨_, h⟩ := logAdd_eq s e; rw [h]
@[simp] theorem logAdd_doeBuf (s : State) (e : LogEntry) : (logAdd s e).doeBuf = s.doeBuf := by
  obtain ⟨_, h⟩ := logAdd_eq s e; rw [h]
@[simp] theorem logAdd_alert (s : State) (e : LogEntry) : (logAdd s e).alert = s.alert := by
  obtain ⟨_, h⟩ := logAdd_eq s e; rw [h]
@[simp] theorem logAdd_i3cDyn (s : State) (e : LogEntry) : (logAdd s e).i3cDyn = s.i3cDyn := by
  obtain ⟨_, h⟩ := logAdd_eq s e; rw [h]
@[simp] theorem logAdd_i3cOff (s : State) (e : LogEntry) : (logAdd s e).i3cOff = s.i3cOff := by
  obtain ⟨_, h⟩ := logAdd_eq s e; rw [h]
@[simp] theorem logAdd_i3cIbi (s : State) (e : LogEntry) : (logAdd s e).i3cIbi = s.i3cIbi := by
  obtain ⟨_, h⟩ := logAdd_eq s e; rw [h]
@[simp] theorem logAdd_tapIr (s : State) (e : LogEntry) : (logAdd s e).tapIr = s.tapIr := by
  obtain ⟨_, h⟩ := logAdd_eq s e; rw [h]
@[simp] theorem logAdd_cells (s : State) (e : LogEntry) : (logAdd s e).cells = s.cells := by
  obtain ⟨_, h⟩ := logAdd_eq s e; rw [h]
@[simp] theorem logAdd_mem (s : State) (e : LogEntry) : (logAdd s e).mem = s.mem := by
  obtain ⟨_, h⟩ := logAdd_eq s e; rw [h]
@[simp] theorem logAdd_poison (s : State) (e : LogEntry) : (logAdd s e).poison = s.poison := by
  obtain ⟨_, h⟩ := logAdd_eq s e; rw [h]
@[simp] theorem logAdd_blurred (s : State) (e : LogEntry) : (logAdd s e).blurred = s.blurred := by
  obtain ⟨_, h⟩ := logAdd_eq s e; rw [h]
@[simp] theorem logAdd_image (s : State) (e : LogEntry) : (logAdd s e).image = s.image := by
  obtain ⟨_, h⟩ := logAdd_eq s e; rw [h]
@[simp] theorem logAdd_flash (s : State) (e : LogEntry) : (logAdd s e).flash = s.flash := by
  obtain ⟨_, h⟩ := logAdd_eq s e; rw [h]
@[simp] theorem logAdd_withheld (s : State) (e : LogEntry) : (logAdd s e).withheld = s.withheld := by
  obtain ⟨_, h⟩ := logAdd_eq s e; rw [h]
@[simp] theorem logAdd_out (s : State) (e : LogEntry) : (logAdd s e).out = s.out := by
  obtain ⟨_, h⟩ := logAdd_eq s e; rw [h]
@[simp] theorem logAdd_fresh (s : State) (e : LogEntry) : (logAdd s e).fresh = s.fresh := by
  obtain ⟨_, h⟩ := logAdd_eq s e; rw [h]

/-! Reading registers and units. -/

/-- Two register words of pages whose offsets lie below 4096 are one word only if page and offset agree. -/
theorem regKey_inj {p o q r : Nat} (ho : o < 4096) (hr : r < 4096) : regKey p o = regKey q r ↔ p = q ∧ o = r := by
  unfold regKey
  omega

theorem rd_eq_of_regs {s t : State} (h : t.regs = s.regs) (p o : Nat) : t.rd p o = s.rd p o := by simp [State.rd, h]

@[simp] theorem signal_rd (s : State) (p o : Nat) : (signal s).rd p o = s.rd p o := rd_eq_of_regs (signal_regs s) p o
@[simp] theorem signal_rd64 (s : State) (p o : Nat) : (signal s).rd64 p o = s.rd64 p o := by simp [State.rd64]
@[simp] theorem signal_rdN (s : State) (p o : Nat) : (signal s).rdN p o = s.rdN p o := by simp [State.rdN]
@[simp] theorem signal_get (s : State) (f : Fld) : (signal s).get f = s.get f := by simp [State.get]
@[simp] theorem signal_bit (s : State) (f : Fld) : (signal s).bit f = s.bit f := by simp [State.bit]
@[simp] theorem signal_core (s : State) (id : CoreId) : (signal s).core id = s.core id := by simp [State.core]
@[simp] theorem signal_byte (s : State) (a : Nat) : (signal s).byte a = s.byte a := by simp [State.byte, State.blank]

@[simp] theorem logAdd_rd (s : State) (e : LogEntry) (p o : Nat) : (logAdd s e).rd p o = s.rd p o :=
  rd_eq_of_regs (logAdd_regs s e) p o
@[simp] theorem logAdd_core (s : State) (e : LogEntry) (id : CoreId) : (logAdd s e).core id = s.core id := by simp [State.core]

/-- A register word just written. -/
@[simp] theorem rd_wr_same (s : State) (p o : Nat) (v : W32) : (s.wr p o v).rd p o = v := by simp [State.rd, State.wr]

/-- Another register word. -/
theorem rd_wr_other (s : State) {p o q r : Nat} (v : W32) (h : regKey q r ≠ regKey p o) : (s.wr p o v).rd q r = s.rd q r := by
  simp [State.rd, State.wr, storeGet_storePut_other _ _ _ _ h]

@[simp] theorem rd_wrN_same (s : State) (p o v : Nat) : (s.wrN p o v).rd p o = BitVec.ofNat 32 v := rd_wr_same s p o _

@[simp] theorem rd64_wr64_same (s : State) (p o : Nat) (v : W64) : (s.wr64 p o v).rd64 p o = v := by
  have h : regKey p o ≠ regKey p (o + 4) := by unfold regKey; omega
  simp only [State.rd64, State.wr64, rd_wr_same, rd_wr_other _ _ h]
  apply BitVec.eq_of_getLsbD_eq
  intro i hi
  rw [BitVec.getLsbD_append]
  by_cases h : i < 32
  · simp [h]
  · simp [h, show i - 32 < 32 by omega, show 32 + (i - 32) = i by omega]

@[simp] theorem rd64_add64_same (s : State) (p o n : Nat) : (s.add64 p o n).rd64 p o = s.rd64 p o + BitVec.ofNat 64 n :=
  rd64_wr64_same s p o _

@[simp] theorem core_setCore_same (s : State) (id : CoreId) (c : Core) : (s.setCore id c).core id = c := by
  simp [State.core, State.setCore]

@[simp] theorem core_wr (s : State) (p o : Nat) (v : W32) (id : CoreId) : (s.wr p o v).core id = s.core id := rfl
@[simp] theorem core_wrN (s : State) (p o v : Nat) (id : CoreId) : (s.wrN p o v).core id = s.core id := rfl
@[simp] theorem core_wr64 (s : State) (p o : Nat) (v : W64) (id : CoreId) : (s.wr64 p o v).core id = s.core id := rfl
@[simp] theorem core_add64 (s : State) (p o n : Nat) (id : CoreId) : (s.add64 p o n).core id = s.core id := rfl
@[simp] theorem rd_setCore (s : State) (id : CoreId) (c : Core) (p o : Nat) : (s.setCore id c).rd p o = s.rd p o := rfl
@[simp] theorem rd64_setCore (s : State) (id : CoreId) (c : Core) (p o : Nat) : (s.setCore id c).rd64 p o = s.rd64 p o := rfl

end Sys2Proof.Machine
end

