-- ==== Sys2Proof/Laws/Core.lean ====
section
/-! SUPPORT. How a core issues: the one lemma about `issue` that every instruction's result rests on, and what going to sea and
retiring do to a core. -/

namespace Sys2Proof.Machine

/-- An instruction that is ready, legal, without a fault and without a wait has its effect, and retires unless it goes on. -/
theorem issue_next {mn : String} {id : CoreId} {s : State} {legal : Bool} {fault : State → Core → Option FaultRec}
    {touch : Core → Touch} {block : State → Core → Option (Nat × List ConsKey)} {effect : Core → State → State}
    {sea : State → Core → List (ConsKey × Nat)} {keep : State → Core → Bool}
    (hid : coreOk id = true) (hc : canIssue s id = true) (hf : fetchFault s id = none) (hb : fetchBlocked s id = false)
    (hl : legal = true) (hx : fault s (s.core id) = none)
    (hq : quayWaits (goSea (s.core id) (sea s (s.core id))) (touch (s.core id)) = false)
    (hh : scoreboardHolds (s.core id) (touch (s.core id)) = false) (hk : block s (s.core id) = none) :
    issue mn id s legal fault touch block effect sea keep =
      finish (effect (s.core id)
        (if keep s (s.core id)
          then updCore s id (fun c => { markSea (goSea c (sea s c)) (touch c) with wait := 0, waitOn := [] })
          else retire (updCore s id (fun c => { markSea (goSea c (sea s c)) (touch c) with wait := 0, waitOn := [] })) id)) := by
  simp [issue, hid, hc, hf, hb, hl, hx, hq, hh, hk]

/-- A fault found at issue on a core that is not at sea is taken at PC. -/
theorem issue_fault {mn : String} {id : CoreId} {s : State} {legal : Bool} {fault : State → Core → Option FaultRec}
    {touch : Core → Touch} {block : State → Core → Option (Nat × List ConsKey)} {effect : Core → State → State}
    {sea : State → Core → List (ConsKey × Nat)} {keep : State → Core → Bool} {r : FaultRec}
    (hid : coreOk id = true) (hc : canIssue s id = true) (hf : fetchFault s id = none) (hb : fetchBlocked s id = false)
    (hl : legal = true) (hx : fault s (s.core id) = some r) :
    issue mn id s legal fault touch block effect sea keep = faultAt s id r := by
  simp [issue, hid, hc, hf, hb, hl, hx]

/-- An illegal encoding. -/
theorem issue_illegal {mn : String} {id : CoreId} {s : State} {fault : State → Core → Option FaultRec}
    {touch : Core → Touch} {block : State → Core → Option (Nat × List ConsKey)} {effect : Core → State → State}
    {sea : State → Core → List (ConsKey × Nat)} {keep : State → Core → Bool}
    (hid : coreOk id = true) (hc : canIssue s id = true) (hf : fetchFault s id = none) (hb : fetchBlocked s id = false) :
    issue mn id s false fault touch block effect sea keep = faultAt s id { code := 0x1001 } := by
  simp [issue, hid, hc, hf, hb]

@[simp] theorem goSea_nil (c : Core) : goSea c [] = c := by simp [goSea]

theorem setBitsOf_nil {w : Nat} (v : BitVec w) : setBitsOf v [] = v := rfl
theorem clearBitsOf_nil {w : Nat} (v : BitVec w) : clearBitsOf v [] = v := rfl

/-- Nothing touched marks nothing. -/
@[simp] theorem markSea_empty (c : Core) (o : Bool) : markSea c { outside := o } = c := by
  unfold markSea
  split
  · rfl
  · simp [setBitsOf_nil, clearBitsOf_nil]

/-- On shore nothing is marked. -/
theorem markSea_shore {c : Core} (h : c.hold = []) (t : Touch) : markSea c t = c := by
  simp [markSea, Core.atSea, h]

theorem quayWaits_shore {c : Core} (h : c.hold = []) (t : Touch) : quayWaits c t = false := by
  simp [quayWaits, Core.atSea, h]

@[simp] theorem quayWaits_empty (c : Core) : quayWaits c {} = false := by simp [quayWaits]

@[simp] theorem anyBit_zero {w : Nat} (l : List Nat) : anyBit (0#w) l = false := by simp [anyBit]

theorem tainted_empty (c : Core) : tainted c {} = false := by simp [tainted, anyBit]

@[simp] theorem scoreboardHolds_empty (c : Core) (o : Bool) : scoreboardHolds c { outside := o } = false := by
  simp [scoreboardHolds, anyBit]

/-- With no move outstanding and no refresh in progress the scoreboard holds nothing. -/
theorem scoreboardHolds_clear {c : Core} (hm : c.moves = []) (ht : c.refT = 0) (hr : c.refR = 0) (t : Touch) :
    scoreboardHolds c t = false := by
  simp [scoreboardHolds, hm, ht, hr, anyBit_zero]

theorem updCore_core (s : State) (id : CoreId) (f : Core → Core) : (updCore s id f).core id = f (s.core id) := by
  simp [updCore]

@[simp] theorem updCore_rd64 (s : State) (id : CoreId) (f : Core → Core) (p o : Nat) : (updCore s id f).rd64 p o = s.rd64 p o := rfl
@[simp] theorem updCore_rd (s : State) (id : CoreId) (f : Core → Core) (p o : Nat) : (updCore s id f).rd p o = s.rd p o := rfl

@[simp] theorem changes_updCore {s t : State} {may : Part → Prop} {id : CoreId} {f : Core → Core} (h : may (.core id.toNat)) :
    Changes s (updCore t id f) may ↔ Changes s t may := changes_setCore h

/-- The core after it retires. -/
def retireCore (c : Core) : Core :=
  { c with pc := c.pc + 8, wait := 0, waitOn := []
           fetchq := popFetch c
           seaRetired := if c.hold.isEmpty then c.seaRetired else c.seaRetired + 1 }

theorem retire_core (s : State) (id : CoreId) : (retire s id).core id = retireCore (s.core id) := by
  simp only [retire]
  split <;> rename_i hs <;> simp_all [retireCore, Core.atSea]

theorem retire_retired (s : State) (id : CoreId) :
    (retire s id).rd64 (corePage id) 0x080 =
      s.rd64 (corePage id) 0x080 + (if (s.core id).hold.isEmpty then 1 else 0) := by
  simp only [retire]
  split <;> rename_i hs <;> simp_all [Core.atSea]

@[simp] theorem changes_retire {s t : State} {may : Part → Prop} {id : CoreId} (h : may (.core id.toNat))
    (h1 : may (.reg (regKey (corePage id) 0x080))) (h2 : may (.reg (regKey (corePage id) 0x084))) :
    Changes s (retire t id) may ↔ Changes s t may := by
  simp only [retire]
  split <;> simp [h, h1, h2]

end Sys2Proof.Machine
end

