-- ==== Sys2Proof/Laws/Claims.lean ====
section
/-! SUPPORT. The terms of the claims, part by part. -/

namespace Sys2Proof.Claims

open Sys2Proof.Machine

@[simp] theorem nothing_iff (p : Part) : nothing p ↔ False := Iff.rfl
@[simp] theorem parts_iff (l : List Part) (p : Part) : parts l p ↔ p ∈ l := Iff.rfl
@[simp] theorem also_iff (x y : Part → Prop) (p : Part) : also x y p ↔ x p ∨ y p := Iff.rfl
@[simp] theorem bytesAt_iff (a n : Nat) (p : Part) : bytesAt a n p ↔ ∃ k, k < n ∧ p = .byte (a + k) := Iff.rfl
@[simp] theorem coreParts_iff (id : CoreId) (p : Part) :
    coreParts id p ↔ p = .core id.toNat ∨ p = .reg (regKey (corePage id) 0x080) ∨ p = .reg (regKey (corePage id) 0x084)
      ∨ p = .signals := by
  simp [coreParts]

/-- The core after it retires is the model's. -/
theorem retired_eq (c : Core) : retired c = retireCore c := rfl

end Sys2Proof.Claims
end

