-- ==== Sys2Proof/Laws/Memory.lean ====
section
/-! SUPPORT. Memory: a byte stored is the byte read, every other byte is as it was, and every operation on memory keeps its
canonical form. -/

namespace Sys2Proof.Machine

@[simp] theorem blank_storeByte (s : State) (a b : Nat) (v : Byte) : (s.storeByte a v).blank b = s.blank b := rfl

/-- Bytes below and above those that are stored are as they were. -/
theorem byte_storeBytes_other (s : State) (a b : Nat) (l : List Byte) (h : b < a ∨ a + l.length ≤ b) :
    (s.storeBytes a l).byte b = s.byte b := by
  induction l generalizing s a with
  | nil => rfl
  | cons x r ih =>
    simp only [List.length_cons] at h
    rw [State.storeBytes, ih (s.storeByte a x) (a + 1) (by omega), byte_storeByte_other s x (by omega)]

/-- The bytes that are stored are the bytes read. -/
theorem byte_storeBytes_at (s : State) (a j : Nat) (l : List Byte) (h : j < l.length) :
    (s.storeBytes a l).byte (a + j) = l.getD j 0 := by
  induction l generalizing s a j with
  | nil => simp at h
  | cons x r ih =>
    rw [State.storeBytes]
    cases j with
    | zero =>
      rw [byte_storeBytes_other _ _ _ _ (by omega)]
      simp [byte_storeByte_same]
    | succ k =>
      have e : a + (k + 1) = a + 1 + k := by omega
      rw [e, ih (s.storeByte a x) (a + 1) k (by simpa using h)]
      simp

/-! Ranges of blurred bytes. -/

theorem blurAt_append (x y : List (Nat × Nat × Nat)) (k : Nat) (h : ∀ r ∈ x, k < r.1 ∨ r.1 + r.2.1 ≤ k) :
    blurAt (x ++ y) k = blurAt y k := by
  induction x with
  | nil => rfl
  | cons r rs ih =>
    obtain ⟨b, n, f⟩ := r
    have hr := h _ (List.mem_cons_self ..)
    have : (decide (b ≤ k) && decide (k < b + n)) = false := by
      rw [Bool.and_eq_false_iff]
      simp only [decide_eq_false_iff_not]
      simp only at hr
      omega
    simp only [List.cons_append, blurAt, this]
    exact ih (fun r hr => h r (List.mem_cons_of_mem _ hr))

theorem blurAt_append_left (x y : List (Nat × Nat × Nat)) (k : Nat) (h : ∀ r ∈ y, k < r.1 ∨ r.1 + r.2.1 ≤ k) :
    blurAt (x ++ y) k = blurAt x k := by
  induction x with
  | nil =>
    have := blurAt_append y [] k h
    simpa [blurAt] using this
  | cons r rs ih =>
    obtain ⟨b, n, f⟩ := r
    simp only [List.cons_append, blurAt, ih]

theorem cutBlur_cons (a n : Nat) (r : Nat × Nat × Nat) (l : List (Nat × Nat × Nat)) :
    cutBlur a n (r :: l) =
      ((if r.1 < a then [(r.1, min r.2.1 (a - r.1), r.2.2)] else [])
        ++ (if a + n < r.1 + r.2.1 then [(max r.1 (a + n), r.1 + r.2.1 - max r.1 (a + n), r.2.2 + (max r.1 (a + n) - r.1))] else []))
      ++ cutBlur a n l := by
  simp [cutBlur]

/-- Cutting a range out leaves what the bytes outside it read as. -/
theorem blurAt_cutBlur (a n k : Nat) (l : List (Nat × Nat × Nat)) (h : k < a ∨ a + n ≤ k) :
    blurAt (cutBlur a n l) k = blurAt l k := by
  induction l with
  | nil => rfl
  | cons r l ih =>
    obtain ⟨b, m, f⟩ := r
    rw [cutBlur_cons]
    by_cases hin : b ≤ k ∧ k < b + m
    · have hd : (decide (b ≤ k) && decide (k < b + m)) = true := by simp [hin]
      simp only [blurAt, hd, if_true]
      rcases h with h | h
      · have h1 : b < a := by omega
        have h2 : (decide (b ≤ k) && decide (k < b + min m (a - b))) = true := by
          simp only [Bool.and_eq_true, decide_eq_true_eq]
          omega
        simp [h1, blurAt, h2]
      · have h1 : a + n < b + m := by omega
        have h2 : (decide (max b (a + n) ≤ k) && decide (k < max b (a + n) + (b + m - max b (a + n)))) = true := by
          simp only [Bool.and_eq_true, decide_eq_true_eq]
          omega
        have e : f + (max b (a + n) - b) + (k - max b (a + n)) = f + (k - b) := by omega
        rw [List.append_assoc, blurAt_append]
        · rw [if_pos h1, List.singleton_append, blurAt, if_pos h2, e]
        · intro r hr
          split at hr
          · simp only [List.mem_singleton] at hr
            subst hr
            simp only
            omega
          · simp at hr
    · have hd : (decide (b ≤ k) && decide (k < b + m)) = false := by
        rw [Bool.and_eq_false_iff]
        simp only [decide_eq_false_iff_not]
        omega
      simp only [blurAt, hd]
      rw [blurAt_append, ih]
      · simp
      · intro r hr
        simp only [List.mem_append] at hr
        rcases hr with hr | hr
        · split at hr
          · simp only [List.mem_singleton] at hr
            subst hr
            simp only
            omega
          · simp at hr
        · split at hr
          · simp only [List.mem_singleton] at hr
            subst hr
            simp only
            omega
          · simp at hr

/-! The canonical form. -/

theorem storeAbove_congr {α : Type} [DecidableEq α] {d e : Nat → α} {lo : Nat} {m : Store α} (h : ∀ x ∈ m, d x.1 = e x.1) :
    storeAbove d lo m = storeAbove e lo m := by
  induction m generalizing lo with
  | nil => rfl
  | cons x r ih =>
    obtain ⟨j, v⟩ := x
    have hj := h _ (List.mem_cons_self ..)
    simp only at hj
    simp only [storeAbove, hj, ih (fun y hy => h y (List.mem_cons_of_mem _ hy))]

theorem storeWf_congr {α : Type} [DecidableEq α] {d e : Nat → α} {m : Store α} (h : ∀ x ∈ m, d x.1 = e x.1) :
    storeWf d m = storeWf e m := by
  cases m with
  | nil => rfl
  | cons x r =>
    obtain ⟨j, v⟩ := x
    have hj := h _ (List.mem_cons_self ..)
    simp only at hj
    simp only [storeWf, hj, storeAbove_congr (fun y hy => h y (List.mem_cons_of_mem _ hy))]

/-- What keeps memory and its blurred ranges keeps the canonical form. -/
theorem Memory.wf_congr {s t : State} (hm : t.mem = s.mem) (hb : t.blurred = s.blurred) : Memory.wf t = Memory.wf s := by
  have e : t.blank = s.blank := by
    funext a
    simp only [State.blank, hb]
  simp only [Memory.wf, hm, e]

/-- Storing a byte keeps the canonical form. -/
theorem Memory.wf_storeByte (s : State) (a : Nat) (v : Byte) (h : Memory.wf s = true) : Memory.wf (s.storeByte a v) = true :=
  storeWf_storePut (s.blank) a v h

/-- Storing bytes keeps it. -/
theorem Memory.wf_storeBytes (s : State) (a : Nat) (l : List Byte) (h : Memory.wf s = true) :
    Memory.wf (s.storeBytes a l) = true := by
  induction l generalizing s a with
  | nil => exact h
  | cons x r ih => exact ih _ _ (Memory.wf_storeByte s a x h)

theorem Memory.wf_storeN (s : State) (a n v : Nat) (h : Memory.wf s = true) : Memory.wf (s.storeN a n v) = true :=
  Memory.wf_storeBytes s a _ h

/-- Zeroing a range keeps it. -/
theorem Memory.wf_zeroRange (s : State) (a n : Nat) (h : Memory.wf s = true) : Memory.wf (s.zeroRange a n) = true := by
  have w : storeWf s.blank (storeKeep (fun k => decide (k < a) || decide (a + n ≤ k)) s.mem) = true :=
    storeWf_filter s.blank (fun k => decide (k < a) || decide (a + n ≤ k)) h
  rw [← w]
  refine storeWf_congr (fun x hx => ?_)
  have hk := (List.mem_filter.mp hx).2
  simp only [Bool.or_eq_true, decide_eq_true_eq] at hk
  exact blurAt_cutBlur a n x.1 s.blurred hk

/-- Making a range undefined keeps it. -/
theorem Memory.wf_blurRange (s : State) (a n : Nat) (h : Memory.wf s = true) : Memory.wf (s.blurRange a n) = true := by
  have w : storeWf s.blank (storeKeep (fun k => decide (k < a) || decide (a + n ≤ k)) s.mem) = true :=
    storeWf_filter s.blank (fun k => decide (k < a) || decide (a + n ≤ k)) h
  rw [← w]
  refine storeWf_congr (fun x hx => ?_)
  have hk := (List.mem_filter.mp hx).2
  simp only [Bool.or_eq_true, decide_eq_true_eq] at hk
  show blurAt (cutBlur a n s.blurred ++ [(a, n, s.fresh)]) x.1 = blurAt s.blurred x.1
  rw [blurAt_append_left, blurAt_cutBlur a n x.1 s.blurred hk]
  intro r hr
  simp only [List.mem_singleton] at hr
  subst hr
  exact hk

end Sys2Proof.Machine
end

