-- ==== Sys2Proof/Laws/Operands.lean ====
section
/-! SUPPORT. Reading a core's registers after a write: scalar, mask and vector registers. -/

namespace Sys2Proof.Machine

theorem storeGet_append {α : Type} (m n : Store α) (k : Nat) (d : α) (h : ∀ x ∈ m, x.1 ≠ k) :
    storeGet (m ++ n) k d = storeGet n k d := by
  induction m with
  | nil => rfl
  | cons x r ih =>
    obtain ⟨j, v⟩ := x
    have hj : j ≠ k := h (j, v) (by simp)
    simp only [List.cons_append, storeGet, hj, if_false]
    exact ih (fun y hy => h y (by simp [hy]))

theorem storeGet_append_absent {α : Type} (m n : Store α) (k : Nat) (d : α) (h : ∀ x ∈ n, x.1 ≠ k) :
    storeGet (m ++ n) k d = storeGet m k d := by
  induction m with
  | nil =>
    have := storeGet_append n [] k d h
    simpa [storeGet] using this
  | cons x r ih =>
    obtain ⟨j, v⟩ := x
    by_cases hj : j = k <;> simp [storeGet, hj, ih]

/-- The listed values of a block, by position. -/
theorem storeGet_values {α : Type} [DecidableEq α] (vals : List α) (d : α) (base start i : Nat) (hs : start ≤ i) :
    storeGet (((vals.zipIdx start).map (fun x => (base + x.2, x.1))).filter (fun x => decide (x.2 ≠ d))) (base + i) d =
      vals.getD (i - start) d := by
  induction vals generalizing start with
  | nil => simp [storeGet]
  | cons v vs ih =>
    rw [List.zipIdx_cons, List.map_cons, List.filter_cons]
    by_cases hi : i = start
    · subst hi
      by_cases hv : v = d
      · simp only [hv, ne_eq, not_true, decide_false, Bool.false_eq_true, if_false, Nat.sub_self, List.getD_cons_zero]
        clear ih hv hs
        generalize hst : i + 1 = st
        have hlt : i < st := by omega
        clear hst
        induction vs generalizing st with
        | nil => simp [storeGet]
        | cons w ws ih =>
          rw [List.zipIdx_cons, List.map_cons, List.filter_cons]
          have hne : base + st ≠ base + i := by omega
          split
          · simp only [storeGet, hne, if_false]
            exact ih (st + 1) (by omega)
          · exact ih (st + 1) (by omega)
      · simp [hv, storeGet]
    · have hne : base + start ≠ base + i := by omega
      have hsub : i - start = (i - (start + 1)) + 1 := by omega
      rw [hsub, List.getD_cons_succ]
      split
      · simp only [storeGet, hne, if_false]
        exact ih (start + 1) (by omega)
      · exact ih (start + 1) (by omega)

/-- What a block reads as after it has been replaced, and every other key. -/
theorem storeGet_putBlock {α : Type} [DecidableEq α] (size k : Nat) (vals : List α) (d : α) (m : Store α) (r i : Nat)
    (hl : vals.length ≤ size) (hi : i < size) :
    storeGet (putBlock size k vals d m) (r * size + i) d =
      if r = k then vals.getD i d else storeGet m (r * size + i) d := by
  have hs : 0 < size := by omega
  have hdiv : (r * size + i) / size = r := by
    rw [Nat.mul_comm, Nat.mul_add_div hs, Nat.div_eq_of_lt hi, Nat.add_zero]
  have hmid : ∀ x ∈ (vals.zipIdx.map (fun x => (k * size + x.2, x.1))).filter (fun x => decide (x.2 ≠ d)),
      x.1 / size = k := by
    intro x hx
    obtain ⟨⟨v, j⟩, hj, rfl⟩ := List.mem_map.1 (List.mem_filter.1 hx).1
    have : j < size := by
      have := List.mem_zipIdx hj
      omega
    show (k * size + j) / size = k
    rw [Nat.mul_comm, Nat.mul_add_div hs, Nat.div_eq_of_lt this, Nat.add_zero]
  unfold putBlock
  by_cases hrk : r = k
  · subst hrk
    simp only [if_true]
    rw [storeGet_append_absent, storeGet_append]
    · exact storeGet_values vals d (r * size) 0 i (Nat.zero_le i)
    · intro x hx
      have := (List.mem_filter.1 hx).2
      simp only [decide_eq_true_eq] at this
      intro e
      rw [e, hdiv] at this
      omega
    · intro x hx
      have := (List.mem_filter.1 hx).2
      simp only [decide_eq_true_eq] at this
      intro e
      rw [e, hdiv] at this
      omega
  · simp only [hrk, if_false]
    by_cases hlt : r < k
    · rw [storeGet_append_absent, storeGet_append_absent]
      · exact storeGet_filter_of_pos m (fun x => decide (x / size < k)) d (by simp [hdiv, hlt])
      · intro x hx e
        have := hmid x hx
        rw [e, hdiv] at this
        omega
      · intro x hx e
        have := (List.mem_filter.1 hx).2
        simp only [decide_eq_true_eq] at this
        rw [e, hdiv] at this
        omega
    · rw [storeGet_append]
      · exact storeGet_filter_of_pos m (fun x => decide (k < x / size)) d (by simp [hdiv]; omega)
      · intro x hx e
        rcases List.mem_append.1 hx with hx | hx
        · have := (List.mem_filter.1 hx).2
          simp only [decide_eq_true_eq] at this
          rw [e, hdiv] at this
          omega
        · have := hmid x hx
          rw [e, hdiv] at this
          omega

/-- Lane i of a vector register after all 128 lanes of register d have been written. -/
theorem lane_setVreg (c : Core) (d : Nat) (vals : List W32) (hl : vals.length ≤ 128) (r i : Nat) (hi : i < 128) :
    (c.setVreg d vals).lane r i = if r = d then vals.getD i 0 else c.lane r i := by
  have h := storeGet_putBlock 128 d vals 0 c.vreg r i hl hi
  simp only [Core.lane, Core.setVreg, Nat.mul_comm 128 r]
  exact h

theorem s_setS_same (c : Core) {r : Nat} (v : W64) (h : r ≠ 0) : (c.setS r v).s r = v := by
  simp [Core.setS, Core.s, h]

theorem s_setS_other (c : Core) {r q : Nat} (v : W64) (h : q ≠ r) : (c.setS r v).s q = c.s q := by
  unfold Core.setS Core.s
  by_cases hr : r = 0 <;> simp [hr, storeGet_storePut_other _ _ _ _ h]

theorem mask_setMask_same (c : Core) {r : Nat} (v : BitVec 128) (h : r ≠ 0) : (c.setMask r v).mask r = v := by
  simp [Core.setMask, Core.mask, h]

theorem mask_setMask_other (c : Core) {r q : Nat} (v : BitVec 128) (h : q ≠ r) : (c.setMask r v).mask q = c.mask q := by
  unfold Core.setMask Core.mask
  by_cases hr : r = 0 <;> simp [hr, storeGet_storePut_other _ _ _ _ h]

end Sys2Proof.Machine
end

