-- ==== Sys2Proof/Tests/Slice0.lean ====
section
/-! SUPPORT. Tests: ill-formed commands, core words written out from 06, and for every row and clause of the statements a state and a
command that meet it (`meets_`), and where the kernel evaluates it quickly, that the command does there what the row says (`shows_`) or
changes only what it may (`ran_`). -/

namespace Sys2Proof.Tests
set_option Elab.async false
open Sys2Proof.Machine Sys2Proof.Claims

/-! A command that names no event is refused by the check, and stops the machine. -/

theorem test_ill_core : (.stopped 0x030 : Instr).wellFormed = false := by decide
theorem test_ill_last_core : (.stopped 0xFFF : Instr).wellFormed = false := by decide
theorem test_ill_beacon : (.beacon 0 [] 0 : Instr).wellFormed = false := by decide
theorem test_ill_notice : (.standNotice 0 (List.replicate 41 0) : Instr).wellFormed = false := by decide
theorem test_ill_header : (.consignmentHeader (.link 0) 0 (List.replicate 47 0) (List.replicate 16 0) : Instr).wellFormed = false := by decide
theorem test_ill_seal : (.consignmentHeader (.die 7) 0 (List.replicate 48 0) [] : Instr).wellFormed = false := by decide
theorem test_ill_flit : (.flitReceive 0 (List.replicate 27 0) : Instr).wellFormed = false := by decide
theorem test_ill_nack : (.nackList [(0x030, 0)] : Instr).wellFormed = false := by decide
theorem test_ill_stops : exec (.stopped 0x030) State.reset = .fault (.illFormed "STOPPED") := rfl

/-! Words of core instructions, laid out by hand from 06 R159, R160, R167, R171 and R177. -/

theorem test_word_add : decodeCoreWord 0 0x30420000000000 = some (.add 0 ⟨3, 1, 2, 0, 0, 0, 0, 0, 0, 0, 0⟩) := by decide
theorem test_word_addi : decodeCoreWord 0 0x4510000ffffffff = some (.addi 0 ⟨5, 4, 0, 0, 0xffffffff⟩) := by decide
theorem test_word_sethi : decodeCoreWord 0 0x871c00012345678 = some (.sethi 0 ⟨7, 7, 0, 0, 0x12345678⟩) := by decide
theorem test_word_ld32 : decodeCoreWord 0 0x1090801000000010 = some (.ld32 0 ⟨9, 2, 0, 0, 16⟩) := by decide
theorem test_word_st8 : decodeCoreWord 0 0x1400860000000001 = some (.st8 0 ⟨0, 2, 6, 0, 1⟩) := by decide
theorem test_word_bltu : decodeCoreWord 0 0x2000421000000040 = some (.bltu 0 ⟨0, 1, 2, 0, 64⟩) := by decide
theorem test_word_jal : decodeCoreWord 0 0x25f00000fffffff8 = some (.jal 0 ⟨31, 0, 0, 0, 0xfffffff8⟩) := by decide
theorem test_word_jalr : decodeCoreWord 0 0x2807c00000000000 = some (.jalr 0 ⟨0, 31, 0, 0, 0⟩) := by decide
theorem test_word_vfma : decodeCoreWord 0 0x43f0420c0fec0000 = some (.vfma 0 ⟨63, 1, 2, 3, 15, 2, 1, 1, 0, 0, 0⟩) := by decide
theorem test_word_viadd : decodeCoreWord 0 0x44a2cc0000400000 = some (.viadd 0 ⟨10, 11, 12, 0, 1, 0, 0, 0, 0, 0, 0⟩) := by decide
theorem test_word_feq : decodeCoreWord 0 0x4842cc0000800000 = some (.feq 0 ⟨4, 11, 12, 0, 2, 0, 0, 0, 0, 0, 0⟩) := by decide
theorem test_word_vrsum : decodeCoreWord 0 0x4c42c00000000000 = some (.vrsum 0 ⟨4, 11, 0, 0, 0, 0, 0, 0, 0, 0, 0⟩) := by decide
theorem test_word_qnt : decodeCoreWord 0 0x5042c00008180480 = some (.qnt 0 ⟨4, 11, 0, 0, 0, 1, 1, 0, 0, 9, 0⟩) := by decide
theorem test_word_vld : decodeCoreWord 0 0x60518038807f0008 = some (.vld 0 ⟨5, 6, 0, 3, 1, 1, 0, 0, 0, 0, 127, 8⟩) := by decide
theorem test_word_vst : decodeCoreWord 0 0x64518001320f0020 = some (.vst 0 ⟨5, 6, 0, 0, 0, 2, 1, 1, 0, 4, 15, 32⟩) := by decide
theorem test_word_mma : decodeCoreWord 0 0x808d4483e3c00fc0 = some (.mma 0 ⟨2, 3, 5, 1, 2, 0, 0, 31, 15, 63, 0⟩) := by decide
theorem test_word_mmaZ : decodeCoreWord 0 0x87c0400fffffffc0 = some (.mmaZ 0 ⟨15, 0, 1, 0, 0, 0, 0, 127, 127, 65535, 0⟩) := by decide
theorem test_word_aread : decodeCoreWord 0 0x8c80420000000000 = some (.aread 0 ⟨8, 1, 2, 0, 0, 0, 0, 0, 0, 0, 0⟩) := by decide
theorem test_word_plist : decodeCoreWord 0 0x9001870000000000 = some (.plist 0 ⟨0, 6, 7, 0, 0, 0, 0, 0, 0, 0, 0⟩) := by decide
theorem test_word_sfn : decodeCoreWord 0 0xa0824a0044000000 = some (.sfn 0 17 ⟨8, 9, 10, 0, 0, 0, 0, 0, 0, 0, 0⟩) := by decide
theorem test_word_sfg : decodeCoreWord 0 0xa482400100000000 = some (.sfg 0 64 ⟨8, 9, 0, 0, 0, 0, 0, 0, 0, 0, 0⟩) := by decide
theorem test_word_rsw : decodeCoreWord 0 0xa810800000000000 = some (.rsw 0 ⟨1, 2, 0, 0, 0, 0, 0, 0, 0, 0, 0⟩) := by decide
theorem test_word_move : decodeCoreWord 0 0xc010831056380000 = some (.move 0 ⟨1, 2, 3, 4, 5, 1, 2, 3, 1, 0⟩) := by decide
theorem test_word_mwait : decodeCoreWord 0 0xc400000000000001 = some (.mwait 0 ⟨0, 0, 0, 0, 1⟩) := by decide
theorem test_word_badd : decodeCoreWord 0 0xe000420000000003 = some (.badd 0 ⟨0, 1, 2, 0, 3⟩) := by decide
theorem test_word_rdtide : decodeCoreWord 0 0xe4c0000400000000 = some (.rdtide 0 ⟨12, 0, 0, 0, 0⟩) := by decide
theorem test_word_confirm : decodeCoreWord 0 0xe800000000000000 = some (.confirm 0 ⟨0, 0, 0, 0, 0⟩) := by decide
theorem test_word_signal : decodeCoreWord 0 0xf000000400000005 = some (.signal 0 ⟨0, 0, 0, 0, 5⟩) := by decide
theorem test_word_mret : decodeCoreWord 0 0xf400000000000000 = some (.mret 0 ⟨0, 0, 0, 0, 0⟩) := by decide

/-! A row of a table is met by a state and a command, and the command then does what the row says. -/

def went (r : Result) : Bool := match r with | .next _ => true | _ => false
def after (s : State) (r : Result) : State := match r with | .next t => t | _ => s

/-- Keys that are listed in either store and read differently. -/
def keysOff {α : Type} [DecidableEq α] (d : Nat → α) (x y : Store α) : List Nat :=
  ((x.map (·.1) ++ y.map (·.1)).dedup).filter (fun k => decide (storeGet x k (d k) ≠ storeGet y k (d k)))

/-- The parts of the state that have changed. -/
def changed (s t : State) : List Part :=
  (keysOff regDefault s.regs t.regs).map .reg
  ++ (keysOff (fun k => bar4Reset (k % 2 ^ 24)) s.bar4 t.bar4).map .bar4
  ++ (((s.mem.map (·.1) ++ t.mem.map (·.1)).dedup).filter (fun a => decide (s.byte a ≠ t.byte a))).map .byte
  ++ (keysOff (fun _ => Core.reset) s.cores t.cores).map .core
  ++ (keysOff (fun _ => LinkRun.reset) s.links t.links).map .link
  ++ (keysOff (fun _ => FerryRun.reset) s.ferries t.ferries).map .ferry
  ++ (keysOff (fun _ => GroupRun.reset) s.groups t.groups).map .group
  ++ (keysOff (fun _ => ObjEntry.free) s.objects t.objects).map .obj
  ++ (keysOff (fun _ => Index.reset) s.indexes t.indexes).map .index
  ++ (keysOff (fun _ => Engine.reset) s.engines t.engines).map .engine
  ++ (keysOff (fun _ => BerthRun.reset) s.berths t.berths).map .berth
  ++ ([(.queue, decide (t.pending = s.pending)),
      (.pairs, decide (t.pairRead = s.pairRead ∧ t.pairWrite = s.pairWrite)),
      (.tide, decide (t.tide = s.tide)), (.landings, decide (t.landing = s.landing)), (.held, decide (t.held = s.held)),
      (.blocks, decide (t.fullBlocks = s.fullBlocks)), (.seals, decide (t.sealCtr = s.sealCtr)),
      (.ports, decide (t.ports = s.ports)),
      (.routes, decide (t.routeWait = s.routeWait ∧ t.noRouted = s.noRouted ∧ t.applyWaits = s.applyWaits)),
      (.requests, decide (t.tierQ = s.tierQ)), (.moves, decide (t.tierMoves = s.tierMoves)), (.boot, decide (t.boot = s.boot)),
      (.power, decide (t.partCmd = s.partCmd ∧ t.powerSlots = s.powerSlots ∧ t.transition = s.transition ∧ t.critAt = s.critAt)),
      (.masks, decide (t.fmask = s.fmask)), (.busMaster, decide (t.busMaster = s.busMaster)),
      (.signals, decide (t.pend = s.pend ∧ t.pba = s.pba ∧ t.alert = s.alert ∧ t.out = s.out)),
      (.log, decide (t.log = s.log)), (.debug, decide (t.responding = s.responding)),
      (.keys, decide (t.hostKey = s.hostKey ∧ t.drawn = s.drawn)), (.doe, decide (t.doe = s.doe ∧ t.doeBuf = s.doeBuf)),
      (.i3c, decide (t.i3cDyn = s.i3cDyn ∧ t.i3cOff = s.i3cOff ∧ t.i3cIbi = s.i3cIbi)),
      (.tap, decide (t.tapIr = s.tapIr ∧ t.cells = s.cells)), (.poison, decide (t.poison = s.poison)),
      (.image, decide (t.image = s.image)), (.flash, decide (t.flash = s.flash)),
      (.withheld, decide (t.withheld = s.withheld)), (.fresh, decide (t.fresh = s.fresh))].filter (fun (x : Part × Bool) => !x.2)).map
        (·.1)

/-- The state and the command meet a row, and the command does there what the row says. -/
def Shown (table : State → Instr → (Part → Prop) → (State → Prop) → Prop) (s : State) (i : Instr) : Prop :=
  ∃ may post, table s i may post ∧ went (exec i s) = true ∧ (∀ p ∈ changed s (after s (exec i s)), may p) ∧
    post (after s (exec i s))

/-- The state and the command meet a row. -/
def Met (table : State → Instr → (Part → Prop) → (State → Prop) → Prop) (s : State) (i : Instr) : Prop :=
  ∃ may post, table s i may post

/-- A property of every member of a list, member by member. -/
theorem all_of {α : Type} {l : List α} {P : α → Prop} [DecidablePred P] (h : l.all (fun x => decide (P x)) = true) : ∀ x ∈ l, P x := by
  simpa using h

/-- Core 0 of the host, as `c`. -/
def coreIs (c : Core) : State := { State.reset with cores := [(0, c)] }
/-- A running core whose PC and registers are zero. -/
def busy : Core := { Core.reset with state := .running }
def runs : State := coreIs busy

/-- Write register words. -/
def having (s : State) (l : List (Nat × Nat × Nat)) : State := l.foldl (fun t x => t.wrN x.1 x.2.1 x.2.2) s

/-- READY, with the PCIe link up. -/
def up : State := having State.reset [(pgBoot, 0x00C, 10)]
/-- A 32-bit write by the PF. -/
def pf (v : W32) : Access := ⟨0, false, 15, v⟩

/-- Bytes of memory that are not zero. -/
def holding (s : State) (l : List (Nat × Byte)) : State := { s with mem := l }
/-- Place bytes in a list of cells from an address; zeros are not listed. -/
def cells (a : Nat) (bs : List Byte) : List (Nat × Byte) := (bs.zipIdx.map (fun x => (a + x.2, x.1))).filter (fun x => x.2 != 0)

def regF (d a b c : BitVec 6) : RegF := ⟨d, a, b, c, 0, 0, 0, 0, 0, 0, 0⟩
def immF (d a b : BitVec 6) (imm : W32) : ImmF := ⟨d, a, b, 0, imm⟩
def bare : ImmF := immF 0 0 0 0

theorem ready : Ready runs 0 := by decide +kernel
/-- The command completes and changes only parts that `may`. -/
def Ran (s : State) (i : Instr) (may : Part → Prop) : Prop := went (exec i s) = true ∧ ∀ p ∈ changed s (after s (exec i s)), may p

/-! Core instructions: every clause of the statements has a state and operands that meet what it assumes. -/

theorem meets_scalar : ScalarWord (regF 31 1 31 0) ∧ AluRow (.add 0 (regF 31 1 31 0)) 0 (regF 31 1 31 0) (fun x y => x + y) ∧ Ready runs 0 :=
  ⟨by decide, .add _ _, ready⟩
theorem meets_scalar_immediate : ImmWord (immF 31 0 0 63)
    ∧ AluImmRow (.shli 0 (immF 31 0 0 63)) 0 (immF 31 0 0 63) (fun x y => x <<< y.toNat) ∧ Ready runs 0 :=
  ⟨by decide, .shli _ _ (by decide), ready⟩
/-- The last word of HBM, and the first of scratchpad. -/
def hbmTop : Core := { busy with sreg := [(1, BitVec.ofNat 64 (stackAddr 31 (stackSize - 8)))] }
theorem meets_load : ImmWord (immF 2 1 0 0) ∧ Ready (coreIs hbmTop) 0
    ∧ ReadsNow (coreIs hbmTop) 0 (address ((coreIs hbmTop).core 0) (immF 2 1 0 0)).toNat 8 := by decide +kernel
def boardAddr : Core := { busy with sreg := [(1, BitVec.ofNat 64 (2 ^ 48 + hbmBase))] }
def boardRuns : State := ((coreIs boardAddr).wrN (pgLnk 0) 0x00C 2).wrN pgTopo 0x050 (2 ^ 20)
theorem meets_load_board : Ready boardRuns 0 ∧ ownChip boardRuns (address (boardRuns.core 0) (immF 2 1 0 0)).toNat = false
    ∧ coreAccessFault boardRuns 0 (address (boardRuns.core 0) (immF 2 1 0 0)).toNat 8 false = none := by decide +kernel
theorem meets_store : SourceWord (immF 0 1 2 0) ∧ Ready (coreIs hbmTop) 0 ∧ ((coreIs hbmTop).core 0).hold = []
    ∧ WritesNow (coreIs hbmTop) 0 (address ((coreIs hbmTop).core 0) (immF 0 1 2 0)).toNat 8 := by decide +kernel
theorem meets_branch : SourceWord (immF 0 31 31 0xFFFFFFFF) ∧ Ready runs 0 := by decide +kernel
theorem meets_jalr : ImmWord (immF 1 2 0 8) ∧ (address (runs.core 0) (immF 1 2 0 8)).toNat % 8 = 0 ∧ Ready runs 0 := by decide +kernel
theorem meets_jalr_fault : ImmWord (immF 1 2 0 4) ∧ (address (runs.core 0) (immF 1 2 0 4)).toNat % 8 ≠ 0 ∧ (runs.core 0).hold = []
    ∧ Ready runs 0 := by decide +kernel
theorem meets_lanes : PlainLanes (regF 63 0 63 0) ∧ NoRounding (regF 63 0 63 0) ∧ (runs.core 0).hold = [] ∧ Ready runs 0 := by
  decide +kernel
theorem meets_quantize : LaneRow (.qnt 0 { regF 1 2 0 0 with fmt := 7 }) 0 { regF 1 2 0 0 with fmt := 7 } (fun c i =>
    ⟨(toFp32 rmRNE false (elemValue 7 (narrowTo 7 0 false (numA { regF 1 2 0 0 with fmt := 7 } c i)).bits)).bits,
      (narrowTo 7 0 false (numA { regF 1 2 0 0 with fmt := 7 } c i)).flags⟩) :=
  .qnt 0 { regF 1 2 0 0 with fmt := 7 } (by decide)
theorem meets_mask : NoRounding (regF 15 0 63 0) ∧ (regF 15 0 63 0).d.toNat < 16 ∧ Ready runs 0 := by decide +kernel
theorem meets_extract : NoRounding (regF 31 63 31 0) ∧ (regF 31 63 31 0).d.toNat < 32 ∧ (regF 31 63 31 0).b.toNat < 32 := by decide
theorem meets_reduction : (regF 63 0 31 0).fmt = 0 ∧ (regF 63 0 31 0).rsv = 0 ∧ (regF 63 0 31 0).zm = 0 ∧ (regF 63 0 31 0).b.toNat < 32
    ∧ (regF 63 0 31 0).c = 0 ∧ Ready runs 0 := by decide +kernel
theorem ran_add : Ran runs (.add 0 (regF 31 1 31 0)) (coreParts 0) := ⟨by decide +kernel, by decide +kernel⟩
theorem ran_vand : Ran runs (.vand 0 (regF 63 1 31 0)) (coreParts 0) := ⟨by decide +kernel, by decide +kernel⟩

/-! Vector memory. -/

/-- s1 is the last 64 bytes of cluster 0's scratchpad, s2 the 64 before; lane 0 of v1 is 1.0. -/
def vecs : State := coreIs { busy with sreg := [(1, 0xAFFFFC0), (2, 0xAFFFF80)], vreg := [(128, 0x3F800000)] }
theorem meets_vld : vldLegal ⟨1, 1, 0, 0, 0, 0, 0, 0, 0, 0, 15, 0⟩ = true ∧ VmNow ⟨1, 1, 0, 0, 0, 0, 0, 0, 0, 0, 15, 0⟩ false vecs 0
    ∧ Ready vecs 0 ∧ (vecs.core 0).moves = [] := by decide +kernel
theorem ran_vld : Ran vecs (.vld 0 ⟨1, 1, 0, 0, 0, 0, 0, 0, 0, 0, 15, 0⟩) (coreParts 0) := ⟨by decide +kernel, by decide +kernel⟩
theorem meets_vld_slot : vldLegal ⟨1, 0, 0, 15, 1, 3, 0, 0, 1, 0, 31, 0⟩ = true ∧ VmNow ⟨1, 0, 0, 15, 1, 3, 0, 0, 1, 0, 31, 0⟩ false vecs 0 := by
  decide +kernel
theorem meets_vst : vstLegal ⟨1, 1, 0, 0, 0, 0, 0, 0, 0, 0, 15, 0⟩ = true ∧ VmNow ⟨1, 1, 0, 0, 0, 0, 0, 0, 0, 0, 15, 0⟩ true vecs 0
    ∧ someActive (vecs.core 0) ⟨1, 1, 0, 0, 0, 0, 0, 0, 0, 0, 15, 0⟩ := ⟨by decide +kernel, by decide +kernel, 15, by decide, by decide +kernel⟩
theorem ran_vst : Ran vecs (.vst 0 ⟨1, 1, 0, 0, 0, 0, 0, 0, 0, 0, 15, 0⟩) (also (coreParts 0) (bytesAt 0xAFFFFC0 64)) :=
  ⟨by decide +kernel, by decide +kernel⟩
theorem meets_vst_mx : vstLegal ⟨1, 1, 2, 0, 0, 3, 0, 0, 1, 0, 31, 0⟩ = true ∧ VmNow ⟨1, 1, 2, 0, 0, 3, 0, 0, 1, 0, 31, 0⟩ true vecs 0
    ∧ overlap (elemPlace (vecs.core 0) ⟨1, 1, 2, 0, 0, 3, 0, 0, 1, 0, 31, 0⟩) 32 (scalePlace (vecs.core 0) ⟨1, 1, 2, 0, 0, 3, 0, 0, 1, 0, 31, 0⟩) 1 = false
    ∧ vmBytes ⟨1, 1, 2, 0, 0, 3, 0, 0, 1, 0, 31, 0⟩ = 32 := by decide +kernel
theorem meets_vst_slot : vstLegal ⟨1, 0, 0, 15, 1, 0, 0, 0, 0, 0, 127, 8064⟩ = true
    ∧ vmFault ⟨1, 0, 0, 15, 1, 0, 0, 0, 0, 0, 127, 8064⟩ true 0 vecs (vecs.core 0) = none := by decide +kernel
theorem meets_vst_idle : vstLegal ⟨1, 1, 0, 0, 0, 0, 0, 0, 0, 1, 127, 0xFE40⟩ = true
    ∧ vmFault ⟨1, 1, 0, 0, 0, 0, 0, 0, 0, 1, 127, 0xFE40⟩ true 0 vecs (vecs.core 0) = none
    ∧ ∀ k ∈ List.range 128, active (vecs.core 0) 1 k = false := by decide +kernel

/-! The matrix unit, functions and rows. -/

theorem meets_settled : Settled (runs.core 0) := by decide +kernel
theorem meets_mma : mmaLegal ⟨11, 0, 15, 1, 2, 0, 0, 127, 127, 127, 0⟩ = true ∧ 11 < (runs.core 0).tileLimit
    ∧ opBytes (mmaA ⟨11, 0, 15, 1, 2, 0, 0, 127, 127, 127, 0⟩) ≤ 32768 ∧ opBytes (mmaB ⟨11, 0, 15, 1, 2, 0, 0, 127, 127, 127, 0⟩) ≤ 32768 := by
  decide +kernel
theorem ran_mma : Ran runs (.mmaZ 0 ⟨11, 0, 15, 1, 2, 0, 0, 0, 0, 0, 0⟩) (coreParts 0) := ⟨by decide +kernel, by decide +kernel⟩
theorem meets_port : PortWord (regF 0 31 0 11) ∧ (regF 0 31 0 11).c.toNat < (runs.core 0).tileLimit := by decide +kernel
theorem ran_awrite : Ran runs (.awrite 0 (regF 0 31 0 11)) (coreParts 0) := ⟨by decide +kernel, by decide +kernel⟩
theorem meets_function : FunctionWord 0x10 (regF 1 2 0 0) ∧ FunctionWord 0 (regF 1 2 0 0) ∧ coreOwner runs 0 = 0xFF
    ∧ fnPresent runs 0xFF 0x10 0 = true := by decide +kernel
theorem meets_rows : RowWord (regF 0 31 31 15) ∧ (regF 0 31 31 15).c.toNat < (runs.core 0).rowLimit
    ∧ ((runs.core 0).row 15 (rowIndex (runs.core 0) (regF 0 31 31 15))).has rsSoftmax = false
    ∧ ((runs.core 0).row 15 (rowIndex (runs.core 0) (regF 0 31 31 15))).has rsStats = false
    ∧ ((runs.core 0).row 15 (rowIndex (runs.core 0) (regF 0 31 31 15))).has rsFinished = false
    ∧ ((runs.core 0).row 15 (rowIndex (runs.core 0) (regF 0 31 31 15))).count + (rowLanes (runs.core 0) (regF 0 31 31 15)).length ≤ 2 ^ 24 := by
  decide +kernel
theorem meets_rsc : (regF 0 14 31 15).a.toNat < 16 ∧ (regF 0 14 31 15).a.toNat < (runs.core 0).rowLimit
    ∧ ((runs.core 0).row 14 (rowIndex (runs.core 0) (regF 0 14 31 15))).has rsSoftmax = false := by decide +kernel
theorem meets_rsrd : RowWord { regF 63 0 0 15 with lane := 7 } ∧ ({ regF 63 0 0 15 with lane := 7 } : RegF).lane.toNat ≤ 7 := by decide
theorem ran_rsclr : Ran runs (.rsclr 0 (regF 0 0 0 15)) (coreParts 0) := ⟨by decide +kernel, by decide +kernel⟩
theorem ran_smxf : Ran runs (.smxf 0 (regF 0 0 0 15)) (coreParts 0) := ⟨by decide +kernel, by decide +kernel⟩
theorem meets_points : fp32 0xFFFFFFFF = .nan := by decide +kernel

/-! Problem lists and moves. -/

/-- s1 is 32 bytes before the end of cluster 0's scratchpad, s2 is 1. -/
def lister : State := coreIs { busy with sreg := [(1, 0xAFFFFE0), (2, 1)] }
theorem meets_plist : PlistWord (regF 0 1 2 0) ∧ ((lister.core 0).s 1).toNat % 32 = 0 ∧ Ready lister 0 := by decide +kernel
theorem ran_plist : Ran lister (.plist 0 (regF 0 1 2 0)) (coreParts 0) := ⟨by decide +kernel, by decide +kernel⟩
/-- The last entry of the longest list: a product of one element of FP16 rows at 64 and 128, stored at 192 as FP32. -/
def list1 : PlistRun := { base := 0xAF80000, count := 4096, index := 4095 }
def launched : State :=
  holding (coreIs { busy with plist := some list1 })
    [(64, 0x3C), (0xAF80000 + 32 * 4095, 64), (0xAF80000 + 32 * 4095 + 8, 128), (0xAF80000 + 32 * 4095 + 16, 192),
      (0xAF80000 + 32 * 4095 + 28, 0x1B), (0xAF80000 + 32 * 4095 + 29, 1), (0xAF80000 + 32 * 4095 + 30, 0xF0), (0xAF80000 + 32 * 4095 + 31, 2)]
theorem meets_entry : EntryReady launched 0 list1 ∧ entryWrites (entryAt launched list1) = [(192, 4)] := by decide +kernel
theorem ran_entry : Ran launched (.plistEntry 0) (also (coreParts 0) (bytesAt 192 4)) := ⟨by decide +kernel, by decide +kernel⟩
/-- s1 is the last 64 bytes of cluster 0's scratchpad, s2 the last of slot 15, s3 a shape of one row of 64 bytes; v = s4 leaves it empty. -/
def mover (ms : List MoveJob) : Core :=
  { busy with sreg := [(1, 0xAFFFFC0), (2, 0x7FC0000F), (3, 0x1000040), (4, 0)], moves := ms }
def toSlot : MoveF := ⟨2, 1, 3, 0, 0, 1, 0, 0, 0, 0⟩
def toMem : MoveF := ⟨1, 2, 3, 0, 0, 0, 1, 0, 0, 0⟩
theorem meets_move : moveLegal toSlot = true ∧ moveFault toSlot 0 (coreIs (mover [])) (mover []) = none
    ∧ moveBlock toSlot (coreIs (mover [])) (mover []) = none ∧ scoreboardHolds (mover []) (moveTouch toSlot (mover [])) = false
    ∧ (∀ r ∈ moveSrcPlaces (coreIs (mover [])) (moveJob toSlot (mover [])), landingsAt (coreIs (mover [])) r.1 r.2 = []) ∧ Ready (coreIs (mover [])) 0 := by
  decide +kernel
theorem ran_move : Ran (coreIs (mover [])) (.move 0 toSlot) (coreParts 0) := ⟨by decide +kernel, by decide +kernel⟩
/-- Eight outstanding moves, the last of them `f`. -/
def outstanding (f : MoveF) : State := coreIs (mover (List.replicate 7 (moveJob { f with v := 4 } (mover [])) ++ [moveJob f (mover [])]))
theorem meets_moveDone : MoveEnds (outstanding toSlot) 0 7 (moveJob toSlot (mover []))
    ∧ slotOff (moveJob toSlot (mover [])).dst + 64 ≤ 32768 ∧ moveRows (moveJob toSlot (mover [])) * moveRowBytes (moveJob toSlot (mover [])) = 64 := by
  decide +kernel
theorem ran_moveDone : Ran (outstanding toSlot) (.moveDone 0 7) (coreParts 0) := ⟨by decide +kernel, by decide +kernel⟩
theorem meets_moveDone_mem : MoveEnds (outstanding toMem) 0 7 (moveJob toMem (mover []))
    ∧ ∀ r ∈ moveDstRanges (moveJob toMem (mover [])), ownChip (outstanding toMem) r.1 = true ∧ onePlace (placeBits r.1) r.2 = true
      ∧ placeResetting (outstanding toMem) (placeBits r.1) = false ∧ poisoned (outstanding toMem) (placeBits r.1) r.2 = false := by decide +kernel
theorem ran_moveDone_mem : Ran (outstanding toMem) (.moveDone 0 7) (also (coreParts 0) (bytesAt 0xAFFFFC0 64)) :=
  ⟨by decide +kernel, by decide +kernel⟩
theorem meets_mwait : Ready (outstanding toMem) 0 ∧ ((outstanding toMem).core 0).moves.length ≤ 15 := by decide +kernel

/-! Synchronisation, faults, and the commands of a core's page. -/

theorem ran_badd : Ran (coreIs { busy with sreg := [(2, 0xFFFFFFFF)] }) (.badd 0 (immF 31 0 2 63)) (also (coreParts 0) (bollardParts 0 63)) :=
  ⟨by decide +kernel, by decide +kernel⟩
/-- A valid tide of 1000; core 0 runs. -/
def tideRun (c : Core) : State :=
  having { coreIs c with tide := { Tide.reset with now := 1000 } } [(pgTide, 0x008, 3), (pgTide, 0x00C, 0x0A)]
theorem meets_twait : tideCase (tideRun busy) (address busy (immF 0 0 0 1000)) = .reached ∧ tideRuns (tideRun busy) = true
    ∧ tideCase (tideRun busy) (address busy (immF 0 0 0 1001)) = .ahead ∧ Ready (tideRun busy) 0 := by decide +kernel
theorem ran_twait : Ran (tideRun busy) (.twait 0 (immF 0 0 0 1000)) (coreParts 0) ∧ Ran (tideRun busy) (.twait 0 (immF 0 0 0 1001)) (coreParts 0) :=
  ⟨⟨by decide +kernel, by decide +kernel⟩, ⟨by decide +kernel, by decide +kernel⟩⟩
theorem meets_tideWaitDone : ((tideRun { busy with twait := some 1000 }).core 0).twait = some 1000
    ∧ tideReached (tideRun { busy with twait := some 1000 }).now 1000 = true ∧ running (tideRun { busy with twait := some 1000 }) = true := by
  decide +kernel
theorem ran_tideWaitDone : Ran (tideRun { busy with twait := some 1000 }) (.tideWaitDone 0) (coreParts 0) :=
  ⟨by decide +kernel, by decide +kernel⟩
theorem meets_bare : BareWord bare ∧ ImmWord (immF 31 0 0 0) ∧ ImmWord (immF 0 31 0 0) ∧ (immF 0 0 0 65535).imm.toNat < 65536 := by decide
theorem ran_halt : Ran runs (.halt 0 bare) (also (coreParts 0) (eventParts (corePage 0))) := ⟨by decide +kernel, by decide +kernel⟩
theorem ran_signal : Ran runs (.signal 0 (immF 0 0 0 65535))
    (also (coreParts 0) (also (parts [.reg (regKey (corePage 0) 0x070)]) (eventParts (corePage 0)))) := ⟨by decide +kernel, by decide +kernel⟩
/-- Core 0 is in MONITOR. -/
def inMonitor : State := coreIs { Core.reset with state := .monitor }
theorem meets_monitor : MonitorRuns inMonitor 0 ∧ coreStateOf (inMonitor.get ⟨corePage 0, 0x00C, 0, 3⟩) = some .off
    ∧ (rowAt (corePage 0) 0xFFC).isSome = false ∧ (rowAt (corePage 0) 0x224).isSome = true ∧ queuedOf inMonitor (corePage 0) < 64 := by decide +kernel
theorem ran_mcsr : Ran inMonitor (.mcsr 0 (immF 31 31 1 0x06C)) (parts [.core 0, .signals]) := ⟨by decide +kernel, by decide +kernel⟩
theorem ran_mlog : Ran inMonitor (.mlog 0 (immF 31 31 31 0)) (parts [.log, .signals]) := ⟨by decide +kernel, by decide +kernel⟩
theorem ran_mtbl : Ran inMonitor (.mtbl 0 (immF 0 31 0 0)) (parts [.core 0, .signals]) := ⟨by decide +kernel, by decide +kernel⟩
/-- READY, with core 0 as `c`. -/
def upCore (c : Core) : State := { up with cores := [(0, c)] }
theorem meets_start : HostTakes (upCore Core.reset) (corePage 0) 0x008 (pf 1) ∧ coreQuiet ((upCore Core.reset).core 0) = true
    ∧ stageReady (upCore Core.reset) = true := by decide +kernel
theorem ran_start : Ran (upCore Core.reset) (.start 0 (pf 1)) (parts [.core 0, .signals]) := ⟨by decide +kernel, by decide +kernel⟩
theorem meets_stop : HostTakes (upCore busy) (corePage 0) 0x008 (pf 2) ∧ ((upCore busy).core 0).state = .running
    ∧ ((upCore busy).core 0).redo = none := by decide +kernel
theorem ran_stop : Ran (upCore busy) (.stop 0 (pf 2)) (parts [.core 0, .signals]) := ⟨by decide +kernel, by decide +kernel⟩
theorem ran_stopped : Ran (upCore { busy with state := .stopping }) (.stopped 0) (corePageParts 0) := ⟨by decide +kernel, by decide +kernel⟩
theorem meets_resume : HostTakes (upCore { busy with state := .faulted }) (corePage 0) 0x008 (pf 4)
    ∧ ((upCore { busy with state := .faulted }).core 0).state = .faulted
    ∧ (upCore { busy with state := .faulted }).bit ⟨corePage 0, 0x060, 13, 1⟩ = false := by decide +kernel
theorem ran_resume : Ran (upCore { busy with state := .stopped }) (.resume 0 (pf 4)) (parts [.core 0, .signals]) := ⟨by decide +kernel, by decide +kernel⟩
theorem meets_notAccepted : NotAccepted (upCore busy) 0 (pf 1) (.start 0 (pf 1)) ∧ NotAccepted (upCore Core.reset) 0 (pf 2) (.stop 0 (pf 2))
    ∧ NotAccepted (upCore busy) 0 (pf 4) (.resume 0 (pf 4)) :=
  ⟨.start rfl (by decide +kernel) (by decide +kernel) (by decide +kernel), .stop rfl (by decide +kernel),
    .resume rfl (by decide +kernel) (.inl (by decide +kernel))⟩
theorem ran_notAccepted : Ran (upCore busy) (.start 0 (pf 1)) (also (parts [.signals]) (eventParts (corePage 0))) :=
  ⟨by decide +kernel, by decide +kernel⟩
/-- The first unit of stack 0 is uncorrectable. -/
def badUnit : State := { upCore busy with poison := [hbmBase / 32] }
theorem meets_dataError : takesError (badUnit.core 0) = true ∧ ownChip badUnit (2 ^ 48 * 3 + hbmBase) = true ∧ ownChip badUnit hbmBase = true
    ∧ poisoned badUnit hbmBase 1 = true := by decide +kernel
theorem ran_dataError : Ran badUnit (.dataError 0 8 (BitVec.ofNat 64 hbmBase))
    (also (corePageParts 0) (also (also (parts [.reg (regKey (corePage 0) 0x00C), .reg (regKey (corePage 0) 0x058), .reg (regKey (corePage 0) 0x05C),
      .reg (regKey (corePage 0) 0x060), .reg (regKey (corePage 0) 0x064), .reg (regKey (corePage 0) 0x068)]) (eventParts (pgHs 0)))
      (parts [.reg (regKey (pgHs 0) 0x044)]))) := ⟨by decide +kernel, by decide +kernel⟩

/-! The tide. CTRL: bit 0 RUN, 1 ROOT, 2 USE_REF, [15:8] SLEW_MAX. STATUS: [2:0] STATE, 3 VALID, 4 STANDING, 5 STAND_PENDING, 6
REF_PRESENT, [11:8] UPSTREAM, 12 UPSTREAM_VALID. -/

/-- READY with the tide's CTRL and STATUS as given, link 0 trained and its delay measured. -/
def tideAt (ctrl status : Nat) (t : Tide) : State :=
  { having up [(pgTide, 0x008, ctrl), (pgTide, 0x00C, status), (pgLnk 0, 0x00C, 2), (pgTide, 0x100, 0x80000000)] with tide := t }
def beaconIs (notice : Bool) (sent : W64) (seq : BitVec 16) (standAt : W64) : BeaconMsg :=
  ⟨sent, 9, 9, 3, 5, false, false, notice, false, seq, standAt, allOnes64⟩
/-- A root at tide 1000 with a stand told for 2^20. -/
def rootPending : State := having (tideAt 0x103 0x2E { Tide.reset with now := 1000, pendS := 0x100000 }) [(pgTide, 0x050, 0x100000)]

theorem shows_tide_run : Shown TideRow up (.run (pf 0xC801)) := by
  refine ⟨_, _, .run _ ?_ ?_ ?_ ?_ ?_, ?_, ?_, ?_⟩ <;> decide +kernel
theorem shows_tide_runRoot : Shown TideRow up (.run (pf 0x0107)) := by
  refine ⟨_, _, .runRoot _ ?_ ?_ ?_ ?_, ?_, ?_, ?_⟩ <;> decide +kernel
theorem shows_tide_runRoot_ref : Shown TideRow (tideAt 0 0x40 Tide.reset) (.run (pf 0x0107)) := by
  refine ⟨_, _, .runRoot _ ?_ ?_ ?_ ?_, ?_, ?_, ?_⟩ <;> decide +kernel
theorem shows_tide_root : Shown TideRow up (.root (pf 2)) := by
  refine ⟨_, _, .root _ ?_ ?_ ?_ ?_ ?_ ?_ ?_, ?_, ?_, ?_⟩ <;> decide +kernel
theorem shows_tide_takesOver : Shown TideRow (tideAt 0x101 0x100C { Tide.reset with now := 77 }) (.root (pf 0x103)) := by
  refine ⟨_, _, .takesOver _ ?_ ?_ ?_ ?_ ?_, ?_, ?_, ?_⟩ <;> decide +kernel
theorem shows_tide_rootRefused : Shown TideRow (tideAt 0x101 0x100A Tide.reset) (.root (pf 0x103)) := by
  refine ⟨_, _, .rootRefused _ ?_ ?_ ?_ ?_ ?_, ?_, ?_, ?_⟩ <;> decide +kernel
theorem shows_tide_initLoad : Shown TideRow (tideAt 0x103 6 { Tide.reset with loadAt := some 16, clock := 16 }) .initLoad := by
  refine ⟨_, _, .initLoad ?_, ?_, ?_, ?_⟩ <;> decide +kernel
theorem shows_tide_sync : Shown TideRow (tideAt 0x107 0x0D { Tide.reset with now := 0x100001 }) .tideSync := by
  refine ⟨_, _, .tideSync ?_ ?_ ?_ ?_, ?_, ?_, ?_⟩ <;> decide +kernel
theorem shows_tide_sync_far : Shown TideRow (tideAt 0x107 0x0D { Tide.reset with now := 0x100002 }) .tideSync := by
  refine ⟨_, _, .tideSync ?_ ?_ ?_ ?_, ?_, ?_, ?_⟩ <;> decide +kernel
theorem shows_tide_refLoss : Shown TideRow (tideAt 0x107 0x4D Tide.reset) .refLoss := by
  refine ⟨_, _, .refLoss ?_ ?_ ?_, ?_, ?_, ?_⟩ <;> decide +kernel
theorem shows_tide_refReturn : Shown TideRow (tideAt 0x107 0x4E { Tide.reset with syncRun := 2 }) .rootRefReturn := by
  refine ⟨_, _, .rootRefReturn ?_ ?_ ?_ ?_, ?_, ?_, ?_⟩ <;> decide +kernel
theorem shows_tide_wrap : Shown TideRow (tideAt 0x103 0x0E { Tide.reset with now := allOnes64 }) .wrap := by
  refine ⟨_, _, .wrap ?_ ?_ ?_, ?_, ?_, ?_⟩ <;> decide +kernel
theorem shows_tide_beaconSend : Shown TideRow (tideAt 0x103 0x0E { Tide.reset with now := 0x10000 }) .beaconSend := by
  refine ⟨_, _, .beaconSend ?_, ?_, ?_, ?_⟩ <;> decide +kernel
theorem shows_tide_acquires : Shown TideRow (tideAt 0x101 0x0001 Tide.reset) (.beacon 0 (beaconBytes (beaconIs false 0x10000 0 0)) 160) := by
  refine ⟨_, _, .acquires _ _ _ (beaconIs false 0x10000 0 0) ?_ ?_ ?_ ?_, ?_, ?_, ?_⟩ <;> decide +kernel
theorem shows_tide_disciplines : Shown TideRow (tideAt 0x101 0x100A { Tide.reset with now := 0x10003 })
    (.beacon 0 (beaconBytes (beaconIs false 0x10000 0 0)) 0) := by
  refine ⟨_, _, .disciplines _ _ _ (beaconIs false 0x10000 0 0) ?_ ?_ ?_ ?_, ?_, ?_, ?_⟩ <;> decide +kernel
theorem shows_tide_loses : Shown TideRow (tideAt 0x101 0x100A { Tide.reset with now := 0x10041, seqKnown := true })
    (.beacon 0 (beaconBytes (beaconIs false 0x10000 0 0)) 0) := by
  refine ⟨_, _, .loses _ _ _ (beaconIs false 0x10000 0 0) ?_ ?_ ?_ ?_ ?_, ?_, ?_, ?_⟩ <;> decide +kernel
theorem shows_tide_locked : Shown TideRow (tideAt 0x101 0x1009 { Tide.reset with goodRun := 16 }) .locked := by
  refine ⟨_, _, .locked ?_ ?_ ?_ ?_, ?_, ?_, ?_⟩ <;> decide +kernel
theorem shows_tide_upstreamChange : Shown TideRow
    (tideAt 0x101 0x100A { Tide.reset with intervals := 9, heard := [⟨0, 2, 9, 5⟩, ⟨7, 255, 9, 6⟩] }) .upstreamChange := by
  refine ⟨_, _, .upstreamChange ⟨7, 255, 9, 6⟩ ?_ ?_ ?_, ?_, ?_, ?_⟩ <;> decide +kernel
theorem shows_tide_holdover : Shown TideRow (tideAt 0x101 0x100A { Tide.reset with sum16 := -3, intervals := 9, heard := [⟨0, 2, 9, 5⟩] })
    .holdover := by
  refine ⟨_, _, .holdover ?_, ?_, ?_, ?_⟩ <;> decide +kernel
theorem shows_tide_lost : Shown TideRow (tideAt 0x101 0x100B { Tide.reset with intervals := 256 }) .lost := by
  refine ⟨_, _, .lost ?_ ?_, ?_, ?_, ?_⟩ <;> decide +kernel
theorem shows_tide_schedule : Shown TideRow (having (tideAt 0x103 0x0E { Tide.reset with now := 1000 }) [(pgTide, 0x050, 1000 + 65536)])
    (.schedule (pf 1)) := by
  refine ⟨_, _, .schedule _ ?_ ?_ ?_ ?_ ?_ ?_ ?_ ?_, ?_, ?_, ?_⟩ <;> decide +kernel
theorem shows_tide_scheduleRefused : Shown TideRow (having (tideAt 0x103 0x0E { Tide.reset with now := 1000 }) [(pgTide, 0x050, 999 + 65536)])
    (.schedule (pf 1)) := by
  refine ⟨_, _, .scheduleRefused _ ?_ ?_ ?_, ?_, ?_, ?_⟩ <;> decide +kernel
theorem shows_tide_standResume : Shown TideRow
    (having (tideAt 0x103 0x1E { Tide.reset with now := 1000, standS := 1000, resumeAt := allOnes64, standCount := 5 }) [(pgTide, 0x058, 65536)])
    (.standResume (pf 2)) := by
  refine ⟨_, _, .standResume _ ?_ ?_ ?_ ?_ ?_ ?_ ?_, ?_, ?_, ?_⟩ <;> decide +kernel
theorem shows_tide_cancel : Shown TideRow rootPending (.cancel (pf 4)) := by
  refine ⟨_, _, .cancel _ ?_ ?_ ?_ ?_ ?_ ?_ ?_, ?_, ?_, ?_⟩ <;> decide +kernel
theorem shows_tide_standNotice : Shown TideRow (tideAt 0x101 0x100A { Tide.reset with now := 5 })
    (.standNotice 3 (beaconBytes (beaconIs true 4 7 0x100000))) := by
  refine ⟨_, _, .standNotice _ _ (beaconIs true 4 7 0x100000) ?_ ?_ ?_ ?_ ?_ ?_ ?_ ?_ ?_ ?_ ?_, ?_, ?_, ?_⟩ <;> decide +kernel
theorem shows_tide_standBegin : Shown TideRow { rootPending with tide := { rootPending.tide with now := 0x100000 } } .standBegin := by
  refine ⟨_, _, .standBegin ?_ ?_, ?_, ?_, ?_⟩ <;> decide +kernel
theorem shows_tide_standsLate : Shown TideRow { rootPending with tide := { rootPending.tide with now := 0x100001 } } .standBegin := by
  refine ⟨_, _, .standsLate ?_ ?_, ?_, ?_, ?_⟩ <;> decide +kernel
theorem shows_tide_standEnd : Shown TideRow (tideAt 0x103 0x1E { Tide.reset with resumeAt := 9, standCount := 9 }) .standEnd := by
  refine ⟨_, _, .standEnd ?_, ?_, ?_, ?_⟩ <;> decide +kernel
theorem meets_tick : (tideAt 0x103 0x1E Tide.reset).tideValid = true ∧ (tideAt 0x103 0x1E Tide.reset).standing = true
    ∧ (tideAt 0x103 0x0E Tide.reset).standing = false := by decide +kernel

/-! Consignments, cores at sea, ports. -/

/-- Waiting for relay on link 0 (15 R409). -/
def relayWait : State := having State.reset [(pgBoot, 0x00C, 12), (pgLnk 0, 0x00C, 2)]
def relayHdr (attempt : Nat) : ConsHdr := ⟨4, 3, 5, 1000, 1, attempt, 255, 9, 0, 64, 64, 0x1000⟩
def ferryHdr : ConsHdr := ⟨1, 3, 5, 1000, 1, 0, 255, 9, 0, 0, 0, 0⟩
def zeros16 : List Byte := List.replicate 16 0
def landed (st : LandState) (attempt words : Nat) (tgt : LandTarget) (addr : Option Nat) : Landing :=
  { key := keyOf (relayHdr 0), hdr := hdrBytes (relayHdr attempt), sealBlk := zeros16, port := 0, link := 0, cslot := 15, st := st,
    attempt := attempt, words := List.replicate words 0, failed := false, target := tgt, checkedAt := none, addr := addr }
def withLanding (s : State) (l : Landing) : State := { s with landing := [l] }
/-- The tide is LOCKED at 0. -/
def tideOn (s : State) : State := having s [(pgTide, 0x00C, 0x100A)]
/-- One consignment of this chip is held at port 16. -/
def heldItem : Held :=
  { key := { keyOf (relayHdr 0) with src := 0 }, hdr := hdrBytes { relayHdr 0 with src := 0 }, port := 0, attempt := 3, crc := 7,
    stamp := 0, addr := 0, len := 4096 }
def heldOne : State := { up with held := [heldItem] }

theorem shows_header : Shown ConsignmentRow relayWait (.consignmentHeader (.link 0) 15 (hdrBytes (relayHdr 0)) zeros16) := by
  refine ⟨_, _, .header 0 15 _ _ .relay none ?_ ?_ ?_ ?_ ?_ ?_ (by simp), ?_, ?_, ⟨landed .landing 0 0 .relay none, ?_⟩, ?_⟩ <;> decide +kernel
theorem shows_absorbed : Shown ConsignmentRow (having up [(pgLnk 0, 0x00C, 2)])
    (.consignmentHeader (.link 0) 15 (hdrBytes (relayHdr 0)) zeros16) := by
  refine ⟨_, _, .absorbed 0 15 _ _ ?_ ?_ ?_ ?_ ?_ ?_, ?_, ?_, ⟨{ landed .landing 0 0 .absorbed none with failed := true }, ?_⟩, ?_⟩ <;> decide +kernel
theorem shows_ferryUnmatched : Shown ConsignmentRow (having up [(pgLnk 0, 0x00C, 2), (pgFerry 7, 0x008, 0x300)])
    (.consignmentHeader (.link 0) 0 (hdrBytes ferryHdr) zeros16) := by
  refine ⟨_, _, .ferryUnmatched 0 0 _ _ 7 ?_ ?_ ?_ ?_ ?_ ?_ ?_ ?_ ?_, ?_, ?_,
    ⟨{ landed .landing 0 0 .absorbed none with key := keyOf ferryHdr, hdr := hdrBytes ferryHdr, cslot := 0, failed := true }, ?_⟩, ?_, ?_⟩ <;> decide +kernel
theorem shows_replayed : Shown ConsignmentRow (withLanding relayWait (landed .replaying 3 0 .relay none))
    (.consignmentHeader (.link 0) 1 (hdrBytes (relayHdr 4)) zeros16) := by
  refine ⟨_, _, .replayed 0 1 _ _ (landed .replaying 3 0 .relay none) ?_ ?_ ?_ ?_ ?_ ?_ ?_, ?_, ?_,
    ⟨{ landed .landing 4 0 .relay none with cslot := 1 }, ?_⟩⟩ <;> decide +kernel

/-- A flit: header bits, 64 words of zeros, a parity byte eight times, its FCRC. -/
def flitBody (h : Nat) (par : Nat) : List Byte := bytesLE 7 h ++ List.replicate 256 0 ++ List.replicate 8 (BitVec.ofNat 8 par)
def flitOf (h par : Nat) : List Byte := flitBody h par ++ bytesLE 4 (crc32c (flitBody h par)).toNat
def flitAt : State := having up [(pgLnk 0, 0x00C, 0xF02)]

theorem natLE_bytesLE (n v : Nat) : natLE (bytesLE n v) = v % 256 ^ n := by
  induction n generalizing v with
  | zero => simp [bytesLE, natLE, Nat.mod_one]
  | succ k ih =>
    simp only [bytesLE, natLE, ih, BitVec.toNat_ofNat]
    rw [pow_succ' 256 k, Nat.mod_mul (a := 256) (b := 256 ^ k)]

theorem bytesLE_length (n v : Nat) : (bytesLE n v).length = n := by
  induction n generalizing v with
  | zero => rfl
  | succ k ih => simp [bytesLE, ih]

theorem flitBody_length (h par : Nat) : (flitBody h par).length = 271 := by
  simp only [flitBody, List.length_append, bytesLE_length, List.length_replicate]
theorem word_ne_next (x : W32) : (x == x + 1) = false := by simp
theorem flit_good_iff (h par : Nat) (c : W32) :
    flitGood (flitBody h par ++ bytesLE 4 c.toNat) = (crc32c (flitBody h par) == c) := by
  have e : fieldLE (flitBody h par ++ bytesLE 4 c.toNat) 271 4 = c.toNat := by
    have hl := flitBody_length h par
    rw [fieldLE, List.drop_append_of_le_length (by omega), List.drop_of_length_le (by omega), List.nil_append,
      List.take_of_length_le (by rw [bytesLE_length]), natLE_bytesLE]
    exact Nat.mod_eq_of_lt c.isLt
  rw [flitGood, e, List.take_append_of_le_length (by rw [flitBody_length]), List.take_of_length_le (by rw [flitBody_length])]
  by_cases hc : crc32c (flitBody h par) = c
  · simp [hc]
  · have hn : (crc32c (flitBody h par)).toNat ≠ c.toNat := fun x => hc (BitVec.eq_of_toNat_eq x)
    rw [beq_eq_false_iff_ne.mpr hc, beq_eq_false_iff_ne.mpr hn]

theorem meets_flitBad : Met ConsignmentRow flitAt (.flitReceive 0 (flitBody 0 0 ++ bytesLE 4 (crc32c (flitBody 0 0) + 1).toNat)) := by
  refine ⟨_, _, .flitBad _ _ ?_ ?_ ?_ ?_⟩
  case refine_4 => rw [flit_good_iff]; exact word_ne_next _
  case refine_3 => rw [List.length_append, flitBody_length, bytesLE_length]
  all_goals decide +kernel
/-- A control flit with FSEQ 0, which follows the reset value 4095. -/
theorem meets_flitControl : Met ConsignmentRow flitAt (.flitReceive 0 (flitOf (1 * 4 + 0xFFF0000) 0)) := by
  refine ⟨_, _, .flitControl _ _ ⟨?_, ?_, ?_, ?_, ?_, ?_⟩ ?_⟩
  case refine_4 => rw [flitOf, flit_good_iff]; exact beq_self_eq_true _
  case refine_3 => rw [flitOf, List.length_append, flitBody_length, bytesLE_length]
  all_goals decide +kernel
/-- The words of a chunk, whose plaintext is a value of the key stream. -/
theorem meets_flitData : Met ConsignmentRow
    { withLanding flitAt (landed .landing 0 0 (.coll 0 0 0) (some 0)) with
      links := [(0, { LinkRun.reset with slots := [(3, 15, keyOf (relayHdr 0))] })] }
    (.flitReceive 0 (flitOf (3 + 0xFFF0000 + 15 * 2 ^ 42) 0xFF)) := by
  refine ⟨_, _, .flitData _ _ (landed .landing 0 0 (.coll 0 0 0) (some 0)) 0 ⟨?_, ?_, ?_, ?_, ?_, ?_⟩ ?_ ?_ ?_ ?_ ?_ ?_ ?_ ?_ ?_ ?_ ?_⟩
  case refine_4 => rw [flitOf, flit_good_iff]; exact beq_self_eq_true _
  case refine_3 => rw [flitOf, List.length_append, flitBody_length, bytesLE_length]
  all_goals decide +kernel

/-- The core that discarded because of the consignment. -/
def redoing : List (Nat × Core) := [(0, { busy with redo := some (keyOf (relayHdr 0)), wait := 6 })]
def wholeRelay : State := { withLanding (tideOn relayWait) (landed .landing 0 1024 .relay none) with cores := redoing }
theorem meets_checked : Met ConsignmentRow wholeRelay (.consignmentTrailer (.link 0) (keyOf (relayHdr 0))
    (consCrc (landed .landing 0 1024 .relay none).hdr (plainBytes wholeRelay (landed .landing 0 1024 .relay none))) 0) := by
  refine ⟨_, _, .checked _ _ _ _ (landed .landing 0 1024 .relay none) ?_ ?_ ?_ ?_ ?_ ?_ rfl ?_⟩ <;> decide +kernel
theorem shows_replayAsked : Shown ConsignmentRow (withLanding relayWait (landed .landing 3 0 .relay none))
    (.consignmentTrailer (.link 0) (keyOf (relayHdr 0)) 1 0) := by
  refine ⟨_, _, .replayAsked _ _ _ _ (landed .landing 3 0 .relay none) ?_ ?_ ?_ ?_ ?_ ?_ ?_ ?_, ?_, ?_, ?_⟩ <;> decide +kernel
theorem meets_tagRefused : Met ConsignmentRow (withLanding flitAt (landed .landing 3 0 (.coll 0 0 0) (some 0)))
    (.consignmentTrailer (.link 0) (keyOf (relayHdr 0)) 1
      (Config.gcmTag 0 (sealNonce 9 0) (hdrBytes (relayHdr 3)) [] + 1)) := by
  refine ⟨_, _, .tagRefused _ _ _ _ (landed .landing 3 0 (.coll 0 0 0) (some 0)) ?_ ?_ ?_ ?_ ?_ ?_ ?_ ?_⟩
  case refine_5 =>
    have e : linkKeyOf (withLanding flitAt (landed .landing 3 0 (.coll 0 0 0) (some 0)))
        (landHdr (landed .landing 3 0 (.coll 0 0 0) (some 0))).berth = 0 := by decide +kernel
    have e1 : (landHdr (landed .landing 3 0 (.coll 0 0 0) (some 0))).src = 9 := by decide +kernel
    have e2 : fieldLE (landed .landing 3 0 (.coll 0 0 0) (some 0)).sealBlk 8 8 = 0 := by decide +kernel
    simp only [tagGood, e, e1, e2]
    simp [landed]
  all_goals decide +kernel
theorem shows_exhausted : Shown ConsignmentRow (withLanding relayWait (landed .landing 4 0 .relay none))
    (.consignmentTrailer (.link 0) (keyOf (relayHdr 0)) 1 0) := by
  refine ⟨_, _, .exhausted _ _ _ _ (landed .landing 4 0 .relay none) ?_ ?_ ?_ ?_ ?_ ?_ ?_, ?_, ?_, ?_⟩ <;> decide +kernel
theorem shows_confirmed : Shown ConsignmentRow (withLanding relayWait { landed .checked 0 0 .relay none with words := [0x04030201] })
    (.confirmed (keyOf (relayHdr 0))) := by
  refine ⟨_, _, .confirmed _ { landed .checked 0 0 .relay none with words := [0x04030201] } ?_ ?_ ?_ ?_ ?_ ?_ ?_, ?_, ?_, ?_⟩ <;> decide +kernel
theorem shows_confirmNotice : Shown ConsignmentRow heldOne (.confirmNotice { keyOf (relayHdr 0) with src := 0 }) := by
  refine ⟨_, _, .confirmNotice _ heldItem ?_ ?_, ?_, ?_, ?_⟩ <;> decide +kernel
theorem shows_exhaustedNotice : Shown ConsignmentRow heldOne (.exhaustedNotice { keyOf (relayHdr 0) with src := 0 }) := by
  refine ⟨_, _, .exhaustedNotice _ heldItem ?_, ?_, ?_, ?_⟩ <;> decide +kernel
theorem shows_absorbedNotice : Shown ConsignmentRow heldOne (.absorbedNotice { keyOf (relayHdr 0) with src := 0 }) := by
  refine ⟨_, _, .absorbedNotice _ heldItem ?_ ?_, ?_, ?_, ?_⟩ <;> decide +kernel
theorem shows_replay : Shown ConsignmentRow (having heldOne [(pgLnk 0, 0x00C, 2)]) (.replayRequest { keyOf (relayHdr 0) with src := 0 } 3) := by
  refine ⟨_, _, .replay _ _ heldItem ?_ ?_ ?_ ?_ ?_, ?_, ?_, ?_, ⟨sealBlkOf 255 0, ?_⟩⟩ <;> decide +kernel
theorem shows_cannotReplay : Shown ConsignmentRow up (.replayRequest { keyOf (relayHdr 0) with src := 0 } 0) := by
  refine ⟨_, _, .cannotReplay _ _ ?_ ?_ ?_ ?_, ?_, ?_, ?_⟩ <;> decide +kernel
theorem shows_sourceReset : Shown ConsignmentRow (withLanding relayWait (landed .replaying 1 0 .relay none))
    (.sourceResetAnnounced (keyOf (relayHdr 0))) := by
  refine ⟨_, _, .sourceReset _ (landed .replaying 1 0 .relay none) ?_ ?_ ?_ ?_ ?_ ?_, ?_, ?_, ?_⟩ <;> decide +kernel

/-- Pairs marked for refresh, with an element in each confirmed half. -/
def paired : Core :=
  { busy with tiles := [(0, 7), (5 * 16384 + 16383, 9), (11 * 16384, 3)], rows := [(7 * 4096 + 4095, 5)], refT := 0x20, refR := 0x80 }
theorem meets_refreshTile : Met QuayRow (coreIs paired) (.pairRefresh 0 .tile 5) := by
  refine ⟨_, _, .refreshTile _ _ ?_ ?_ ?_ ?_⟩ <;> decide +kernel
theorem meets_refreshRows : Met QuayRow (coreIs paired) (.pairRefresh 0 .rows 7) := by
  refine ⟨_, _, .refreshRows _ _ ?_ ?_ ?_⟩ <;> decide +kernel
theorem shows_specEn : Shown QuayRow (having (coreIs busy) [(pgBoot, 0x00C, 10)]) (.specEn 0 (pf 1)) := by
  refine ⟨_, _, .specEn _ _ ?_ ?_, ?_, ?_, ?_⟩ <;> decide +kernel
theorem meets_enables : Met QuayRow (having (coreIs paired) [(pgCore 0, 0x200, 1)]) (.specEnEffect 0) := by
  refine ⟨_, _, .enables _ ?_ ?_ ?_ ?_⟩ <;> decide +kernel
theorem meets_disables : Met QuayRow (coreIs { paired with specOn := true }) (.specEnEffect 0) := by
  refine ⟨_, _, .disables _ ?_ ?_ ?_ ?_⟩ <;> decide +kernel
theorem shows_window : Shown QuayRow up (.qwin 0 (pf 0x107)) := by
  refine ⟨_, _, .window _ _ ?_ ?_ ?_, ?_, ?_, ?_⟩ <;> decide +kernel
theorem shows_reopens : Shown QuayRow (having up [(pgCd 7, 0x400, 0x304)]) (.qwin 23 (pf 3)) := by
  refine ⟨_, _, .reopens _ _ ?_ ?_ ?_ ?_, ?_, ?_, ?_⟩ <;> decide +kernel
/-- Blocks of port 23 that are full, with replays about RATE_HI and RATE_LO. -/
theorem shows_closes : Shown QuayRow { up with fullBlocks := [(0, 1), (23, 65)] } (.blockClose 23) := by
  refine ⟨_, _, .closes _ 65 ?_ ?_ ?_ ?_, ?_, ?_, ?_⟩ <;> decide +kernel
theorem shows_opens : Shown QuayRow { having up [(pgCd 7, 0x400, 0x304)] with fullBlocks := [(23, 16)] } (.blockClose 23) := by
  refine ⟨_, _, .opens _ 16 ?_ ?_ ?_, ?_, ?_, ?_⟩ <;> decide +kernel
theorem shows_counts : Shown QuayRow { having up [(pgCd 7, 0x400, 0x304)] with fullBlocks := [(23, 17)] } (.blockClose 23) := by
  refine ⟨_, _, .counts _ 17 ?_ ?_, ?_, ?_, ?_⟩ <;> decide +kernel
theorem meets_commit : (coreIs busy).core 0 = busy ∧ busy.seaFault = none ∧ busy.state = .running := by decide +kernel

/-! Function tables and bollards. -/

/-- An image of one class, FP32, whose endpoints are all zero, with seams at the least subnormals: RRED, SEG, LERP (07 R181, R196). -/
def flatHead : List Byte :=
  bytesLE 4 0x4C464B48 ++ [1, 3, 0, 0, 1, 0, 0, 0] ++ bytesLE 4 0 ++ bytesLE 8 (1 * 2 ^ 60) ++ bytesLE 8 (2 * 2 ^ 60) ++ bytesLE 8 (3 * 2 ^ 60)
def flatSeams : List (Nat × Byte) := (List.range 64).map (fun i => (hbmBase + 144 + 4 * (i + 1), BitVec.ofNat 8 (i + 1)))
/-- Berth 15 owns the first granule of HBM (14 R373), with the image there, and a function command has begun. -/
def fnState (job : Nat) (img : Bool) : State :=
  { having (holding up (if img then cells hbmBase flatHead ++ flatSeams else []))
      [(pgBerth 15, 0x104, 0x100), (pgBerth 15, 0x108, 1), (pgBerth 15, 0x10C, 3), (pgBerth 15, 0x604, 0x100), (pgBerth 15, 0x608, 1480),
       (pgBerth 15, 0x610, 1)] with
    berths := [(15, { BerthRun.reset with fnJob := some (BitVec.ofNat 32 job) })] }

theorem shows_fn_begins : Shown FnBlockRow up (.fnUnload 15 (pf 0x4002)) := by
  refine ⟨_, _, .begins _ 15 _ 2 (.inr (.inl ⟨rfl, rfl⟩)) ?_ ?_ ?_ ?_, ?_, ?_, ?_⟩ <;> decide +kernel
theorem shows_fn_busy : Shown FnBlockRow (fnState 3 false) (.fnLoadStd 15 (pf 3)) := by
  refine ⟨_, _, .busy _ 15 _ (.inr (.inr rfl)) ?_ ?_ ?_, ?_, ?_, ?_⟩ <;> decide +kernel
theorem meets_fn_loaded : Met FnBlockRow (fnState 0x7F01 true) (.fnDone 15) := by
  refine ⟨_, _, .loaded 15 0x7F01 0x7F _ ?_ ?_ ?_ ?_ ?_ ?_ rfl ?_ ?_⟩ <;> decide +kernel
theorem shows_fn_unloaded : Shown FnBlockRow (having (fnState 0x7F02 false) [(pgBerth 15, 0x61C, 0x80000000)]) (.fnDone 15) := by
  refine ⟨_, _, .unloaded 15 0x7F02 0x7F ?_ ?_ ?_ ?_, ?_, ?_, ?_⟩ <;> decide +kernel
theorem meets_fn_standard : Met FnBlockRow (fnState 3 false) (.fnDone 15) := by
  refine ⟨_, _, .standard 15 3 _ ?_ ?_ rfl⟩ <;> decide +kernel
theorem shows_bollard : Shown FnBlockRow up (.bollard 63 63 (pf 0xFFFFFFFF)) := by
  refine ⟨_, _, .bollard _ _ _ ?_, ?_, ?_, ?_⟩ <;> decide +kernel

/-! Ferries. -/

/-- Words of slip entry j of ferry 7. -/
def slip (j depart due addr seqPeer ctrl : Nat) : List (Nat × Nat × Nat) :=
  [(slipPage 7 j, slipOff j, depart), (slipPage 7 j, slipOff j + 8, due), (slipPage 7 j, slipOff j + 16, addr),
   (slipPage 7 j, slipOff j + 24, seqPeer), (slipPage 7 j, slipOff j + 28, if ctrl % 4 = 1 || ctrl % 4 = 2 then 9 + 0x10000 else 0),
   (slipPage 7 j, slipOff j + 32, ctrl)]
/-- Ferry 7 of group 63, which has member 9 besides this chip, with STATE, LEN and a schedule, at tide 100. -/
def ferryAt (st len : Nat) (sched : List (Nat × Nat × Nat)) (r : FerryRun) : State :=
  { having up ([(pgFerry 7, 0x008, 0x3F00), (pgFerry 7, 0x00C, st), (pgFerry 7, 0x048, len), (pgTide, 0x00C, 0x100A),
      (pgGtab 63, gOff 63 0x08, 0x16230000), (pgGtab 63, gOff 63 0x20, 2)] ++ sched) with
    tide := { Tide.reset with now := 100 }, ferries := [(7, r)], groups := [(63, { GroupRun.reset with members := [0, 9] })] }
def oneMark : List (Nat × Nat × Nat) := slip 0 100 0 0 0 0
def markEnd : List (Nat × Nat × Nat) := slip 0 100 0 0 0 0 ++ slip 1 100 0 0 0 3

theorem shows_arm : Shown FerryRow (ferryAt 3 1 oneMark { FerryRun.reset with sailed := [(0, 0)] }) (.arm 7 (pf 1)) := by
  refine ⟨_, _, .arm _ _ ?_ ?_ ?_, ?_, ?_, ?_⟩ <;> decide +kernel
theorem shows_armRefused : Shown FerryRow (ferryAt 2 1 oneMark FerryRun.reset) (.arm 7 (pf 1)) := by
  refine ⟨_, _, .armRefused _ _ ?_ ?_ ?_, ?_, ?_, ?_⟩ <;> decide +kernel
theorem shows_append : Shown FerryRow (having (ferryAt 2 0 [] FerryRun.reset) [(pgFerry 7, 0x008, 0x3F03), (pgFerry 7, 0x068, 0)])
    (.append 7 (pf 4)) := by
  refine ⟨_, _, .append _ _ ?_ ?_ ?_ ?_ ?_ ?_, ?_, ?_, ?_⟩ <;> decide +kernel
theorem shows_armed : Shown FerryRow (ferryAt 8 1 (slip 0 101 0 0 0 0) { FerryRun.reset with validating := 1 }) (.validationDone 7) := by
  refine ⟨_, _, .armed _ ?_ ?_ ?_ ?_, ?_, ?_, ?_⟩ <;> decide +kernel
theorem shows_ferryRefused : Shown FerryRow (ferryAt 8 1 oneMark { FerryRun.reset with validating := 1, verdict := some (1048575, 11) })
    (.validationDone 7) := by
  refine ⟨_, _, .refused _ 1048575 11 ?_ ?_ ?_ ?_, ?_, ?_, ?_⟩ <;> decide +kernel
theorem shows_appended : Shown FerryRow (having (ferryAt 10 1 [] { FerryRun.reset with validating := 2 }) [(pgFerry 7, 0x068, 9)])
    (.validationDone 7) := by
  refine ⟨_, _, .appended _ ?_ ?_, ?_, ?_, ?_⟩ <;> decide +kernel
/-- A SAIL of one unit from scratchpad address 0 to member 9 by link 5. -/
def sailing : State := having (ferryAt 2 2 (slip 0 100 5000 0 0 (1 + 5 * 4) ++ slip 1 100 0 0 0 3) FerryRun.reset) [(pgLnk 5, 0x00C, 2)]
theorem meets_sail : Met FerryRow sailing (.sail 7 0) := by
  refine ⟨_, _, .sail _ 0 0 5 _ ?_ ?_ ?_ ?_ ?_ rfl ?_ ?_ ?_ ?_ ?_ ?_ ?_ ?_⟩ <;> decide +kernel
theorem shows_zoneOpen : Shown FerryRow (ferryAt 2 2 (slip 0 100 5000 0 0 (2 + 5 * 4) ++ slip 1 100 0 0 0 3) FerryRun.reset) (.zoneOpen 7 0) := by
  refine ⟨_, _, .zoneOpen _ 0 0 _ ?_ ?_ ?_ ?_ ?_ rfl ?_ ?_, ?_, ?_, ?_⟩ <;> decide +kernel
theorem shows_mark : Shown FerryRow { ferryAt 2 2 markEnd FerryRun.reset with berths := [(15, { BerthRun.reset with waits := [(7, none), (6, none)] })] }
    (.mark 7 0) := by
  refine ⟨_, _, .mark _ 0 0 ?_ ?_ ?_ ?_ ?_ ?_ ?_, ?_, ?_, ?_⟩ <;> decide +kernel
theorem shows_endEntry : Shown FerryRow (ferryAt 2 2 markEnd { FerryRun.reset with done := [(0, 0)] }) (.endEntry 7 1) := by
  refine ⟨_, _, .endEntry _ 1 ?_ ?_ ?_ ?_ ?_ ?_ ?_ ?_ ?_ ?_, ?_, ?_, ?_⟩ <;> decide +kernel
theorem meets_ferryAbort : Met FerryRow (ferryAt 2 2 markEnd FerryRun.reset) (.abort 7 (pf 2)) := by
  refine ⟨_, _, .abort _ _ ?_ ?_ ?_ ?_⟩ <;> decide +kernel
theorem meets_ferryOverdue : Met FerryRow (ferryAt 2 2 (slip 0 90 100 0 77 (2 + 5 * 4) ++ slip 1 100 0 0 0 3) FerryRun.reset)
    (.ferryOverdue 7 0) := by
  refine ⟨_, _, .overdue _ 0 0 ?_ ?_⟩ <;> decide +kernel

/-! Groups and collectives: group 63 of the host, this chip node 0. -/

/-- Group 63 with STATE and GCFG; its member array is at the first byte of HBM, its staging in cluster 63's scratchpad. -/
def groupAt (st cfg count rank : Nat) (mem : List (Nat × Byte)) (r : GroupRun) : State :=
  { having up [(pgGtab 63, gOff 63 0x04, 0x100), (pgGtab 63, gOff 63 0x08, cfg), (pgGtab 63, gOff 63 0x10, 63), (pgGtab 63, gOff 63 0x14, 50),
      (pgGtab 63, gOff 63 0x20, st + rank * 256), (pgGtab 63, gOff 63 0x24, count), (pgTide, 0x00C, 0x100A),
      (pgCq 63, 0x008, 1), (pgCq 63, 0x044, 0x100), (pgCq 63, 0x040, 0x10000), (pgCq 63, 0x048, 1), (pgLnk 5, 0x00C, 2)] with
    mem := mem, tide := { Tide.reset with now := 1000 }, groups := [(63, r)] }
/-- DEPTH 2, chunks of 256 KiB, no forced fall-back. -/
def cfgOf (n : Nat) : Nat := 0x12200000 + n
/-- Members 0, 9 and 5. -/
def three : GroupRun := { GroupRun.reset with members := [0, 9, 5] }
def twoNotices (x y : W32) : GroupRun := { three with notices := [(0, x, true), (5, y, false)] }

theorem meets_create : Met GroupRow (groupAt 7 (cfgOf 2) 0 0 [(hbmBase, 9)] GroupRun.reset) (.create 63 (pf 1)) := by
  refine ⟨_, _, .create _ _ ?_ ?_ ?_ ?_ ?_⟩ <;> decide +kernel
theorem meets_createAlone : Met GroupRow (groupAt 0 (cfgOf 1) 0 0 [] GroupRun.reset) (.create 63 (pf 1)) := by
  refine ⟨_, _, .createAlone _ _ ?_ ?_ ?_ ?_ ?_⟩ <;> decide +kernel
theorem shows_createRefused : Shown GroupRow (groupAt 0 (cfgOf 2) 0 0 [] GroupRun.reset) (.create 63 (pf 1)) := by
  refine ⟨_, _, .createRefused _ _ ?_ ?_ ?_ ?_, ?_, ?_, ?_⟩ <;> decide +kernel
theorem shows_delete : Shown GroupRow (groupAt 2 (cfgOf 3) 3 0 [] { three with charged := 8 }) (.delete 63 (pf 2)) := by
  refine ⟨_, _, .delete _ _ ?_ ?_ ?_ ?_ ?_ ?_, ?_, ?_, ?_⟩ <;> decide +kernel
theorem shows_deleteWaits : Shown GroupRow (groupAt 4 (cfgOf 3) 3 0 [] three) (.delete 63 (pf 2)) := by
  refine ⟨_, _, .deleteWaits _ _ ?_ ?_ ?_, ?_, ?_, ?_⟩ <;> decide +kernel
/-- The entry as a number. -/
abbrev g63 : Nat := (63 : Fin 64).val
def gathering (n : List (BitVec 16 × W32 × Bool)) : State := groupAt 1 (cfgOf 3) 3 0 [] { three with notices := n }
theorem gathering_digest (n : List (BitVec 16 × W32 × Bool)) : groupDigest (gathering n) g63 = groupDigest (gathering []) g63 := rfl
/-- The digest stands for itself. -/
theorem meets_notice (d : W32) (hd : d = groupDigest (gathering []) g63) : Met GroupRow (gathering []) (.creationNotice 63 9 d true) := by
  refine ⟨_, _, .notice 63 9 d true ?_ ?_ (fun x hx => absurd hx List.not_mem_nil) hd ⟨0, ?_, ?_, all_of ?_⟩⟩ <;> decide +kernel
/-- The digest stands for itself. -/
theorem meets_ready (d : W32) (hd : d = groupDigest (gathering []) g63) :
    Met GroupRow (gathering [(0, d, true), (5, d, false)]) (.creationNotice 63 9 d true) := by
  have e : groupDigest (gathering [(0, d, true), (5, d, false)]) g63 = d := (gathering_digest _).trans hd.symm
  refine ⟨_, _, .ready 63 9 d true ?_ ?_ ?_ e.symm ?_⟩
  · have h : groupState (gathering []) 63 = 1 := by decide +kernel
    exact h
  · exact List.mem_cons_of_mem _ List.mem_cons_self
  · intro x hx
    rw [e]
    rcases List.mem_cons.mp hx with rfl | hx
    · rfl
    · rw [List.mem_singleton.mp hx]
  · intro k hk h9
    have hk' : k ∈ ([0, 9, 5] : List (BitVec 16)) := hk
    simp only [List.mem_cons, List.not_mem_nil, or_false] at hk'
    rcases hk' with rfl | rfl | rfl
    · exact ⟨(0, d, true), List.mem_cons_self, rfl⟩
    · exact absurd rfl h9
    · exact ⟨(5, d, false), List.mem_cons_of_mem _ List.mem_cons_self, rfl⟩
theorem meets_digestDiffers : Met GroupRow (gathering []) (.creationNotice 63 9 (groupDigest (gathering []) g63 + 1) true) := by
  refine ⟨_, _, .digestDiffers 63 9 (groupDigest (gathering []) g63 + 1) true ?_ ?_ ?_⟩
  case refine_3 => generalize groupDigest (gathering []) _ = d; intro h; have := congrArg (· - d) h; simp at this
  all_goals decide +kernel
theorem shows_tail : Shown GroupRow (groupAt 2 (cfgOf 3) 3 0 [] three) (.tail 63 (pf 2)) := by
  refine ⟨_, _, .tail _ _ ?_ ?_, ?_, ?_, ?_⟩ <;> decide +kernel
theorem shows_tailPast : Shown GroupRow (groupAt 2 (cfgOf 3) 3 0 [] three) (.tail 63 (pf 3)) := by
  refine ⟨_, _, .tailPast _ _ ?_ ?_, ?_, ?_, ?_⟩ <;> decide +kernel
theorem shows_cq_doorbell : Shown GroupRow (groupAt 2 (cfgOf 3) 3 0 [] three) (.cqDb 63 (pf 2)) := by
  refine ⟨_, _, .doorbell _ _ ?_ ?_, ?_, ?_, ?_⟩ <;> decide +kernel

/-- An all-gather (10 R269): START 2^20, SRC and DST in HBM, SIZE, SEQ 0, PERIOD, TRANSIT. -/
def descBytes (size : Nat) : List Byte :=
  bytesLE 8 0x100000 ++ bytesLE 8 (hbmBase + 0x1000000) ++ bytesLE 8 (hbmBase + 0x2000000) ++ bytesLE 8 size ++ bytesLE 4 0 ++ bytesLE 2 2
    ++ bytesLE 2 0 ++ bytesLE 4 100 ++ bytesLE 4 1000 ++ List.replicate 16 0
/-- The descriptor where CQ_BASE points. -/
def descCells (size : Nat) : List (Nat × Byte) :=
  ((descBytes size).zipIdx.map (fun x => (hbmBase + 0x10000 + x.2, x.1))).filter (fun x => x.2 != 0)
def queued (st size : Nat) (early : List Nat) : State :=
  (groupAt st (cfgOf 3) 3 0 (descCells size) { three with early := early }).wrN (pgCq 63) 0x050 1
theorem meets_taken : Met GroupRow (queued 2 12288 [1]) (.descriptorTake 63) := by
  refine ⟨_, _, .taken _ ?_ ?_ ?_ ⟨0, ?_⟩⟩ <;> decide +kernel

/-- That collective in progress at tide `now`; links 0 and 5 lead to members 9 and 5. -/
def collNow (credit : List Nat) (landed : List (Nat × Nat)) : Coll :=
  { desc := descBytes 12288, addr := hbmBase + 0x10000, launched := [], sentOk := [], landedOk := landed, written := [], credit := credit,
    heldOnce := false, late := false, nonfinite := false, stopped := false, begun := true, work := [] }
def inState (st : Nat) (now : W64) (r : GroupRun) : State :=
  { having (groupAt st (cfgOf 3) 3 0 [] r) [(pgTopo, 0x050, 9 + 1 * 2 ^ 20), (pgTopo, 0x064, 5 + 2 * 2 ^ 20), (pgLnk 0, 0x00C, 2)] with
    tide := { Tide.reset with now := now } }
def active (now : W64) (c : Coll) : State := inState 3 now { three with coll := some c }
/-- Sent: segment 0 of DST to member 9. -/
def sentPiece : Piece := ⟨.dst, 0, 4096⟩
theorem meets_launch : Met CollectiveRow (active 0x100000 (collNow [0] [])) (.transferLaunch 63 0) := by
  refine ⟨_, _, .launch 63 0 0 1 0 sentPiece (collNow [0] []) _ ?_ ?_ rfl ?_ ?_ ?_ ?_ ?_ ?_ ?_ ?_ ?_ ?_ ?_ ?_⟩ <;> decide +kernel
theorem shows_credit : Shown CollectiveRow (active 5 (collNow [] [])) (.credit 63 1) := by
  refine ⟨_, _, .credit _ _ (collNow [] []) ?_ ?_ ?_ ?_, ?_, ?_, ?_⟩ <;> decide +kernel
theorem shows_credit_early : Shown CollectiveRow (groupAt 2 (cfgOf 3) 3 0 [] three) (.credit 63 7) := by
  refine ⟨_, _, .early _ _ ?_ ?_, ?_, ?_, ?_⟩ <;> decide +kernel
theorem bytes_length (s : State) (a n : Nat) : (s.bytes a n).length = n := by simp [State.bytes]
theorem meets_written : Met CollectiveRow (active 0x100000 (collNow [] [(0, 0)])) (.chunkWritten 63 0) := by
  refine ⟨_, _, .written 63 0 0 2 ⟨.dst, 8192, 4096⟩ .copy (collNow [] [(0, 0)]) _ ?_ ?_ rfl ?_ ?_ ?_ (bytes_length _ _ _) ?_ ?_ ⟨1, ?_⟩⟩
    <;> decide +kernel
theorem shows_timeout : Shown CollectiveRow (active (0x100000 + 1000 + 50) (collNow [] [])) (.collTimeout 63 0) := by
  refine ⟨_, _, .timeout _ _ 5 ?_ ?_, ?_, ?_, ?_, ?_, ?_, ⟨_, rfl, ?_⟩, ⟨0, all_of ?_⟩⟩ <;> decide +kernel
theorem shows_reformNotice : Shown CollectiveRow (active 5 (collNow [] [])) (.reformNotice 63 0 5 0x20000) := by
  refine ⟨_, _, .reformNotice _ _ _ _ ?_ ?_ ?_, ?_, ?_, ?_⟩ <;> decide +kernel
theorem meets_reform : Met CollectiveRow (inState 4 0x20000 { three with removal := [5], reformAt := some 0x20000 }) (.reform 63) := by
  refine ⟨_, _, .reform _ ?_ ?_ (all_of ?_) ?_ ⟨9, ?_⟩ ?_ ?_ ?_⟩ <;> decide +kernel
theorem shows_expelled : Shown CollectiveRow (inState 4 0x20000 { three with removal := [0, 5], reformAt := some 0x20000 }) (.reform 63) := by
  refine ⟨_, _, .expelled _ ?_ ?_ ⟨0, ?_⟩ ?_, ?_, ?_, ?_⟩ <;> decide +kernel
theorem shows_abortNotice : Shown CollectiveRow (having (groupAt 2 (cfgOf 3 + 65536) 3 0 [] three) [(pgFerry 7, 0x008, 0x3F00), (pgFerry 7, 0x00C, 2)])
    (.abortNotice 63) := by
  refine ⟨_, _, .abortNotice _ ?_ ?_, ?_, ?_, ?_⟩ <;> decide +kernel
/-- An all-reduce of three ranks: what rank 0 sends first. -/
theorem meets_ring : sendOf ⟨3, 0, 0, 0, 12288, 4096, 4096⟩ (ringPlan ⟨3, 0, 0, 0, 12288, 4096, 4096⟩) 3 = some (3, 1, ⟨.dst, 8192, 4096⟩) := by
  decide +kernel

/-! Links: link 15 of node 0, which has CFG_VALID and DIMS 14. LNK.STATUS: [2:0] STATE, 3 SPARE_USED, [11:8] WIDTH, [14:12] FAIL,
[24:16] LANE_OK. LNK.CTRL: 0 EN, 1 SPARE_EN, 2 RETRAIN, [4:3] MIN_WIDTH. -/

def linkAt (ctrl status : Nat) (l : LinkRun) : State :=
  { having up [(pgLnk 15, 0x008, ctrl), (pgLnk 15, 0x00C, status), (pgTopo, 0x00C, 1), (pgTopo, 0x040, 0xE0000)] with
    links := [(15, l)], tide := { Tide.reset with clock := 2 ^ 27 + 5 } }
def atStep (k : Nat) (own far : Bool) : LinkRun := { LinkRun.reset with step := k, ownDone := own, farDone := far, stepAt := 5 }
def report (k : Fin 7) : TrainReport := ⟨k, 0x1FF, 1, 15, 100⟩

theorem shows_link_enable : Shown LinkRow (linkAt 0 0 LinkRun.reset) (.linkEn 15 (pf 3)) := by
  refine ⟨_, _, .enable _ _ ?_ ?_ ?_ ?_ ?_, ?_, ?_, ?_⟩ <;> decide +kernel
theorem shows_link_enableEarly : Shown LinkRow (having (linkAt 0 0 LinkRun.reset) [(pgBoot, 0x00C, 7)]) (.linkEn 15 (pf 1)) := by
  refine ⟨_, _, .enableEarly _ _ ?_ ?_ ?_ ?_, ?_, ?_, ?_⟩ <;> decide +kernel
theorem shows_link_disable : Shown LinkRow (linkAt 3 0x1FF0802 LinkRun.reset) (.linkEn 15 (pf 0)) := by
  refine ⟨_, _, .disable _ _ ?_ ?_ ?_, ?_, ?_, ?_⟩ <;> decide +kernel
theorem shows_link_retrain : Shown LinkRow (linkAt 3 0x1FF0802 LinkRun.reset) (.retrain 15 (pf 5)) := by
  refine ⟨_, _, .retrain _ _ ?_ ?_ ?_ ?_ ?_ ?_, ?_, ?_, ?_⟩ <;> decide +kernel
theorem shows_link_pattern : Shown LinkRow (linkAt 3 4 LinkRun.reset) (.trainingPattern 15) := by
  refine ⟨_, _, .pattern _ ?_ ?_ ?_ ?_, ?_, ?_, ?_⟩ <;> decide +kernel
theorem shows_link_ownFirst : Shown LinkRow (linkAt 3 1 (atStep 5 false false)) (.trainingStepComplete 15 (report 5)) := by
  refine ⟨_, _, .ownFirst _ _ ?_ ?_ ?_ ?_ ?_, ?_, ?_, ?_⟩ <;> decide +kernel
theorem shows_link_ownLast : Shown LinkRow (linkAt 3 1 (atStep 4 false true)) (.trainingStepComplete 15 (report 4)) := by
  refine ⟨_, _, .ownLast _ _ ?_ ?_ ?_ ?_, ?_, ?_, ?_⟩ <;> decide +kernel
/-- Eight good lanes, and MIN_WIDTH 8. -/
theorem shows_link_lanesChosen : Shown LinkRow (linkAt 0x1B 1 { atStep 3 false true with farLanes := 0x1DF })
    (.trainingStepComplete 15 (report 3)) := by
  refine ⟨_, _, .lanesChosen _ _ 0x1DF ?_ ?_ ?_ ?_ ?_ ?_ ?_, ?_, ?_, ?_⟩ <;> decide +kernel
theorem shows_link_tooNarrow : Shown LinkRow (linkAt 0x1B 1 { atStep 3 false true with farLanes := 0x0DF })
    (.trainingStepComplete 15 (report 3)) := by
  refine ⟨_, _, .tooNarrow _ _ 0x0DF ?_ ?_ ?_ ?_ ?_ ?_, ?_, ?_, ?_⟩ <;> decide +kernel
theorem shows_link_up : Shown LinkRow (linkAt 3 0x1FF0001 (atStep 6 false true)) (.trainingStepComplete 15 (report 6)) := by
  refine ⟨_, _, .up _ _ 8 ?_ ?_ ?_ ?_ ?_ ?_, ?_, ?_, ?_⟩ <;> decide +kernel
theorem shows_link_narrow : Shown LinkRow (linkAt 3 0x10001 (atStep 6 false true)) (.trainingStepComplete 15 { report 6 with lat16 := 57344 }) := by
  refine ⟨_, _, .up _ _ 1 ?_ ?_ ?_ ?_ ?_ ?_, ?_, ?_, ?_⟩ <;> decide +kernel
theorem shows_link_farFirst : Shown LinkRow (linkAt 3 1 (atStep 6 false false)) (.trainingMessage 15 (report 6)) := by
  refine ⟨_, _, .farFirst _ _ ?_ ?_ ?_ ?_ ?_, ?_, ?_, ?_⟩ <;> decide +kernel
theorem shows_link_farLast : Shown LinkRow (linkAt 3 1 (atStep 2 true false)) (.trainingMessage 15 (report 2)) := by
  refine ⟨_, _, .farLast _ _ ?_ ?_ ?_ ?_, ?_, ?_, ?_⟩ <;> decide +kernel
theorem shows_link_identified : Shown LinkRow (linkAt 3 1 (atStep 5 false false)) (.trainingMessage 15 (report 5)) := by
  refine ⟨_, _, .identified _ _ ?_ ?_ ?_ ?_ ?_, ?_, ?_, ?_⟩ <;> decide +kernel
theorem shows_link_miscabled : Shown LinkRow (linkAt 3 1 (atStep 5 true false)) (.trainingMessage 15 { report 5 with node := 3 }) := by
  refine ⟨_, _, .miscabled _ _ ?_ ?_ ?_ ?_, ?_, ?_, ?_⟩ <;> decide +kernel
theorem shows_link_stepTimeout : Shown LinkRow (linkAt 3 1 { atStep 6 true false with wasUp := true }) (.stepTimeout 15) := by
  refine ⟨_, _, .stepTimeout _ ?_ ?_ ?_ ?_, ?_, ?_, ?_⟩ <;> decide +kernel
theorem shows_link_retry : Shown LinkRow (linkAt 3 4 { LinkRun.reset with missingAt := 5 }) (.retryTimer 15) := by
  refine ⟨_, _, .retry _ ?_ ?_ ?_ ?_, ?_, ?_, ?_⟩ <;> decide +kernel
theorem shows_link_retrainLimit : Shown LinkRow
    (having (linkAt 3 4 { LinkRun.reset with retrains := [2 ^ 27] }) [(pgLnk 15, 0x044, 1)]) (.retrainLimit 15) := by
  refine ⟨_, _, .retrainLimit _ ?_ ?_, ?_, ?_, ?_⟩ <;> decide +kernel
theorem shows_link_lightSpared : Shown LinkRow (linkAt 3 0x1FF0802 LinkRun.reset) (.lightLoss 15 0x80 200) := by
  refine ⟨_, _, .lightSpared _ _ _ 7 ?_ ?_ ?_ ?_ ?_, ?_, ?_, ?_⟩ <;> decide +kernel
theorem shows_link_lightIdle : Shown LinkRow (linkAt 3 0x1FF0802 LinkRun.reset) (.lightLoss 15 0x100 200) := by
  refine ⟨_, _, .lightIdle _ _ _ ?_ ?_ ?_, ?_, ?_, ?_⟩ <;> decide +kernel
theorem shows_link_lightRetrain : Shown LinkRow (linkAt 3 0x1FF0802 LinkRun.reset) (.lightLoss 15 0x81 200) := by
  refine ⟨_, _, .lightRetrain _ _ _ ?_ ?_ ?_, ?_, ?_, ?_⟩ <;> decide +kernel
theorem shows_link_windowClean : Shown LinkRow (linkAt 3 0x1FF0802 { LinkRun.reset with winFlits := 2 ^ 20, winErr := [(0, 1)] }) (.laneWindow 15 0x100 0) := by
  refine ⟨_, _, .windowClean _ _ _ ?_ ?_ ?_ (all_of ?_), ?_, ?_, ?_⟩ <;> decide +kernel
theorem shows_link_windowSpared : Shown LinkRow (linkAt 3 0x1FF0802 { LinkRun.reset with winFlits := 2 ^ 20, winErr := [(3, 70000)] }) (.laneWindow 15 0 0) := by
  refine ⟨_, _, .windowSpared _ _ _ 3 ?_ ?_ ?_ ?_ ?_, ?_, ?_, ?_⟩ <;> decide +kernel
theorem shows_link_ackTimeout : Shown LinkRow (linkAt 3 0x1FF0802 { LinkRun.reset with ackSeq := 0, txSeq := 3, fails := 14 }) (.ackTimeout 15) := by
  refine ⟨_, _, .ackTimeout _ ?_ ?_ ?_ ?_ ?_, ?_, ?_, ?_⟩ <;> decide +kernel
theorem shows_link_ackRetrain : Shown LinkRow (linkAt 3 0x1FF0802 { LinkRun.reset with ackSeq := 0, txSeq := 3, fails := 15 }) (.ackTimeout 15) := by
  refine ⟨_, _, .ackRetrain _ ?_ ?_ ?_ ?_ ?_, ?_, ?_, ?_⟩ <;> decide +kernel
theorem shows_announce : Shown LinkRow (linkAt 3 0x1FF0802 LinkRun.reset) (.linkStateAnnounce 2 5) := by
  refine ⟨_, _, .announce _ _ _ ?_ ?_ rfl, ?_, ?_, ?_⟩ <;> decide +kernel
theorem shows_routed : Shown LinkRow (having (linkAt 3 0x1FF0802 LinkRun.reset) [(pgTopo, 0x08C, 1 + 2 ^ 20)]) (.routeHop ⟨1, 0, 2, none, 4⟩) := by
  refine ⟨_, _, .routed _ 15 1 ?_ ?_ ?_, ?_, ?_, ?_⟩ <;> decide +kernel
theorem shows_noRoute : Shown LinkRow (linkAt 3 0x1FF0802 LinkRun.reset) (.routeHop ⟨1, 0, 2, none, 4⟩) := by
  refine ⟨_, _, .noRoute _ ?_ ?_ ?_ ?_ (fun k hk => nomatch hk), ?_, ?_, ?_⟩ <;> decide +kernel
theorem shows_apply : Shown LinkRow (having (linkAt 3 0x1FF0802 LinkRun.reset) [(pgTopo, 0x0CC, 12)]) (.apply (pf 1)) := by
  refine ⟨_, _, .apply _ ?_ ?_ ?_ ?_, ?_, ?_, ?_⟩ <;> decide +kernel
/-- Group 63 is ACTIVE and reaches member 9 by link 15. -/
def portInUse : State :=
  { having (linkAt 3 0x1FF0802 LinkRun.reset) [(pgTopo, 0x0CC, 12), (pgTopo, 0x08C, 9 + 2 ^ 20), (pgGtab 63, gOff 63 0x20, 3)] with
    groups := [(63, { GroupRun.reset with members := [0, 9] })] }
theorem shows_applyWaits : Shown LinkRow portInUse (.apply (pf 1)) := by
  refine ⟨_, _, .applyWaits _ ?_ ?_ ?_ ?_, ?_, ?_, ?_⟩ <;> decide +kernel
theorem shows_applyRefused : Shown LinkRow (having (linkAt 3 0x1FF0802 LinkRun.reset) [(pgTopo, 0x090, 15)]) (.apply (pf 1)) := by
  refine ⟨_, _, .applyRefused _ ?_ ?_ ?_, ?_, ?_, ?_⟩ <;> decide +kernel
theorem shows_self : Shown LinkRow up (.self (pf 0xFFFFC)) := by
  refine ⟨_, _, .self _ ?_ ?_, ?_, ?_, ?_⟩ <;> decide +kernel
theorem shows_self_invalid : Shown LinkRow up (.self (pf 0x10008)) := by
  refine ⟨_, _, .self _ ?_ ?_, ?_, ?_, ?_⟩ <;> decide +kernel

/-! The tier unit: object 0xFFFFF, rings of four requests at 0x40000 of stack 0 (the berths') and of the host, HEAD 65535. -/

def lastObj : Nat := 0xFFFFF
def tierAt (q : List TierReq) (e : ObjEntry) (m : List TierMove) : State :=
  { having up [(pgTier, 0x008, 0x401), (pgTier, 0x00C, 1), (pgTier, 0x044, 0x100), (pgTier, 0x048, 2 ^ 20), (pgTier, 0x04C, 0x40000),
      (pgTier, 0x050, 0x100), (pgTier, 0x054, 2), (pgTier, 0x058, 65535), (pgTier, 0x05C, 65535),
      (pgBerth 15, 0x658, 0x40000), (pgBerth 15, 0x65C, 0x100), (pgBerth 15, 0x660, 2), (pgBerth 15, 0x664, 65535), (pgBerth 15, 0x668, 65535),
      (pgBerth 15, 0x644, 8), (pgBerth 15, 0x650, 2)] with
    tierQ := q, objects := if e.state = 0 then [] else [(lastObj, e)], tierMoves := m }
/-- A request of the last object from a ring, for the last stack. -/
def ask (ring op : Nat) (arg : W64) : TierReq :=
  { ring := ring, pos := 65535, obj := lastObj, op := op, dtier := 1, dplace := 31, tileLog2 := if op = 1 then 12 else 0, arg := arg,
    clean := true, active := false }
/-- Two tiles of 4 KiB at the second granule of stack 30. -/
def object (st pins : Nat) : ObjEntry :=
  { ObjEntry.free with home := homeAddr (stackAddr 30 0x200000), size := 8192, state := st, tier := 1, tileLog2 := 12, owner := 15, pins := pins,
                       gen := 7 }
def tailCells : List (Nat × Byte) :=
  [(stackAddr 0 0x40060, 0xFF), (stackAddr 0 0x40061, 0xFF), (stackAddr 0 0x40062, 0x0F), (stackAddr 0 0x40064, 9), (stackAddr 0 0x40065, 1),
   (stackAddr 0 0x40066, 31)]

theorem shows_tier_enable : Shown RequestRow up (.tierEn (pf 1)) := by
  refine ⟨_, _, .enable _ ?_ ?_, ?_, ?_, ?_⟩ <;> decide +kernel
theorem meets_otabReady : Met RequestRow (having up [(pgTier, 0x008, 0x401)]) .otabReady := by
  refine ⟨_, _, .ready ?_ ?_ ?_⟩ <;> decide +kernel
theorem shows_tail_early : Shown RequestRow (having (tierAt [] ObjEntry.free []) [(pgTier, 0x00C, 0)]) (.tqTail 15 (pf 3)) := by
  refine ⟨_, _, .tailEarly _ 15 _ (.tqTail _ _ ?_) ?_ ?_, ?_, ?_, ?_⟩ <;> decide +kernel
theorem shows_doorbell_early : Shown RequestRow (having (tierAt [] ObjEntry.free []) [(pgTier, 0x00C, 0)]) (.hqDb (pf 0)) := by
  refine ⟨_, _, .tailEarly _ 16 _ (.hqDb _ ?_) ?_ ?_, ?_, ?_, ?_⟩ <;> decide +kernel
theorem shows_tail_taken : Shown RequestRow { tierAt [] ObjEntry.free [] with mem := tailCells } (.hqTail (pf 0)) := by
  refine ⟨_, _, .tail _ 16 _ _ (.hqTail _ ?_) ?_ ?_ rfl ?_ ?_, ?_, ?_, ?_⟩ <;> decide +kernel
theorem shows_doorbell_taken : Shown RequestRow { tierAt [] ObjEntry.free [] with mem := tailCells } (.tqDb 15 (pf 0)) := by
  refine ⟨_, _, .tail _ 15 _ _ (.tqDb _ _ ?_) ?_ ?_ rfl ?_ ?_, ?_, ?_, ?_⟩ <;> decide +kernel
/-- The host may not free the berth's object: cause 2. -/
theorem shows_req_refused : Shown RequestRow (tierAt [ask 16 2 0] (object 1 0) []) (.free 16 65535) := by
  refine ⟨_, _, .refused _ _ _ 2 (ask 16 2 0) (.free _ _) ?_ ?_, ?_, ?_, ?_⟩ <;> decide +kernel
theorem shows_alloc : Shown RequestRow (tierAt [ask 15 1 0xC00000] ObjEntry.free []) (.alloc 15 65535) := by
  refine ⟨_, _, .alloc _ _ (ask 15 1 0xC00000) (stackAddr 31 0) ?_ ?_ ?_, ?_, ?_, ?_⟩ <;> decide +kernel
theorem shows_alloc_overQuota : Shown RequestRow (tierAt [ask 15 1 0xC01000] ObjEntry.free []) (.alloc 15 65535) := by
  refine ⟨_, _, .allocFails _ _ (ask 15 1 0xC01000) ?_ ?_, ?_, ?_, ?_⟩ <;> decide +kernel
theorem shows_alloc_noRun : Shown RequestRow (having (tierAt [ask 15 1 0x1000] ObjEntry.free []) [(pgHs 31, 0x00C, 1)]) (.alloc 15 65535) := by
  refine ⟨_, _, .allocFails _ _ (ask 15 1 0x1000) ?_ ?_, ?_, ?_, ?_⟩ <;> decide +kernel
theorem meets_allocDone : Met RequestRow (tierAt [{ ask 15 1 8192 with active := true }] { object 0 0 with state := 0 } []) (.allocDone 0xFFFFF) := by
  refine ⟨_, _, .allocDone _ { ask 15 1 8192 with active := true } _ ?_ ?_ ?_ ?_ rfl ?_ ?_⟩ <;> decide +kernel
theorem shows_tier_free : Shown RequestRow (tierAt [ask 15 2 0] (object 4 0) []) (.free 15 65535) := by
  refine ⟨_, _, .free _ _ (ask 15 2 0) ?_ ?_, ?_, ?_, ?_⟩ <;> decide +kernel
theorem shows_pin : Shown RequestRow (tierAt [ask 15 4 0] (object 1 254) []) (.pin 15 65535) := by
  refine ⟨_, _, .pin _ _ (ask 15 4 0) ?_, ?_, ?_, ?_⟩ <;> decide +kernel
theorem shows_unpin : Shown RequestRow (tierAt [ask 15 5 0] (object 1 1) []) (.unpin 15 65535) := by
  refine ⟨_, _, .unpin _ _ (ask 15 5 0) ?_, ?_, ?_, ?_⟩ <;> decide +kernel
theorem meets_restore : Met RequestRow (tierAt [ask 15 6 0] (object 3 0) []) (.restore 15 65535) := by
  refine ⟨_, _, .restore _ _ (ask 15 6 0) (stackAddr 31 0) ?_ ?_ ?_⟩ <;> decide +kernel
theorem shows_supplied : Shown RequestRow (tierAt [ask 15 7 0] (object 4 0) []) (.supplied 15 65535) := by
  refine ⟨_, _, .supplied _ _ (ask 15 7 0) ?_, ?_, ?_, ?_⟩ <;> decide +kernel
theorem shows_share : Shown RequestRow (tierAt [ask 15 8 0xFFFF] (object 1 0) []) (.share 15 65535) := by
  refine ⟨_, _, .share _ _ (ask 15 8 0xFFFF) ?_, ?_, ?_, ?_⟩ <;> decide +kernel
theorem shows_wait_answered : Shown RequestRow (tierAt [ask 15 9 0] (object 1 0) []) (.wait 15 65535) := by
  refine ⟨_, _, .waitAnswered _ _ (ask 15 9 0) 0 0 ?_ ?_ ?_, ?_, ?_, ?_⟩ <;> decide +kernel
theorem shows_waits : Shown RequestRow (tierAt [ask 15 9 0] (object 2 0) []) (.wait 15 65535) := by
  refine ⟨_, _, .waits _ _ (ask 15 9 0) ?_ ?_ ?_, ?_, ?_, ?_⟩ <;> decide +kernel
theorem meets_tier_move : Met RequestRow (tierAt [ask 15 3 0] (object 1 0) []) (.tierMove 15 65535) := by
  refine ⟨_, _, .move _ _ (ask 15 3 0) (homeAddr (stackAddr 31 0)) ?_ ?_ ?_ ?_ ?_ ?_⟩ <;> decide +kernel
theorem shows_move_pinned : Shown RequestRow (tierAt [ask 15 3 0] (object 1 255) []) (.tierMove 15 65535) := by
  refine ⟨_, _, .moveEnds _ _ (ask 15 3 0) ?_ ?_, ?_, ?_, ?_⟩ <;> decide +kernel

/-! Moves, flash, generators. -/

/-- The object's move to stack 31, or to flash. -/
def moving (dtier : Nat) (tiles : Store TileState) : TierMove :=
  { obj := lastObj, dtier := dtier, dplace := 31, dst := if dtier = 1 then homeAddr (stackAddr 31 0) else 5, tiles := tiles, requeued := 0 }
def moveAt (e : ObjEntry) (dtier : Nat) (tiles : Store TileState) : State :=
  tierAt [{ ask 15 3 0 with active := true }] e [moving dtier tiles]

theorem meets_tileSail : Met MoveRow (moveAt (object 2 0) 1 [(0, .confirmed)]) (.tileSail 0xFFFFF 1) := by
  refine ⟨_, _, .tileSail _ 1 (stackAddr 30 0x201000) (stackAddr 31 0x1000) (moving 1 [(0, .confirmed)]) _ ?_ rfl ?_ ?_ ?_ ?_ ?_ ?_ ?_ ?_ ?_ ?_ ?_⟩
    <;> decide +kernel
theorem shows_flip : Shown MoveRow (moveAt (object 2 0) 1 [(0, .confirmed), (1, .confirmed)]) (.flip 0xFFFFF) := by
  refine ⟨_, _, .flip _ (moving 1 [(0, .confirmed), (1, .confirmed)]) { ask 15 3 0 with active := true } _ ?_ ?_ rfl ?_ ?_ ?_ ?_ ?_ ?_, ?_, ?_, ?_⟩
    <;> decide +kernel
def inFlash : ObjEntry := { object 2 0 with tier := 2, home := 5 }
theorem shows_flashRead : Shown MoveRow (moveAt inFlash 1 []) (.flashRead 0xFFFFF 1 16 true) := by
  refine ⟨_, _, .flashRead _ 1 _ (moving 1 []) ?_ ?_ ?_ ?_ ?_, ?_, ?_, ⟨moving 1 [(1, .staged)], ?_⟩, ?_⟩ <;> decide +kernel
theorem shows_flashLost : Shown MoveRow (moveAt inFlash 1 [(1, .dirty)]) (.flashRead 0xFFFFF 1 16 false) := by
  refine ⟨_, _, .flashLost _ 1 _ (moving 1 [(1, .dirty)]) { ask 15 3 0 with active := true } _ ?_ rfl ?_ ?_ ?_ ?_ ?_, ?_, ?_, ?_⟩ <;> decide +kernel
theorem meets_flashProgram : Met MoveRow (moveAt (object 2 0) 2 [(1, .landed)]) (.flashProgram 0xFFFFF 1 true) := by
  refine ⟨_, _, .flashProgram _ 1 (moving 2 [(1, .landed)]) _ ?_ rfl ?_ ?_ ?_⟩ <;> decide +kernel
theorem shows_programFails : Shown MoveRow (having (moveAt (object 2 0) 2 [(1, .landed)]) [(pgFlash, 0x050, 9)]) (.flashProgram 0xFFFFF 1 false) := by
  refine ⟨_, _, .programFails _ 1 (moving 2 [(1, .landed)]) ?_ ?_ ?_, ?_, ?_, ?_⟩ <;> decide +kernel
theorem shows_maintStart : Shown MoveRow (having up [(pgFtl, 0x008, 1), (pgFlash, 0x00C, 1)]) (.ftlMaint true true) := by
  refine ⟨_, _, .maintStart _ ?_ ?_ ?_, ?_, ?_, ?_⟩ <;> decide +kernel
theorem meets_maintEnd : Met MoveRow (having up [(pgFtl, 0x00C, 1)]) (.ftlMaint true false) := by
  exact ⟨_, _, .maintEnd _ (by decide +kernel)⟩
theorem meets_flashEn : Met MoveRow up (.flashEn (pf 1)) := by
  refine ⟨_, _, .flashEn _ ?_ ?_ ?_⟩ <;> decide +kernel
theorem shows_flashOff : Shown MoveRow (having up [(pgFlash, 0x008, 1), (pgFlash, 0x00C, 1)]) (.flashEn (pf 0)) := by
  refine ⟨_, _, .flashOff _ ?_ ?_, ?_, ?_, ?_⟩ <;> decide +kernel
theorem meets_test : Met MoveRow up (.test 31 (pf 1)) := by
  refine ⟨_, _, .test _ _ ?_ ?_ ?_ ?_⟩ <;> decide +kernel
theorem shows_testRefused : Shown MoveRow (tierAt [] (object 1 0) []) (.test 30 (pf 1)) := by
  refine ⟨_, _, .testRefused _ _ ?_ ?_ ?_ ?_, ?_, ?_, ?_⟩ <;> decide +kernel
def testing (mode count : Nat) : State :=
  having up [(pgHs 31, 0x008, 1), (pgHs 31, 0x00C, 1), (pgHs 31, genOff 31 0, mode), (pgHs 31, genOff 31 8, count), (pgHs 31, genOff 31 0x14, 1),
    (pgHs 31, genOff 31 4, 2 ^ 23 - 1), (pgHs 31, genOff 31 0xC, 1)]
theorem shows_go : Shown MoveRow (testing 0 1) (.go 31 31 (pf 0x80006400)) := by
  refine ⟨_, _, .go _ _ _ ?_ ?_ ?_, ?_, ?_, ?_⟩ <;> decide +kernel
theorem shows_genDone : Shown MoveRow (testing 0 1) (.generatorDone 31 31 0 0) := by
  refine ⟨_, _, .genDone _ _ _ _ ?_ ?_, ?_, ?_, ?_⟩ <;> decide +kernel
theorem meets_genWrote : Met MoveRow (testing (1 + 3 * 4 + 3 * 32) 2) (.generatorDone 31 31 0 0) := by
  refine ⟨_, _, .genWrote _ _ _ _ 0xFF ?_ ?_ ?_ ?_⟩ <;> decide +kernel

/-! Sketch indexes and engines: index 63 of the host, with one cell, one item, 2^10 side entries, sketches of 256 bits; cluster 63. -/

/-- Places in stack 0. -/
def hb (o : Nat) : Nat := hbmBase + o
/-- A header of HKSX version 1 with PREFIX 0, ITEMS 1 and the addresses of its arrays (13 R346). -/
def hdr1 (dir : Nat) : List Byte :=
  bytesLE 4 0x58534B48 ++ [1, 0, 0, 0] ++ bytesLE 8 1 ++ bytesLE 8 (hb dir) ++ bytesLE 8 (hb (dir + 0x100000)) ++ bytesLE 8 0
    ++ bytesLE 8 (hb (dir + 0x200000)) ++ bytesLE 8 (hb (dir + 0x300000)) ++ bytesLE 8 (hb 0x600000) ++ bytesLE 8 (hb 0x700000) ++ bytesLE 8 0 ++ [10] ++ List.replicate 47 0
def gen1 : IndexGen := { hdr := hdr1 0x200000, at_ := hb 0x100000, start := 100, cutoff := none }
def live : Index := { Index.reset with state := 1, gens := [gen1] }
/-- A later generation, with arrays of its own. -/
def gen2 : IndexGen := { hdr := hdr1 0x800000, at_ := hb 0xC00000, start := 5000, cutoff := some 50 }

def idxAt (x : Index) (mem : List (Nat × Byte)) (now : W64) : State :=
  { having up [(pgTide, 0x00C, 0x100A), (pgSketch, 0x040, 63), (pgSketch, 0x044, 0x100000), (pgSketch, 0x048, 0x100), (pgSketch, 0x04C, 0xFF),
      (pgSketch, 0x058, 200000)] with
    tide := { Tide.reset with now := now }, indexes := [(63, x)], mem := mem }
/-- The header, and the directory entry of its one cell: FIRST 0, COUNT 1. -/
def hdrCells : List (Nat × Byte) := cells (hb 0x100000) (hdr1 0x200000) ++ [(hb 0x200008, 1)]

theorem shows_idx_begins : Shown IndexRow (idxAt Index.reset [] 0) (.indexCreate (pf 1)) := by
  refine ⟨_, _, .begins _ _ 1 (.inl ⟨rfl, rfl⟩) ?_ ?_ ?_, ?_, ?_, ?_⟩ <;> decide +kernel
theorem shows_idx_merge : Shown IndexRow (idxAt live [] 0) (.merge (pf 2)) := by
  refine ⟨_, _, .begins _ _ 2 (.inr ⟨rfl, rfl⟩) ?_ ?_ ?_, ?_, ?_, ?_⟩ <;> decide +kernel
theorem shows_idx_retire : Shown IndexRow (idxAt { live with state := 3 } [] 0) (.retire (pf 3)) := by
  refine ⟨_, _, .retire _ ?_ ?_ ?_ ?_, ?_, ?_, ?_⟩ <;> decide +kernel
theorem shows_idx_destroy : Shown IndexRow (idxAt { live with state := 2, gens := [gen2, gen1] } [] 0) (.destroy (pf 4)) := by
  refine ⟨_, _, .destroy _ ?_ ?_ ?_ ?_, ?_, ?_, ?_⟩ <;> decide +kernel
theorem shows_idx_wrongState : Shown IndexRow (idxAt live [] 0) (.retire (pf 3)) := by
  refine ⟨_, _, .wrongState _ _ (.inl ⟨rfl, ?_, ?_⟩) ?_ ?_, ?_, ?_, ?_⟩ <;> decide +kernel
theorem shows_idx_wrongState_free : Shown IndexRow (idxAt Index.reset [] 0) (.destroy (pf 4)) := by
  refine ⟨_, _, .wrongState _ _ (.inr ⟨rfl, ?_, ?_⟩) ?_ ?_, ?_, ?_, ?_⟩ <;> decide +kernel
theorem meets_idx_created : Met IndexRow (idxAt { Index.reset with busy := 1, newHdr := hb 0x100000 + 3 * 2 ^ 48 } hdrCells 7) (.indexCheckDone 63) := by
  refine ⟨_, _, .created _ _ _ rfl ?_ ?_ ?_ ?_ ?_ rfl⟩ <;> decide +kernel
theorem meets_idx_merges : Met IndexRow
    (idxAt { live with gens := [{ gen2 with start := 60 }], busy := 2, newHdr := hb 0x100000 + 3 * 2 ^ 48, newSwitch := 165536, newCutoff := 99999 } hdrCells 100000)
    (.indexCheckDone 63) := by
  refine ⟨_, _, .merges _ _ rfl ?_ ?_ ?_ ?_⟩ <;> decide +kernel
theorem shows_idx_refused : Shown IndexRow (idxAt { Index.reset with busy := 1, newHdr := hb 0x100000 + 3 * 2 ^ 48 } [] 7) (.indexCheckDone 63) := by
  refine ⟨_, _, .refused _ _ rfl ?_ ?_ ?_ ?_ ?_, ?_, ?_, ?_⟩ <;> decide +kernel
theorem shows_idx_switched : Shown IndexRow (idxAt { live with state := 2, gens := [gen2, gen1] } [] 5000) (.switched 63) := by
  refine ⟨_, _, .switched _ ?_ ?_, ?_, ?_, ?_⟩ <;> decide +kernel
theorem meets_idx_retired : Met IndexRow (idxAt { live with state := 3, busy := 3, gens := [gen2, gen1] } [] 6000) (.retired 63) := by
  refine ⟨_, _, .retired _ gen2 ?_ ?_ ?_ ?_ ?_⟩ <;> decide +kernel
theorem shows_idx_destroyed : Shown IndexRow (idxAt { live with busy := 4 } [] 5000) (.destroyed 63) := by
  refine ⟨_, _, .destroyed _ ?_ ?_ ?_, ?_, ?_, ?_⟩ <;> decide +kernel

/-! Engines. The ring of 16 descriptors at 0x40000, HEAD 65535, TAIL in bollard 1, DONE in bollard 63; the record at 0x50000, the result at
0x60000. -/

/-- A descriptor of index 63 with SNAP 1000, K, PROBES 1 and more clusters (13 R355). -/
def sdesc (op snap k : Nat) (clusters : Nat) : List Byte :=
  bytesLE 8 snap ++ bytesLE 8 (hb 0x50000 + 3 * 2 ^ 48) ++ bytesLE 8 (if op = 1 then hb 0x60000 + 3 * 2 ^ 48 else 0) ++ bytesLE 8 clusters
    ++ bytesLE 1 op ++ [63] ++ bytesLE 2 k ++ bytesLE 2 0 ++ bytesLE 2 (if op = 1 then 1 else 0) ++ List.replicate 24 0
def engAt (d : List Byte) (x : Index) (e : Engine) (posted : Nat) (now : W64) (more : List (Nat × Byte)) : State :=
  { having (idxAt x (cells (hb 0x403C0) d ++ more) now)
      [(pgCl 63, 0xA00, 0x40000), (pgCl 63, 0xA04, 0x30100), (pgCl 63, 0xA08, 0x803F0104), (pgCl 63, 0xA0C, 65535),
       (pgCl 63, 0x804, 65535 + posted)] with engines := [(63, e)] }
def working (d : List Byte) (phase : Nat) (answers : List (Nat × List (Nat × Nat × Nat))) : EngineWork :=
  { addr := hb 0x403C0, desc := d, phase := phase, genStart := 100, seen := [], pos := 5, asked := [], answers := answers }
def worked (d : List Byte) (phase : Nat) (answers : List (Nat × List (Nat × Nat × Nat))) : Engine :=
  { work := some (working d phase answers), helping := none }

theorem meets_search : Met EngineRow (engAt (sdesc 1 1000 1 0) live Engine.reset 1 7 []) (.search 63) := by
  refine ⟨_, _, .search _ _ ⟨rfl, ?_⟩ ?_⟩ <;> decide +kernel
theorem meets_searchRefused : Met EngineRow (engAt (sdesc 1 1000 0 0) live Engine.reset 1 7 []) (.search 63) := by
  refine ⟨_, _, .searchRefused _ _ 0x8001 1 ⟨rfl, ?_⟩ ?_ ?_⟩ <;> decide +kernel
theorem shows_overrun : Shown EngineRow (engAt [] live Engine.reset 17 7 []) (.search 63) := by
  refine ⟨_, _, .overrun _ ?_ ?_, ?_, ?_, ?_⟩ <;> decide +kernel
/-- A record with id 9 and tag 0xAB. -/
def recCells : List (Nat × Byte) := [(hb 0x50000, 9), (hb 0x50008, 0xAB)]
theorem meets_sketchInsert : Met EngineRow (engAt (sdesc 2 0 0 0) { live with tail := 1023 } Engine.reset 1 7 recCells) (.insert 63) := by
  refine ⟨_, _, .insert _ _ _ gen1 ⟨⟨rfl, ?_⟩, ?_, ?_, rfl, ?_, ?_, ?_⟩⟩ <;> decide +kernel
theorem meets_sketchDelete : Met EngineRow (engAt (sdesc 3 0 0 0) { live with tail := 5 } Engine.reset 1 7 [(hb 0x50000, 9)]) (.sketchDelete 63) := by
  refine ⟨_, _, .delete _ _ _ gen1 ⟨⟨rfl, ?_⟩, ?_, ?_, rfl, ?_, ?_, ?_⟩⟩ <;> decide +kernel
theorem meets_sideFull : Met EngineRow (engAt (sdesc 2 0 0 0) { live with tail := 1024 } Engine.reset 1 7 recCells) (.insert 63) := by
  refine ⟨_, _, .sideFull _ _ gen1 ⟨rfl, ?_⟩ ?_ ?_ ?_ ?_⟩ <;> decide +kernel
/-- Position 5 is BUSY: a DELETE. -/
theorem shows_sideValid : Shown EngineRow (engAt (sdesc 3 0 0 0) { live with tail := 6 } (worked (sdesc 3 0 0 0) 3 []) 1 7 [(hb 0x6000A7, 9)])
    (.sideEntryValid 63) := by
  refine ⟨_, _, .sideValid _ (working (sdesc 3 0 0 0) 3 []) _ gen1 ?_ rfl ?_ ?_ ?_ ?_ ?_ ?_ ?_, ?_, ?_, ?_⟩ <;> decide +kernel
theorem shows_sideValidInsert : Shown EngineRow
    (engAt (sdesc 2 0 0 0) { live with tail := 6 } (worked (sdesc 2 0 0 0) 3 []) 1 7 [(hb 0x50040, 0xC5), (hb 0x6000A7, 5)]) (.sideEntryValid 63) := by
  refine ⟨_, _, .sideValidInsert _ (working (sdesc 2 0 0 0) 3 []) _ gen1 _ _ ?_ rfl ?_ ?_ ?_ ?_ ?_ ?_ rfl rfl ?_ ?_ ?_ ?_, ?_, ?_, ?_⟩
    <;> decide +kernel
/-- A VALID insert, stamped 1000, counts for a snapshot at 1000. -/
theorem shows_snapshot : Shown EngineRow (engAt (sdesc 1 1000 1 0) { live with tail := 1 } (worked (sdesc 1 1000 1 0) 1 []) 1 1000
    [(hb 0x600007, 6), (hb 0x600008, 0xE8), (hb 0x600009, 3)]) (.snapshot 63) := by
  refine ⟨_, _, .snapshot _ (working (sdesc 1 1000 1 0) 1 []) _ gen1 ?_ rfl ?_ ?_ ?_ ?_ ?_ ?_ ?_ ?_, ?_, ?_, ?_⟩ <;> decide +kernel
/-- LIST with a cell 1, where there is one cell. -/
def listed : List Byte := (sdesc 1 1000 1 0).set 48 4
theorem shows_snapshotRefused : Shown EngineRow (engAt listed live (worked listed 1 []) 1 1000 [(hb 0x50080, 1)]) (.snapshot 63) := by
  refine ⟨_, _, .snapshotRefused _ (working listed 1 []) _ gen1 ?_ rfl ?_ ?_ ?_ ?_ ?_ ?_ ?_ ?_, ?_, ?_, ?_⟩ <;> decide +kernel
theorem shows_noGeneration : Shown EngineRow (engAt (sdesc 1 99 1 0) live (worked (sdesc 1 99 1 0) 1 []) 1 1000 []) (.snapshot 63) := by
  refine ⟨_, _, .noGeneration _ (working (sdesc 1 99 1 0) 1 []) ?_ ?_ ?_ ?_ ?_ ?_, ?_, ?_, ?_⟩ <;> decide +kernel
/-- Cluster 62 helps. -/
def helped : List Byte := sdesc 1 1000 1 (2 ^ 62)
theorem shows_shareRequest : Shown EngineRow (engAt helped live (worked helped 2 []) 1 1000 []) (.shareRequest 63 62) := by
  refine ⟨_, _, .shareRequest _ _ (working helped 2 []) ?_ ?_ ?_ ?_ ?_ ?_, ?_, ?_, ?_⟩ <;> decide +kernel
theorem shows_engine_share : Shown EngineRow (engAt helped live (worked helped 2 []) 1 1000 [(hb 0x200008, 1), (hb 0x300000, 7), (hb 0x400000, 9)])
    (.shareResult 63 63) := by
  refine ⟨_, _, .share _ _ (working helped 2 []) _ _ ?_ rfl rfl ?_ ?_ ?_ ?_ ⟨62, ?_⟩, ?_, ?_, ?_⟩ <;> decide +kernel
theorem shows_searchDone : Shown EngineRow
    (engAt (sdesc 1 1000 2 0) live (worked (sdesc 1 1000 2 0) 2 []) 1 1000 [(hb 0x200008, 1), (hb 0x300000, 7), (hb 0x400000, 9)])
    (.shareResult 63 63) := by
  refine ⟨_, _, .searchDone _ (working (sdesc 1 1000 2 0) 2 []) _ _ _ ?_ rfl rfl ?_ ?_ ?_ ?_ rfl (all_of ?_) ?_ ?_ ?_, ?_, ?_, ?_⟩ <;> decide +kernel

/-! Berth 15, whose VF is 16. BCMD: [2:0] OP, 3 FORCE, 4 REGION, [13:8] INDEX. BSTAT: [2:0] STATE, 3 BUSY, 4 SESSION, 5 IDE. -/

/-- Its BSTAT and CLUSTERS' upper word; region 15 is the last granule of stack 0. -/
def berthAt (bst clusters : Nat) (r : BerthRun) : State :=
  { having up [(pgIdent, 0x064, 1), (pgBerth 15, 0x048, 16), (pgBerth 15, 0x050, bst), (pgBerth 15, 0x044, clusters),
      (pgBerth 15, 0x1F0, 0xFFE00000), (pgBerth 15, 0x1F4, 0x3010F), (pgBerth 15, 0x1F8, 1), (pgBerth 15, 0x1FC, 1)] with
    berths := [(15, r)] }
def jobOf (v : Nat) (begun : Bool) : BerthRun := { BerthRun.reset with job := some (BitVec.ofNat 32 v), begun := begun, prior := 2 }
def cl63 : Nat := 0x80000000

theorem meets_berth_opens : Met BerthRow (berthAt 0 0 BerthRun.reset) (.berthOpen 15 (pf 1)) := by
  refine ⟨_, _, .opens _ _ ⟨?_, ?_, ?_⟩ ?_⟩ <;> decide +kernel
theorem meets_berth_opensClosing : Met BerthRow (having (berthAt 0 0 BerthRun.reset) [(pgDebug, 0x00C, 2)]) (.berthOpen 15 (pf 1)) := by
  refine ⟨_, _, .opensClosing _ _ ⟨?_, ?_, ?_⟩ ?_⟩ <;> decide +kernel
theorem shows_berth_binds : Shown BerthRow (berthAt 2 0 BerthRun.reset) (.bind 15 (pf 0x3F02)) := by
  refine ⟨_, _, .binds _ _ ⟨?_, ?_, ?_⟩, ?_, ?_, ?_⟩ <;> decide +kernel
theorem shows_berth_bindsRegion : Shown BerthRow (berthAt 1 0 BerthRun.reset) (.bind 15 (pf 0x0F12)) := by
  refine ⟨_, _, .binds _ _ ⟨?_, ?_, ?_⟩, ?_, ?_, ?_⟩ <;> decide +kernel
theorem shows_berth_waits : Shown BerthRow (berthAt 2 cl63 BerthRun.reset) (.unbind 15 (pf 0x3F03)) := by
  refine ⟨_, _, .waits _ _ _ 3 (.inl ⟨rfl, rfl⟩) ⟨?_, ?_, ?_⟩ ?_, ?_, ?_, ?_⟩ <;> decide +kernel
theorem shows_berth_forced : Shown BerthRow (berthAt 2 cl63 BerthRun.reset) (.teardown 15 (pf 0xC)) := by
  refine ⟨_, _, .forced _ _ _ 4 (.inr ⟨rfl, rfl⟩) ⟨?_, ?_, ?_⟩ ?_ ?_ ?_, ?_, ?_, ?_⟩ <;> decide +kernel
theorem shows_berth_refused : Shown BerthRow (berthAt 2 cl63 BerthRun.reset) (.bind 15 (pf 0x3F02)) := by
  refine ⟨_, _, .refused _ _ _ (.inr (.inl rfl)) ?_ ?_, ?_, ?_, ?_⟩ <;> decide +kernel
theorem meets_berth_starts : Met BerthRow (berthAt 2 cl63 (jobOf 4 false)) (.rebindStart 15) := by
  refine ⟨_, _, .starts _ 4 ?_ ?_⟩ <;> decide +kernel
theorem shows_berth_bindsCluster : Shown BerthRow (berthAt 0xB 0 (jobOf 0x3F02 true)) (.rebindDone 15 4095) := by
  refine ⟨_, _, .bindsCluster _ _ 0x3F02 ⟨?_, ?_, ?_, ?_, ?_, ?_⟩, ?_, ?_, ?_⟩ <;> decide +kernel
theorem meets_berth_bindsRegion : Met BerthRow (berthAt 0xB 0 (jobOf 0x0F12 true)) (.rebindDone 15 4095) := by
  refine ⟨_, _, .bindsRegion _ _ 0x0F12 15 ⟨?_, ?_, ?_, ?_, ?_, ?_⟩ ?_ ?_⟩ <;> decide +kernel
theorem meets_berth_unbindsCluster : Met BerthRow (berthAt 0xB cl63 (jobOf 0x3F03 true)) (.rebindDone 15 4095) := by
  refine ⟨_, _, .unbindsCluster _ _ 0x3F03 63 ⟨?_, ?_, ?_, ?_, ?_, ?_⟩ ?_⟩ <;> decide +kernel
theorem meets_berth_unbindsRegion : Met BerthRow (berthAt 0xB cl63 (jobOf 0x0F13 true)) (.rebindDone 15 4095) := by
  refine ⟨_, _, .unbindsRegion _ _ 0x0F13 15 ⟨?_, ?_, ?_, ?_, ?_, ?_⟩ ?_ ?_⟩ <;> decide +kernel
theorem meets_berth_tornDown : Met BerthRow (berthAt 0xC cl63 (jobOf 4 true)) (.rebindDone 15 4095) := by
  refine ⟨_, _, .tornDown _ _ 4 ⟨?_, ?_, ?_, ?_, ?_, rfl⟩ ⟨?_, ?_, ?_, ?_, ?_, ?_, ?_⟩⟩ <;> decide +kernel

/-! Sessions. What the ciphers answer is open (log 21), so a row that depends on it is met wherever they answer so. -/

theorem meets_session_opens (secret : List Byte) (h : Config.decaps 9 ([]) = some secret) :
    Met SessionRow (berthAt 1 0 { BerthRun.reset with kemKey := 9 }) (.openSession 15 []) := by
  refine ⟨_, _, .opens 15 [] secret ?_ ?_ ?_ h⟩ <;> decide +kernel
theorem shows_session_fails : Shown SessionRow (berthAt 2 0 BerthRun.reset) (.openSession 15 []) := by
  refine ⟨_, _, .fails _ _ ?_ (.inl ?_), ?_, ?_, ?_⟩ <;> decide +kernel
/-- OPEN with a session and an active IDE stream. -/
def inSession : State := berthAt 0x32 cl63 { BerthRun.reset with session := 3, kemKey := 9 }
theorem takes_message (km : Bool) (h : Config.sessionTagOk 3 [] = true) : MessageTaken inSession 15 [] km := by
  refine ⟨by decide +kernel, ?_⟩
  have e : (inSession.berth 15).session = 3 := by decide +kernel
  have e1 : inSession.bit (fBstSession 15) = true := by decide +kernel
  have e2 : inSession.bit (fBstIde 15) = true := by decide +kernel
  simp [sessionTakes, e, e1, e2, h]
theorem meets_exports (h : Config.sessionTagOk 3 [] = true) : Met SessionRow inSession (.linkExport 15 []) :=
  ⟨_, _, .exports _ _ (takes_message false h)⟩
theorem meets_imports (k : Nat) (h : Config.sessionTagOk 3 [] = true) (h1 : Config.unsealKey 9 [] = some k) :
    Met SessionRow inSession (.linkImport 15 []) := ⟨_, _, .imports 15 [] k (takes_message false h) (by decide +kernel) h1⟩
theorem meets_importFails (h : Config.sessionTagOk 3 [] = true) (h1 : Config.unsealKey 9 [] = none) :
    Met SessionRow inSession (.linkImport 15 []) := ⟨_, _, .importFails 15 [] (takes_message false h) (.inr h1)⟩
theorem meets_ideKm (h : Config.sessionTagOk 3 [] = true) : Met SessionRow inSession (.ideKm 15 []) :=
  ⟨_, _, .ideKm _ _ (takes_message true h)⟩
theorem shows_messageFails : Shown SessionRow (berthAt 2 0 BerthRun.reset) (.linkExport 15 []) := by
  refine ⟨_, _, .messageFails _ _ _ false (.inl ⟨rfl, rfl⟩) ?_ ?_, ?_, ?_, ?_⟩ <;> decide +kernel
theorem shows_keylock : Shown SessionRow inSession (.keylock 15 (BitVec.ofNat 14 (pgCore 4079)) true) := by
  refine ⟨_, _, .keylock _ _ _ ?_ ?_ ?_ ?_, ?_, ?_, ?_⟩ <;> decide +kernel
theorem shows_keylockRefused : Shown SessionRow inSession (.keylock 15 (BitVec.ofNat 14 (pgCore 0)) true) := by
  refine ⟨_, _, .keylockRefused _ _ _ ?_ ?_, ?_, ?_, ?_⟩ <;> decide +kernel
theorem shows_rngFail : Shown SessionRow (having up [(pgSec, 0x040, 0xFFFF0000)]) .rngFail :=
  ⟨_, _, .rngFail (by decide +kernel), by decide +kernel, by decide +kernel, by decide +kernel⟩
theorem shows_ideFail : Shown SessionRow inSession (.ideFail 16) := by
  refine ⟨_, _, .ideFail _ 15 ?_ ?_ ?_ ?_, ?_, ?_, ?_⟩ <;> decide +kernel
theorem shows_ideFailHost : Shown SessionRow inSession (.ideFail 0) := by
  refine ⟨_, _, .ideFailHost _ ?_ ?_, ?_, ?_, ?_⟩ <;> decide +kernel

/-! SPDM on VF 16. -/

def spdmAt (n : Nat) : State := { inSession with doe := [(16, n)] }
theorem meets_version : Met SpdmRow inSession (.getVersion 16 []) :=
  ⟨_, _, .negotiates _ _ _ 0 1 4 (by decide +kernel) (.inl ⟨rfl, rfl, rfl, rfl⟩)⟩
theorem meets_algorithms : Met SpdmRow (spdmAt 3) (.negotiateAlgorithms 16 []) :=
  ⟨_, _, .negotiates _ _ _ 3 7 0x63 (by decide +kernel) (.inr (.inr ⟨rfl, rfl, rfl, rfl⟩))⟩
theorem meets_identity : Met SpdmRow (spdmAt 7) (.getDigests 16 []) :=
  ⟨_, _, .identity _ _ _ 1 _ (by decide +kernel) (by decide +kernel) (.inl ⟨rfl, rfl, rfl⟩)⟩
theorem meets_noIdentity : Met SpdmRow (having (spdmAt 7) [(pgIdent, 0x064, 0)]) (.getMeasurements 16 []) :=
  ⟨_, _, .noIdentity _ _ _ (by decide +kernel) (by decide +kernel) (.inr (.inr (.inr rfl)))⟩
theorem meets_outOfOrder : Met SpdmRow (spdmAt 3) (.chunkGet 16 []) :=
  ⟨_, _, .outOfOrder _ _ _ 7 (by decide +kernel) (by decide +kernel)
    (.inr (.inr ⟨rfl, .inr (.inr (.inr (.inr (.inr (.inl rfl)))))⟩))⟩
theorem meets_chunkSend : Met SpdmRow (spdmAt 7) (.chunkSend 16 []) := ⟨_, _, .chunkSend _ _ (by decide +kernel)⟩
theorem meets_chunkGet : Met SpdmRow (spdmAt 7) (.chunkGet 16 []) := ⟨_, _, .chunkGet _ _ (by decide +kernel)⟩
theorem meets_vendor : Met SpdmRow (spdmAt 7) (.vendorDefinedRequest 16 []) :=
  ⟨_, _, .vendor _ _ (by decide +kernel) (.inl (by decide +kernel))⟩
theorem meets_vendorHost (k : Nat) (h : Config.unsealKey 0 [] = some k) :
    Met SpdmRow { up with doe := [(0, 7)] } (.vendorDefinedRequest 0 []) :=
  ⟨_, _, .vendorHost _ _ k (by decide +kernel) rfl (by decide +kernel) h⟩

/-! Bring-up and resets. BOOT.STATUS: [3:0] STAGE, 4 PATH, 5 MAP_VALID, 6 IMAGE_VALID. -/

def bootAt (status : Nat) (b : Boot) : State := { having State.reset [(pgBoot, 0x00C, status)] with boot := b }
def step0 : StageReport :=
  { isrothOk := true, pufOk := true, certPresent := true, strap := 2, failed := [], spares := [(63, 3)], banks := [], lanes := [], rows := [] }
def inPhase (p : Phase) : State := bootAt 0 { Boot.reset with phase := p, perst := true }

theorem shows_cold : Shown BootRow (inPhase .off) (.coldStart 2) := by
  refine ⟨_, _, .cold _ ?_, ?_, ?_, ?_⟩ <;> decide +kernel
theorem meets_perst : Met BootRow (inPhase .scanning) .perstAssert := ⟨_, _, .perst (by decide +kernel)⟩
theorem shows_perstIdle : Shown BootRow (inPhase .tripped) .perstAssert :=
  ⟨_, _, .perstIdle (by decide +kernel), by decide +kernel, by decide +kernel, by decide +kernel⟩
theorem shows_perstEnds : Shown BootRow (inPhase .held) (.perstDeassert 2) := by
  refine ⟨_, _, .perstEnds _ ?_, ?_, ?_, ?_⟩ <;> decide +kernel
theorem shows_perstEndsIdle : Shown BootRow (inPhase .tripped) (.perstDeassert 2) := by
  refine ⟨_, _, .perstEndsIdle _ ?_, ?_, ?_, ?_⟩ <;> decide +kernel
theorem shows_rom : Shown BootRow (bootAt 0 Boot.reset) (.stageDone step0) := by
  refine ⟨_, _, .rom _ ?_ ?_ ?_ ?_, ?_, ?_, ?_⟩ <;> decide +kernel
theorem shows_romBadConfig : Shown BootRow (bootAt 0 Boot.reset) (.stageDone { step0 with strap := 3 }) := by
  refine ⟨_, _, .romBadConfig _ ?_ ?_ ?_, ?_, ?_, ?_⟩ <;> decide +kernel
theorem shows_romFails : Shown BootRow (bootAt 0 Boot.reset) (.stageDone { step0 with isrothOk := false }) := by
  refine ⟨_, _, .romFails _ ?_ ?_, ?_, ?_, ?_⟩ <;> decide +kernel
theorem meets_puf : Met BootRow (bootAt 1 Boot.reset) (.stageDone step0) := by
  refine ⟨_, _, .puf _ ?_ ?_⟩ <;> decide +kernel
theorem shows_pufFails : Shown BootRow (bootAt 1 Boot.reset) (.stageDone { step0 with pufOk := false }) := by
  refine ⟨_, _, .pufFails _ ?_ ?_, ?_, ?_, ?_⟩ <;> decide +kernel
theorem shows_bootCores : Shown BootRow (bootAt 4 Boot.reset) (.stageDone step0) := by
  refine ⟨_, _, .cores _ ?_, ?_, ?_, ?_⟩ <;> decide +kernel
theorem meets_testClean : Met BootRow (bootAt 5 Boot.reset) (.stageDone step0) := ⟨_, _, .testClean _ (by decide +kernel)⟩
theorem meets_testSpare : Met BootRow (having (bootAt 5 Boot.reset) [(pgBoot, 0x008, 1)]) (.stageDone { step0 with failed := [4079] }) := by
  refine ⟨_, _, .testSpare _ 4079 3 ?_ ?_ ?_ ?_ ?_ ?_⟩ <;> decide +kernel
theorem meets_testFenced : Met BootRow (having (bootAt 5 Boot.reset) [(pgBoot, 0x008, 1)]) (.stageDone { step0 with failed := [47] }) := by
  refine ⟨_, _, .testFenced _ 47 ?_ ?_ ?_⟩ <;> decide +kernel
theorem meets_testBank : Met BootRow (bootAt 5 Boot.reset) (.stageDone { step0 with banks := [(63, 351)] }) := by
  refine ⟨_, _, .testBank _ 63 351 ?_ ?_ ?_⟩ <;> decide +kernel
theorem meets_mapApplied : Met BootRow (bootAt 0x35 { Boot.reset with map := some { DefectMap.empty with fenced := [4079] } }) (.stageDone step0) := by
  refine ⟨_, _, .mapApplied _ { DefectMap.empty with fenced := [4079] } ?_ ?_ ?_⟩ <;> decide +kernel
theorem meets_hbmClean : Met BootRow (bootAt 6 Boot.reset) (.stageDone step0) := by
  refine ⟨_, _, .hbmClean _ ?_ ?_ ?_⟩ <;> decide +kernel
theorem meets_hbmRepaired : Met BootRow (bootAt 6 Boot.reset) (.stageDone { step0 with rows := [(31, 9, [32767], true)] }) := by
  refine ⟨_, _, .hbmRepaired _ 31 9 [32767] ?_ ?_ ?_ ?_ ?_ ?_⟩ <;> decide +kernel
theorem meets_hbmOut : Met BootRow (bootAt 6 Boot.reset) (.stageDone { step0 with rows := [(31, 9, [], false)] }) := by
  refine ⟨_, _, .hbmOut _ 31 9 [] false ?_ ?_ ?_ ?_ ?_ ?_⟩ <;> decide +kernel
/-- Links 0 and 15 are enabled and OFF, with CFG_VALID. -/
def linksOff (stage : Nat) (b : Boot) : State := having (bootAt stage b) [(pgTopo, 0x00C, 1), (pgLnk 0, 0x008, 3), (pgLnk 15, 0x008, 3)]
theorem shows_broadcast : Shown BootRow (linksOff 7 Boot.reset) (.stageDone step0) := by
  refine ⟨_, _, .broadcast _ ?_ ?_ ?_, ?_, ?_, ?_⟩ <;> decide +kernel
theorem shows_broadcastRepaired : Shown BootRow (linksOff 7 { Boot.reset with repairBegun := true }) (.stageDone step0) := by
  refine ⟨_, _, .broadcastRepaired _ ?_ ?_ ?_, ?_, ?_, ?_⟩ <;> decide +kernel
theorem shows_linksTrained : Shown BootRow (having (linksOff 8 Boot.reset) [(pgLnk 0, 0x00C, 2), (pgLnk 15, 0x00C, 4)]) (.stageDone step0) := by
  refine ⟨_, _, .linksTrained _ ?_ ?_ ?_, ?_, ?_, ?_⟩ <;> decide +kernel
theorem shows_bootReady : Shown BootRow { having (bootAt 9 Boot.reset) [(pgTide, 0x00C, 2)] with tide := { Tide.reset with clock := 1999999 } }
    (.stageDone step0) := by
  refine ⟨_, _, .ready _ ?_ ?_, ?_, ?_, ?_⟩ <;> decide +kernel
theorem shows_verify : Shown BootRow (bootAt 0x22 { Boot.reset with map := some DefectMap.empty }) (.verify (pf 3)) := by
  refine ⟨_, _, .verify _ ?_ ?_ ?_, ?_, ?_, ?_⟩ <;> decide +kernel
theorem shows_verifyFull : Shown BootRow (bootAt 2 Boot.reset) (.verify (pf 3)) := by
  refine ⟨_, _, .verifyFull _ ?_ ?_ ?_ ?_, ?_, ?_, ?_⟩ <;> decide +kernel
theorem shows_verifyEarly : Shown BootRow (bootAt 12 Boot.reset) (.verify (pf 1)) := by
  refine ⟨_, _, .cmdRefused _ _ (.inl ⟨rfl, ?_⟩) ?_, ?_, ?_, ?_⟩ <;> decide +kernel
theorem shows_awaitRelayEarly : Shown BootRow (bootAt 10 Boot.reset) (.awaitRelay (pf 4)) := by
  refine ⟨_, _, .cmdRefused _ _ (.inr ⟨rfl, ?_⟩) ?_, ?_, ?_, ?_⟩ <;> decide +kernel

/-! An image of one chunk of zeros, whose digest and signature are zeros too: it verifies wherever the ciphers take them (log 21). -/

def imageHead : List Byte :=
  bytesLE 4 0x464D4B48 ++ [1, 0] ++ bytesLE 2 5 ++ bytesLE 4 1 ++ bytesLE 4 7 ++ List.replicate 48 0
    ++ bytesLE 2 1 ++ bytesLE 4 0 ++ bytesLE 4 1 ++ bytesLE 6 0 ++ bytesLE 2 2 ++ bytesLE 4 1 ++ bytesLE 10 0 ++ bytesLE 2 3 ++ bytesLE 4 1
    ++ bytesLE 10 0 ++ bytesLE 2 4 ++ bytesLE 4 1 ++ bytesLE 10 0 ++ bytesLE 2 5 ++ bytesLE 4 1 ++ bytesLE 10 0
def imaged (s : State) : State := having { s with image := cells 0 imageHead } [(pgBoot, 0x040, 8192)]
/-- The ciphers take the image of a state. -/
def Taken (s : State) : Prop :=
  Config.falconVerify Config.vendorKey (s.imageBytes 0 352) (s.imageBytes 352 1280) = true
    ∧ Config.shake256 (s.imageBytes 4096 4096) 32 = s.imageBytes 320 32
theorem verified_of (s : State) (n : Nat) (h : Taken s) (h1 : layoutGood s n = true) (h2 : imgChunks s = 1) : verifyFails s n = none := by
  have e1 : imgSigned s = 352 := by simp [imgSigned, h2]
  have e2 : imgPadded s = 4096 := by simp [imgPadded, imgManifest, e1, roundUp]
  have e3 : signatureGood s = true := by rw [signatureGood, e1]; exact h.1
  have e4 : badChunk s = none := by simp [badChunk, h2, e2, h.2]
  simp [verifyFails, h1, e3, e4]
theorem meets_verified (h : Taken (imaged (bootAt 3 Boot.reset))) : Met BootRow (imaged (bootAt 3 Boot.reset)) .verifyDone :=
  ⟨_, _, .verified (by decide +kernel) (verified_of _ _ h (by decide +kernel) (by decide +kernel)) (by decide +kernel)⟩
/-- RELAY_OUT names link 15, which leads to a cube neighbour. -/
def relaying : State := having (imaged (bootAt 3 Boot.reset)) [(pgBoot, 0x078, 0x8000), (pgLnk 15, 0x00C, 2), (pgTopo, 0x08C, 9 + 2 * 2 ^ 20)]
theorem meets_verifiedRelays (h : Taken relaying) : Met BootRow relaying .verifyDone := by
  refine ⟨_, _, .verifiedRelays 15 ?_ (verified_of _ _ h ?_ ?_) ?_ ?_ ?_ ?_ ?_ ?_ ?_ ?_ ?_⟩ <;> decide +kernel
theorem shows_verifyFailed : Shown BootRow (bootAt 3 Boot.reset) .verifyDone := by
  refine ⟨_, _, .verifyFailed 0xB001 0 ?_ ?_, ?_, ?_, ?_⟩ <;> decide +kernel
theorem shows_awaitRelay : Shown BootRow (linksOff 2 Boot.reset) (.awaitRelay (pf 6)) := by
  refine ⟨_, _, .awaitRelay _ ?_ ?_, ?_, ?_, ?_⟩ <;> decide +kernel
def awaiting : State := having (imaged (bootAt 12 Boot.reset)) [(pgLnk 15, 0x00C, 3)]
theorem meets_relayed (h : Taken awaiting) : Met BootRow awaiting (.relayImage 15 []) := by
  refine ⟨_, _, .relayed _ _ ?_ ?_ ?_ (verified_of _ _ h ?_ ?_) ?_⟩ <;> decide +kernel
theorem shows_relayFailed : Shown BootRow (having (bootAt 12 Boot.reset) [(pgLnk 15, 0x00C, 3)]) (.relayImage 15 [1]) := by
  refine ⟨_, _, .relayFailed _ _ ?_ ?_ (0xB001, 0) ?_ ?_, ?_, ?_, ?_⟩ <;> decide +kernel

/-! Broadcast. -/

def broadcasting (b : Boot) : State := having (bootAt 7 b) [(pgBoot, 0x008, 1), (pgBoot, 0x07C, 2)]
theorem shows_allHold : Shown BootRow (broadcasting Boot.reset) (.nackList [(4079, 0)]) := by
  refine ⟨_, _, .allHold _ ?_, ?_, ?_, ?_⟩ <;> decide +kernel
theorem shows_repair : Shown BootRow (broadcasting Boot.reset) (.nackList [(4079, 1)]) := by
  refine ⟨_, _, .repair _ [(4079, 1)] ?_ ?_ ?_ ?_, ?_, ?_, ?_⟩ <;> decide +kernel
theorem meets_lastReset : Met BootRow (broadcasting { Boot.reset with missing := [(4079, 1)], rounds := 2 }) (.nackList [(4079, 1)]) := by
  refine ⟨_, _, .lastReset _ 4079 1 ?_ ?_ ?_⟩ <;> decide +kernel
theorem shows_lastSpare : Shown BootRow (broadcasting { Boot.reset with missing := [(4079, 1)], rounds := 2, lastTry := 1, sparesLeft := [(63, 3)] })
    (.nackList [(4079, 1)]) := by
  refine ⟨_, _, .lastSpare _ 4079 1 3 ?_ ?_ ?_ ?_, ?_, ?_, ?_⟩ <;> decide +kernel
theorem shows_lastFenced : Shown BootRow (broadcasting { Boot.reset with missing := [(4079, 1)], rounds := 2, lastTry := 2, sparesLeft := [(63, 3)] })
    (.nackList [(4079, 1)]) := by
  refine ⟨_, _, .lastFenced _ 4079 1 ?_ ?_, ?_, ?_, ?_⟩ <;> decide +kernel
theorem shows_clearMap : Shown BootRow (bootAt 0x2A { Boot.reset with map := some DefectMap.empty }) (.clearMap (pf 16)) := by
  refine ⟨_, _, .clearMap _ ?_, ?_, ?_, ?_⟩ <;> decide +kernel

/-! Resets. -/

def resetsAt (l : List ResetUnit) : State := { having up [] with boot := { Boot.reset with resets := l } }
theorem meets_reset_begins : Met ResetRow (resetsAt [.core 4079]) (.clusterReset 63 (pf 2)) :=
  ⟨_, _, .begins _ (.cluster 63) (.inr (.inl ⟨63, pf 2, rfl, by decide +kernel, by decide +kernel, rfl⟩)) (by decide +kernel) (by decide +kernel)⟩
theorem meets_reset_core : Met ResetRow up (.coreReset 63 (pf 0x2F01)) :=
  ⟨_, _, .begins _ (.core 4079) (.inl ⟨63, pf 0x2F01, rfl, by decide +kernel, by decide +kernel, by decide +kernel, by decide +kernel,
    by decide +kernel⟩) (by decide +kernel) (by decide +kernel)⟩
theorem meets_reset_partition : Met ResetRow up (.preset 7 (pf 1)) :=
  ⟨_, _, .begins _ (.partition 7) (.inr (.inr ⟨7, pf 1, rfl, by decide +kernel, by decide +kernel, by decide +kernel, rfl⟩)) (by decide +kernel)
    (by decide +kernel)⟩
theorem meets_reset_covered : Met ResetRow (resetsAt [.partition 7]) (.clusterReset 63 (pf 2)) :=
  ⟨_, _, .covered _ (.cluster 63) (.partition 7) (.inr (.inl ⟨63, pf 2, rfl, by decide +kernel, by decide +kernel, rfl⟩)) (by decide +kernel)
    (by decide +kernel) (by decide +kernel)⟩
theorem shows_reset_ignored : Shown ResetRow (having up [(pgPower, 0x00C, 2 * 2 ^ 22)]) (.preset 7 (pf 1)) := by
  refine ⟨_, _, .ignored _ _ ?_ ?_ ?_, ?_, ?_, ?_⟩ <;> decide +kernel
theorem shows_reset_early : Shown ResetRow (bootAt 9 Boot.reset) (.clusterReset 63 (pf 2)) :=
  ⟨_, _, .early _ (.cluster 63) (.inr (.inl ⟨63, pf 2, rfl, by decide +kernel, by decide +kernel, rfl⟩)) (by decide +kernel), by decide +kernel,
    by decide +kernel, by decide +kernel⟩
theorem meets_reset_core_acts : Met ResetRow (resetsAt [.core 4079]) (.resetDone (.core 4079)) := by
  refine ⟨_, _, .core _ ?_ ?_⟩ <;> decide +kernel
theorem meets_reset_cluster_acts : Met ResetRow (resetsAt [.cluster 63]) (.resetDone (.cluster 63)) := ⟨_, _, .cluster _ (by decide +kernel)⟩
theorem meets_reset_partition_acts : Met ResetRow (resetsAt [.partition 7]) (.resetDone (.partition 7)) :=
  ⟨_, _, .partition _ (by decide +kernel)⟩
theorem meets_chipReset : Met ResetRow up (.chipReset (pf 8)) := ⟨_, _, .chip _ (by decide +kernel)⟩
theorem meets_linkReset : Met ResetRow up (.flr 0) := ⟨_, _, .link _ (.inr (.inr rfl)) (by decide +kernel)⟩
theorem meets_flr : Met ResetRow up (.flr 16) := ⟨_, _, .flr _ (by decide +kernel) (by decide +kernel)⟩

/-! Power and heat. PCMD: [3:0] OP, [6:4] PART, [9:8] TO, [27:16] MHZ, 28 FORCE, 29 AT. -/

theorem shows_pcmdReserved : Shown PowerRow up (.module (pf 0x301)) := by
  refine ⟨_, _, .refused _ _ (.inl rfl) ?_ ?_, ?_, ?_, ?_⟩ <;> decide +kernel
theorem shows_pcmdBusy : Shown PowerRow { up with transition := some 0x101 } (.ceiling (pf 0x04B00073)) := by
  refine ⟨_, _, .refused _ _ (.inr (.inr rfl)) ?_ ?_, ?_, ?_, ?_⟩ <;> decide +kernel
theorem shows_moduleInEffect : Shown PowerRow up (.module (pf 0x001)) := by
  refine ⟨_, _, .atOnce _ _ (.inl rfl) ?_ ?_ ?_ ?_, ?_, ?_, ?_⟩ <;> decide +kernel
theorem shows_partitionInM1 : Shown PowerRow (having up [(pgPower, 0x00C, 1)]) (.partition (pf 0x272)) := by
  refine ⟨_, _, .atOnce _ _ (.inr (.inl rfl)) ?_ ?_ ?_ ?_, ?_, ?_, ?_⟩ <;> decide +kernel
theorem shows_ceilingInM2 : Shown PowerRow (having up [(pgPower, 0x00C, 2)]) (.ceiling (pf 0x04B10073)) := by
  refine ⟨_, _, .atOnce _ _ (.inr (.inr rfl)) ?_ ?_ ?_ ?_, ?_, ?_, ?_⟩ <;> decide +kernel
theorem shows_module : Shown PowerRow up (.module (pf 0x101)) := by
  refine ⟨_, _, .transits _ _ (.inl rfl) ?_ ?_ ?_ ?_, ?_, ?_, ?_⟩ <;> decide +kernel
theorem meets_partition : Met PowerRow up (.partition (pf 0x272)) := by
  refine ⟨_, _, .transits _ _ (.inr (.inl rfl)) ?_ ?_ ?_ ?_⟩ <;> decide +kernel
theorem shows_ceiling : Shown PowerRow up (.ceiling (pf 0x0CE40073)) := by
  refine ⟨_, _, .atOnce _ _ (.inr (.inr rfl)) ?_ ?_ ?_ ?_, ?_, ?_, ?_⟩ <;> decide +kernel
theorem shows_ceilingLower : Shown PowerRow up (.ceiling (pf 0x00000073)) := by
  refine ⟨_, _, .transits _ _ (.inr (.inr rfl)) ?_ ?_ ?_ ?_, ?_, ?_, ?_⟩ <;> decide +kernel
theorem shows_pcmdNone : Shown PowerRow up (.module (pf 0)) := by
  refine ⟨_, _, .none _ _ (.inl rfl) ?_ ?_, ?_, ?_, ?_⟩ <;> decide +kernel

/-- A valid tide of 1000, READY. -/
def ticking : State := having { up with tide := { Tide.reset with now := 1000 } } [(pgTide, 0x008, 3), (pgTide, 0x00C, 0x0A)]
/-- Slots below n hold actions. -/
def slotsBelow (n : Nat) (s : State) : State :=
  { s with powerSlots := (List.range n).map (fun i => (i, some (0x101, BitVec.ofNat 64 (2000 + i)))) }
theorem shows_scheduled : Shown PowerRow (having (slotsBelow 15 ticking) [(pgPower, 0x044, 5000)]) (.partition (pf 0x20000272)) := by
  refine ⟨_, _, .scheduled _ _ 15 (.inr (.inl rfl)) ?_ ?_ ?_ ?_ ?_ ?_, ?_, ?_, ?_, ?_⟩ <;> decide +kernel
theorem shows_slotsFull : Shown PowerRow (slotsBelow 16 ticking) (.partition (pf 0x20000272)) := by
  refine ⟨_, _, .refused _ _ (.inr (.inl rfl)) ?_ ?_, ?_, ?_, ?_⟩ <;> decide +kernel
theorem shows_unscheduled : Shown PowerRow (having up [(pgPower, 0x044, 5000)]) (.module (pf 0x20000101)) := by
  refine ⟨_, _, .unscheduled _ _ (.inl rfl) ?_ ?_ ?_, ?_, ?_, ?_⟩ <;> decide +kernel
/-- Slot 15 holds a command for a tide. -/
def slot15 (v : W32) (t : W64) : State := { ticking with powerSlots := [(15, some (v, t))] }
theorem shows_acts : Shown PowerRow (slot15 0x101 1000) (.scheduledAction 15) := by
  refine ⟨_, _, .acts 15 0x101 1000 ?_ ?_ ?_ ?_ ?_ ?_, ?_, ?_, ?_⟩ <;> decide +kernel
theorem shows_actsLate : Shown PowerRow (slot15 0x101 999) (.scheduledAction 15) := by
  refine ⟨_, _, .acts 15 0x101 999 ?_ ?_ ?_ ?_ ?_ ?_, ?_, ?_, ?_⟩ <;> decide +kernel
theorem shows_actsAtOnce : Shown PowerRow (slot15 0x001 1000) (.scheduledAction 15) := by
  refine ⟨_, _, .actsAtOnce 15 0x001 ?_ ?_ ?_ ?_ ?_ ?_, ?_, ?_, ?_⟩ <;> decide +kernel
theorem shows_slotCancel : Shown PowerRow (slotsBelow 16 ticking) (.slotCancel (pf 0x8001)) := by
  refine ⟨_, _, .cancel _ ?_, ?_, ?_, ?_, ?_⟩ <;> decide +kernel
theorem meets_transitionDone : Met PowerRow { having up [(pgPower, 0x00C, 4)] with transition := some 0x272 } .transitionDone := by
  refine ⟨_, _, .completes 0x272 ?_ ?_⟩ <;> decide +kernel
theorem shows_inputRange : Shown PowerRow up (.inputRange 39999) := by
  refine ⟨_, _, .input _ ?_, ?_, ?_, ?_⟩ <;> decide +kernel
theorem shows_inputInRange : Shown PowerRow up (.inputRange 60000) := by
  refine ⟨_, _, .input _ ?_, ?_, ?_, ?_⟩ <;> decide +kernel
theorem shows_powerReading : Shown PowerRow up (.powerReading 60001 65535 7) := by
  refine ⟨_, _, .reading _ _ _ ?_, ?_, ?_, ?_⟩ <;> decide +kernel
theorem shows_stackHot : Shown PowerRow up (.tempReading (.stack 31) 85) := by
  refine ⟨_, _, .stack _ _ ?_, ?_, ?_, ?_⟩ <;> decide +kernel
theorem shows_stackCritical : Shown PowerRow up (.tempReading (.stack 31) 95) := by
  refine ⟨_, _, .stack _ _ ?_, ?_, ?_, ?_⟩ <;> decide +kernel
theorem shows_stackResumes :
    Shown PowerRow (having up [(pgTherm, 0x050, 2), (pgTherm, 0x054, 2), (pgTherm, 0x058, 2), (pgHs 1, 0x054, 7)]) (.tempReading (.stack 1) 90) := by
  refine ⟨_, _, .stack _ _ ?_, ?_, ?_, ?_⟩ <;> decide +kernel
theorem shows_stackCold : Shown PowerRow (having up [(pgTherm, 0x050, 1)]) (.tempReading (.stack 0) 0xF6) := by
  refine ⟨_, _, .stack _ _ ?_, ?_, ?_, ?_⟩ <;> decide +kernel
theorem shows_junction : Shown PowerRow up (.tempReading (.die 7) 104) := by
  refine ⟨_, _, .junction _ 0x078 _ ?_ ?_ ?_, ?_, ?_, ?_⟩ <;> decide +kernel
theorem shows_junctionTrips : Shown PowerRow (having up [(pgLnk 15, 0x008, 3)]) (.tempReading .isroth 105) := by
  refine ⟨_, _, .trips _ 0x07C _ ?_ ?_ ?_, ?_, ?_, ?_⟩ <;> decide +kernel
theorem shows_thermtrip : Shown PowerRow (having up [(pgLnk 0, 0x008, 3)]) (.thermtrip (.die 0) 127) := by
  refine ⟨_, _, .thermtrip _ _ ?_ ?_ ?_ ?_, ?_, ?_, ?_⟩ <;> decide +kernel
theorem shows_stackStop : Shown PowerRow { up with critAt := [(31, some 5)] } (.stackStop 31) := by
  refine ⟨_, _, .stops _ ?_, ?_, ?_, ?_⟩ <;> decide +kernel

/-! Host accesses. -/

/-- The general write and read of a BAR0 word. -/
noncomputable def regWr (page off : Nat) (a : Access) : Instr := .registerWrite .bar0 (BitVec.ofNat 26 (page * 4096 + off)) a
noncomputable def regRd (page off : Nat) (f : Fin 17) : Instr := .registerRead .bar0 (BitVec.ofNat 26 (page * 4096 + off)) f
theorem bar0_split (page off : Nat) (h1 : page < 16384) (h2 : off < 4096) :
    (BitVec.ofNat 26 (page * 4096 + off)).toNat / 4096 = page ∧ (BitVec.ofNat 26 (page * 4096 + off)).toNat % 4096 = off := by
  rw [BitVec.toNat_ofNat, Nat.mod_eq_of_lt (by omega)]; omega
theorem wr_of (page off : Nat) (a : Access) (h : page < 16384 ∧ off < 4096) : HostWriteOf (regWr page off a) page off a := by
  have := HostWriteOf.register (BitVec.ofNat 26 (page * 4096 + off)) a
  rwa [(bar0_split page off h.1 h.2).1, (bar0_split page off h.1 h.2).2] at this
theorem rd_of (page off : Nat) (f : Fin 17) (h : page < 16384 ∧ off < 4096) : HostReadOf (regRd page off f) f.val page off := by
  have := HostReadOf.register (BitVec.ofNat 26 (page * 4096 + off)) f
  rwa [(bar0_split page off h.1 h.2).1, (bar0_split page off h.1 h.2).2] at this
theorem general_of (page off : Nat) (a : Access) : General (regWr page off a) := .inl ⟨_, _, rfl⟩
/-- The row of a register: its row, its place in it, whether it is the upper half of a pair. -/
def rowThere (page off : Nat) : RegRow × Nat × Bool := (rowAt page off).getD (rowRo 0, 0, false)
theorem row_there (page off : Nat) (h : (rowAt page off).isSome = true) : ∃ j hi, rowAt page off = some ((rowThere page off).1, j, hi) := by
  unfold rowThere; cases h1 : rowAt page off with
  | none => simp [h1] at h
  | some x => exact ⟨_, _, rfl⟩
theorem row_word (page off : Nat) (hi : Bool) (h : (rowAt page off).isSome = true ∧ (rowThere page off).2.2 = hi) :
    ∃ j, rowAt page off = some ((rowThere page off).1, j, hi) := by
  obtain ⟨h, rfl⟩ := h
  unfold rowThere; cases h1 : rowAt page off with
  | none => simp [h1] at h
  | some x => exact ⟨_, rfl⟩
def vf16 (v : W32) : Access := ⟨16, false, 15, v⟩
/-- Berth 15, with VF 16, and cluster 63. -/
def berthed : State := berthAt 2 cl63 BerthRun.reset
/-- The page 63 of the clusters is locked. -/
def lockedPage : State := having berthed [(pgCl 63, 0x028, 1)]
def closing : State := berthAt 4 cl63 { BerthRun.reset with closed := true }

theorem shows_gate_unseen : Shown GateRow State.reset (regWr pgTide 0x008 (pf 1)) := by
  refine ⟨_, _, .unseen _ _ _ _ (wr_of _ _ _ ?_) (.inl ?_), ?_, ?_, ?_⟩ <;> decide +kernel
theorem shows_gate_closed : Shown GateRow closing (regWr (pgCl 63) 0x014 (vf16 1)) := by
  refine ⟨_, _, .unseen _ _ _ _ (wr_of _ _ _ ?_) (.inr ?_), ?_, ?_, ?_⟩ <;> decide +kernel
theorem shows_gate_part : Shown GateRow up (.run ⟨0, false, 7, 1⟩) := by
  refine ⟨_, _, .part _ _ _ _ (.tide _ _ (.inl rfl)) ?_ ?_ ?_, ?_, ?_, ?_⟩ <;> decide +kernel
theorem shows_gate_unlisted : Shown GateRow up (regWr 0x3FFF 0x000 (pf 1)) := by
  refine ⟨_, _, .unlisted _ _ _ _ (wr_of _ _ _ ?_) ?_ ?_ ?_, ?_, ?_, ?_⟩ <;> decide +kernel
theorem shows_gate_foreign : Shown GateRow berthed (regWr (pgCl 62) 0x014 (vf16 1)) := by
  refine ⟨_, _, .foreign _ _ _ _ .cl 62 (wr_of _ _ _ ?_) ?_ ?_ ?_ ?_ ?_ ?_, ?_, ?_, ?_⟩ <;> decide +kernel
theorem shows_gate_noPower : Shown GateRow (having up [(pgPower, 0x00C, 0x800000)]) (regWr (pgCore 0xFEF) 0x014 (pf 1)) := by
  refine ⟨_, _, .noPower _ _ _ _ .core 0xFEF (rowThere (pgCore 0xFEF) 0x014).1 (wr_of _ _ _ ?_) ?_ ?_
    ⟨?_, row_there _ _ ?_, ?_⟩ ?_, ?_, ?_, ?_⟩ <;> decide +kernel
theorem shows_gate_locked : Shown GateRow lockedPage (regWr (pgCl 63) 0xA08 (vf16 1)) := by
  refine ⟨_, _, .locked _ _ _ _ .cl 63 (rowThere (pgCl 63) 0xA08).1 (wr_of _ _ _ ?_) ?_ ?_
    ⟨?_, row_there _ _ ?_, ?_⟩ ?_ ?_ ?_, ?_, ?_, ?_⟩ <;> decide +kernel
theorem shows_gate_readOnly : Shown GateRow up (regWr pgTide 0x00C (pf 1)) := by
  refine ⟨_, _, .readOnly _ _ _ _ .tide 0 (rowThere pgTide 0x00C).1 (wr_of _ _ _ ?_) ?_ ?_ ?_
    ⟨?_, row_there _ _ ?_, ?_⟩ ?_ ?_ ?_, ?_, ?_, ?_⟩ <;> decide +kernel

theorem writes_of {s : State} {page off : Nat} {v : W32} {k : PageKind} {n : Nat} {hi : Bool} (h : page < 16384 ∧ off < 4096)
    (h1 : HostTakes s page off (pf v)) (h2 : pageAt page = some (k, n))
    (h3 : (rowAt page off).isSome = true ∧ (rowThere page off).2.2 = hi) (h4 : 0x040 ≤ off) :
    Writes s (regWr page off (pf v)) page off (pf v) k n (rowThere page off).1 hi :=
  ⟨wr_of _ _ _ h, h1, h2, row_word _ _ _ h3, h4⟩
theorem reads_of {s : State} {page off : Nat} {f : Fin 17} {k : PageKind} {n : Nat} {hi : Bool} (h : page < 16384 ∧ off < 4096)
    (h1 : hostUp s = true ∧ vfClosed s f.val = false) (h2 : pageAt page = some (k, n) ∧ mayRead s f.val page k = true)
    (h3 : (rowAt page off).isSome = true ∧ (rowThere page off).2.2 = hi) : Reads s (regRd page off f) f.val page off (rowThere page off).1 hi :=
  ⟨rd_of _ _ _ h, h1.1, h1.2, ⟨k, n, h2.1, h2.2⟩, row_word _ _ _ h3⟩

theorem shows_wr_plain : Shown WriteRow up (regWr pgTide 0x058 (pf 0xFFFFFFFF)) := by
  refine ⟨_, _, .plain _ _ _ _ .tide 0 _ _ (general_of _ _ _) (writes_of (hi := false) ?_ ?_ ?_ ?_ ?_) ?_ ?_ ?_ ?_, ?_, ?_, ?_⟩ <;> decide +kernel
theorem shows_wr_plainBerth : Shown WriteRow up (regWr (pgBerth 15) 0x648 (pf 0xFFFFFFFF)) := by
  refine ⟨_, _, .plain _ _ _ _ .berth 15 _ _ (general_of _ _ _) (writes_of (hi := false) ?_ ?_ ?_ ?_ ?_) ?_ ?_ ?_ ?_, ?_, ?_, ?_⟩ <;> decide +kernel
theorem shows_wr_plainSlip : Shown WriteRow up (regWr 0x4FF 0xFE4 (pf 0xFFFFFFFF)) := by
  refine ⟨_, _, .plain _ _ _ _ .slip 255 _ _ (general_of _ _ _) (writes_of (hi := false) ?_ ?_ ?_ ?_ ?_) ?_ ?_ ?_ ?_, ?_, ?_, ?_⟩ <;> decide +kernel
theorem shows_wr_clamped : Shown WriteRow up (regWr pgTherm 0x044 (pf 127)) := by
  refine ⟨_, _, .clamped _ _ _ 100 _ .therm 0 _ _ (general_of _ _ _) (writes_of (hi := false) ?_ ?_ ?_ ?_ ?_) (.pace 127) ?_, ?_, ?_, ?_⟩ <;> decide +kernel
theorem shows_wr_clampedUp : Shown WriteRow up (regWr (pgCq 63) 0x048 (pf 0)) := by
  refine ⟨_, _, .clamped _ _ _ 4 _ .cq 63 _ _ (general_of _ _ _) (writes_of (hi := false) ?_ ?_ ?_ ?_ ?_) (.cqSize 63 0 ?_) ?_, ?_, ?_, ?_⟩ <;> decide +kernel
theorem shows_wr_jwarn : Shown WriteRow up (regWr pgTherm 0x04C (pf 0)) := by
  refine ⟨_, _, .clamped _ _ _ 85 _ .therm 0 _ _ (general_of _ _ _) (writes_of (hi := false) ?_ ?_ ?_ ?_ ?_) (.jwarn 0) ?_, ?_, ?_, ?_⟩ <;> decide +kernel
theorem shows_wr_tierSize : Shown WriteRow up (regWr pgTier 0x054 (pf 31)) := by
  refine ⟨_, _, .clamped _ _ _ 12 _ .tier 0 _ _ (general_of _ _ _) (writes_of (hi := false) ?_ ?_ ?_ ?_ ?_) (.tierSize 31) ?_, ?_, ?_, ?_⟩ <;> decide +kernel
theorem shows_wr_berthSize : Shown WriteRow up (regWr (pgBerth 15) 0x660 (pf 0)) := by
  refine ⟨_, _, .clamped _ _ _ 4 _ .berth 15 _ _ (general_of _ _ _) (writes_of (hi := false) ?_ ?_ ?_ ?_ ?_) (.berthSize 15 0 ?_) ?_, ?_, ?_, ?_⟩ <;> decide +kernel
theorem shows_wr_group : Shown WriteRow up (regWr (pgGtab 63) 0x230 (pf 0x1FF)) := by
  refine ⟨_, _, .group _ _ _ _ 7 _ _ (general_of _ _ _) (writes_of (hi := false) ?_ ?_ ?_ ?_ ?_) ?_ ?_ ?_ ?_, ?_, ?_, ?_⟩ <;> decide +kernel
theorem shows_wr_flashLayer : Shown WriteRow up (regWr pgFtl 0x048 (pf 255)) := by
  refine ⟨_, _, .flashLayer _ _ _ 0 _ _ (general_of _ _ _) (writes_of (hi := false) ?_ ?_ ?_ ?_ ?_) ?_ ?_, ?_, ?_, ?_⟩ <;> decide +kernel
/-- LO words held for HI, by the PF. -/
def heldFor (s : State) (page lo : Nat) (v : W32) : State := { s with pairWrite := [(pairKey 0 page lo, some v)] }
theorem shows_wr_regionBase : Shown WriteRow (heldFor up (pgBerth 15) 0x1F0 0xFFFFFFFF) (regWr (pgBerth 15) 0x1F4 (pf 0x3010F)) := by
  refine ⟨_, _, .regionBase _ 15 15 _ _ (general_of _ _ _) ?_ ?_ (writes_of ?_ ?_ ?_ ?_ ?_) ?_ ?_ _ rfl, ?_, ?_, ?_⟩ <;> decide +kernel
/-- Core 0xFEF is stopped. -/
def stoppedCore : State := { up with cores := [(0xFEF, { Core.reset with state := .stopped })] }
theorem shows_wr_pc : Shown WriteRow (heldFor stoppedCore (pgCore 0xFEF) 0x050 0xFFFFFFFF) (regWr (pgCore 0xFEF) 0x054 (pf 0x00010000)) := by
  refine ⟨_, _, .coreOwnPair _ _ 0x050 _ 0xFEF _ (general_of _ _ _) (writes_of ?_ ?_ ?_ ?_ ?_) ?_ ?_ ?_ ?_ _ rfl, ?_, ?_, ?_⟩ <;> decide +kernel
theorem shows_wr_s31 : Shown WriteRow stoppedCore (regWr (pgCore 0xFEF) 0x1FC (pf 7)) := by
  refine ⟨_, _, .coreOwnPair _ _ 0x1F8 _ 0xFEF _ (general_of _ _ _) (writes_of ?_ ?_ ?_ ?_ ?_) ?_ ?_ ?_ ?_ _ rfl, ?_, ?_, ?_⟩ <;> decide +kernel
theorem shows_wr_aflags : Shown WriteRow stoppedCore (regWr (pgCore 0xFEF) 0x06C (pf 0xFFF)) := by
  refine ⟨_, _, .aflags _ _ _ 0xFEF _ (general_of _ _ _) (writes_of ?_ ?_ ?_ ?_ ?_) ?_ ?_, ?_, ?_, ?_⟩ <;> decide +kernel
theorem shows_wr_wrongState : Shown WriteRow (having up [(pgTier, 0x008, 1)]) (regWr pgTier 0x048 (pf 1)) := by
  refine ⟨_, _, .wrongState _ _ _ _ .tier 0 _ _ (general_of _ _ _) (writes_of (hi := false) ?_ ?_ ?_ ?_ ?_) ?_, ?_, ?_, ?_⟩ <;> decide +kernel
theorem shows_wr_pairLo : Shown WriteRow up (regWr pgTide 0x048 (pf 0xFFFFFFFF)) := by
  refine ⟨_, _, .pairLo _ _ _ _ .tide 0 _ (general_of _ _ _) (writes_of ?_ ?_ ?_ ?_ ?_) ?_ ?_, ?_, ?_, ?_⟩ <;> decide +kernel
theorem shows_wr_pairHi : Shown WriteRow (heldFor up pgTide 0x048 0xFFFFFFFF) (regWr pgTide 0x04C (pf 0xFFFFFFFF)) := by
  refine ⟨_, _, .pairHi _ _ 0x048 _ .tide 0 _ (general_of _ _ _) (writes_of ?_ ?_ ?_ ?_ ?_) ?_ ?_ ?_, ?_, ?_, ?_⟩ <;> decide +kernel
theorem shows_wr_clears : Shown WriteRow (having up [(pgTide, 0x010, 3), (pgTide, 0x01C, 0x14006), (pgTide, 0x020, 9)])
    (regWr pgTide 0x010 (pf 2)) := by
  refine ⟨_, _, .clears _ _ _ (wr_of _ _ _ ?_) ?_, ?_, ?_, ?_⟩ <;> decide +kernel
theorem shows_wr_clearsAll : Shown WriteRow (having up [(pgTide, 0x010, 3), (pgTide, 0x01C, 0x14006), (pgTide, 0x020, 9)])
    (.evtClear 4 (pf 3)) := by
  refine ⟨_, _, .clears _ _ _ (.evtClear _ _) ?_, ?_, ?_, ?_⟩ <;> decide +kernel
theorem shows_wr_enables : Shown WriteRow up (regWr pgTide 0x014 (pf 0xFFFFFFFF)) := by
  refine ⟨_, _, .enables _ _ _ .tide 0 _ _ (wr_of _ _ _ ?_) ?_ ?_ (row_word _ _ false ?_), ?_, ?_, ?_⟩ <;> decide +kernel
theorem shows_wr_forces : Shown WriteRow (having up [(pgDebug, 0x00C, 2)]) (.evtSet 4 (pf 0xFFFFFFFF)) := by
  refine ⟨_, _, .forces _ _ _ .tide 0 (.evtSet _ _) ?_ ?_ ?_ ?_, ?_, ?_, ?_⟩ <;> decide +kernel
theorem shows_wr_forceRefused : Shown WriteRow (having up [(pgDebug, 0x00C, 1)]) (.evtSet 4 (pf 1)) := by
  refine ⟨_, _, .forceRefused _ _ _ .tide 0 (.evtSet _ _) ?_ ?_ ?_, ?_, ?_, ?_⟩ <;> decide +kernel

theorem shows_rd_word : Shown ReadRow berthed (regRd (pgCl 63) 0x000 16) := by
  refine ⟨_, _, .word _ _ _ _ _ _ (reads_of (k := .cl) (n := 63) (hi := false) ?_ ?_ ?_ ?_) ?_ ?_ ?_, ?_, ?_, ?_⟩ <;> decide +kernel
theorem shows_rd_writeOnly : Shown ReadRow up (regRd pgTide 0x05C 0) := by
  refine ⟨_, _, .writeOnly _ _ _ _ _ _ (reads_of (k := .tide) (n := 0) (hi := false) ?_ ?_ ?_ ?_) ?_, ?_, ?_, ?_⟩ <;> decide +kernel
theorem shows_rd_pairLo : Shown ReadRow (having up [(pgTide, 0x048, 5), (pgTide, 0x04C, 6)]) (regRd pgTide 0x048 0) := by
  refine ⟨_, _, .pairLo _ _ _ _ _ (reads_of (k := .tide) (n := 0) ?_ ?_ ?_ ?_) ?_ ?_, ?_, ?_, ?_⟩ <;> decide +kernel
theorem shows_rd_pairHi : Shown ReadRow { up with pairRead := [(pairKey 0 pgTide 0x048, some 77)] } (regRd pgTide 0x04C 0) := by
  refine ⟨_, _, .pairHi _ _ _ 0x048 77 _ (reads_of (k := .tide) (n := 0) ?_ ?_ ?_ ?_) ?_ ?_ ?_, ?_, ?_, ?_⟩ <;> decide +kernel
theorem shows_rd_pairHiFree : Shown ReadRow (having up [(pgTide, 0x04C, 6)]) (regRd pgTide 0x04C 0) := by
  refine ⟨_, _, .pairHiFree _ _ _ 0x048 _ (reads_of (k := .tide) (n := 0) ?_ ?_ ?_ ?_) ?_ ?_ ?_, ?_, ?_, ?_⟩ <;> decide +kernel
theorem shows_rd_entry : Shown ReadRow up (.rdWord 0) := by
  refine ⟨_, _, .entry _ _ (rowThere pgLog 0x070).1 false ⟨.rdWord 0, ?_, ?_, ⟨.log, 0, ?_, ?_⟩, row_word _ _ _ ?_⟩ ?_ ?_, ?_, ?_, ?_⟩ <;> decide +kernel
theorem shows_rd_refused : Shown ReadRow berthed (regRd (pgCl 62) 0x000 16) := by
  refine ⟨_, _, .refused _ _ _ _ (rd_of _ _ _ ?_) ?_ ?_ (.inr ⟨.cl, 62, ?_, ?_⟩), ?_, ?_, ?_⟩ <;> decide +kernel

theorem shows_b4_read : Shown Bar4Row berthed (.registerRead .bar4 0x10FFC 16) := by
  refine ⟨_, _, .read _ _ _ ?_ rfl ?_ ?_, ?_, ?_, ?_⟩ <;> decide +kernel
theorem shows_b4_readRefused : Shown Bar4Row up (.registerRead .bar4 0x20000 0) := by
  refine ⟨_, _, .readRefused _ _ ?_ ?_ (.inl ?_), ?_, ?_, ?_⟩ <;> decide +kernel
theorem shows_b4_noBerth : Shown Bar4Row up (.registerRead .bar4 0x100 16) := by
  refine ⟨_, _, .readRefused _ _ ?_ ?_ (.inr ?_), ?_, ?_, ?_⟩ <;> decide +kernel
theorem shows_b4_route : Shown Bar4Row berthed (.registerWrite .bar4 0x1FC (vf16 0x01020304)) := by
  refine ⟨_, _, .route _ _ ?_ ?_ ?_ ?_ ?_, ?_, ?_, ?_⟩ <;> decide +kernel
theorem shows_b4_winBase : Shown Bar4Row { berthed with pairWrite := [(pairKey 48 0 0, some 0xFFFFFFFF)] }
    (.registerWrite .bar4 4 (vf16 0xFFFF0100)) := by
  refine ⟨_, _, .winBase _ _ 0xFFFFFFFF ?_ ?_ ?_ ?_, ?_, ?_, ?_⟩ <;> decide +kernel
theorem shows_b4_winBaseLo : Shown Bar4Row up (.registerWrite .bar4 0 (pf 0x200000)) := by
  refine ⟨_, _, .winBaseLo _ _ ?_ ?_ ?_, ?_, ?_, ?_⟩ <;> decide +kernel
theorem shows_rearm : Shown SignalRow { berthed with pend := [16 * 256 + 255] } (.rearm 7 (vf16 0x80000001)) := by
  refine ⟨_, _, .rearm _ _ ?_ ?_, ?_, ?_, ?_⟩ <;> decide +kernel
theorem shows_rearmIdle : Shown SignalRow up (.rearm 0 (pf 0xFFFFFFFF)) := by
  refine ⟨_, _, .rearm _ _ ?_ ?_, ?_, ?_, ?_⟩ <;> decide +kernel
theorem shows_unmask : Shown SignalRow { up with pba := [(16, 255)] } (.msixUnmask 16 (some 255)) := by
  refine ⟨_, _, .unmask _ _ ?_, ?_, ?_, ?_⟩ <;> decide +kernel
theorem meets_unmaskAll : Met SignalRow { up with pba := [(16, 255)] } (.msixUnmask 16 none) := ⟨_, _, .unmaskAll _ (by decide +kernel)⟩

/-! The window. Berth 15 has the last 2 MiB of stack 0 and cluster 63. -/

def windowed (s : State) (f base : Nat) : State := { s with bar4 := [(bar4Key f 0, BitVec.ofNat 32 (base % 2 ^ 32)), (bar4Key f 4, BitVec.ofNat 32 (base / 2 ^ 32))] }
def bound15 : State := having berthed [(pgBerth 15, 0x1FC, 3)]
/-- The base of region 15, and of cluster 63. -/
def r15 : Nat := 0x010FFFE00000
def c63 : Nat := 0x3F00000000
theorem shows_win_plain : Shown WindowRow (windowed (having bound15 [(pgBerth 15, 0x050, 0x22)]) 16 r15) (.windowAccess 16 true 0x1FFFFF (.read 1)) := by
  refine ⟨_, _, .plain _ _ _ _ _ ⟨?_, ?_, rfl, ?_⟩ ?_ ?_ ?_, ?_, ?_, ⟨[0], ⟨?_, ?_⟩, ?_⟩, ?_⟩ <;> decide +kernel
theorem meets_win_cipher : Met WindowRow (windowed bound15 16 r15) (.windowAccess 16 false 0x1FFFC0 (.read 64)) := by
  refine ⟨_, _, .cipher _ _ _ _ _ 15 ⟨?_, ?_, rfl, ?_⟩ ?_ ?_ ?_ ?_⟩ <;> decide +kernel
theorem meets_win_hidden : Met WindowRow (windowed berthed 0 c63) (.windowAccess 0 true 0xAFFFFFF (.read 1)) := by
  refine ⟨_, _, .hidden _ _ _ _ _ ⟨?_, ?_, rfl, ?_⟩ ?_⟩ <;> decide +kernel
theorem meets_win_stopped : Met WindowRow (windowed (having up [(pgTherm, 0x058, 1)]) 0 hbmBase) (.windowAccess 0 false 0 (.read 4)) := by
  refine ⟨_, _, .stopped _ _ _ _ _ ⟨?_, ?_, rfl, ?_⟩ ?_ ?_⟩ <;> decide +kernel
theorem shows_win_resetting : Shown WindowRow (windowed { up with boot := { Boot.reset with resets := [.partition 7] } } 0 c63)
    (.windowAccess 0 false 0 (.read 4)) := by
  refine ⟨_, _, .resetting _ _ _ _ _ ⟨?_, ?_, rfl, ?_⟩ ?_ ?_ ?_, ?_, ?_, ?_⟩ <;> decide +kernel
theorem shows_win_writes : Shown WindowRow (windowed up 0 c63) (.windowAccess 0 false 0xAFFFFFC (.write [1, 0, 3, 4])) := by
  refine ⟨_, _, .writes _ _ _ _ _ ⟨?_, ?_, rfl, ?_⟩ ?_ ?_ ?_ ?_ ?_ ?_, ?_, ?_, ?_⟩ <;> decide +kernel
theorem shows_win_writeRefused : Shown WindowRow (windowed berthed 16 c63) (.windowAccess 16 false 0 (.write [1])) := by
  refine ⟨_, _, .writeRefused _ _ _ _ _ ⟨?_, ?_, rfl, ?_⟩ (.inl ?_), ?_, ?_, ?_⟩ <;> decide +kernel
def awaits : State := having State.reset [(pgBoot, 0x00C, 2)]
theorem shows_win_imageRead : Shown WindowRow awaits (.windowAccess 0 false 0x81FFFFE (.read 2)) := by
  refine ⟨_, _, .imageRead _ _ _ _ ?_ ?_ ?_, ?_, ?_, ?_⟩ <;> decide +kernel
theorem shows_win_imageWrite : Shown WindowRow awaits (.windowAccess 0 false 0x81FFFFE (.write [1, 2])) := by
  refine ⟨_, _, .imageWrite _ _ _ _ ?_ ?_ ?_, ?_, ?_, ?_⟩ <;> decide +kernel
theorem shows_win_early : Shown WindowRow awaits (.windowAccess 0 false 0x8200000 (.read 1)) := by
  refine ⟨_, _, .early _ _ _ _ ?_ ?_ (.inr ?_), ?_, ?_, ?_⟩ <;> decide +kernel

/-- A general write of CTRL and the command that names it. -/
theorem meets_register_is_command : HostWriteOf (.run (pf 1)) pgTide 0x008 (pf 1) ∧ (0x4008 : BitVec 26).toNat = pgTide * 4096 + 0x008 :=
  ⟨.tide _ _ (.inl rfl), by decide⟩

/-! The logbook, field access and the pins. -/

def entry1 : LogEntry :=
  { code := 0x4001, source := 4, kind := 0, bit := 0, forced := false, stand := false, ends := false, tide := 5, d0 := 1, d1 := 2, d2 := 3, d3 := 4 }
/-- A waiting entry; sequence numbers `o` to before `n` are retained. -/
def logged (o n : W32) (l : List (Nat × (Nat × W64))) : State :=
  { up with log := { up.log with queue := [entry1], oldest := o, next := n, lost := l } }
theorem meets_log_stores : Met LogRow (logged 0xFFFFFFFF 0 []) .logStore := by
  refine ⟨_, _, .stores entry1 ⟨?_, ?_, ?_⟩ ?_⟩ <;> decide +kernel
theorem shows_log_gap : Shown LogRow (logged 0 32767 [(4, (3, 9))]) .logStore := by
  refine ⟨_, _, .gap entry1 3 9 ?_ ?_ ?_ ?_ ?_, ?_, ?_, ?_⟩ <;> decide +kernel
theorem shows_log_wraps : Shown LogRow (logged 0 32768 []) .logStore := by
  refine ⟨_, _, .wraps entry1 ⟨?_, ?_, ?_⟩ ?_ ?_, ?_, ?_, ?_⟩ <;> decide +kernel
theorem shows_log_discards : Shown LogRow (having (logged 0 32768 []) [(pgLog, 0x008, 1)]) .logStore := by
  refine ⟨_, _, .discards entry1 ⟨?_, ?_, ?_⟩ ?_ ?_, ?_, ?_, ?_⟩ <;> decide +kernel
theorem shows_log_release : Shown LogRow (logged 0 7 []) (.release (pf 7)) := by
  refine ⟨_, _, .release _ ?_ ?_, ?_, ?_, ?_⟩ <;> decide +kernel
theorem shows_log_releaseRefused : Shown LogRow (logged 0 7 []) (.release (pf 8)) := by
  refine ⟨_, _, .releaseRefused _ ?_ ?_, ?_, ?_, ?_⟩ <;> decide +kernel
theorem shows_log_thresh : Shown LogRow (logged 0 7 []) (.thresh (pf 7)) := by
  refine ⟨_, _, .thresh _ ?_, ?_, ?_, ?_⟩ <;> decide +kernel
theorem shows_log_dmaStart : Shown LogRow (having (logged 0 7 []) [(pgLog, 0x07C, 32768)]) (.dmaStart (pf 3)) := by
  refine ⟨_, _, .dmaStart _ ?_ ?_ ?_ ?_ ?_ ?_, ?_, ?_, ?_⟩ <;> decide +kernel
theorem shows_log_dmaRefused : Shown LogRow (logged 0 7 []) (.dmaStart (pf 1)) := by
  refine ⟨_, _, .dmaRefused _ ?_ ?_ (.inr (.inr (.inl ?_))), ?_, ?_, ?_⟩ <;> decide +kernel
theorem shows_log_dmaDone : Shown LogRow { up with log := { up.log with next := 2, dma := some (0, 2, true) } } .dmaDone := by
  refine ⟨_, _, .dmaDone 0 2 true ?_ ?_ ?_, ?_, ?_, ?_⟩ <;> decide +kernel

/-! DEBUG.STATUS: [1:0] LEVEL, 3 BUSY, 4 CHAL_VALID; the challenge's LEVEL is byte 4 of its block, its EXPIRY bytes 88 to 95. -/

theorem meets_dbg_challenge : Met DebugRow (having up [(pgDebug, 0x040, 3)]) (.challenge (pf 1)) := by
  refine ⟨_, _, .challenge _ _ ⟨.inl rfl, ?_, ?_⟩ ?_⟩ <;> decide +kernel
theorem shows_dbg_challengeRefused : Shown DebugRow (having up [(pgDebug, 0x040, 2)]) (.challenge (pf 1)) := by
  refine ⟨_, _, .challengeRefused _ _ ⟨.inl rfl, ?_, ?_⟩ ?_, ?_, ?_, ?_⟩ <;> decide +kernel
def challenged : State := having up [(pgDebug, 0x054, 3), (pgDebug, 0x0A8, 0xFFFFFFFF), (pgDebug, 0x0AC, 0xFFFFFFFF)]
def responding (s : State) : State := { (s.put fDebugBusy 1).put fChalValid 1 with responding := true }
theorem shows_dbg_respond : Shown DebugRow (challenged.put fChalValid 1) (.respond (pf 2)) := by
  refine ⟨_, _, .respond _ _ ⟨.inr (.inl rfl), ?_, ?_⟩ ?_ ?_, ?_, ?_, ?_⟩ <;> decide +kernel
theorem shows_dbg_respondRefused : Shown DebugRow up (.respond (pf 2)) := by
  refine ⟨_, _, .respondRefused _ _ ⟨.inr (.inl rfl), ?_, ?_⟩ ?_ ?_, ?_, ?_, ?_⟩ <;> decide +kernel
/-- Access opens wherever the response verifies (log 21). -/
theorem meets_dbg_opened
    (h : Config.falconVerify Config.vendorKey (chalBlock (responding challenged)) (pageBytes (responding challenged) pgDebug 0x800 320) = true) :
    Met DebugRow (responding challenged) .opened := by
  refine ⟨_, _, .opened (by decide +kernel) (by decide +kernel) ?_⟩
  have h1 : chalLevel (responding challenged) = 3 := by decide +kernel
  have h2 : berthMap (responding challenged) = 0 := by decide +kernel
  have h3 : (responding challenged).tideValid = false := by decide +kernel
  have h4 : (tideState (responding challenged) == 4) = false := by decide +kernel
  simp [respondCause, firstCause, h1, h2, h3, h4, h]
theorem shows_dbg_openRefused : Shown DebugRow (having (responding challenged) [(pgTide, 0x00C, 0x0A)]) .opened := by
  refine ⟨_, _, .openRefused ?_ ?_ ?_, ?_, ?_, ?_⟩ <;> decide +kernel
def opened3 : State := having up [(pgDebug, 0x00C, 3)]
theorem shows_dbg_closes : Shown DebugRow opened3 (.close (pf 4)) := by
  refine ⟨_, _, .closes _ (.inl ⟨_, .inr (.inr rfl), ?_, ?_⟩) ?_, ?_, ?_, ?_⟩ <;> decide +kernel
theorem shows_dbg_expires : Shown DebugRow { having opened3 [(pgTide, 0x008, 1), (pgTide, 0x00C, 0x0A)] with tapIr := 9 } .debugExpiry := by
  refine ⟨_, _, .closes _ (.inr ⟨rfl, ?_⟩) ?_, ?_, ?_, ?_⟩ <;> decide +kernel
theorem shows_dbg_closeIdle : Shown DebugRow up (.close (pf 4)) := by
  refine ⟨_, _, .closeIdle _ _ ⟨.inr (.inr rfl), ?_, ?_⟩ ?_, ?_, ?_, ?_⟩ <;> decide +kernel
theorem shows_dbg_badCommand : Shown DebugRow up (.respond (pf 3)) := by
  refine ⟨_, _, .badCommand _ _ 3 ⟨.inr (.inl rfl), ?_, ?_⟩ (.inl rfl), ?_, ?_, ?_⟩ <;> decide +kernel
/-- Core 0xFEF is stopped at an ADD of s30 and s29 to s31, selected by OBS_SEL, under CONTROL. -/
def atAdd : State :=
  { having up [(pgDebug, 0x00C, 2), (pgDebug, 0x0C0, 0x060FEF01)] with
    cores := [(0xFEF, { Core.reset with state := .stopped, pc := 0x3F00000000, fetchq := [(0x3F00000000, 0x01F79D0000000000)], sreg := [(29, 5), (30, 7)] })] }
theorem shows_dbg_step : Shown DebugRow atAdd (.obsStep (pf 0)) := by
  refine ⟨_, _, .step (.add 0xFEF ⟨31, 30, 29, 0, 0, 0, 0, 0, 0, 0, 0⟩) 0xFEF ⟨31, 30, 29, 0, 0, 0, 0, 0, 0, 0, 0⟩ _ _ 0x01F79D0000000000 []
    ?_ ?_ ?_ ?_ ?_ ?_ (.add _ _) ?_ ?_ ?_, ?_, ?_, ?_⟩ <;> decide +kernel
theorem shows_dbg_stepRefused : Shown DebugRow opened3 (.obsStep (pf 0)) := by
  refine ⟨_, _, .stepRefused _ ?_ (.inr ?_), ?_, ?_, ?_⟩ <;> decide +kernel

theorem shows_tap_reset : Shown TapRow { up with boot := { Boot.reset with phase := .scanning }, tapIr := 8 } .tapReset := by
  refine ⟨_, _, .reset (.inr ?_), ?_, ?_, ?_⟩ <;> decide +kernel
theorem shows_tap_idcode : Shown TapRow up .idcode := by
  refine ⟨_, _, .idcode ?_, ?_, ?_, ?_⟩ <;> decide +kernel
theorem shows_tap_bypass : Shown TapRow up .bypass := by
  refine ⟨_, _, .bypass ?_, ?_, ?_, ?_⟩ <;> decide +kernel
theorem shows_tap_sample : Shown TapRow opened3 (.samplePreload 0x3FF 0x155) := by
  refine ⟨_, _, .sample _ _ ?_ ?_, ?_, ?_, ?_⟩ <;> decide +kernel
theorem shows_tap_extest : Shown TapRow opened3 (.extest 0x3FF) := by
  refine ⟨_, _, .extest _ ?_ ?_, ?_, ?_, ?_⟩ <;> decide +kernel
theorem shows_tap_scan : Shown TapRow opened3 .scan := by
  refine ⟨_, _, .scan ?_ ?_, ?_, ?_, ?_⟩ <;> decide +kernel
theorem meets_tap_mbist : Met TapRow opened3 (.mbist 7) := by
  refine ⟨_, _, .mbist _ ?_ ?_⟩ <;> decide +kernel
theorem shows_tap_closed : Shown TapRow up (.extest 0) := by
  refine ⟨_, _, .closed _ 3 ?_ ?_ (.inr (.inl ⟨_, rfl, rfl⟩)), ?_, ?_, ?_⟩ <;> decide +kernel

def addressed : State := { up with i3cDyn := some 0x7E, i3cOff := 15 }
theorem meets_i3c_entdaa : Met I3cRow up (.entdaa 0x08) := by
  refine ⟨_, _, .entdaa _ ?_ ?_⟩ <;> decide +kernel
theorem shows_i3c_setdasa : Shown I3cRow { up with boot := { Boot.reset with i3cStrap := 3 } } (.setdasa 0x53 0x7E) := by
  refine ⟨_, _, .setdasa _ _ ?_ ?_ ?_, ?_, ?_, ?_⟩ <;> decide +kernel
theorem shows_i3c_rstdaa : Shown I3cRow addressed .rstdaa := by
  refine ⟨_, _, .rstdaa ?_, ?_, ?_, ?_⟩ <;> decide +kernel
theorem meets_i3c_getstatus : Met I3cRow addressed .getstatus := by
  refine ⟨_, _, .answers _ _ ⟨?_, ?_⟩ (.inr (.inr (.inr ⟨rfl, rfl⟩)))⟩ <;> decide +kernel
theorem shows_i3c_enec : Shown I3cRow addressed .enec := by
  refine ⟨_, _, .ibi _ true ?_ (.inl ⟨rfl, rfl⟩), ?_, ?_, ?_⟩ <;> decide +kernel
theorem shows_i3c_disec : Shown I3cRow addressed .disec := by
  refine ⟨_, _, .ibi _ false ?_ (.inr ⟨rfl, rfl⟩), ?_, ?_, ?_⟩ <;> decide +kernel
theorem shows_i3c_write : Shown I3cRow addressed (.i3cWrite [0x1C, 3]) := by
  refine ⟨_, _, .write _ _ ?_, ?_, ?_, ?_⟩ <;> decide +kernel
theorem shows_i3c_read : Shown I3cRow addressed (.i3cRead 3) := by
  refine ⟨_, _, .read _ ?_, ?_, ?_, ?_⟩ <;> decide +kernel

/-! The step, the invariants, interrupts and encodings. -/

/-- A command waits in a state whose memory and pending classes are in order. -/
def waiting : State := { State.reset with pending := [.tapReset, .bypass], mem := [(3, 7), (hbmBase, 1)] }
theorem meets_step : waiting.pending = .tapReset :: [.bypass] ∧ Memory.wf waiting = true ∧ PendingTracks waiting
    ∧ went (step waiting) = true := by decide +kernel
/-- The TIDE page has an event enabled: its class pends for the PF. -/
def pends : State := having up [(pgTide, 0x010, 0x80000000), (pgTide, 0x014, 0x80000000)]
theorem meets_pending : storeWf regDefault pends.regs = true ∧ pageFunc pends pgTide = 0
    ∧ 0 * 256 + pageClass pgTide ∈ pendingClasses pends ∧ 0 * 256 + pageClass pgTide ∉ pends.pend ∧ pageClass pgTide < 256
    ∧ pends.rd pgTide 0x010 &&& pends.rd pgTide 0x014 ≠ 0 := by decide +kernel
theorem meets_quiet : (∀ k ∈ pendingClasses up, k ∈ up.pend) ∧ alertN up = up.alert := by decide +kernel
theorem meets_vector : ¬ VectorMasked { pends with bar4 := [(bar4Key 0 (0x10000 + 16 * pageClass pgTide + 12), 0)] } 0 (pageClass pgTide)
    ∧ VectorMasked pends 0 (pageClass pgTide) := by decide +kernel
theorem meets_encode : encodeCoreWord (.mma 4095 ⟨15, 15, 15, 1, 1, 0, 0, 127, 127, 65535, 0⟩)
    = some (4095, 0x83ffc44fffffffc0) := by decide +kernel
theorem meets_header : HeaderFits ⟨15, 65535, 0, 0, 65535, 255, 255, 65535, 65535, 255, 255, 2 ^ 64 - 1⟩ := by decide
theorem meets_beacon : BeaconFits ⟨0, 65535, 65535, 255, 7, true, true, true, true, 0, 0, 0⟩ := by decide
theorem meets_convert : Convertible cXf40 ∧ (0x7F80000000 : Nat) < 2 ^ fmtBits cXf40 ∧ elemValue cXf40 0x7F80000000 ≠ Machine.Num.nan
    ∧ Convertible 11 ∧ Convertible 0 ∧ 0xFF800000 < 2 ^ fmtBits 0 ∧ elemValue 0 0xFF800000 ≠ Machine.Num.nan := by decide +kernel

end Sys2Proof.Tests
end

section
/-! SUPPORT. What a host access leaves behind it: outputs stay sent, a register word outside the changed parts reads as before, an
event sets its bit, and a refused access is counted and reported. -/

namespace Sys2Proof.Machine

/-! Outputs. -/

variable {o : Out} {s t : State} {may : Part → Prop}

theorem mem_out_emit (s : State) (o : Out) : o ∈ (s.emit o).out := List.mem_append_right _ (List.mem_singleton_self o)

theorem mem_out_sendVector (f v : Nat) (h : o ∈ s.out) : o ∈ (sendVector s f v).out := by
  unfold sendVector
  split
  · split <;> exact h
  · exact List.mem_append_left _ h

theorem mem_out_sendVectors (l : List (Nat × Nat)) (h : o ∈ s.out) : o ∈ (sendVectors s l).out := by
  unfold sendVectors
  generalize l.dedup = l
  induction l generalizing s with
  | nil => exact h
  | cons x l ih => exact ih (mem_out_sendVector x.1 x.2 h)

theorem mem_out_driveAlert (h : o ∈ s.out) : o ∈ (driveAlert s).out := by
  simp only [driveAlert]
  split
  · exact List.mem_append_left _ h
  · exact h

/-- What has been sent out stays sent when interrupts are signalled. -/
theorem mem_out_signal (h : o ∈ s.out) : o ∈ (signal s).out := mem_out_driveAlert (mem_out_sendVectors _ h)

/-! Register words that an operation does not change. -/

theorem regDefault_regKey {page off : Nat} (h : off < 4096) : regDefault (regKey page off) = regReset page off := by
  have hp : (page * 4096 + off) / 4096 = page := by omega
  have ho : (page * 4096 + off) % 4096 = off := by omega
  simp only [regDefault, regKey, hp, ho]

/-- A register word that may not change reads as before. -/
theorem Changes.rd_eq (h : Changes s t may) {page off : Nat} (ho : off < 4096) (hk : ¬ may (.reg (regKey page off))) :
    t.rd page off = s.rd page off := by
  have hs : storeGet t.regs (regKey page off) (regDefault (regKey page off)) = _ := h _ hk
  rwa [regDefault_regKey ho] at hs

/-- A number that fits is read back. -/
theorem rdN_wrN_same (s : State) (page off : Nat) {v : Nat} (h : v < 2 ^ 32) : (s.wrN page off v).rdN page off = v := by
  rw [State.rdN, rd_wrN_same, BitVec.toNat_ofNat, Nat.mod_eq_of_lt h]

theorem rdN_incSat_same (s : State) (page off : Nat) :
    (s.incSat page off).rdN page off = min (s.rdN page off + 1) (2 ^ 32 - 1) := by
  have hlt : satInc 32 (s.rdN page off) < 2 ^ 32 := by
    unfold satInc
    split <;> omega
  rw [State.incSat, rdN_wrN_same _ _ _ hlt]
  unfold satInc
  split <;> omega

/-! Events. -/

theorem eventWords_offs {page : Nat} {p : Part} :
    p ∈ eventWords page ↔ ∃ o ∈ [0x010, 0x01C, 0x020, 0x024], p = .reg (regKey page o) := by
  simp [eventWords]

/-- An event leaves every word but EVT, ERRCODE and EVT_TIDE of its page. -/
theorem rd_setEvt_other (s : State) {page bit code q r : Nat} {forced : Bool} (hr : r < 4096)
    (h : q ≠ page ∨ r ∉ [0x010, 0x01C, 0x020, 0x024]) : (setEvt s page bit code forced).rd q r = s.rd q r := by
  have hc : Changes s (setEvt s page bit code forced) (· ∈ eventWords page) :=
    (changes_setEvt (fun _ hx => hx)).2 (Changes.refl _ _)
  refine hc.rd_eq hr ?_
  rw [eventWords_offs]
  rintro ⟨o, ho, e⟩
  have ho' : o < 4096 := by
    simp only [List.mem_cons, List.not_mem_nil, or_false] at ho
    omega
  obtain ⟨rfl, rfl⟩ := (regKey_inj hr ho').1 (Part.reg.inj e)
  exact h.elim (absurd rfl) (absurd ho)

/-- An event sets its bit of EVT and no other. -/
theorem rd_setEvt_evt (s : State) (page bit code : Nat) (forced : Bool) :
    (setEvt s page bit code forced).rd page 0x010 = s.rd page 0x010 ||| BitVec.ofNat 32 (2 ^ bit) := by
  have hk : regKey page 0x010 ≠ regKey page 0x01C := by simp [regKey]
  simp only [setEvt]
  generalize ite (s.rd page 0x010 = 0) _ s = u
  split
  · exact rd_wr_same ..
  · split
    · exact (rd_wr_other _ _ hk).trans (rd_wr_same ..)
    · exact (rd_wr_other _ _ hk).trans (rd_wr_same ..)

theorem rd_raiseWith (s : State) (page bit code q r : Nat) (d : W32 × W32 × W32 × W32) :
    (raiseWith s page bit code d).rd q r = (setEvt s page bit code false).rd q r := by
  simp only [raiseWith]
  split
  · rfl
  · exact logAdd_rd ..

/-! A refused access (17 R449). -/

/-- The words of GLOBAL that a refused access changes. -/
abbrev refusalWords : List Part := [.reg (regKey pgGlobal 0x040), .reg (regKey pgGlobal 0x044), .reg (regKey pgGlobal 0x048)]

/-- A refused access before its event: the count, and where it was if it is the one that loads ERRCODE. -/
def noteRefused (s : State) (what src : Nat) : State :=
  let s := s.incSat pgGlobal 0x048
  if s.get ⟨pgGlobal, 0x01C, 0, 16⟩ = 0 then (s.wrN pgGlobal 0x040 what).wrN pgGlobal 0x044 src else s

theorem accessRefused_eq (s : State) (func bar page off : Nat) (write : Bool) :
    ∃ what src d, accessRefused s func bar page off write = raiseWith (noteRefused s what src) pgGlobal 0 0x1008 d :=
  ⟨_, _, _, rfl⟩

theorem changes_noteRefused {what src : Nat} (h : ∀ x ∈ refusalWords, may x) :
    Changes s (noteRefused t what src) may ↔ Changes s t may := by
  simp only [refusalWords, List.mem_cons, List.not_mem_nil, or_false, forall_eq_or_imp, forall_eq] at h
  obtain ⟨h0, h4, h8⟩ := h
  simp only [noteRefused]
  split <;> simp only [changes_wrN h4, changes_wrN h0, changes_incSat h8]

theorem rd_noteRefused_other (s : State) {what src q r : Nat} (hr : r < 4096) (h : q ≠ pgGlobal ∨ r ∉ [0x040, 0x044, 0x048]) :
    (noteRefused s what src).rd q r = s.rd q r := by
  have hc : Changes s (noteRefused s what src) (· ∈ refusalWords) :=
    (changes_noteRefused (fun _ hx => hx)).2 (Changes.refl _ _)
  refine hc.rd_eq hr (fun hm => ?_)
  simp only [refusalWords, List.mem_cons, List.not_mem_nil, or_false, Part.reg.injEq] at hm h
  unfold regKey at hm
  omega

theorem rdN_noteRefused_count (s : State) (what src : Nat) :
    (noteRefused s what src).rdN pgGlobal 0x048 = min (s.rdN pgGlobal 0x048 + 1) (2 ^ 32 - 1) := by
  rw [← rdN_incSat_same]
  simp only [noteRefused]
  split
  · exact congrArg BitVec.toNat ((rd_wr_other _ _ (by decide)).trans (rd_wr_other _ _ (by decide)))
  · rfl

end Sys2Proof.Machine

namespace Sys2Proof.Claims
open Sys2Proof.Machine

variable {s t : State} {may : Part → Prop}

/-- The words of an event are parts of that event. -/
theorem eventParts_of_mem {page : Nat} {p : Part} (h : p ∈ eventWords page) : eventParts page p := by
  have hl : p ∈ eventWords page ++ [.log] := List.mem_append_left _ h
  exact hl

/-- A refused access raises ACCESS and is counted. -/
theorem refused_accessRefused (s : State) (func bar page off : Nat) (write : Bool) :
    Refused s (accessRefused s func bar page off write) := by
  obtain ⟨what, src, d, he⟩ := accessRefused_eq s func bar page off write
  rw [he]
  constructor
  · show (raiseWith _ _ _ _ _).rd _ _ = _
    rw [rd_raiseWith, rd_setEvt_evt, rd_noteRefused_other s (by omega) (.inr (by decide))]
  · rw [← rdN_noteRefused_count s what src]
    show BitVec.toNat ((raiseWith _ _ _ _ _).rd _ _) = _
    rw [rd_raiseWith, rd_setEvt_other _ (by omega) (.inr (by decide))]
    rfl

/-- … and changes nothing but the words of GLOBAL that say so, and the logbook. -/
theorem changes_accessRefused {func bar page off : Nat} {write : Bool} (h : ∀ p, accessParts p → may p) :
    Changes s (accessRefused t func bar page off write) may ↔ Changes s t may := by
  obtain ⟨what, src, d, he⟩ := accessRefused_eq t func bar page off write
  rw [he, changes_raiseWith, changes_noteRefused]
  · intro x hx
    refine h x (.inl (.inr ?_))
    simpa [refusalWords] using hx
  · exact fun x hx => h x (.inr (eventParts_of_mem hx))
  · exact h _ (.inr (by simp))

/-! How a command completes. -/

/-- A command that ends with signalling completes by what it did before: the signals may change, and the row's words about the state
do not depend on them. -/
theorem completes_finish {i : Instr} {post : State → Prop} (he : exec i s = finish t) (hm : may .signals) (hc : Changes s t may)
    (hp : post (signal t)) : Completes i s may post := ⟨signal t, he, hp, (changes_signal hm).2 hc⟩

theorem completes_same {i : Instr} (he : exec i s = .next s) : Completes i s nothing (fun t => t = s) :=
  ⟨s, he, rfl, Changes.refl s _⟩

theorem refused_signal (h : Refused s t) : Refused s (signal t) := by simpa [Refused, EventSet] using h

theorem refused_emit {o : Out} (h : Refused s t) : Refused s (t.emit o) := h

/-- A refused access as the row of a refusal says it. -/
theorem completes_accessRefused {i : Instr} {func bar page off : Nat} {write : Bool}
    (he : exec i s = finish (accessRefused s func bar page off write)) : Completes i s accessParts (fun t => Refused s t) :=
  completes_finish he (.inl (.inl rfl)) ((changes_accessRefused (fun _ h => h)).2 (Changes.refl _ _))
    (refused_signal (refused_accessRefused ..))

end Sys2Proof.Claims
end

section
/-! SUPPORT. The gate of host writes: every command that writes a BAR0 word meets it, and what it drops, refuses and takes
(00 R15; 17 R432 to R436, R441). -/

namespace Sys2Proof.Claims
open Sys2Proof.Machine

variable {s : State} {i : Instr} {page off : Nat} {a : Access} {k : PageKind} {n : Nat} {r : RegRow}

/-- What the gate makes of a write that its register would answer with `taken`. -/
def gated (s : State) (page off : Nat) (a : Access) (taken : Result) : Result :=
  if !hostUp s then .next s
  else match writeGate s page off a with
    | .take => taken
    | .drop => .next s
    | .refuse => finish (writeRefused s page off a)

theorem hostWrite_eq_gated (page off : Nat) (a : Access) (effect : State → W32 → State) (s : State) :
    hostWrite page off a effect s = gated s page off a (finish (effect s a.data)) := rfl

theorem execObsStep_eq_gated (a : Access) (s : State) : execObsStep a s = gated s pgDebug 0x0C8 a (writeObs a.func.val s) := rfl

theorem regWrite_eq_gated (page off : Nat) (a : Access) (s : State) : ∃ taken, regWrite page off a s = gated s page off a taken := by
  unfold regWrite
  split
  · rename_i h
    simp only [Bool.and_eq_true, decide_eq_true_eq] at h
    obtain ⟨rfl, rfl⟩ := h
    exact ⟨_, execObsStep_eq_gated a s⟩
  · exact ⟨_, hostWrite_eq_gated ..⟩

/-! Two kinds of command name a core, and are the write of its page where there is one. -/

theorem execSpecEn_of_core {id : CoreId} (h : coreOk id = true) :
    execSpecEn id a s = gated s (corePage id) 0x200 a (finish (writeQctrl id s a.data)) := by
  rw [execSpecEn, h, ← hostWrite_eq_gated (corePage id) 0x200 a (writeQctrl id)]
  rfl

theorem coreCtrl_of_core {mn : String} {id : CoreId} (h : coreOk id = true) :
    coreCtrl mn id a s = gated s (corePage id) 0x008 a (finish (writeCoreCtrl id s a.data)) := by
  rw [coreCtrl, h, ← hostWrite_eq_gated (corePage id) 0x008 a (writeCoreCtrl id)]
  rfl

/-- The commands of `General`, as a test: they can write any word. -/
def writesAnyWord : Instr → Bool
  | .registerWrite .bar0 _ _ | .pairLoWrite _ _ _ | .pairHiWrite _ _ _ => true
  | _ => false

theorem writesAnyWord_of_general (h : General i) : writesAnyWord i = true := by
  rcases h with ⟨addr, a, rfl⟩ | ⟨p, o, a, rfl⟩ | ⟨p, o, a, rfl⟩ <;> rfl

/-- A command is the write of the word it names, or it is one of the commands with a name of their own, whose words are CTRL or lie
in a page's block; those meet the gate too. -/
theorem exec_eq_regWrite_or (h : HostWriteOf i page off a) (s : State) :
    (off < 4096 ∧ exec i s = regWrite page off a s) ∨
      (writesAnyWord i = false ∧ (off = 0x008 ∨ 0x040 ≤ off) ∧ ∃ taken, exec i s = gated s page off a taken) := by
  cases h with
  | register => exact .inl ⟨by omega, rfl⟩
  | pairLo => exact .inl ⟨by omega, rfl⟩
  | pairHi => exact .inl ⟨by omega, rfl⟩
  | evtClear => exact .inl ⟨by omega, rfl⟩
  | evtSet => exact .inl ⟨by omega, rfl⟩
  | specEn id a h => exact .inr ⟨rfl, by omega, _, execSpecEn_of_core h⟩
  | core i id a h h1 =>
    rcases h1 with rfl | rfl | rfl <;> exact .inr ⟨rfl, by omega, _, coreCtrl_of_core h⟩
  | tide i a h => rcases h with rfl | rfl <;> exact .inr ⟨rfl, by omega, _, rfl⟩
  | stand i a h => rcases h with rfl | rfl | rfl <;> exact .inr ⟨rfl, by omega, _, rfl⟩
  | fn i b a h => rcases h with rfl | rfl | rfl <;> exact .inr ⟨rfl, by omega, _, rfl⟩
  | ferry i f a h => rcases h with rfl | rfl | rfl <;> exact .inr ⟨rfl, by omega, _, rfl⟩
  | group i g a h => rcases h with rfl | rfl <;> exact .inr ⟨rfl, by unfold gOff; omega, _, rfl⟩
  | link i n a h => rcases h with rfl | rfl <;> exact .inr ⟨rfl, by omega, _, rfl⟩
  | index i a h => rcases h with rfl | rfl | rfl | rfl <;> exact .inr ⟨rfl, by omega, _, rfl⟩
  | berth i b a h => rcases h with rfl | rfl | rfl | rfl <;> exact .inr ⟨rfl, by omega, _, rfl⟩
  | boot i a h => rcases h with rfl | rfl | rfl | rfl <;> exact .inr ⟨rfl, by omega, _, rfl⟩
  | reset i cl a h => rcases h with rfl | rfl <;> exact .inr ⟨rfl, by omega, _, rfl⟩
  | power i a h => rcases h with rfl | rfl | rfl <;> exact .inr ⟨rfl, by omega, _, rfl⟩
  | debug i a h => rcases h with rfl | rfl | rfl <;> exact .inr ⟨rfl, by omega, _, rfl⟩
  | go => exact .inr ⟨rfl, by unfold genOff; omega, _, rfl⟩
  | _ => exact .inr ⟨rfl, by omega, _, rfl⟩

/-- Every command that writes a BAR0 word meets the gate first. -/
theorem exec_eq_gated (h : HostWriteOf i page off a) (s : State) : ∃ taken, exec i s = gated s page off a taken := by
  rcases exec_eq_regWrite_or h s with ⟨_, he⟩ | ⟨_, _, he⟩
  · exact he ▸ regWrite_eq_gated page off a s
  · exact he

theorem exec_of_unseen (h : HostWriteOf i page off a) (hs : hostUp s = false ∨ writeGate s page off a = .drop) :
    exec i s = .next s := by
  obtain ⟨taken, he⟩ := exec_eq_gated h s
  rw [he, gated]
  cases hu : hostUp s with
  | false => rfl
  | true =>
    have hg : writeGate s page off a = .drop := hs.resolve_left (by simp [hu])
    simp only [hg, Bool.not_true, Bool.false_eq_true, if_false]

theorem exec_of_refused (h : HostWriteOf i page off a) (hu : hostUp s = true) (hg : writeGate s page off a = .refuse) :
    exec i s = finish (writeRefused s page off a) := by
  obtain ⟨taken, he⟩ := exec_eq_gated h s
  simp only [he, gated, hu, hg, Bool.not_true, Bool.false_eq_true, if_false]

theorem completes_unseen (h : HostWriteOf i page off a) (hs : hostUp s = false ∨ writeGate s page off a = .drop) :
    Completes i s nothing (fun t => t = s) := completes_same (exec_of_unseen h hs)

theorem completes_refused (h : HostWriteOf i page off a) (hu : hostUp s = true) (hg : writeGate s page off a = .refuse) :
    Completes i s accessParts (fun t => Refused s t) := completes_accessRefused (exec_of_refused h hu hg)

/-! The gate's answers. -/

theorem vfClosed_pf (h : a.func.val = 0) : vfClosed s a.func.val = false := by simp [vfClosed, h]

theorem writeGate_closed (h : vfClosed s a.func.val = true) : writeGate s page off a = .drop := by simp [writeGate, h]

theorem writeGate_part (h : vfClosed s a.func.val = false) (hb : a.be ≠ 15) : writeGate s page off a = .refuse := by
  simp only [writeGate, h, if_pos hb, Bool.false_eq_true, if_false]

theorem writeGate_unlisted (h : vfClosed s a.func.val = false) (hr : rowAt page off = none) : writeGate s page off a = .refuse := by
  cases hp : pageAt page <;> simp [writeGate, h, hr, hp]

theorem writeGate_foreign (h : vfClosed s a.func.val = false) (hf : a.func.val ≠ 0) (hp : pageAt page = some (k, n)) (hk : k ≠ .ident)
    (hb : vfBerth s a.func.val ≠ some (pageOwner s page)) : writeGate s page off a = .refuse := by
  cases hr : rowAt page off with
  | none => exact writeGate_unlisted h hr
  | some x => simp [writeGate, h, hp, hr, hf, hk, hb]

/-- A write that reaches its register: the tests that are left. -/
theorem writeGate_of_reaches (h : Reaches s page off a k n r) (hc : vfClosed s a.func.val = false) :
    writeGate s page off a =
      if a.be ≠ 15 then .refuse
      else if pageInP2 s k n then .refuse
      else if a.func.val ≠ 0 && pfOnly k off then .refuse
      else if r.kind = .ro then .drop
      else if r.kind = .rwl && (pageLocked s page && !onOwnersStream s page a) then .refuse
      else .take := by
  obtain ⟨hp, ⟨j, hi, hr⟩, hf | ⟨hk, hb⟩⟩ := h
  · rw [hf] at hc
    cases hkind : r.kind <;> simp [writeGate, hc, hp, hr, hf, hkind]
  · cases hkind : r.kind <;> simp [writeGate, hc, hp, hr, hk, hb, hkind]

theorem pageInP2_of_noPower (h : (k = .cl ∧ partState s (n / 8) = 2) ∨ (k = .core ∧ partState s (n / 512) = 2)) :
    pageInP2 s k n = true := by
  rcases h with ⟨rfl, h⟩ | ⟨rfl, h⟩ <;> simp [pageInP2, h]

theorem pageInP2_of_other (h : k ≠ .cl) (h' : k ≠ .core) : pageInP2 s k n = false := by cases k <;> simp_all [pageInP2]

theorem writeGate_noPower (h : Reaches s page off a k n r) (hc : vfClosed s a.func.val = false) (hp : pageInP2 s k n = true) :
    writeGate s page off a = .refuse := by
  rw [writeGate_of_reaches h hc]
  simp [hp]

theorem writeGate_locked (h : Reaches s page off a k n r) (hc : vfClosed s a.func.val = false) (hk : r.kind = .rwl)
    (hl : pageLocked s page = true) (ho : onOwnersStream s page a = false) : writeGate s page off a = .refuse := by
  rw [writeGate_of_reaches h hc]
  simp [hk, hl, ho]

theorem writeGate_readOnly (h : Reaches s page off a k n r) (hf : a.func.val = 0) (hb : a.be = 15) (hp : pageInP2 s k n = false)
    (hk : r.kind = .ro) : writeGate s page off a = .drop := by
  rw [writeGate_of_reaches h (vfClosed_pf hf)]
  simp [hb, hp, hf, hk]

end Sys2Proof.Claims

open Sys2Proof Sys2Proof.Machine Sys2Proof.Claims

/-- Settles O41: every command that writes a BAR0 word meets the gate, and the gate answers as each row says. -/
theorem hostWriteGate : Obligations.HostWriteGate := by
  intro s i may post row
  cases row with
  | unseen page off a hi h => exact completes_unseen hi (h.imp_right writeGate_closed)
  | part page off a hi h h1 h2 => exact completes_refused hi h (writeGate_part h1 h2)
  | unlisted page off a hi h h1 h2 => exact completes_refused hi h (writeGate_unlisted h1 h2)
  | foreign page off a k n hi h h1 h2 h3 h4 h5 => exact completes_refused hi h (writeGate_foreign h1 h2 h3 h4 h5)
  | noPower page off a k n r hi h h1 h2 h3 => exact completes_refused hi h (writeGate_noPower h2 h1 (pageInP2_of_noPower h3))
  | locked page off a k n r hi h h1 h2 h3 h4 h5 => exact completes_refused hi h (writeGate_locked h2 h1 h3 h4 h5)
  | readOnly page off a k n r hi h h1 h2 h3 h4 h5 h6 =>
    exact completes_unseen hi (.inr (writeGate_readOnly h3 h2 h1 (pageInP2_of_other h5 h6) h4))
end

section
/-! SUPPORT. Host reads of BAR0 (00 R13; 17 R432 to R434; 19 R472): the one answer of each kind of register. -/

namespace Sys2Proof.Claims
open Sys2Proof.Machine

variable {s : State} {i : Instr} {func page off lo : Nat} {r : RegRow} {hi : Bool} {w : W32}

theorem exec_eq_hostRead (h : HostReadOf i func page off) (s : State) : exec i s = hostRead func page off s := by
  cases h <;> rfl

/-- A read that arrives ends with signalling. -/
theorem exec_of_read (h : HostReadOf i func page off) (hu : hostUp s = true) (hc : vfClosed s func = false) :
    exec i s = finish (regRead func page off s) := by
  rw [exec_eq_hostRead h, hostRead]
  simp only [hu, hc, Bool.not_true, Bool.or_false, Bool.false_eq_true, if_false]

theorem exec_of_reads (h : Reads s i func page off r hi) : exec i s = finish (regRead func page off s) := by
  obtain ⟨ho, hu, hc, _⟩ := h
  exact exec_of_read ho hu hc

/-! What the register answers. -/

theorem regRead_of_reads (h : Reads s i func page off r hi) :
    regRead func page off s =
      if r.kind = .wo then s.emit (.readData func 0)
      else if r.pair then
        answerPair s func (pairKey func page (if hi then off - 4 else off)) hi (regWord s page off)
          (regWord s page ((if hi then off - 4 else off) + 4))
      else if page = pgLog ∧ off = 0x070 then
        (s.emit (.readData func (regWord s page off))).wr pgLog 0x050 (s.rd pgLog 0x050 + 1)
      else s.emit (.readData func (regWord s page off)) := by
  obtain ⟨_, _, _, ⟨k, n, hp, hm⟩, j, hr⟩ := h
  simp only [regRead, hp, hr, hm, Bool.not_true, Bool.false_eq_true, if_false, Bool.and_eq_true, decide_eq_true_eq]
  rfl

theorem regRead_refused (h : rowAt page off = none ∨ ∃ k n, pageAt page = some (k, n) ∧ mayRead s func page k = false) :
    regRead func page off s = readRefused s func 0 page off := by
  rcases h with hr | ⟨k, n, hp, hm⟩
  · cases hp : pageAt page <;> simp [regRead, hp, hr]
  · cases hr : rowAt page off <;> simp [regRead, hp, hr, hm]

/-- The eighth word of an entry of the log is RD_WORD[7]. -/
theorem regWord_rdWord : regWord s pgLog 0x070 = logWord s (s.rd pgLog 0x050) 7 := rfl

/-! The latch of a pair. -/

theorem latchOf_latchPair (s : State) (func page lo : Nat) (w : W32) :
    latchOf (latchPair s (pairKey func page lo) w) func page lo = some w := by simp [latchOf, latchPair]

theorem latchOf_unlatchPair (s : State) (func page lo : Nat) :
    latchOf (unlatchPair s (pairKey func page lo)) func page lo = none := by simp [latchOf, unlatchPair]

@[simp] theorem latchOf_signal (s : State) (func page lo : Nat) : latchOf (signal s) func page lo = latchOf s func page lo := by
  simp only [latchOf, signal_pairRead]

@[simp] theorem latchOf_emit (s : State) (o : Out) (func page lo : Nat) : latchOf (s.emit o) func page lo = latchOf s func page lo :=
  rfl

/-! The rows. -/

theorem completes_answer (h : Reads s i func page off r hi) (he : regRead func page off s = s.emit (.readData func w)) :
    Completes i s (parts [.signals]) (fun t => Out.readData func w ∈ t.out) :=
  completes_finish (exec_of_reads h) (by simp) (by rw [he]; exact (changes_emit (by simp)).2 (Changes.refl _ _))
    (mem_out_signal (he ▸ mem_out_emit ..))

theorem completes_word (h : Reads s i func page off r hi) (h1 : r.kind ≠ .wo) (h2 : r.pair = false)
    (h3 : page ≠ pgLog ∨ off ≠ 0x070) :
    Completes i s (parts [.signals]) (fun t => Out.readData func (regWord s page off) ∈ t.out) :=
  completes_answer h (by rw [regRead_of_reads h, if_neg h1, h2, if_neg (by simp), if_neg (by tauto)])

theorem completes_writeOnly (h : Reads s i func page off r hi) (h1 : r.kind = .wo) :
    Completes i s (parts [.signals]) (fun t => Out.readData func 0 ∈ t.out) :=
  completes_answer h (by rw [regRead_of_reads h, if_pos h1])

/-- A read of either word of a pair. -/
theorem regRead_pair (h : Reads s i func page off r hi) (h1 : r.kind ≠ .wo) (h2 : r.pair = true) :
    regRead func page off s =
      answerPair s func (pairKey func page (if hi then off - 4 else off)) hi (regWord s page off)
          (regWord s page ((if hi then off - 4 else off) + 4)) := by
  rw [regRead_of_reads h, if_neg h1, if_pos h2]

theorem completes_pairLo (h : Reads s i func page off r false) (h1 : r.kind ≠ .wo) (h2 : r.pair = true) :
    Completes i s (parts [.pairs, .signals]) (fun t =>
      Out.readData func (regWord s page off) ∈ t.out ∧ latchOf t func page off = some (regWord s page (off + 4))) := by
  have he : regRead func page off s =
      (latchPair s (pairKey func page off) (regWord s page (off + 4))).emit (.readData func (regWord s page off)) :=
    regRead_pair h h1 h2
  refine completes_finish (exec_of_reads h) (by simp) ?_ ⟨mem_out_signal (he ▸ mem_out_emit ..), ?_⟩
  · rw [he, changes_emit (by simp), latchPair, changes_pairRead (by simp)]
    exact Changes.refl _ _
  · rw [he, latchOf_signal, latchOf_emit, latchOf_latchPair]

theorem completes_pairHi (h : Reads s i func page (lo + 4) r true) (h1 : r.kind ≠ .wo) (h2 : r.pair = true)
    (h3 : latchOf s func page lo = some w) :
    Completes i s (parts [.pairs, .signals]) (fun t => Out.readData func w ∈ t.out ∧ latchOf t func page lo = none) := by
  have he : regRead func page (lo + 4) s = (unlatchPair s (pairKey func page lo)).emit (.readData func w) := by
    rw [regRead_pair h h1 h2]
    unfold latchOf at h3
    simp only [answerPair, if_true, Nat.add_sub_cancel, h3]
  refine completes_finish (exec_of_reads h) (by simp) ?_ ⟨mem_out_signal (he ▸ mem_out_emit ..), ?_⟩
  · rw [he, changes_emit (by simp), unlatchPair, changes_pairRead (by simp)]
    exact Changes.refl _ _
  · rw [he, latchOf_signal, latchOf_emit, latchOf_unlatchPair]

theorem completes_pairHiFree (h : Reads s i func page (lo + 4) r true) (h1 : r.kind ≠ .wo) (h2 : r.pair = true)
    (h3 : latchOf s func page lo = none) :
    Completes i s (parts [.signals]) (fun t => Out.readData func (regWord s page (lo + 4)) ∈ t.out) := by
  refine completes_answer h ?_
  rw [regRead_pair h h1 h2]
  unfold latchOf at h3
  simp only [answerPair, if_true, Nat.add_sub_cancel, h3]

theorem completes_entry (h : Reads s i func pgLog 0x070 r hi) (h1 : r.kind ≠ .wo) (h2 : r.pair = false) :
    Completes i s (words pgLog [0x050]) (fun t =>
      Out.readData func (logWord s (s.rd pgLog 0x050) 7) ∈ t.out ∧ t.rd pgLog 0x050 = s.rd pgLog 0x050 + 1) := by
  have he : regRead func pgLog 0x070 s =
      (s.emit (.readData func (logWord s (s.rd pgLog 0x050) 7))).wr pgLog 0x050 (s.rd pgLog 0x050 + 1) := by
    rw [regRead_of_reads h, if_neg h1, h2, if_neg (by simp), if_pos ⟨rfl, rfl⟩, regWord_rdWord]
  refine completes_finish (exec_of_reads h) (.inl rfl) ?_ ⟨mem_out_signal ?_, ?_⟩
  · rw [he, changes_wr (.inr ⟨0x050, by simp, rfl⟩), changes_emit (.inl rfl)]
    exact Changes.refl _ _
  · rw [he]
    exact mem_out_emit ..
  · rw [he, signal_rd, rd_wr_same]

theorem completes_readRefused (hi : HostReadOf i func page off) (h : hostUp s = true) (h1 : vfClosed s func = false)
    (h2 : rowAt page off = none ∨ ∃ k n, pageAt page = some (k, n) ∧ mayRead s func page k = false) :
    Completes i s accessParts (fun t => Refused s t ∧ Out.readData func 0 ∈ t.out) := by
  have he : regRead func page off s = (accessRefused s func 0 page off false).emit (.readData func 0) := regRead_refused h2
  refine completes_finish (exec_of_read hi h h1) (.inl (.inl rfl)) ?_ ⟨refused_signal ?_, mem_out_signal (he ▸ mem_out_emit ..)⟩
  · rw [he, changes_emit (.inl (.inl rfl)), changes_accessRefused (fun _ h => h)]
    exact Changes.refl _ _
  · rw [he]
    exact refused_emit (refused_accessRefused ..)

end Sys2Proof.Claims

open Sys2Proof Sys2Proof.Machine Sys2Proof.Claims

/-- Settles O44: a read that arrives is answered by its register's kind, one way for each row. -/
theorem registerReadResults : Obligations.RegisterReadResults := by
  intro s i may post row
  cases row with
  | word func page off r hi h h1 h2 h3 => exact completes_word h h1 h2 h3
  | writeOnly func page off r hi h h1 => exact completes_writeOnly h h1
  | pairLo func page off r h h1 h2 => exact completes_pairLo h h1 h2
  | pairHi func page lo w r h h1 h2 h3 => exact completes_pairHi h h1 h2 h3
  | pairHiFree func page lo r h h1 h2 h3 => exact completes_pairHiFree h h1 h2 h3
  | entry func r hi h h1 h2 => exact completes_entry h h1 h2
  | refused func page off hi h h1 h2 => exact completes_readRefused hi h h1 h2
end

section
/-! SUPPORT. Reading register words after the writes of an event, a pair and a lock. -/

namespace Sys2Proof.Machine

variable {s t : State} {may : Part → Prop}

theorem regKey_ne {page o r : Nat} (h : o ≠ r) : regKey page o ≠ regKey page r := by
  unfold regKey
  omega

theorem rd_wr64_other (s : State) {page o r : Nat} (v : W64) (h : r ≠ o) (h4 : r ≠ o + 4) : (s.wr64 page o v).rd page r = s.rd page r := by
  rw [State.wr64, rd_wr_other _ _ (regKey_ne h4), rd_wr_other _ _ (regKey_ne h)]

theorem rd64_wr_other (s : State) {page o r : Nat} (v : W32) (h : r ≠ o) (h4 : r + 4 ≠ o) : (s.wr page o v).rd64 page r = s.rd64 page r := by
  rw [State.rd64, rd_wr_other _ _ (regKey_ne h4), rd_wr_other _ _ (regKey_ne h)]
  rfl

/-! Events cleared (17 R438 to R440). -/

theorem rd_clearEvt_evt (s : State) (page : Nat) (v : W32) : (clearEvt s page v).rd page 0x010 = s.rd page 0x010 &&& ~~~v := by
  simp only [clearEvt]
  split <;> split <;> simp [rd_wr64_other, rd_wr_other, regKey_ne]

theorem rd_clearEvt_code (s : State) (page : Nat) (v : W32) :
    (clearEvt s page v).rd page 0x01C =
      if s.get ⟨page, 0x01C, 0, 16⟩ ≠ 0 ∧ v.getLsbD (s.get ⟨page, 0x01C, 16, 5⟩) = true then 0 else s.rd page 0x01C := by
  simp only [clearEvt, Bool.and_eq_true, bne_iff_ne, ne_eq]
  split <;> split <;> simp [rd_wr64_other, rd_wr_other, regKey_ne, *]

theorem rd64_clearEvt_tide (s : State) (page : Nat) (v : W32) :
    (clearEvt s page v).rd64 page 0x020 = if s.rd page 0x010 &&& ~~~v = 0 then 0 else s.rd64 page 0x020 := by
  simp only [clearEvt]
  split <;> split <;> simp [rd64_wr_other, *]

/-! Events forced (17 R438). -/

theorem forcedCode_regs (k : PageKind) (bit : Nat) (s : State) : (forcedCode k bit s).2.regs = s.regs := by
  unfold forcedCode
  split <;> rfl

theorem changes_forcedCode {k : PageKind} {bit : Nat} (h : may .fresh) :
    Changes s (forcedCode k bit t).2 may ↔ Changes s t may := by
  unfold forcedCode
  split
  · rfl
  · rfl
  · exact changes_fresh h

theorem rd_forceBit_evt (k : PageKind) (page bit : Nat) (s : State) :
    (forceBit k page bit s).rd page 0x010 = s.rd page 0x010 ||| BitVec.ofNat 32 (2 ^ bit) := by
  rw [← rd_eq_of_regs (forcedCode_regs k bit s), ← rd_setEvt_evt _ page bit (forcedCode k bit s).1 true]
  simp only [forceBit]
  split
  · rfl
  · exact logAdd_rd ..

theorem changes_forceBit {k : PageKind} {page bit : Nat} (h : ∀ x ∈ eventWords page, may x) (hl : may .log) (hf : may .fresh) :
    Changes s (forceBit k page bit t) may ↔ Changes s t may := by
  simp only [forceBit]
  split
  · rw [changes_setEvt h, changes_forcedCode hf]
  · rw [changes_logAdd hl, changes_setEvt h, changes_forcedCode hf]

/-- Forcing the bits of a list, one after the other, sets these bits. -/
theorem getLsbD_forceBits (k : PageKind) (page j : Nat) (l : List Nat) (hj : j < 32) (s : State) :
    ((l.foldl (fun t b => forceBit k page b t) s).rd page 0x010).getLsbD j =
      ((s.rd page 0x010).getLsbD j || decide (j ∈ l)) := by
  induction l generalizing s with
  | nil => simp
  | cons b l ih =>
    have hb : (BitVec.ofNat 32 (2 ^ b)).getLsbD j = decide (j = b) := by
      rw [BitVec.getLsbD_ofNat, Nat.testBit_two_pow]
      simp [hj, eq_comm]
    rw [List.foldl_cons, ih, rd_forceBit_evt, BitVec.getLsbD_or, hb, Bool.or_assoc]
    simp

/-! LOCK of the pages (17 R441). -/

theorem mem_storeSet {α : Type} {m : Store α} {q : Nat} {v : α} {x : Nat × α} (h : x ∈ storeSet m q v) : x ∈ m ∨ x = (q, v) := by
  induction m with
  | nil => simpa [storeSet] using h
  | cons y m ih =>
    obtain ⟨j, w⟩ := y
    unfold storeSet at h
    split_ifs at h
    · exact (List.mem_cons.1 h).symm
    · exact (List.mem_cons.1 h).symm.imp_left (List.mem_cons_of_mem _)
    · rcases List.mem_cons.1 h with rfl | hm
      · exact .inl List.mem_cons_self
      · exact (ih hm).imp_left (List.mem_cons_of_mem _)

theorem mem_storePut {α : Type} [DecidableEq α] {m : Store α} {q : Nat} {v d : α} {x : Nat × α} (h : x ∈ storePut m q v d) :
    x ∈ m ∨ x = (q, v) := by
  unfold storePut at h
  split at h
  · exact .inl (List.mem_of_mem_filter h)
  · exact mem_storeSet h

/-- A write of another register locks no page. -/
theorem lockedPages_wr (h : lockedPages s = []) {page off : Nat} (v : W32) (ho : off < 4096) (hl : off ≠ 0x028) :
    lockedPages (s.wr page off v) = [] := by
  simp only [lockedPages, List.filterMap_eq_nil_iff] at h ⊢
  intro x hx
  rcases mem_storePut hx with hm | rfl
  · exact h x hm
  · refine if_neg (fun hk => hl ?_)
    rw [Bool.and_eq_true, decide_eq_true_eq] at hk
    have hoff : (page * 4096 + off) % 4096 = 0x028 := hk.1
    omega

theorem dropLocks_of_none {old : State} (h : lockedPages t = []) : dropLocks old t = t := by
  simp [dropLocks, h, clearLocks]

end Sys2Proof.Machine
end

section
/-! SUPPORT. Host writes of BAR0 that the gate takes (00 R14; 17 R438 to R440): which register they reach, and what it does. -/

namespace Sys2Proof.Claims
open Sys2Proof.Machine

variable {s t u : State} {i : Instr} {page off lo : Nat} {a : Access} {k : PageKind} {n : Nat} {r : RegRow} {hi : Bool}
  {may : Part → Prop} {post : State → Prop}

/-! The write reaches its register. -/

/-- The word is not OBS_WRITE, whose write steps a core. -/
abbrev NotStep (page off : Nat) : Prop := ¬ (page = pgDebug ∧ off = 0x0C8)

theorem writes_block (h : Writes s i page off a k n r hi) : 0x040 ≤ off := by
  obtain ⟨_, _, _, _, ho⟩ := h
  exact ho

/-- Where the write goes: its page, its row, and none of EVT, EVT_EN and EVT_SET. -/
theorem writes_place (h : Writes s i page off a k n r hi) :
    pageAt page = some (k, n) ∧ (∃ j, rowAt page off = some (r, j, hi)) ∧ off ≠ 0x010 ∧ off ≠ 0x014 ∧ off ≠ 0x018 := by
  obtain ⟨_, _, hp, hr, ho⟩ := h
  exact ⟨hp, hr, by omega, by omega, by omega⟩

theorem notStep_of_kind (h : Writes s i page off a k n r hi) (hk : k ≠ .debug) : NotStep page off := by
  rintro ⟨rfl, -⟩
  obtain ⟨_, _, hp, _⟩ := h
  exact hk (congrArg Prod.fst (Option.some.inj hp)).symm

theorem notStep_of_pair (h : Writes s i page off a k n r hi) (h1 : r.pair = true) : NotStep page off := by
  rintro ⟨rfl, rfl⟩
  obtain ⟨_, _, _, ⟨j, hr⟩, _⟩ := h
  have hw : rowAt pgDebug 0x0C8 = some (rowWo 0x0C8, 0, false) := by decide
  have hrow : rowWo 0x0C8 = r := congrArg Prod.fst (Option.some.inj (hw.symm.trans hr))
  exact absurd (hrow ▸ h1) (by decide)

theorem regWrite_of_takes (ht : HostTakes s page off a) (hn : NotStep page off) :
    regWrite page off a s = finish (regEffect page off a s a.data) := by
  obtain ⟨hu, hg⟩ := ht
  have hn' : ¬ (decide (page = pgDebug) && decide (off = 0x0C8)) = true := by simpa using hn
  simp only [regWrite, hn', hostWrite, hu, hg, Bool.not_true, Bool.false_eq_true, if_false]

theorem general_write (hg : General i) (h : HostWriteOf i page off a) (s : State) :
    off < 4096 ∧ exec i s = regWrite page off a s := by
  rcases exec_eq_regWrite_or h s with hw | ⟨hn, -⟩
  · exact hw
  · simp [writesAnyWord_of_general hg] at hn

theorem exec_of_writes (hg : General i) (h : Writes s i page off a k n r hi) (hn : NotStep page off) :
    exec i s = finish (regEffect page off a s a.data) := by
  obtain ⟨hw, ht, _⟩ := h
  obtain ⟨_, he⟩ := general_write hg hw s
  exact he.trans (regWrite_of_takes ht hn)

/-- The words of a page lie below 4096. -/
theorem writes_off_lt (hg : General i) (h : Writes s i page off a k n r hi) : off < 4096 := by
  obtain ⟨hw, _⟩ := h
  obtain ⟨ho, _⟩ := general_write hg hw s
  exact ho

/-- A write in a page's block completes by its register's effect. -/
theorem completes_write (hg : General i) (h : Writes s i page off a k n r hi) (hn : NotStep page off)
    (he : regEffect page off a s a.data = u) (hm : may .signals) (hc : Changes s u may) (hp : post (signal u)) :
    Completes i s may post :=
  completes_finish ((exec_of_writes hg h hn).trans (congrArg finish he)) hm hc hp

/-- So does a write of a word of the header other than CTRL. -/
theorem completes_header (hw : HostWriteOf i page off a) (ht : HostTakes s page off a) (h8 : off ≠ 0x008) (h40 : off < 0x040)
    (he : regEffect page off a s a.data = u) (hm : may .signals) (hc : Changes s u may) (hp : post (signal u)) :
    Completes i s may post := by
  rcases exec_eq_regWrite_or hw s with ⟨-, hx⟩ | ⟨-, ho, -⟩
  · exact completes_finish (hx.trans (he ▸ regWrite_of_takes ht (by omega))) hm hc hp
  · omega

/-! The effect of a write in a page's block. -/

/-- A word of the block that its page's state lets through. -/
theorem regEffect_word (h : Writes s i page off a k n r hi) (h1 : r.pair = false) (h4 : stateGate s k n page off = .take) :
    regEffect page off a s a.data = blockWrite k n page off r.mask a.func.val s a.data := by
  obtain ⟨hp, ⟨j, hr⟩, h10, h14, h18⟩ := writes_place h
  simp [regEffect, hp, hr, h1, h4, h10, h14, h18]

theorem regEffect_refused (h : Writes s i page off a k n r hi) (h4 : stateGate s k n page off = .refuse) :
    regEffect page off a s a.data = writeRefused s page off a := by
  obtain ⟨hp, ⟨j, hr⟩, h10, h14, h18⟩ := writes_place h
  simp [regEffect, hp, hr, h4, h10, h14, h18]

theorem regEffect_lo (h : Writes s i page off a k n r false) (h1 : r.pair = true) (h4 : stateGate s k n page off = .take) :
    regEffect page off a s a.data = holdPair s (pairKey a.func.val page off) a.data := by
  obtain ⟨hp, ⟨j, hr⟩, h10, h14, h18⟩ := writes_place h
  simp [regEffect, hp, hr, h1, h4, h10, h14, h18]

theorem regEffect_hi (h : Writes s i page (lo + 4) a k n r true) (h1 : r.pair = true) (h4 : stateGate s k n page (lo + 4) = .take) :
    regEffect page (lo + 4) a s a.data =
      pairEffect k n page lo r.mask a.func.val (a.data ++ heldLo s a.func k n page lo)
        (unholdPair s (pairKey a.func.val page lo)) := by
  obtain ⟨hp, ⟨j, hr⟩, h10, h14, h18⟩ := writes_place h
  cases k <;> simp [regEffect, heldLo, hp, hr, h1, h4, h10, h14, h18]

/-! Words of a block. -/

/-- The effect is a write of the word alone. -/
theorem completes_wr {v : W32} (hg : General i) (h : Writes s i page off a k n r hi) (hn : NotStep page off)
    (he : regEffect page off a s a.data = s.wr page off v) : Completes i s (words page [off]) (fun t => t.rd page off = v) :=
  completes_write hg h hn he (.inl rfl) ((changes_wr (.inr ⟨off, List.mem_singleton_self off, rfl⟩)).2 (Changes.refl _ _)) (by simp)

theorem completes_wrN {v : Nat} (hg : General i) (h : Writes s i page off a k n r hi) (hn : NotStep page off)
    (he : regEffect page off a s a.data = s.wrN page off v) (hv : v < 2 ^ 32) :
    Completes i s (words page [off]) (fun t => t.rdN page off = v) :=
  completes_write hg h hn he (.inl rfl) ((changes_wrN (.inr ⟨off, List.mem_singleton_self off, rfl⟩)).2 (Changes.refl _ _))
    (by rw [signal_rdN, rdN_wrN_same _ _ _ hv])

theorem blockWrite_plain {mask func : Nat} {v : W32} (h : plainReg k off = true) (ho : 0x040 ≤ off) :
    blockWrite k n page off mask func s v = s.wr page off (v &&& BitVec.ofNat 32 mask) := by
  have h8 : off ≠ 0x008 := by omega
  cases k with
  | berth | hs | cl =>
    simp_all [plainReg, blockWrite]
    intros
    omega
  | _ => simp_all [plainReg, blockWrite]

theorem notStep_of_plain (h : Writes s i page off a k n r hi) (h2 : plainReg k off = true) : NotStep page off := by
  by_cases hk : k = .debug
  · rintro ⟨-, rfl⟩
    exact absurd (hk ▸ h2) (by decide)
  · exact notStep_of_kind h hk

theorem pageAt_pgCq {g : Nat} (h : g < 64) : pageAt (pgCq g) = some (.cq, g) :=
  (by decide : ∀ g : Fin 64, pageAt (pgCq g.val) = some (.cq, g.val)) ⟨g, h⟩

theorem pageAt_pgBerth {b : Nat} (h : b < 16) : pageAt (pgBerth b) = some (.berth, b) :=
  (by decide : ∀ b : Fin 16, pageAt (pgBerth b.val) = some (.berth, b.val)) ⟨b, h⟩

theorem rowAt_block (hp : pageAt page = some (k, n)) (ho : 0x040 ≤ off) : rowAt page off = findRow (blockRows k) off := by
  simp only [rowAt, hp, Nat.not_lt.2 ho, if_false]

/-- The registers that store the nearest value they allow: none is a pair, and the value fits the word. -/
theorem clamped_register {v w : Nat} (h : Clamped page off v w) :
    ∃ k n r j, pageAt page = some (k, n) ∧ rowAt page off = some (r, j, false) ∧ k ≠ .debug ∧ r.pair = false ∧ w < 2 ^ 32 ∧
      ∀ (mask func : Nat) (s : State) (d : W32), d.toNat = v → blockWrite k n page off mask func s d = s.wrN page off w := by
  cases h with
  | pace v =>
    exact ⟨.therm, 0, rowRw 0x044 0x7F 75, 0, rfl, by decide, by decide, rfl, by omega, by rintro _ _ _ _ rfl; rfl⟩
  | jwarn v =>
    exact ⟨.therm, 0, rowRw 0x04C 0xFF 100, 0, rfl, by decide, by decide, rfl, by omega, by rintro _ _ _ _ rfl; rfl⟩
  | tierSize v =>
    exact ⟨.tier, 0, rowRw 0x054 0x1F 6, 0, rfl, by decide, by decide, rfl, by omega, by rintro _ _ _ _ rfl; rfl⟩
  | cqSize g v hg =>
    have hp := pageAt_pgCq hg
    exact ⟨.cq, g, rowRwl 0x048 0x1F 4, 0, hp, (rowAt_block hp (by decide)).trans (by decide), by decide, rfl, by omega,
      by rintro _ _ _ _ rfl; rfl⟩
  | berthSize b v hb =>
    have hp := pageAt_pgBerth hb
    exact ⟨.berth, b, rowRwl 0x660 0x1F 6, 0, hp, (rowAt_block hp (by decide)).trans (by decide), by decide, rfl, by omega,
      by rintro _ _ _ _ rfl; rfl⟩

theorem completes_clamped {v : Nat} (hg : General i) (h : Writes s i page off a k n r hi) (h1 : Clamped page off a.data.toNat v)
    (h4 : stateGate s k n page off = .take) : Completes i s (words page [off]) (fun t => t.rdN page off = v) := by
  obtain ⟨hp, ⟨j, hr⟩, -⟩ := writes_place h
  obtain ⟨k', n', r', j', hp', hr', hk, hpair, hv, he⟩ := clamped_register h1
  obtain ⟨rfl, rfl⟩ := Prod.mk.inj (Option.some.inj (hp'.symm.trans hp))
  obtain ⟨rfl, -⟩ := Prod.mk.inj (Option.some.inj (hr'.symm.trans hr))
  exact completes_wrN hg h (notStep_of_kind h hk) ((regEffect_word h hpair h4).trans (he _ _ _ _ rfl)) hv

/-- GTAB, off GCMD: no page is locked, so none loses its lock. -/
theorem blockWrite_gtab {mask func : Nat} {v : W32} (hl : lockedPages s = []) (ho : off < 4096) (h40 : 0x040 ≤ off)
    (h2 : (off - 0x040) % 0x40 ≠ 0x1C) :
    blockWrite .gtab n page off mask func s v = s.wr page off (v &&& BitVec.ofNat 32 mask) := by
  simp only [blockWrite, h2, decide_false, Bool.and_false, Bool.false_eq_true, if_false]
  exact dropLocks_of_none (lockedPages_wr hl _ ho (by omega))

theorem ftlValue_lt {m : Nat} (h : m < 2 ^ 32) : ftlValue off m < 2 ^ 32 := by
  unfold ftlValue
  split_ifs <;> omega

theorem blockWrite_ftl {mask func : Nat} {v : W32} (h40 : 0x040 ≤ off) :
    blockWrite .ftl n pgFtl off mask func s v = s.wrN pgFtl off (ftlValue off (v.toNat &&& mask)) := by
  simp [blockWrite, writeFtl, ftlValue, clamp, show off ≠ 0x008 by omega]

theorem completes_flashLayer (hg : General i) (h : Writes s i pgFtl off a .ftl n r hi) (h1 : r.pair = false) (h2 : r.mask < 2 ^ 32) :
    Completes i s (words pgFtl [off]) (fun t => t.rdN pgFtl off = ftlValue off (a.data.toNat &&& r.mask)) :=
  completes_wrN hg h (notStep_of_kind h (by decide)) ((regEffect_word h h1 rfl).trans (blockWrite_ftl (writes_block h)))
    (ftlValue_lt (Nat.and_le_right.trans_lt h2))

/-! Pairs (00 R14). -/

theorem completes_holdPair (hg : General i) (h : Writes s i page off a k n r false) (h1 : r.pair = true)
    (h4 : stateGate s k n page off = .take) :
    Completes i s (parts [.pairs, .signals]) (fun t =>
      storeGet t.pairWrite (pairKey a.func.val page off) none = some a.data ∧ t.rd64 page off = s.rd64 page off) :=
  completes_write hg h (notStep_of_pair h h1) (regEffect_lo h h1 h4) (by simp)
    ((changes_pairWrite (by simp)).2 (Changes.refl _ _)) (by simp [holdPair, State.rd64, State.rd])

/-- The words of a pair and the hold of its LO. -/
theorem changes_pairEffect {key : Nat} {v : W64} :
    Changes s ((unholdPair s key).wr64 page lo v) (also (parts [.pairs]) (words page [lo, lo + 4])) := by
  rw [changes_wr64 (.inr (.inr ⟨lo, by simp, rfl⟩)) (.inr (.inr ⟨lo + 4, by simp, rfl⟩)), unholdPair, changes_pairWrite (.inl (by simp))]
  exact Changes.refl _ _

theorem pairEffect_file {mask func : Nat} {v : W64} (h : filePair k lo) :
    pairEffect k n page lo mask func v s = s.wr64 page lo (v &&& BitVec.ofNat 64 mask) := by
  obtain ⟨hcore, hberth⟩ := h
  cases k with
  | core => simp [pairEffect, hcore rfl]
  | berth =>
    have hb := hberth rfl
    have hd : ¬ (decide (0x100 ≤ lo) && decide (lo < 0x200)) = true := by
      simp only [Bool.and_eq_true, decide_eq_true_eq]
      omega
    exact if_neg hd
  | _ => rfl

theorem completes_filePair (hg : General i) (h : Writes s i page (lo + 4) a k n r true) (h1 : r.pair = true) (h2 : filePair k lo)
    (h4 : stateGate s k n page (lo + 4) = .take) :
    Completes i s (also (parts [.pairs]) (words page [lo, lo + 4])) (fun t =>
      t.rd64 page lo = (a.data ++ heldLo s a.func k n page lo) &&& BitVec.ofNat 64 r.mask ∧
        storeGet t.pairWrite (pairKey a.func.val page lo) none = none) :=
  completes_write hg h (notStep_of_pair h h1) ((regEffect_hi h h1 h4).trans (pairEffect_file h2)) (.inr (.inl rfl))
    changes_pairEffect ⟨by simp, by simp [unholdPair]⟩

/-- RBASE of a region that is not bound. -/
theorem pairEffect_rbase {b mask func : Nat} {v : W64} (hn : n < 16) (h2 : regionBound s b n = false) :
    pairEffect .berth b (pgBerth b) (0x100 + 16 * n) mask func v s =
      s.wr64 (pgBerth b) (0x100 + 16 * n)
        (BitVec.ofNat 64 (v.toNat / granule (regionTier s b n) * granule (regionTier s b n))) := by
  have hd : (decide (0x100 ≤ 0x100 + 16 * n) && decide (0x100 + 16 * n < 0x200)) = true := by
    simp only [Bool.and_eq_true, decide_eq_true_eq]
    omega
  have hq : (0x100 + 16 * n - 0x100) / 16 = n := by omega
  simp only [pairEffect, hd, if_true, hq, writeRbase, h2, Bool.false_eq_true, if_false]

theorem stateGate_rbase {b page : Nat} (hn : n < 16) (h2 : regionBound s b n = false) :
    stateGate s .berth b page (0x100 + 16 * n + 4) = .take := by
  have hq : (0x100 + 16 * n + 4 - 0x100) / 16 = n := by omega
  simp only [stateGate, hq, h2, Bool.and_false, Bool.false_eq_true, if_false]

theorem completes_rbase {b : Nat} (hg : General i) (hn : n < 16) (h : Writes s i (pgBerth b) (0x100 + 16 * n + 4) a .berth b r true)
    (h1 : r.pair = true) (h2 : regionBound s b n = false) :
    Completes i s (also (parts [.pairs]) (words (pgBerth b) [0x100 + 16 * n, 0x100 + 16 * n + 4])) (fun t =>
      t.rd64 (pgBerth b) (0x100 + 16 * n) =
        BitVec.ofNat 64 ((a.data ++ heldLo s a.func .berth b (pgBerth b) (0x100 + 16 * n)).toNat / granule (regionTier s b n)
          * granule (regionTier s b n))) :=
  completes_write hg h (notStep_of_pair h h1) ((regEffect_hi h h1 (stateGate_rbase hn h2)).trans (pairEffect_rbase hn h2))
    (.inr (.inl rfl)) changes_pairEffect (by rw [signal_rd64, rd64_wr64_same]; rfl)

/-! A core's own registers (05 R122, the core page). -/

theorem stateGate_core {page : Nat} (h4 : coreQuiet (s.core (BitVec.ofNat 12 n)) = true) : stateGate s .core n page off = .take := by
  simp [stateGate, h4]

theorem part_core_ofNat (n : Nat) : Part.core (BitVec.ofNat 12 n).toNat = .core (n % 4096) := by rw [BitVec.toNat_ofNat]

theorem completes_coreOwnPair (hg : General i) (h : Writes s i page (lo + 4) a .core n r true) (h1 : r.pair = true)
    (h2 : coreOwn lo = true) (h4 : coreQuiet (s.core (BitVec.ofNat 12 n)) = true) {w : W64}
    (hw : w = a.data ++ heldLo s a.func .core n page lo) :
    Completes i s (parts [.pairs, .core (n % 4096), .signals]) (fun t =>
      t.core (BitVec.ofNat 12 n) = (if lo = 0x050 then { s.core (BitVec.ofNat 12 n) with pc := w &&& ~~~7 }
        else (s.core (BitVec.ofNat 12 n)).setS ((lo - 0x100) / 8) w)) := by
  have he : regEffect page (lo + 4) a s a.data =
      writeCore64 (BitVec.ofNat 12 n) lo w (unholdPair s (pairKey a.func.val page lo)) := by
    rw [regEffect_hi h h1 (stateGate_core h4), ← hw]
    simp only [pairEffect, h2, if_true]
  refine completes_write hg h (notStep_of_pair h h1) he (by simp) ?_ ?_
  · rw [writeCore64, changes_updCore (by rw [part_core_ofNat]; simp), unholdPair, changes_pairWrite (by simp)]
    exact Changes.refl _ _
  · rw [signal_core, writeCore64, updCore_core]
    rfl

theorem blockWrite_aflags {mask func : Nat} {v : W32} :
    blockWrite .core n page 0x06C mask func s v = updCore s (BitVec.ofNat 12 n) (fun c => { c with aflags := v &&& 0xFF }) := rfl

theorem completes_aflags (hg : General i) (h : Writes s i page 0x06C a .core n r false) (h1 : r.pair = false)
    (h4 : coreQuiet (s.core (BitVec.ofNat 12 n)) = true) :
    Completes i s (parts [.core (n % 4096), .signals]) (fun t =>
      t.core (BitVec.ofNat 12 n) = { s.core (BitVec.ofNat 12 n) with aflags := a.data &&& 0xFF }) := by
  refine completes_write hg h (notStep_of_kind h (by decide))
    ((regEffect_word h h1 (stateGate_core h4)).trans blockWrite_aflags) (by simp) ?_ ?_
  · exact (changes_updCore (by rw [part_core_ofNat]; simp)).2 (Changes.refl _ _)
  · rw [signal_core, updCore_core]

/-! A register in a state that does not take the write. -/

theorem completes_wrongState (hg : General i) (h : Writes s i page off a k n r hi) (h1 : stateGate s k n page off = .refuse) :
    Completes i s accessParts (fun t => Refused s t) := by
  have hk : k ≠ .debug := by
    rintro rfl
    exact absurd h1 (by simp [stateGate])
  exact completes_accessRefused ((exec_of_writes hg h (notStep_of_kind h hk)).trans (congrArg finish (regEffect_refused h h1)))

/-! Events by the host (17 R438 to R440). -/

/-- The gate takes only writes of registers that are listed. -/
theorem listed_of_takes (h : writeGate s page off a = .take) :
    ∃ k n r j hi, pageAt page = some (k, n) ∧ rowAt page off = some (r, j, hi) := by
  have hc : vfClosed s a.func.val = false := by
    by_contra hx
    rw [writeGate_closed (by simpa using hx)] at h
    cases h
  cases hr : rowAt page off with
  | none =>
    rw [writeGate_unlisted hc hr] at h
    cases h
  | some y =>
    cases hp : pageAt page with
    | none => simp [rowAt, hp] at hr
    | some x => exact ⟨x.1, x.2, y.1, y.2.1, y.2.2, rfl, rfl⟩

theorem eventWords_in_words {p : Part} (h : p ∈ eventWords page) : words page [0x010, 0x01C, 0x020, 0x024] p :=
  .inr (eventWords_offs.1 h)

theorem completes_clears (hw : HostWriteOf i page 0x010 a) (h : HostTakes s page 0x010 a) :
    Completes i s (words page [0x010, 0x01C, 0x020, 0x024]) (fun t =>
      t.rd page 0x010 = s.rd page 0x010 &&& ~~~a.data ∧
        t.rd page 0x01C = (if s.get ⟨page, 0x01C, 0, 16⟩ ≠ 0 ∧ a.data.getLsbD (s.get ⟨page, 0x01C, 16, 5⟩) = true then 0
          else s.rd page 0x01C) ∧
        t.rd64 page 0x020 = (if s.rd page 0x010 &&& ~~~a.data = 0 then 0 else s.rd64 page 0x020)) := by
  obtain ⟨k, n, r, j, hi, hp, hr⟩ := listed_of_takes h.2
  have he : regEffect page 0x010 a s a.data = clearEvt s page a.data := by simp only [regEffect, hp, hr, if_true]
  refine completes_header hw h (by decide) (by decide) he (.inl rfl) ?_ ⟨?_, ?_, ?_⟩
  · exact (changes_clearEvt (fun _ hx => eventWords_in_words hx)).2 (Changes.refl _ _)
  · rw [signal_rd, rd_clearEvt_evt]
  · rw [signal_rd, rd_clearEvt_code]
  · rw [signal_rd64, rd64_clearEvt_tide]

theorem completes_enables (hw : HostWriteOf i page 0x014 a) (h : HostTakes s page 0x014 a) (h1 : pageAt page = some (k, n))
    (h2 : ∃ j, rowAt page 0x014 = some (r, j, hi)) :
    Completes i s (words page [0x014]) (fun t => t.rd page 0x014 = a.data &&& BitVec.ofNat 32 r.mask) := by
  obtain ⟨j, hr⟩ := h2
  have he : regEffect page 0x014 a s a.data = s.wr page 0x014 (a.data &&& BitVec.ofNat 32 r.mask) := by simp [regEffect, h1, hr]
  exact completes_header hw h (by decide) (by decide) he (.inl rfl)
    ((changes_wr (.inr ⟨0x014, List.mem_singleton_self _, rfl⟩)).2 (Changes.refl _ _)) (by simp)

/-- EVT_SET with what forceEvt makes of it. -/
theorem regEffect_evtSet (h : HostTakes s page 0x018 a) (h1 : pageAt page = some (k, n)) :
    regEffect page 0x018 a s a.data = forceEvt k page a s := by
  obtain ⟨_, _, r, j, hi, _, hr⟩ := listed_of_takes h.2
  simp [regEffect, h1, hr]

/-- The bits that EVT_SET forces: those written 1 that the page has. -/
abbrev forcedBits (k : PageKind) (v : W32) : List Nat := (List.range 32).filter (fun b => v.getLsbD b && (pageEvtMask k).testBit b)

theorem rd_forceBits_evt (k : PageKind) (page : Nat) (v : W32) (s : State) :
    ((forcedBits k v).foldl (fun t b => forceBit k page b t) s).rd page 0x010 =
      s.rd page 0x010 ||| (v &&& BitVec.ofNat 32 (pageEvtMask k)) := by
  refine BitVec.eq_of_getLsbD_eq (fun j hj => ?_)
  rw [getLsbD_forceBits k page j _ hj, BitVec.getLsbD_or, BitVec.getLsbD_and, BitVec.getLsbD_ofNat]
  simp [forcedBits, hj]

theorem completes_forces (hw : HostWriteOf i page 0x018 a) (h : HostTakes s page 0x018 a) (h1 : pageAt page = some (k, n))
    (h2 : a.func.val = 0) (h3 : 2 ≤ debugLevel s) :
    Completes i s (also (wordsAndEvent page []) (parts [.fresh])) (fun t =>
      t.rd page 0x010 = s.rd page 0x010 ||| (a.data &&& BitVec.ofNat 32 (pageEvtMask k))) := by
  have he : regEffect page 0x018 a s a.data = (forcedBits k a.data).foldl (fun t b => forceBit k page b t) s := by
    rw [regEffect_evtSet h h1]
    have hd : ¬ debugLevel s < 2 := by omega
    exact if_neg (by simp [h2, hd])
  refine completes_header hw h (by decide) (by decide) he (.inl (.inl (.inl rfl))) ?_ ?_
  · refine (changes_foldl (fun t b => changes_forceBit (fun x hx => ?_) ?_ ?_) _).2 (Changes.refl _ _)
    · exact .inl (.inr (eventParts_of_mem hx))
    · exact .inl (.inr (by simp))
    · exact .inr (by simp)
  · rw [signal_rd, rd_forceBits_evt]

theorem completes_forceRefused (hw : HostWriteOf i page 0x018 a) (h : HostTakes s page 0x018 a) (h1 : pageAt page = some (k, n))
    (h2 : a.func.val ≠ 0 ∨ debugLevel s < 2) : Completes i s accessParts (fun t => Refused s t) := by
  have he : regEffect page 0x018 a s a.data = writeRefused s page 0x018 a := by
    rw [regEffect_evtSet h h1]
    exact if_pos (by simpa using h2)
  exact completes_header hw h (by decide) (by decide) he (.inl (.inl rfl))
    ((changes_accessRefused (fun _ h => h)).2 (Changes.refl _ _)) (refused_signal (refused_accessRefused ..))

end Sys2Proof.Claims

open Sys2Proof Sys2Proof.Machine Sys2Proof.Claims

/-- Settles O43: a write that the gate takes has its register's effect, one lemma for each kind of register. -/
theorem registerWriteResults : Obligations.RegisterWriteResults := by
  intro s i may post row
  cases row with
  | plain page off a k n r hi hg h h1 h2 h3 h4 =>
    exact completes_wr hg h (notStep_of_plain h h2) ((regEffect_word h h1 h4).trans (blockWrite_plain h2 (writes_block h)))
  | clamped page off v a k n r hi hg h h1 h4 => exact completes_clamped hg h h1 h4
  | group page off a n r hi hg h h1 h2 h3 h4 =>
    exact completes_wr hg h (notStep_of_kind h (by decide))
      ((regEffect_word h h1 h4).trans (blockWrite_gtab h3 (writes_off_lt hg h) (writes_block h) h2))
  | flashLayer off a n r hi hg h h1 h2 => exact completes_flashLayer hg h h1 h2
  | regionBase b n a r hg hb hn h h1 h2 w h3 =>
    subst h3
    rw [show 0x104 + 16 * n = 0x100 + 16 * n + 4 by omega] at h ⊢
    exact completes_rbase hg hn h h1 h2
  | coreOwnPair page lo a n r hg h h1 h2 h3 h4 w h5 => exact completes_coreOwnPair hg h h1 h2 h4 h5
  | aflags page a n r hg h h1 h4 => exact completes_aflags hg h h1 h4
  | wrongState page off a k n r hi hg h h1 => exact completes_wrongState hg h h1
  | pairLo page off a k n r hg h h1 h4 => exact completes_holdPair hg h h1 h4
  | pairHi page lo a k n r hg h h1 h2 h4 => exact completes_filePair hg h h1 h2 h4
  | clears page a hi h => exact completes_clears hi h
  | enables page a k n r hi hw h h1 h2 => exact completes_enables hw h h1 h2
  | forces page a k n hi h h1 h2 h3 => exact completes_forces hi h h1 h2 h3
  | forceRefused page a k n hi h h1 h2 => exact completes_forceRefused hi h h1 h2
end

section
/-! SUPPORT. Fields of a register word: what a field reads as once it, or another field, has been written. -/

namespace Sys2Proof.Machine

theorem testBit_bitsOf (v lo w i : Nat) : (bitsOf v lo w).testBit i = (decide (i < w) && v.testBit (lo + i)) := by
  rw [bitsOf, Nat.testBit_mod_two_pow, Nat.testBit_div_two_pow, Nat.add_comm]

theorem testBit_setBits (v lo w x i : Nat) :
    (setBits v lo w x).testBit i = if lo ≤ i ∧ i < lo + w then x.testBit (i - lo) else v.testBit i := by
  have hs : setBits v lo w x = 2 ^ lo * (2 ^ w * (v / 2 ^ (lo + w)) + x % 2 ^ w) + v % 2 ^ lo := by
    rw [setBits, Nat.pow_add]
    ring
  rw [hs, Nat.testBit_two_pow_mul_add _ (Nat.mod_lt _ (by positivity)),
    Nat.testBit_two_pow_mul_add _ (Nat.mod_lt _ (by positivity)), Nat.testBit_div_two_pow, Nat.testBit_mod_two_pow,
    Nat.testBit_mod_two_pow]
  by_cases h1 : i < lo
  · simp [h1, Nat.not_le.2 h1]
  · by_cases h2 : i < lo + w
    · simp [h1, h2, Nat.not_lt.1 h1, show i - lo < w by omega]
    · simp [h1, h2, show ¬ i - lo < w by omega, show i - lo - w + (lo + w) = i by omega]

theorem bitsOf_lt (v lo w : Nat) : bitsOf v lo w < 2 ^ w := Nat.mod_lt _ (by positivity)

theorem get_lt (s : State) (f : Fld) : s.get f < 2 ^ f.width := bitsOf_lt ..

/-- A bit of a word in which a field has been written. -/
theorem testBit_rdN_put (s : State) (f : Fld) (v i : Nat) :
    ((s.put f v).rdN f.page f.off).testBit i =
      (decide (i < 32) && if f.lo ≤ i ∧ i < f.lo + f.width then v.testBit (i - f.lo) else (s.rdN f.page f.off).testBit i) := by
  rw [State.put, State.rdN, rd_wrN_same, BitVec.toNat_ofNat, Nat.testBit_mod_two_pow, testBit_setBits]

/-- A field just written reads as the low bits of the value. -/
theorem get_put_same (s : State) {p o l w : Nat} (v : Nat) (h : l + w ≤ 32) : (s.put ⟨p, o, l, w⟩ v).get ⟨p, o, l, w⟩ = v % 2 ^ w := by
  refine Nat.eq_of_testBit_eq (fun i => ?_)
  rw [State.get, testBit_bitsOf, testBit_rdN_put s ⟨p, o, l, w⟩, Nat.testBit_mod_two_pow]
  by_cases hi : i < w
  · simp [hi, show l + i < 32 by omega]
  · simp [hi]

/-- Two fields share no bit: they lie in different words, or in different bits of one word. -/
abbrev Fld.Apart (f g : Fld) : Prop :=
  regKey g.page g.off ≠ regKey f.page f.off ∨
    (g.page = f.page ∧ g.off = f.off ∧ g.lo + g.width ≤ 32 ∧ (g.lo + g.width ≤ f.lo ∨ f.lo + f.width ≤ g.lo))

theorem get_eq_of_rd {s t : State} {f : Fld} (h : t.rd f.page f.off = s.rd f.page f.off) : t.get f = s.get f := by
  rw [State.get, State.get, State.rdN, State.rdN, h]

/-- A field apart from the one written reads as before. -/
theorem get_put_apart (s : State) {f g : Fld} (v : Nat) (h : Fld.Apart f g) : (s.put f v).get g = s.get g := by
  rcases h with hk | ⟨hp, ho, hx, hb⟩
  · exact get_eq_of_rd (rd_wr_other _ _ hk)
  · refine Nat.eq_of_testBit_eq (fun i => ?_)
    rw [State.get, State.get, testBit_bitsOf, testBit_bitsOf, hp, ho, testBit_rdN_put]
    by_cases hi : i < g.width
    · simp [show g.lo + i < 32 by omega, show ¬ (f.lo ≤ g.lo + i ∧ g.lo + i < f.lo + f.width) by omega]
    · simp [hi]

theorem rd_put_other (s : State) {f : Fld} {p o : Nat} (v : Nat) (h : regKey p o ≠ regKey f.page f.off) : (s.put f v).rd p o = s.rd p o :=
  rd_wr_other _ _ h

end Sys2Proof.Machine
end

section
/-! SUPPORT. What the tide's shared operations change, and what is read after them: the tide unit, fields of registers, events, the
closing of debug access, and beacons sent. -/

namespace Sys2Proof.Claims
open Sys2Proof.Machine

variable {s t : State} {may : Part → Prop} {f : Fld}

/-! What may not change reads as before. -/

theorem get_eq_of_changes (h : Changes s t may) (ho : f.off < 4096) (hk : ¬ may (.reg (regKey f.page f.off))) : t.get f = s.get f :=
  get_eq_of_rd (h.rd_eq ho hk)

theorem bit_eq_of_get (h : t.get f = s.get f) : t.bit f = s.bit f := by rw [State.bit, State.bit, h]

theorem tide_eq_of_changes (h : Changes s t may) (hk : ¬ may .tide) : t.tide = s.tide := h _ hk

@[simp] theorem words_iff (page : Nat) (offs : List Nat) (p : Part) :
    words page offs p ↔ p = .signals ∨ ∃ o ∈ offs, p = .reg (regKey page o) := Iff.rfl

theorem words_mono {page : Nat} {l m : List Nat} (h : l ⊆ m) {p : Part} (hp : words page l p) : words page m p :=
  hp.imp_right (fun ⟨o, ho, e⟩ => ⟨o, h ho, e⟩)

/-- Words of the TIDE page and the tide unit, among more words of the page. -/
theorem tideWords_mono {l m : List Nat} (h : l ⊆ m) (p : Part) :
    also (words pgTide l) (parts [.tide]) p → also (words pgTide m) (parts [.tide]) p := Or.imp_left (words_mono h)

/-- … and with its events. -/
theorem tideEvents_mono {l m : List Nat} (h : l ⊆ m) (p : Part) :
    also (words pgTide l) (parts [.tide]) p → also (wordsAndEvent pgTide m) (parts [.tide]) p :=
  Or.imp_left (fun hp => .inl (words_mono h hp))

@[simp] theorem reg_eq_iff (page o r : Nat) : regKey page o = regKey page r ↔ o = r := by
  unfold regKey
  omega

@[simp] theorem signal_isRoot (s : State) : isRoot (signal s) = isRoot s := signal_bit ..
@[simp] theorem signal_tideState (s : State) : tideState (signal s) = tideState s := signal_get ..
@[simp] theorem signal_tideValid (s : State) : (signal s).tideValid = s.tideValid := signal_bit ..
@[simp] theorem signal_standing (s : State) : (signal s).standing = s.standing := signal_bit ..
@[simp] theorem signal_debugLevel (s : State) : debugLevel (signal s) = debugLevel s := signal_get ..

/-! A pair written. -/

theorem rd_wr64_apart (s : State) {p o q r : Nat} (v : W64) (h : regKey q r ≠ regKey p o ∧ regKey q r ≠ regKey p (o + 4)) :
    (s.wr64 p o v).rd q r = s.rd q r := (rd_wr_other _ _ h.2).trans (rd_wr_other _ _ h.1)

theorem get_wr64_apart (s : State) {p o : Nat} (v : W64)
    (h : regKey f.page f.off ≠ regKey p o ∧ regKey f.page f.off ≠ regKey p (o + 4)) : (s.wr64 p o v).get f = s.get f :=
  get_eq_of_rd (rd_wr64_apart s v h)

/-! The tide unit. -/

@[simp] theorem updTide_tide (s : State) (g : Tide → Tide) : (updTide s g).tide = g s.tide := rfl
@[simp] theorem updTide_rd (s : State) (g : Tide → Tide) (p o : Nat) : (updTide s g).rd p o = s.rd p o := (rfl)
@[simp] theorem updTide_get (s : State) (g : Tide → Tide) (f : Fld) : (updTide s g).get f = s.get f := (rfl)

@[simp] theorem updTide_bit (s : State) (g : Tide → Tide) (f : Fld) : (updTide s g).bit f = s.bit f := (rfl)
@[simp] theorem updTide_isRoot (s : State) (g : Tide → Tide) : isRoot (updTide s g) = isRoot s := updTide_bit ..
@[simp] theorem updTide_tideState (s : State) (g : Tide → Tide) : tideState (updTide s g) = tideState s := updTide_get ..

@[simp] theorem changes_updTide {g : Tide → Tide} (h : may .tide) : Changes s (updTide t g) may ↔ Changes s t may := changes_tide h

/-- The correction, and its word. -/
@[simp] theorem setCorr_tide (s : State) (c : Int) : (setCorr s c).tide = { s.tide with corr := c } := rfl

theorem setCorr_rd (s : State) (c : Int) {p o : Nat} (h : regKey p o ≠ regKey pgTide 0x078) : (setCorr s c).rd p o = s.rd p o :=
  rd_wr_other _ _ h

theorem setCorr_get (s : State) (c : Int) (h : regKey f.page f.off ≠ regKey pgTide 0x078) : (setCorr s c).get f = s.get f :=
  get_eq_of_rd (setCorr_rd s c h)

@[simp] theorem changes_setCorr {c : Int} (h : may .tide) (h' : may (.reg (regKey pgTide 0x078))) :
    Changes s (setCorr t c) may ↔ Changes s t may := by
  rw [setCorr, changes_wr h', changes_updTide h]

/-! Events. -/

theorem rd_raise (s : State) (page bit code q r : Nat) :
    (raise s page bit code).rd q r = (setEvt s page bit code false).rd q r := by
  simp only [raise]
  split
  · rfl
  · exact logAdd_rd ..

/-- An event changes its parts and nothing else. -/
theorem raise_changes (s : State) (page bit code : Nat) : Changes s (raise s page bit code) (eventParts page) :=
  (changes_raise (fun _ hx => eventParts_of_mem hx) (by simp)).2 (Changes.refl _ _)

theorem raiseWith_changes (s : State) (page bit code : Nat) (d : W32 × W32 × W32 × W32) :
    Changes s (raiseWith s page bit code d) (eventParts page) :=
  (changes_raiseWith (fun _ hx => eventParts_of_mem hx) (by simp)).2 (Changes.refl _ _)

@[simp] theorem raise_tide (s : State) (page bit code : Nat) : (raise s page bit code).tide = s.tide :=
  tide_eq_of_changes (raise_changes s page bit code) (by simp)

@[simp] theorem raiseWith_tide (s : State) (page bit code : Nat) (d : W32 × W32 × W32 × W32) : (raiseWith s page bit code d).tide = s.tide :=
  tide_eq_of_changes (raiseWith_changes s page bit code d) (by simp)

/-- The field lies in no word that an event of the page changes. -/
abbrev OffEvent (page : Nat) (f : Fld) : Prop := f.off < 4096 ∧ (f.page ≠ page ∨ f.off ∉ [0x010, 0x01C, 0x020, 0x024])

theorem raise_get (s : State) {page bit code : Nat} (h : OffEvent page f) : (raise s page bit code).get f = s.get f :=
  get_eq_of_rd ((rd_raise ..).trans (rd_setEvt_other s h.1 h.2))

theorem eventSet_raise (s : State) (page bit code : Nat) : EventSet s (raise s page bit code) page bit :=
  (rd_raise ..).trans (rd_setEvt_evt ..)

theorem eventSet_raiseWith (s : State) (page bit code : Nat) (d : W32 × W32 × W32 × W32) :
    EventSet s (raiseWith s page bit code d) page bit :=
  (rd_raiseWith ..).trans (rd_setEvt_evt ..)

@[simp] theorem logAdd_get (s : State) (e : LogEntry) (f : Fld) : (logAdd s e).get f = s.get f := get_eq_of_rd (logAdd_rd ..)

@[simp] theorem logAdapt_tide (s : State) (page d : Nat) (ends : Bool) : (logAdapt s page ends d).tide = s.tide := logAdd_tide ..
@[simp] theorem logAdapt_rd (s : State) (page d : Nat) (ends : Bool) (p o : Nat) : (logAdapt s page ends d).rd p o = s.rd p o :=
  logAdd_rd ..
@[simp] theorem logAdapt_get (s : State) (page d : Nat) (ends : Bool) (f : Fld) : (logAdapt s page ends d).get f = s.get f :=
  logAdd_get ..

/-- An event of the TIDE page where its parts may change. -/
theorem changes_tideEvent {bit : Nat} (h : ∀ p, eventParts pgTide p → may p) : Changes s (tideEvent t bit) may ↔ Changes s t may :=
  changes_raise (fun _ hx => h _ (eventParts_of_mem hx)) (h _ (by simp))

/-! The tide enters a state, with an event that says so. -/

theorem tideState_entered (s : State) {n : Nat} (bit code : Nat) (hn : n < 8) :
    tideState (raise (s.put fTideState n) pgTide bit code) = n := by
  rw [tideState, raise_get _ (by decide), get_put_same _ _ (by decide)]
  exact Nat.mod_eq_of_lt hn

theorem eventSet_entered (s : State) (n bit code : Nat) : EventSet s (raise (s.put fTideState n) pgTide bit code) pgTide bit := by
  rw [EventSet, eventSet_raise, rd_put_other _ _ (by decide)]

theorem entered_get (s : State) (n bit code : Nat) (h : OffEvent pgTide f) (ha : Fld.Apart fTideState f) :
    (raise (s.put fTideState n) pgTide bit code).get f = s.get f :=
  (raise_get _ h).trans (get_put_apart _ _ ha)

theorem changes_entered {n bit code : Nat} (h : may (.reg (regKey pgTide 0x00C))) (he : ∀ p, eventParts pgTide p → may p) :
    Changes s (raise (t.put fTideState n) pgTide bit code) may ↔ Changes s t may := by
  rw [changes_raise (fun _ hx => he _ (eventParts_of_mem hx)) (he _ (by simp))]
  exact changes_put h

/-- The end of an adaptation, where it was under way. -/
@[simp] theorem ite_logAdapt_tide (s : State) (c : Prop) [Decidable c] (d : Nat) (ends : Bool) :
    (if c then logAdapt s pgTide ends d else s).tide = s.tide := by
  split
  · exact logAdapt_tide ..
  · rfl

@[simp] theorem ite_logAdapt_rd (s : State) (c : Prop) [Decidable c] (d : Nat) (ends : Bool) (p o : Nat) :
    (if c then logAdapt s pgTide ends d else s).rd p o = s.rd p o := by
  split
  · exact logAdapt_rd ..
  · rfl

@[simp] theorem ite_logAdapt_get (s : State) (c : Prop) [Decidable c] (d : Nat) (ends : Bool) (f : Fld) :
    (if c then logAdapt s pgTide ends d else s).get f = s.get f := get_eq_of_rd (ite_logAdapt_rd ..)

@[simp] theorem changes_ite_logAdapt {c : Prop} [Decidable c] {d : Nat} {ends : Bool} (h : may .log) :
    Changes s (if c then logAdapt t pgTide ends d else t) may ↔ Changes s t may := by
  split
  · exact changes_logAdapt h
  · rfl

/-! Debug access closes (19 R478). -/

theorem changes_shutDebug (h : ∀ p, debugCloses p → may p) : Changes s (shutDebug t) may ↔ Changes s t may := by
  have h1 : may (.reg (regKey pgDebug 0x00C)) := h _ (by simp)
  have h2 : may (.reg (regKey pgDebug 0x0C0)) := h _ (by simp)
  have h3 : may .debug := h _ (by simp)
  have h4 : may .tap := h _ (by simp)
  have hu (u : State) : Changes s { u with responding := false, tapIr := 1 } may ↔ Changes s u may :=
    (changes_tapIr (t := { u with responding := false }) h4).trans (changes_responding h3)
  simp only [shutDebug]
  rw [hu]
  split <;> simp [h1, h2]

theorem closeDebug_changes (s : State) : Changes s (closeDebug s) debugCloses := by
  unfold closeDebug
  split
  · exact Changes.refl _ _
  · exact (changes_raise (fun _ hx => .inl (.inr (eventParts_of_mem hx))) (by simp)).2
      ((changes_shutDebug (fun _ h => h)).2 (Changes.refl _ _))

theorem changes_closeDebug (h : ∀ p, debugCloses p → may p) : Changes s (closeDebug t) may ↔ Changes s t may :=
  Changes.step_iff ((closeDebug_changes t).mono h)

@[simp] theorem closeDebug_tide (s : State) : (closeDebug s).tide = s.tide := tide_eq_of_changes (closeDebug_changes s) (by simp)

theorem closeDebug_rd (s : State) {p o : Nat} (ho : o < 4096) (hp : p ≠ pgDebug) : (closeDebug s).rd p o = s.rd p o := by
  refine (closeDebug_changes s).rd_eq ho (fun hm => ?_)
  simp only [also_iff, words_iff, List.mem_cons, List.not_mem_nil, or_false, Part.reg.injEq, reduceCtorEq, exists_eq_or_imp,
    exists_eq_left, false_or] at hm
  unfold regKey at hm
  omega

theorem closeDebug_get (s : State) (h : f.off < 4096 ∧ f.page ≠ pgDebug) : (closeDebug s).get f = s.get f :=
  get_eq_of_rd (closeDebug_rd s h.1 h.2)

theorem debugLevel_shutDebug (s : State) : debugLevel (shutDebug s) = 0 := by
  have hu (u : State) : debugLevel { u with responding := false, tapIr := 1 } = u.get fDebugLevel := rfl
  have h0 : (((s.put fDebugLevel 0).put fNoExpiry 0).wr pgDebug 0x0C0 0).get fDebugLevel = 0 := by
    rw [get_eq_of_rd (rd_wr_other _ _ (by decide)), get_put_apart _ _ (by decide), get_put_same _ _ (by decide)]
    rfl
  simp only [shutDebug]
  rw [hu]
  split
  · rw [get_put_apart _ _ (by decide), get_put_apart _ _ (by decide), h0]
  · exact h0

theorem debugLevel_closeDebug (s : State) : debugLevel (closeDebug s) = 0 := by
  unfold closeDebug
  split
  · assumption
  · exact (raise_get _ (by decide)).trans (debugLevel_shutDebug s)

theorem changes_tideBecameValid (h : ∀ p, debugCloses p → may p) : Changes s (tideBecameValid t) may ↔ Changes s t may := by
  unfold tideBecameValid
  split
  · exact changes_closeDebug h
  · rfl

@[simp] theorem tideBecameValid_tide (s : State) : (tideBecameValid s).tide = s.tide := by
  unfold tideBecameValid
  split
  · exact closeDebug_tide s
  · rfl

theorem tideBecameValid_get (s : State) (h : f.off < 4096 ∧ f.page ≠ pgDebug) : (tideBecameValid s).get f = s.get f := by
  unfold tideBecameValid
  split
  · exact closeDebug_get s h
  · rfl

/-! Beacons sent. -/

/-- Sending adds to the outputs, one beacon for each trained link, and touches nothing else. -/
theorem sendOn_eq (s : State) (b : BeaconMsg) (skip : Option Nat) :
    sendOn s b skip = { s with out := s.out ++ ((trainedLinks s).filter (fun n => some n != skip)).map (fun n => .beacon n (beaconBytes b)) } := by
  unfold sendOn
  generalize (trainedLinks s).filter (fun n => some n != skip) = l
  induction l generalizing s with
  | nil => simp
  | cons n l ih =>
    rw [List.foldl_cons, ih]
    simp [State.emit]

@[simp] theorem sendOn_tide (s : State) (b : BeaconMsg) (skip : Option Nat) : (sendOn s b skip).tide = s.tide := by rw [sendOn_eq]
@[simp] theorem sendOn_boot (s : State) (b : BeaconMsg) (skip : Option Nat) : (sendOn s b skip).boot = s.boot := by rw [sendOn_eq]
@[simp] theorem sendOn_regs (s : State) (b : BeaconMsg) (skip : Option Nat) : (sendOn s b skip).regs = s.regs := by rw [sendOn_eq]
@[simp] theorem sendOn_rd (s : State) (b : BeaconMsg) (skip : Option Nat) (p o : Nat) : (sendOn s b skip).rd p o = s.rd p o :=
  rd_eq_of_regs (sendOn_regs ..) p o
@[simp] theorem sendOn_rd64 (s : State) (b : BeaconMsg) (skip : Option Nat) (p o : Nat) : (sendOn s b skip).rd64 p o = s.rd64 p o := by
  simp [State.rd64]
@[simp] theorem sendOn_get (s : State) (b : BeaconMsg) (skip : Option Nat) (f : Fld) : (sendOn s b skip).get f = s.get f :=
  get_eq_of_rd (sendOn_rd ..)

@[simp] theorem changes_sendOn {b : BeaconMsg} {skip : Option Nat} (h : may .signals) :
    Changes s (sendOn t b skip) may ↔ Changes s t may := by
  rw [sendOn_eq, changes_out h]

/-- Every trained link but the one left out has the beacon, once interrupts have been signalled too. -/
theorem flooded_sendOn {u : State} {b : BeaconMsg} {skip : Option Nat} (h : ∀ n, trained u n = trained s n) :
    Flooded s (signal (sendOn u b skip)) (beaconBytes b) skip := by
  intro n hn ht hs
  refine mem_out_signal ?_
  rw [sendOn_eq]
  refine List.mem_append_right _ (List.mem_map.2 ⟨n, ?_, rfl⟩)
  simp [trainedLinks, hn, h, ht, hs]

/-- The links are trained as before where only the TIDE page and the tide unit have changed. -/
theorem trained_of_changes {offs : List Nat} (h : Changes s t (also (words pgTide offs) (parts [.tide]))) (ho : ∀ o ∈ offs, o < 4096)
    (n : Nat) : trained t n = trained s n := by
  have hl : linkState t n = linkState s n := by
    refine get_eq_of_changes h (by simp) (fun hm => ?_)
    simp only [also_iff, words_iff, List.mem_singleton, reduceCtorEq, false_or, or_false, Part.reg.injEq] at hm
    obtain ⟨o, hmem, hk⟩ := hm
    have hlt := ho o hmem
    simp only [regKey, pgLnk, pgTide] at hk
    omega
  rw [trained, trained, hl]

/-- So are the links' delays. -/
theorem get_delay_of_changes {offs : List Nat} {link : Nat} (h : Changes s t (also (words pgTide offs) (parts [.tide])))
    (ho : ∀ o ∈ offs, o < 0x100) (hl : link < 16) (lo w : Nat) :
    t.get ⟨pgTide, 0x100 + 4 * link, lo, w⟩ = s.get ⟨pgTide, 0x100 + 4 * link, lo, w⟩ := by
  refine get_eq_of_changes h (by simp; omega) (fun hm => ?_)
  simp only [also_iff, words_iff, List.mem_singleton, reduceCtorEq, false_or, or_false, Part.reg.injEq, reg_eq_iff] at hm
  obtain ⟨o, hmem, hk⟩ := hm
  have hlt := ho o hmem
  omega

/-- A beacon depends on registers, the tide unit and the strap alone. -/
theorem ownBeacon_congr (hr : t.regs = s.regs) (ht : t.tide = s.tide) (hb : t.boot = s.boot) (notice cancel : Bool) :
    ownBeacon t notice cancel = ownBeacon s notice cancel :=
  calc ownBeacon t notice cancel
      = ownBeacon { s with regs := t.regs, tide := t.tide, boot := t.boot } notice cancel := rfl
    _ = ownBeacon s notice cancel := by rw [hr, ht, hb]

@[simp] theorem ownBeacon_sent (u : State) (b : BeaconMsg) (skip : Option Nat) (notice cancel : Bool) :
    ownBeacon (signal (sendOn u b skip)) notice cancel = ownBeacon u notice cancel := ownBeacon_congr (by simp) (by simp) (by simp) ..

end Sys2Proof.Claims
end

section
/-! SUPPORT. The root's commands (01 R24 to R30): writes of TIDE.CTRL, INIT, and the reference. -/

namespace Sys2Proof.Claims
open Sys2Proof.Machine

variable {s t u : State} {may : Part → Prop} {post : State → Prop} {a : Access} {i : Instr}

/-! How the tide's commands complete. -/

/-- A write that the gate takes has its effect. -/
theorem completes_taken {page off : Nat} {effect : State → W32 → State} (he : exec i s = hostWrite page off a effect s)
    (ht : HostTakes s page off a) (hu : effect s a.data = u) (hm : may .signals) (hc : Changes s u may) (hp : post (signal u)) :
    Completes i s may post := by
  obtain ⟨hup, hg⟩ := ht
  refine completes_finish (he.trans ?_) hm hc hp
  simp only [hostWrite, hup, hg, hu, Bool.not_true, Bool.false_eq_true, if_false]

/-- An event of a unit whose condition holds. -/
theorem completes_due {c : Bool} {v : State} (he : exec i s = if c then finish v else .next s) (hd : c = true) (hu : v = u)
    (hm : may .signals) (hc : Changes s u may) (hp : post (signal u)) : Completes i s may post :=
  completes_finish (he.trans ((if_pos hd).trans (congrArg finish hu))) hm hc hp

/-- A command that R30 or R44 refuses: 0x4009. -/
theorem completes_tideReject {page off : Nat} {effect : State → W32 → State} (he : exec i s = hostWrite page off a effect s)
    (ht : HostTakes s page off a) (hu : effect s a.data = tideReject s) :
    Completes i s (wordsAndEvent pgTide []) (fun t => EventSet s t pgTide 8) :=
  completes_taken he ht hu (.inl (.inl rfl)) ((changes_tideEvent (fun _ h => .inr h)).2 (Changes.refl _ _))
    ((signal_rd ..).trans (eventSet_raise ..))

/-! TIDE.CTRL. -/

/-- CTRL as a write leaves it: ROOT, USE_REF and SLEW_MAX as written, RUN set once it is written. -/
def ctrlWritten (s : State) (v : W32) : State :=
  let u := ((s.putBit fRoot (v.getLsbD 1)).putBit fUseRef (v.getLsbD 2)).put fSlewMax (min 200 (max 1 (bitsOf v.toNat 8 8)))
  if v.getLsbD 0 then u.put fRun 1 else u

@[simp] theorem changes_ctrlWritten {v : W32} (h : may (.reg (regKey pgTide 0x008))) :
    Changes s (ctrlWritten t v) may ↔ Changes s t may := by
  unfold ctrlWritten
  split <;> simp [h]

@[simp] theorem ctrlWritten_tide (s : State) (v : W32) : (ctrlWritten s v).tide = s.tide := by
  unfold ctrlWritten
  split <;> rfl

/-- Every other word reads as before. -/
theorem ctrlWritten_get (s : State) (v : W32) {f : Fld} (ho : f.off < 4096) (h : regKey f.page f.off ≠ regKey pgTide 0x008) :
    (ctrlWritten s v).get f = s.get f :=
  get_eq_of_changes ((changes_ctrlWritten (may := fun p => p = .reg (regKey pgTide 0x008)) rfl).2 (Changes.refl _ _)) ho
    (fun hm => h (Part.reg.inj hm))

theorem bit_putBit_same (s : State) {p o l : Nat} (b : Bool) (h : l + 1 ≤ 32) : (s.putBit ⟨p, o, l, 1⟩ b).bit ⟨p, o, l, 1⟩ = b := by
  rw [State.bit, State.putBit, get_put_same _ _ h]
  cases b <;> rfl

theorem bit_put_apart (s : State) {f g : Fld} (v : Nat) (h : Fld.Apart f g) : (s.put f v).bit g = s.bit g :=
  bit_eq_of_get (get_put_apart s v h)

theorem bit_putBit_apart (s : State) {f g : Fld} (b : Bool) (h : Fld.Apart f g) : (s.putBit f b).bit g = s.bit g :=
  bit_put_apart s _ h

theorem isRoot_ctrlWritten (s : State) (v : W32) : isRoot (ctrlWritten s v) = v.getLsbD 1 := by
  unfold isRoot ctrlWritten
  split <;> simp (disch := decide) only [bit_put_apart, bit_putBit_apart, bit_putBit_same]

theorem useRef_ctrlWritten (s : State) (v : W32) : (ctrlWritten s v).bit fUseRef = v.getLsbD 2 := by
  unfold ctrlWritten
  split <;> simp (disch := decide) only [bit_put_apart, bit_putBit_same]

theorem run_ctrlWritten (s : State) (v : W32) : (ctrlWritten s v).bit fRun = (v.getLsbD 0 || s.bit fRun) := by
  unfold ctrlWritten
  split
  · rename_i h
    rw [h, State.bit, get_put_same _ _ (by decide)]
    rfl
  · rename_i h
    simp (disch := decide) only [bit_put_apart, bit_putBit_apart, h, Bool.false_or]

theorem slewMax_ctrlWritten (s : State) (v : W32) :
    (ctrlWritten s v).get fSlewMax = min 200 (max 1 (v.toNat / 256 % 256)) := by
  have hlt : min 200 (max 1 (v.toNat / 256 % 256)) < 256 := by omega
  unfold ctrlWritten
  split
  · rw [get_put_apart _ _ (by decide), get_put_same _ _ (by decide)]
    exact Nat.mod_eq_of_lt hlt
  · rw [get_put_same _ _ (by decide)]
    exact Nat.mod_eq_of_lt hlt

/-- What a write of CTRL does, once ROOT, USE_REF, SLEW_MAX and RUN are written. -/
theorem writeTideCtrl_eq (s : State) (v : W32) :
    writeTideCtrl s v =
      if v.getLsbD 1 != isRoot s && s.bit fRun && tideState s != 3 && tideState s != 4 then tideReject s
      else if v.getLsbD 1 && !isRoot s && s.bit fRun then beRoot (endAdapts (ctrlWritten s v))
      else if v.getLsbD 0 && !s.bit fRun then startTide (ctrlWritten s v)
      else if v.getLsbD 1 && tideState (ctrlWritten s v) = 5 && !(ctrlWritten s v).bit fUseRef then (ctrlWritten s v).put fTideState 6
      else if v.getLsbD 1 && tideState (ctrlWritten s v) = 6 && (v.getLsbD 2 && !s.bit fUseRef) then
        (ctrlWritten s v).put fTideState (rootState (ctrlWritten s v))
      else ctrlWritten s v := rfl

theorem tideState_ctrlWritten (s : State) (v : W32) : tideState (ctrlWritten s v) = tideState s :=
  ctrlWritten_get s v (by decide) (by decide)

/-! Becoming the root (R24 to R26, R30). -/

theorem nodeId_lt (s : State) : nodeId s < 2 ^ 16 := by
  have hg : s.get ⟨pgTopo, 0x040, 2, 14⟩ < 2 ^ 14 := get_lt ..
  have hb : s.boot.strap.toNat < 4 := s.boot.strap.isLt
  unfold nodeId
  omega

theorem nodeId_congr (hb : t.boot = s.boot) (hg : t.get ⟨pgTopo, 0x040, 2, 14⟩ = s.get ⟨pgTopo, 0x040, 2, 14⟩) :
    nodeId t = nodeId s := by
  rw [nodeId, nodeId, hb, hg]

@[simp] theorem changes_beRoot (h : may .tide) (h1 : may (.reg (regKey pgTide 0x00C))) (h2 : may (.reg (regKey pgTide 0x078)))
    (h3 : may (.reg (regKey pgTide 0x084))) : Changes s (beRoot t) may ↔ Changes s t may := by
  simp [beRoot, h, h1, h2, h3]

@[simp] theorem beRoot_tide (s : State) :
    (beRoot s).tide = { s.tide with follow := none, sum16 := 0, aligned := false, corr := 0 } := by
  rw [beRoot, setCorr_tide, updTide_tide, State.put_tide, State.put_tide, State.put_tide, State.put_tide]

/-- CTRL is not touched. -/
theorem bit_ctrl_beRoot (s : State) (b : Nat) : (beRoot s).bit ⟨pgTide, 0x008, b, 1⟩ = s.bit ⟨pgTide, 0x008, b, 1⟩ := by
  have hc : Changes s (beRoot s) (also (words pgTide [0x00C, 0x078, 0x084]) (parts [.tide])) := by simp
  exact bit_eq_of_get (get_eq_of_changes hc (by simp) (by simp))

theorem tideState_beRoot (s : State) : tideState (beRoot s) = rootState s := by
  have hlt : rootState s < 2 ^ 3 := by
    unfold rootState
    split <;> omega
  simp (disch := decide) only [tideState, beRoot, setCorr_get, updTide_get, get_put_apart, get_put_same]
  exact Nat.mod_eq_of_lt hlt

theorem hops_beRoot (s : State) : (beRoot s).get fHops = 0 := by
  simp (disch := decide) only [beRoot, setCorr_get, updTide_get, get_put_apart, get_put_same, Nat.zero_mod]

theorem upstreamValid_beRoot (s : State) : (beRoot s).bit fUpstreamValid = false := by
  simp (disch := decide) [State.bit, beRoot, setCorr_get, get_put_apart, get_put_same]

/-- The chip's beacons name the chip itself. -/
theorem rootId_beRoot (s : State) : (beRoot s).get ⟨pgTide, 0x084, 0, 16⟩ = nodeId s := by
  have hn : nodeId (((s.put fTideState (rootState s)).put fHops 0).put fUpstreamValid 0) = nodeId s :=
    nodeId_congr (by rw [State.put_boot, State.put_boot, State.put_boot]) (by simp (disch := decide) only [get_put_apart])
  simp (disch := decide) only [beRoot, setCorr_get, updTide_get, get_put_same, hn]
  exact Nat.mod_eq_of_lt (nodeId_lt s)

theorem nodeId_ctrlWritten (s : State) (v : W32) : nodeId (ctrlWritten s v) = nodeId s := by
  have hb : (ctrlWritten s v).boot = s.boot := by
    unfold ctrlWritten
    split <;> rfl
  exact nodeId_congr hb (ctrlWritten_get s v (by decide) (by decide))

/-- The root runs from its reference where CTRL, as written, takes it. -/
theorem rootState_ctrlWritten (s : State) (v : W32) :
    rootState (ctrlWritten s v) = if v.getLsbD 2 = true ∧ s.bit fRefPresent = true then 5 else 6 := by
  have hp : (ctrlWritten s v).bit fRefPresent = s.bit fRefPresent :=
    congrArg (· != 0) (ctrlWritten_get s v (by decide) (by decide))
  rw [rootState, useRef_ctrlWritten, hp]
  simp

/-- INIT is awaited: at an edge in ROOT_REF, or 16 tide clocks from now in ROOT_OSC (R26). -/
def awaitInit (state : Nat) (t : Tide) : Tide :=
  if state = 5 then { t with loadOnSync := true } else { t with loadAt := some (t.clock + 16) }

theorem startTide_root (h : isRoot s = true) : startTide s = updTide (beRoot s) (awaitInit (rootState s)) := by
  rw [startTide, if_pos h, ← tideState_beRoot]
  rfl

theorem startTide_other (h : isRoot s = false) : startTide s = s.put fTideState 1 := by
  rw [startTide, if_neg (by simp [h])]

@[simp] theorem changes_endAdapts (h : may .tide) (h' : may .log) : Changes s (endAdapts t) may ↔ Changes s t may := by
  unfold endAdapts
  simp only []
  split <;> split <;> simp [h, h']

theorem endAdapts_get (s : State) (f : Fld) : (endAdapts s).get f = s.get f := by
  unfold endAdapts
  simp only []
  split <;> split <;> simp

theorem endAdapts_tide (s : State) : ∃ b, (endAdapts s).tide = { s.tide with aligned := b } := by
  have hu (u : State) (hu : u.tide = s.tide) : ∃ b, (if u.tide.aligned then
      logAdapt (updTide u (fun t => { t with aligned := false })) pgTide true 2 else u).tide = { s.tide with aligned := b } := by
    split
    · exact ⟨false, by rw [logAdapt_tide, updTide_tide, hu]⟩
    · exact ⟨s.tide.aligned, by rw [hu]⟩
  exact hu _ (ite_logAdapt_tide ..)

theorem endAdapts_boot (s : State) : (endAdapts s).boot = s.boot := by
  have hc : Changes s (endAdapts s) (parts [.tide, .log]) := by simp
  exact hc .boot (by simp)

/-! The rows. -/

theorem completes_run (ht : HostTakes s pgTide 0x008 a) (h1 : a.data.getLsbD 0 = true) (h2 : a.data.getLsbD 1 = false)
    (h3 : s.bit fRun = false) (h4 : isRoot s = false) :
    Completes (.run a) s (words pgTide [0x008, 0x00C]) (fun t =>
      t.bit fRun = true ∧ isRoot t = false ∧ tideState t = 1 ∧ t.bit fUseRef = a.data.getLsbD 2 ∧
        t.get fSlewMax = min 200 (max 1 (a.data.toNat / 256 % 256))) := by
  have hr : isRoot (ctrlWritten s a.data) = false := (isRoot_ctrlWritten ..).trans h2
  have he : writeTideCtrl s a.data = (ctrlWritten s a.data).put fTideState 1 := by
    rw [writeTideCtrl_eq, startTide_other hr]
    simp [h1, h3, h4]
  refine completes_taken rfl ht he (.inl rfl) ?_ ?_
  · rw [changes_put (by simp), changes_ctrlWritten (by simp)]
    exact Changes.refl _ _
  · simp (disch := decide) only [signal_bit, signal_get, isRoot, tideState, bit_put_apart, get_put_apart,
      get_put_same, run_ctrlWritten, useRef_ctrlWritten, slewMax_ctrlWritten, h1, Bool.true_or]
    exact ⟨trivial, hr, rfl, trivial, trivial⟩

theorem completes_runRoot (ht : HostTakes s pgTide 0x008 a) (h1 : a.data.getLsbD 0 = true) (h2 : a.data.getLsbD 1 = true)
    (h3 : s.bit fRun = false) :
    Completes (.run a) s (also (words pgTide [0x008, 0x00C, 0x078, 0x084]) (parts [.tide])) (fun t =>
      t.bit fRun = true ∧ isRoot t = true ∧ t.get fHops = 0 ∧ t.bit fUpstreamValid = false ∧ t.tide.corr = 0 ∧
        t.get ⟨pgTide, 0x084, 0, 16⟩ = nodeId s ∧
        (if a.data.getLsbD 2 = true ∧ s.bit fRefPresent = true then tideState t = 5 ∧ t.tide.loadOnSync = true
          else tideState t = 6 ∧ t.tide.loadAt = some (s.tide.clock + 16))) := by
  have hr : isRoot (ctrlWritten s a.data) = true := (isRoot_ctrlWritten ..).trans h2
  have he : writeTideCtrl s a.data = startTide (ctrlWritten s a.data) := by
    rw [writeTideCtrl_eq]
    simp [h1, h3]
  refine completes_taken rfl ht (he.trans (startTide_root hr)) (.inl (.inl rfl)) (by simp) ?_
  have hst : tideState (beRoot (ctrlWritten s a.data)) = _ := (tideState_beRoot _).trans (rootState_ctrlWritten s a.data)
  simp only [signal_bit, signal_isRoot, signal_get, signal_tide, signal_tideState, updTide_bit, updTide_get, updTide_tide, updTide_isRoot,
    updTide_tideState, hst, hops_beRoot, upstreamValid_beRoot, rootId_beRoot, nodeId_ctrlWritten, rootState_ctrlWritten]
  refine ⟨?_, ?_, trivial, trivial, ?_, trivial, ?_⟩
  · rw [bit_ctrl_beRoot, run_ctrlWritten, h1, Bool.true_or]
  · exact (bit_ctrl_beRoot ..).trans hr
  · unfold awaitInit
    split <;> rfl
  · split <;> simp [awaitInit]

theorem completes_root (ht : HostTakes s pgTide 0x008 a) (h1 : a.data.getLsbD 0 = false) (h2 : a.data.getLsbD 1 = true)
    (h3 : s.bit fRun = false) (h5 : tideState s ≠ 5) (h6 : tideState s ≠ 6) :
    Completes (.root a) s (words pgTide [0x008]) (fun t => isRoot t = true ∧ t.bit fRun = false) := by
  have he : writeTideCtrl s a.data = ctrlWritten s a.data := by
    rw [writeTideCtrl_eq, tideState_ctrlWritten, h1, h3]
    simp [h5, h6]
  refine completes_taken rfl ht he (.inl rfl) (by simp) ⟨?_, ?_⟩
  · rw [signal_isRoot, isRoot_ctrlWritten, h2]
  · rw [signal_bit, run_ctrlWritten, h1, h3, Bool.or_false]

theorem completes_takesOver (ht : HostTakes s pgTide 0x008 a) (h2 : a.data.getLsbD 1 = true) (h3 : s.bit fRun = true)
    (h4 : isRoot s = false) (h5 : tideState s = 3 ∨ tideState s = 4) :
    Completes (.root a) s (also (words pgTide [0x008, 0x00C, 0x078, 0x084]) (parts [.tide, .log])) (fun t =>
      isRoot t = true ∧ t.get fHops = 0 ∧ t.bit fUpstreamValid = false ∧ t.get ⟨pgTide, 0x084, 0, 16⟩ = nodeId s ∧
        tideState t = (if a.data.getLsbD 2 = true ∧ s.bit fRefPresent = true then 5 else 6) ∧ t.tide.corr = 0 ∧
        t.tide.now = s.tide.now ∧ t.tide.frac = s.tide.frac) := by
  have he : writeTideCtrl s a.data = beRoot (endAdapts (ctrlWritten s a.data)) := by
    rw [writeTideCtrl_eq, if_neg (by simpa using fun _ _ h => h5.resolve_left h), if_pos (by rw [h2, h3, h4]; rfl)]
  have hg (f : Fld) : (endAdapts (ctrlWritten s a.data)).get f = (ctrlWritten s a.data).get f := endAdapts_get ..
  have hst : rootState (endAdapts (ctrlWritten s a.data)) = rootState (ctrlWritten s a.data) := by
    rw [rootState, rootState, bit_eq_of_get (hg _), bit_eq_of_get (hg _)]
  have hn : nodeId (endAdapts (ctrlWritten s a.data)) = nodeId (ctrlWritten s a.data) := nodeId_congr (endAdapts_boot _) (hg _)
  obtain ⟨b, htide⟩ := endAdapts_tide (ctrlWritten s a.data)
  refine completes_taken rfl ht he (.inl (.inl rfl)) (by simp) ?_
  simp only [signal_isRoot, signal_bit, signal_get, signal_tide, signal_tideState, hops_beRoot, upstreamValid_beRoot, rootId_beRoot, hn,
    nodeId_ctrlWritten, tideState_beRoot, hst, rootState_ctrlWritten, beRoot_tide, htide, ctrlWritten_tide]
  refine ⟨?_, trivial, trivial, trivial, trivial, trivial, trivial, trivial⟩
  rw [isRoot, bit_ctrl_beRoot, bit_eq_of_get (hg _)]
  exact (isRoot_ctrlWritten ..).trans h2

theorem completes_rootRefused (ht : HostTakes s pgTide 0x008 a) (h2 : a.data.getLsbD 1 ≠ isRoot s) (h3 : s.bit fRun = true)
    (h4 : tideState s ≠ 3) (h5 : tideState s ≠ 4) :
    Completes (.root a) s (wordsAndEvent pgTide []) (fun t => EventSet s t pgTide 8) :=
  completes_tideReject rfl ht ((writeTideCtrl_eq ..).trans (if_pos (by rw [bne_iff_ne.2 h2, h3]; simp [h4, h5])))

/-! INIT and the reference. -/

@[simp] theorem changes_loadInit (h : may .tide) (h1 : may (.reg (regKey pgTide 0x00C))) (hd : ∀ p, debugCloses p → may p) :
    Changes s (loadInit t) may ↔ Changes s t may := by
  simp [loadInit, changes_tideBecameValid hd, h, h1]

theorem completes_initLoad (h : initDue s = true) :
    Completes .initLoad s (also (also (words pgTide [0x00C]) (parts [.tide])) debugCloses) (fun t =>
      t.tide.now = s.rd64 pgTide 0x048 ∧ t.tide.frac = 0 ∧ t.tideValid = true) := by
  have hv : (loadInit s).tideValid = true := by
    rw [State.tideValid, loadInit, bit_eq_of_get (tideBecameValid_get _ (by decide)), State.bit, get_put_same _ _ (by decide)]
    rfl
  refine completes_due rfl h rfl (.inl (.inl (.inl rfl))) ((changes_loadInit (by simp) (by simp) (fun _ hp => .inr hp)).2 (Changes.refl _ _))
    ⟨?_, ?_, ?_⟩
  · rw [signal_tide, loadInit, tideBecameValid_tide, State.put_tide, updTide_tide]
  · rw [signal_tide, loadInit, tideBecameValid_tide, State.put_tide, updTide_tide]
  · rw [signal_tideValid, hv]

/-- An edge is seen: the reference is there, and one more edge has come in succession. -/
def edgeSeen (s : State) : State := updTide (s.put fRefPresent 1) (fun t => { t with syncRun := t.syncRun + 1 })

theorem edgeSeen_changes (s : State) : Changes s (edgeSeen s) (also (words pgTide [0x00C]) (parts [.tide])) := by
  simp [edgeSeen]

/-- The limit of the correction is SLEW_MAX. -/
theorem clampSlew_congr (h : t.get fSlewMax = s.get fSlewMax) (c : Int) : clampSlew t c = clampSlew s c := by
  rw [clampSlew, clampSlew, slewLimit, slewLimit, h]

theorem gridError_congr (hn : t.tide.now = s.tide.now) (hf : t.tide.frac = s.tide.frac) : gridError t = gridError s := by
  rw [gridError, gridError, hn, hf]

/-- An edge at a root whose tide is valid is compared with the grid (R27). -/
theorem syncEdge_of_valid (h2 : s.tideValid = true) (h3 : s.tide.loadOnSync = false) :
    syncEdge s =
      if gridError s > 2 ^ 32 || gridError s < -(2 ^ 32) then
        setCorr (tideEvent (edgeSeen s) 7) (clampSlew s (-((gridError s).tdiv (2 ^ 20))))
      else setCorr (edgeSeen s) 0 := by
  have hl : (edgeSeen s).tide.loadOnSync = false := h3
  have hv : (edgeSeen s).tideValid = true := by
    rw [State.tideValid, edgeSeen, updTide_bit, bit_put_apart _ _ (by decide)]
    exact h2
  have hg : gridError (edgeSeen s) = gridError s := gridError_congr rfl rfl
  have hs (c : Int) : clampSlew (edgeSeen s) c = clampSlew s c :=
    clampSlew_congr (get_eq_of_changes (edgeSeen_changes s) (by decide) (by simp)) c
  have he : syncEdge s = if (edgeSeen s).tide.loadOnSync then loadInit (edgeSeen s) else if !(edgeSeen s).tideValid then edgeSeen s
      else if gridError (edgeSeen s) > 2 ^ 32 || gridError (edgeSeen s) < -(2 ^ 32) then
        setCorr (tideEvent (edgeSeen s) 7) (clampSlew (edgeSeen s) (-((gridError (edgeSeen s)).tdiv (2 ^ 20))))
      else setCorr (edgeSeen s) 0 := rfl
  rw [he, hl, hv, hs, hg]
  simp only [Bool.not_true, Bool.false_eq_true, if_false]

theorem edgeSeen_evt (s : State) : (edgeSeen s).rd pgTide 0x010 = s.rd pgTide 0x010 :=
  (edgeSeen_changes s).rd_eq (by decide) (by simp)

theorem refPresent_edgeSeen (s : State) : (edgeSeen s).bit fRefPresent = true := by
  rw [edgeSeen, updTide_bit, State.bit, get_put_same _ _ (by decide)]
  rfl

@[simp] theorem edgeSeen_tide (s : State) : (edgeSeen s).tide = { s.tide with syncRun := s.tide.syncRun + 1 } := rfl

theorem completes_tideSync (h : running s = true) (h1 : isRoot s = true) (h2 : s.tideValid = true) (h3 : s.tide.loadOnSync = false) :
    Completes .tideSync s (also (wordsAndEvent pgTide [0x00C, 0x078]) (parts [.tide])) (fun t =>
      t.bit fRefPresent = true ∧ t.tide.syncRun = s.tide.syncRun + 1 ∧ t.tide.now = s.tide.now ∧
        (if -(2 ^ 32) ≤ gridError s ∧ gridError s ≤ 2 ^ 32 then t.tide.corr = 0 ∧ t.rd pgTide 0x010 = s.rd pgTide 0x010
          else t.tide.corr = clampSlew s (-((gridError s).tdiv (2 ^ 20))) ∧ EventSet s t pgTide 7)) := by
  have hd : (running s && isRoot s) = true := by rw [h, h1]; rfl
  have hm : Changes s (edgeSeen s) (also (wordsAndEvent pgTide [0x00C, 0x078]) (parts [.tide])) :=
    (edgeSeen_changes s).mono (tideEvents_mono (by simp))
  by_cases hg : -(2 ^ 32) ≤ gridError s ∧ gridError s ≤ 2 ^ 32
  · have he : syncEdge s = setCorr (edgeSeen s) 0 := by
      rw [syncEdge_of_valid h2 h3, if_neg (by simpa using And.intro hg.2 hg.1)]
    refine completes_due rfl hd he (.inl (.inl (.inl rfl))) ((changes_setCorr (by simp) (by simp)).2 hm) ?_
    rw [if_pos hg]
    simp only [signal_bit, signal_tide, signal_rd, setCorr_tide, edgeSeen_tide]
    exact ⟨(bit_eq_of_get (setCorr_get _ _ (by decide))).trans (refPresent_edgeSeen s), trivial, trivial, trivial,
      (setCorr_rd _ _ (by decide)).trans (edgeSeen_evt s)⟩
  · have he : syncEdge s = setCorr (tideEvent (edgeSeen s) 7) (clampSlew s (-((gridError s).tdiv (2 ^ 20)))) := by
      rw [syncEdge_of_valid h2 h3, if_pos (by simp; omega)]
    refine completes_due rfl hd he (.inl (.inl (.inl rfl)))
      ((changes_setCorr (by simp) (by simp)).2 ((changes_tideEvent (fun _ hp => .inl (.inr hp))).2 hm)) ?_
    rw [if_neg hg]
    simp only [signal_bit, signal_tide, setCorr_tide, tideEvent, raise_tide, edgeSeen_tide]
    refine ⟨(bit_eq_of_get ((setCorr_get _ _ (by decide)).trans (raise_get _ (by decide)))).trans (refPresent_edgeSeen s),
      trivial, trivial, trivial, ?_⟩
    rw [EventSet, signal_rd, setCorr_rd _ _ (by decide), eventSet_raise, edgeSeen_evt]

/-- The reference is gone; a load that waited for its edge comes 16 tide clocks later (R28). -/
def refGone (s : State) : State :=
  updTide (updTide (s.put fRefPresent 0) (fun t => { t with syncRun := 0 }))
    (fun t => if t.loadOnSync then { t with loadOnSync := false, loadAt := some (t.clock + 16) } else t)

theorem loseRef_inUse (h : tideState s = 5) : loseRef s = tideEvent ((refGone s).put fTideState 6) 3 := by
  simp only [loseRef, h, if_true]
  rfl

theorem refGone_now (s : State) : (refGone s).tide.now = s.tide.now := by
  rw [refGone, updTide_tide, updTide_tide]
  split <;> rfl

theorem refGone_changes (s : State) : Changes s (refGone s) (also (words pgTide [0x00C]) (parts [.tide])) := by simp [refGone]

theorem refGone_evt (s : State) : (refGone s).rd pgTide 0x010 = s.rd pgTide 0x010 := (refGone_changes s).rd_eq (by decide) (by simp)

theorem completes_refLoss (h : running s = true) (h1 : isRoot s = true) (h2 : tideState s = 5) :
    Completes .refLoss s (also (wordsAndEvent pgTide [0x00C]) (parts [.tide])) (fun t =>
      t.bit fRefPresent = false ∧ tideState t = 6 ∧ t.tide.now = s.tide.now ∧ EventSet s t pgTide 3) := by
  have hd : (running s && isRoot s) = true := by rw [h, h1]; rfl
  have hc : Changes s (refGone s) (also (wordsAndEvent pgTide [0x00C]) (parts [.tide])) := (refGone_changes s).mono (tideEvents_mono (by simp))
  have hp : (refGone s).bit fRefPresent = false := by
    rw [refGone, updTide_bit, updTide_bit, State.bit, get_put_same _ _ (by decide)]
    rfl
  refine completes_due rfl hd (loseRef_inUse h2) (.inl (.inl (.inl rfl))) ((changes_entered (by simp) (fun _ hx => .inl (.inr hx))).2 hc) ?_
  refine ⟨?_, ?_, ?_, ?_⟩
  · rw [signal_bit, tideEvent, bit_eq_of_get (entered_get _ _ _ _ (by decide) (by decide)), hp]
  · exact (signal_tideState _).trans (tideState_entered _ _ _ (by decide))
  · rw [signal_tide, tideEvent, raise_tide, State.put_tide, refGone_now]
  · rw [EventSet, signal_rd, tideEvent, eventSet_entered, refGone_evt]

theorem completes_rootRefReturn (h1 : isRoot s = true) (h2 : tideState s = 6) (h3 : s.bit fUseRef = true) (h4 : 2 ≤ s.tide.syncRun) :
    Completes .rootRefReturn s (words pgTide [0x00C]) (fun t => tideState t = 5) := by
  refine completes_due rfl (by rw [h1, h2, h3]; simpa using h4) rfl (.inl rfl) (by simp) ?_
  exact (signal_tideState _).trans (get_put_same _ _ (by decide))

end Sys2Proof.Claims
end

section
/-! SUPPORT. The running count, lock and its loss, and stands (01 R23, R31, R35, R40 to R51). -/

namespace Sys2Proof.Claims
open Sys2Proof.Machine

variable {s t u : State} {may : Part → Prop} {a : Access} {f : Fld}

/-! The count and its beacons. -/

theorem completes_wrap (h : s.tideValid = true) (h1 : s.standing = false) (h2 : s.tide.now = allOnes64) :
    Completes .wrap s (also (wordsAndEvent pgTide []) (parts [.tide])) (fun t => t.tide.now = 0 ∧ EventSet s t pgTide 5) := by
  refine completes_due rfl (by rw [wrapDue, h, h1, h2]; rfl) rfl (.inl (.inl (.inl rfl))) ?_ ⟨?_, ?_⟩
  · rw [wrapTide, changes_tideEvent (fun _ hp => .inl (.inr hp)), changes_updTide (by simp)]
    exact Changes.refl _ _
  · rw [signal_tide, wrapTide, tideEvent, raise_tide, updTide_tide]
  · rw [EventSet, signal_rd, wrapTide, tideEvent, eventSet_raise, updTide_rd]

@[simp] theorem changes_sendBeacon (h : may .tide) (h1 : may .signals) : Changes s (sendBeacon t) may ↔ Changes s t may := by
  rw [sendBeacon, changes_sendOn h1, changes_updTide h]

@[simp] theorem sendBeacon_tide (s : State) : (sendBeacon s).tide = { s.tide with sent := true } := by
  rw [sendBeacon, sendOn_tide, updTide_tide]

@[simp] theorem sendBeacon_rd (s : State) (p o : Nat) : (sendBeacon s).rd p o = s.rd p o := by
  rw [sendBeacon, sendOn_rd, updTide_rd]

theorem completes_beaconSend (h : beaconDue s = true) :
    Completes .beaconSend s (parts [.tide, .signals]) (fun t =>
      t.tide = { s.tide with sent := true } ∧ Flooded s t (beaconBytes (ownBeacon s false false)) none) :=
  completes_due rfl h rfl (by simp) (by simp) ⟨by rw [signal_tide, sendBeacon_tide], flooded_sendOn (fun _ => rfl)⟩

/-! LOCKED, HOLDOVER, LOST, and another upstream. -/

theorem completes_locked (h : s.tideValid = true) (h1 : isRoot s = false) (h2 : tideState s = 1 ∨ tideState s = 3 ∨ tideState s = 4)
    (h3 : 16 ≤ s.tide.goodRun) :
    Completes .locked s (wordsAndEvent pgTide [0x00C]) (fun t => tideState t = 2 ∧ EventSet s t pgTide 9) := by
  have hd : lockDue s = true := by
    simp only [lockDue, h, h1, Bool.and_eq_true, Bool.or_eq_true, beq_iff_eq, decide_eq_true_eq, or_assoc, Bool.not_false, h2, h3, and_self]
  refine completes_due rfl hd rfl (.inl (.inl rfl)) ?_ ⟨?_, ?_⟩
  · rw [lock, tideNote, changes_entered (by simp) (fun _ hp => .inr hp), changes_ite_logAdapt (by simp)]
    exact Changes.refl _ _
  · exact (signal_tideState _).trans (tideState_entered _ _ _ (by decide))
  · rw [EventSet, signal_rd, lock, tideNote, eventSet_entered, ite_logAdapt_rd]

/-- HOLDOVER is entered: the event, the logbook's mark of the adaptation, and the interval in which it began (R40). -/
def heldOver (s : State) : State :=
  updTide (logAdapt (raise (s.put fTideState 3) pgTide 0 0x4001) pgTide false 3)
    (fun t => { t with holdSince := t.intervals, goodRun := 0 })

theorem heldOver_tide (s : State) : (heldOver s).tide = { s.tide with holdSince := s.tide.intervals, goodRun := 0 } := by
  rw [heldOver, updTide_tide, logAdapt_tide, raise_tide, State.put_tide]

theorem enterHoldover_eq (s : State) : enterHoldover s = setCorr (heldOver s) (clampSlew s (s.tide.sum16 * 64)) := by
  have he : enterHoldover s = setCorr (heldOver s) (clampSlew (heldOver s) ((heldOver s).tide.sum16 * 64)) := rfl
  have hs : (heldOver s).get fSlewMax = s.get fSlewMax := by
    rw [heldOver, updTide_get, logAdapt_get, entered_get _ _ _ _ (by decide) (by decide)]
  rw [he, clampSlew_congr hs, heldOver_tide]

theorem completes_holdover (h : holdoverDue s = true) :
    Completes .holdover s (also (wordsAndEvent pgTide [0x00C, 0x078]) (parts [.tide])) (fun t =>
        tideState t = 3 ∧ EventSet s t pgTide 0 ∧ t.tide.corr = clampSlew s (s.tide.sum16 * 64) ∧ t.tide.now = s.tide.now) := by
  refine completes_due rfl h (enterHoldover_eq s) (.inl (.inl (.inl rfl))) ?_ ⟨?_, ?_, ?_, ?_⟩
  · rw [changes_setCorr (by simp) (by simp), heldOver, changes_updTide (by simp), changes_logAdapt (by simp),
      changes_entered (by simp) (fun _ hp => .inl (.inr hp))]
    exact Changes.refl _ _
  · rw [signal_tideState, tideState, setCorr_get _ _ (by decide), heldOver, updTide_get, logAdapt_get]
    exact tideState_entered _ _ _ (by decide)
  · rw [EventSet, signal_rd, setCorr_rd _ _ (by decide), heldOver, updTide_rd, logAdapt_rd, eventSet_entered]
  · rw [signal_tide, setCorr_tide]
  · rw [signal_tide, setCorr_tide, heldOver_tide]

/-- LOST is entered: the event, the logbook's mark of the adaptation, a new count of good beacons, and no debug access (R41, R42). -/
theorem enterLost_eq (s : State) :
    enterLost s = closeDebug (updTide (logAdapt (raise ((if tideState s = 3 then logAdapt s pgTide true 3 else s).put fTideState 4)
      pgTide 2 0x4003) pgTide false 4) (fun t => { t with goodRun := 0 })) := rfl

theorem changes_enterLost (h : may (.reg (regKey pgTide 0x00C))) (ht : may .tide) (he : ∀ p, eventParts pgTide p → may p)
    (hd : ∀ p, debugCloses p → may p) : Changes s (enterLost t) may ↔ Changes s t may := by
  have hl : may .log := he _ (by simp)
  rw [enterLost_eq, changes_closeDebug hd, changes_updTide ht, changes_logAdapt hl, changes_entered h he, changes_ite_logAdapt hl]

@[simp] theorem enterLost_tide (s : State) : (enterLost s).tide = { s.tide with goodRun := 0 } := by
  rw [enterLost_eq, closeDebug_tide, updTide_tide, logAdapt_tide, raise_tide, State.put_tide, ite_logAdapt_tide]

theorem tideState_enterLost (s : State) : tideState (enterLost s) = 4 := by
  rw [enterLost_eq, tideState, closeDebug_get _ (by decide), updTide_get, logAdapt_get]
  exact tideState_entered _ _ _ (by decide)

theorem enterLost_get (s : State) (ho : OffEvent pgTide f) (hp : f.page ≠ pgDebug) (ha : Fld.Apart fTideState f) :
    (enterLost s).get f = s.get f := by
  rw [enterLost_eq, closeDebug_get _ ⟨ho.1, hp⟩, updTide_get, logAdapt_get, entered_get _ _ _ _ ho ha, ite_logAdapt_get]

theorem eventSet_enterLost (s : State) : EventSet s (enterLost s) pgTide 2 := by
  rw [EventSet, enterLost_eq, closeDebug_rd _ (by decide) (by decide), updTide_rd, logAdapt_rd, eventSet_entered, ite_logAdapt_rd]

theorem debugLevel_enterLost (s : State) : debugLevel (enterLost s) = 0 := debugLevel_closeDebug _

theorem completes_lost (h : tideState s = 3) (h1 : s.get fHoldMax ≤ s.tide.intervals - s.tide.holdSince) :
    Completes .lost s (also (also (wordsAndEvent pgTide [0x00C]) (parts [.tide])) debugCloses) (fun t =>
      tideState t = 4 ∧ EventSet s t pgTide 2 ∧ debugLevel t = 0 ∧ t.tide.now = s.tide.now) := by
  refine completes_due rfl (by rw [lostDue, h]; simpa using h1) rfl (.inl (.inl (.inl (.inl rfl))))
    ((changes_enterLost (by simp) (by simp) (fun _ hp => .inl (.inl (.inr hp))) (fun _ hp => .inr hp)).2 (Changes.refl _ _))
    ⟨?_, ?_, ?_, ?_⟩
  · rw [signal_tideState, tideState_enterLost]
  · rw [EventSet, signal_rd, eventSet_enterLost]
  · rw [signal_debugLevel, debugLevel_enterLost]
  · rw [signal_tide, enterLost_tide]

@[simp] theorem changes_takeUpstream {x : Heard} (h : may (.reg (regKey pgTide 0x00C))) (h1 : may (.reg (regKey pgTide 0x084))) :
    Changes s (takeUpstream t x) may ↔ Changes s t may := by simp [takeUpstream, h, h1]

@[simp] theorem takeUpstream_tide (s : State) (x : Heard) : (takeUpstream s x).tide = s.tide := by
  rw [takeUpstream, State.put_tide, State.put_tide, State.put_tide, State.put_tide]

/-- A link is taken as upstream: its number, a HOPS one greater, its root (R35). -/
theorem takeUpstream_reads (s : State) (x : Heard) :
    (takeUpstream s x).get fUpstream = x.link % 16 ∧ (takeUpstream s x).bit fUpstreamValid = true ∧
      (takeUpstream s x).get fHops = min 255 (x.hops + 1) ∧ (takeUpstream s x).get ⟨pgTide, 0x084, 0, 16⟩ = x.root.toNat := by
  have hh : min 255 (x.hops + 1) % 2 ^ 8 = min 255 (x.hops + 1) := Nat.mod_eq_of_lt (by omega)
  have hr : x.root.toNat % 2 ^ 16 = x.root.toNat := Nat.mod_eq_of_lt x.root.isLt
  simp (disch := decide) only [takeUpstream, State.bit, get_put_apart, get_put_same, hh, hr]
  exact ⟨rfl, rfl, trivial, trivial⟩

theorem completes_upstreamChange (x : Heard) (h : isRoot s = false) (h1 : upstreamSilent s = true) (h2 : bestHeard (candidates s) = some x) :
    Completes .upstreamChange s (also (words pgTide [0x00C, 0x084]) (parts [.tide])) (fun t =>
      t.get fUpstream = x.link % 16 ∧ t.get fHops = min 255 (x.hops + 1) ∧ t.get ⟨pgTide, 0x084, 0, 16⟩ = x.root.toNat ∧
        t.tide.now = s.tide.now) := by
  have he : exec .upstreamChange s =
      finish (takeUpstream (updTide s (fun t => if tideState s = 1 then { t with goodRun := 0 } else t)) x) := by
    show execUpstreamChange s = _
    simp only [execUpstreamChange, h, h1, h2, Bool.not_false, Bool.and_self, if_true]
  obtain ⟨hu, -, hh, hr⟩ := takeUpstream_reads (updTide s (fun t => if tideState s = 1 then { t with goodRun := 0 } else t)) x
  refine completes_finish he (.inl (.inl rfl)) (by simp) ⟨(signal_get ..).trans hu, (signal_get ..).trans hh, (signal_get ..).trans hr, ?_⟩
  rw [signal_tide, takeUpstream_tide, updTide_tide]
  split <;> rfl

/-! Stand commands of the root (R44, R49, R50). -/

theorem scheduleStand_refused (h : isRoot s = false ∨ s.tideValid = false ∨ s.bit fStandPending = true ∨ s.standing = true ∨
    (s.rd64 pgTide 0x050 - s.now).toNat < 65536 ∨ 2 ^ 62 ≤ (s.rd64 pgTide 0x050 - s.now).toNat) : scheduleStand s = tideReject s := by
  refine if_pos ?_
  simpa [or_assoc] using h

theorem writeStandCmd_schedule {v : W32} (h : v.toNat % 8 = 1) : writeStandCmd s v = scheduleStand s := by
  simp only [writeStandCmd, h]

theorem writeStandCmd_resume {v : W32} (h : v.toNat % 8 = 2) : writeStandCmd s v = resumeStand s := by
  simp only [writeStandCmd, h]

theorem writeStandCmd_cancel {v : W32} (h : v.toNat % 8 = 4) : writeStandCmd s v = cancelStand s := by
  simp only [writeStandCmd, h]

theorem completes_scheduleRefused (ht : HostTakes s pgTide 0x05C a) (h1 : a.data.toNat % 8 = 1)
    (h2 : isRoot s = false ∨ s.tideValid = false ∨ s.bit fStandPending = true ∨ s.standing = true ∨
      (s.rd64 pgTide 0x050 - s.now).toNat < 65536 ∨ 2 ^ 62 ≤ (s.rd64 pgTide 0x050 - s.now).toNat) :
    Completes (.schedule a) s (wordsAndEvent pgTide []) (fun t => EventSet s t pgTide 8) :=
  completes_tideReject rfl ht ((writeStandCmd_schedule h1).trans (scheduleStand_refused h2))

/-- The length of a stand as its RESUME_AT: none is "until resumed". -/
def standLength (len : Nat) : W64 := if len = 0 then allOnes64 else BitVec.ofNat 64 len

/-- The next STAND_SEQ, and a stand recorded under it for the tide `at_` (R44, R45). -/
def standTold (s : State) (seq : BitVec 16) (at_ resume : W64) : State :=
  ((updTide (recordSeq s seq) (fun t => { t with pendS := at_, pendResume := resume })).put fStandPending 1).wr64 pgTide 0x060 at_

theorem standTold_changes (s : State) (seq : BitVec 16) (at_ resume : W64) :
    Changes s (standTold s seq at_ resume) (also (words pgTide [0x00C, 0x070, 0x060, 0x064]) (parts [.tide])) := by
  simp [standTold, recordSeq]

theorem standTold_tide (s : State) (seq : BitVec 16) (at_ resume : W64) :
    (standTold s seq at_ resume).tide = { s.tide with seqKnown := true, pendS := at_, pendResume := resume } := by
  rw [standTold, State.wr64_tide, State.put_tide, updTide_tide, recordSeq, updTide_tide, State.put_tide]

theorem standTold_reads (s : State) (seq : BitVec 16) (at_ resume : W64) :
    (standTold s seq at_ resume).bit fStandPending = true ∧ (standTold s seq at_ resume).get fStandSeq = seq.toNat ∧
      (standTold s seq at_ resume).rd64 pgTide 0x060 = at_ := by
  refine ⟨?_, ?_, rd64_wr64_same ..⟩
  · rw [standTold, bit_eq_of_get (get_wr64_apart _ _ (by decide)), State.bit, get_put_same _ _ (by decide)]
    rfl
  · rw [standTold, get_wr64_apart _ _ (by decide), get_put_apart _ _ (by decide), updTide_get, recordSeq, updTide_get,
      get_put_same _ _ (by decide)]
    exact Nat.mod_eq_of_lt seq.isLt

theorem scheduleStand_taken (h2 : isRoot s = true) (h3 : s.tideValid = true) (h4 : s.bit fStandPending = false)
    (h5 : s.standing = false) (h6 : 65536 ≤ (s.rd64 pgTide 0x050 - s.now).toNat)
    (h7 : (s.rd64 pgTide 0x050 - s.now).toNat < 2 ^ 62) :
    scheduleStand s = floodNotice (standTold s (BitVec.ofNat 16 (s.get fStandSeq + 1)) (s.rd64 pgTide 0x050)
      (standLength (s.rdN pgTide 0x058))) false none := by
  refine if_neg ?_
  rw [h2, h3, h4, h5]
  simpa [-BitVec.toNat_sub] using And.intro h6 h7

theorem standLength_rdN (s : State) (page off : Nat) :
    standLength (s.rdN page off) = if s.rd page off = 0 then allOnes64 else (s.rd page off).setWidth 64 := by
  have hz : s.rdN page off = 0 ↔ s.rd page off = 0 := (BitVec.toNat_eq (x := s.rd page off) (y := 0)).symm
  simp only [standLength, hz]
  rw [State.rdN, BitVec.ofNat_toNat]

theorem completes_schedule (ht : HostTakes s pgTide 0x05C a) (h1 : a.data.toNat % 8 = 1) (h2 : isRoot s = true)
    (h3 : s.tideValid = true) (h4 : s.bit fStandPending = false) (h5 : s.standing = false)
    (h6 : 65536 ≤ (s.rd64 pgTide 0x050 - s.now).toNat) (h7 : (s.rd64 pgTide 0x050 - s.now).toNat < 2 ^ 62) :
    Completes (.schedule a) s (also (words pgTide [0x00C, 0x070, 0x060, 0x064]) (parts [.tide])) (fun t =>
      t.bit fStandPending = true ∧ t.tide.pendS = s.rd64 pgTide 0x050 ∧ t.rd64 pgTide 0x060 = s.rd64 pgTide 0x050 ∧
        t.tide.pendResume = (if s.rd pgTide 0x058 = 0 then allOnes64 else (s.rd pgTide 0x058).setWidth 64) ∧
        t.get fStandSeq = (s.get fStandSeq + 1) % 65536 ∧ t.tide.now = s.tide.now ∧
        Flooded s t (beaconBytes (ownBeacon t true false)) none) := by
  have he : writeStandCmd s a.data = _ := (writeStandCmd_schedule h1).trans (scheduleStand_taken h2 h3 h4 h5 h6 h7)
  have hc := standTold_changes s (BitVec.ofNat 16 (s.get fStandSeq + 1)) (s.rd64 pgTide 0x050) (standLength (s.rdN pgTide 0x058))
  obtain ⟨hp, hq, hs⟩ := standTold_reads s (BitVec.ofNat 16 (s.get fStandSeq + 1)) (s.rd64 pgTide 0x050) (standLength (s.rdN pgTide 0x058))
  refine completes_taken rfl ht he (.inl (.inl rfl)) ((changes_sendOn (by simp)).2 hc) ?_
  simp only [signal_bit, signal_tide, signal_rd64, signal_get, floodNotice, sendOn_tide, sendOn_rd64, sendOn_get, standTold_tide]
  refine ⟨?_, trivial, hs, standLength_rdN .., ?_, trivial, ?_⟩
  · exact (bit_eq_of_get (sendOn_get ..)).trans hp
  · rw [hq, BitVec.toNat_ofNat]
  · rw [ownBeacon_sent]
    exact flooded_sendOn (trained_of_changes hc (by decide))

/-- The length of a stand is fixed, counted from its stand count (R49). -/
def resumed (s : State) : State := updTide s (fun t => { t with resumeAt := t.standCount + BitVec.ofNat 64 (s.rdN pgTide 0x058) })

theorem completes_standResume (ht : HostTakes s pgTide 0x05C a) (h1 : a.data.toNat % 8 = 2) (h2 : isRoot s = true)
    (h3 : s.tideValid = true) (h4 : s.standing = true) (h5 : s.tide.resumeAt = allOnes64) (h6 : 65536 ≤ (s.rd pgTide 0x058).toNat) :
    Completes (.standResume a) s (parts [.tide, .signals]) (fun t =>
      t.tide = { s.tide with resumeAt := s.tide.standCount + (s.rd pgTide 0x058).setWidth 64 } ∧
        Flooded s t (beaconBytes (ownBeacon t true false)) none) := by
  have he : resumeStand s = floodNotice (resumed s) false none := by
    have hl : ¬ s.rdN pgTide 0x058 < 65536 := Nat.not_lt.2 h6
    refine if_neg ?_
    simp [h2, h3, h4, h5, hl]
  refine completes_taken rfl ht ((writeStandCmd_resume h1).trans he) (by simp) (by simp [floodNotice, resumed]) ⟨?_, ?_⟩
  · rw [signal_tide, floodNotice, sendOn_tide, resumed, updTide_tide, State.rdN, BitVec.ofNat_toNat]
  · rw [floodNotice, ownBeacon_sent]
    exact flooded_sendOn (fun _ => rfl)

theorem completes_cancel (ht : HostTakes s pgTide 0x05C a) (h1 : a.data.toNat % 8 = 4) (h2 : isRoot s = true)
    (h3 : s.tideValid = true) (h4 : s.bit fStandPending = true) (h5 : 65536 ≤ (s.tide.pendS - s.now).toNat)
    (h6 : (s.tide.pendS - s.now).toNat < 2 ^ 63) :
    Completes (.cancel a) s (words pgTide [0x00C]) (fun t =>
      t.bit fStandPending = false ∧ Flooded s t (beaconBytes (ownBeacon t true true)) none) := by
  have he : cancelStand s = floodNotice (s.put fStandPending 0) true none := by
    refine if_neg ?_
    rw [h2, h3, h4]
    simpa [-BitVec.toNat_sub] using And.intro h5 h6
  have hc : Changes s (s.put fStandPending 0) (also (words pgTide [0x00C]) (parts [.tide])) := by simp
  refine completes_taken rfl ht ((writeStandCmd_cancel h1).trans he) (.inl rfl) (by simp [floodNotice]) ⟨?_, ?_⟩
  · rw [signal_bit, floodNotice, bit_eq_of_get (sendOn_get ..), State.bit, get_put_same _ _ (by decide)]
    rfl
  · rw [floodNotice, ownBeacon_sent]
    exact flooded_sendOn (trained_of_changes hc (by decide))

/-! A stand begins and ends (R46, R48, R51). -/

/-- The tide unit of a chip that stands: the stand it was told of is under way, with its stand count in 1/16 tick (R48, R51). -/
def stoodTide (t : Tide) (count16 : Nat) : Tide :=
  { t with standS := t.pendS, resumeAt := t.pendResume, lateBy := t.now - t.pendS, standCount := BitVec.ofNat 64 (count16 / 16),
           standFrac := BitVec.ofNat 32 (count16 % 16 * 2 ^ 28), sent := false }

/-- A chip that stands, before the event that says so. -/
def stood (s : State) (count16 : Nat) : State :=
  ((((setTide s (stoodTide s.tide count16)).put fStanding 1).put fStandPending 0).wr64 pgTide 0x060 s.tide.now).wr64 pgTide 0x068
    (BitVec.ofNat 64 (count16 / 16))

theorem stand_eq (s : State) (count16 : Nat) : stand s count16 = raise (stood s count16) pgTide 10 0 := rfl

theorem stood_tide (s : State) (count16 : Nat) : (stood s count16).tide = stoodTide s.tide count16 := by
  rw [stood, State.wr64_tide, State.wr64_tide, State.put_tide, State.put_tide, setTide]

/-- The words that a stand changes. -/
abbrev standParts : Part → Prop := also (wordsAndEvent pgTide [0x00C, 0x060, 0x064, 0x068, 0x06C]) (parts [.tide])

theorem changes_stand {count16 : Nat} (h : ∀ p, standParts p → may p) : Changes s (stand t count16) may ↔ Changes s t may := by
  have ht : may .tide := h _ (by simp)
  have h1 : may (.reg (regKey pgTide 0x00C)) := h _ (by simp)
  have h2 : may (.reg (regKey pgTide 0x060)) := h _ (by simp)
  have h3 : may (.reg (regKey pgTide 0x064)) := h _ (by simp)
  have h4 : may (.reg (regKey pgTide 0x068)) := h _ (by simp)
  have h5 : may (.reg (regKey pgTide 0x06C)) := h _ (by simp)
  rw [stand_eq, changes_raise (fun _ hx => h _ (.inl (.inr (eventParts_of_mem hx)))) (h _ (by simp))]
  simp [stood, setTide, ht, h1, h2, h3, h4, h5]

@[simp] theorem stand_tide (s : State) (count16 : Nat) : (stand s count16).tide = stoodTide s.tide count16 := by
  rw [stand_eq, raise_tide, stood_tide]

theorem standing_stand (s : State) (count16 : Nat) : (stand s count16).standing = true := by
  rw [State.standing, stand_eq, bit_eq_of_get (raise_get _ (by decide)), stood, bit_eq_of_get (get_wr64_apart _ _ (by decide)),
    bit_eq_of_get (get_wr64_apart _ _ (by decide)), bit_put_apart _ _ (by decide), State.bit, get_put_same _ _ (by decide)]
  rfl

theorem standPending_stand (s : State) (count16 : Nat) : (stand s count16).bit fStandPending = false := by
  rw [stand_eq, bit_eq_of_get (raise_get _ (by decide)), stood, bit_eq_of_get (get_wr64_apart _ _ (by decide)),
    bit_eq_of_get (get_wr64_apart _ _ (by decide)), State.bit, get_put_same _ _ (by decide)]
  rfl

/-- STAND_AT is where the tide stands. -/
theorem standAt_stand (s : State) (count16 : Nat) : (stand s count16).rd64 pgTide 0x060 = s.tide.now := by
  have hs (o : Nat) (ho : o = 0x060 ∨ o = 0x064) : (stand s count16).rd pgTide o =
      (((setTide s (stoodTide s.tide count16)).put fStanding 1).put fStandPending 0 |>.wr64 pgTide 0x060 s.tide.now).rd pgTide o := by
    rw [stand_eq, rd_raise, rd_setEvt_other _ (by omega) (.inr (by rcases ho with rfl | rfl <;> decide)), stood,
      rd_wr64_apart _ _ (by rcases ho with rfl | rfl <;> decide)]
  rw [State.rd64, hs _ (.inl rfl), hs _ (.inr rfl)]
  exact rd64_wr64_same ..

theorem eventSet_stand (s : State) (count16 : Nat) : EventSet s (stand s count16) pgTide 10 := by
  rw [EventSet, stand_eq, eventSet_raise, stood, rd_wr64_apart _ _ (by decide), rd_wr64_apart _ _ (by decide),
    rd_put_other _ _ (by decide), rd_put_other _ _ (by decide)]
  rfl

/-- The beacon of S goes out before the tide stands, where one is due (R46). -/
def beaconFirst (s : State) : State := if beaconDue s then sendBeacon s else s

theorem beginStand_eq (s : State) :
    beginStand s = if (beaconFirst s).now = (beaconFirst s).tide.pendS then stand (beaconFirst s) 0
      else standLate (beaconFirst s) (((beaconFirst s).now - (beaconFirst s).tide.pendS).toNat * 16) := rfl

theorem beaconFirst_tide (s : State) : ∃ b, (beaconFirst s).tide = { s.tide with sent := b } := by
  unfold beaconFirst
  split
  · exact ⟨true, sendBeacon_tide s⟩
  · exact ⟨s.tide.sent, rfl⟩

theorem beaconFirst_rd (s : State) (p o : Nat) : (beaconFirst s).rd p o = s.rd p o := by
  unfold beaconFirst
  split
  · exact sendBeacon_rd ..
  · rfl

theorem beaconFirst_changes (s : State) : Changes s (beaconFirst s) standParts := by
  unfold beaconFirst
  split <;> simp

theorem completes_standBegin (h : standDue s = true) (h1 : s.now = s.tide.pendS) :
    Completes .standBegin s (also (wordsAndEvent pgTide [0x00C, 0x060, 0x064, 0x068, 0x06C]) (parts [.tide])) (fun t =>
      t.standing = true ∧ t.bit fStandPending = false ∧ t.tide.now = s.tide.now ∧ t.tide.standS = s.tide.pendS ∧
        t.tide.resumeAt = s.tide.pendResume ∧ t.tide.standCount = 0 ∧ t.rd64 pgTide 0x060 = s.tide.pendS ∧ EventSet s t pgTide 10) := by
  obtain ⟨b, ht⟩ := beaconFirst_tide s
  have he : beginStand s = stand (beaconFirst s) 0 := by
    rw [beginStand_eq, State.now, ht]
    exact if_pos h1
  refine completes_due rfl h he (.inl (.inl (.inl rfl))) ((changes_stand (fun _ hp => hp)).2 (beaconFirst_changes s)) ?_
  simp only [signal_standing, signal_bit, signal_tide, signal_rd64, standing_stand, standPending_stand, standAt_stand, stand_tide, ht]
  refine ⟨trivial, trivial, rfl, rfl, rfl, rfl, h1, ?_⟩
  rw [EventSet, signal_rd, eventSet_stand, beaconFirst_rd]

theorem standLate_eq (s : State) (count16 : Nat) : ∃ d, standLate s count16 = stand (raiseWith s pgTide 4 0x4005 d) count16 := ⟨_, rfl⟩

theorem completes_standsLate (h : standDue s = true) (h1 : s.now ≠ s.tide.pendS) :
    Completes .standBegin s (also (wordsAndEvent pgTide [0x00C, 0x060, 0x064, 0x068, 0x06C]) (parts [.tide])) (fun t =>
      t.standing = true ∧ t.bit fStandPending = false ∧ t.tide.now = s.tide.now ∧ t.rd64 pgTide 0x060 = s.tide.now ∧
        t.tide.lateBy = s.tide.now - s.tide.pendS ∧ t.tide.standCount = s.tide.now - s.tide.pendS ∧ EventsSet s t pgTide 0x410) := by
  obtain ⟨b, ht⟩ := beaconFirst_tide s
  have he : beginStand s = standLate (beaconFirst s) ((s.now - s.tide.pendS).toNat * 16) := by
    rw [beginStand_eq, State.now, ht]
    exact if_neg h1
  obtain ⟨d, hd⟩ := standLate_eq (beaconFirst s) ((s.now - s.tide.pendS).toNat * 16)
  refine completes_due rfl h (he.trans hd) (.inl (.inl (.inl rfl))) ?_ ?_
  · rw [changes_stand (fun _ hp => hp), changes_raiseWith (fun _ hx => .inl (.inr (eventParts_of_mem hx))) (by simp)]
    exact beaconFirst_changes s
  · simp only [signal_standing, signal_bit, signal_tide, signal_rd64, standing_stand, standPending_stand, standAt_stand, stand_tide,
      raiseWith_tide, ht, stoodTide]
    refine ⟨trivial, trivial, trivial, trivial, trivial, ?_, ?_⟩
    · rw [Nat.mul_div_cancel _ (by decide), BitVec.ofNat_toNat, BitVec.setWidth_eq]
      rfl
    · rw [EventsSet, signal_rd, eventSet_stand, eventSet_raiseWith, beaconFirst_rd, BitVec.or_assoc]
      rfl

/-- The tide goes on, before the event that says so. -/
theorem endStand_eq (s : State) :
    endStand s = raise ((updTide s (fun t => { t with sent := true })).put fStanding 0) pgTide 11 0 := rfl

theorem completes_standEnd (h : resumeDue s = true) :
    Completes .standEnd s (also (wordsAndEvent pgTide [0x00C]) (parts [.tide])) (fun t =>
      t.standing = false ∧ t.tide.now = s.tide.now ∧ EventSet s t pgTide 11) := by
  refine completes_due rfl h (endStand_eq s) (.inl (.inl (.inl rfl))) ?_ ⟨?_, ?_, ?_⟩
  · rw [changes_raise (fun _ hx => .inl (.inr (eventParts_of_mem hx))) (by simp)]
    simp
  · rw [signal_standing, State.standing, bit_eq_of_get (raise_get _ (by decide)), State.bit, get_put_same _ _ (by decide)]
    rfl
  · rw [signal_tide, raise_tide, State.put_tide, updTide_tide]
  · rw [EventSet, signal_rd, eventSet_raise, rd_put_other _ _ (by decide), updTide_rd]

end Sys2Proof.Claims
end

section
/-! SUPPORT. Beacons and notices that arrive (01 R33 to R38, R41, R45): what a chip learns of stands, whom it follows, how the first
beacon loads the tide and later ones discipline it. -/

namespace Sys2Proof.Claims
open Sys2Proof.Machine

variable {s t u : State} {may : Part → Prop} {f : Fld} {b : BeaconMsg} {link : Nat}

/-- A word outside the words of the page that changed, and the links' states, are read as before. -/
theorem usable_of_changes {offs : List Nat} (h : Changes s t (also (words pgTide offs) (parts [.tide]))) (ho : ∀ o ∈ offs, o < 0x100)
    (hl : link < 16) (b : BeaconMsg) : usable t link b = usable s link b := by
  have hd : t.bit ⟨pgTide, 0x100 + 4 * link, 31, 1⟩ = s.bit ⟨pgTide, 0x100 + 4 * link, 31, 1⟩ :=
    bit_eq_of_get (get_delay_of_changes h ho hl 31 1)
  have ht : trained t link = trained s link := trained_of_changes h (fun o hm => (ho o hm).trans (by decide)) link
  rw [usable, usable, hd, ht]

/-! Stands told of (R45). -/

/-- A new STAND_SEQ is recorded. -/
def sequenced (s : State) (b : BeaconMsg) : State := if seqIsNew s b.seq then recordSeq s b.seq else s

theorem sequenced_changes (s : State) (b : BeaconMsg) : Changes s (sequenced s b) (also (words pgTide [0x070]) (parts [.tide])) := by
  unfold sequenced
  split <;> simp [recordSeq]

theorem sequenced_tide (s : State) (b : BeaconMsg) : ∃ k, (sequenced s b).tide = { s.tide with seqKnown := k } := by
  unfold sequenced
  split
  · exact ⟨true, by rw [recordSeq, updTide_tide, State.put_tide]⟩
  · exact ⟨s.tide.seqKnown, rfl⟩

theorem standSeq_recordSeq (s : State) (q : BitVec 16) : (recordSeq s q).get fStandSeq = q.toNat := by
  rw [recordSeq, updTide_get, get_put_same _ _ (by decide)]
  exact Nat.mod_eq_of_lt q.isLt

theorem sequenced_recorded (s : State) (b : BeaconMsg) : SeqRecorded s (sequenced s b) b := by
  unfold SeqRecorded sequenced
  split
  · exact standSeq_recordSeq ..
  · rfl

/-- A beacon that brings no stand leaves its number. -/
theorem learn_beacon (hn : b.notice = false) (hb : seqIsNew s b.seq = false ∨ b.pending = false ∧ b.standing = false) :
    learn s link b = sequenced s b := by
  unfold learn sequenced
  split
  · rename_i hs
    obtain ⟨hp, hst⟩ := hb.resolve_left (by simp [hs])
    simp [hn, hp, hst]
  · simp [hn]

/-! Whom the chip follows (R35). -/

/-- The beacon as the chip notes it. -/
def heardOn (s : State) (link : Nat) (b : BeaconMsg) : Heard :=
  { link := link, hops := b.hops, root := BitVec.ofNat 16 b.root, interval := s.tide.intervals }

/-- The upstream there is, or the best of the links heard where there is none. -/
def upstreamChosen (s : State) : State :=
  if s.bit fUpstreamValid then s else
    match bestHeard (candidates s) with
    | some h => takeUpstream s h
    | none => s

theorem upstreamChosen_cases (s : State) : upstreamChosen s = s ∨ ∃ h, upstreamChosen s = takeUpstream s h := by
  unfold upstreamChosen
  split
  · exact .inl rfl
  · split
    · exact .inr ⟨_, rfl⟩
    · exact .inl rfl

/-- The chip follows the link: what its beacon says of root and hops is taken over. -/
def followed (s : State) (link : Nat) (b : BeaconMsg) : State :=
  takeUpstream (upstreamChosen (hear s link b)) { link := link, hops := b.hops, root := BitVec.ofNat 16 b.root, interval := 0 }

/-- A chip that has heard nothing chooses the link. -/
theorem bestHeard_first (hh : s.tide.heard = []) (hf : s.tide.follow = none) :
    bestHeard (candidates (hear s link b)) = some (heardOn s link b) := by
  have hl : (hear s link b).tide.heard = [heardOn s link b] := by
    simp [hear, hh, heardOn]
  have hi : heardLately (hear s link b) (heardOn s link b) = true := by
    simp [heardLately, hear, heardOn]
  have hw : (hear s link b).tide.follow = none := hf
  simp [candidates, hl, hi, hw, bestHeard]

/-- The field lies in no bits that taking an upstream writes: UPSTREAM, its valid bit, HOPS, ROOT_ID. -/
abbrev OffUpstream (f : Fld) : Prop :=
  Fld.Apart fUpstream f ∧ Fld.Apart fUpstreamValid f ∧ Fld.Apart fHops f ∧ Fld.Apart ⟨pgTide, 0x084, 0, 16⟩ f

theorem takeUpstream_get (s : State) (x : Heard) (h : OffUpstream f) : (takeUpstream s x).get f = s.get f := by
  obtain ⟨h1, h2, h3, h4⟩ := h
  rw [takeUpstream, get_put_apart _ _ h4, get_put_apart _ _ h3, get_put_apart _ _ h2, get_put_apart _ _ h1]

theorem followed_get (h : OffUpstream f) : (followed s link b).get f = s.get f := by
  rw [followed, takeUpstream_get _ _ h]
  rcases upstreamChosen_cases (hear s link b) with hc | ⟨x, hc⟩
  · rw [hc, hear, updTide_get]
  · rw [hc, takeUpstream_get _ _ h, hear, updTide_get]

theorem followed_changes (s : State) (link : Nat) (b : BeaconMsg) :
    Changes s (followed s link b) (also (words pgTide [0x00C, 0x084]) (parts [.tide])) := by
  rw [followed, changes_takeUpstream (by simp) (by simp)]
  rcases upstreamChosen_cases (hear s link b) with hc | ⟨x, hc⟩ <;> rw [hc] <;> simp [hear]

theorem followed_tide (s : State) (link : Nat) (b : BeaconMsg) : ∃ l, (followed s link b).tide = { s.tide with heard := l } := by
  rw [followed, takeUpstream_tide]
  rcases upstreamChosen_cases (hear s link b) with hc | ⟨x, hc⟩
  · exact ⟨_, by rw [hc, hear, updTide_tide]⟩
  · exact ⟨_, by rw [hc, takeUpstream_tide, hear, updTide_tide]⟩

theorem followed_reads (hl : link < 16) :
    (followed s link b).get fUpstream = link ∧ (followed s link b).get fHops = min 255 (b.hops + 1) ∧
      (followed s link b).get ⟨pgTide, 0x084, 0, 16⟩ = b.root % 65536 := by
  obtain ⟨hu, -, hh, hr⟩ := takeUpstream_reads (upstreamChosen (hear s link b))
    { link := link, hops := b.hops, root := BitVec.ofNat 16 b.root, interval := 0 }
  exact ⟨hu.trans (Nat.mod_eq_of_lt hl), hh, hr.trans (BitVec.toNat_ofNat ..)⟩

/-- The link is the chip's upstream, or the chip has heard of none and may follow any (R35). -/
abbrev MayFollow (s : State) (link : Nat) : Prop :=
  s.bit fUpstreamValid = true ∧ s.get fUpstream = link ∨ s.bit fUpstreamValid = false ∧ s.tide.heard = [] ∧ s.tide.follow = none

theorem upstreamChosen_reads (hl : link < 16) (h : MayFollow s link) :
    (upstreamChosen (hear s link b)).bit fUpstreamValid = true ∧ (upstreamChosen (hear s link b)).get fUpstream = link := by
  have hb : (hear s link b).bit fUpstreamValid = s.bit fUpstreamValid := updTide_bit ..
  unfold upstreamChosen
  rcases h with ⟨hv, hu⟩ | ⟨hv, hh, hf⟩
  · rw [if_pos (hb.trans hv)]
    exact ⟨hb.trans hv, (updTide_get ..).trans hu⟩
  · obtain ⟨hu, hv', -⟩ := takeUpstream_reads (hear s link b) (heardOn s link b)
    rw [if_neg (by rw [hb, hv]; simp), bestHeard_first hh hf]
    exact ⟨hv', hu.trans (Nat.mod_eq_of_lt hl)⟩

/-- A chip that may follow the link does so, and then loads its tide, or runs the loop where both stand or neither does (R35, R36, R38). -/
theorem discipline_eq {proc16 : Nat} (hl : link < 16) (h : MayFollow s link) :
    discipline s link b proc16 =
      if !(followed s link b).tideValid then
        (if tideState (followed s link b) = 1 then acquire (followed s link b) link b proc16 else followed s link b)
      else if b.standing == (followed s link b).standing then runLoop (followed s link b) link b
      else followed s link b := by
  obtain ⟨hv, hu⟩ := upstreamChosen_reads (b := b) hl h
  have hc : (!((upstreamChosen (hear s link b)).bit fUpstreamValid && (upstreamChosen (hear s link b)).get fUpstream == link)) = false := by
    rw [hv, hu]
    simp
  exact if_neg (Bool.eq_false_iff.1 hc)

theorem tideMessage_of_upstream {bytes : List Byte} {proc16 : Nat} (hl : link < 16) (h : Upstream s link bytes b) :
    tideMessage s link bytes proc16 = discipline (sequenced s b) link b proc16 := by
  obtain ⟨-, hb, -, hrun, hroot, huse, hnews, -⟩ := h
  have hn : b.notice = false := by
    simp only [usable, Bool.and_eq_true, Bool.not_eq_true'] at huse
    exact huse.1.1.1
  have hr : isRoot (sequenced s b) = false :=
    (bit_eq_of_get (get_eq_of_changes (sequenced_changes s b) (by decide) (by simp))).trans hroot
  have hu : usable (sequenced s b) link b = true := (usable_of_changes (sequenced_changes s b) (by decide) hl b).trans huse
  simp [tideMessage, hb, hrun, learn_beacon hn hnews, hr, hu]

theorem beacon_wellFormed {link : Fin 16} {bytes : List Byte} {proc16 : BitVec 32} (h : bytes.length = 40) :
    (Instr.beacon link bytes proc16).wellFormed = true := by simp [Instr.wellFormed, h]

/-- What the chip has noted of an upstream beacon before it acts on it. -/
def upstreamNoted (s : State) (link : Nat) (b : BeaconMsg) : State := followed (sequenced s b) link b

theorem exec_beacon {link : Fin 16} {bytes : List Byte} {proc16 : BitVec 32} (h : Upstream s link.val bytes b) :
    exec (.beacon link bytes proc16) s = finish (
      if !(upstreamNoted s link.val b).tideValid then
        (if tideState (upstreamNoted s link.val b) = 1 then acquire (upstreamNoted s link.val b) link.val b proc16.toNat
          else upstreamNoted s link.val b)
      else if b.standing == (upstreamNoted s link.val b).standing then runLoop (upstreamNoted s link.val b) link.val b
      else upstreamNoted s link.val b) := by
  have hm := tideMessage_of_upstream (proc16 := proc16.toNat) link.isLt h
  obtain ⟨hrun, -, hlen, -, -, -, -, hmay⟩ := h
  have hf : MayFollow (sequenced s b) link.val := by
    have hg {f : Fld} (h0 : f.off < 4096) (h1 : regKey f.page f.off ≠ regKey pgTide 0x070) : (sequenced s b).get f = s.get f :=
      get_eq_of_changes (sequenced_changes s b) h0 (by simpa using h1)
    obtain ⟨k, ht⟩ := sequenced_tide s b
    rw [MayFollow, bit_eq_of_get (hg (by decide) (by decide)), hg (by decide) (by decide), ht]
    exact hmay
  show execBeacon link bytes proc16 s = _
  rw [execBeacon, beacon_wellFormed hlen, hrun, hm, discipline_eq link.isLt hf]
  rfl

theorem upstreamNoted_changes (s : State) (link : Nat) (b : BeaconMsg) :
    Changes s (upstreamNoted s link b) (also (words pgTide [0x00C, 0x070, 0x084]) (parts [.tide])) :=
  ((sequenced_changes s b).mono (tideWords_mono (by simp))).trans ((followed_changes (sequenced s b) link b).mono (tideWords_mono (by simp)))

theorem upstreamNoted_tide (s : State) (link : Nat) (b : BeaconMsg) :
    ∃ k l, (upstreamNoted s link b).tide = { s.tide with seqKnown := k, heard := l } := by
  obtain ⟨k, hk⟩ := sequenced_tide s b
  obtain ⟨l, hl⟩ := followed_tide (sequenced s b) link b
  exact ⟨k, l, by rw [upstreamNoted, hl, hk]⟩

/-- STATUS below the upstream's bits, and the words of the page that a beacon does not write, are not touched. -/
theorem upstreamNoted_get (h : OffUpstream f) (ho : f.off < 4096) (hs : regKey f.page f.off ≠ regKey pgTide 0x070) :
    (upstreamNoted s link b).get f = s.get f :=
  (followed_get h).trans (get_eq_of_changes (sequenced_changes s b) ho (by simpa using hs))

theorem upstreamNoted_recorded (s : State) (link : Nat) (b : BeaconMsg) : SeqRecorded s (upstreamNoted s link b) b :=
  (followed_get (by decide)).trans (sequenced_recorded s b)

theorem tideState_upstreamNoted : tideState (upstreamNoted s link b) = tideState s := upstreamNoted_get (by decide) (by decide) (by decide)
theorem tideValid_upstreamNoted : (upstreamNoted s link b).tideValid = s.tideValid :=
  bit_eq_of_get (upstreamNoted_get (by decide) (by decide) (by decide))
theorem standing_upstreamNoted : (upstreamNoted s link b).standing = s.standing :=
  bit_eq_of_get (upstreamNoted_get (by decide) (by decide) (by decide))

/-! The first beacon (R38). -/

/-- The tide as the beacon shows it, in 1/16 tick. -/
def shownLoaded (s : State) (count16 : Nat) : State :=
  updTide (updTide s (fun t => { t with sum16 := 0, goodRun := 0, sent := false }))
    (fun t => { t with now := BitVec.ofNat 64 (count16 / 16), frac := BitVec.ofNat 32 (count16 % 16 * 2 ^ 28) })

/-- A stand told of that the tide is past is no longer pending. -/
def pastDropped (s : State) : State := if tideReached s.tide.now s.tide.pendS then s.put fStandPending 0 else s

theorem acquire_running {proc16 : Nat} (h : b.standing = false) :
    acquire s link b proc16 = tideBecameValid ((pastDropped (shownLoaded s (shownCount s link b + proc16))).put fTideValid 1) := by
  simp only [acquire, h, Bool.false_eq_true, if_false]
  rfl

theorem pastDropped_tide (s : State) : (pastDropped s).tide = s.tide := by
  unfold pastDropped
  split <;> rfl

theorem pastDropped_get (s : State) (h : Fld.Apart fStandPending f) : (pastDropped s).get f = s.get f := by
  unfold pastDropped
  split
  · exact get_put_apart _ _ h
  · rfl

theorem changes_pastDropped (h : may (.reg (regKey pgTide 0x00C))) : Changes s (pastDropped t) may ↔ Changes s t may := by
  unfold pastDropped
  split
  · exact changes_put h
  · rfl

/-- The tide is valid now; what the beacon set is kept. -/
def acquired (s : State) (count16 : Nat) : State := tideBecameValid ((pastDropped (shownLoaded s count16)).put fTideValid 1)

theorem acquired_get {count16 : Nat} (h : Fld.Apart fStandPending f) (hv : Fld.Apart fTideValid f) (hp : f.off < 4096 ∧ f.page ≠ pgDebug) :
    (acquired s count16).get f = s.get f := by
  rw [acquired, tideBecameValid_get _ hp, get_put_apart _ _ hv, pastDropped_get _ h, shownLoaded, updTide_get, updTide_get]

theorem completes_acquires (link : Fin 16) (bytes : List Byte) (proc16 : BitVec 32) (b : BeaconMsg) (h : Upstream s link.val bytes b)
    (h1 : s.tideValid = false) (h2 : tideState s = 1) (h3 : b.standing = false) :
    Completes (.beacon link bytes proc16) s
      (also (also (words pgTide [0x00C, 0x070, 0x084]) (parts [.tide])) debugCloses) (fun t =>
      t.tideValid = true ∧ tideState t = 1 ∧ SeqRecorded s t b ∧
        t.tide.now = BitVec.ofNat 64 ((shownCount s link.val b + proc16.toNat) / 16) ∧
        t.get fHops = min 255 (b.hops + 1) ∧ t.get ⟨pgTide, 0x084, 0, 16⟩ = b.root % 65536) := by
  have hc := upstreamNoted_changes s link.val b
  have hs : shownCount (upstreamNoted s link.val b) link.val b = shownCount s link.val b := by
    rw [shownCount, shownCount, get_delay_of_changes hc (by decide) link.isLt]
  have he : exec (.beacon link bytes proc16) s =
      finish (acquired (upstreamNoted s link.val b) (shownCount s link.val b + proc16.toNat)) := by
    rw [exec_beacon h, tideValid_upstreamNoted, tideState_upstreamNoted, h1, if_pos Bool.not_false, if_pos h2, acquire_running h3, hs]
    rfl
  obtain ⟨-, hh, hr⟩ := followed_reads (s := sequenced s b) (b := b) link.isLt
  refine completes_finish he (.inl (.inl (.inl rfl))) ?_ ⟨?_, ?_, ?_, ?_, ?_, ?_⟩
  · rw [acquired, changes_tideBecameValid (fun _ hp => .inr hp), changes_put (by simp), changes_pastDropped (by simp), shownLoaded,
      changes_updTide (by simp), changes_updTide (by simp)]
    exact hc.mono (fun _ hp => .inl hp)
  · rw [signal_tideValid, State.tideValid, acquired, bit_eq_of_get (tideBecameValid_get _ (by decide)), State.bit, get_put_same _ _ (by decide)]
    rfl
  · rw [signal_tideState, tideState, acquired_get (by decide) (by decide) (by decide)]
    exact tideState_upstreamNoted.trans h2
  · rw [SeqRecorded, signal_get, acquired_get (by decide) (by decide) (by decide)]
    exact upstreamNoted_recorded s link.val b
  · rw [signal_tide, acquired, tideBecameValid_tide, State.put_tide, pastDropped_tide, shownLoaded, updTide_tide]
  · rw [signal_get, acquired_get (by decide) (by decide) (by decide)]
    exact hh
  · rw [signal_get, acquired_get (by decide) (by decide) (by decide)]
    exact hr

/-! The loop (R36, R37, R41). -/

/-- OFFSET, and LOST where the offset is beyond LOST_LIMIT (R41). -/
def offsetTaken (s : State) (link : Nat) (b : BeaconMsg) : State :=
  let u := s.wr pgTide 0x074 (sat32s (offset16 s link b))
  if (tideState s = 2 || tideState s = 3) && decide ((offset16 s link b).natAbs > u.get fLostLimit * 16) then enterLost u else u

/-- The integral of the offsets and the run of good ones. -/
def integrated (s : State) (e : Int) : State :=
  updTide s (fun t => { t with sum16 := int64 (s.tide.sum16 + e), goodRun := if e.natAbs ≤ 16 then t.goodRun + 1 else 0 })

/-- The hold at SLEW_MAX begins or ends (R37). -/
def slewHeld (s : State) (beyond : Bool) : State :=
  if beyond && !s.tide.aligned then
    logAdapt (tideEvent (updTide s (fun t => { t with aligned := true })) 1) pgTide false 2
  else if !beyond && s.tide.aligned then logAdapt (updTide s (fun t => { t with aligned := false })) pgTide true 2
  else s

theorem slewHeld_cases (s : State) (beyond : Bool) : ∃ a, slewHeld s beyond = updTide s (fun t => { t with aligned := a }) ∨
    slewHeld s beyond = logAdapt (updTide s (fun t => { t with aligned := a })) pgTide true 2 ∨
    slewHeld s beyond = logAdapt (tideEvent (updTide s (fun t => { t with aligned := a })) 1) pgTide false 2 := by
  unfold slewHeld
  split
  · exact ⟨true, .inr (.inr rfl)⟩
  · split
    · exact ⟨false, .inr (.inl rfl)⟩
    · exact ⟨s.tide.aligned, .inl rfl⟩

theorem changes_slewHeld {beyond : Bool} (h : may .tide) (he : ∀ p, eventParts pgTide p → may p) :
    Changes s (slewHeld t beyond) may ↔ Changes s t may := by
  have hl : may .log := he _ (by simp)
  obtain ⟨a, hs | hs | hs⟩ := slewHeld_cases t beyond
  · rw [hs, changes_updTide h]
  · rw [hs, changes_logAdapt hl, changes_updTide h]
  · rw [hs, changes_logAdapt hl, changes_tideEvent he, changes_updTide h]

theorem slewHeld_tide (s : State) (beyond : Bool) : ∃ a, (slewHeld s beyond).tide = { s.tide with aligned := a } := by
  obtain ⟨a, hs | hs | hs⟩ := slewHeld_cases s beyond
  · exact ⟨a, by rw [hs, updTide_tide]⟩
  · exact ⟨a, by rw [hs, logAdapt_tide, updTide_tide]⟩
  · exact ⟨a, by rw [hs, logAdapt_tide, tideEvent, raise_tide, updTide_tide]⟩

theorem slewHeld_rd (s : State) (beyond : Bool) {p o : Nat} (ho : o < 4096) (h : p ≠ pgTide ∨ o ∉ [0x010, 0x01C, 0x020, 0x024]) :
    (slewHeld s beyond).rd p o = s.rd p o := by
  obtain ⟨a, hs | hs | hs⟩ := slewHeld_cases s beyond
  · rw [hs, updTide_rd]
  · rw [hs, logAdapt_rd, updTide_rd]
  · rw [hs, logAdapt_rd, tideEvent, rd_raise, rd_setEvt_other _ ho h, updTide_rd]

/-- An event that has been reported stays so. -/
theorem slewHeld_evt (s : State) (beyond : Bool) {i : Nat} (h : (s.rd pgTide 0x010).getLsbD i = true) :
    ((slewHeld s beyond).rd pgTide 0x010).getLsbD i = true := by
  obtain ⟨a, hs | hs | hs⟩ := slewHeld_cases s beyond
  · rw [hs, updTide_rd, h]
  · rw [hs, logAdapt_rd, updTide_rd, h]
  · rw [hs, logAdapt_rd, tideEvent, eventSet_raise, updTide_rd, BitVec.getLsbD_or, h, Bool.true_or]

/-- What the loop leaves once the offset is taken: the integral, the run of good beacons, the hold, and the correction. -/
def looped (s : State) (e : Int) (beyond : Bool) (c : Int) : State := setCorr (slewHeld (integrated s e) beyond) c

theorem changes_looped {e c : Int} {beyond : Bool} (h : may .tide) (h1 : may (.reg (regKey pgTide 0x078)))
    (he : ∀ p, eventParts pgTide p → may p) : Changes s (looped t e beyond c) may ↔ Changes s t may := by
  rw [looped, changes_setCorr h h1, changes_slewHeld h he, integrated, changes_updTide h]

theorem looped_tide (s : State) (e : Int) (beyond : Bool) (c : Int) : ∃ a, (looped s e beyond c).tide =
    { s.tide with sum16 := int64 (s.tide.sum16 + e), goodRun := if e.natAbs ≤ 16 then s.tide.goodRun + 1 else 0, aligned := a, corr := c } := by
  obtain ⟨a, ha⟩ := slewHeld_tide (integrated s e) beyond
  exact ⟨a, by rw [looped, setCorr_tide, ha, integrated, updTide_tide]⟩

/-- The word is none that the loop writes: those of an event, and RATE. -/
abbrev OffLoop (p o : Nat) : Prop := o < 4096 ∧ (p ≠ pgTide ∨ o ∉ [0x010, 0x01C, 0x020, 0x024]) ∧ regKey p o ≠ regKey pgTide 0x078

theorem looped_rd (s : State) (e : Int) (beyond : Bool) (c : Int) {p o : Nat} (h : OffLoop p o) :
    (looped s e beyond c).rd p o = s.rd p o := by
  obtain ⟨ho, hw, hk⟩ := h
  rw [looped, setCorr_rd _ _ hk, slewHeld_rd _ _ ho hw, integrated, updTide_rd]

theorem looped_get (s : State) (e : Int) (beyond : Bool) (c : Int) (h : OffLoop f.page f.off) :
    (looped s e beyond c).get f = s.get f := get_eq_of_rd (looped_rd s e beyond c h)

theorem looped_evt (s : State) (e : Int) (beyond : Bool) (c : Int) {i : Nat} (h : (s.rd pgTide 0x010).getLsbD i = true) :
    ((looped s e beyond c).rd pgTide 0x010).getLsbD i = true := by
  rw [looped, setCorr_rd _ _ (by decide)]
  exact slewHeld_evt _ _ h

theorem offsetTaken_eq (s : State) (link : Nat) (b : BeaconMsg) :
    offsetTaken s link b =
      if (tideState s = 2 ∨ tideState s = 3) ∧ (offset16 s link b).natAbs > s.get fLostLimit * 16 then
        enterLost (s.wr pgTide 0x074 (sat32s (offset16 s link b)))
      else s.wr pgTide 0x074 (sat32s (offset16 s link b)) := by
  have hl (v : W32) : (s.wr pgTide 0x074 v).get fLostLimit = s.get fLostLimit := get_eq_of_rd (rd_wr_other _ _ (by decide))
  simp only [offsetTaken, hl, Bool.and_eq_true, Bool.or_eq_true, decide_eq_true_eq]

theorem offsetTaken_cases (s : State) (link : Nat) (b : BeaconMsg) :
    offsetTaken s link b = s.wr pgTide 0x074 (sat32s (offset16 s link b)) ∨
      offsetTaken s link b = enterLost (s.wr pgTide 0x074 (sat32s (offset16 s link b))) := by
  rw [offsetTaken_eq]
  split
  · exact .inr rfl
  · exact .inl rfl

theorem runLoop_eq (s : State) (link : Nat) (b : BeaconMsg) : ∃ beyond,
    runLoop s link b = looped (offsetTaken s link b) (offset16 s link b) beyond
      (clampSlew s (offset16 s link b * 1024 + int64 (s.tide.sum16 + offset16 s link b) * 64)) := by
  obtain ⟨beyond, he⟩ : ∃ beyond, runLoop s link b = looped (offsetTaken s link b) (offset16 s link b) beyond
      (clampSlew (slewHeld (integrated (offsetTaken s link b) (offset16 s link b)) beyond)
        (offset16 s link b * 1024 + int64 ((offsetTaken s link b).tide.sum16 + offset16 s link b) * 64)) := ⟨_, rfl⟩
  have hsum : (offsetTaken s link b).tide.sum16 = s.tide.sum16 := by
    rcases offsetTaken_cases s link b with h | h <;> simp [h]
  have hmax : (slewHeld (integrated (offsetTaken s link b) (offset16 s link b)) beyond).get fSlewMax = s.get fSlewMax := by
    rw [get_eq_of_rd (slewHeld_rd _ _ (by decide) (.inr (by decide))), integrated, updTide_get]
    rcases offsetTaken_cases s link b with h | h
    · rw [h, get_eq_of_rd (rd_wr_other _ _ (by decide))]
    · rw [h, enterLost_get _ (by decide) (by decide) (by decide), get_eq_of_rd (rd_wr_other _ _ (by decide))]
  exact ⟨beyond, by rw [he, hsum, clampSlew_congr hmax]⟩

theorem offset16_upstreamNoted (s : State) {link : Nat} (hl : link < 16) (b : BeaconMsg) :
    offset16 (upstreamNoted s link b) link b = offset16 s link b := by
  obtain ⟨k, l, ht⟩ := upstreamNoted_tide s link b
  rw [offset16, offset16, standing_upstreamNoted, ht, get_delay_of_changes (upstreamNoted_changes s link b) (by decide) hl]

/-- What the chip has noted of an upstream beacon, with its OFFSET. -/
def offsetNoted (s : State) (link : Nat) (b : BeaconMsg) : State :=
  (upstreamNoted s link b).wr pgTide 0x074 (sat32s (offset16 s link b))

theorem offsetNoted_changes (s : State) (link : Nat) (b : BeaconMsg) :
    Changes s (offsetNoted s link b) (also (words pgTide [0x00C, 0x070, 0x074, 0x084]) (parts [.tide])) := by
  rw [offsetNoted, changes_wr (by simp)]
  exact (upstreamNoted_changes s link b).mono (tideWords_mono (by simp))

theorem offsetNoted_get (s : State) (link : Nat) (b : BeaconMsg) (h : regKey f.page f.off ≠ regKey pgTide 0x074) :
    (offsetNoted s link b).get f = (upstreamNoted s link b).get f := get_eq_of_rd (rd_wr_other _ _ h)

theorem offsetNoted_tide (s : State) (link : Nat) (b : BeaconMsg) :
    ∃ k l, (offsetNoted s link b).tide = { s.tide with seqKnown := k, heard := l } := by
  rw [offsetNoted, State.wr_tide]
  exact upstreamNoted_tide s link b

/-- The correction that the loop comes to (R36, R37). -/
def loopCorr (s : State) (link : Nat) (b : BeaconMsg) : Int :=
  clampSlew s (offset16 s link b * 1024 + int64 (s.tide.sum16 + offset16 s link b) * 64)

/-- A beacon of the upstream where both stand or neither does runs the loop, from what is noted of it or, beyond the limit, from LOST. -/
theorem exec_beacon_loop {link : Fin 16} {bytes : List Byte} {proc16 : BitVec 32} (h : Upstream s link.val bytes b)
    (h1 : s.tideValid = true) (h2 : b.standing = s.standing) : ∃ beyond,
    exec (.beacon link bytes proc16) s = finish (looped
      (if (tideState s = 2 ∨ tideState s = 3) ∧ (offset16 s link.val b).natAbs > s.get fLostLimit * 16 then
        enterLost (offsetNoted s link.val b) else offsetNoted s link.val b)
      (offset16 s link.val b) beyond (loopCorr s link.val b)) := by
  have hget {f : Fld} (h0 : OffUpstream f) (h3 : f.off < 4096) (h4 : regKey f.page f.off ≠ regKey pgTide 0x070) :
      (upstreamNoted s link.val b).get f = s.get f := upstreamNoted_get h0 h3 h4
  obtain ⟨beyond, hr⟩ := runLoop_eq (upstreamNoted s link.val b) link.val b
  have hsum : (upstreamNoted s link.val b).tide.sum16 = s.tide.sum16 := by
    obtain ⟨k, l, ht⟩ := upstreamNoted_tide s link.val b
    rw [ht]
  rw [offsetTaken_eq, tideState_upstreamNoted, offset16_upstreamNoted s link.isLt, hget (by decide) (by decide) (by decide),
    clampSlew_congr (hget (by decide) (by decide) (by decide)), hsum] at hr
  refine ⟨beyond, ?_⟩
  rw [offsetNoted, loopCorr, exec_beacon h, tideValid_upstreamNoted, h1, if_neg (by decide), standing_upstreamNoted, h2, if_pos BEq.rfl, hr]

theorem completes_disciplines (link : Fin 16) (bytes : List Byte) (proc16 : BitVec 32) (b : BeaconMsg) (h : Upstream s link.val bytes b)
    (h1 : s.tideValid = true) (h2 : b.standing = s.standing)
    (h3 : ¬ ((tideState s = 2 ∨ tideState s = 3) ∧ (offset16 s link.val b).natAbs > s.get fLostLimit * 16)) :
    Completes (.beacon link bytes proc16) s
      (also (wordsAndEvent pgTide [0x00C, 0x070, 0x074, 0x078, 0x084]) (parts [.tide])) (fun t =>
      SeqRecorded s t b ∧ t.get fUpstream = link.val ∧ t.rd pgTide 0x074 = sat32s (offset16 s link.val b) ∧ t.tide.now = s.tide.now ∧
        tideState t = tideState s ∧ t.tide.sum16 = int64 (s.tide.sum16 + offset16 s link.val b) ∧
        t.tide.corr = clampSlew s (offset16 s link.val b * 1024 + int64 (s.tide.sum16 + offset16 s link.val b) * 64) ∧
        t.tide.goodRun = (if (offset16 s link.val b).natAbs ≤ 16 then s.tide.goodRun + 1 else 0) ∧
        t.get fHops = min 255 (b.hops + 1)) := by
  obtain ⟨beyond, he⟩ := exec_beacon_loop (proc16 := proc16) h h1 h2
  rw [if_neg h3] at he
  obtain ⟨k, l, ht⟩ := offsetNoted_tide s link.val b
  obtain ⟨a, hta⟩ := looped_tide (offsetNoted s link.val b) (offset16 s link.val b) beyond (loopCorr s link.val b)
  rw [ht] at hta
  have hg {f : Fld} (h0 : OffLoop f.page f.off) (h4 : regKey f.page f.off ≠ regKey pgTide 0x074) :
      (signal (looped (offsetNoted s link.val b) (offset16 s link.val b) beyond (loopCorr s link.val b))).get f =
        (upstreamNoted s link.val b).get f := by
    rw [signal_get, looped_get _ _ _ _ h0, offsetNoted_get _ _ _ h4]
  obtain ⟨hu, hh, -⟩ := followed_reads (s := sequenced s b) (b := b) link.isLt
  refine completes_finish he (.inl (.inl (.inl rfl))) ?_ ⟨?_, ?_, ?_, ?_, ?_, ?_, ?_, ?_, ?_⟩
  · rw [changes_looped (by simp) (by simp) (fun _ hp => .inl (.inr hp))]
    exact (offsetNoted_changes s link.val b).mono (tideEvents_mono (by simp))
  · exact (hg (by decide) (by decide)).trans (upstreamNoted_recorded s link.val b)
  · exact (hg (by decide) (by decide)).trans hu
  · rw [signal_rd, looped_rd _ _ _ _ (by decide), offsetNoted, rd_wr_same]
  · rw [signal_tide, hta]
  · exact (hg (by decide) (by decide)).trans tideState_upstreamNoted
  · rw [signal_tide, hta]
  · rw [signal_tide, hta]
    rfl
  · rw [signal_tide, hta]
  · exact (hg (by decide) (by decide)).trans hh

theorem completes_loses (link : Fin 16) (bytes : List Byte) (proc16 : BitVec 32) (b : BeaconMsg) (h : Upstream s link.val bytes b)
    (h1 : s.tideValid = true) (h2 : b.standing = s.standing) (h3 : tideState s = 2 ∨ tideState s = 3)
    (h4 : (offset16 s link.val b).natAbs > s.get fLostLimit * 16) :
    Completes (.beacon link bytes proc16) s
      (also (also (wordsAndEvent pgTide [0x00C, 0x070, 0x074, 0x078, 0x084]) (parts [.tide])) debugCloses) (fun t =>
      tideState t = 4 ∧ SeqRecorded s t b ∧ (t.rd pgTide 0x010).getLsbD 2 = true ∧ debugLevel t = 0 ∧ t.tide.now = s.tide.now) := by
  obtain ⟨beyond, he⟩ := exec_beacon_loop (proc16 := proc16) h h1 h2
  rw [if_pos ⟨h3, h4⟩] at he
  obtain ⟨k, l, ht⟩ := offsetNoted_tide s link.val b
  obtain ⟨a, hta⟩ := looped_tide (enterLost (offsetNoted s link.val b)) (offset16 s link.val b) beyond (loopCorr s link.val b)
  rw [enterLost_tide, ht] at hta
  refine completes_finish he (.inl (.inl (.inl (.inl rfl)))) ?_ ⟨?_, ?_, ?_, ?_, ?_⟩
  · rw [changes_looped (by simp) (by simp) (fun _ hp => .inl (.inl (.inr hp))),
      changes_enterLost (by simp) (by simp) (fun _ hp => .inl (.inl (.inr hp))) (fun _ hp => .inr hp)]
    exact (offsetNoted_changes s link.val b).mono (fun p hp => .inl (tideEvents_mono (by simp) p hp))
  · exact (signal_tideState _).trans ((looped_get _ _ _ _ (by decide)).trans (tideState_enterLost _))
  · rw [SeqRecorded, signal_get, looped_get _ _ _ _ (by decide), enterLost_get _ (by decide) (by decide) (by decide),
      offsetNoted_get _ _ _ (by decide)]
    exact upstreamNoted_recorded s link.val b
  · rw [signal_rd]
    refine looped_evt _ _ _ _ ?_
    rw [eventSet_enterLost, BitVec.getLsbD_or, (by decide : (BitVec.ofNat 32 (2 ^ 2)).getLsbD 2 = true), Bool.or_true]
  · exact (signal_debugLevel _).trans ((looped_get _ _ _ _ (by decide)).trans (debugLevel_enterLost _))
  · rw [signal_tide, hta]

/-! A notice (R45). -/

theorem standNotice_wellFormed {link : Fin 16} {bytes : List Byte} (h : bytes.length = 40) :
    (Instr.standNotice link bytes).wellFormed = true := by simp [Instr.wellFormed, h]

/-- A new notice of a stand that lies ahead is recorded and passed on. -/
theorem learn_notice (hs : seqIsNew s b.seq = true) (hn : b.notice = true) (hc : b.cancel = false) (hst : s.standing = false)
    (ha : tideReached s.now b.standAt = false) :
    learn s link b = floodNotice (standTold s b.seq b.standAt b.resumeAt) false (some link) := by
  have hst' : ((updTide (recordSeq s b.seq) (fun t => { t with pendS := b.standAt, pendResume := b.resumeAt })).put fStandPending 1).standing =
      false := by
    rw [State.standing, bit_put_apart _ _ (by decide), updTide_bit, recordSeq, updTide_bit, bit_put_apart _ _ (by decide)]
    exact hst
  have hnow : (standTold s b.seq b.standAt b.resumeAt).now = s.now := by
    rw [State.now, standTold_tide]
    rfl
  have hpast : ((standTold s b.seq b.standAt b.resumeAt).tideValid && !(standTold s b.seq b.standAt b.resumeAt).standing &&
      (standTold s b.seq b.standAt b.resumeAt).now != b.standAt && tideReached (standTold s b.seq b.standAt b.resumeAt).now b.standAt) = false := by
    rw [hnow, ha, Bool.and_false]
  have hl : learnStand (recordSeq s b.seq) link b = standTold s b.seq b.standAt b.resumeAt := by
    simp only [learnStand, hst', Bool.false_eq_true, if_false]
    exact if_neg (Bool.eq_false_iff.1 hpast)
  simp only [learn, hs, hn, hc, hl, if_true, Bool.not_false, Bool.true_or, Bool.and_self]

/-- Telling of a stand makes no root and no other node. -/
theorem standFlooded_roots (s : State) (seq : BitVec 16) (at_ resume : W64) (skip : Option Nat) :
    isRoot (floodNotice (standTold s seq at_ resume) false skip) = isRoot s ∧
      nodeId (floodNotice (standTold s seq at_ resume) false skip) = nodeId s := by
  have hc := standTold_changes s seq at_ resume
  exact ⟨bit_eq_of_get ((sendOn_get ..).trans (get_eq_of_changes hc (by decide) (by simp))),
    nodeId_congr ((sendOn_boot ..).trans (hc .boot (by simp)))
      ((sendOn_get ..).trans (get_eq_of_changes hc (by decide) (by simp [regKey, pgTopo, pgTide])))⟩

theorem completes_standNotice (link : Fin 16) (bytes : List Byte) (b : BeaconMsg) (h : running s = true) (h1 : beaconOf bytes = some b)
    (h2 : bytes.length = 40) (h3 : s.bit fRun = true) (h4 : isRoot s = false ∨ b.root = nodeId s) (h5 : seqIsNew s b.seq = true)
    (h6 : b.notice = true) (h7 : b.cancel = false) (h8 : s.standing = false) (h10 : tideReached s.now b.standAt = false) :
    Completes (.standNotice link bytes) s (also (words pgTide [0x00C, 0x070, 0x060, 0x064]) (parts [.tide])) (fun t =>
      t.bit fStandPending = true ∧ t.get fStandSeq = b.seq.toNat ∧ t.rd64 pgTide 0x060 = b.standAt ∧
        t.tide = { s.tide with seqKnown := true, pendS := b.standAt, pendResume := b.resumeAt } ∧
        Flooded s t (beaconBytes (ownBeacon t true false)) (some link.val)) := by
  have hc := standTold_changes s b.seq b.standAt b.resumeAt
  have he : exec (.standNotice link bytes) s = finish (floodNotice (standTold s b.seq b.standAt b.resumeAt) false (some link.val)) := by
    have hl := learn_notice (link := link.val) h5 h6 h7 h8 h10
    have hf := standFlooded_roots s b.seq b.standAt b.resumeAt (some link.val)
    have hroot : (isRoot s && b.root != nodeId s) = false := by
      rcases h4 with hr | hr <;> simp [hr]
    have hu (u : State) : usable u link.val b = false := by simp [usable, h6]
    show execStandNotice link bytes s = _
    rw [execStandNotice, standNotice_wellFormed h2, h]
    simp only [tideMessage, h1, h3, hl, hf, hroot, hu, Bool.not_true, Bool.false_eq_true, Bool.and_false, if_false, if_true]
  obtain ⟨hp, hq, hs⟩ := standTold_reads s b.seq b.standAt b.resumeAt
  refine completes_finish he (.inl (.inl rfl)) ((changes_sendOn (by simp)).2 hc) ⟨?_, ?_, ?_, ?_, ?_⟩
  · exact (signal_bit ..).trans ((bit_eq_of_get (sendOn_get ..)).trans hp)
  · exact (signal_get ..).trans ((sendOn_get ..).trans hq)
  · exact (signal_rd64 ..).trans ((sendOn_rd64 ..).trans hs)
  · rw [signal_tide, floodNotice, sendOn_tide, standTold_tide]
  · rw [floodNotice, ownBeacon_sent]
    exact flooded_sendOn (trained_of_changes hc (by decide))

end Sys2Proof.Claims

open Sys2Proof Sys2Proof.Machine Sys2Proof.Claims

/-- Settles O20: each command of the tide does what its row says, one lemma for each row. -/
theorem tideResults : Obligations.TideResults := by
  intro s i may post row
  cases row with
  | run a h h1 h2 h3 h4 => exact completes_run h h1 h2 h3 h4
  | runRoot a h h1 h2 h3 => exact completes_runRoot h h1 h2 h3
  | root a h h1 h2 h3 h4 h5 h6 => exact completes_root h h1 h2 h3 h5 h6
  | takesOver a h h2 h3 h4 h5 => exact completes_takesOver h h2 h3 h4 h5
  | rootRefused a h h2 h3 h4 h5 => exact completes_rootRefused h h2 h3 h4 h5
  | initLoad h => exact completes_initLoad h
  | tideSync h h1 h2 h3 => exact completes_tideSync h h1 h2 h3
  | refLoss h h1 h2 => exact completes_refLoss h h1 h2
  | rootRefReturn h1 h2 h3 h4 => exact completes_rootRefReturn h1 h2 h3 h4
  | wrap h h1 h2 => exact completes_wrap h h1 h2
  | beaconSend h => exact completes_beaconSend h
  | acquires link bytes proc16 b h h1 h2 h3 => exact completes_acquires link bytes proc16 b h h1 h2 h3
  | disciplines link bytes proc16 b h h1 h2 h3 => exact completes_disciplines link bytes proc16 b h h1 h2 h3
  | loses link bytes proc16 b h h1 h2 h3 h4 => exact completes_loses link bytes proc16 b h h1 h2 h3 h4
  | locked h h1 h2 h3 => exact completes_locked h h1 h2 h3
  | upstreamChange x h h1 h2 => exact completes_upstreamChange x h h1 h2
  | holdover h => exact completes_holdover h
  | lost h h1 => exact completes_lost h h1
  | schedule a h h1 h2 h3 h4 h5 h6 h7 => exact completes_schedule h h1 h2 h3 h4 h5 h6 h7
  | scheduleRefused a h h1 h2 => exact completes_scheduleRefused h h1 h2
  | standResume a h h1 h2 h3 h4 h5 h6 => exact completes_standResume h h1 h2 h3 h4 h5 h6
  | cancel a h h1 h2 h3 h4 h5 h6 => exact completes_cancel h h1 h2 h3 h4 h5 h6
  | standNotice link bytes b h h1 h2 h3 h4 h5 h6 h7 h8 h9 h10 => exact completes_standNotice link bytes b h h1 h2 h3 h4 h5 h6 h7 h8 h10
  | standBegin h h1 => exact completes_standBegin h h1
  | standsLate h h1 => exact completes_standsLate h h1
  | standEnd h => exact completes_standEnd h
end

section
/-! SUPPORT. Headers and beacons as bytes (02 R54, R55; 01 R32): a field read at its place is the field that was written there. -/

namespace Sys2Proof.Machine

/-! Little-endian fields. -/

@[simp] theorem length_bytesLE (n v : Nat) : (bytesLE n v).length = n := by
  induction n generalizing v with
  | zero => rfl
  | succ n ih => rw [bytesLE, List.length_cons, ih]

theorem natLE_bytesLE (n v : Nat) : natLE (bytesLE n v) = v % 256 ^ n := by
  induction n generalizing v with
  | zero => rw [bytesLE, natLE, Nat.pow_zero, Nat.mod_one]
  | succ n ih => rw [bytesLE, natLE, ih, BitVec.toNat_ofNat, Nat.pow_succ' (n := n), Nat.mod_mul]

/-- A field that lies past the first bytes. -/
theorem fieldLE_skip {k i : Nat} (v n : Nat) (r : List Byte) (h : k ≤ i) : fieldLE (bytesLE k v ++ r) i n = fieldLE r (i - k) n := by
  rw [fieldLE, fieldLE, List.drop_append, List.drop_of_length_le (by simpa using h), length_bytesLE, List.nil_append]

/-- The field that comes first. -/
theorem fieldLE_first (v n : Nat) (r : List Byte) : fieldLE (bytesLE n v ++ r) 0 n = v % 256 ^ n := by
  rw [fieldLE, List.drop_zero, List.take_left' (length_bytesLE n v), natLE_bytesLE]

/-- The field that comes last. -/
theorem fieldLE_last (v n : Nat) : fieldLE (bytesLE n v) 0 n = v % 256 ^ n := by
  rw [← List.append_nil (bytesLE n v), fieldLE_first]

end Sys2Proof.Machine

namespace Sys2Proof.Claims
open Sys2Proof.Machine

/-! Headers. -/

theorem length_hdrBytes (h : ConsHdr) : (hdrBytes h).length = 48 := by
  simp only [hdrBytes, List.length_append, length_bytesLE]

theorem hdrOf_hdrBytes {h : ConsHdr} (hf : HeaderFits h) : hdrOf (hdrBytes h) = h := by
  obtain ⟨hkind, hstream, hlen, hattempt, hberth, hsrc, hdst, hsp, hdp, haddr⟩ := hf
  have hseq := h.seq.isLt
  have hdue := h.due.isLt
  simp (disch := decide) only [hdrOf, hdrBytes, List.append_assoc, fieldLE_skip, fieldLE_first, Nat.reduceSub, Nat.reducePow]
  obtain ⟨kind, stream, seq, due, len, attempt, berth, src, dst, srcPlace, dstPlace, addr⟩ := h
  simp only [ConsHdr.mk.injEq]
  refine ⟨?_, ?_, BitVec.eq_of_toNat_eq ?_, BitVec.eq_of_toNat_eq ?_, ?_, ?_, ?_, ?_, ?_, ?_, ?_, ?_⟩ <;>
    simp only [BitVec.toNat_ofNat] at * <;> omega

/-! Beacons. -/

theorem length_beaconBody (b : BeaconMsg) : (beaconBody b).length = 36 := by
  simp only [beaconBody, List.length_append, length_bytesLE]

/-- The byte of a beacon with its state and flags. -/
def beaconFlags (b : BeaconMsg) : Nat :=
  b.state + (if b.pending then 8 else 0) + (if b.standing then 16 else 0) + (if b.notice then 32 else 0) + (if b.cancel then 64 else 0)

/-- The state and each flag are read back from their byte, and its reserved bit is zero. -/
theorem beaconFlags_reads {b : BeaconMsg} (h : b.state < 8) :
    beaconFlags b % 256 = beaconFlags b ∧ bitsOf (beaconFlags b) 0 3 = b.state ∧ (bitsOf (beaconFlags b) 3 1 == 1) = b.pending ∧
      (bitsOf (beaconFlags b) 4 1 == 1) = b.standing ∧ (bitsOf (beaconFlags b) 5 1 == 1) = b.notice ∧
      (bitsOf (beaconFlags b) 6 1 == 1) = b.cancel ∧ bitsOf (beaconFlags b) 7 1 = 0 := by
  obtain ⟨_, _, _, _, state, pending, standing, notice, cancel, _, _, _⟩ := b
  cases pending <;> cases standing <;> cases notice <;> cases cancel <;> simp [beaconFlags, bitsOf] at h ⊢ <;> omega

/-- The fields of a beacon lie in their places, and after them the CRC of the bytes before it. -/
theorem beaconBytes_fields {b : BeaconMsg} (hf : BeaconFits b) :
    fieldLE (beaconBytes b) 0 8 = b.sent.toNat ∧ fieldLE (beaconBytes b) 8 2 = b.sender ∧ fieldLE (beaconBytes b) 10 2 = b.root ∧
      fieldLE (beaconBytes b) 12 1 = b.hops ∧ fieldLE (beaconBytes b) 13 1 = beaconFlags b % 256 ∧
      fieldLE (beaconBytes b) 14 2 = b.seq.toNat ∧ fieldLE (beaconBytes b) 16 8 = b.standAt.toNat ∧
      fieldLE (beaconBytes b) 24 8 = b.resumeAt.toNat ∧ fieldLE (beaconBytes b) 32 4 = 0 ∧
      fieldLE (beaconBytes b) 36 4 = (crc32c (beaconBody b)).toNat := by
  obtain ⟨hsender, hroot, hhops, -⟩ := hf
  have hcrc := (crc32c (beaconBody b)).isLt
  unfold beaconBytes
  generalize crc32c (beaconBody b) = crc at *
  have hsent := b.sent.isLt
  have hseq := b.seq.isLt
  have hat := b.standAt.isLt
  have hres := b.resumeAt.isLt
  simp (disch := decide) only [beaconBody, List.append_assoc, fieldLE_skip, fieldLE_first, fieldLE_last, Nat.reduceSub, Nat.reducePow]
  refine ⟨?_, ?_, ?_, ?_, rfl, ?_, ?_, ?_, trivial, ?_⟩ <;> omega

theorem take_beaconBytes (b : BeaconMsg) : (beaconBytes b).take 36 = beaconBody b := List.take_left' (length_beaconBody b)

theorem beaconOf_beaconBytes {b : BeaconMsg} (hf : BeaconFits b) : beaconOf (beaconBytes b) = some b := by
  obtain ⟨hsent, hsender, hroot, hhops, hflags, hseq, hat, hres, hzero, hcrc⟩ := beaconBytes_fields hf
  obtain ⟨-, -, -, hfits⟩ := hf
  obtain ⟨hbyte, hstate, hpend, hstand, hnotice, hcancel, hreserved⟩ := beaconFlags_reads hfits
  simp only [beaconOf, take_beaconBytes, hsent, hsender, hroot, hhops, hflags, hseq, hat, hres, hzero, hcrc, hbyte, hstate, hpend, hstand,
    hnotice, hcancel, hreserved, BitVec.ofNat_toNat, BitVec.setWidth_eq, ne_eq, not_true, decide_false, Bool.or_self, Bool.false_eq_true,
    if_false]

end Sys2Proof.Claims

open Sys2Proof Sys2Proof.Machine Sys2Proof.Claims

/-- Settles O58: every field is read back from its place. -/
theorem headersRoundTrip : Obligations.HeadersRoundTrip :=
  ⟨fun h hf => ⟨length_hdrBytes h, hdrOf_hdrBytes hf⟩,
    fun b hf => ⟨by rw [beaconBytes, List.length_append, length_beaconBody, length_bytesLE], beaconOf_beaconBytes hf⟩⟩
end

section
/-! SUPPORT. Blocks of a store taken from other blocks: shadowed pairs, tile by tile and block by block (02 R73 to R77). -/

namespace Sys2Proof.Machine

variable {α : Type}

/-- What is not found in the first part of a store is looked up in the rest. -/
theorem storeGet_append_eq (m n : Store α) (k : Nat) (d : α) : storeGet (m ++ n) k d = storeGet m k (storeGet n k d) := by
  induction m with
  | nil => rfl
  | cons x m ih => rw [List.cons_append, storeGet, storeGet, ih]

/-- Position `e` of block `t`, as a block and a position. -/
theorem block_eq_iff {size e k : Nat} (he : e < size) (t : Nat) : k = t * size + e ↔ k / size = t ∧ k % size = e := by
  constructor
  · rintro rfl
    exact ⟨by rw [Nat.mul_comm, Nat.mul_add_div (by omega), Nat.div_eq_of_lt he, Nat.add_zero], Nat.mul_add_mod_of_lt he⟩
  · rintro ⟨rfl, rfl⟩
    exact (Nat.div_add_mod' k size).symm

/-- The entries of block `v` moved to block `u`. -/
theorem storeGet_movedBlock {size e : Nat} (he : e < size) (u v t : Nat) (m : Store α) (d : α) :
    storeGet ((m.filter (fun x => x.1 / size == v)).map (fun x => (u * size + x.1 % size, x.2))) (t * size + e) d =
      if t = u then storeGet m (v * size + e) d else d := by
  induction m with
  | nil => simp [storeGet]
  | cons x m ih =>
    obtain ⟨j, w⟩ := x
    have hkey : u * size + j % size = t * size + e ↔ u = t ∧ j % size = e := by
      have hu := (block_eq_iff (Nat.mod_lt j (Nat.zero_lt_of_lt he)) u).1 rfl
      rw [block_eq_iff he, hu.1, hu.2]
    by_cases hv : j / size = v
    · simp only [List.filter_cons, hv, beq_self_eq_true, if_true, List.map_cons, storeGet, hkey, block_eq_iff he, true_and, ih]
      by_cases ht : t = u
      · simp [ht]
      · simp [ht, Ne.symm ht]
    · simp only [List.filter_cons, hv, beq_iff_eq, if_false, storeGet, block_eq_iff he, false_and, ih]

/-- Every block of a store after its blocks have been taken from elsewhere. -/
theorem storeGet_moveBlocks {size n t e : Nat} (src : Nat → Nat) (m : Store α) (d : α) (he : e < size) :
    storeGet (moveBlocks size n src m) (t * size + e) d = if t < n then storeGet m (src t * size + e) d else d := by
  unfold moveBlocks
  induction n generalizing d with
  | zero => rfl
  | succ n ih =>
    rw [List.range_succ, List.map_append, List.flatten_append, storeGet_append_eq, ih]
    simp only [List.map_cons, List.map_nil, List.flatten_cons, List.flatten_nil, List.append_nil, storeGet_movedBlock he]
    rcases Nat.lt_trichotomy t n with h | rfl | h
    · simp [h, Nat.lt_succ_of_lt h, Nat.ne_of_lt h]
    · simp
    · simp [Nat.not_lt.2 h.le, h.ne', show ¬ t < n + 1 by omega]

end Sys2Proof.Machine
end

section
/-! SUPPORT. Commit and discard (02 R77 to R79): what a core keeps, and what it takes back. -/

namespace Sys2Proof.Claims
open Sys2Proof.Machine

variable {s t : State} {may : Part → Prop} {id : CoreId}

/-! Registers of the core's page. -/

theorem rd64_wr64_apart (s : State) {page o r : Nat} (v : W64) (h : r ≠ o ∧ r ≠ o + 4 ∧ r + 4 ≠ o) :
    (s.wr64 page o v).rd64 page r = s.rd64 page r := by
  obtain ⟨h0, h4, hr⟩ := h
  rw [State.rd64, State.rd64, rd_wr64_other _ _ h0 h4, rd_wr64_other _ _ hr (by omega)]

theorem rd64_add64_apart (s : State) {page o r : Nat} (n : Nat) (h : r ≠ o ∧ r ≠ o + 4 ∧ r + 4 ≠ o) :
    (s.add64 page o n).rd64 page r = s.rd64 page r := rd64_wr64_apart s _ h

/-! Commit. -/

/-- A commit without a data error: the core, COMMITS and RETIRED. -/
theorem commitCore_eq (h : (s.core id).seaFault = none) :
    commitCore s id =
      (((s.setCore id (committed (s.core id))).add64 (corePage id) 0x210 1).add64 (corePage id) 0x080 (s.core id).seaRetired) := by
  simp only [commitCore, h]

theorem swapSrc_lt {w d t : Nat} (marks : BitVec w) (h : t < d) : swapSrc marks d t = if marks.getLsbD t then t + d else t := if_pos h

theorem storeGet_committed_tiles (c : Core) {n e : Nat} (hn : n < 6) (he : e < 16384) :
    storeGet (committed c).tiles (n * 16384 + e) 0 = storeGet c.tiles ((if c.seaT.getLsbD n then n + 6 else n) * 16384 + e) 0 := by
  show storeGet (moveBlocks 16384 12 (swapSrc c.seaT 6) c.tiles) _ 0 = _
  rw [storeGet_moveBlocks _ _ _ he, if_pos (by omega), swapSrc_lt _ hn]

theorem storeGet_committed_rows (c : Core) {n e : Nat} (hn : n < 8) (he : e < 4096) :
    storeGet (committed c).rows (n * 4096 + e) 0 = storeGet c.rows ((if c.seaR.getLsbD n then n + 8 else n) * 4096 + e) 0 := by
  show storeGet (moveBlocks 4096 16 (swapSrc c.seaR 8) c.rows) _ 0 = _
  rw [storeGet_moveBlocks _ _ _ he, if_pos (by omega), swapSrc_lt _ hn]

theorem commitResults : claimCommitResults := by
  intro s id hf c t d
  have ht : t = _ := commitCore_eq hf
  have hd : d = committed c := by
    show t.core id = _
    rw [ht, core_add64, core_add64, core_setCore_same]
  rw [hd]
  refine ⟨fun n e => storeGet_committed_tiles c, fun n e => storeGet_committed_rows c, rfl, rfl, rfl, rfl, rfl, rfl, rfl, rfl, rfl, rfl, rfl,
    rfl, rfl, rfl, rfl, rfl, rfl, rfl, rfl, rfl, ?_, ?_, ?_⟩
  · rw [ht, rd64_add64_apart _ _ (by decide), rd64_add64_same]
    rfl
  · rw [ht, rd64_add64_same, rd64_add64_apart _ _ (by decide)]
    rfl
  · rw [Only, ht]
    simp

/-! Discard. -/

/-- From `c` to `d` only vector registers and slots differ, and of these only what the masks name. -/
structure LosesWritten (c d : Core) (wrV : BitVec 64) (wrB : BitVec 16) : Prop where
  rest : { d with vreg := c.vreg, slots := c.slots } = c
  vreg (r e : Nat) : e < 128 → wrV.getLsbD r = false → storeGet d.vreg (128 * r + e) 0 = storeGet c.vreg (128 * r + e) 0
  slots (b e : Nat) : e < 32768 → wrB.getLsbD b = false → storeGet d.slots (32768 * b + e) 0 = storeGet c.slots (32768 * b + e) 0

/-- Every field but these two is as before. -/
theorem LosesWritten.field_eq {α : Type} {c d : Core} {wrV : BitVec 64} {wrB : BitVec 16} (h : LosesWritten c d wrV wrB) (field : Core → α)
    (hf : ∀ k v b, field { k with vreg := v, slots := b } = field k) : field d = field c :=
  (hf d c.vreg c.slots).symm.trans (congrArg field h.rest)

variable {c d : Core} {wrV : BitVec 64} {wrB : BitVec 16}

theorem losesWritten_freeVreg (h : LosesWritten c d wrV wrB) {r : Nat} (hr : wrV.getLsbD r = true) (n : Nat) :
    LosesWritten c (freeVreg d r n) wrV wrB := by
  refine ⟨h.rest, fun q e he hq => ?_, h.slots⟩
  have hne : q ≠ r := by
    rintro rfl
    rw [hr] at hq
    cases hq
  rw [← h.vreg q e he hq, Nat.mul_comm]
  exact (storeGet_putBlock 128 r _ 0 d.vreg q e (by simp) he).trans (if_neg hne)

theorem losesWritten_freeSlot (h : LosesWritten c d wrV wrB) {b : Nat} (hb : wrB.getLsbD b = true) (n : Nat) :
    LosesWritten c (freeSlot d b n) wrV wrB := by
  refine ⟨h.rest, h.vreg, fun q e he hq => ?_⟩
  have hne : q ≠ b := by
    rintro rfl
    rw [hb] at hq
    cases hq
  rw [← h.slots q e he hq, Nat.mul_comm]
  exact (storeGet_putBlock 32768 b _ 0 d.slots q e (by simp) he).trans (if_neg hne)

/-- What each change of a core keeps, a sequence of changes that draw free values keeps. -/
theorem foldl_updCore_keeps {β : Type} {Q : Core → Prop} {g : Core → β → Nat → Core} {w : Nat} {l : List β}
    (hg : ∀ b ∈ l, ∀ k n, Q k → Q (g k b n)) (h : Q (s.core id)) :
    Q ((l.foldl (fun t b => { (updCore t id (fun k => g k b t.fresh)) with fresh := t.fresh + w }) s).core id) := by
  induction l generalizing s with
  | nil => exact h
  | cons b l ih =>
    refine ih (fun x hx => hg x (List.mem_cons_of_mem _ hx)) ?_
    show Q ((updCore s id (fun k => g k b s.fresh)).core id)
    rw [updCore_core]
    exact hg b List.mem_cons_self _ _ h

theorem loseSeaWrites_core (s : State) (id : CoreId) :
    LosesWritten (s.core id) ((loseSeaWrites s id).core id) (s.core id).wrV (s.core id).wrB := by
  refine foldl_updCore_keeps (Q := fun d => LosesWritten (s.core id) d (s.core id).wrV (s.core id).wrB)
    (fun b hb d n hd => losesWritten_freeSlot hd (List.mem_filter.1 hb).2 n) ?_
  refine foldl_updCore_keeps (Q := fun d => LosesWritten (s.core id) d (s.core id).wrV (s.core id).wrB)
    (fun r hr d n hd => losesWritten_freeVreg hd (List.mem_filter.1 hr).2 n) ?_
  exact ⟨rfl, fun _ _ _ _ => rfl, fun _ _ _ _ => rfl⟩

@[simp] theorem changes_loseSeaWrites (h : may (.core id.toNat)) (hf : may .fresh) :
    Changes s (loseSeaWrites t id) may ↔ Changes s t may := by
  unfold loseSeaWrites
  rw [changes_foldl, changes_foldl] <;>
    exact fun u _ => (changes_fresh (t := updCore u id _) hf).trans (changes_updCore h)

/-- The core goes back to its checkpoint, and its page says because of which consignment. -/
def wentBack (s : State) (id : CoreId) (k : ConsKey) (port : Nat) : State :=
  (((updCore (loseSeaWrites s id) id discarded).add64 (corePage id) 0x218 1).wrN (corePage id) 0x220 k.seq.toNat).wrN
    (corePage id) 0x224 (k.stream.toNat + port % 32 * 2 ^ 16)

theorem wentBack_core (s : State) (id : CoreId) (k : ConsKey) (port : Nat) :
    (wentBack s id k port).core id = discarded ((loseSeaWrites s id).core id) := by
  rw [wentBack, core_wrN, core_wrN, core_add64, updCore_core]

/-- A running core then waits for the replay (R79). -/
theorem discardCore_eq (k : ConsKey) (port : Nat) (h : (s.core id).state = .running) :
    discardCore s id k port none =
      (wentBack s id k port).setCore id { discarded ((loseSeaWrites s id).core id) with redo := some k, wait := 6 } := by
  have hst : ((wentBack s id k port).core id).state = .running := by
    rw [wentBack_core]
    exact ((loseSeaWrites_core s id).field_eq Core.state (fun _ _ _ => rfl)).trans h
  refine (if_pos hst).trans ?_
  rw [← wentBack_core s id k port]
  rfl

theorem loseSeaWrites_rd (s : State) (id : CoreId) {page off : Nat} (h : off < 4096) :
    (loseSeaWrites s id).rd page off = s.rd page off :=
  Changes.rd_eq (may := (· ∈ [.core id.toNat, .fresh])) ((changes_loseSeaWrites (by simp) (by simp)).2 (Changes.refl _ _)) h (by simp)

/-- DISCARDS, LAST_FAIL_SEQ and LAST_FAIL_SRC after a discard. -/
theorem wentBack_counts (s : State) (id : CoreId) (k : ConsKey) (port : Nat) :
    (wentBack s id k port).rd64 (corePage id) 0x218 = s.rd64 (corePage id) 0x218 + 1 ∧
      (wentBack s id k port).rd (corePage id) 0x220 = k.seq ∧
      (wentBack s id k port).rdN (corePage id) 0x224 = k.stream.toNat + port % 32 * 65536 := by
  have hlow : (loseSeaWrites s id).rd64 (corePage id) 0x218 = s.rd64 (corePage id) 0x218 := by
    rw [State.rd64, State.rd64, loseSeaWrites_rd _ _ (by decide), loseSeaWrites_rd _ _ (by decide)]
  have hstream : k.stream.toNat < 65536 := k.stream.isLt
  refine ⟨?_, ?_, rdN_wrN_same _ _ _ (by omega)⟩
  · rw [wentBack, State.wrN, State.wrN, rd64_wr_other _ _ (by decide) (by decide), rd64_wr_other _ _ (by decide) (by decide),
      rd64_add64_same, updCore_rd64, hlow]
    rfl
  · rw [wentBack, State.wrN, rd_wr_other _ _ (regKey_ne (by decide)), rd_wrN_same, BitVec.ofNat_toNat, BitVec.setWidth_eq]

theorem discardResults : claimDiscardResults := by
  intro s id k port hst c t d
  have ht : t = _ := discardCore_eq k port hst
  have hd : d = { discarded ((loseSeaWrites s id).core id) with redo := some k, wait := 6 } := by
    show t.core id = _
    rw [ht, core_setCore_same]
  have hl := loseSeaWrites_core s id
  obtain ⟨hcount, hseq, hsrc⟩ := wentBack_counts s id k port
  rw [hd, ht]
  refine ⟨hl.field_eq Core.ckPc (fun _ _ _ => rfl), hl.field_eq Core.ckSreg (fun _ _ _ => rfl), hl.field_eq Core.ckMreg (fun _ _ _ => rfl),
    hl.field_eq Core.tiles (fun _ _ _ => rfl), hl.field_eq Core.rows (fun _ _ _ => rfl), hl.field_eq Core.aflags (fun _ _ _ => rfl),
    fun r e _ => hl.vreg r e, fun b e _ => hl.slots b e, rfl, rfl, rfl, rfl, rfl, rfl, rfl, rfl,
    (hl.field_eq Core.state (fun _ _ _ => rfl)).trans hst, hcount, hseq, hsrc, ?_⟩
  rw [Only, wentBack]
  simp

end Sys2Proof.Claims

open Sys2Proof Sys2Proof.Machine Sys2Proof.Claims

/-- Settles O24: a commit moves the halves written at sea, a discard returns to the checkpoint. -/
theorem quayLineResults : Obligations.QuayLineResults := ⟨commitResults, discardResults⟩
end

section
/-! SUPPORT. The quay unit (02 R74, R76, R81 to R84): pairs refreshed, speculation switched on and off, windows and blocks of ports. -/

namespace Sys2Proof.Claims
open Sys2Proof.Machine

variable {s t : State} {may : Part → Prop} {post : State → Prop} {id : CoreId} {f : Fld} {p n : Nat} {a : Access}

/-! Pairs (R76). -/

theorem copySrc_upper {w d n : Nat} {marks : BitVec w} (h : marks.getLsbD n = true) : copySrc marks d (n + d) = n := by
  simp [copySrc, h]

theorem copySrc_other {w d n m : Nat} (h : m ≠ n + d) : copySrc (BitVec.ofNat w (2 ^ n)) d m = m := by
  refine if_neg (fun hm => h ?_)
  simp only [Bool.and_eq_true, decide_eq_true_eq, BitVec.getLsbD_ofNat, Nat.testBit_two_pow] at hm
  omega

theorem getLsbD_clearBitsOf_one {w : Nat} (v : BitVec w) (n : Nat) : (clearBitsOf v [n]).getLsbD n = false := by
  simp only [clearBitsOf, List.foldl_cons, List.foldl_nil, BitVec.getLsbD_and, BitVec.getLsbD_not, BitVec.getLsbD_ofNat, Nat.testBit_two_pow]
  by_cases h : n < w <;> simp [h]

theorem getLsbD_one_hot {n : Nat} (h : n < 16) : (BitVec.ofNat 16 (2 ^ n)).getLsbD n = true := by
  rw [BitVec.getLsbD_ofNat, Nat.testBit_two_pow_self, decide_eq_true h, Bool.and_self]

/-- The refreshed pair's second half, and every other half. -/
theorem storeGet_refreshTile (c : Core) {n : Nat} (hn : n < 6) :
    (∀ e, e < 16384 → storeGet (refreshTile c n).tiles ((n + 6) * 16384 + e) 0 = storeGet c.tiles (n * 16384 + e) 0) ∧
      ∀ m e, m < 12 → m ≠ n + 6 → e < 16384 →
        storeGet (refreshTile c n).tiles (m * 16384 + e) 0 = storeGet c.tiles (m * 16384 + e) 0 := by
  refine ⟨fun e he => ?_, fun m e hm hne he => ?_⟩
  · rw [refreshTile, storeGet_moveBlocks _ _ _ he, if_pos (by omega), copySrc_upper (getLsbD_one_hot (by omega))]
  · rw [refreshTile, storeGet_moveBlocks _ _ _ he, if_pos hm, copySrc_other hne]

theorem storeGet_refreshRows (c : Core) {n : Nat} (hn : n < 8) :
    (∀ e, e < 4096 → storeGet (refreshRows c n).rows ((n + 8) * 4096 + e) 0 = storeGet c.rows (n * 4096 + e) 0) ∧
      ∀ m e, m < 16 → m ≠ n + 8 → e < 4096 →
        storeGet (refreshRows c n).rows (m * 4096 + e) 0 = storeGet c.rows (m * 4096 + e) 0 := by
  refine ⟨fun e he => ?_, fun m e hm hne he => ?_⟩
  · rw [refreshRows, storeGet_moveBlocks _ _ _ he, if_pos (by omega), copySrc_upper (getLsbD_one_hot (by omega))]
  · rw [refreshRows, storeGet_moveBlocks _ _ _ he, if_pos hm, copySrc_other hne]

/-- A command that changes one core completes by that change. -/
theorem completes_updCore {i : Instr} {g : Core → Core} (he : exec i s = finish (updCore s id g))
    (hp : ∀ t : State, t.core id = g (s.core id) → post t) : Completes i s (parts [.core id.toNat, .signals]) post :=
  completes_finish he (by simp) (by simp) (hp _ (by rw [signal_core, updCore_core]))

/-- The pair is the lowest that is marked. -/
abbrev LowestMarked (m : BitVec 16) (n : Nat) : Prop := m.getLsbD n = true ∧ ∀ i, i < n → m.getLsbD i = false

theorem lowest_of_marked {m : BitVec 16} (h : LowestMarked m n) : (m.getLsbD n && (List.range n).all (fun i => !m.getLsbD i)) = true := by
  obtain ⟨hn, hlow⟩ := h
  simpa [hn] using hlow

theorem exec_refreshTile {n : Fin 8} (h : coreOk id = true) (hm : LowestMarked (s.core id).refT n.val) :
    exec (.pairRefresh id .tile n) s = finish (updCore s id (fun c => refreshTile c n.val)) := by
  show execPairRefresh id .tile n s = _
  simp only [execPairRefresh, h, lowest_of_marked hm, Bool.not_true, Bool.false_eq_true, if_false, if_true]

theorem exec_refreshRows {n : Fin 8} (h : coreOk id = true) (hm : LowestMarked (s.core id).refR n.val) :
    exec (.pairRefresh id .rows n) s = finish (updCore s id (fun c => refreshRows c n.val)) := by
  show execPairRefresh id .rows n s = _
  simp only [execPairRefresh, h, lowest_of_marked hm, Bool.not_true, Bool.false_eq_true, if_false, if_true]

theorem completes_refreshTile (n : Fin 8) (h : coreOk id = true) (h1 : n.val < 6) (hm : LowestMarked (s.core id).refT n.val) :
    Completes (.pairRefresh id .tile n) s (parts [.core id.toNat, .signals]) (fun t =>
      (∀ e, e < 16384 → storeGet (t.core id).tiles ((n.val + 6) * 16384 + e) 0 = storeGet (s.core id).tiles (n.val * 16384 + e) 0) ∧
      (∀ m e, m < 12 → m ≠ n.val + 6 → e < 16384 →
        storeGet (t.core id).tiles (m * 16384 + e) 0 = storeGet (s.core id).tiles (m * 16384 + e) 0) ∧
      (t.core id).refT.getLsbD n.val = false ∧ (t.core id).rows = (s.core id).rows ∧ (t.core id).vreg = (s.core id).vreg) := by
  obtain ⟨hupper, hother⟩ := storeGet_refreshTile (s.core id) h1
  refine completes_updCore (exec_refreshTile h hm) (fun t ht => ?_)
  rw [ht]
  exact ⟨hupper, hother, getLsbD_clearBitsOf_one .., rfl, rfl⟩

theorem completes_refreshRows (n : Fin 8) (h : coreOk id = true) (hm : LowestMarked (s.core id).refR n.val) :
    Completes (.pairRefresh id .rows n) s (parts [.core id.toNat, .signals]) (fun t =>
      (∀ e, e < 4096 → storeGet (t.core id).rows ((n.val + 8) * 4096 + e) 0 = storeGet (s.core id).rows (n.val * 4096 + e) 0) ∧
      (∀ m e, m < 16 → m ≠ n.val + 8 → e < 4096 →
        storeGet (t.core id).rows (m * 4096 + e) 0 = storeGet (s.core id).rows (m * 4096 + e) 0) ∧
      (t.core id).refR.getLsbD n.val = false ∧ (t.core id).tiles = (s.core id).tiles ∧ (t.core id).vreg = (s.core id).vreg) := by
  obtain ⟨hupper, hother⟩ := storeGet_refreshRows (s.core id) n.isLt
  refine completes_updCore (exec_refreshRows h hm) (fun t ht => ?_)
  rw [ht]
  exact ⟨hupper, hother, getLsbD_clearBitsOf_one .., rfl, rfl⟩

/-! Speculation (R74). -/

theorem completes_specEn (h : coreOk id = true) (h1 : HostTakes s (corePage id) 0x200 a) :
    Completes (.specEn id a) s (words (corePage id) [0x200]) (fun t => t.bit (fSpecEn id) = a.data.getLsbD 0) := by
  have he : exec (.specEn id a) s = hostWrite (corePage id) 0x200 a (writeQctrl id) s := by
    show execSpecEn id a s = _
    simp only [execSpecEn, h, Bool.not_true, Bool.false_eq_true, if_false]
  exact completes_taken he h1 rfl (.inl rfl) (by simp [writeQctrl]) ((signal_bit ..).trans (bit_putBit_same _ _ (by decide)))

theorem exec_specEnEffect (h : coreOk id = true) (h1 : (s.core id).specOn ≠ s.bit (fSpecEn id)) (h3 : (s.core id).atSea = false) :
    exec (.specEnEffect id) s = finish (updCore s id (fun c => specEffect c (s.bit (fSpecEn id)))) := by
  show execSpecEnEffect id s = _
  simp only [execSpecEnEffect, specDue, h, h3, bne_iff_ne.2 h1, Bool.not_true, Bool.not_false, Bool.and_self, Bool.false_eq_true, if_false,
    if_true]

/-- Each half of a store whose upper half has become a copy of its lower. -/
theorem storeGet_doubled {α : Type} {size d n e : Nat} (m : Store α) (x : α) (hn : n < d) (he : e < size) :
    storeGet (moveBlocks size (d + d) (fun t => if d ≤ t then t - d else t) m) (n * size + e) x = storeGet m (n * size + e) x ∧
      storeGet (moveBlocks size (d + d) (fun t => if d ≤ t then t - d else t) m) ((n + d) * size + e) x = storeGet m (n * size + e) x := by
  constructor
  · rw [storeGet_moveBlocks _ _ _ he, if_pos (by omega), if_neg (by omega)]
  · rw [storeGet_moveBlocks _ _ _ he, if_pos (by omega), if_pos (by omega), Nat.add_sub_cancel]

/-- Each block of a store of which only the lower half is kept. -/
theorem storeGet_halved {α : Type} {size d n e : Nat} (m : Store α) (x : α) (he : e < size) :
    storeGet (storeKeep (fun k => k / size < d) m) (n * size + e) x = if n < d then storeGet m (n * size + e) x else x := by
  obtain ⟨hn, -⟩ := (block_eq_iff he n).1 rfl
  split
  · exact storeGet_storeKeep_pos m _ x (by simpa [hn])
  · exact storeGet_storeKeep_neg m _ x (by simp [hn]; omega)

theorem completes_specOn (h : coreOk id = true) (h1 : (s.core id).specOn = false) (h2 : s.bit (fSpecEn id) = true)
    (h3 : (s.core id).atSea = false) :
    Completes (.specEnEffect id) s (parts [.core id.toNat, .signals]) (fun t =>
      (t.core id).specOn = true ∧
      (∀ n e, n < 6 → e < 16384 → storeGet (t.core id).tiles (n * 16384 + e) 0 = storeGet (s.core id).tiles (n * 16384 + e) 0 ∧
        storeGet (t.core id).tiles ((n + 6) * 16384 + e) 0 = storeGet (s.core id).tiles (n * 16384 + e) 0) ∧
      (∀ n e, n < 8 → e < 4096 → storeGet (t.core id).rows (n * 4096 + e) 0 = storeGet (s.core id).rows (n * 4096 + e) 0 ∧
        storeGet (t.core id).rows ((n + 8) * 4096 + e) 0 = storeGet (s.core id).rows (n * 4096 + e) 0)) := by
  refine completes_updCore (exec_specEnEffect h (by simp [h1, h2]) h3) (fun t ht => ?_)
  rw [ht, h2]
  exact ⟨rfl, fun n e hn he => storeGet_doubled _ _ hn he, fun n e hn he => storeGet_doubled _ _ hn he⟩

theorem completes_specOff (h : coreOk id = true) (h1 : (s.core id).specOn = true) (h2 : s.bit (fSpecEn id) = false)
    (h3 : (s.core id).atSea = false) :
    Completes (.specEnEffect id) s (parts [.core id.toNat, .signals]) (fun t =>
      (t.core id).specOn = false ∧
      (∀ n e, n < 12 → e < 16384 → storeGet (t.core id).tiles (n * 16384 + e) 0 =
        if n < 6 then storeGet (s.core id).tiles (n * 16384 + e) 0 else 0) ∧
      (∀ n e, n < 16 → e < 4096 → storeGet (t.core id).rows (n * 4096 + e) 0 =
        if n < 8 then storeGet (s.core id).rows (n * 4096 + e) 0 else 0)) := by
  refine completes_updCore (exec_specEnEffect h (by simp [h1, h2]) h3) (fun t ht => ?_)
  rw [ht, h2]
  exact ⟨rfl, fun n e _ he => storeGet_halved _ _ he, fun n e _ he => storeGet_halved _ _ he⟩

/-! Windows (R83, R84). -/

/-- Another field of the word. -/
theorem get_put_word (s : State) {page off lo w lo' w' : Nat} (v : Nat) (h : lo' + w' ≤ 32 ∧ (lo' + w' ≤ lo ∨ lo + w ≤ lo')) :
    (s.put ⟨page, off, lo, w⟩ v).get ⟨page, off, lo', w'⟩ = s.get ⟨page, off, lo', w'⟩ := get_put_apart s v (.inr ⟨rfl, rfl, h⟩)

theorem bit_put_word (s : State) {page off lo w lo' : Nat} (v : Nat) (h : lo' + 1 ≤ 32 ∧ (lo' + 1 ≤ lo ∨ lo + w ≤ lo')) :
    (s.put ⟨page, off, lo, w⟩ v).bit ⟨page, off, lo', 1⟩ = s.bit ⟨page, off, lo', 1⟩ := bit_eq_of_get (get_put_word s v h)

/-- A field of another word of the page. -/
theorem get_wrN_off (s : State) {page off lo w : Nat} {o v : Nat} (h : off ≠ o) :
    (s.wrN page o v).get ⟨page, off, lo, w⟩ = s.get ⟨page, off, lo, w⟩ := get_eq_of_rd (rd_wr_other _ _ (regKey_ne h))

theorem rd_put_off (s : State) {page off lo w o : Nat} (v : Nat) (h : o ≠ off) : (s.put ⟨page, off, lo, w⟩ v).rd page o = s.rd page o :=
  rd_put_other s v (regKey_ne h)

/-- The window of a port is turned: CLOSED and WINDOW are set, and an event and an adaptation say so. -/
def windowTurned (s : State) (p closed w code : Nat) (ends : Bool) : State :=
  logAdapt (raise ((s.put (fClosed p) closed).put (fWindow p) w) (pgPort p) 30 code) (pgPort p) ends

theorem reopenWindow_eq (s : State) (p : Nat) : reopenWindow s p = windowTurned s p 0 (s.get (fWindowMax p)) 0x3004 true := rfl
theorem closeWindow_eq (s : State) (p : Nat) : closeWindow s p = windowTurned s p 1 0 0x3003 false := rfl

section
variable {closed w code : Nat} {ends : Bool}

theorem windowTurned_get {off lo width : Nat} (h : off < 4096 ∧ off ∉ [0x010, 0x01C, 0x020, 0x024]) :
    (windowTurned s p closed w code ends).get ⟨pgPort p, off, lo, width⟩ =
      ((s.put (fClosed p) closed).put (fWindow p) w).get ⟨pgPort p, off, lo, width⟩ :=
  (logAdapt_get ..).trans (raise_get _ ⟨h.1, .inr h.2⟩)

theorem window_windowTurned : (windowTurned s p closed w code ends).get (fWindow p) = w % 8 :=
  (windowTurned_get (by decide)).trans (get_put_same _ _ (by decide))

theorem closed_windowTurned : (windowTurned s p closed w code ends).bit (fClosed p) = (closed % 2 != 0) := by
  rw [State.bit, windowTurned_get (by decide), get_put_word _ _ (by decide), get_put_same _ _ (by decide), Nat.pow_one]

theorem eventSet_windowTurned : EventSet s (windowTurned s p closed w code ends) (pgPort p) 30 := by
  rw [EventSet, windowTurned, logAdapt_rd, eventSet_raise, rd_put_off _ _ (by decide), rd_put_off _ _ (by decide)]

theorem windowTurned_rd {off : Nat} (ho : off < 4096) (h : off ∉ [0x010, 0x01C, 0x020, 0x024, 0x400]) :
    (windowTurned s p closed w code ends).rd (pgPort p) off = s.rd (pgPort p) off := by
  simp only [List.mem_cons, List.not_mem_nil, or_false, not_or] at h
  obtain ⟨h1, h2, h3, h4, h5⟩ := h
  rw [windowTurned, logAdapt_rd, rd_raise, rd_setEvt_other _ ho (.inr (by simp [h1, h2, h3, h4])), rd_put_off _ _ h5, rd_put_off _ _ h5]

theorem changes_windowTurned (h : may (.reg (regKey (pgPort p) 0x400))) (he : ∀ q, eventParts (pgPort p) q → may q) :
    Changes s (windowTurned t p closed w code ends) may ↔ Changes s t may := by
  have hl : may .log := he _ (by simp)
  rw [windowTurned, changes_logAdapt hl, changes_raise (fun _ hx => he _ (eventParts_of_mem hx)) hl, changes_put (f := fWindow p) h,
    changes_put (f := fClosed p) h]

end

/-- QWIN as a write leaves it, before the window follows. -/
def qwinSet (s : State) (p : Nat) (v : W32) : State := (s.put (fWindowMax p) (min 4 (v.toNat % 8))).putBit (fAuto p) (v.getLsbD 8)

theorem windowMax_qwinSet (s : State) (p : Nat) (v : W32) : (qwinSet s p v).get (fWindowMax p) = min 4 (v.toNat % 8) := by
  rw [qwinSet, State.putBit, get_put_word _ _ (by decide), get_put_same _ _ (by decide)]
  exact Nat.mod_eq_of_lt (by omega)

theorem auto_qwinSet (s : State) (p : Nat) (v : W32) : (qwinSet s p v).bit (fAuto p) = v.getLsbD 8 := bit_putBit_same _ _ (by decide)

theorem closed_qwinSet (s : State) (p : Nat) (v : W32) : (qwinSet s p v).bit (fClosed p) = s.bit (fClosed p) := by
  rw [qwinSet, State.putBit, bit_put_word _ _ (by decide), bit_put_word _ _ (by decide)]

@[simp] theorem changes_qwinSet {v : W32} (h : may (.reg (regKey (pgPort p) 0x400))) :
    Changes s (qwinSet t p v) may ↔ Changes s t may := by simp [qwinSet, h]

/-- What a write of QWIN does on a live port. -/
theorem writeQwin_eq (s : State) (v : W32) (h : portLive s p = true) :
    writeQwin p s v =
      if !s.bit (fClosed p) then (qwinSet s p v).put (fWindow p) (min 4 (v.toNat % 8))
      else if !v.getLsbD 8 then windowTurned (qwinSet s p v) p 0 (min 4 (v.toNat % 8)) 0x3004 true
      else qwinSet s p v := by
  rw [← closed_qwinSet s p v, ← auto_qwinSet s p v, ← windowMax_qwinSet s p v, ← reopenWindow_eq]
  exact if_neg (by simp [h])

theorem completes_window (p : Fin 24) (h : HostTakes s (pgPort p.val) 0x400 a) (h1 : portLive s p.val = true)
    (h2 : s.bit (fClosed p.val) = false) :
    Completes (.qwin p a) s (words (pgPort p.val) [0x400]) (fun t =>
      t.get (fWindowMax p.val) = min 4 (a.data.toNat % 8) ∧ t.get (fWindow p.val) = min 4 (a.data.toNat % 8) ∧
        t.bit (fAuto p.val) = a.data.getLsbD 8 ∧ t.bit (fClosed p.val) = false) := by
  have he : writeQwin p.val s a.data = _ := (writeQwin_eq s a.data h1).trans (if_pos (by rw [h2]; rfl))
  refine completes_taken rfl h he (.inl rfl) (by simp) ?_
  simp (disch := decide) only [signal_get, signal_bit, get_put_word, bit_put_word, get_put_same, windowMax_qwinSet, auto_qwinSet,
    closed_qwinSet]
  exact ⟨trivial, Nat.mod_eq_of_lt (by omega), trivial, h2⟩

theorem completes_reopens (p : Fin 24) (h : HostTakes s (pgPort p.val) 0x400 a) (h1 : portLive s p.val = true)
    (h2 : s.bit (fClosed p.val) = true) (h3 : a.data.getLsbD 8 = false) :
    Completes (.qwin p a) s (wordsAndEvent (pgPort p.val) [0x400]) (fun t =>
      t.get (fWindow p.val) = min 4 (a.data.toNat % 8) ∧ t.bit (fClosed p.val) = false ∧ EventSet s t (pgPort p.val) 30) := by
  have he : writeQwin p.val s a.data = _ := (writeQwin_eq s a.data h1).trans ((if_neg (by rw [h2]; simp)).trans (if_pos (by rw [h3]; rfl)))
  refine completes_taken rfl h he (.inl (.inl rfl)) ?_ ⟨?_, ?_, ?_⟩
  · rw [changes_windowTurned (by simp) (fun _ hq => .inr hq)]
    simp
  · rw [signal_get, window_windowTurned]
    exact Nat.mod_eq_of_lt (by omega)
  · rw [signal_bit, closed_windowTurned]
    rfl
  · rw [EventSet, signal_rd, eventSet_windowTurned, qwinSet, State.putBit, rd_put_off _ _ (by decide), rd_put_off _ _ (by decide)]

/-! Blocks (R83). -/

/-- A full block is taken from its port's queue and shown in QLAST. -/
def blockShown (s : State) (p n : Nat) : State :=
  ({ s with fullBlocks := s.fullBlocks.filter (fun x => x.1 != p) }).wrN (pgPort p) 0x40C (n % 2 ^ 16)

theorem blockShown_get (s : State) {p n off lo w : Nat} (h : off ≠ 0x40C) :
    (blockShown s p n).get ⟨pgPort p, off, lo, w⟩ = s.get ⟨pgPort p, off, lo, w⟩ := get_wrN_off _ h

theorem blockShown_bit (s : State) {p n off lo : Nat} (h : off ≠ 0x40C) :
    (blockShown s p n).bit ⟨pgPort p, off, lo, 1⟩ = s.bit ⟨pgPort p, off, lo, 1⟩ := bit_eq_of_get (blockShown_get s h)

@[simp] theorem changes_blockShown (h : may (.reg (regKey (pgPort p) 0x40C))) (hb : may .blocks) :
    Changes s (blockShown t p n) may ↔ Changes s t may := by
  rw [blockShown, changes_wrN h, changes_fullBlocks hb]

theorem qlast_blockShown (s : State) (p n : Nat) : (blockShown s p n).rdN (pgPort p) 0x40C = n % 65536 := rdN_wrN_same _ _ _ (by omega)

/-- What R83 makes of a full block with n replays. -/
theorem closeBlock_eq (h : s.fullBlocks.find? (fun x => x.1 == p) = some (p, n)) :
    closeBlock s p =
      if !s.bit (fClosed p) && s.bit (fAuto p) && s.get ⟨pgPort p, 0x404, 0, 16⟩ < n then windowTurned (blockShown s p n) p 1 0 0x3003 false
      else if s.bit (fClosed p) && n ≤ s.get ⟨pgPort p, 0x404, 16, 16⟩ then
        windowTurned (blockShown s p n) p 0 (s.get (fWindowMax p)) 0x3004 true
      else blockShown s p n := by
  have hw : (blockShown s p n).get (fWindowMax p) = s.get (fWindowMax p) := blockShown_get s (by decide)
  have hc : (blockShown s p n).bit (fClosed p) = s.bit (fClosed p) := blockShown_bit s (by decide)
  have ha : (blockShown s p n).bit (fAuto p) = s.bit (fAuto p) := blockShown_bit s (by decide)
  have hhi : (blockShown s p n).get ⟨pgPort p, 0x404, 0, 16⟩ = s.get ⟨pgPort p, 0x404, 0, 16⟩ := blockShown_get s (by decide)
  have hlo : (blockShown s p n).get ⟨pgPort p, 0x404, 16, 16⟩ = s.get ⟨pgPort p, 0x404, 16, 16⟩ := blockShown_get s (by decide)
  rw [← hw, ← hc, ← ha, ← hhi, ← hlo, ← reopenWindow_eq, ← closeWindow_eq]
  simp only [closeBlock, h]
  rfl

theorem exec_blockClose (p : Fin 24) (h : s.fullBlocks.find? (fun x => x.1 == p.val) = some (p.val, n)) :
    exec (.blockClose p) s = finish (closeBlock s p.val) := by
  have hany : s.fullBlocks.any (fun x => x.1 == p.val) = true :=
    List.any_eq_true.2 ⟨(p.val, n), List.mem_of_find?_eq_some h, beq_self_eq_true _⟩
  show execBlockClose p s = _
  rw [execBlockClose, if_pos hany]

/-- A block that turns the window. -/
theorem completes_turns (p : Fin 24) {closed w code : Nat} {ends : Bool} (h : s.fullBlocks.find? (fun x => x.1 == p.val) = some (p.val, n))
    (he : closeBlock s p.val = windowTurned (blockShown s p.val n) p.val closed w code ends) (hw : w < 8) :
    Completes (.blockClose p) s (also (wordsAndEvent (pgPort p.val) [0x400, 0x40C]) (parts [.blocks])) (fun t =>
      t.rdN (pgPort p.val) 0x40C = n % 65536 ∧ t.bit (fClosed p.val) = (closed % 2 != 0) ∧ t.get (fWindow p.val) = w ∧
        EventSet s t (pgPort p.val) 30) := by
  refine completes_finish ((exec_blockClose p h).trans (congrArg finish he)) (.inl (.inl (.inl rfl))) ?_ ⟨?_, ?_, ?_, ?_⟩
  · rw [changes_windowTurned (by simp) (fun _ hq => .inl (.inr hq))]
    simp
  · rw [signal_rdN, State.rdN, windowTurned_rd (by decide) (by decide)]
    exact qlast_blockShown ..
  · rw [signal_bit, closed_windowTurned]
  · rw [signal_get, window_windowTurned, Nat.mod_eq_of_lt hw]
  · rw [EventSet, signal_rd, eventSet_windowTurned, blockShown, State.wrN, rd_wr_other _ _ (regKey_ne (by decide))]
    rfl

theorem completes_closes (p : Fin 24) (h : s.fullBlocks.find? (fun x => x.1 == p.val) = some (p.val, n))
    (h1 : s.bit (fClosed p.val) = false) (h2 : s.bit (fAuto p.val) = true) (h3 : s.get ⟨pgPort p.val, 0x404, 0, 16⟩ < n) :
    Completes (.blockClose p) s (also (wordsAndEvent (pgPort p.val) [0x400, 0x40C]) (parts [.blocks])) (fun t =>
      t.rdN (pgPort p.val) 0x40C = n % 65536 ∧ t.bit (fClosed p.val) = true ∧ t.get (fWindow p.val) = 0 ∧
        EventSet s t (pgPort p.val) 30) :=
  completes_turns p h ((closeBlock_eq h).trans (if_pos (by simp [h1, h2, h3]))) (by decide)

theorem completes_opens (p : Fin 24) (h : s.fullBlocks.find? (fun x => x.1 == p.val) = some (p.val, n))
    (h1 : s.bit (fClosed p.val) = true) (h2 : n ≤ s.get ⟨pgPort p.val, 0x404, 16, 16⟩) :
    Completes (.blockClose p) s (also (wordsAndEvent (pgPort p.val) [0x400, 0x40C]) (parts [.blocks])) (fun t =>
      t.rdN (pgPort p.val) 0x40C = n % 65536 ∧ t.bit (fClosed p.val) = false ∧ t.get (fWindow p.val) = s.get (fWindowMax p.val) ∧
        EventSet s t (pgPort p.val) 30) :=
  completes_turns p h ((closeBlock_eq h).trans ((if_neg (by simp [h1])).trans (if_pos (by simp [h1, h2])))) (get_lt ..)

theorem completes_counts (p : Fin 24) (h : s.fullBlocks.find? (fun x => x.1 == p.val) = some (p.val, n))
    (h1 : if s.bit (fClosed p.val) = true then s.get ⟨pgPort p.val, 0x404, 16, 16⟩ < n
      else s.bit (fAuto p.val) = false ∨ n ≤ s.get ⟨pgPort p.val, 0x404, 0, 16⟩) :
    Completes (.blockClose p) s (also (words (pgPort p.val) [0x40C]) (parts [.blocks])) (fun t =>
      t.rdN (pgPort p.val) 0x40C = n % 65536) := by
  have he : closeBlock s p.val = blockShown s p.val n := by
    rw [closeBlock_eq h]
    cases hc : s.bit (fClosed p.val) with
    | true =>
      rw [if_pos hc] at h1
      simp [h1]
    | false =>
      rw [if_neg (by simp [hc])] at h1
      rcases h1 with h1 | h1 <;> simp [h1]
  exact completes_finish ((exec_blockClose p h).trans (congrArg finish he)) (.inl (.inl rfl)) (by simp)
    ((signal_rdN ..).trans (qlast_blockShown ..))

end Sys2Proof.Claims

open Sys2Proof Sys2Proof.Machine Sys2Proof.Claims

/-- Settles O23: each command of the quay unit does what its row says, one lemma for each row. -/
theorem quayUnitResults : Obligations.QuayUnitResults := by
  intro s i may post row
  cases row with
  | refreshTile id n h h1 h2 h3 => exact completes_refreshTile n h h1 ⟨h2, h3⟩
  | refreshRows id n h h2 h3 => exact completes_refreshRows n h ⟨h2, h3⟩
  | specEn id a h h1 => exact completes_specEn h h1
  | enables id h h1 h2 h3 => exact completes_specOn h h1 h2 h3
  | disables id h h1 h2 h3 => exact completes_specOff h h1 h2 h3
  | window p a h h1 h2 => exact completes_window p h h1 h2
  | reopens p a h h1 h2 h3 => exact completes_reopens p h h1 h2 h3
  | closes p n h h1 h2 h3 => exact completes_closes p h h1 h2 h3
  | opens p n h h1 h2 => exact completes_opens p h h1 h2
  | counts p n h h1 => exact completes_counts p h h1
end

section
/-! SUPPORT. Landings as a list, cores that an outcome reaches, and operations that change registers alone. -/

namespace Sys2Proof.Claims
open Sys2Proof.Machine

variable {s t u : State} {may : Part → Prop} {k : ConsKey} {l m : Landing} {p : Nat}

/-! Landings by key. -/

theorem findLanding_congr (h : t.landing = s.landing) (k : ConsKey) : findLanding t k = findLanding s k := by
  rw [findLanding, findLanding, h]

theorem findLanding_key (h : findLanding s k = some l) : l.key = k := by simpa using List.find?_some h

theorem findLanding_append (h : findLanding s k = none) (hl : t.landing = s.landing ++ [l]) (hk : l.key = k) : findLanding t k = some l := by
  unfold findLanding at *
  simp [hl, List.find?_append, h, hk]

theorem findLanding_dropLanding (s : State) (k : ConsKey) : findLanding (dropLanding s k) k = none := by
  rw [findLanding, dropLanding, List.find?_eq_none]
  intro l hl
  simpa using (List.mem_filter.1 hl).2

theorem dropLanding_landing (h : findLanding s k = none) : (dropLanding s k).landing = s.landing := by
  rw [findLanding, List.find?_eq_none] at h
  exact List.filter_eq_self.2 (fun l hl => by simpa using h l hl)

/-- A landing that takes the place of one of its key is found there. -/
theorem findLanding_setLanding (h : findLanding s k = some l) (hm : m.key = k) : findLanding (setLanding s m) k = some m := by
  unfold findLanding setLanding at *
  generalize s.landing = ls at h
  induction ls with
  | nil => cases h
  | cons x ls ih =>
    by_cases hx : x.key = k
    · simp [hx, hm]
    · rw [List.find?_cons_of_neg (by simpa using hx)] at h
      rw [List.map_cons, if_neg (by rwa [hm]), List.find?_cons_of_neg (by simpa using hx)]
      exact ih h

/-- Of two landings put in one place the second stays. -/
theorem setLanding_setLanding (h : m.key = l.key) : setLanding (setLanding s l) m = setLanding s m := by
  refine congrArg (fun ls => { s with landing := ls }) ((List.map_map ..).trans (List.map_congr_left (fun x _ => ?_)))
  by_cases hx : x.key = l.key <;> simp [hx, h]

@[simp] theorem changes_setLanding (h : may .landings) : Changes s (setLanding t l) may ↔ Changes s t may := changes_landing h
@[simp] theorem changes_dropLanding (h : may .landings) : Changes s (dropLanding t k) may ↔ Changes s t may := changes_landing h

/-! Cores that an outcome reaches. -/

theorem coresWith_nil {q : Core → Bool} (h : ∀ x ∈ s.cores, q x.2 = false) : coresWith s q = [] := by
  rw [coresWith, List.filter_eq_nil_iff.2 (fun x hx => by simp [h x hx]), List.map_nil]

/-- No core has read the consignment: its failed attempt reaches none, nor does its confirmation. -/
theorem coresFail_of_unread (h : Unread t k) (port : Nat) : coresFail t k port = t := by
  rw [coresFail, coresWith_nil h, List.foldl_nil]

theorem coresConfirm_of_unread (h : Unread t k) : coresConfirm t k = t := by
  rw [coresConfirm, coresWith_nil (fun x hx => by rw [h x hx, Bool.false_and]), List.foldl_nil]

/-- Nor does any wait for it: its exhaustion reaches none. -/
theorem coresExhaust_of_unwanted (h : Unwanted t k) (port code : Nat) : coresExhaust t k port code = t := by
  obtain ⟨hread, hwait⟩ := h
  have hsea : coresWith t (fun c => c.hold.any (fun h => h.1 == k)) = [] := coresWith_nil hread
  have hredo : coresWith t (fun c => c.redo == some k) = [] := coresWith_nil (fun x hx => (hwait x hx).1)
  have hon : coresWith t (fun c => !c.atSea && c.wait != 0 && c.waitOn.contains k && decide (c.state = .running)) = [] :=
    coresWith_nil (fun x hx => by rw [(hwait x hx).2, Bool.and_false, Bool.false_and])
  simp only [coresExhaust, hsea, hredo, hon, List.foldl_nil]

/-! Operations on registers. -/

/-- From `s` to `t` only register words, the logbook and the ports' full blocks have changed. -/
def RegsOnly (s t : State) : Prop := ∃ r g b, t = { s with regs := r, log := g, fullBlocks := b }

theorem RegsOnly.refl (s : State) : RegsOnly s s := ⟨_, _, _, rfl⟩

theorem RegsOnly.wrN (s : State) (page off v : Nat) : RegsOnly s (s.wrN page off v) := ⟨_, _, _, rfl⟩

theorem RegsOnly.trans (h : RegsOnly s t) (h' : RegsOnly t u) : RegsOnly s u := by
  obtain ⟨_, _, _, rfl⟩ := h
  obtain ⟨_, _, _, rfl⟩ := h'
  exact ⟨_, _, _, rfl⟩

/-- Every other field is as before. -/
theorem RegsOnly.field_eq {α : Type} (h : RegsOnly s t) (field : State → α)
    (hf : ∀ u r g b, field { u with regs := r, log := g, fullBlocks := b } = field u) : field t = field s := by
  obtain ⟨r, g, b, rfl⟩ := h
  exact hf s r g b

theorem RegsOnly.landing_eq (h : RegsOnly s t) : t.landing = s.landing := h.field_eq State.landing (fun _ _ _ _ => rfl)
theorem RegsOnly.cores_eq (h : RegsOnly s t) : t.cores = s.cores := h.field_eq State.cores (fun _ _ _ _ => rfl)
theorem RegsOnly.out_eq (h : RegsOnly s t) : t.out = s.out := h.field_eq State.out (fun _ _ _ _ => rfl)

theorem regsOnly_setEvt (s : State) (page bit code : Nat) (forced : Bool) : RegsOnly s (setEvt s page bit code forced) := by
  simp only [setEvt]
  split <;> split <;> (try split) <;> exact ⟨_, _, _, rfl⟩

theorem regsOnly_logAdd (s : State) (e : LogEntry) : RegsOnly s (logAdd s e) := by
  obtain ⟨g, h⟩ := logAdd_eq s e
  exact ⟨_, g, _, h⟩

theorem regsOnly_raiseWith (s : State) (page bit code : Nat) (d : W32 × W32 × W32 × W32) : RegsOnly s (raiseWith s page bit code d) := by
  simp only [raiseWith]
  split
  · exact regsOnly_setEvt ..
  · exact (regsOnly_setEvt ..).trans (regsOnly_logAdd ..)

theorem regsOnly_raise (s : State) (page bit code : Nat) : RegsOnly s (raise s page bit code) := by
  simp only [raise]
  split
  · exact regsOnly_setEvt ..
  · exact (regsOnly_setEvt ..).trans (regsOnly_logAdd ..)

theorem regsOnly_windowTurned (s : State) (p closed w code : Nat) (ends : Bool) : RegsOnly s (windowTurned s p closed w code ends) := by
  have hput : RegsOnly s ((s.put (fClosed p) closed).put (fWindow p) w) := ⟨_, _, _, rfl⟩
  exact hput.trans ((regsOnly_raise ..).trans (regsOnly_logAdd ..))

/-! Outcomes counted at a port (R81, R83). -/

/-- What closing a block may leave: the block shown, its window turned or not. -/
theorem closeBlock_cases (s : State) (p : Nat) :
    closeBlock s p = s ∨ ∃ n, closeBlock s p = blockShown s p n ∨
      ∃ closed w code ends, closeBlock s p = windowTurned (blockShown s p n) p closed w code ends := by
  cases h : s.fullBlocks.find? (fun x => x.1 == p) with
  | none =>
    left
    simp only [closeBlock, h]
  | some x =>
    obtain ⟨q, n⟩ := x
    obtain rfl : q = p := by simpa using List.find?_some h
    refine .inr ⟨n, ?_⟩
    rw [closeBlock_eq h]
    split
    · exact .inr ⟨_, _, _, _, rfl⟩
    · split
      · exact .inr ⟨_, _, _, _, rfl⟩
      · exact .inl rfl

theorem regsOnly_closeBlock (s : State) (p : Nat) : RegsOnly s (closeBlock s p) := by
  have hshown (n : Nat) : RegsOnly s (blockShown s p n) := ⟨_, _, _, rfl⟩
  rcases closeBlock_cases s p with h | ⟨n, h | ⟨_, _, _, _, h⟩⟩ <;> rw [h]
  · exact RegsOnly.refl s
  · exact hshown n
  · exact (hshown n).trans (regsOnly_windowTurned ..)

/-- The parts that counting one outcome may change. -/
abbrev countParts (p : Nat) : Part → Prop :=
  also (wordsAndEvent (pgPort p) [0x400, 0x408, 0x40C, 0x418, 0x41C]) (parts [.blocks])

theorem closeBlock_changes (s : State) (p : Nat) : Changes s (closeBlock s p) (countParts p) := by
  rcases closeBlock_cases s p with h | ⟨n, h | ⟨_, _, _, _, h⟩⟩ <;> rw [h]
  · exact Changes.refl _ _
  · simp
  · rw [changes_windowTurned (by simp) (fun _ hq => .inl (.inr hq))]
    simp

/-- REPLAYS with the outcome's replays. -/
def replaysCounted (s : State) (p attempt : Nat) : State := if attempt = 0 then s else s.add64 (pgPort p) 0x418 attempt

/-- The outcome is one more of its block, or fills it, and then the full block before it closes. -/
theorem countOutcome_cases (s : State) (p attempt : Nat) :
    (∃ v, countOutcome s p attempt = (replaysCounted s p attempt).wrN (pgPort p) 0x408 v) ∨
      ∃ b, countOutcome s p attempt = { (closeBlock (replaysCounted s p attempt) p).wrN (pgPort p) 0x408 0 with fullBlocks := b } := by
  simp only [countOutcome]
  rw [← replaysCounted]
  split
  · exact .inr ⟨_, rfl⟩
  · exact .inl ⟨_, rfl⟩

theorem regsOnly_replaysCounted (s : State) (p attempt : Nat) : RegsOnly s (replaysCounted s p attempt) := by
  unfold replaysCounted
  split <;> exact ⟨_, _, _, rfl⟩

theorem regsOnly_countOutcome (s : State) (p attempt : Nat) : RegsOnly s (countOutcome s p attempt) := by
  rcases countOutcome_cases s p attempt with ⟨v, h⟩ | ⟨b, h⟩ <;> rw [h]
  · exact (regsOnly_replaysCounted ..).trans (RegsOnly.wrN ..)
  · exact (regsOnly_replaysCounted ..).trans ((regsOnly_closeBlock ..).trans ⟨_, _, _, rfl⟩)

theorem changes_countOutcome {attempt : Nat} (h : ∀ q, countParts p q → may q) :
    Changes s (countOutcome t p attempt) may ↔ Changes s t may := by
  have hr : Changes t (replaysCounted t p attempt) (countParts p) := by
    unfold replaysCounted
    split <;> simp
  refine Changes.step_iff (Changes.mono ?_ h)
  rcases countOutcome_cases t p attempt with ⟨v, hc⟩ | ⟨b, hc⟩ <;> rw [hc]
  · exact (changes_wrN (by simp)).2 hr
  · rw [changes_fullBlocks (by simp), changes_wrN (by simp)]
    exact hr.trans (closeBlock_changes _ _)

/-- The words of the port block that count confirmations and exhaustions are not touched. -/
theorem countOutcome_rd (s : State) {p attempt off : Nat} (ho : off < 4096)
    (h : off ∉ [0x010, 0x01C, 0x020, 0x024, 0x400, 0x408, 0x40C, 0x418, 0x41C]) :
    (countOutcome s p attempt).rd (pgPort p) off = s.rd (pgPort p) off := by
  refine Changes.rd_eq ((changes_countOutcome (fun _ hq => hq)).2 (Changes.refl _ _)) ho (fun hm => h ?_)
  simpa [or_assoc, or_comm, or_left_comm] using hm

end Sys2Proof.Claims
end

section
/-! SUPPORT. How a landing ends (02 R57, R59 to R64): the trailer checks it, asks for a replay or exhausts it; at DUE it is confirmed. -/

namespace Sys2Proof.Claims
open Sys2Proof.Machine

variable {s t u : State} {may : Part → Prop} {post : State → Prop} {i : Instr} {k : ConsKey} {l : Landing} {arr : Arrival} {crc : W32}
  {tag : BitVec 128} {code : Nat}

/-! Exhausted. -/

/-- An event of a port after what it says has been counted. -/
theorem getLsbD_raise (s : State) {page bit code : Nat} (h : bit < 32) : ((raise s page bit code).rd page 0x010).getLsbD bit = true := by
  rw [eventSet_raise, BitVec.getLsbD_or, BitVec.getLsbD_ofNat, Nat.testBit_two_pow_self, decide_eq_true h, Bool.and_self, Bool.or_true]

theorem unread_of_cores (h : t.cores = s.cores) (hu : Unread s k) : Unread t k := by rwa [Unread, h]

theorem unwanted_of_cores (h : t.cores = s.cores) (hu : Unwanted s k) : Unwanted t k := by rwa [Unwanted, Unread, h]

/-- A landing ends exhausted: counted, and reported at its port and to its source. -/
def exhaustReported (s : State) (l : Landing) (code : Nat) : State :=
  (raise (countOutcome ((setLanding s { l with st := .exhausted, words := [], failed := true }).incSat (pgPort l.port) 0x420)
    l.port l.attempt) (pgPort l.port) 29 code).emit (.exhaustedNotice l.key)

theorem exhaustReported_cores (s : State) (l : Landing) (code : Nat) : (exhaustReported s l code).cores = s.cores := by
  rw [exhaustReported, State.emit_cores, (regsOnly_raise ..).cores_eq, (regsOnly_countOutcome ..).cores_eq]
  rfl

theorem exhaustLanding_unwanted (h : Unwanted s l.key) (code : Nat) : exhaustLanding s l code true = exhaustReported s l code :=
  coresExhaust_of_unwanted (unwanted_of_cores (exhaustReported_cores s l code) h) ..

/-- A relay piece that no core wants is then gone (R63, R64). -/
def exhaustedAway (s : State) (l : Landing) (code : Nat) : State := dropLanding (exhaustReported s l code) l.key

theorem exhaustEnd_relay (h : Unwanted s l.key) (ht : l.target = .relay) (code : Nat) :
    exhaustEnd (exhaustLanding s l code true) l code = exhaustedAway s l code := by
  simp only [exhaustEnd, ht, exhaustedAway, exhaustLanding_unwanted h]

theorem completes_exhaustedAway (he : exec i s = finish (exhaustedAway s l code)) :
    Completes i s (also (outcomeParts l.port) (parts [.landings])) (fun t =>
      findLanding t l.key = none ∧ t.rdN (pgPort l.port) 0x420 = min (s.rdN (pgPort l.port) 0x420 + 1) (2 ^ 32 - 1) ∧
        (t.rd (pgPort l.port) 0x010).getLsbD 29 = true ∧ Out.exhaustedNotice l.key ∈ t.out) := by
  refine completes_finish he (.inl (.inl (.inl (.inl rfl)))) ?_ ⟨?_, ?_, ?_, mem_out_signal (mem_out_emit ..)⟩
  · rw [exhaustedAway, exhaustReported, changes_dropLanding (by simp), changes_emit (by simp),
      changes_raise (fun _ hx => .inl (.inl (.inr (eventParts_of_mem hx)))) (by simp), changes_countOutcome ?_, changes_incSat (by simp),
      changes_setLanding (by simp)]
    · exact Changes.refl _ _
    · exact fun q hq => .inl (hq.imp_left (Or.imp_left (words_mono (by simp))))
  · rw [findLanding_congr (signal_landing _)]
    exact findLanding_dropLanding ..
  · rw [signal_rdN, ← rdN_incSat_same, State.rdN, State.rdN]
    show BitVec.toNat ((raise _ _ _ _).rd _ _) = _
    rw [rd_raise, rd_setEvt_other _ (by decide) (.inr (by decide)), countOutcome_rd _ (by decide) (by decide)]
    rfl
  · rw [signal_rd]
    exact getLsbD_raise _ (by decide)

/-! The trailer. -/

/-- Two states of a landing put in its place one after the other: the attempt fails as if only the second were. -/
theorem failLanding_setLanding (s : State) (l : Landing) : failLanding (setLanding s l) l = failLanding s l := by
  simp only [failLanding, failAttempt, exhaustLanding]
  rw [setLanding_setLanding (by rfl), setLanding_setLanding (by rfl)]

theorem exec_trailer (h : findLanding s k = some l) (h1 : trailerOk s arr l = true) :
    exec (.consignmentTrailer arr k crc tag) s = finish (takeTrailer s l crc tag) := by
  show execConsignmentTrailer arr k crc tag s = _
  simp only [execConsignmentTrailer, h, h1, if_true]

/-- What the trailer does with a landing from a link. -/
theorem takeTrailer_link (h2 : l.target ≠ .absorbed) (h3 : l.port < 16) :
    takeTrailer s l crc tag =
      if !tagGood s l tag then failLanding (tagFail (setLanding s l) l) l
      else if (plainBytes s l).length ≠ landLen l || consCrc l.hdr (plainBytes s l) ≠ crc then failLanding s l
      else checkLanding (setLanding s l) l := by
  rw [← failLanding_setLanding s l]
  have hp : ¬ 16 ≤ l.port := by omega
  have ht : (l.target == .absorbed) = false := by simpa using h2
  cases ha : l.addr <;> simp only [takeTrailer, ht, hp, ha, Bool.false_eq_true, if_false] <;> rfl

/-- An attempt that may be repeated: it waits for the replay that is asked for. -/
abbrev replaying (l : Landing) : Landing := { l with st := .replaying, words := [], failed := true }

/-- The replay is asked for, and the port's event says so (R62). -/
def askReplay (s : State) (l : Landing) : State :=
  raise ((setLanding s (replaying l)).emit (.replayRequest l.key l.attempt)) (pgPort l.port) 28 0x3002

theorem askReplay_cores (s : State) (l : Landing) : (askReplay s l).cores = s.cores := (regsOnly_raise ..).cores_eq

theorem failLanding_replay (h : l.attempt < 4) (hu : Unread s l.key) :
    failLanding s l = askReplay s l := by
  have hf : failLanding s l = coresFail (askReplay s l) l.key l.port := by
    rw [failLanding, failAttempt, if_neg (Nat.not_le.2 h)]
    rfl
  rw [hf, coresFail_of_unread (unread_of_cores (askReplay_cores s l) hu)]

/-- What is left by an attempt that may be repeated. -/
theorem askReplay_reads (hf : findLanding s l.key = some l) :
    findLanding (signal (askReplay s l)) l.key = some (replaying l) ∧ Out.replayRequest l.key l.attempt ∈ (signal (askReplay s l)).out ∧
      EventSet s (signal (askReplay s l)) (pgPort l.port) 28 := by
  refine ⟨?_, mem_out_signal ?_, (signal_rd ..).trans (eventSet_raise ..)⟩
  · rw [askReplay, findLanding_congr ((signal_landing _).trans (regsOnly_raise ..).landing_eq)]
    exact findLanding_setLanding hf rfl
  · rw [askReplay, (regsOnly_raise ..).out_eq]
    exact mem_out_emit ..

theorem changes_askReplay (h : may .landings) (hs : may .signals) (he : ∀ q, eventParts (pgPort l.port) q → may q) :
    Changes s (askReplay t l) may ↔ Changes s t may := by
  rw [askReplay, changes_raise (fun _ hx => he _ (eventParts_of_mem hx)) (he _ (by simp)), changes_emit hs, changes_setLanding h]

/-- Other pages are not touched. -/
theorem askReplay_rd (s : State) (l : Landing) {page off : Nat} (ho : off < 4096) (h : page ≠ pgPort l.port) :
    (askReplay s l).rd page off = s.rd page off := by
  rw [askReplay, rd_raise, rd_setEvt_other _ ho (.inl h)]
  rfl

theorem completes_replayAsked (h : findLanding s k = some l) (h1 : trailerOk s arr l = true) (h2 : l.target ≠ .absorbed) (h3 : l.port < 16)
    (h4 : tagGood s l tag = true) (h6 : consCrc l.hdr (plainBytes s l) ≠ crc) (h7 : l.attempt < 4) (h8 : Unread s k) :
    Completes (.consignmentTrailer arr k crc tag) s (also (wordsAndEvent (pgPort l.port) []) (parts [.landings])) (fun t =>
      findLanding t k = some { l with st := .replaying, words := [], failed := true } ∧
        Out.replayRequest k l.attempt ∈ t.out ∧ EventSet s t (pgPort l.port) 28) := by
  obtain rfl := findLanding_key h
  have he : takeTrailer s l crc tag = _ :=
    (takeTrailer_link h2 h3).trans ((if_neg (by simp [h4])).trans ((if_pos (by simp [h6])).trans (failLanding_replay h7 h8)))
  refine completes_finish ((exec_trailer h h1).trans (congrArg finish he)) (.inl (.inl (.inl rfl))) ?_ (askReplay_reads h)
  exact (changes_askReplay (by simp) (by simp) (fun _ hq => .inl (.inr hq))).2 (Changes.refl _ _)

/-- A tag that fails under the host's key: the count, and an event of SEC (14 R392). -/
theorem tagFail_host (h : 16 ≤ (landHdr l).berth) (s : State) : ∃ d, tagFail s l = raiseWith (s.incSat pgSec 0x044) pgSec 2 0x9005 d :=
  ⟨_, if_neg (by omega)⟩

theorem pgPort_ne_pgSec (p : Nat) : pgSec ≠ pgPort p := by
  unfold pgPort pgLnk pgCd pgSec
  split <;> omega

theorem completes_tagRefused (h : findLanding s k = some l) (h1 : trailerOk s arr l = true) (h2 : l.target ≠ .absorbed) (h3 : l.port < 16)
    (h4 : tagGood s l tag = false) (h5 : 16 ≤ (landHdr l).berth) (h7 : l.attempt < 4) (h8 : Unread s k) :
    Completes (.consignmentTrailer arr k crc tag) s
      (also (also (wordsAndEvent (pgPort l.port) []) (wordsAndEvent pgSec [0x044])) (parts [.landings])) (fun t =>
      findLanding t k = some { l with st := .replaying, words := [], failed := true } ∧ EventSet s t pgSec 2 ∧
        t.rdN pgSec 0x044 = min (s.rdN pgSec 0x044 + 1) (2 ^ 32 - 1) ∧ EventSet s t (pgPort l.port) 28) := by
  obtain rfl := findLanding_key h
  obtain ⟨d, hd⟩ := tagFail_host h5 (setLanding s l)
  have hland : (tagFail (setLanding s l) l).landing = (setLanding s l).landing := by
    rw [hd]
    exact (regsOnly_raiseWith ..).landing_eq
  have hcores : (tagFail (setLanding s l) l).cores = s.cores := by
    rw [hd]
    exact (regsOnly_raiseWith ..).cores_eq
  have hfind : findLanding (tagFail (setLanding s l) l) l.key = some l := by
    rw [findLanding_congr hland]
    exact findLanding_setLanding h rfl
  have he : takeTrailer s l crc tag = _ :=
    (takeTrailer_link h2 h3).trans ((if_pos (by simp [h4])).trans (failLanding_replay h7 (unread_of_cores hcores h8)))
  obtain ⟨hrepl, -, hport⟩ := askReplay_reads hfind
  refine completes_finish ((exec_trailer h h1).trans (congrArg finish he)) (.inl (.inl (.inl (.inl rfl)))) ?_ ⟨hrepl, ?_, ?_, ?_⟩
  · rw [changes_askReplay (by simp) (by simp) (fun _ hq => .inl (.inl (.inr hq))), hd,
      changes_raiseWith (fun _ hx => .inl (.inr (.inr (eventParts_of_mem hx)))) (by simp), changes_incSat (by simp),
      changes_setLanding (by simp)]
    exact Changes.refl _ _
  · rw [EventSet, signal_rd, askReplay_rd _ _ (by decide) (pgPort_ne_pgSec _), hd, eventSet_raiseWith, State.incSat, State.wrN,
      rd_wr_other _ _ (by decide)]
    rfl
  · rw [signal_rdN, State.rdN, askReplay_rd _ _ (by decide) (pgPort_ne_pgSec _), hd, rd_raiseWith,
      rd_setEvt_other _ (by decide) (.inr (by decide))]
    exact rdN_incSat_same ..
  · refine hport.trans (congrArg (· ||| _) ?_)
    have hne := pgPort_ne_pgSec l.port
    rw [hd, rd_raiseWith, rd_setEvt_other _ (by decide) (.inl hne.symm), State.incSat, State.wrN, rd_wr_other _ _ (by unfold regKey; omega)]
    rfl

theorem tagGood_relay (h : l.target = .relay) : tagGood s l tag = true := by simp [tagGood, h]

theorem completes_exhausted (h : findLanding s k = some l) (h1 : trailerOk s arr l = true) (h2 : l.target = .relay) (h3 : l.port < 16)
    (h6 : consCrc l.hdr (plainBytes s l) ≠ crc) (h7 : l.attempt = 4) (h8 : Unwanted s k) :
    Completes (.consignmentTrailer arr k crc tag) s (also (outcomeParts l.port) (parts [.landings])) (fun t =>
      findLanding t k = none ∧ t.rdN (pgPort l.port) 0x420 = min (s.rdN (pgPort l.port) 0x420 + 1) (2 ^ 32 - 1) ∧
        (t.rd (pgPort l.port) 0x010).getLsbD 29 = true ∧ Out.exhaustedNotice k ∈ t.out) := by
  obtain rfl := findLanding_key h
  have hfail : failLanding s l = exhaustedAway s l 0x3001 := by
    rw [failLanding, failAttempt, if_pos (Nat.le_of_eq h7.symm)]
    exact exhaustEnd_relay h8 h2 0x3001
  have he : takeTrailer s l crc tag = exhaustedAway s l 0x3001 :=
    (takeTrailer_link (by simp [h2]) h3).trans ((if_neg (by simp [tagGood_relay h2])).trans ((if_pos (by simp [h6])).trans hfail))
  exact completes_exhaustedAway ((exec_trailer h h1).trans (congrArg finish he))

theorem completes_sourceReset (h : findLanding s k = some l) (h1 : running s = true) (h2 : l.st = .landing ∨ l.st = .replaying)
    (h3 : l.target = .relay) (h5 : Unwanted s k) :
    Completes (.sourceResetAnnounced k) s (also (outcomeParts l.port) (parts [.landings])) (fun t =>
      findLanding t k = none ∧ t.rdN (pgPort l.port) 0x420 = min (s.rdN (pgPort l.port) 0x420 + 1) (2 ^ 32 - 1) ∧
        (t.rd (pgPort l.port) 0x010).getLsbD 29 = true ∧ Out.exhaustedNotice k ∈ t.out) := by
  obtain rfl := findLanding_key h
  have he : exec (.sourceResetAnnounced l.key) s = finish (sourceLost s l) := by
    show execSourceResetAnnounced l.key s = _
    simp only [execSourceResetAnnounced, h]
    exact if_pos (by simp [h1, h2, h3])
  exact completes_exhaustedAway (he.trans (congrArg finish (exhaustEnd_relay h5 h3 0x3006)))

/-! Checked. -/

/-- A change that a core keeps once it has it reaches every core that is named. -/
theorem foldl_updCore_reaches {Q : Core → Prop} {g : Core → Core} (hg : ∀ c, Q (g c)) (ids : List CoreId) (id : CoreId)
    (h : id ∈ ids ∨ Q (s.core id)) : Q ((ids.foldl (fun t id => updCore t id g) s).core id) := by
  induction ids generalizing s with
  | nil => exact h.resolve_left List.not_mem_nil
  | cons x ids ih =>
    refine ih ?_
    by_cases hx : id = x
    · subst hx
      rw [updCore_core]
      exact .inr (hg _)
    · have hcore : (updCore s x g).core id = s.core id := storeGet_storePut_other _ _ _ _ (fun e => hx (BitVec.eq_of_toNat_eq e))
      rw [hcore]
      exact h.imp_left (fun hm => (List.mem_cons.1 hm).resolve_left hx)

theorem mem_of_storeGet_ne {α : Type} {m : Store α} {k : Nat} {d : α} (h : storeGet m k d ≠ d) : (k, storeGet m k d) ∈ m := by
  induction m with
  | nil => exact absurd rfl h
  | cons x m ih =>
    obtain ⟨j, v⟩ := x
    by_cases hj : j = k
    · simp [storeGet, hj]
    · simp only [storeGet, hj, if_false] at h ⊢
      exact List.mem_cons_of_mem _ (ih h)

/-- A core that satisfies a test which a core after reset does not is among those with it. -/
theorem mem_coresWith {q : Core → Bool} {id : CoreId} (h : q (s.core id) = true) (hr : q Core.reset = false) : id ∈ coresWith s q := by
  have hne : s.core id ≠ Core.reset := by
    intro e
    rw [e, hr] at h
    cases h
  have hm : (id.toNat, s.core id) ∈ s.cores := mem_of_storeGet_ne hne
  exact List.mem_map.2 ⟨_, List.mem_filter.2 ⟨hm, h⟩, by simp⟩

/-- Every core that waits for the replay goes on (R79). -/
theorem coresRedo_core {id : CoreId} (h : (s.core id).redo = some k) :
    ((coresRedo s k).core id).redo = none ∧ ((coresRedo s k).core id).wait = 0 :=
  foldl_updCore_reaches (Q := fun c => c.redo = none ∧ c.wait = 0) (fun _ => ⟨rfl, rfl⟩) _ _
    (.inl (mem_coresWith (q := fun c => c.redo == some k) (by simp [h]) rfl))

/-- What the cores' changes leave, whichever cores are changed. -/
theorem coresRedo_field {α : Type} (s : State) (k : ConsKey) (field : State → α) (hf : ∀ u id c, field (u.setCore id c) = field u) :
    field (coresRedo s k) = field s := by
  unfold coresRedo
  generalize coresWith s _ = ids
  induction ids generalizing s with
  | nil => rfl
  | cons x ids ih => exact (ih _).trans (hf ..)

theorem changes_coresRedo (h : ∀ p, someCores p → may p) : Changes s (coresRedo t k) may ↔ Changes s t may :=
  changes_foldl (fun _ id => changes_updCore (h _ ⟨id.toNat, rfl⟩)) _

/-- The landing as the check leaves it. -/
abbrev checkedNow (s : State) (l : Landing) : Landing :=
  { l with st := .checked, checkedAt := if s.tideValid then some s.now else none }

theorem checkLanding_early (h : dueReached s l = false) :
    checkLanding (setLanding s l) l = coresRedo (setLanding s (checkedNow s l)) l.key := by
  have hset : setLanding (setLanding s l) (checkedNow s l) = setLanding s (checkedNow s l) := setLanding_setLanding rfl
  have hdue : dueReached (coresRedo (setLanding s (checkedNow s l)) l.key) (checkedNow s l) = false :=
    (coresRedo_field (setLanding s (checkedNow s l)) l.key (fun u => dueReached u (checkedNow s l)) (fun _ _ _ => rfl)).trans h
  rw [← hset] at hdue ⊢
  exact if_neg (Bool.eq_false_iff.1 hdue)

theorem completes_checked (h : findLanding s k = some l) (h1 : trailerOk s arr l = true) (h2 : l.target ≠ .absorbed) (h3 : l.port < 16)
    (h4 : tagGood s l tag = true) (h5 : (plainBytes s l).length = landLen l) (h6 : consCrc l.hdr (plainBytes s l) = crc)
    (h7 : dueReached s l = false) :
    Completes (.consignmentTrailer arr k crc tag) s (also someCores (parts [.landings, .signals])) (fun t =>
      findLanding t k = some { l with st := .checked, checkedAt := if s.tideValid then some s.now else none } ∧
        ∀ id, (s.core id).redo = some k → (t.core id).redo = none ∧ (t.core id).wait = 0) := by
  obtain rfl := findLanding_key h
  have he : takeTrailer s l crc tag = _ :=
    (takeTrailer_link h2 h3).trans ((if_neg (by simp [h4])).trans ((if_neg (by simp [h5, h6])).trans (checkLanding_early h7)))
  refine completes_finish ((exec_trailer h h1).trans (congrArg finish he)) (.inr (by simp)) ?_ ⟨?_, fun id hid => ?_⟩
  · rw [changes_coresRedo (fun _ hp => .inl hp), changes_setLanding (by simp)]
    exact Changes.refl _ _
  · rw [findLanding_congr ((signal_landing _).trans (coresRedo_field _ _ State.landing (fun _ _ _ => rfl)))]
    exact findLanding_setLanding h rfl
  · rw [signal_core]
    exact coresRedo_core hid

/-! Confirmed. -/

@[simp] theorem changes_storeImage {bs : List Byte} {a : Nat} (h : may .image) : Changes s (t.storeImage a bs) may ↔ Changes s t may := by
  induction bs generalizing a t with
  | nil => rfl
  | cons b bs ih => rw [State.storeImage, ih, changes_image h]

theorem storeImage_field {α : Type} (s : State) (a : Nat) (bs : List Byte) (field : State → α)
    (hf : ∀ u x, field { u with image := x } = field u) : field (s.storeImage a bs) = field s := by
  induction bs generalizing a s with
  | nil => rfl
  | cons b bs ih => exact (ih ..).trans (hf ..)

/-- Bytes below those that are stored are as they were. -/
theorem imageByte_storeImage_below (s : State) (a b : Nat) (bs : List Byte) (h : b < a) :
    (s.storeImage a bs).imageByte b = s.imageByte b := by
  induction bs generalizing a s with
  | nil => rfl
  | cons x bs ih =>
    rw [State.storeImage, ih _ _ (by omega)]
    exact storeGet_storePut_other _ _ _ _ (by omega)

/-- The bytes that are stored are the bytes read. -/
theorem imageByte_storeImage (s : State) (a j : Nat) (bs : List Byte) (h : j < bs.length) :
    (s.storeImage a bs).imageByte (a + j) = bs.getD j 0 := by
  induction bs generalizing a j s with
  | nil => cases h
  | cons x bs ih =>
    rw [State.storeImage]
    cases j with
    | zero =>
      rw [imageByte_storeImage_below _ _ _ _ (by omega)]
      exact storeGet_storePut_same ..
    | succ j =>
      rw [← Nat.add_assoc, Nat.add_right_comm, ih _ _ _ (by simpa using h), List.getD_cons_succ]

/-- The port counts the confirmation, and the source is told (R60, R81). -/
def confirmCounted (s : State) (l : Landing) : State :=
  (countOutcome ((dropLanding s l.key).add64 (pgPort l.port) 0x410 1) l.port l.attempt).emit (.confirmNotice l.key)

theorem confirmCounted_cores (s : State) (l : Landing) : (confirmCounted s l).cores = s.cores := (regsOnly_countOutcome ..).cores_eq

theorem confirmCounted_landing (s : State) (l : Landing) : (confirmCounted s l).landing = (dropLanding s l.key).landing :=
  (regsOnly_countOutcome ..).landing_eq

theorem confirmLanding_relay (h : l.target = .relay) (hu : Unread s l.key) :
    confirmLanding s l = (confirmCounted s l).storeImage ((landHdr l).addr % 2 ^ 27) (plainBytes s l) := by
  rw [← coresConfirm_of_unread (t := confirmCounted s l) (unread_of_cores (confirmCounted_cores s l) hu)]
  simp only [confirmLanding, h]
  rfl

theorem completes_confirmed (h : findLanding s k = some l) (h1 : running s = true) (h2 : l.st = .checked) (h3 : dueReached s l = true)
    (h4 : l.target = .relay) (h5 : Unread s k) :
    Completes (.confirmed k) s (also (outcomeParts l.port) (parts [.landings, .image])) (fun t =>
      findLanding t k = none ∧ t.rd64 (pgPort l.port) 0x410 = s.rd64 (pgPort l.port) 0x410 + 1 ∧ Out.confirmNotice k ∈ t.out ∧
        ∀ j, j < (plainBytes s l).length → t.imageByte ((landHdr l).addr % 2 ^ 27 + j) = (plainBytes s l).getD j 0) := by
  obtain rfl := findLanding_key h
  have he : exec (.confirmed l.key) s = finish (confirmLanding s l) := by
    show execConfirmed l.key s = _
    simp only [execConfirmed, h]
    exact if_pos (by simp [h1, h2, h3])
  refine completes_finish (he.trans (congrArg finish (confirmLanding_relay h4 h5))) (.inl (.inl (.inl (.inl rfl)))) ?_
    ⟨?_, ?_, mem_out_signal ?_, fun j hj => ?_⟩
  · rw [changes_storeImage (by simp), confirmCounted, changes_emit (by simp), changes_countOutcome ?_, changes_add64 (by simp) (by simp),
      changes_dropLanding (by simp)]
    · exact Changes.refl _ _
    · exact fun q hq => .inl (hq.imp_left (Or.imp_left (words_mono (by simp))))
  · rw [findLanding_congr ((signal_landing _).trans ((storeImage_field _ _ _ State.landing (fun _ _ => rfl)).trans
      (confirmCounted_landing s l)))]
    exact findLanding_dropLanding ..
  · rw [signal_rd64, storeImage_field _ _ _ (fun u => u.rd64 (pgPort l.port) 0x410) (fun _ _ => rfl)]
    have hrd (off : Nat) (ho : off < 4096) (hx : off ∉ [0x010, 0x01C, 0x020, 0x024, 0x400, 0x408, 0x40C, 0x418, 0x41C]) :
        (confirmCounted s l).rd (pgPort l.port) off = ((dropLanding s l.key).add64 (pgPort l.port) 0x410 1).rd (pgPort l.port) off :=
      countOutcome_rd _ ho hx
    rw [State.rd64, hrd _ (by decide) (by decide), hrd _ (by decide) (by decide)]
    exact rd64_add64_same (dropLanding s l.key) (pgPort l.port) 0x410 1
  · rw [storeImage_field _ _ _ State.out (fun _ _ => rfl)]
    exact mem_out_emit ..
  · have hi (u : State) (b : Nat) : (signal u).imageByte b = u.imageByte b := by rw [State.imageByte, signal_image, State.imageByte]
    rw [hi, imageByte_storeImage _ _ _ _ hj]

end Sys2Proof.Claims
end

section
/-! SUPPORT. The consignment at its source (02 R58, R60, R62 to R65): its release, and a replay. -/

namespace Sys2Proof.Claims
open Sys2Proof.Machine

variable {s t u : State} {may : Part → Prop} {i : Instr} {k : ConsKey} {h : Held}

/-! Sequences of operations. -/

/-- A sequence changes what may change if each operation with a listed operand does. -/
theorem changes_foldl_mem {β : Type} {g : State → β → State} {l : List β} (hg : ∀ x ∈ l, ∀ t, Changes t (g t x) may) :
    Changes s (l.foldl g t) may ↔ Changes s t may := by
  induction l generalizing t with
  | nil => rfl
  | cons x l ih =>
    rw [List.foldl_cons, ih (fun y hy => hg y (List.mem_cons_of_mem _ hy))]
    exact Changes.step_iff (hg x List.mem_cons_self t)

theorem changes_iterate {n : Nat} {g : Nat → State → State} (hg : ∀ x, x < n → ∀ t, Changes t (g x t) may) :
    Changes s (iterate n g t) may ↔ Changes s t may :=
  changes_foldl_mem (fun x hx => hg x (List.mem_range.1 hx))

/-! Released. -/

/-- What a ferry may change of itself. -/
abbrev oneFerry (f : Nat) : Part → Prop := also (parts [.ferry f]) (wordsAndEvent (pgFerry f) [0x00C, 0x074])

theorem ferryDone_changes (s : State) (f : Nat) : Changes s (raise (s.put (fFerryState f) 3) (pgFerry f) 0 0) (oneFerry f) := by
  rw [changes_raise (fun _ hx => .inr (.inr (eventParts_of_mem hx))) (by simp)]
  simp

theorem ferrySettle_changes (s : State) (f : Nat) : Changes s (ferrySettle s f) (oneFerry f) := by
  unfold ferrySettle
  extract_lets u v w
  have hu : Changes s u (oneFerry f) := by
    simp only [u]
    split <;> simp
  have hv : Changes s v (oneFerry f) := by
    simp only [v]
    split
    · exact hu.trans (ferryDone_changes u f)
    · exact hu
  have hw : Changes s w (oneFerry f) := by
    simp only [w]
    split
    · split <;> simp [updFerry, hv]
    · exact hv
  split
  · exact hv
  · split
    · exact hw.trans (ferryDone_changes w f)
    · exact hw

theorem ferriesSettle_changes (s : State) : Changes s (ferriesSettle s) ferryProgress :=
  (changes_iterate (fun f hf t => (ferrySettle_changes t f).mono
    (fun _ hp => ⟨f, hf, hp.imp_left List.eq_of_mem_singleton⟩))).2 (Changes.refl _ _)

theorem released_held (s : State) (k : ConsKey) : (released s k).held = s.held.filter (fun x => x.key != k) :=
  (ferriesSettle_changes _ .held (by simp)).trans rfl

theorem changes_released (h : ∀ p, ferryProgress p → may p) (hh : may .held) (hr : may .routes) :
    Changes s (released t k) may ↔ Changes s t may := by
  rw [released, Changes.step_iff ((ferriesSettle_changes _).mono h), changes_noRouted hr, releaseHeld, changes_held hh]

/-- A notice that only releases. -/
theorem completes_released (he : exec i s = finish (released s k)) :
    Completes i s (also ferryProgress (parts [.held, .routes, .signals])) (fun t => t.held = s.held.filter (fun x => x.key != k)) :=
  completes_finish he (.inr (by simp)) ((changes_released (fun _ hp => .inl hp) (by simp) (by simp)).2 (Changes.refl _ _))
    ((signal_held _).trans (released_held s k))

theorem completes_confirmNotice (h1 : heldOf s k = some h) (h2 : k.kind ≠ 2) :
    Completes (.confirmNotice k) s (also ferryProgress (parts [.held, .routes, .signals])) (fun t =>
      t.held = s.held.filter (fun x => x.key != k)) := by
  refine completes_released ?_
  show execConfirmNotice k s = _
  simp only [execConfirmNotice, h1]
  exact congrArg finish (if_pos (by simpa only [Bool.or_eq_true, decide_eq_true_eq] using .inl h2))

theorem completes_exhaustedNotice (h1 : heldOf s k = some h) :
    Completes (.exhaustedNotice k) s (also ferryProgress (parts [.held, .routes, .signals])) (fun t =>
      t.held = s.held.filter (fun x => x.key != k)) := by
  refine completes_released ?_
  show execExhaustedNotice k s = _
  simp only [execExhaustedNotice, h1]

theorem completes_absorbedNotice (h1 : heldOf s k = some h) (h2 : k.kind ≠ 3) :
    Completes (.absorbedNotice k) s (also ferryProgress (parts [.held, .routes, .signals])) (fun t =>
      t.held = s.held.filter (fun x => x.key != k)) := by
  refine completes_released ?_
  show execAbsorbedNotice k s = _
  simp only [execAbsorbedNotice, h1]
  exact congrArg finish (if_pos h2)

/-! Replayed. -/

/-- What sending flits on the links changes. -/
abbrev sendParts : Part → Prop := also (also someLinks flitsSent) (parts [.seals, .signals])

theorem sendFlits_changes (s : State) {link : Nat} (n : Nat) (h : link < 16) : Changes s (sendFlits s link n) sendParts := by
  have hl : sendParts (.link link) := .inl (.inl ⟨link, h, rfl⟩)
  have h0 : sendParts (.reg (regKey (pgLnk link) 0x050)) := .inl (.inr ⟨link, h, .inl rfl⟩)
  have h4 : sendParts (.reg (regKey (pgLnk link) 0x054)) := .inl (.inr ⟨link, h, .inr rfl⟩)
  simp only [sendFlits]
  rw [changes_setLink hl, changes_add64 h0 h4]
  exact Changes.refl _ _

theorem countFlits_changes (s : State) (port len : Nat) : Changes s (countFlits s port len) sendParts := by
  refine (changes_foldl_mem (fun x hx t => sendFlits_changes t _ ?_)).2 (Changes.refl _ _)
  have hm : x.1 ∈ portMembers s port := by
    obtain ⟨_, _, he⟩ := List.mem_zipIdx hx
    rw [he]
    exact List.getElem_mem _
  exact List.mem_range.1 (List.mem_filter.1 hm).1

/-- An attempt sails: flits are counted on the port's links, and the attempt goes out, sealed or plain. -/
theorem sendAttempt_changes (s : State) (h : Held) : Changes s (sendAttempt s h) sendParts := by
  simp only [sendAttempt]
  split
  · exact (changes_emit (by simp)).2 (countFlits_changes _ _ _)
  · split
    · exact (changes_emit (by simp)).2 (((changes_sealCtr (by simp)).2 (Changes.refl _ _)).trans (countFlits_changes _ _ _))
    · exact (changes_emit (by simp)).2 (Changes.refl _ _)

theorem sendAttempt_sails (s : State) (h : Held) :
    ∃ blk, Out.sail h.port (withAttempt h.hdr h.attempt) blk h.crc ∈ (sendAttempt s h).out := by
  simp only [sendAttempt]
  split
  · exact ⟨_, mem_out_emit ..⟩
  · split <;> exact ⟨_, mem_out_emit ..⟩

/-- The held consignment is at this attempt. -/
def heldAt (s : State) (h : Held) (attempt : Nat) : State :=
  { s with held := s.held.map (fun x => if x.key = h.key then { h with attempt := attempt } else x) }

/-- The held consignment sails on the port that holds it, where this has members left (R62). -/
theorem resail_eq (hp : 16 ≤ h.port ∨ portMembers s h.port ≠ []) (attempt : Nat) :
    resail s h attempt = sendAttempt (heldAt s h (attempt + 1)) { h with attempt := attempt + 1 } := by
  have hport : (decide (h.port < 16) && (portMembers s h.port).isEmpty) = false := by
    rcases hp with hp | hp <;> simp [hp]
  simp only [resail, hport, Bool.false_eq_true, if_false, heldAt]

theorem heldOf_some (h1 : heldOf s k = some h) : k.src.toNat = nodeId s ∧ h ∈ s.held := by
  unfold heldOf at h1
  split at h1
  · exact ⟨by assumption, List.mem_of_find?_eq_some h1⟩
  · cases h1

theorem completes_replay {attempt : BitVec 8} (h1 : heldOf s k = some h) (h2 : running s = true) (h3 : attempt.toNat = h.attempt)
    (h4 : h.attempt < 4) (h5 : 16 ≤ h.port ∨ portMembers s h.port ≠ []) :
    Completes (.replayRequest k attempt) s (also (also someLinks flitsSent) (parts [.held, .seals, .signals])) (fun t =>
      { h with attempt := h.attempt + 1 } ∈ t.held ∧
        ∃ blk, Out.sail h.port (withAttempt h.hdr (h.attempt + 1)) blk h.crc ∈ t.out) := by
  obtain ⟨hsrc, hmem⟩ := heldOf_some h1
  have he : exec (.replayRequest k attempt) s = finish (resail s h h.attempt) := by
    show execReplayRequest k attempt s = _
    simp [execReplayRequest, h1, h2, h3, h4, hsrc]
  refine completes_finish (he.trans (congrArg finish (resail_eq h5 h.attempt))) (.inr (by simp)) ?_ ⟨?_, ?_⟩
  · refine Changes.trans ((changes_held (by simp)).2 (Changes.refl _ _)) ((sendAttempt_changes _ _).mono (fun p hp => hp.imp_right ?_))
    simp only [List.mem_cons]
    exact fun h => .inr h
  · rw [signal_held, (sendAttempt_changes _ _ .held (by simp) : _ = _)]
    exact List.mem_map.2 ⟨h, hmem, if_pos rfl⟩
  · obtain ⟨blk, hsail⟩ := sendAttempt_sails (heldAt s h (h.attempt + 1)) { h with attempt := h.attempt + 1 }
    exact ⟨blk, mem_out_signal hsail⟩

theorem completes_cannotReplay {attempt : BitVec 8} (h : running s = true) (h1 : k.src.toNat = nodeId s) (h2 : heldOf s k = none)
    (h3 : findLanding s k = none) :
    Completes (.replayRequest k attempt) s (parts [.signals]) (fun t => Out.sourceReset k ∈ t.out) := by
  have he : exec (.replayRequest k attempt) s = finish (s.emit (.sourceReset k)) := by
    show execReplayRequest k attempt s = _
    simp [execReplayRequest, h, h1, h2, h3]
  exact completes_finish he (by simp) (by simp) (mem_out_signal (mem_out_emit ..))

end Sys2Proof.Claims
end

section
/-! SUPPORT. A header arrives (02 R55, R62, R65; 09 R249; 11 R293): its landing, and the slot of the link that is bound to it. -/

namespace Sys2Proof.Claims
open Sys2Proof.Machine

variable {s t u : State} {may : Part → Prop} {l : Landing} {n cslot : Fin 16} {hdr sealBlk : List Byte} {tgt : LandTarget}
  {addr : Option Nat} {f : Nat}

/-! Operations on links. -/

/-- From `s` to `t` only links have changed. -/
def LinksOnly (s t : State) : Prop := ∃ x, t = { s with links := x }

theorem LinksOnly.refl (s : State) : LinksOnly s s := ⟨_, rfl⟩

theorem LinksOnly.trans (h : LinksOnly s t) (h' : LinksOnly t u) : LinksOnly s u := by
  obtain ⟨_, rfl⟩ := h
  obtain ⟨_, rfl⟩ := h'
  exact ⟨_, rfl⟩

/-- Every other field is as before. -/
theorem LinksOnly.field_eq {α : Type} (h : LinksOnly s t) (field : State → α) (hf : ∀ u x, field { u with links := x } = field u) :
    field t = field s := by
  obtain ⟨x, rfl⟩ := h
  exact hf s x

theorem LinksOnly.landing_eq (h : LinksOnly s t) : t.landing = s.landing := h.field_eq State.landing (fun _ _ => rfl)
theorem LinksOnly.rd_eq (h : LinksOnly s t) (page off : Nat) : t.rd page off = s.rd page off :=
  h.field_eq (fun u => u.rd page off) (fun _ _ => rfl)

/-- A link loses the slots that a test names. -/
def freeLinkSlots (gone : Nat → Nat × Nat × ConsKey → Bool) (n : Nat) (t : State) : State :=
  if (t.link n).slots.any (gone n) then t.setLink n { t.link n with slots := (t.link n).slots.filter (fun x => !gone n x) } else t

theorem freeSlots_eq (s : State) (gone : Nat → Nat × Nat × ConsKey → Bool) : freeSlots s gone = iterate 16 (freeLinkSlots gone) s := rfl

theorem linksOnly_freeLinkSlots (gone : Nat → Nat × Nat × ConsKey → Bool) (n : Nat) (t : State) :
    LinksOnly t (freeLinkSlots gone n t) := by
  unfold freeLinkSlots
  split <;> exact ⟨_, rfl⟩

theorem linksOnly_freeSlots (s : State) (gone : Nat → Nat × Nat × ConsKey → Bool) : LinksOnly s (freeSlots s gone) := by
  rw [freeSlots_eq, iterate]
  generalize List.range 16 = ns
  induction ns generalizing s with
  | nil => exact LinksOnly.refl s
  | cons n ns ih => exact (linksOnly_freeLinkSlots gone n s).trans (ih _)

theorem changes_freeSlots {gone : Nat → Nat × Nat × ConsKey → Bool} (h : ∀ p, someLinks p → may p) :
    Changes s (freeSlots t gone) may ↔ Changes s t may := by
  rw [freeSlots_eq]
  refine changes_iterate (fun m hm u => ?_)
  unfold freeLinkSlots
  split
  · exact (changes_setLink (h _ ⟨m, hm, rfl⟩)).2 (Changes.refl _ _)
  · exact Changes.refl _ _

theorem signal_link (s : State) (n : Nat) : (signal s).link n = s.link n := by rw [State.link, signal_links, State.link]

theorem updLink_link (s : State) (n : Nat) (g : LinkRun → LinkRun) : (updLink s n g).link n = g (s.link n) := storeGet_storePut_same ..

theorem changes_updLink {m : Nat} {g : LinkRun → LinkRun} (h : may (.link m)) : Changes s (updLink t m g) may ↔ Changes s t may :=
  changes_setLink h

theorem linksOnly_bindSlot (s : State) (link chan slot : Nat) (k : ConsKey) : LinksOnly s (bindSlot s link chan slot k) :=
  (linksOnly_freeSlots ..).trans ⟨_, rfl⟩

theorem mem_slots_bindSlot (s : State) (link chan slot : Nat) (k : ConsKey) :
    (chan, slot, k) ∈ ((bindSlot s link chan slot k).link link).slots := by
  rw [bindSlot, updLink_link]
  exact List.mem_append_right _ (List.mem_singleton_self _)

theorem changes_bindSlot {link chan slot : Nat} {k : ConsKey} (hl : link < 16) (h : ∀ p, someLinks p → may p) :
    Changes s (bindSlot t link chan slot k) may ↔ Changes s t may := by
  rw [bindSlot, changes_updLink (h _ ⟨link, hl, rfl⟩), changes_freeSlots h]

/-! The landing that a header begins. -/

/-- What a header on link `n` begins. -/
def newLanding (s : State) (n cslot : Nat) (hdr sealBlk : List Byte) (tgt : LandTarget) (addr : Option Nat) : Landing :=
  { key := keyOf (hdrOf hdr), hdr := hdr, sealBlk := sealBlk, port := portOf s n, link := n, cslot := cslot, st := .landing,
    attempt := (hdrOf hdr).attempt, words := [], failed := false, target := tgt, checkedAt := none, addr := addr }

/-- A landing takes the place of any of its key, and the slot that its header names. -/
def slotted (s : State) (l : Landing) : State :=
  bindSlot { dropLanding s l.key with landing := (dropLanding s l.key).landing ++ [l] } l.link (kindChannel (landHdr l).kind) l.cslot l.key

theorem slotted_landing (s : State) (l : Landing) : (slotted s l).landing = (dropLanding s l.key).landing ++ [l] :=
  (linksOnly_bindSlot ..).landing_eq

theorem slotted_landing_new (h : findLanding s l.key = none) : (slotted s l).landing = s.landing ++ [l] := by
  rw [slotted_landing, dropLanding_landing h]

theorem mem_slots_slotted (s : State) (l : Landing) :
    (kindChannel (landHdr l).kind, l.cslot, l.key) ∈ ((slotted s l).link l.link).slots := mem_slots_bindSlot ..

theorem slotted_rd (s : State) (l : Landing) (page off : Nat) : (slotted s l).rd page off = s.rd page off :=
  (linksOnly_bindSlot ..).rd_eq page off

theorem findLanding_slotted (s : State) (l : Landing) : findLanding (slotted s l) l.key = some l :=
  findLanding_append (findLanding_dropLanding s l.key) (slotted_landing s l) rfl

theorem changes_slotted (hl : l.link < 16) (h : ∀ p, someLinks p → may p) (h' : may .landings) :
    Changes s (slotted t l) may ↔ Changes s t may := by
  rw [slotted, changes_bindSlot hl h, changes_landing h', changes_dropLanding h']

/-- A landing as it stands once it is absorbed. -/
abbrev absorbed (l : Landing) : Landing := { l with target := .absorbed, words := [], failed := true }

theorem absorbLanding_landing (s : State) (l : Landing) :
    (absorbLanding s l).landing = s.landing.map (fun x => if x.key = l.key then absorbed l else x) := rfl

theorem absorbLanding_rd (s : State) (l : Landing) (page off : Nat) : (absorbLanding s l).rd page off = s.rd page off := rfl

/-- A new landing that is absorbed: it stands as absorbed after those there were. -/
theorem absorbLanding_slotted_landing (h : findLanding s l.key = none) :
    (absorbLanding (slotted s l) l).landing = s.landing ++ [absorbed l] := by
  have hold : ∀ x ∈ s.landing, x.key ≠ l.key := by simpa [findLanding] using h
  rw [absorbLanding_landing, slotted_landing_new h, List.map_append, List.map_congr_left (fun x hx => if_neg (hold x hx)), List.map_id']
  simp

/-! The header's command. -/

theorem exec_header (h : hdr.length = 48) (h1 : sealBlk.length = 16) (h2 : arrivalOk s (.link n) (hdrOf hdr) = true) :
    exec (.consignmentHeader (.link n) cslot hdr sealBlk) s = finish (takeHeader s (.link n) cslot.val hdr sealBlk) := by
  show execConsignmentHeader (.link n) cslot hdr sealBlk s = _
  simp [execConsignmentHeader, h, h1, h2]

theorem takeHeader_new (h3 : findLanding s (keyOf (hdrOf hdr)) = none) (h4 : matchArrival s (hdrOf hdr) = (tgt, addr, u))
    (h5 : tgt ≠ .absorbed) (h6 : ∀ a, addr = some a → placeAway s a = false) :
    takeHeader s (.link n) cslot.val hdr sealBlk = slotted u (newLanding s n.val cslot.val hdr sealBlk tgt addr) := by
  cases addr with
  | none => simp [takeHeader, h3, h4, h5, arrivalPort, slotted, newLanding, landHdr]
  | some a => simp [takeHeader, h3, h4, h5, h6 a rfl, arrivalPort, slotted, newLanding, landHdr]

theorem takeHeader_absorbed (h3 : findLanding s (keyOf (hdrOf hdr)) = none) (h4 : matchArrival s (hdrOf hdr) = (.absorbed, none, u)) :
    takeHeader s (.link n) cslot.val hdr sealBlk =
      absorbLanding (slotted u (newLanding s n.val cslot.val hdr sealBlk .absorbed none))
        (newLanding s n.val cslot.val hdr sealBlk .absorbed none) := by
  simp [takeHeader, h3, h4, arrivalPort, slotted, newLanding, landHdr]

theorem takeHeader_replayed (h3 : findLanding s (keyOf (hdrOf hdr)) = some l) (h4 : l.target ≠ .absorbed) (h5 : l.st = .replaying)
    (h6 : (hdrOf hdr).attempt = l.attempt + 1) :
    takeHeader s (.link n) cslot.val hdr sealBlk = slotted s (newLanding s n.val cslot.val hdr sealBlk l.target l.addr) := by
  simp [takeHeader, h3, h4, h5, h6, arrivalPort, slotted, newLanding, landHdr]

theorem completes_headerTaken (h : hdr.length = 48) (h1 : sealBlk.length = 16) (h2 : arrivalOk s (.link n) (hdrOf hdr) = true)
    (h3 : findLanding s (keyOf (hdrOf hdr)) = none) (h4 : matchArrival s (hdrOf hdr) = (tgt, addr, s)) (h5 : tgt ≠ .absorbed)
    (h6 : ∀ a, addr = some a → placeAway s a = false) :
    Completes (.consignmentHeader (.link n) cslot hdr sealBlk) s (also someLinks (parts [.landings, .signals])) (fun t =>
      (∃ l, t.landing = s.landing ++ [l] ∧ l.key = keyOf (hdrOf hdr) ∧ l.hdr = hdr ∧ l.sealBlk = sealBlk ∧ l.port = portOf s n.val ∧
        l.st = .landing ∧ l.attempt = (hdrOf hdr).attempt ∧ l.words = [] ∧ l.failed = false ∧ l.target = tgt ∧ l.addr = addr) ∧
      (kindChannel (hdrOf hdr).kind, cslot.val, keyOf (hdrOf hdr)) ∈ (t.link n.val).slots) := by
  refine completes_finish ((exec_header h h1 h2).trans (congrArg finish (takeHeader_new h3 h4 h5 h6))) (.inr (by simp)) ?_
    ⟨⟨newLanding s n.val cslot.val hdr sealBlk tgt addr, ?_, rfl, rfl, rfl, rfl, rfl, rfl, rfl, rfl, rfl, rfl⟩, ?_⟩
  · exact (changes_slotted n.isLt (fun _ hp => .inl hp) (.inr (by simp))).2 (Changes.refl _ _)
  · rw [signal_landing, slotted_landing_new h3]
  · rw [signal_link]
    exact mem_slots_slotted s (newLanding s n.val cslot.val hdr sealBlk tgt addr)

theorem completes_replayed (h : hdr.length = 48) (h1 : sealBlk.length = 16) (h2 : arrivalOk s (.link n) (hdrOf hdr) = true)
    (h3 : findLanding s (keyOf (hdrOf hdr)) = some l) (h4 : l.target ≠ .absorbed) (h5 : l.st = .replaying)
    (h6 : (hdrOf hdr).attempt = l.attempt + 1) :
    Completes (.consignmentHeader (.link n) cslot hdr sealBlk) s (also someLinks (parts [.landings, .signals])) (fun t =>
      ∃ m, findLanding t (keyOf (hdrOf hdr)) = some m ∧ m.hdr = hdr ∧ m.st = .landing ∧ m.attempt = l.attempt + 1 ∧ m.words = [] ∧
        m.failed = false ∧ m.target = l.target ∧ m.addr = l.addr) := by
  refine completes_finish ((exec_header h h1 h2).trans (congrArg finish (takeHeader_replayed h3 h4 h5 h6))) (.inr (by simp)) ?_
    ⟨newLanding s n.val cslot.val hdr sealBlk l.target l.addr, ?_, rfl, rfl, h6, rfl, rfl, rfl, rfl⟩
  · exact (changes_slotted n.isLt (fun _ hp => .inl hp) (.inr (by simp))).2 (Changes.refl _ _)
  · rw [findLanding_congr (signal_landing _)]
    exact findLanding_slotted s _

/-! Absorbed. -/

/-- The header of a consignment that nothing waits for, whatever else its arrival has changed. -/
theorem completes_absorbedWith (h : hdr.length = 48) (h1 : sealBlk.length = 16) (h2 : arrivalOk s (.link n) (hdrOf hdr) = true)
    (h3 : findLanding s (keyOf (hdrOf hdr)) = none) (h4 : matchArrival s (hdrOf hdr) = (.absorbed, none, u)) (hu : RegsOnly s u)
    (hc : Changes s u may) :
    Completes (.consignmentHeader (.link n) cslot hdr sealBlk) s (also (also someLinks (parts [.landings, .signals])) may) (fun t =>
      (∃ l, t.landing = s.landing ++ [l] ∧ l.key = keyOf (hdrOf hdr) ∧ l.target = .absorbed) ∧
        Out.absorbedNotice (keyOf (hdrOf hdr)) ∈ t.out ∧ ∀ page off, t.rd page off = u.rd page off) := by
  refine completes_finish ((exec_header h h1 h2).trans (congrArg finish (takeHeader_absorbed h3 h4))) (.inl (.inr (by simp))) ?_
    ⟨⟨absorbed (newLanding s n.val cslot.val hdr sealBlk .absorbed none), ?_, rfl, rfl⟩,
      mem_out_signal (mem_out_emit ..), fun page off => ?_⟩
  · rw [absorbLanding, changes_emit (by simp), changes_setLanding (by simp), changes_slotted n.isLt (fun _ hp => .inl (.inl hp)) (by simp)]
    exact hc.mono (fun _ hp => .inr hp)
  · rw [signal_landing, absorbLanding_slotted_landing ((findLanding_congr hu.landing_eq _).trans h3), hu.landing_eq]
  · rw [signal_rd, absorbLanding_rd, slotted_rd]

theorem completes_absorbed (h : hdr.length = 48) (h1 : sealBlk.length = 16) (h2 : arrivalOk s (.link n) (hdrOf hdr) = true)
    (h3 : findLanding s (keyOf (hdrOf hdr)) = none) (h4 : (hdrOf hdr).kind = 4) (h5 : s.get fStage ≠ 12) :
    Completes (.consignmentHeader (.link n) cslot hdr sealBlk) s (also someLinks (parts [.landings, .signals])) (fun t =>
      (∃ l, t.landing = s.landing ++ [l] ∧ l.key = keyOf (hdrOf hdr) ∧ l.target = .absorbed) ∧
        Out.absorbedNotice (keyOf (hdrOf hdr)) ∈ t.out) := by
  have hm : matchArrival s (hdrOf hdr) = (.absorbed, none, s) := by simp [matchArrival, h4, h5]
  obtain ⟨t, he, ⟨hland, hout, -⟩, hc⟩ := completes_absorbedWith (may := nothing) h h1 h2 h3 hm (RegsOnly.refl s) (Changes.refl _ _)
  exact ⟨t, he, ⟨hland, hout⟩, hc.mono (fun _ hp => hp.resolve_right id)⟩

/-- The lowest ferry of an arrival's keel group reports it. -/
theorem ferryUnexpected_eq {k : ConsKey} (h6 : f < 8) (h7 : ferryGroup s f = k.stream.toNat)
    (h8 : ∀ g, g < f → ferryGroup s g ≠ k.stream.toNat) : ∃ d, ferryUnexpected s k = raiseWith s (pgFerry f) 5 0x6104 d := by
  have hf : (List.range 8).find? (fun f => ferryGroup s f == k.stream.toNat) = some f := by
    rw [List.find?_range_eq_some]
    refine ⟨by simpa using h7, List.mem_range.2 h6, fun g hg => by simpa using h8 g hg⟩
  exact ⟨_, by rw [ferryUnexpected, hf]; rfl⟩

theorem matchArrival_unmatched (h4 : (hdrOf hdr).kind = 1) (h5 : ∀ g, g < 8 → landMatch s g (keyOf (hdrOf hdr)) = none) :
    matchArrival s (hdrOf hdr) = (.absorbed, none, ferryUnexpected s (keyOf (hdrOf hdr))) := by
  have hn : (List.range 8).findSome? (fun f => (landMatch s f (keyOf (hdrOf hdr))).map (fun x => (f, x.1, x.2))) = none :=
    List.findSome?_eq_none_iff.2 (fun g hg => by rw [h5 g (List.mem_range.1 hg)]; rfl)
  simp only [matchArrival, h4, hn]

theorem completes_ferryUnmatched (h : hdr.length = 48) (h1 : sealBlk.length = 16) (h2 : arrivalOk s (.link n) (hdrOf hdr) = true)
    (h3 : findLanding s (keyOf (hdrOf hdr)) = none) (h4 : (hdrOf hdr).kind = 1)
    (h5 : ∀ g, g < 8 → landMatch s g (keyOf (hdrOf hdr)) = none) (h6 : f < 8) (h7 : ferryGroup s f = (keyOf (hdrOf hdr)).stream.toNat)
    (h8 : ∀ g, g < f → ferryGroup s g ≠ (keyOf (hdrOf hdr)).stream.toNat) :
    Completes (.consignmentHeader (.link n) cslot hdr sealBlk) s
      (also (also someLinks (parts [.landings, .signals])) (eventParts (pgFerry f))) (fun t =>
      (∃ l, t.landing = s.landing ++ [l] ∧ l.key = keyOf (hdrOf hdr) ∧ l.target = .absorbed) ∧
        Out.absorbedNotice (keyOf (hdrOf hdr)) ∈ t.out ∧ EventSet s t (pgFerry f) 5) := by
  obtain ⟨d, hd⟩ := ferryUnexpected_eq h6 h7 h8
  have hm := matchArrival_unmatched h4 h5
  rw [hd] at hm
  have hc : Changes s (raiseWith s (pgFerry f) 5 0x6104 d) (eventParts (pgFerry f)) :=
    (changes_raiseWith (fun _ hx => eventParts_of_mem hx) (by simp)).2 (Changes.refl _ _)
  obtain ⟨t, he, ⟨hland, hout, hrd⟩, hc⟩ := completes_absorbedWith h h1 h2 h3 hm (regsOnly_raiseWith ..) hc
  exact ⟨t, he, ⟨hland, hout, (hrd _ _).trans (eventSet_raiseWith ..)⟩, hc⟩

end Sys2Proof.Claims
end

section
/-! SUPPORT. A flit arrives (02 R56, R61; 11 R292 to R294, R301, R309): its counts and its acknowledgment, and the words that it lands. -/

namespace Sys2Proof.Claims
open Sys2Proof.Machine

variable {s t u : State} {may : Part → Prop} {n : Fin 16} {bytes : List Byte} {l : Landing} {a : Nat}

/-! Receiving: registers and counts of links change, and what the slots are bound to stays. -/

/-- From `s` to `t` only registers and links have changed, and of each link neither its slots nor the last good FSEQ. -/
def Received (s t : State) : Prop :=
  (∃ r x, t = { s with regs := r, links := x }) ∧ ∀ m, (t.link m).slots = (s.link m).slots ∧ (t.link m).rxSeq = (s.link m).rxSeq

theorem Received.refl (s : State) : Received s s := ⟨⟨_, _, rfl⟩, fun _ => ⟨rfl, rfl⟩⟩

theorem Received.trans (h : Received s t) (h' : Received t u) : Received s u := by
  obtain ⟨⟨_, _, rfl⟩, hl⟩ := h
  obtain ⟨⟨_, _, rfl⟩, hl'⟩ := h'
  exact ⟨⟨_, _, rfl⟩, fun m => ⟨(hl' m).1.trans (hl m).1, (hl' m).2.trans (hl m).2⟩⟩

/-- Every other field is as before. -/
theorem Received.field_eq {α : Type} (h : Received s t) (field : State → α)
    (hf : ∀ u r x, field { u with regs := r, links := x } = field u) : field t = field s := by
  obtain ⟨⟨r, x, rfl⟩, -⟩ := h
  exact hf s r x

theorem Received.rxSeq_eq (h : Received s t) (m : Nat) : (t.link m).rxSeq = (s.link m).rxSeq := (h.2 m).2

theorem received_incSat (s : State) (page off : Nat) : Received s (s.incSat page off) := ⟨⟨_, _, rfl⟩, fun _ => ⟨rfl, rfl⟩⟩

/-- A link's other fields change. -/
theorem received_updLink (s : State) (m : Nat) {g : LinkRun → LinkRun} (hg : ∀ x, (g x).slots = x.slots ∧ (g x).rxSeq = x.rxSeq) :
    Received s (updLink s m g) := by
  refine ⟨⟨_, _, rfl⟩, fun j => ?_⟩
  by_cases hj : j = m
  · rw [hj, updLink_link]
    exact hg _
  · have : (updLink s m g).link j = s.link j := storeGet_storePut_other _ _ _ _ hj
    rw [this]
    exact ⟨rfl, rfl⟩

theorem received_foldl {β : Type} {g : State → β → State} (hg : ∀ u x, Received u (g u x)) (l : List β) (s : State) :
    Received s (l.foldl g s) := by
  induction l generalizing s with
  | nil => exact Received.refl s
  | cons x l ih => exact (hg s x).trans (ih _)

/-- The landing that a data flit is for does not depend on such changes. -/
theorem Received.flitLanding_eq (h : Received s t) (m : Nat) (hd : FlitHdr) : flitLanding t m hd = flitLanding s m hd := by
  have hport (i : Nat) : portOf t i = portOf s i := h.field_eq (fun u => portOf u i) (fun _ _ _ => rfl)
  have hslots : portSlots t m = portSlots s m := by
    simp only [portSlots, hport]
    exact congrArg List.flatten (List.map_congr_left (fun i _ => (h.2 i).1))
  simp only [flitLanding, hslots, findLanding_congr (h.field_eq State.landing (fun _ _ _ => rfl))]

/-! The lanes' counts, the credits and the far end's ACK. -/

/-- The lanes of a link are nine. -/
theorem lt_of_mem_activeLanes {m i : Nat} (h : i ∈ activeLanes s m) : i < 9 := by
  simp only [activeLanes] at h
  split at h
  · obtain ⟨j, hj, rfl⟩ := List.mem_map.1 h
    have := List.mem_range.1 hj
    split <;> omega
  · exact List.mem_range.1 (List.mem_filter.1 (List.mem_of_mem_take h)).1

/-- The lanes whose parity a good flit finds bad. -/
def badLanes (s : State) (m : Nat) (hd : FlitHdr) : Bool → List Nat
  | true => ((activeLanes s m).zipIdx.filter (fun x => (hd.lanePar ^^^ (s.link m).prevPar.toNat).testBit x.2)).map (fun x => x.1)
  | false => []

/-- A link counts a flit, its parity and its bad lanes. -/
def lanesCounted (bad : List Nat) (par : BitVec 8) (l : LinkRun) : LinkRun :=
  { l with winFlits := l.winFlits + 1, prevPar := par, winErr := bad.foldl (fun m i => storePut m i (storeGet m i 0 + 1) 0) l.winErr }

theorem countLanes_eq (s : State) (m : Nat) (hd : FlitHdr) (good : Bool) (bytes : List Byte) :
    countLanes s m hd good bytes = (badLanes s m hd good).foldl (fun t i => t.incSat (pgLnk m) (0x080 + 4 * i))
      (updLink s m (lanesCounted (badLanes s m hd good) (BitVec.ofNat 8 (laneParity (linkWidth s m) bytes)))) := by
  cases good <;> rfl

theorem lt_of_mem_badLanes {m i : Nat} {hd : FlitHdr} {good : Bool} (h : i ∈ badLanes s m hd good) : i < 9 := by
  cases good with
  | false => cases h
  | true =>
    obtain ⟨x, hx, rfl⟩ := List.mem_map.1 h
    obtain ⟨_, _, he⟩ := List.mem_zipIdx (List.mem_filter.1 hx).1
    rw [he]
    exact lt_of_mem_activeLanes (List.getElem_mem _)

theorem received_countLanes (s : State) (m : Nat) (hd : FlitHdr) (good : Bool) (bytes : List Byte) :
    Received s (countLanes s m hd good bytes) := by
  rw [countLanes_eq]
  exact (received_updLink s m (g := lanesCounted _ _) (fun _ => ⟨rfl, rfl⟩)).trans (received_foldl (fun u _ => received_incSat u _ _) _ _)

theorem changes_countLanes {m : Nat} {hd : FlitHdr} {good : Bool} (hl : may (.link m))
    (hr : ∀ i, i < 9 → may (.reg (regKey (pgLnk m) (0x080 + 4 * i)))) :
    Changes s (countLanes t m hd good bytes) may ↔ Changes s t may := by
  rw [countLanes_eq, changes_foldl_mem (fun i hi u => (changes_incSat (hr i (lt_of_mem_badLanes hi))).2 (Changes.refl _ _)),
    changes_updLink hl]

/-- A flit whose FCRC fails counts the flit and its parity alone. -/
theorem countLanes_bad (s : State) (m : Nat) (hd : FlitHdr) (bytes : List Byte) :
    countLanes s m hd false bytes = updLink s m (lanesCounted [] (BitVec.ofNat 8 (laneParity (linkWidth s m) bytes))) := countLanes_eq ..

/-- A good flit is counted, and its credits go to the link. -/
def flitTaken (s : State) (m : Nat) (bytes : List Byte) : State :=
  updLink (countLanes s m (flitHdr bytes) true bytes) m (fun l =>
    { l with credits := l.credits.zipIdx.map (fun x => if x.2 = (flitHdr bytes).crvc then x.1 + 4 * (flitHdr bytes).credits else x.1) })

theorem received_flitTaken (s : State) (m : Nat) (bytes : List Byte) : Received s (flitTaken s m bytes) :=
  (received_countLanes ..).trans (received_updLink _ _ (fun _ => ⟨rfl, rfl⟩))

theorem changes_flitTaken {m : Nat} (hl : may (.link m)) (hr : ∀ i, i < 9 → may (.reg (regKey (pgLnk m) (0x080 + 4 * i)))) :
    Changes s (flitTaken t m bytes) may ↔ Changes s t may := by
  rw [flitTaken, changes_updLink hl, changes_countLanes hl hr]

/-- An ACK changes what waits for it on its link. -/
theorem takeAck_cases (s : State) (m : Nat) (ack : BitVec 12) :
    takeAck s m ack false = s ∨
      takeAck s m ack false = updLink s m (fun l => { l with ackSeq := ack, ackAt := s.tide.clock, fails := 0 }) := by
  simp only [takeAck, Bool.false_and, Bool.false_eq_true, if_false]
  split
  · exact .inr rfl
  · exact .inl rfl

theorem received_takeAck (s : State) (m : Nat) (ack : BitVec 12) : Received s (takeAck s m ack false) := by
  rcases takeAck_cases s m ack with h | h <;> rw [h]
  · exact Received.refl s
  · exact received_updLink s m (fun _ => ⟨rfl, rfl⟩)

theorem takeAck_rd (s : State) (m : Nat) (ack : BitVec 12) (page off : Nat) : (takeAck s m ack false).rd page off = s.rd page off := by
  rcases takeAck_cases s m ack with h | h <;> rw [h]
  rfl

theorem changes_takeAck {m : Nat} {ack : BitVec 12} (hl : may (.link m)) :
    Changes s (takeAck t m ack false) may ↔ Changes s t may := by
  rcases takeAck_cases t m ack with h | h <;> rw [h]
  exact changes_updLink hl

/-! A flit in order. -/

/-- It is counted and acknowledged. -/
def flitAcked (s : State) (m : Nat) (fseq : BitVec 12) : State :=
  (updLink (s.add64 (pgLnk m) 0x058 1) m (fun l => { l with rxSeq := fseq })).emit (.ack m fseq false)

theorem exec_flit (h2 : bytes.length = 275) (h : running s = true) (h1 : trained s n.val = true)
    (hh : flitGood bytes = false ∨ flitHeld s n.val (flitHdr bytes) = false) :
    exec (.flitReceive n bytes) s = finish (takeFlit s n.val bytes) := by
  show execFlitReceive n bytes s = _
  rcases hh with hh | hh <;> simp [execFlitReceive, h, h1, h2, hh]

theorem takeFlit_inOrder (h : FlitInOrder s n.val bytes) :
    takeFlit s n.val bytes =
      takeAck (acceptFlit (flitTaken s n.val bytes) n.val (flitHdr bytes) bytes) n.val (flitHdr bytes).ack false := by
  obtain ⟨-, -, -, hgood, hnak, hseq⟩ := h
  have hrx : (flitHdr bytes).fseq = ((flitTaken s n.val bytes).link n.val).rxSeq + 1 := by
    rw [(received_flitTaken s n.val bytes).rxSeq_eq, hseq]
  have hn : (!flitGood bytes) = false := by rw [hgood]; rfl
  simp only [takeFlit, hn, Bool.false_eq_true, if_false, hnak]
  exact congrArg (fun u => takeAck u n.val (flitHdr bytes).ack false) (if_pos hrx)

theorem flitHeld_control {m : Nat} {hd : FlitHdr} (h : hd.type ≠ 0) : flitHeld s m hd = false := by simp [flitHeld, h]

theorem acceptFlit_control {m : Nat} {hd : FlitHdr} (h : hd.type ≠ 0) : acceptFlit s m hd bytes = flitAcked s m hd.fseq := by
  simp [acceptFlit, h, flitAcked]

theorem changes_flitAcked {m : Nat} {fseq : BitVec 12} (hl : may (.link m)) (h0 : may (.reg (regKey (pgLnk m) 0x058)))
    (h4 : may (.reg (regKey (pgLnk m) 0x05C))) (hs : may .signals) : Changes s (flitAcked t m fseq) may ↔ Changes s t may := by
  rw [flitAcked, changes_emit hs, changes_updLink hl, changes_add64 h0 h4]

theorem flitParts_link (n : Fin 16) : flitParts n.val (.link n.val) := .inl ⟨n.val, n.isLt, rfl⟩
theorem flitParts_lane {m i : Nat} (h : i < 9) : flitParts m (.reg (regKey (pgLnk m) (0x080 + 4 * i))) :=
  .inr (.inr ⟨_, List.mem_append_right _ (List.mem_map.2 ⟨i, List.mem_range.2 h, rfl⟩), rfl⟩)
theorem flitParts_signals (m : Nat) : flitParts m .signals := .inr (.inl rfl)
theorem flitParts_word {m o : Nat} (h : o ∈ [0x058, 0x05C]) : flitParts m (.reg (regKey (pgLnk m) o)) :=
  .inr (.inr ⟨o, List.mem_append_left _ h, rfl⟩)

theorem changes_flitTaken_flitParts (s : State) (n : Fin 16) (bytes : List Byte) :
    Changes s (flitTaken s n.val bytes) (flitParts n.val) :=
  (changes_flitTaken (flitParts_link n) (fun _ hi => flitParts_lane hi)).2 (Changes.refl _ _)

theorem changes_flitAcked_flitParts (s : State) (n : Fin 16) (fseq : BitVec 12) :
    Changes s (flitAcked s n.val fseq) (flitParts n.val) :=
  (changes_flitAcked (flitParts_link n) (flitParts_word (by simp)) (flitParts_word (by simp)) (flitParts_signals _)).2 (Changes.refl _ _)

theorem flitTaken_rd64 (s : State) (m : Nat) (bytes : List Byte) : (flitTaken s m bytes).rd64 (pgLnk m) 0x058 = s.rd64 (pgLnk m) 0x058 := by
  have hc : Changes s (flitTaken s m bytes) (fun p => p = .link m ∨ ∃ i, i < 9 ∧ p = .reg (regKey (pgLnk m) (0x080 + 4 * i))) :=
    (changes_flitTaken (.inl rfl) (fun i hi => .inr ⟨i, hi, rfl⟩)).2 (Changes.refl _ _)
  have hrd (off : Nat) (ho : off < 0x080) : (flitTaken s m bytes).rd (pgLnk m) off = s.rd (pgLnk m) off := by
    refine hc.rd_eq (by omega) ?_
    rintro (h | ⟨i, hi, h⟩)
    · cases h
    · have := Part.reg.inj h
      unfold regKey at this
      omega
  rw [State.rd64, hrd _ (by decide), hrd _ (by decide), State.rd64]

theorem flitAcked_rd64 (s : State) (m : Nat) (fseq : BitVec 12) :
    (flitAcked s m fseq).rd64 (pgLnk m) 0x058 = s.rd64 (pgLnk m) 0x058 + 1 := rd64_add64_same s (pgLnk m) 0x058 1

theorem flitAcked_rxSeq (s : State) (m : Nat) (fseq : BitVec 12) : ((flitAcked s m fseq).link m).rxSeq = fseq := by
  exact congrArg LinkRun.rxSeq (updLink_link (s.add64 (pgLnk m) 0x058 1) m (fun l => { l with rxSeq := fseq }))

theorem mem_out_flitAcked (s : State) (m : Nat) (fseq : BitVec 12) : Out.ack m fseq false ∈ (flitAcked s m fseq).out := mem_out_emit ..

theorem mem_out_takeAck {m : Nat} {ack : BitVec 12} {o : Out} (h : o ∈ s.out) : o ∈ (takeAck s m ack false).out := by
  rwa [(received_takeAck s m ack).field_eq State.out (fun _ _ _ => rfl)]

theorem completes_flitControl (h : FlitInOrder s n.val bytes) (h1 : (flitHdr bytes).type ≠ 0) :
    Completes (.flitReceive n bytes) s (flitParts n.val) (fun t =>
      t.rd64 (pgLnk n.val) 0x058 = s.rd64 (pgLnk n.val) 0x058 + 1 ∧ (t.link n.val).rxSeq = (flitHdr bytes).fseq ∧
        Out.ack n.val (flitHdr bytes).fseq false ∈ t.out) := by
  have he : takeFlit s n.val bytes =
      takeAck (flitAcked (flitTaken s n.val bytes) n.val (flitHdr bytes).fseq) n.val (flitHdr bytes).ack false := by
    rw [takeFlit_inOrder h, acceptFlit_control h1]
  obtain ⟨hrun, htr, hlen, -⟩ := h
  refine completes_finish ((exec_flit hlen hrun htr (.inr (flitHeld_control h1))).trans (congrArg finish he)) (flitParts_signals _) ?_
    ⟨?_, ?_, mem_out_signal (mem_out_takeAck (mem_out_flitAcked ..))⟩
  · rw [changes_takeAck (flitParts_link n)]
    exact Changes.trans (changes_flitTaken_flitParts _ _ _) (changes_flitAcked_flitParts _ _ _)
  · rw [signal_rd64, State.rd64, takeAck_rd, takeAck_rd, ← flitTaken_rd64 s n.val bytes, ← flitAcked_rd64 _ _ (flitHdr bytes).fseq,
      State.rd64]
  · rw [signal_link, (received_takeAck ..).rxSeq_eq, flitAcked_rxSeq]

/-- A flit whose FCRC fails. -/
theorem takeFlit_bad {m : Nat} (h : flitGood bytes = false) :
    takeFlit s m bytes = ((countLanes s m (flitHdr bytes) false bytes).incSat (pgLnk m) 0x064).emit (.ack m (s.link m).rxSeq true) := by
  rw [← (received_countLanes s m (flitHdr bytes) false bytes).rxSeq_eq m]
  exact if_pos (by rw [h]; rfl)

theorem completes_flitBad (h : running s = true) (h1 : trained s n.val = true) (h2 : bytes.length = 275) (h3 : flitGood bytes = false) :
    Completes (.flitReceive n bytes) s (also (words (pgLnk n.val) [0x064]) (parts [.link n.val])) (fun t =>
      t.rdN (pgLnk n.val) 0x064 = min (s.rdN (pgLnk n.val) 0x064 + 1) (2 ^ 32 - 1) ∧ (t.link n.val).rxSeq = (s.link n.val).rxSeq ∧
        Out.ack n.val (s.link n.val).rxSeq true ∈ t.out) := by
  refine completes_finish ((exec_flit h2 h h1 (.inl h3)).trans (congrArg finish (takeFlit_bad h3))) (.inl (.inl rfl)) ?_
    ⟨?_, ?_, mem_out_signal (mem_out_emit ..)⟩
  · rw [changes_emit (.inl (.inl rfl)), changes_incSat (by simp), countLanes_bad, changes_updLink (by simp)]
    exact Changes.refl _ _
  · rw [signal_rdN, countLanes_bad]
    exact rdN_incSat_same (updLink s n.val _) (pgLnk n.val) 0x064
  · rw [signal_link]
    exact (received_countLanes s n.val (flitHdr bytes) false bytes).rxSeq_eq n.val

end Sys2Proof.Claims
end

section
/-! SUPPORT. A data flit lands its words (02 R56, R61; 11 R309): they are kept as received, and their plaintext is written. -/

namespace Sys2Proof.Claims
open Sys2Proof.Machine

variable {s t u : State} {may : Part → Prop} {n : Fin 16} {bytes bs : List Byte} {l : Landing} {a : Nat}

/-! Words and bytes. -/

theorem length_wordsOf (k : Nat) (h : bs.length = 4 * k) : (wordsOf bs).length = k := by
  induction k generalizing bs with
  | zero => rw [List.length_eq_zero_iff.1 h]; rfl
  | succ k ih =>
    match bs, h with
    | b0 :: b1 :: b2 :: b3 :: r, h =>
      have hr : r.length = 4 * k := by
        simp only [List.length_cons] at h
        omega
      rw [wordsOf, List.length_cons, ih hr]

theorem length_bytesOfWords (ws : List W32) : (bytesOfWords ws).length = 4 * ws.length := by
  induction ws with
  | nil => rfl
  | cons w ws ih =>
    have : bytesOfWords (w :: ws) = bytesLE 4 w.toNat ++ bytesOfWords ws := rfl
    rw [this, List.length_append, ih, length_bytesLE, List.length_cons]
    omega

theorem length_flitPlain (h : bytes.length = 275) (s : State) (l : Landing) : (flitPlain s l bytes).length = 256 := by
  have hw : (flitWords bytes).length = 64 := length_wordsOf 64 (by simp [h])
  rw [flitPlain, length_bytesOfWords, List.length_map, List.length_zipIdx, hw]

/-! Whole units written. -/

/-- From `s` to `t` only memory, its uncorrectable units, registers and tiles that move have changed. -/
def MemOnly (s t : State) : Prop := ∃ r m p v, t = { s with regs := r, mem := m, poison := p, tierMoves := v }

theorem MemOnly.trans (h : MemOnly s t) (h' : MemOnly t u) : MemOnly s u := by
  obtain ⟨_, _, _, _, rfl⟩ := h
  obtain ⟨_, _, _, _, rfl⟩ := h'
  exact ⟨_, _, _, _, rfl⟩

theorem MemOnly.field_eq {α : Type} (h : MemOnly s t) (field : State → α)
    (hf : ∀ u r m p v, field { u with regs := r, mem := m, poison := p, tierMoves := v } = field u) : field t = field s := by
  obtain ⟨r, m, p, v, rfl⟩ := h
  exact hf s r m p v

theorem memOnly_storeBytes (s : State) (a : Nat) (bs : List Byte) : MemOnly s (s.storeBytes a bs) := by
  induction bs generalizing s a with
  | nil => exact ⟨_, _, _, _, rfl⟩
  | cons b bs ih => exact MemOnly.trans ⟨_, _, _, _, rfl⟩ (ih (s.storeByte a b) (a + 1))

/-- A stack has one of 32 numbers. -/
theorem stack_lt {k off : Nat} (h : placeOf a = some (.hbm k off)) : k < 32 := by
  unfold placeOf at h
  split at h
  · split at h <;> cases h
  · split at h
    · rename_i hr
      obtain ⟨rfl, -⟩ := Place.hbm.inj (Option.some.inj h)
      simp only [Bool.and_eq_true, decide_eq_true_eq] at hr
      exact Nat.div_lt_of_lt_mul (by omega)
    · cases h

/-- Bytes moved are counted by their stack, if they lie in one. -/
theorem countHbm_cases (s : State) (a n off : Nat) :
    countHbm s a n off = s ∨ ∃ k, k < 32 ∧ countHbm s a n off = s.add64 (pgHs k) off n := by
  unfold countHbm
  split
  · exact .inr ⟨_, stack_lt (by assumption), rfl⟩
  · exact .inl rfl

theorem memOnly_countHbm (s : State) (a n off : Nat) : MemOnly s (countHbm s a n off) := by
  rcases countHbm_cases s a n off with h | ⟨k, -, h⟩ <;> rw [h] <;> exact ⟨_, _, _, _, rfl⟩

/-- Of units that an aligned access touches each lies whole in it. -/
theorem whole_of_mem_unitsOf {len v : Nat} (ha : a % 32 = 0) (hl : len % 32 = 0) (hv : v ∈ unitsOf a len) :
    a ≤ 32 * v ∧ 32 * v + 32 ≤ a + len := by
  unfold unitsOf at hv
  split at hv
  · cases hv
  · obtain ⟨i, hi, rfl⟩ := List.mem_map.1 hv
    have := List.mem_range.1 hi
    omega

/-- A write of whole units stores its bytes, whatever they held. -/
theorem memWrite_whole (s : State) (ha : a % 32 = 0) (hl : bs.length % 32 = 0) :
    ∃ p, memWrite s a bs = dirtyTiles { (countHbm s a bs.length 0x060).storeBytes a bs with poison := p } a bs.length := by
  have hbad : s.poison.filter (fun v => (unitsOf a bs.length).contains v &&
      !(decide (a ≤ 32 * v) && decide (32 * v + 32 ≤ a + bs.length))) = [] := by
    rw [List.filter_eq_nil_iff]
    intro v _ hv
    simp only [Bool.and_eq_true, List.contains_iff_mem, Bool.not_eq_true', Bool.and_eq_false_iff, decide_eq_false_iff_not] at hv
    obtain ⟨hm, hn⟩ := hv
    have := whole_of_mem_unitsOf ha hl hm
    omega
  refine ⟨((countHbm s a bs.length 0x060).storeBytes a bs).poison.filter (fun v => !((unitsOf a bs.length).contains v &&
    (decide (a ≤ 32 * v) && decide (32 * v + 32 ≤ a + bs.length)))), ?_⟩
  simp only [memWrite, hbad, List.isEmpty_nil, if_true, List.foldl_nil]

theorem memOnly_memWrite (s : State) (ha : a % 32 = 0) (hl : bs.length % 32 = 0) : MemOnly s (memWrite s a bs) := by
  obtain ⟨p, h⟩ := memWrite_whole s ha hl
  rw [h]
  exact (memOnly_countHbm ..).trans ((memOnly_storeBytes ..).trans ⟨_, _, _, _, rfl⟩)

theorem byte_memWrite (s : State) (ha : a % 32 = 0) (hl : bs.length % 32 = 0) {j : Nat} (hj : j < bs.length) :
    (memWrite s a bs).byte (a + j) = bs.getD j 0 := by
  obtain ⟨p, h⟩ := memWrite_whole s ha hl
  rw [h]
  exact byte_storeBytes_at _ a j bs hj

theorem memWrite_changes (s : State) (ha : a % 32 = 0) (hl : bs.length % 32 = 0) : Changes s (memWrite s a bs) (writesAt a bs.length) := by
  obtain ⟨p, h⟩ := memWrite_whole s ha hl
  rw [h, dirtyTiles, changes_tierMoves (.inr (.inr (.inl rfl))), changes_poison (.inr (.inl rfl)),
    changes_storeBytes (fun i hi => .inl ⟨i, hi, rfl⟩)]
  rcases countHbm_cases s a bs.length 0x060 with hc | ⟨k, hk, hc⟩ <;> rw [hc]
  · exact Changes.refl _ _
  · have hw (o : Nat) (ho : o ∈ [0x044, 0x060, 0x064]) : writesAt a bs.length (.reg (regKey (pgHs k) o)) :=
      .inr (.inr (.inr ⟨k, hk, .inl (.inr ⟨o, ho, rfl⟩)⟩))
    exact (changes_add64 (hw _ (by simp)) (hw _ (by simp))).2 (Changes.refl _ _)

/-! The words land. -/

/-- The landing with a flit's words. -/
abbrev moreWords (l : Landing) (bytes : List Byte) : Landing := { l with words := l.words ++ flitWords bytes }

theorem landWords_good (h4 : l.st = .landing) (h5 : l.failed = false) (h6 : l.target ≠ .absorbed)
    (h7 : 4 * (l.words.length + 64) ≤ landLen l) (h8 : flitParity bytes = true) (h9 : l.addr = some a) :
    landWords s l bytes = memWrite (setLanding s (moreWords l bytes)) (a + 4 * l.words.length) (flitPlain s l bytes) := by
  have ht : (l.target == .absorbed) = false := by simpa using h6
  have hlen : ¬ landLen l < 4 * (l.words.length + 64) := by omega
  have hgo : ¬ (l.st ≠ .landing || l.failed || l.target == .absorbed || landLen l < 4 * (l.words.length + 64)) = true := by
    simp [h4, h5, ht, hlen]
  refine (if_neg hgo).trans ((if_neg (by rw [h8]; decide)).trans ?_)
  show (match l.addr with
    | none => setLanding s (moreWords l bytes)
    | some b => memWrite (setLanding s (moreWords l bytes)) (b + 4 * l.words.length) (flitPlain s l bytes)) = _
  rw [h9]

theorem setLink_link (s : State) (m : Nat) (x : LinkRun) : (s.setLink m x).link m = x := storeGet_storePut_same ..

theorem freeSlots_rxSeq (s : State) (gone : Nat → Nat × Nat × ConsKey → Bool) (m : Nat) :
    ((freeSlots s gone).link m).rxSeq = (s.link m).rxSeq := by
  have hone (i : Nat) (t : State) : ((freeLinkSlots gone i t).link m).rxSeq = (t.link m).rxSeq := by
    unfold freeLinkSlots
    split
    · by_cases hm : m = i
      · rw [hm, setLink_link]
      · exact congrArg LinkRun.rxSeq (storeGet_storePut_other _ _ _ _ hm)
    · rfl
  rw [freeSlots_eq, iterate]
  generalize List.range 16 = ns
  induction ns generalizing s with
  | nil => rfl
  | cons i ns ih => rw [List.foldl_cons, ih, hone]

/-- LAST frees the slot of a data flit once its words have landed. -/
theorem acceptFlit_data {m : Nat} {hd : FlitHdr} (h1 : hd.type = 0) (h3 : flitLanding s m hd = some l) :
    LinksOnly (landWords (flitAcked s m hd.fseq) l bytes) (acceptFlit s m hd bytes) ∧
      (∀ i, ((acceptFlit s m hd bytes).link i).rxSeq = ((landWords (flitAcked s m hd.fseq) l bytes).link i).rxSeq) ∧
      Changes (landWords (flitAcked s m hd.fseq) l bytes) (acceptFlit s m hd bytes) someLinks := by
  have he : acceptFlit s m hd bytes = if hd.last then
      freeSlots (landWords (flitAcked s m hd.fseq) l bytes)
        (fun i x => portOf (landWords (flitAcked s m hd.fseq) l bytes) i == portOf (landWords (flitAcked s m hd.fseq) l bytes) m &&
          x.1 == hd.vc && x.2.1 == hd.cslot)
      else landWords (flitAcked s m hd.fseq) l bytes := by
    simp only [acceptFlit, h1, if_true, h3, decide_true, Bool.true_and]
    rfl
  rw [he]
  split
  · exact ⟨linksOnly_freeSlots .., freeSlots_rxSeq _ _, (changes_freeSlots (fun _ hp => hp)).2 (Changes.refl _ _)⟩
  · exact ⟨LinksOnly.refl _, fun _ => rfl, Changes.refl _ _⟩

theorem flitPlain_congr (hb : t.berths = s.berths) (hh : t.hostKey = s.hostKey) (l : Landing) (bytes : List Byte) :
    flitPlain t l bytes = flitPlain s l bytes := by
  simp only [flitPlain, plainWord, linkKeyOf, State.berth, hb, hh]

theorem flitLanding_key {m : Nat} {hd : FlitHdr} (h : flitLanding s m hd = some l) : findLanding s l.key = some l := by
  unfold flitLanding at h
  split at h
  · rwa [findLanding_key h]
  · cases h

/-- The words of a flit for a landing that can take them, where it lies in memory at whole units. -/
theorem landWords_lands (h4 : l.st = .landing) (h5 : l.failed = false) (h6 : l.target ≠ .absorbed)
    (h7 : 4 * (l.words.length + 64) ≤ landLen l) (h8 : flitParity bytes = true) (h9 : l.addr = some a) (ha : (a + 4 * l.words.length) % 32 = 0) (hlen : bytes.length = 275)
    (hf : findLanding s l.key = some l) :
    findLanding (landWords s l bytes) l.key = some (moreWords l bytes) ∧
      (∀ j, j < 256 → (landWords s l bytes).byte (a + 4 * l.words.length + j) = (flitPlain s l bytes).getD j 0) ∧
      (∀ m, (landWords s l bytes).link m = s.link m) ∧ (landWords s l bytes).out = s.out ∧
      Changes s (landWords s l bytes) (also (parts [.landings]) (writesAt (a + 4 * l.words.length) 256)) := by
  have hn : (flitPlain s l bytes).length = 256 := length_flitPlain hlen s l
  have hunits : (flitPlain s l bytes).length % 32 = 0 := by rw [hn]
  rw [landWords_good h4 h5 h6 h7 h8 h9]
  have hmem := memOnly_memWrite (setLanding s (moreWords l bytes)) ha hunits
  refine ⟨?_, fun j hj => byte_memWrite _ ha hunits (hn ▸ hj), fun m => hmem.field_eq (fun u => u.link m) (fun _ _ _ _ _ => rfl),
    hmem.field_eq State.out (fun _ _ _ _ _ => rfl), ?_⟩
  · rw [findLanding_congr (hmem.field_eq State.landing (fun _ _ _ _ _ => rfl))]
    exact findLanding_setLanding hf rfl
  · have hw := memWrite_changes (setLanding s (moreWords l bytes)) ha hunits
    rw [hn] at hw
    exact Changes.trans ((changes_setLanding (.inl (by simp))).2 (Changes.refl _ _)) (hw.mono (fun _ hp => .inr hp))

theorem completes_flitData (h : FlitInOrder s n.val bytes) (h1 : (flitHdr bytes).type = 0) (h2 : flitHeld s n.val (flitHdr bytes) = false)
    (h3 : flitLanding s n.val (flitHdr bytes) = some l) (h4 : l.st = .landing) (h5 : l.failed = false) (h6 : l.target ≠ .absorbed)
    (h7 : 4 * (l.words.length + 64) ≤ landLen l) (h8 : flitParity bytes = true) (h9 : l.addr = some a) (h10 : a % 32 = 0)
    (h11 : l.words.length % 64 = 0) :
    Completes (.flitReceive n bytes) s (also (also (flitParts n.val) (parts [.landings])) (writesAt (a + 4 * l.words.length) 256)) (fun t =>
      findLanding t l.key = some { l with words := l.words ++ flitWords bytes } ∧
        (∀ j, j < 256 → t.byte (a + 4 * l.words.length + j) = (flitPlain s l bytes).getD j 0) ∧
        (t.link n.val).rxSeq = (flitHdr bytes).fseq ∧ Out.ack n.val (flitHdr bytes).fseq false ∈ t.out) := by
  have he := takeFlit_inOrder h
  obtain ⟨hrun, htr, hlen, -⟩ := h
  have hrec := received_flitTaken s n.val bytes
  generalize hu : flitTaken s n.val bytes = u at he hrec
  have hcu : Changes s u (flitParts n.val) := hu ▸ changes_flitTaken_flitParts s n bytes
  have hfl : flitLanding u n.val (flitHdr bytes) = some l := (hrec.flitLanding_eq ..).trans h3
  obtain ⟨hlinks, hseq, hcfree⟩ := acceptFlit_data (bytes := bytes) h1 hfl
  obtain ⟨hfind, hbyte, hlink, hout, hcland⟩ := landWords_lands (s := flitAcked u n.val (flitHdr bytes).fseq) h4 h5 h6 h7 h8 h9
    (by omega) hlen ((findLanding_congr (s := u) rfl l.key).trans (flitLanding_key hfl))
  have hplain : flitPlain (flitAcked u n.val (flitHdr bytes).fseq) l bytes = flitPlain s l bytes :=
    flitPlain_congr (hrec.field_eq State.berths (fun _ _ _ => rfl)) (hrec.field_eq State.hostKey (fun _ _ _ => rfl)) l bytes
  have hack := received_takeAck (acceptFlit u n.val (flitHdr bytes) bytes) n.val (flitHdr bytes).ack
  refine completes_finish ((exec_flit hlen hrun htr (.inr h2)).trans (congrArg finish he)) (.inl (.inl (flitParts_signals _))) ?_
    ⟨?_, fun j hj => ?_, ?_, ?_⟩
  · rw [changes_takeAck (.inl (.inl (flitParts_link n)))]
    have hacked : Changes s (flitAcked u n.val (flitHdr bytes).fseq) (flitParts n.val) :=
      Changes.trans hcu (changes_flitAcked_flitParts _ _ _)
    refine (hacked.mono (fun _ hp => .inl (.inl hp))).trans ((hcland.mono ?_).trans (hcfree.mono (fun _ hp => .inl (.inl (.inl hp)))))
    exact fun _ hp => hp.imp_left .inr
  · rw [findLanding_congr (signal_landing _), findLanding_congr (hack.field_eq State.landing (fun _ _ _ => rfl)),
      findLanding_congr hlinks.landing_eq, hfind]
  · rw [signal_byte, hack.field_eq (fun u => u.byte _) (fun _ _ _ => rfl), hlinks.field_eq (fun u => u.byte _) (fun _ _ => rfl),
      hbyte j hj, hplain]
  · rw [signal_link, hack.rxSeq_eq, hseq, hlink, flitAcked_rxSeq]
  · refine mem_out_signal (mem_out_takeAck ?_)
    rw [hlinks.field_eq State.out (fun _ _ => rfl), hout]
    exact mem_out_flitAcked ..

end Sys2Proof.Claims
end

section
/-! SUPPORT. Consignments (02 R53 to R65; 11 R292 to R294, R309): each row by the lemma of its command. -/

namespace Sys2Proof.Claims
open Sys2Proof.Machine

/-- Settles O22: each row of a consignment's life at its landing chip and at its source, by the lemma of its command. -/
theorem consignmentResults : Obligations.ConsignmentResults := by
  intro s i may post row
  cases row with
  | header n cslot hdr sealBlk tgt addr h h1 h2 h3 h4 h5 h6 => exact completes_headerTaken h h1 h2 h3 h4 h5 h6
  | absorbed n cslot hdr sealBlk h h1 h2 h3 h4 h5 => exact completes_absorbed h h1 h2 h3 h4 h5
  | ferryUnmatched n cslot hdr sealBlk f h h1 h2 h3 h4 h5 h6 h7 h8 => exact completes_ferryUnmatched h h1 h2 h3 h4 h5 h6 h7 h8
  | replayed n cslot hdr sealBlk l h h1 h2 h3 h4 h5 h6 => exact completes_replayed h h1 h2 h3 h4 h5 h6
  | flitBad n bytes h h1 h2 h3 => exact completes_flitBad h h1 h2 h3
  | flitControl n bytes h h1 => exact completes_flitControl h h1
  | flitData n bytes l a h h1 h2 h3 h4 h5 h6 h7 h8 h9 h10 h11 => exact completes_flitData h h1 h2 h3 h4 h5 h6 h7 h8 h9 h10 h11
  | checked arr k crc tag l h h1 h2 h3 h4 h5 h6 h7 => exact completes_checked h h1 h2 h3 h4 h5 h6 h7
  | replayAsked arr k crc tag l h h1 h2 h3 h4 h6 h7 h8 => exact completes_replayAsked h h1 h2 h3 h4 h6 h7 h8
  | tagRefused arr k crc tag l h h1 h2 h3 h4 h5 h7 h8 => exact completes_tagRefused h h1 h2 h3 h4 h5 h7 h8
  | exhausted arr k crc tag l h h1 h2 h3 h6 h7 h8 => exact completes_exhausted h h1 h2 h3 h6 h7 h8
  | confirmed k l h h1 h2 h3 h4 h5 h6 => exact completes_confirmed h h1 h2 h3 h4 h5
  | confirmNotice k h h1 h2 => exact completes_confirmNotice h1 h2
  | exhaustedNotice k h h1 => exact completes_exhaustedNotice h1
  | absorbedNotice k h h1 h2 => exact completes_absorbedNotice h1 h2
  | replay k attempt h h1 h2 h3 h4 h5 => exact completes_replay h1 h2 h3 h4 h5
  | cannotReplay k attempt h h1 h2 h3 => exact completes_cannotReplay h h1 h2 h3
  | sourceReset k l h h1 h2 h3 h4 h5 => exact completes_sourceReset h h1 h2 h3 h5

end Sys2Proof.Claims
end

section
/-! SUPPORT. Number formats (03 R86 to R89, R97, R98): the fields of an element's word, and the conversion of a value that the
format holds. -/

namespace Sys2Proof.Machine

/-- The format's largest finite value is the one that its largest finite word has: with infinities the top exponent is theirs,
with a NaN and no infinity the word of all ones is the NaN's (03 R86, R89). -/
structure FloatFmt.Consistent (f : FloatFmt) : Prop where
  two_le_eb : 2 ≤ f.eb
  qmax_eq : f.qmax = (2 ^ f.eb - 1 - f.hasInf.toNat : Nat) - (f.bias : Int) - (f.fb : Int)
  mmax_eq : f.mmax = 2 ^ (f.fb + 1) - 1 - (f.hasNan && !f.hasInf).toNat

theorem elemValue_float {code : Nat} {f : FloatFmt} (h : floatFmt code = some f) (bits : Nat) :
    elemValue code bits = floatValue f bits := by simp only [elemValue, h]

theorem narrowTo_float {code : Nat} {f : FloatFmt} (h : floatFmt code = some f) (rm : Nat) (sat : Bool) (x : Num) :
    narrowTo code rm sat x = convertTo f rm sat x := by simp only [narrowTo, h]

theorem elemValue_int {code : Nat} (h : floatFmt code = none) (h' : code ≠ cE8m0) (bits : Nat) :
    elemValue code bits = numOfInt (signedOf (intWidth code) bits) := by simp only [elemValue, h, if_neg h']

theorem narrowTo_int {code : Nat} (h : floatFmt code = none) (rm : Nat) (sat : Bool) (x : Num) :
    narrowTo code rm sat x = convertInt (intWidth code) rm x := by simp only [narrowTo, h]

theorem fmtBits_float {code : Nat} {f : FloatFmt} (h : floatFmt code = some f) : fmtBits code = f.eb + f.fb + 1 := by
  unfold floatFmt at h
  split at h <;> cases h <;> rfl

theorem fmtBits_int {code : Nat} (hcode : code < 12) (h : floatFmt code = none) :
    fmtBits code = intWidth code ∧ 0 < intWidth code := by
  revert h
  revert code
  decide

/-- Only XF40 has no subnormals (03 R88). -/
theorem eq_xf40_of_hasSub_eq_false {code : Nat} {f : FloatFmt} (h : floatFmt code = some f) (hs : f.hasSub = false) :
    code = cXf40 ∧ f = fmtXf40 := by
  unfold floatFmt at h
  split at h <;> cases h
  case h_9 => exact ⟨rfl, rfl⟩
  all_goals cases hs

theorem floatFmt_consistent {code : Nat} {f : FloatFmt} (h : floatFmt code = some f) : f.Consistent := by
  unfold floatFmt at h
  split at h <;> cases h <;> exact ⟨by decide, by decide, by decide⟩

/-- `m × 2^e` is a nonzero finite value of the format, written as the format writes it. -/
structure FloatFmt.Holds (f : FloatFmt) (m : Nat) (e : Int) : Prop where
  pos : 0 < m
  lt : m < 2 ^ (f.fb + 1)
  emin_le : 1 - (f.bias : Int) - (f.fb : Int) ≤ e
  subnormal : m < 2 ^ f.fb → f.hasSub = true ∧ e = 1 - (f.bias : Int) - (f.fb : Int)
  le_qmax : e ≤ f.qmax
  le_mmax : e = f.qmax → m ≤ f.mmax

section
variable {f : FloatFmt} {m bits : Nat} {e : Int}

theorem signBit_add_fields_eq (hb : bits < 2 ^ (f.eb + f.fb + 1)) :
    signBit f (bitsOf bits (f.fb + f.eb) 1 == 1) + bitsOf bits f.fb f.eb * 2 ^ f.fb + bitsOf bits 0 f.fb = bits := by
  have hsign : bits / 2 ^ (f.fb + f.eb) < 2 := Nat.div_lt_of_lt_mul (by rwa [← Nat.pow_succ, Nat.add_comm f.fb])
  have hhigh : bits / 2 ^ f.fb / 2 ^ f.eb = bits / 2 ^ (f.fb + f.eb) := by rw [Nat.div_div_eq_div_mul, ← Nat.pow_add]
  have hlow := Nat.mod_add_div bits (2 ^ f.fb)
  have hmid := Nat.mod_add_div (bits / 2 ^ f.fb) (2 ^ f.eb)
  have hs : signBit f (bitsOf bits (f.fb + f.eb) 1 == 1) = bits / 2 ^ (f.fb + f.eb) * 2 ^ f.eb * 2 ^ f.fb := by
    rw [bitsOf, pow_one, Nat.mod_eq_of_lt hsign, Nat.mul_assoc, ← Nat.pow_add]
    obtain h | h : bits / 2 ^ (f.fb + f.eb) = 0 ∨ bits / 2 ^ (f.fb + f.eb) = 1 :=
      Nat.le_one_iff_eq_zero_or_eq_one.1 (Nat.le_of_lt_succ hsign)
    · simp [h, signBit]
    · simp [h, signBit]
  calc _ = (bits / 2 ^ f.fb % 2 ^ f.eb + 2 ^ f.eb * (bits / 2 ^ f.fb / 2 ^ f.eb)) * 2 ^ f.fb + bits % 2 ^ f.fb := by
        rw [hs, hhigh, bitsOf, bitsOf, pow_zero, Nat.div_one]; ring
    _ = bits := by rw [hmid, Nat.mul_comm, Nat.add_comm, hlow]

theorem packBits_subnormal (neg : Bool) (h : m < 2 ^ f.fb) : packBits f neg m e = signBit f neg + m := if_pos h

theorem packBits_normal (neg : Bool) (frac ex : Nat) :
    packBits f neg (2 ^ f.fb + frac) ((ex : Int) - (f.bias : Int) - (f.fb : Int)) = signBit f neg + ex * 2 ^ f.fb + frac := by
  rw [packBits, if_neg (by omega), show (ex : Int) - f.bias - f.fb + f.fb + f.bias = ex by omega, Int.toNat_natCast,
    Nat.add_sub_cancel_left]

/-- The exponent at which `convertTo` rounds a value that the format holds is the value's own. -/
theorem FloatFmt.Holds.quantum_eq (h : f.Holds m e) :
    (if f.hasSub && decide ((Nat.log2 m : Int) + e - (f.fb : Int) < 1 - (f.bias : Int) - (f.fb : Int))
      then 1 - (f.bias : Int) - (f.fb : Int) else (Nat.log2 m : Int) + e - (f.fb : Int)) = e := by
  by_cases hm : m < 2 ^ f.fb
  · have hlog : m.log2 < f.fb := (Nat.log2_lt h.pos.ne').2 hm
    obtain ⟨hsub, he⟩ := h.subnormal hm
    rw [if_pos (by simpa [hsub] using by omega), he]
  · have hlog : m.log2 = f.fb := (Nat.log2_eq_iff h.pos.ne').2 ⟨Nat.not_lt.1 hm, h.lt⟩
    rw [hlog, add_sub_cancel_left, decide_eq_false (Int.not_lt.2 h.emin_le), Bool.and_false, if_neg Bool.false_ne_true]

theorem convertTo_holds (h : f.Holds m e) (rm : Nat) (sat neg : Bool) :
    convertTo f rm sat (.fin neg m e) = ⟨packBits f neg m e, 0⟩ := by
  have hlt := h.lt
  have hrange : ¬ (e > f.qmax ∨ e = f.qmax ∧ m > f.mmax) := by
    rintro (hq | ⟨hq, hm⟩)
    · exact absurd h.le_qmax (by omega)
    · exact absurd (h.le_mmax hq) (by omega)
  rw [convertTo.eq_def]
  split
  · contradiction
  · contradiction
  · exact absurd h.pos (by simp_all)
  · rename_i hfin
    cases hfin
    simp only [h.quantum_eq]
    simp [hlt.ne, h.pos.ne', hrange, Int.not_lt.2 h.emin_le]

/-- The least exponent of a format is within its range. -/
theorem FloatFmt.Consistent.emin_lt_qmax (hc : f.Consistent) : 1 - (f.bias : Int) - (f.fb : Int) < f.qmax := by
  have heb : 2 ^ 2 ≤ 2 ^ f.eb := Nat.pow_le_pow_right (by omega) hc.two_le_eb
  have hinf : f.hasInf.toNat ≤ 1 := Bool.toNat_le _
  rw [hc.qmax_eq]
  omega

theorem FloatFmt.Consistent.holds_subnormal (hc : f.Consistent) (hsub : f.hasSub = true) (hpos : 0 < m) (hm : m < 2 ^ f.fb) :
    f.Holds m (1 - (f.bias : Int) - (f.fb : Int)) where
  pos := hpos
  lt := by rw [Nat.pow_succ]; omega
  emin_le := Int.le_refl _
  subnormal := fun _ => ⟨hsub, rfl⟩
  le_qmax := hc.emin_lt_qmax.le
  le_mmax := fun h => absurd h hc.emin_lt_qmax.ne

theorem FloatFmt.Consistent.holds_normal (hc : f.Consistent) {ex frac : Nat} (hex : ex ≠ 0) (hexlt : ex < 2 ^ f.eb)
    (hfrac : frac < 2 ^ f.fb) (hinf : f.hasInf = true → ex ≠ 2 ^ f.eb - 1)
    (hnan : f.hasNan = true → f.hasInf = false → ex = 2 ^ f.eb - 1 → frac ≠ 2 ^ f.fb - 1) :
    f.Holds (2 ^ f.fb + frac) ((ex : Int) - (f.bias : Int) - (f.fb : Int)) where
  pos := by positivity
  lt := by rw [Nat.pow_succ]; omega
  emin_le := by omega
  subnormal := by omega
  le_qmax := by
    rw [hc.qmax_eq]
    generalize 2 ^ f.eb = top at *
    cases hI : f.hasInf
    · simp only [Bool.toNat_false]
      omega
    · have := hinf hI
      simp only [Bool.toNat_true]
      omega
  le_mmax := fun he => by
    rw [hc.qmax_eq] at he
    rw [hc.mmax_eq, Nat.pow_succ]
    cases hI : f.hasInf
    · cases hN : f.hasNan
      · simp only [Bool.false_and, Bool.toNat_false]
        omega
      · have hall := hnan hN hI
        generalize 2 ^ f.eb = top at *
        simp only [hI, Bool.toNat_false] at he
        simp only [Bool.not_false, Bool.and_self, Bool.toNat_true]
        omega
    · simp only [Bool.not_true, Bool.and_false, Bool.toNat_false]
      omega

/-- A word that is no NaN is an infinity, a zero or subnormal, or a normal value (03 R86 to R89). -/
theorem floatValue_cases (hn : floatValue f bits ≠ .nan) :
    (f.hasInf = true ∧ bitsOf bits f.fb f.eb = 2 ^ f.eb - 1 ∧ bitsOf bits 0 f.fb = 0 ∧
      floatValue f bits = .inf (bitsOf bits (f.fb + f.eb) 1 == 1)) ∨
    (bitsOf bits f.fb f.eb = 0 ∧
      floatValue f bits = if f.hasSub then
        .fin (bitsOf bits (f.fb + f.eb) 1 == 1) (bitsOf bits 0 f.fb) (1 - (f.bias : Int) - (f.fb : Int))
        else .fin (bitsOf bits (f.fb + f.eb) 1 == 1) 0 0) ∨
    (bitsOf bits f.fb f.eb ≠ 0 ∧ (f.hasInf = true → bitsOf bits f.fb f.eb ≠ 2 ^ f.eb - 1) ∧
      (f.hasNan = true → f.hasInf = false → bitsOf bits f.fb f.eb = 2 ^ f.eb - 1 → bitsOf bits 0 f.fb ≠ 2 ^ f.fb - 1) ∧
      floatValue f bits = .fin (bitsOf bits (f.fb + f.eb) 1 == 1) (2 ^ f.fb + bitsOf bits 0 f.fb)
        ((bitsOf bits f.fb f.eb : Int) - (f.bias : Int) - (f.fb : Int))) := by
  unfold floatValue at hn ⊢
  dsimp only at hn ⊢
  split at hn
  next htop =>
    split at hn
    next hfrac =>
      obtain ⟨hinf, hex⟩ : f.hasInf = true ∧ bitsOf bits f.fb f.eb = 2 ^ f.eb - 1 := by simpa using htop
      exact .inl ⟨hinf, hex, hfrac, by rw [if_pos htop, if_pos hfrac]⟩
    next => exact absurd rfl hn
  next htop =>
    split at hn
    next => exact absurd rfl hn
    next hnan =>
      rw [if_neg htop, if_neg hnan]
      by_cases hex : bitsOf bits f.fb f.eb = 0
      · exact .inr (.inl ⟨hex, if_pos hex⟩)
      · exact .inr (.inr ⟨hex, by simpa using htop, by simpa using hnan, if_neg hex⟩)

theorem convertTo_floatValue (hc : f.Consistent) (hb : bits < 2 ^ (f.eb + f.fb + 1)) (hn : floatValue f bits ≠ .nan)
    (hs : f.hasSub = false → bitsOf bits f.fb f.eb = 0 → bitsOf bits 0 f.fb = 0) (rm : Nat) (sat : Bool) :
    convertTo f rm sat (floatValue f bits) = ⟨bits, 0⟩ := by
  have hfields := signBit_add_fields_eq hb
  obtain ⟨hinf, htop, hfrac, hv⟩ | ⟨hex, hv⟩ | ⟨hex, hinf, hnan, hv⟩ := floatValue_cases hn
  · rw [htop, hfrac] at hfields
    rw [hv, convertTo, if_pos hinf, infBits]
    exact congrArg (Rounded.mk · 0) hfields
  · rw [hex, Nat.zero_mul, Nat.add_zero] at hfields
    by_cases hfrac : bitsOf bits 0 f.fb = 0
    · rw [hfrac] at hfields
      rw [hv, hfrac, ← apply_ite (Num.fin _ 0), convertTo]
      exact congrArg (Rounded.mk · 0) hfields
    · have hsub : f.hasSub = true := Bool.of_not_eq_false fun h => hfrac (hs h hex)
      have hlt := bitsOf_lt bits 0 f.fb
      rw [hv, if_pos hsub, convertTo_holds (hc.holds_subnormal hsub (Nat.pos_of_ne_zero hfrac) hlt), packBits_subnormal _ hlt,
        hfields]
  · rw [hv, convertTo_holds (hc.holds_normal hex (bitsOf_lt ..) (bitsOf_lt ..) hinf hnan), packBits_normal, hfields]

end

theorem convertInt_signedOf {w bits : Nat} (hw : 0 < w) (hb : bits < 2 ^ w) (rm : Nat) :
    convertInt w rm (numOfInt (signedOf w bits)) = ⟨bits, 0⟩ := by
  have hhalf : 2 ^ w = 2 * 2 ^ (w - 1) := by rw [← Nat.pow_succ', Nat.succ_eq_add_one, Nat.sub_add_cancel hw]
  simp only [signedOf, Nat.mod_eq_of_lt hb]
  split
  · have hpos : ¬ ((bits : Int) < 0) := by omega
    have hlim : ¬ 2 ^ (w - 1) - 1 < bits := by omega
    simp [numOfInt, convertInt, hpos, hlim]
  · have hcast : ((2 ^ w : Nat) : Int) = 2 ^ w := by push_cast; rfl
    have hneg : (bits : Int) - 2 ^ w < 0 := by omega
    have habs : ((bits : Int) - 2 ^ w).natAbs = 2 ^ w - bits := by omega
    have hlim : ¬ 2 ^ (w - 1) < 2 ^ w - bits := by omega
    have hback : (2 ^ w - (2 ^ w - bits)) % 2 ^ w = bits := by rw [Nat.sub_sub_self hb.le, Nat.mod_eq_of_lt hb]
    simp only [numOfInt, convertInt, hneg, habs, decide_true, if_true]
    simp [hlim, hback]

end Sys2Proof.Machine
end

section
/-! SUPPORT. Conversions between formats (03 R97, R98). -/

namespace Sys2Proof.Claims
open Sys2Proof.Machine

/-- Settles O59: a floating element by its class (infinity, zero, subnormal, normal), an integer element by its sign. -/
theorem heldValuesConvertExactly : Obligations.HeldValuesConvertExactly := by
  intro code bits rm sat hcode hb hn hsub
  cases hf : floatFmt code with
  | some f =>
    rw [elemValue_float hf] at hn ⊢
    rw [fmtBits_float hf] at hb
    rw [narrowTo_float hf]
    refine convertTo_floatValue (floatFmt_consistent hf) hb hn (fun hs => ?_) rm sat
    obtain ⟨hxf, rfl⟩ := eq_xf40_of_hasSub_eq_false hf hs
    exact hsub hxf
  | none =>
    have hlt : code < 12 := hcode.resolve_right (fun h => by subst h; cases hf)
    obtain ⟨hbits, hpos⟩ := fmtBits_int hlt hf
    rw [elemValue_int hf (Nat.ne_of_lt hlt), narrowTo_int hf]
    exact convertInt_signedOf hpos (hbits ▸ hb) rm

end Sys2Proof.Claims
end

section
/-! SUPPORT. Tide waits (05 R138, R140): TWAIT retires or begins to wait, the wait ends, RDTIDE reads. -/

namespace Sys2Proof.Claims
open Sys2Proof.Machine

variable {s : State} {id : CoreId} {f : ImmF}

/-! An instruction that touches no vector, slot, tile or row marks nothing at sea. -/

/-- The core as its effect finds it: no longer waiting. -/
def unwaiting (c : Core) : Core := { c with wait := 0, waitOn := [] }

/-- An instruction that touches nothing, is ready and legal, and has neither fault nor wait, has its effect. -/
theorem issue_touchless {mn : String} {legal : Bool} {fault : State → Core → Option FaultRec} {effect : Core → State → State}
    {keep : State → Core → Bool} (hr : Ready s id) (hl : legal = true) (hx : fault s (s.core id) = none) :
    issue mn id s legal fault noTouch noBlock effect (keep := keep) =
      finish (effect (s.core id)
        (if keep s (s.core id) then updCore s id unwaiting else retire (updCore s id unwaiting) id)) := by
  obtain ⟨hid, hc, hf, hb⟩ := hr
  have hsea : (fun c => { markSea (goSea c []) (noTouch c) with wait := 0, waitOn := [] }) = unwaiting := by
    funext c
    rw [goSea_nil]
    exact congrArg unwaiting (markSea_empty c false)
  rw [issue_next hid hc hf hb hl hx (by simp [noTouch]) (scoreboardHolds_empty _ false) rfl, hsea]

theorem retire_unwaiting_core (s : State) (id : CoreId) : (retire (updCore s id unwaiting) id).core id = retired (s.core id) := by
  rw [retire_core, updCore_core]
  rfl

theorem retire_unwaiting_retired (s : State) (id : CoreId) :
    (retire (updCore s id unwaiting) id).rd64 (corePage id) 0x080 =
      s.rd64 (corePage id) 0x080 + (if (s.core id).hold.isEmpty then 1 else 0) := by
  rw [retire_retired, updCore_core, updCore_rd64]
  rfl

theorem changes_retire_updCore (s : State) (id : CoreId) (g : Core → Core) :
    Changes s (retire (updCore s id g) id) (also (coreParts id) nothing) := by
  rw [changes_retire (by simp) (by simp) (by simp), changes_updCore (by simp)]
  exact Changes.refl _ _

/-- An instruction retires once RETIRED and its core are right before the interrupts are signalled. -/
theorem retires_finish {i : Instr} {t : State} {c : Core} (he : exec i s = finish t) (hc : Changes s t (also (coreParts id) nothing))
    (hr : t.rd64 (corePage id) 0x080 = s.rd64 (corePage id) 0x080 + (if (s.core id).hold.isEmpty then 1 else 0))
    (hp : t.core id = c) : Retires i id s nothing (fun t => t.core id = c) :=
  completes_finish he (by simp) hc ⟨(signal_rd64 ..).trans hr, (signal_core ..).trans hp⟩

theorem immOnly_iff {d a b : Bool} : immOnly f d a b = true ↔
    (if d then f.d.toNat < 32 else f.d = 0) ∧ (if a then f.a.toNat < 32 else f.a = 0) ∧ (if b then f.b.toNat < 32 else f.b = 0)
      ∧ f.rsv = 0 := by
  cases d <;> cases a <;> cases b <;> simp [immOnly, isS, and_assoc]

/-! R138. -/

theorem waitTarget_eq (f : ImmF) (c : Core) : waitTarget f c = address c f := rfl

theorem tideReached_of_case {w : W64} (h : tideCase s w = .reached) : tideReached s.now w = true := by
  unfold tideCase at h
  split at h
  · cases h
  · split at h
    · assumption
    · split at h <;> cases h

theorem not_tideReached_of_case {w : W64} (h : tideCase s w = .ahead) : tideReached s.now w = false := by
  unfold tideCase at h
  split at h
  · cases h
  · split at h
    · cases h
    · exact Bool.eq_false_iff.2 (by assumption)

theorem twaitFault_none (h : tideCase s (address (s.core id) f) = .reached ∨ tideCase s (address (s.core id) f) = .ahead) :
    twaitFault f s (s.core id) = none := by
  rw [twaitFault, waitTarget_eq]
  rcases h with h | h <;> rw [h]

theorem twait_reached (hr : Ready s id) (hl : immOnly f false true false = true)
    (ht : tideCase s (address (s.core id) f) = .reached) (hrun : tideRuns s = true) :
    Retires (.twait id f) id s nothing (fun t => t.core id = retired (s.core id)) := by
  have hnow : reachedNow s (address (s.core id) f) = true := by
    rw [reachedNow, hrun, tideReached_of_case ht, Bool.and_self]
  have he : exec (.twait id f) s = finish (retire (updCore s id unwaiting) id) := by
    show execTwait id f s = _
    rw [execTwait, issue_touchless hr hl (twaitFault_none (.inl ht)), waitTarget_eq, hnow]
    rfl
  exact retires_finish he (changes_retire_updCore s id _) (retire_unwaiting_retired s id) (retire_unwaiting_core s id)

theorem twait_ahead (hr : Ready s id) (hl : immOnly f false true false = true) (ht : tideCase s (address (s.core id) f) = .ahead) :
    CoreEvent (.twait id f) id s nothing (fun t =>
      t.core id = { s.core id with wait := 2, waitOn := [], twait := some (address (s.core id) f) }) := by
  have hnow : reachedNow s (address (s.core id) f) = false := by
    rw [reachedNow, not_tideReached_of_case ht, Bool.and_false]
  have he : exec (.twait id f) s = finish (updCore (updCore s id unwaiting) id
      (fun k => { k with twait := some (address (s.core id) f), wait := 2 })) := by
    show execTwait id f s = _
    rw [execTwait, issue_touchless hr hl (twaitFault_none (.inr ht)), waitTarget_eq, hnow]
    rfl
  refine completes_finish he (by simp) ?_ ?_
  · rw [changes_updCore (by simp), changes_updCore (by simp)]
    exact Changes.refl _ _
  · rw [signal_core, updCore_core, updCore_core]
    rfl

theorem tideWaitDone_ends {w : W64} (hid : coreOk id = true) (hrun : running s = true) (hp : partState s (coreDie id) = 0)
    (hst : (s.core id).state = .running) (hw : (s.core id).twait = some w) (htr : tideRuns s = true) (hnow : tideReached s.now w = true) :
    Retires (.tideWaitDone id) id s nothing (fun t => t.core id = { retired (s.core id) with twait := none }) := by
  have hv : s.tideValid = true := by
    simp only [tideRuns, Bool.and_eq_true] at htr
    exact htr.1.1
  have he : exec (.tideWaitDone id) s = finish (retire (updCore s id (fun k => { k with twait := none })) id) := by
    show execTideWaitDone id s = _
    simp [execTideWaitDone, hid, hw, hrun, hp, hst, hv, reachedNow, htr, hnow]
  refine retires_finish he (changes_retire_updCore s id _) ?_ ?_
  · rw [retire_retired, updCore_core, updCore_rd64]
  · rw [retire_core, updCore_core]
    rfl

theorem retire_tide (s : State) (id : CoreId) : (retire s id).tide = s.tide := by
  simp only [retire]
  split <;> rfl

/-- R140. -/
theorem rdtide_reads (hr : Ready s id) (hl : (immOnly f true false false && f.imm == 0) = true) :
    Retires (.rdtide id f) id s nothing (fun t => t.core id = (retired (s.core id)).setS f.d.toNat s.tide.now) := by
  have he : exec (.rdtide id f) s = finish (updCore (retire (updCore s id unwaiting) id) id (fun k =>
      k.setS f.d.toNat (retire (updCore s id unwaiting) id).now)) := by
    show execRdtide id f s = _
    rw [execRdtide, issue_touchless hr hl rfl]
    rfl
  refine retires_finish he ?_ ?_ ?_
  · rw [changes_updCore (by simp)]
    exact changes_retire_updCore s id _
  · rw [updCore_rd64, retire_unwaiting_retired]
  · rw [updCore_core, retire_unwaiting_core, State.now, retire_tide]
    rfl

end Sys2Proof.Claims

open Sys2Proof Sys2Proof.Machine Sys2Proof.Claims

/-- Settles O15, one lemma for each of TWAIT at a reached tide, TWAIT at one ahead, TIDE_WAIT_DONE and RDTIDE. -/
theorem tideWaitResults : Obligations.TideWaitResults := by
  refine ⟨?_, ?_, fun id w s => tideWaitDone_ends, ?_⟩
  · intro id f s hr hd ha hb hv ht hrun
    exact twait_reached hr (immOnly_iff.2 ⟨hd, ha, hb, hv⟩) ht hrun
  · intro id f s hr hd ha hb hv ht
    exact twait_ahead hr (immOnly_iff.2 ⟨hd, ha, hb, hv⟩) ht
  · intro id f s hr hd ha hb hv hi
    refine rdtide_reads hr ?_
    rw [Bool.and_eq_true, immOnly_iff, beq_iff_eq]
    exact ⟨⟨hd, ha, hb, hv⟩, hi⟩
end

section
/-! SUPPORT. Taking a fault, and a data error (05 R151, R152). -/

namespace Sys2Proof.Claims
open Sys2Proof.Machine

variable {s t : State} {may : Part → Prop} {id : CoreId} {pc : W64} {r : FaultRec} {imprecise : Bool}

theorem core_eq_of_changes (h : Changes s t may) (hk : ¬ may (.core id.toNat)) : t.core id = s.core id := h _ hk

theorem raiseWith_core (s : State) (page bit code : Nat) (d : W32 × W32 × W32 × W32) (id : CoreId) :
    (raiseWith s page bit code d).core id = s.core id :=
  core_eq_of_changes (raiseWith_changes s page bit code d) (by simp)

theorem bitsOf_zero_of_lt {v w : Nat} (n : Nat) (h : v < 2 ^ w) : bitsOf (v + n * 2 ^ w) 0 w = v := by
  rw [bitsOf, Nat.pow_zero, Nat.div_one, Nat.add_mul_mod_self_right, Nat.mod_eq_of_lt h]

/-- The first coded event of a page loads its code (17 R439). -/
theorem setEvt_errcode {page bit code : Nat} (h : s.get ⟨page, 0x01C, 0, 16⟩ = 0) (hb : bit < 32) (h0 : code ≠ 0) (hc : code < 65536) :
    (setEvt s page bit code false).get ⟨page, 0x01C, 0, 16⟩ = code := by
  have hrd : ∀ e : W32, ((ite (s.rd page 0x010 = 0) (s.wr64 page 0x020 s.stamp) s).wr page 0x010 e).rd page 0x01C = s.rd page 0x01C := by
    intro e
    rw [rd_wr_other _ _ (regKey_ne (by decide))]
    split
    · exact rd_wr64_other _ _ (by decide) (by decide)
    · rfl
  have hkeep (e : W32) := (get_eq_of_rd (f := ⟨page, 0x01C, 0, 16⟩) (hrd e)).trans h
  rw [setEvt, if_neg h0, if_pos (hkeep _), State.get, rdN_wrN_same _ _ _ (by simp; omega)]
  exact bitsOf_zero_of_lt (w := 16) bit hc

/-! R151. -/

/-- What a fault writes before its event. -/
def faultNoted (s : State) (id : CoreId) (pc : W64) (r : FaultRec) (imprecise : Bool) : State :=
  ((((s.setCore id { s.core id with
      state := .monitor, wait := 0, waitOn := [], twait := none, plist := none, redo := none, seaFault := none }).wr64
    (corePage id) 0x058 pc).wrN (corePage id) 0x060 (faultInfo r imprecise)).wr64 (corePage id) 0x064
    (BitVec.ofNat 64 r.addr)).wrN (corePage id) 0x00C 5

theorem takeFault_eq (s : State) (id : CoreId) (pc : W64) (r : FaultRec) (imprecise : Bool) :
    ∃ d, takeFault s id pc r imprecise = raiseWith (faultNoted s id pc r imprecise) (corePage id) 2 r.code d := ⟨_, rfl⟩

theorem faultInfo_lt (r : FaultRec) (imprecise : Bool) : faultInfo r imprecise < 2 ^ 32 := by
  unfold faultInfo
  split <;> split <;> omega

/-- The words of the core's page that say what faulted, and its state. -/
abbrev faultWords (id : CoreId) (p : Part) : Prop :=
  p = .reg (regKey (corePage id) 0x00C) ∨ ∃ o, 0x058 ≤ o ∧ o < 0x06C ∧ p = .reg (regKey (corePage id) o)

theorem faultWords_of_mem {o : Nat} (h : 0x058 ≤ o ∧ o < 0x06C) : faultWords id (.reg (regKey (corePage id) o)) :=
  .inr ⟨o, h.1, h.2, rfl⟩

/-- What a fault changes. -/
abbrev faultParts (id : CoreId) : Part → Prop := also (corePageParts id) (faultWords id)

theorem changes_takeFault (h : ∀ p, faultParts id p → may p) : Changes s (takeFault t id pc r imprecise) may ↔ Changes s t may := by
  have hw : ∀ {o : Nat}, 0x058 ≤ o ∧ o < 0x06C → may (.reg (regKey (corePage id) o)) := fun ho => h _ (.inr (faultWords_of_mem ho))
  obtain ⟨d, he⟩ := takeFault_eq t id pc r imprecise
  rw [he, changes_raiseWith (fun x hx => h x (.inl (.inr (eventParts_of_mem hx)))) (h _ (.inl (.inr (by simp)))), faultNoted,
    changes_wrN (h _ (.inr (.inl rfl))), changes_wr64 (hw (by omega)) (hw (by omega)), changes_wrN (hw (by omega)),
    changes_wr64 (hw (by omega)) (hw (by omega)), changes_setCore (h _ (.inl (.inl (by simp))))]

theorem takeFault_core (s : State) (id : CoreId) (pc : W64) (r : FaultRec) (imprecise : Bool) :
    (takeFault s id pc r imprecise).core id = { s.core id with
      state := .monitor, wait := 0, waitOn := [], twait := none, plist := none, redo := none, seaFault := none } := by
  obtain ⟨d, he⟩ := takeFault_eq s id pc r imprecise
  rw [he, raiseWith_core, faultNoted, core_wrN, core_wr64, core_wrN, core_wr64, core_setCore_same]

/-- The event leaves the words that the fault has written. -/
theorem takeFault_rd {o : Nat} (ho : o < 4096) (h : o ∉ [0x010, 0x01C, 0x020, 0x024]) :
    (takeFault s id pc r imprecise).rd (corePage id) o = (faultNoted s id pc r imprecise).rd (corePage id) o := by
  obtain ⟨d, he⟩ := takeFault_eq s id pc r imprecise
  rw [he, rd_raiseWith, rd_setEvt_other _ ho (.inr h)]

theorem takeFault_rd64 {o : Nat} (ho : o + 4 < 4096) (h : o ∉ [0x010, 0x01C, 0x020, 0x024])
    (h' : o + 4 ∉ [0x010, 0x01C, 0x020, 0x024]) :
    (takeFault s id pc r imprecise).rd64 (corePage id) o = (faultNoted s id pc r imprecise).rd64 (corePage id) o := by
  rw [State.rd64, State.rd64, takeFault_rd ho h', takeFault_rd (by omega) h]

theorem takeFault_pc : (takeFault s id pc r imprecise).rd64 (corePage id) 0x058 = pc := by
  rw [takeFault_rd64 (by decide) (by decide) (by decide), faultNoted, State.wrN, State.wrN, rd64_wr_other _ _ (by decide) (by decide),
    rd64_wr64_apart _ _ (by decide), rd64_wr_other _ _ (by decide) (by decide), rd64_wr64_same]

theorem takeFault_info : (takeFault s id pc r imprecise).rdN (corePage id) 0x060 = faultInfo r imprecise := by
  rw [State.rdN, takeFault_rd (by decide) (by decide), faultNoted, State.wrN, rd_wr_other _ _ (regKey_ne (by decide)),
    rd_wr64_other _ _ (by decide) (by decide)]
  exact rdN_wrN_same _ _ _ (faultInfo_lt r imprecise)

theorem takeFault_addr : (takeFault s id pc r imprecise).rd64 (corePage id) 0x064 = BitVec.ofNat 64 r.addr := by
  rw [takeFault_rd64 (by decide) (by decide) (by decide), faultNoted, State.wrN, rd64_wr_other _ _ (by decide) (by decide),
    rd64_wr64_same]

/-- What a fault writes before its event leaves every word but its own. -/
theorem faultNoted_rd {o : Nat} (h : o ≠ 0x00C ∧ ¬(0x058 ≤ o ∧ o < 0x06C)) :
    (faultNoted s id pc r imprecise).rd (corePage id) o = s.rd (corePage id) o := by
  obtain ⟨h1, h2⟩ := h
  rw [faultNoted, State.wrN, State.wrN, rd_wr_other _ _ (regKey_ne h1), rd_wr64_other _ _ (by omega) (by omega),
    rd_wr_other _ _ (regKey_ne (by omega)), rd_wr64_other _ _ (by omega) (by omega), rd_setCore]

theorem takeFault_event : EventSet s (takeFault s id pc r imprecise) (corePage id) 2 := by
  obtain ⟨d, he⟩ := takeFault_eq s id pc r imprecise
  rw [he]
  refine (eventSet_raiseWith ..).trans ?_
  rw [faultNoted_rd (by omega)]

theorem takeFault_errcode (h : s.get ⟨corePage id, 0x01C, 0, 16⟩ = 0) (h0 : r.code ≠ 0) (hc : r.code < 65536) :
    (takeFault s id pc r imprecise).get ⟨corePage id, 0x01C, 0, 16⟩ = r.code := by
  obtain ⟨d, he⟩ := takeFault_eq s id pc r imprecise
  rw [he, get_eq_of_rd (rd_raiseWith ..)]
  refine setEvt_errcode ?_ (by decide) h0 hc
  exact (get_eq_of_rd (f := ⟨corePage id, 0x01C, 0, 16⟩) (faultNoted_rd (o := 0x01C) (by decide))).trans h

theorem faultTaken : claimFaultTaken := by
  intro id pc r imprecise s hr t
  have hcore : t.core id = _ := takeFault_core s id pc r imprecise
  refine ⟨?_, takeFault_pc, takeFault_info, ?_, takeFault_event, takeFault_errcode, ?_⟩
  · rw [hcore]
  · rw [takeFault_addr, BitVec.toNat_ofNat, Nat.mod_eq_of_lt hr]
  · rw [hcore]
    exact ⟨rfl, rfl, rfl, rfl, rfl, rfl, rfl, rfl, (changes_takeFault (fun _ h => h)).2 (Changes.refl _ _)⟩

/-! R152. -/

/-- The page of a stack, and its count of uncorrectable reads. -/
abbrev stackErrorParts (p : Part) : Prop := ∃ k, eventParts (pgHs k) p ∨ p = .reg (regKey (pgHs k) 0x044)

theorem changes_uncorrectable {a : Nat} (h : ∀ p, stackErrorParts p → may p) : Changes s (uncorrectable t a) may ↔ Changes s t may := by
  unfold uncorrectable
  split
  · rename_i k off _
    rw [changes_raise (fun x hx => h x ⟨k, .inl (eventParts_of_mem hx)⟩) (h _ ⟨k, .inl (by simp)⟩), changes_incSat (h _ ⟨k, .inr rfl⟩)]
  · rfl

theorem uncorrectable_core (s : State) (a : Nat) (id : CoreId) : (uncorrectable s a).core id = s.core id :=
  core_eq_of_changes ((changes_uncorrectable (may := stackErrorParts) (fun _ h => h)).2 (Changes.refl _ _)) (by simp)

theorem stack_of_placeOf {a k off : Nat} (h : placeOf a = some (.hbm k off)) : k < 32 := by
  unfold placeOf at h
  split at h
  · split at h <;> cases h
  · split at h
    · rename_i hin
      simp only [Option.some.injEq, Place.hbm.injEq] at h
      simp only [Bool.and_eq_true, decide_eq_true_eq, hbmBase, stackSize] at hin h
      omega
    · cases h

/-- A stack's page is no core's page. -/
theorem uncorrectable_rd (s : State) (a : Nat) (id : CoreId) {o : Nat} (ho : o < 4096) :
    (uncorrectable s a).rd (corePage id) o = s.rd (corePage id) o := by
  unfold uncorrectable
  split
  · rename_i k off hk
    have hne : corePage id ≠ pgHs k := by
      have := stack_of_placeOf hk
      simp only [corePage, pgCore, pgHs]
      omega
    rw [rd_raise, rd_setEvt_other _ ho (.inl hne), State.incSat, State.wrN, rd_wr_other]
    rw [ne_eq, regKey_inj ho (by decide)]
    exact fun e => hne e.1
  · rfl

/-- What a data error reports (R152). -/
def dataErrorRec (addr : W64) : FaultRec := { code := 0x1006, addr := addr.toNat }

theorem exec_dataError_shore {addr : W64} (hid : coreOk id = true) (hrun : running s = true) (htake : takesError (s.core id) = true)
    (hhold : (s.core id).hold = []) (hsea : (s.core id).seaFault = none) (hown : ownChip s addr.toNat = true)
    (hbad : poisoned s (placeBits addr.toNat) 1 = true) :
    exec (.dataError id pc addr) s = finish (takeFault (uncorrectable s (placeBits addr.toNat)) id pc (dataErrorRec addr) true) := by
  show execDataError id pc addr s = _
  simp [execDataError, hid, hrun, htake, hsea, hown, hbad, dataErrorFault, Core.atSea, uncorrectable_core, hhold, dataErrorRec]

theorem dataErrorTaken : claimDataErrorTaken := by
  intro id pc addr s hid hrun htake hhold hsea hown hbad
  have hcore := takeFault_core (uncorrectable s (placeBits addr.toNat)) id pc (dataErrorRec addr) true
  rw [uncorrectable_core] at hcore
  refine completes_finish (exec_dataError_shore hid hrun htake hhold hsea hown hbad) (.inl (.inl (by simp))) ?_ ?_
  · rw [changes_takeFault, changes_uncorrectable (fun p hp => .inr (.inr (.inr hp)))]
    · exact Changes.refl _ _
    · rintro p (hp | hp | hp)
      · exact .inl hp
      · exact .inr (.inl hp)
      · exact .inr (.inr (.inl hp))
  · simp only [signal_core, signal_rd64, signal_bit, signal_rd, EventSet, hcore]
    refine ⟨trivial, takeFault_pc, ?_, ?_, ?_, trivial, trivial, trivial⟩
    · rw [takeFault_addr]
      simp [dataErrorRec]
    · rw [State.bit, State.get, takeFault_info]
      simp [dataErrorRec, faultInfo, bitsOf]
    · rw [← uncorrectable_rd s (placeBits addr.toNat) id (by decide)]
      exact takeFault_event

end Sys2Proof.Claims

open Sys2Proof Sys2Proof.Machine Sys2Proof.Claims

/-- Settles O19: a data error on shore is a fault taken after the stack has counted it, and a fault writes its words and raises its event. -/
theorem faultsTaken : Obligations.FaultsTaken := ⟨dataErrorTaken, faultTaken⟩
end
section
/-! SUPPORT. What keeps memory's canonical form (log 2): the parts of the state that it depends on, a state chosen by a condition, and a
state reached by a series of changes. -/

namespace Sys2Proof.Machine.Memory

variable {s t : State}

/-- The canonical form, as a property of memory and of the ranges that are undefined. -/
def Canonical (m : Store Byte) (blurred : List (Nat × Nat × Nat)) : Bool := storeWf (blurAt blurred) m

@[simp] theorem canonical_state (s : State) : Canonical s.mem s.blurred = wf s := rfl

/-- The form depends on two fields: whatever else a function writes into the state keeps it. -/
@[simp] theorem wf_mk {pending regs pairRead pairWrite tide landing held fullBlocks sealCtr cores links ports routeWait noRouted
    applyWaits ferries groups objects tierQ tierMoves indexes engines berths boot partCmd powerSlots transition critAt bar4 pba fmask
    pend busMaster log responding hostKey drawn doe doeBuf alert i3cDyn i3cOff i3cIbi tapIr cells mem poison blurred image flash
    withheld out fresh} :
    wf ⟨pending, regs, pairRead, pairWrite, tide, landing, held, fullBlocks, sealCtr, cores, links, ports, routeWait, noRouted,
      applyWaits, ferries, groups, objects, tierQ, tierMoves, indexes, engines, berths, boot, partCmd, powerSlots, transition, critAt,
      bar4, pba, fmask, pend, busMaster, log, responding, hostKey, drawn, doe, doeBuf, alert, i3cDyn, i3cOff, i3cIbi, tapIr, cells,
      mem, poison, blurred, image, flash, withheld, out, fresh⟩ = Canonical mem blurred := rfl

@[simp] theorem wf_ite {c : Prop} [Decidable c] (s t : State) : wf (if c then s else t) = if c then wf s else wf t := apply_ite ..

theorem wf_ite_of {c : Prop} [Decidable c] {b : Bool} (hs : wf s = b) (ht : wf t = b) : wf (if c then s else t) = b := by
  split <;> assumption

@[simp] theorem wf_foldl {α : Type} {g : State → α → State} {l : List α} (s : State) (hg : ∀ t x, wf (g t x) = wf t) :
    wf (l.foldl g s) = wf s := by
  induction l generalizing s with
  | nil => rfl
  | cons x l ih => rw [List.foldl_cons, ih, hg]

theorem wf_foldl_of {α : Type} {g : State → α → State} {l : List α} (hg : ∀ t x, wf t → wf (g t x)) (h : wf s) : wf (l.foldl g s) :=
  List.foldlRecOn l g h (fun t ht x _ => hg t x ht)

@[simp] theorem wf_iterate {n : Nat} {g : Nat → State → State} (s : State) (hg : ∀ i t, wf (g i t) = wf t) :
    wf (iterate n g s) = wf s := wf_foldl s (fun t i => hg i t)

theorem wf_iterate_of {n : Nat} {g : Nat → State → State} (hg : ∀ i t, wf t → wf (g i t)) (h : wf s) : wf (iterate n g s) :=
  wf_foldl_of (fun t i => hg i t) h

/-- If the command has a next state, its memory is in canonical form. -/
def Keeps : Result → Prop
  | .next t => wf t
  | _ => True

@[simp] theorem keeps_next (t : State) : Keeps (.next t) ↔ wf t := Iff.rfl
@[simp] theorem keeps_fault (x : Fault) : Keeps (.fault x) := trivial
@[simp] theorem keeps_refused (x : Refusal) : Keeps (.refused x) := trivial
@[simp] theorem keeps_ite {c : Prop} [Decidable c] (x y : Result) : Keeps (if c then x else y) ↔ if c then Keeps x else Keeps y := by
  split <;> rfl

end Sys2Proof.Machine.Memory
end
section
/-! SUPPORT. Keeping the canonical form of memory (log 2): the named operations every command is written over. -/

namespace Sys2Proof.Machine.Memory

variable {s t : State}

@[simp] theorem wf_wr (s : State) (page off : Nat) (v : W32) : wf (s.wr page off v) = wf s := by simp [State.wr]
@[simp] theorem wf_wrN (s : State) (page off v : Nat) : wf (s.wrN page off v) = wf s := by simp [State.wrN]
@[simp] theorem wf_wr64 (s : State) (page off : Nat) (v : W64) : wf (s.wr64 page off v) = wf s := by simp [State.wr64]
@[simp] theorem wf_put (s : State) (f : Fld) (v : Nat) : wf (s.put f v) = wf s := by simp [State.put]
@[simp] theorem wf_putBit (s : State) (f : Fld) (b : Bool) : wf (s.putBit f b) = wf s := by simp [State.putBit]
@[simp] theorem wf_incSat (s : State) (page off : Nat) : wf (s.incSat page off) = wf s := by simp [State.incSat]
@[simp] theorem wf_addSat (s : State) (page off n : Nat) : wf (s.addSat page off n) = wf s := by simp [State.addSat]
@[simp] theorem wf_add64 (s : State) (page off n : Nat) : wf (s.add64 page off n) = wf s := by simp [State.add64]

/-! Units by number. -/

@[simp] theorem wf_setCore (s : State) (id : CoreId) (c : Core) : wf (s.setCore id c) = wf s := by simp [State.setCore]
@[simp] theorem wf_setLink (s : State) (n : Nat) (l : LinkRun) : wf (s.setLink n l) = wf s := by simp [State.setLink]
@[simp] theorem wf_setFerry (s : State) (f : Nat) (r : FerryRun) : wf (s.setFerry f r) = wf s := by simp [State.setFerry]
@[simp] theorem wf_setGroup (s : State) (g : Nat) (r : GroupRun) : wf (s.setGroup g r) = wf s := by simp [State.setGroup]
@[simp] theorem wf_setObj (s : State) (o : Nat) (e : ObjEntry) : wf (s.setObj o e) = wf s := by simp [State.setObj]
@[simp] theorem wf_setIndex (s : State) (i : Nat) (x : Index) : wf (s.setIndex i x) = wf s := by simp [State.setIndex]
@[simp] theorem wf_setEngine (s : State) (n : Nat) (e : Engine) : wf (s.setEngine n e) = wf s := by simp [State.setEngine]
@[simp] theorem wf_setBerth (s : State) (b : Nat) (r : BerthRun) : wf (s.setBerth b r) = wf s := by simp [State.setBerth]

/-! Memory, by place address (bits [47:0]). -/

@[simp] theorem wf_storeImage (s : State) (a : Nat) (l : List Byte) : wf (s.storeImage a l) = wf s := by
  induction l generalizing s a with
  | nil => rfl
  | cons b l ih => exact ih _ _

/-! Free values, random values, outputs. -/

@[simp] theorem wf_draw (s : State) : wf s.draw.2 = wf s := by simp [State.draw]
@[simp] theorem wf_random (s : State) (n : Nat) : wf (s.random n).2 = wf s := by simp [State.random]
@[simp] theorem wf_newKey (s : State) : wf s.newKey.2 = wf s := by simp [State.newKey]
@[simp] theorem wf_emit (s : State) (o : Out) : wf (s.emit o) = wf s := by simp [State.emit]

/-! BAR4 and interrupt signalling (17 R444 to R448). -/

@[simp] theorem wf_wrBar4 (s : State) (func off : Nat) (v : W32) : wf (s.wrBar4 func off v) = wf s := by simp [State.wrBar4]
@[simp] theorem wf_sendVector (s : State) (func vec : Nat) : wf (sendVector s func vec) = wf s := by simp [sendVector]
@[simp] theorem wf_sendVectors (s : State) (fv : List (Nat × Nat)) : wf (sendVectors s fv) = wf s := by simp [sendVectors]
@[simp] theorem wf_driveAlert (s : State) : wf (driveAlert s) = wf s := by simp [driveAlert]
@[simp] theorem wf_signal (s : State) : wf (signal s) = wf s := by simp [signal]
@[simp] theorem keeps_finish (t : State) : Keeps (finish t) ↔ wf t := by rw [finish, keeps_next, wf_signal]

/-! The logbook's queue (19 R467 to R470). -/

@[simp] theorem wf_logAdd (s : State) (e : LogEntry) : wf (logAdd s e) = wf s := by simp [logAdd]
@[simp] theorem wf_logAdapt (s : State) (page : Nat) (ends : Bool) (d0 : Nat) : wf (logAdapt s page ends d0) = wf s := by simp [logAdapt]

/-! Events (17 R438 to R440). -/

@[simp] theorem wf_setEvt (s : State) (page bit code : Nat) (forced : Bool) :
    wf (setEvt s page bit code forced) = wf s := by simp [setEvt]

@[simp] theorem wf_raiseWith (s : State) (page bit code : Nat) (d : W32 × W32 × W32 × W32) :
    wf (raiseWith s page bit code d) = wf s := by simp [raiseWith]

@[simp] theorem wf_raise (s : State) (page bit code : Nat) : wf (raise s page bit code) = wf s := by simp [raise]
@[simp] theorem wf_clearEvt (s : State) (page : Nat) (bits : W32) : wf (clearEvt s page bits) = wf s := by simp [clearEvt]

@[simp] theorem wf_accessRefused (s : State) (func bar page off : Nat) (write : Bool) :
    wf (accessRefused s func bar page off write) = wf s := by simp [accessRefused]

@[simp] theorem wf_writeRefused (s : State) (page off : Nat) (a : Access) :
    wf (writeRefused s page off a) = wf s := by simp [writeRefused]

end Sys2Proof.Machine.Memory
end
section
/-! SUPPORT. Keeping the canonical form of memory (log 2): the address space of a chip and who may reach what in it. -/

namespace Sys2Proof.Machine.Memory

variable {s t : State}

/-! HBM's check code (12 R328) over the memory operations. -/

@[simp] theorem wf_countHbm (s : State) (a n off : Nat) : wf (countHbm s a n off) = wf s := by
  unfold countHbm
  split <;> simp

@[simp] theorem wf_uncorrectable (s : State) (a : Nat) : wf (uncorrectable s a) = wf s := by
  unfold uncorrectable
  split <;> simp

@[simp] theorem wf_dirtyTiles (s : State) (a n : Nat) : wf (dirtyTiles s a n) = wf s := by simp [dirtyTiles]

@[simp] theorem wf_memWrite {a : Nat} {bs : List Byte} (h : wf s) : wf (memWrite s a bs) := by
  simp only [memWrite]
  rw [wf_foldl _ (by simp), wf_dirtyTiles, wf_mk, canonical_state]
  split
  · exact wf_storeBytes _ _ _ (by simp [h])
  · refine wf_foldl_of (fun t x ht => ?_) (by simp [h])
    exact wf_ite_of ht (wf_storeByte _ _ _ ht)

@[simp] theorem wf_memRead (s : State) (a n : Nat) : wf (memRead s a n).2 = wf s := by simp [memRead]
@[simp] theorem wf_markPoison (s : State) (a : Nat) : wf (markPoison s a) = wf s := by simp [markPoison]

end Sys2Proof.Machine.Memory
end
section
/-! SUPPORT. Keeping the canonical form of memory (log 2): what every host write of a register meets first (17 R432 to R436, R441), and
operations many chapters share. -/

namespace Sys2Proof.Machine.Memory

variable {s t : State}

/-! The host. -/

@[simp] theorem keeps_hostWrite (page off : Nat) (a : Access) {effect : State → W32 → State} (h : wf s) (he : ∀ v, wf (effect s v)) :
    Keeps (hostWrite page off a effect s) := by
  unfold hostWrite
  split
  · exact h
  · split <;> simp [h, he]

@[simp] theorem keeps_doorbellWrite (page off : Nat) (a : Access) {effect : State → W32 → State} (h : wf s) (he : ∀ v, wf (effect s v)) :
    Keeps (doorbellWrite page off a effect s) := by simp [doorbellWrite, h, he]

/-! Debug access (19 R475 to R478). -/

@[simp] theorem wf_shutDebug (s : State) : wf (shutDebug s) = wf s := by
  simp only [shutDebug]
  split <;> simp

@[simp] theorem wf_closeDebug (s : State) : wf (closeDebug s) = wf s := by simp [closeDebug]
@[simp] theorem wf_tideBecameValid (s : State) : wf (tideBecameValid s) = wf s := by simp [tideBecameValid]

end Sys2Proof.Machine.Memory
end
section
/-! SUPPORT. Keeping the canonical form of memory (log 2): how a core issues one instruction. -/

namespace Sys2Proof.Machine.Memory

variable {s t : State}

@[simp] theorem wf_takeFault (s : State) (id : CoreId) (pc : W64) (r : FaultRec) (imprecise : Bool) :
    wf (takeFault s id pc r imprecise) = wf s := by simp [takeFault]

@[simp] theorem wf_dataErrorFault (s : State) (id : CoreId) (pc : W64) (a : Nat) (index : Option Nat) :
    wf (dataErrorFault s id pc a index) = wf s := by simp [dataErrorFault]

@[simp] theorem keeps_waitAt (id : CoreId) (w : Nat) (on : List ConsKey) (h : wf s) : Keeps (waitAt s id w on) := by simp [waitAt, h]
@[simp] theorem keeps_faultAt (id : CoreId) (r : FaultRec) (h : wf s) : Keeps (faultAt s id r) := by simp [faultAt, h]
@[simp] theorem wf_retire (s : State) (id : CoreId) : wf (retire s id) = wf s := by simp [retire]
@[simp] theorem wf_updCore (s : State) (id : CoreId) (f : Core → Core) : wf (updCore s id f) = wf s := by simp [updCore]

/-! Going to sea. -/

@[simp] theorem keeps_issue {mn : String} {id : CoreId} {legal : Bool} {fault : State → Core → Option FaultRec} {touch : Core → Touch}
    {block : State → Core → Option (Nat × List ConsKey)} {effect : Core → State → State} {sea : State → Core → List (ConsKey × Nat)}
    {keep : State → Core → Bool} (h : wf s) (he : ∀ c t, wf t → wf (effect c t)) :
    Keeps (issue mn id s legal fault touch block effect sea keep) := by
  unfold issue
  split
  · trivial
  split
  · exact h
  simp only
  split
  · exact keeps_faultAt id _ h
  split
  · exact keeps_waitAt id _ _ h
  split
  · exact keeps_faultAt id _ h
  split
  · exact keeps_faultAt id _ h
  split
  · exact keeps_waitAt id _ _ h
  split
  · exact keeps_waitAt id _ _ h
  split
  · exact keeps_waitAt id _ _ h
  · rw [keeps_finish]
    exact he _ _ (by simp [h])

@[simp] theorem wf_coreRead (s : State) (a n : Nat) : wf (coreRead s a n).2 = wf s := by
  unfold coreRead
  split <;> simp

@[simp] theorem wf_coreStore {a : Nat} {bs : List Byte} (h : wf s) : wf (coreStore s a bs) := by simp [coreStore, h]

end Sys2Proof.Machine.Memory
end
section
/-! SUPPORT. Keeping the canonical form of memory (log 2): consignments and the quay line as operations (02_quay_line, 11 R309). -/

namespace Sys2Proof.Machine.Memory

variable {s t : State}

/-! Sailing (R54, R58). -/

@[simp] theorem wf_sendFlits (s : State) (link n : Nat) : wf (sendFlits s link n) = wf s := by simp [sendFlits]
@[simp] theorem wf_countFlits (s : State) (port len : Nat) : wf (countFlits s port len) = wf s := by simp [countFlits]
@[simp] theorem wf_sendAttempt (s : State) (h : Held) : wf (sendAttempt s h) = wf s := by simp [sendAttempt]

@[simp] theorem wf_sailNew (s : State) (port : Nat) (hdr payload : List Byte) (addr len : Nat) (stamp : W64) :
    wf (sailNew s port hdr payload addr len stamp).2 = wf s := by
  simp only [sailNew]
  split <;> simp

/-! Landings. -/

@[simp] theorem wf_setLanding (s : State) (l : Landing) : wf (setLanding s l) = wf s := by simp [setLanding]
@[simp] theorem wf_dropLanding (s : State) (k : ConsKey) : wf (dropLanding s k) = wf s := by simp [dropLanding]

/-! Shadowed pairs (R73 to R77). -/

@[simp] theorem wf_commitCore (s : State) (id : CoreId) : wf (commitCore s id) = wf s := by
  simp only [commitCore]
  split <;> simp

@[simp] theorem wf_loseSeaWrites (s : State) (id : CoreId) : wf (loseSeaWrites s id) = wf s := by simp [loseSeaWrites]

@[simp] theorem wf_discardCore (s : State) (id : CoreId) (k : ConsKey) (port : Nat) (fault : Option Nat) :
    wf (discardCore s id k port fault) = wf s := by
  simp only [discardCore]
  split
  · split <;> simp
  · simp

@[simp] theorem wf_coresConfirm (s : State) (k : ConsKey) : wf (coresConfirm s k) = wf s := by simp [coresConfirm]
@[simp] theorem wf_coresFail (s : State) (k : ConsKey) (port : Nat) : wf (coresFail s k port) = wf s := by simp [coresFail]

@[simp] theorem wf_coresExhaust (s : State) (k : ConsKey) (port code : Nat) :
    wf (coresExhaust s k port code) = wf s := by simp [coresExhaust]

@[simp] theorem wf_coresRedo (s : State) (k : ConsKey) : wf (coresRedo s k) = wf s := by simp [coresRedo]

/-! Ports: counters, blocks and windows (R81 to R84). -/

@[simp] theorem wf_reopenWindow (s : State) (p : Nat) : wf (reopenWindow s p) = wf s := by simp [reopenWindow]
@[simp] theorem wf_closeWindow (s : State) (p : Nat) : wf (closeWindow s p) = wf s := by simp [closeWindow]

@[simp] theorem wf_closeBlock (s : State) (p : Nat) : wf (closeBlock s p) = wf s := by
  unfold closeBlock
  split <;> simp

@[simp] theorem wf_countOutcome (s : State) (p attempt : Nat) : wf (countOutcome s p attempt) = wf s := by simp [countOutcome]

@[simp] theorem wf_exhaustLanding (s : State) (l : Landing) (code : Nat) (quay : Bool) :
    wf (exhaustLanding s l code quay) = wf s := by simp [exhaustLanding]

@[simp] theorem wf_failAttempt (s : State) (l : Landing) : wf (failAttempt s l).2 = wf s := by
  unfold failAttempt
  split <;> simp

@[simp] theorem wf_absorbLanding (s : State) (l : Landing) : wf (absorbLanding s l) = wf s := by simp [absorbLanding]
@[simp] theorem wf_releaseHeld (s : State) (k : ConsKey) : wf (releaseHeld s k) = wf s := by simp [releaseHeld]

/-! Commands of this chapter that touch cores and ports alone. -/

@[simp] theorem keeps_execPairRefresh (core : CoreId) (kind : PairKind) (pair : Fin 8) (h : wf s) :
    Keeps (execPairRefresh core kind pair s) := by
  unfold execPairRefresh
  split <;> simp
  split <;> simp [h]

@[simp] theorem wf_writeQctrl (id : CoreId) (s : State) (v : W32) : wf (writeQctrl id s v) = wf s := by simp [writeQctrl]
@[simp] theorem keeps_execSpecEn (core : CoreId) (a : Access) (h : wf s) : Keeps (execSpecEn core a s) := by simp [execSpecEn, h]
@[simp] theorem keeps_execSpecEnEffect (core : CoreId) (h : wf s) : Keeps (execSpecEnEffect core s) := by simp [execSpecEnEffect, h]
@[simp] theorem wf_writeQwin (p : Nat) (s : State) (v : W32) : wf (writeQwin p s v) = wf s := by simp [writeQwin]
@[simp] theorem wf_writeQthresh (p : Nat) (s : State) (v : W32) : wf (writeQthresh p s v) = wf s := by simp [writeQthresh]
@[simp] theorem keeps_execQwin (port : Fin 24) (a : Access) (h : wf s) : Keeps (execQwin port a s) := by simp [execQwin, h]
@[simp] theorem keeps_execBlockClose (port : Fin 24) (h : wf s) : Keeps (execBlockClose port s) := by simp [execBlockClose, h]

end Sys2Proof.Machine.Memory
end
section
/-! SUPPORT. Keeping the canonical form of memory (log 2): the tile mover. -/

namespace Sys2Proof.Machine.Memory

variable {s t : State}

/-! The job a MOVE names. -/

@[simp] theorem wf_moveStart (f : MoveF) (id : CoreId) (c : Core) (t : State) : wf (moveStart f id c t) = wf t := by simp [moveStart]
@[simp] theorem keeps_execMove (core : CoreId) (f : MoveF) (h : wf s) : Keeps (execMove core f s) := by simp [execMove, h]

/-! Completion. -/

@[simp] theorem wf_moveReadRow (m : MoveJob) (c : Core) (s : State) (r : Nat) : wf (moveReadRow m c s r).2.2 = wf s := by
  unfold moveReadRow
  split <;> simp

@[simp] theorem wf_moveReadAll (m : MoveJob) (c : Core) (s : State) : wf (moveReadAll m c s).2.2 = wf s := by
  unfold moveReadAll
  generalize hx : (([], 0, s) : List (List Byte) × Nat × State) = x
  have hs : wf x.2.2 = wf s := by rw [← hx]
  rw [← hs]
  clear hs hx
  induction List.range (readRows m) generalizing x with
  | nil => rfl
  | cons r l ih => exact (ih _).trans (wf_moveReadRow ..)

@[simp] theorem wf_moveWriteAll {m : MoveJob} {id : CoreId} {rows : List (List Byte)} (h : wf s) :
    wf (moveWriteAll m id rows s) := wf_foldl_of (fun t r ht => by simp [ht]) h

@[simp] theorem wf_moveFinish {m : MoveJob} {n : Nat} {id : CoreId} (h : wf s) : wf (moveFinish m n id s) := by
  simp only [moveFinish]
  split <;> simp [h]

@[simp] theorem keeps_execMoveDone (core : CoreId) (n : Fin 8) (h : wf s) : Keeps (execMoveDone core n s) := by
  unfold execMoveDone
  split <;> simp
  split <;> simp [h]

@[simp] theorem keeps_execMwait (core : CoreId) (f : ImmF) (h : wf s) : Keeps (execMwait core f s) := by simp [execMwait, h]

end Sys2Proof.Machine.Memory
end
section
/-! SUPPORT. Keeping the canonical form of memory (log 2): synchronisation and system instructions. -/

namespace Sys2Proof.Machine.Memory

variable {s t : State}

/-! Bollards. -/

@[simp] theorem wf_recordClaim (s : State) (id : CoreId) (b : Nat) (v : W32) : wf (recordClaim s id b v) = wf s := by simp [recordClaim]
@[simp] theorem keeps_execBadd (core : CoreId) (f : ImmF) (h : wf s) : Keeps (execBadd core f s) := by simp [execBadd, h]

/-! The tide. -/

@[simp] theorem keeps_execTwait (core : CoreId) (f : ImmF) (h : wf s) : Keeps (execTwait core f s) := by simp [execTwait, h]

@[simp] theorem keeps_execTideWaitDone (core : CoreId) (h : wf s) : Keeps (execTideWaitDone core s) := by
  unfold execTideWaitDone
  split <;> simp
  split <;> simp [h]

@[simp] theorem keeps_execRdtide (core : CoreId) (f : ImmF) (h : wf s) : Keeps (execRdtide core f s) := by simp [execRdtide, h]

/-! The quay line and memory. -/

@[simp] theorem keeps_execConfirm (core : CoreId) (f : ImmF) (h : wf s) : Keeps (execConfirm core f s) := by simp [execConfirm, h]
@[simp] theorem keeps_execFence (core : CoreId) (f : ImmF) (h : wf s) : Keeps (execFence core f s) := by simp [execFence, h]
@[simp] theorem keeps_execSynci (core : CoreId) (f : ImmF) (h : wf s) : Keeps (execSynci core f s) := by simp [execSynci, h]

/-! Ending and signalling. -/

@[simp] theorem keeps_execHalt (core : CoreId) (f : ImmF) (h : wf s) : Keeps (execHalt core f s) := by simp [execHalt, h]
@[simp] theorem keeps_execSignal (core : CoreId) (f : ImmF) (h : wf s) : Keeps (execSignal core f s) := by simp [execSignal, h]

/-! The flag word (R143): every earlier contribution has been made once no move out of a tile is outstanding. -/

@[simp] theorem keeps_execRdfl (core : CoreId) (f : ImmF) (h : wf s) : Keeps (execRdfl core f s) := by simp [execRdfl, h]
@[simp] theorem keeps_execWrfl (core : CoreId) (f : ImmF) (h : wf s) : Keeps (execWrfl core f s) := by simp [execWrfl, h]

end Sys2Proof.Machine.Memory
end
section
/-! SUPPORT. Keeping the canonical form of memory (log 2): the core page and the core monitor. -/

namespace Sys2Proof.Machine.Memory

variable {s t : State}

/-! The words of the core page that the core's own state holds. -/

@[simp] theorem wf_writeCore64 (id : CoreId) (off : Nat) (v : W64) (s : State) :
    wf (writeCore64 id off v s) = wf s := by simp [writeCore64]

/-! Commands (R145 to R147). -/

@[simp] theorem wf_refuseCore (s : State) (id : CoreId) : wf (refuseCore s id) = wf s := by simp [refuseCore]
@[simp] theorem wf_clearClaims (s : State) (id : CoreId) : wf (clearClaims s id) = wf s := by simp [clearClaims]
@[simp] theorem wf_startCommand (s : State) (id : CoreId) : wf (startCommand s id) = wf s := by simp [startCommand]
@[simp] theorem wf_nowStopped (s : State) (id : CoreId) : wf (nowStopped s id) = wf s := by simp [nowStopped]
@[simp] theorem wf_stopCommand (s : State) (id : CoreId) : wf (stopCommand s id) = wf s := by simp [stopCommand]
@[simp] theorem wf_resumeCommand (s : State) (id : CoreId) : wf (resumeCommand s id) = wf s := by simp [resumeCommand]

@[simp] theorem wf_writeCoreCtrl (id : CoreId) (s : State) (v : W32) : wf (writeCoreCtrl id s v) = wf s := by
  unfold writeCoreCtrl
  split <;> simp

@[simp] theorem keeps_coreCtrl (mn : String) (id : CoreId) (a : Access) (h : wf s) : Keeps (coreCtrl mn id a s) := by simp [coreCtrl, h]
@[simp] theorem keeps_execStart (core : CoreId) (a : Access) (h : wf s) : Keeps (execStart core a s) := by simp [execStart, h]
@[simp] theorem keeps_execStop (core : CoreId) (a : Access) (h : wf s) : Keeps (execStop core a s) := by simp [execStop, h]
@[simp] theorem keeps_execResume (core : CoreId) (a : Access) (h : wf s) : Keeps (execResume core a s) := by simp [execResume, h]
@[simp] theorem keeps_execStopped (core : CoreId) (h : wf s) : Keeps (execStopped core s) := by simp [execStopped, h]

@[simp] theorem keeps_execDataError (core : CoreId) (pc addr : BitVec 64) (h : wf s) :
    Keeps (execDataError core pc addr s) := by simp [execDataError, h]

/-! The monitor (R151, R180). -/

@[simp] theorem keeps_monIssue (mn : String) (id : CoreId) (legal : Bool) {effect : State → State} (h : wf s) (he : wf (effect s)) :
    Keeps (monIssue mn id legal effect s) := by
  unfold monIssue
  split
  · trivial
  split
  · simp [h, he]
  · exact keeps_issue h (fun _ _ ht => ht)

@[simp] theorem wf_leaveMonitor (id : CoreId) (s : State) : wf (leaveMonitor id s) = wf s := by
  unfold leaveMonitor
  split <;> simp

@[simp] theorem keeps_execMret (core : CoreId) (f : ImmF) (h : wf s) : Keeps (execMret core f s) := by simp [execMret, h]

@[simp] theorem wf_monWrite (id : CoreId) (off : Nat) (w : W32) (s : State) : wf (monWrite id off w s) = wf s := by
  unfold monWrite
  split <;> simp
  split <;> simp

@[simp] theorem wf_monCsr (id : CoreId) (f : ImmF) (s : State) : wf (monCsr id f s) = wf s := by simp [monCsr]
@[simp] theorem keeps_execMcsr (core : CoreId) (f : ImmF) (h : wf s) : Keeps (execMcsr core f s) := by simp [execMcsr, h]
@[simp] theorem wf_monLog (id : CoreId) (f : ImmF) (s : State) : wf (monLog id f s) = wf s := by simp [monLog]
@[simp] theorem keeps_execMlog (core : CoreId) (f : ImmF) (h : wf s) : Keeps (execMlog core f s) := by simp [execMlog, h]

end Sys2Proof.Machine.Memory
end
section
/-! SUPPORT. Keeping the canonical form of memory (log 2): vector arithmetic, comparisons, mask operations, reductions and conversions (06
R166; 03 R97, R98, R105 to R107). -/

namespace Sys2Proof.Machine.Memory

variable {s t : State}

/-! One lane at a time. -/

@[simp] theorem keeps_vecExec (mn : String) (id : CoreId) (f : RegF) (legal : Bool) (rd : List (BitVec 6)) (lane : Core → Nat → Rounded)
    (h : wf s) : Keeps (vecExec mn id f legal rd lane s) := by
  simp [vecExec, h]

/-! Floating point (MAJOR 0x10). -/

@[simp] theorem keeps_fpBinary (mn : String) (op : Nat → Num → Num → Num) (id : CoreId) (f : RegF) (h : wf s) :
    Keeps (fpBinary mn op id f s) := by simp [fpBinary, h]

@[simp] theorem keeps_execVadd (core : CoreId) (f : RegF) (h : wf s) : Keeps (execVadd core f s) := by simp [execVadd, h]
@[simp] theorem keeps_execVsub (core : CoreId) (f : RegF) (h : wf s) : Keeps (execVsub core f s) := by simp [execVsub, h]
@[simp] theorem keeps_execVmul (core : CoreId) (f : RegF) (h : wf s) : Keeps (execVmul core f s) := by simp [execVmul, h]

@[simp] theorem keeps_fpFused (mn : String) (neg : Bool) (id : CoreId) (f : RegF) (h : wf s) :
    Keeps (fpFused mn neg id f s) := by simp [fpFused, h]

@[simp] theorem keeps_execVfma (core : CoreId) (f : RegF) (h : wf s) : Keeps (execVfma core f s) := by simp [execVfma, h]
@[simp] theorem keeps_execVfnma (core : CoreId) (f : RegF) (h : wf s) : Keeps (execVfnma core f s) := by simp [execVfnma, h]

@[simp] theorem keeps_fpPick (mn : String) (op : Num → Num → Num) (id : CoreId) (f : RegF) (h : wf s) :
    Keeps (fpPick mn op id f s) := by simp [fpPick, h]

@[simp] theorem keeps_execVmax (core : CoreId) (f : RegF) (h : wf s) : Keeps (execVmax core f s) := by simp [execVmax, h]
@[simp] theorem keeps_execVmin (core : CoreId) (f : RegF) (h : wf s) : Keeps (execVmin core f s) := by simp [execVmin, h]

@[simp] theorem keeps_fpSign (mn : String) (op : W32 → W32) (id : CoreId) (f : RegF) (h : wf s) :
    Keeps (fpSign mn op id f s) := by simp [fpSign, h]

@[simp] theorem keeps_execVabs (core : CoreId) (f : RegF) (h : wf s) : Keeps (execVabs core f s) := by simp [execVabs, h]
@[simp] theorem keeps_execVneg (core : CoreId) (f : RegF) (h : wf s) : Keeps (execVneg core f s) := by simp [execVneg, h]
@[simp] theorem keeps_execVmov (core : CoreId) (f : RegF) (h : wf s) : Keeps (execVmov core f s) := by simp [execVmov, h]
@[simp] theorem keeps_execVsel (core : CoreId) (f : RegF) (h : wf s) : Keeps (execVsel core f s) := by simp [execVsel, h]
@[simp] theorem keeps_execVmulx (core : CoreId) (f : RegF) (h : wf s) : Keeps (execVmulx core f s) := by simp [execVmulx, h]

@[simp] theorem keeps_fpScalar (mn : String) (op : Nat → Num → Num → Num) (id : CoreId) (f : RegF) (h : wf s) :
    Keeps (fpScalar mn op id f s) := by simp [fpScalar, h]

@[simp] theorem keeps_execVmuls (core : CoreId) (f : RegF) (h : wf s) : Keeps (execVmuls core f s) := by simp [execVmuls, h]
@[simp] theorem keeps_execVadds (core : CoreId) (f : RegF) (h : wf s) : Keeps (execVadds core f s) := by simp [execVadds, h]
@[simp] theorem keeps_execVbcast (core : CoreId) (f : RegF) (h : wf s) : Keeps (execVbcast core f s) := by simp [execVbcast, h]

/-! Integers (MAJOR 0x11). -/

@[simp] theorem keeps_intBinary (mn : String) (op : W32 → W32 → W32) (id : CoreId) (f : RegF) (h : wf s) :
    Keeps (intBinary mn op id f s) := by simp [intBinary, h]

@[simp] theorem keeps_execViadd (core : CoreId) (f : RegF) (h : wf s) : Keeps (execViadd core f s) := by simp [execViadd, h]
@[simp] theorem keeps_execVisub (core : CoreId) (f : RegF) (h : wf s) : Keeps (execVisub core f s) := by simp [execVisub, h]
@[simp] theorem keeps_execVimul (core : CoreId) (f : RegF) (h : wf s) : Keeps (execVimul core f s) := by simp [execVimul, h]
@[simp] theorem keeps_execVand (core : CoreId) (f : RegF) (h : wf s) : Keeps (execVand core f s) := by simp [execVand, h]
@[simp] theorem keeps_execVor (core : CoreId) (f : RegF) (h : wf s) : Keeps (execVor core f s) := by simp [execVor, h]
@[simp] theorem keeps_execVxor (core : CoreId) (f : RegF) (h : wf s) : Keeps (execVxor core f s) := by simp [execVxor, h]
@[simp] theorem keeps_execVshl (core : CoreId) (f : RegF) (h : wf s) : Keeps (execVshl core f s) := by simp [execVshl, h]
@[simp] theorem keeps_execVshr (core : CoreId) (f : RegF) (h : wf s) : Keeps (execVshr core f s) := by simp [execVshr, h]
@[simp] theorem keeps_execVsra (core : CoreId) (f : RegF) (h : wf s) : Keeps (execVsra core f s) := by simp [execVsra, h]
@[simp] theorem keeps_execVimax (core : CoreId) (f : RegF) (h : wf s) : Keeps (execVimax core f s) := by simp [execVimax, h]
@[simp] theorem keeps_execVimin (core : CoreId) (f : RegF) (h : wf s) : Keeps (execVimin core f s) := by simp [execVimin, h]
@[simp] theorem keeps_execVidx (core : CoreId) (f : RegF) (h : wf s) : Keeps (execVidx core f s) := by simp [execVidx, h]
@[simp] theorem keeps_execVext (core : CoreId) (f : RegF) (h : wf s) : Keeps (execVext core f s) := by simp [execVext, h]

/-! Comparisons and masks (MAJOR 0x12). -/

@[simp] theorem keeps_maskExec (mn : String) (id : CoreId) (f : RegF) (legal : Bool) (rd : List (BitVec 6)) (bit : Core → Nat → Bool)
    (h : wf s) : Keeps (maskExec mn id f legal rd bit s) := by
  simp [maskExec, h]

@[simp] theorem keeps_fpCompare (mn : String) (rel : Num → Num → Bool) (id : CoreId) (f : RegF) (h : wf s) :
    Keeps (fpCompare mn rel id f s) := by simp [fpCompare, h]

@[simp] theorem keeps_execFeq (core : CoreId) (f : RegF) (h : wf s) : Keeps (execFeq core f s) := by simp [execFeq, h]
@[simp] theorem keeps_execFne (core : CoreId) (f : RegF) (h : wf s) : Keeps (execFne core f s) := by simp [execFne, h]
@[simp] theorem keeps_execFlt (core : CoreId) (f : RegF) (h : wf s) : Keeps (execFlt core f s) := by simp [execFlt, h]
@[simp] theorem keeps_execFle (core : CoreId) (f : RegF) (h : wf s) : Keeps (execFle core f s) := by simp [execFle, h]

@[simp] theorem keeps_intCompare (mn : String) (rel : W32 → W32 → Bool) (id : CoreId) (f : RegF) (h : wf s) :
    Keeps (intCompare mn rel id f s) := by simp [intCompare, h]

@[simp] theorem keeps_execIeq (core : CoreId) (f : RegF) (h : wf s) : Keeps (execIeq core f s) := by simp [execIeq, h]
@[simp] theorem keeps_execIne (core : CoreId) (f : RegF) (h : wf s) : Keeps (execIne core f s) := by simp [execIne, h]
@[simp] theorem keeps_execIlt (core : CoreId) (f : RegF) (h : wf s) : Keeps (execIlt core f s) := by simp [execIlt, h]
@[simp] theorem keeps_execIle (core : CoreId) (f : RegF) (h : wf s) : Keeps (execIle core f s) := by simp [execIle, h]
@[simp] theorem keeps_execIltu (core : CoreId) (f : RegF) (h : wf s) : Keeps (execIltu core f s) := by simp [execIltu, h]

@[simp] theorem keeps_maskBinary (mn : String) (op : Bool → Bool → Bool) (id : CoreId) (f : RegF) (h : wf s) :
    Keeps (maskBinary mn op id f s) := by simp [maskBinary, h]

@[simp] theorem keeps_execMand (core : CoreId) (f : RegF) (h : wf s) : Keeps (execMand core f s) := by simp [execMand, h]
@[simp] theorem keeps_execMor (core : CoreId) (f : RegF) (h : wf s) : Keeps (execMor core f s) := by simp [execMor, h]
@[simp] theorem keeps_execMxor (core : CoreId) (f : RegF) (h : wf s) : Keeps (execMxor core f s) := by simp [execMxor, h]
@[simp] theorem keeps_execMandn (core : CoreId) (f : RegF) (h : wf s) : Keeps (execMandn core f s) := by simp [execMandn, h]
@[simp] theorem keeps_execMlen (core : CoreId) (f : RegF) (h : wf s) : Keeps (execMlen core f s) := by simp [execMlen, h]

/-! Reductions (MAJOR 0x13; 03 R107). -/

@[simp] theorem keeps_reduceExec (mn : String) (id : CoreId) (f : RegF) (legal : Bool) (idle : Nat) (op : Nat → Nat → Rounded)
    (h : wf s) : Keeps (reduceExec mn id f legal idle op s) := by
  simp [reduceExec, h]

@[simp] theorem keeps_execVrsum (core : CoreId) (f : RegF) (h : wf s) : Keeps (execVrsum core f s) := by simp [execVrsum, h]
@[simp] theorem keeps_execVrmax (core : CoreId) (f : RegF) (h : wf s) : Keeps (execVrmax core f s) := by simp [execVrmax, h]
@[simp] theorem keeps_execVrmin (core : CoreId) (f : RegF) (h : wf s) : Keeps (execVrmin core f s) := by simp [execVrmin, h]
@[simp] theorem keeps_execVrisum (core : CoreId) (f : RegF) (h : wf s) : Keeps (execVrisum core f s) := by simp [execVrisum, h]

/-! Conversions (MAJOR 0x14). -/

@[simp] theorem keeps_execF2i (core : CoreId) (f : RegF) (h : wf s) : Keeps (execF2i core f s) := by simp [execF2i, h]
@[simp] theorem keeps_execI2f (core : CoreId) (f : RegF) (h : wf s) : Keeps (execI2f core f s) := by simp [execI2f, h]
@[simp] theorem keeps_execQnt (core : CoreId) (f : RegF) (h : wf s) : Keeps (execQnt core f s) := by simp [execQnt, h]

end Sys2Proof.Machine.Memory
end
section
/-! SUPPORT. Keeping the canonical form of memory (log 2): special functions. -/

namespace Sys2Proof.Machine.Memory

variable {s t : State}

/-! Which functions there are (R174, R175, R199, R490). -/

@[simp] theorem keeps_sfExec (mn : String) (id : CoreId) (fn : BitVec 8) (f : RegF) (legal : Bool) (rd : List (BitVec 6))
    (lane : State → Core → Nat → Rounded) (h : wf s) : Keeps (sfExec mn id fn f legal rd lane s) := by
  simp [sfExec, h]

@[simp] theorem keeps_execSfn (core : CoreId) (fn : BitVec 8) (f : RegF) (h : wf s) : Keeps (execSfn core fn f s) := by simp [execSfn, h]
@[simp] theorem keeps_execSfg (core : CoreId) (fn : BitVec 8) (f : RegF) (h : wf s) : Keeps (execSfg core fn f s) := by simp [execSfg, h]

end Sys2Proof.Machine.Memory
end
section
/-! SUPPORT. Keeping the canonical form of memory (log 2): function tables. -/

namespace Sys2Proof.Machine.Memory

variable {s t : State}

/-! The function block (R198, R199). -/

@[simp] theorem wf_showSpace (s : State) (b : Nat) : wf (showSpace s b) = wf s := by simp [showSpace]
@[simp] theorem wf_fnResult (s : State) (b code : Nat) : wf (fnResult s b code) = wf s := by simp [fnResult]
@[simp] theorem wf_writeFnCmd (b : Nat) (s : State) (v : W32) : wf (writeFnCmd b s v) = wf s := by simp [writeFnCmd]
@[simp] theorem keeps_execFnLoad (b : Fin 16) (a : Access) (h : wf s) : Keeps (execFnLoad b a s) := by simp [execFnLoad, h]
@[simp] theorem keeps_execFnUnload (b : Fin 16) (a : Access) (h : wf s) : Keeps (execFnUnload b a s) := by simp [execFnUnload, h]
@[simp] theorem keeps_execFnLoadStd (b : Fin 16) (a : Access) (h : wf s) : Keeps (execFnLoadStd b a s) := by simp [execFnLoadStd, h]
@[simp] theorem wf_setSlot (s : State) (b slot : Nat) (img : List Byte) : wf (setSlot s b slot img) = wf s := by simp [setSlot]
@[simp] theorem wf_fnLoadRun (s : State) (b fn : Nat) : wf (fnLoadRun s b fn) = wf s := by simp [fnLoadRun]
@[simp] theorem wf_fnUnloadRun (s : State) (b fn : Nat) : wf (fnUnloadRun s b fn) = wf s := by simp [fnUnloadRun]
@[simp] theorem wf_fnStdRun (s : State) (b : Nat) : wf (fnStdRun s b) = wf s := by simp [fnStdRun]

@[simp] theorem wf_fnRun (s : State) (b : Nat) (v : W32) : wf (fnRun s b v) = wf s := by
  unfold fnRun
  split <;> simp

@[simp] theorem keeps_execFnDone (b : Fin 16) (h : wf s) : Keeps (execFnDone b s) := by
  unfold execFnDone
  split <;> simp [h]

@[simp] theorem keeps_execMtbl (core : CoreId) (f : ImmF) (h : wf s) : Keeps (execMtbl core f s) := by simp [execMtbl, h]

/-! Bollards by the host (08 R231). -/

@[simp] theorem wf_writeBollard (cl n : Nat) (s : State) (v : W32) : wf (writeBollard cl n s v) = wf s := by simp [writeBollard]
@[simp] theorem keeps_execBollard (cl n : Fin 64) (a : Access) (h : wf s) : Keeps (execBollard cl n a s) := by simp [execBollard, h]

end Sys2Proof.Machine.Memory
end
section
/-! SUPPORT. Keeping the canonical form of memory (log 2): ferries as operations (09). -/

namespace Sys2Proof.Machine.Memory

variable {s t : State}

/-! Registers of the page. -/

@[simp] theorem wf_refuseFerry (s : State) (f entry cause : Nat) : wf (refuseFerry s f entry cause) = wf s := by simp [refuseFerry]

/-! Running. -/

@[simp] theorem wf_updFerry (s : State) (f : Nat) (h : FerryRun → FerryRun) : wf (updFerry s f h) = wf s := by simp [updFerry]
@[simp] theorem wf_ferrySettle (s : State) (f : Nat) : wf (ferrySettle s f) = wf s := by simp [ferrySettle]
@[simp] theorem wf_ferriesSettle (s : State) : wf (ferriesSettle s) = wf s := by simp [ferriesSettle]

@[simp] theorem wf_lowerMargin (s : State) (page off : Nat) (limit : W64) :
    wf (lowerMargin s page off limit) = wf s := by simp [lowerMargin]

@[simp] theorem wf_sailHeld (s : State) (f i k : Nat) : wf (sailHeld s f i k) = wf s := by simp [sailHeld]

@[simp] theorem wf_ferryConfirmed (s : State) (f i k attempt : Nat) (late : Option W64) :
    wf (ferryConfirmed s f i k attempt late) = wf s := by
  simp only [ferryConfirmed]
  split <;> simp

@[simp] theorem wf_abortFerry (s : State) (f : Nat) : wf (abortFerry s f) = wf s := by simp [abortFerry]
@[simp] theorem wf_abortFerries (s : State) (g : Nat) : wf (abortFerries s g) = wf s := by simp [abortFerries]

end Sys2Proof.Machine.Memory
end
section
/-! SUPPORT. Keeping the canonical form of memory (log 2): what a change of a link or a port does to the topology (11 R304 to R306), the
bundling of links into ports, and what defers a rebinding or an APPLY (09 R257, 10 R287). -/

namespace Sys2Proof.Machine.Memory

variable {s t : State}

/-! Changes. -/

@[simp] theorem wf_noteTopo (before s : State) : wf (noteTopo before s) = wf s := by simp [noteTopo]

/-! Ports. -/

@[simp] theorem wf_applyPorts (s : State) : wf (applyPorts s) = wf s := by simp [applyPorts]

@[simp] theorem wf_bundle (s : State) (n : Nat) : wf (bundle s n) = wf s := by
  simp only [bundle]
  exact wf_ite_of rfl (wf_foldl _ (fun t x => by simp))

/-! Deferral. -/

@[simp] theorem wf_settleWaits (s : State) (gone : Nat × Option W64 → Bool) : wf (settleWaits s gone) = wf s := by
  simp only [settleWaits]
  split <;> simp

end Sys2Proof.Machine.Memory
end
section
/-! SUPPORT. Keeping the canonical form of memory (log 2): groups and collectives (10). -/

namespace Sys2Proof.Machine.Memory

variable {s t : State}

/-! Registers. -/

@[simp] theorem wf_updGroup (s : State) (g : Nat) (h : GroupRun → GroupRun) : wf (updGroup s g h) = wf s := by simp [updGroup]
@[simp] theorem wf_groupEvent (s : State) (g bit code : Nat) : wf (groupEvent s g bit code) = wf s := by simp [groupEvent]
@[simp] theorem wf_cqEvent (s : State) (g bit code : Nat) : wf (cqEvent s g bit code) = wf s := by simp [cqEvent]

/-! Creation (R263 to R266). -/

@[simp] theorem wf_chargeTier0 (s : State) (b n : Nat) : wf (chargeTier0 s b n) = wf s := by simp [chargeTier0]
@[simp] theorem wf_releaseTier0 (s : State) (b n : Nat) : wf (releaseTier0 s b n) = wf s := by simp [releaseTier0]
@[simp] theorem wf_sendNotices (s : State) (g : Nat) : wf (sendNotices s g) = wf s := by simp [sendNotices]
@[simp] theorem wf_refuseGroup (s : State) (g cause : Nat) : wf (refuseGroup s g cause) = wf s := by simp [refuseGroup]
@[simp] theorem wf_refuseState (s : State) (g : Nat) : wf (refuseState s g) = wf s := by simp [refuseState]
@[simp] theorem wf_fallEntry (s : State) (g : Nat) (ends : Bool) : wf (fallEntry s g ends) = wf s := by simp [fallEntry]
@[simp] theorem wf_setFallback (s : State) (g : Nat) : wf (setFallback s g) = wf s := by simp [setFallback]
@[simp] theorem wf_noticesCheck (s : State) (g : Nat) : wf (noticesCheck s g) = wf s := by simp [noticesCheck]
@[simp] theorem wf_createGroup (s : State) (g : Nat) : wf (createGroup s g) = wf s := by simp [createGroup]

/-! Queues (R268, R270, R278). -/

@[simp] theorem wf_writeCqTail (g : Nat) (s : State) (v : W32) : wf (writeCqTail g s v) = wf s := by simp [writeCqTail]

@[simp] theorem wf_completeDesc {g addr : Nat} {d : CollDesc} {code cause flags : Nat} (h : wf s) :
    wf (completeDesc s g addr d code cause flags) := by
  simp only [completeDesc]
  split <;> simp [h]

/-! The collective in progress. -/

@[simp] theorem wf_updColl (s : State) (g : Nat) (h : Coll → Coll) : wf (updColl s g h) = wf s := by simp [updColl]

@[simp] theorem wf_writeDst {g : Nat} {d : CollDesc} {x : CollCtx} {off : Nat} {bs : List Byte} (h : wf s) :
    wf (writeDst s g d x off bs) := by simp [writeDst, h]

@[simp] theorem wf_writePiece {g : Nat} {d : CollDesc} {x : CollCtx} {p : Piece} {bs : List Byte} (h : wf s) :
    wf (writePiece s g d x p bs) := by
  unfold writePiece
  split <;> simp [h]

@[simp] theorem wf_dropColl (s : State) (g : Nat) : wf (dropColl s g) = wf s := by simp [dropColl]

@[simp] theorem wf_deleteGroup {g : Nat} (h : wf s) : wf (deleteGroup s g) := by
  unfold deleteGroup
  extract_lets queued u v w x y
  have hu : wf u := wf_iterate_of (fun _ t ht => wf_completeDesc ht) h
  have hv : wf v := wf_ite_of ((wf_fallEntry ..).trans hu) hu
  simp [y, x, w, hv]

@[simp] theorem wf_settleDelete {g : Nat} (h : wf s) : wf (settleDelete s g) := by simp [settleDelete, h]

@[simp] theorem wf_settleAll (h : wf s) : wf (settleAll s) := by
  rw [settleAll, wf_settleWaits]
  exact wf_iterate_of (fun g t ht => wf_settleDelete ht) h

@[simp] theorem wf_tryComplete {g : Nat} (h : wf s) : wf (tryComplete s g) := by
  simp only [tryComplete]
  split
  · exact h
  · refine wf_ite_of h (wf_settleAll ?_)
    rw [wf_put, wf_updGroup]
    exact wf_completeDesc (by simp [h])

/-! Taking a descriptor (R270). -/

@[simp] theorem wf_grantCredit (s : State) (g : Nat) (d : CollDesc) (t : Nat) : wf (grantCredit s g d t) = wf s := by
  unfold grantCredit
  split <;> simp

@[simp] theorem wf_startColl {g : Nat} {bs : List Byte} (h : wf s) : wf (startColl s g bs) := by simp [startColl, h]
@[simp] theorem wf_takeDesc {g : Nat} (h : wf s) : wf (takeDesc s g) := by simp [takeDesc, h]

/-! Transfers (R275, R276). -/

@[simp] theorem wf_beginColl {g : Nat} {c : Coll} (h : wf s) : wf (beginColl s g c) := by
  simp [beginColl, h]
  split <;> simp [h]

@[simp] theorem wf_launchTransfer (s : State) (g : Nat) (d : CollDesc) (t port : Nat) (dest : BitVec 16) (p : Piece) :
    wf (launchTransfer s g d t port dest p) = wf s := by simp [launchTransfer]

@[simp] theorem wf_tryLaunch {g t : Nat} (h : wf s) : wf (tryLaunch s g t) := by
  simp only [tryLaunch]
  split
  · exact h
  · refine wf_ite_of h ?_
    split
    · refine wf_ite_of (by simp [h]) ?_
      split <;> simp [h]
    · simp [h]

@[simp] theorem wf_writeChunk {g : Nat} {c : Coll} {t : Nat} (h : wf s) : wf (writeChunk s g c t) := by
  simp only [writeChunk]
  split
  · exact h
  · refine wf_tryComplete ?_
    split <;> simp [h]

@[simp] theorem wf_collConfirmed (s : State) (g t part : Nat) (late : Bool) : wf (collConfirmed s g t part late) = wf s := by
  unfold collConfirmed
  split <;> simp

@[simp] theorem wf_collSent {k : ConsKey} (h : wf s) : wf (collSent s k) := by
  simp [collSent, h]
  split <;> simp [h]

/-! Failure (R282 to R285). -/

@[simp] theorem wf_abortGroup {g : Nat} (h : wf s) : wf (abortGroup s g) := by
  simp only [abortGroup]
  refine wf_ite_of (by simp [h]) (wf_settleAll ?_)
  rw [wf_abortFerries, wf_groupEvent, wf_put, wf_updGroup]
  split
  · simp [h]
  · exact wf_completeDesc (by simp [h])

@[simp] theorem wf_startAbort {g : Nat} (h : wf s) : wf (startAbort s g) := by simp [startAbort, h]

@[simp] theorem wf_takeReform (s : State) (g : Nat) (seq : W32) (suspect : BitVec 16) (at_ : W64) :
    wf (takeReform s g seq suspect at_) = wf s := by simp [takeReform]

@[simp] theorem wf_timeOut {g : Nat} {suspect : BitVec 16} (h : wf s) : wf (timeOut s g suspect) := by simp [timeOut, h]
@[simp] theorem wf_loseDst {a n : Nat} (h : wf s) : wf (loseDst s a n) := by simp [loseDst, h]

@[simp] theorem wf_reformGroup {g : Nat} (h : wf s) : wf (reformGroup s g) := by
  unfold reformGroup
  extract_lets r u v w ms x y z a b
  have hu : wf u := by
    unfold u
    split <;> simp [h]
  have hv : wf v := wf_ite_of ((wf_wr ..).trans hu) hu
  have hx : wf x := wf_memWrite hv
  exact wf_ite_of (wf_settleAll (by simp [w, hv])) (wf_settleAll (by simp [b, a, z, y, hx]))

/-! Step marks (R287). -/

@[simp] theorem wf_deleteCmd {g : Nat} (h : wf s) : wf (deleteCmd s g) := by simp [deleteCmd, h]

@[simp] theorem wf_writeGcmd {g : Nat} {v : W32} (h : wf s) : wf (writeGcmd g s v) := by
  unfold writeGcmd
  split <;> simp [h]

/-! Commands. -/

@[simp] theorem keeps_execCreate (g : Fin 64) (a : Access) (h : wf s) : Keeps (execCreate g a s) := by simp [execCreate, h]
@[simp] theorem keeps_execDelete (g : Fin 64) (a : Access) (h : wf s) : Keeps (execDelete g a s) := by simp [execDelete, h]

@[simp] theorem keeps_execCreationNotice (g : Fin 64) (sender : BitVec 16) (digest : BitVec 32) (ring : Bool) (h : wf s) :
    Keeps (execCreationNotice g sender digest ring s) := by simp [execCreationNotice, h]

@[simp] theorem keeps_execTail (g : Fin 64) (a : Access) (h : wf s) : Keeps (execTail g a s) := by simp [execTail, h]
@[simp] theorem keeps_execCqDb (g : Fin 64) (a : Access) (h : wf s) : Keeps (execCqDb g a s) := by simp [execCqDb, h]
@[simp] theorem keeps_execDescriptorTake (g : Fin 64) (h : wf s) : Keeps (execDescriptorTake g s) := by simp [execDescriptorTake, h]

@[simp] theorem keeps_execTransferLaunch (g : Fin 64) (t : Nat) (h : wf s) :
    Keeps (execTransferLaunch g t s) := by simp [execTransferLaunch, h]

@[simp] theorem wf_takeCredit (s : State) (g t : Nat) : wf (takeCredit s g t) = wf s := by
  unfold takeCredit
  split <;> simp

@[simp] theorem keeps_execCredit (g : Fin 64) (t : Nat) (h : wf s) : Keeps (execCredit g t s) := by simp [execCredit, h]

@[simp] theorem keeps_execChunkWritten (g : Fin 64) (t : Nat) (h : wf s) : Keeps (execChunkWritten g t s) := by
  unfold execChunkWritten
  split <;> simp [h]

@[simp] theorem keeps_execCollTimeout (g : Fin 64) (t : Nat) (h : wf s) : Keeps (execCollTimeout g t s) := by
  unfold execCollTimeout
  split <;> simp [h]

@[simp] theorem keeps_execReformNotice (g : Fin 64) (seq : BitVec 32) (suspect : BitVec 16) (at_ : BitVec 64) (h : wf s) :
    Keeps (execReformNotice g seq suspect at_ s) := by simp [execReformNotice, h]

@[simp] theorem keeps_execReform (g : Fin 64) (h : wf s) : Keeps (execReform g s) := by simp [execReform, h]
@[simp] theorem keeps_execAbortNotice (g : Fin 64) (h : wf s) : Keeps (execAbortNotice g s) := by simp [execAbortNotice, h]

end Sys2Proof.Machine.Memory
end
section
/-! SUPPORT. Keeping the canonical form of memory (log 2): the commands of a ferry (09). -/

namespace Sys2Proof.Machine.Memory

variable {s t : State}

@[simp] theorem wf_armFerry (s : State) (f : Nat) : wf (armFerry s f) = wf s := by simp [armFerry]
@[simp] theorem wf_appendFerry (s : State) (f : Nat) : wf (appendFerry s f) = wf s := by simp [appendFerry]
@[simp] theorem wf_abortCmd {f : Nat} (h : wf s) : wf (abortCmd s f) := by simp [abortCmd, h]

@[simp] theorem wf_writeFerryCmd {f : Nat} {v : W32} (h : wf s) : wf (writeFerryCmd f s v) := by
  unfold writeFerryCmd
  split <;> simp [h]

@[simp] theorem keeps_execArm (f : Fin 8) (a : Access) (h : wf s) : Keeps (execArm f a s) := by simp [execArm, h]
@[simp] theorem keeps_execAppend (f : Fin 8) (a : Access) (h : wf s) : Keeps (execAppend f a s) := by simp [execAppend, h]
@[simp] theorem keeps_execAbort (f : Fin 8) (a : Access) (h : wf s) : Keeps (execAbort f a s) := by simp [execAbort, h]

@[simp] theorem wf_endValidation (s : State) (f : Nat) : wf (endValidation s f) = wf s := by
  simp only [endValidation]
  split <;> simp

@[simp] theorem keeps_execValidationDone (f : Fin 8) (h : wf s) : Keeps (execValidationDone f s) := by simp [execValidationDone, h]
@[simp] theorem wf_sailEntry (s : State) (f i k port : Nat) : wf (sailEntry s f i k port) = wf s := by simp [sailEntry]

@[simp] theorem wf_trySail (s : State) (f k : Nat) : wf (trySail s f k) = wf s := by
  simp only [trySail]
  refine wf_ite_of (by simp) ?_
  split
  · simp
  · refine wf_ite_of (by simp) (wf_ite_of (by simp) (wf_ite_of (by simp) ?_))
    split <;> simp

@[simp] theorem keeps_execSail (f : Fin 8) (entry : Nat) (h : wf s) : Keeps (execSail f entry s) := by simp [execSail, h]

@[simp] theorem wf_tryOpen (s : State) (f k : Nat) : wf (tryOpen s f k) = wf s := by
  simp [tryOpen]
  split <;> simp

@[simp] theorem keeps_execZoneOpen (f : Fin 8) (entry : Nat) (h : wf s) : Keeps (execZoneOpen f entry s) := by simp [execZoneOpen, h]

@[simp] theorem wf_tryPass {f k kind : Nat} (h : wf s) : wf (tryPass s f k kind) := by
  simp [tryPass, h]
  split <;> simp [h]

@[simp] theorem keeps_execMark (f : Fin 8) (entry : Nat) (h : wf s) : Keeps (execMark f entry s) := by simp [execMark, h]
@[simp] theorem keeps_execEndEntry (f : Fin 8) (entry : Nat) (h : wf s) : Keeps (execEndEntry f entry s) := by simp [execEndEntry, h]
@[simp] theorem wf_ferryOverdue {f i k : Nat} (h : wf s) : wf (ferryOverdue s f i k) := by simp [ferryOverdue, h]

@[simp] theorem keeps_execFerryOverdue (f : Fin 8) (entry : Nat) (h : wf s) : Keeps (execFerryOverdue f entry s) := by
  unfold execFerryOverdue
  split <;> simp [h]

end Sys2Proof.Machine.Memory
end
section
/-! SUPPORT. Keeping the canonical form of memory (log 2): links and topology (11). -/

namespace Sys2Proof.Machine.Memory

variable {s t : State}

@[simp] theorem wf_lnkEvent (s : State) (n bit code : Nat) : wf (lnkEvent s n bit code) = wf s := by simp [lnkEvent]
@[simp] theorem wf_updLink (s : State) (n : Nat) (f : LinkRun → LinkRun) : wf (updLink s n f) = wf s := by simp [updLink]
@[simp] theorem wf_putLat (s : State) (n : Nat) (lat16 : BitVec 24) : wf (putLat s n lat16) = wf s := by simp [putLat]

/-! Training (R298, R486). -/

@[simp] theorem wf_beginTraining (s : State) (n : Nat) :
    wf (beginTraining s n) = wf s := by simp only [beginTraining, wf_emit, wf_updLink, wf_put]

@[simp] theorem wf_retrainLink (s : State) (n : Nat) (counts : Bool) : wf (retrainLink s n counts) = wf s := by simp [retrainLink]
@[simp] theorem wf_endRetrain (s : State) (n : Nat) : wf (endRetrain s n) = wf s := by simp [endRetrain]
@[simp] theorem wf_failTraining (s : State) (n k : Nat) : wf (failTraining s n k) = wf s := by simp [failTraining]

@[simp] theorem wf_retryRoutes (s : State) : wf (retryRoutes s) = wf s := by
  refine wf_foldl _ (fun t m => ?_)
  split <;> simp

@[simp] theorem wf_trainedUp (s : State) (n : Nat) (lat16 : BitVec 24) : wf (trainedUp s n lat16) = wf s := by simp [trainedUp]

@[simp] theorem wf_chooseLanes (s : State) (n : Nat) : wf (chooseLanes s n) = wf s := by
  simp only [chooseLanes]
  split <;> simp

@[simp] theorem wf_identify (s : State) (n : Nat) (msg : TrainReport) : wf (identify s n msg) = wf s := by simp [identify]
@[simp] theorem wf_nextStep (s : State) (n k : Nat) : wf (nextStep s n k) = wf s := by simp [nextStep]

@[simp] theorem wf_advanceStep (s : State) (n : Nat) : wf (advanceStep s n) = wf s := by
  simp [advanceStep]
  split <;> simp

@[simp] theorem wf_ownStep (s : State) (n : Nat) (msg : TrainReport) : wf (ownStep s n msg) = wf s := by simp [ownStep]
@[simp] theorem wf_farStep (s : State) (n : Nat) (msg : TrainReport) : wf (farStep s n msg) = wf s := by simp [farStep]

@[simp] theorem keeps_execTrainingStepComplete (link : Fin 16) (msg : TrainReport) (h : wf s) :
    Keeps (execTrainingStepComplete link msg s) := by simp [execTrainingStepComplete, h]

@[simp] theorem keeps_execTrainingMessage (link : Fin 16) (msg : TrainReport) (h : wf s) :
    Keeps (execTrainingMessage link msg s) := by simp [execTrainingMessage, h]

@[simp] theorem keeps_execStepTimeout (link : Fin 16) (h : wf s) : Keeps (execStepTimeout link s) := by simp [execStepTimeout, h]
@[simp] theorem wf_seePattern (s : State) (n : Nat) : wf (seePattern s n) = wf s := by simp [seePattern]

@[simp] theorem keeps_execTrainingPattern (link : Fin 16) (h : wf s) :
    Keeps (execTrainingPattern link s) := by simp [execTrainingPattern, h]

@[simp] theorem wf_writeLnkCtrl (n : Nat) (s : State) (v : W32) : wf (writeLnkCtrl n s v) = wf s := by simp [writeLnkCtrl]
@[simp] theorem keeps_execLinkEn (link : Fin 16) (a : Access) (h : wf s) : Keeps (execLinkEn link a s) := by simp [execLinkEn, h]
@[simp] theorem keeps_execRetrain (link : Fin 16) (a : Access) (h : wf s) : Keeps (execRetrain link a s) := by simp [execRetrain, h]
@[simp] theorem wf_writeRetrainMax (n : Nat) (s : State) (v : W32) : wf (writeRetrainMax n s v) = wf s := by simp [writeRetrainMax]
@[simp] theorem keeps_execRetrainLimit (link : Fin 16) (h : wf s) : Keeps (execRetrainLimit link s) := by simp [execRetrainLimit, h]
@[simp] theorem keeps_execRetryTimer (link : Fin 16) (h : wf s) : Keeps (execRetryTimer link s) := by simp [execRetryTimer, h]

/-! Sparing (R300, R301). -/

@[simp] theorem wf_spareLane (s : State) (n lane : Nat) (lat16 : BitVec 24) : wf (spareLane s n lane lat16) = wf s := by simp [spareLane]

@[simp] theorem wf_lanesFailed (s : State) (n : Nat) (bad : List Nat) (lat16 : BitVec 24) : wf (lanesFailed s n bad lat16) = wf s := by
  unfold lanesFailed
  split <;> simp

@[simp] theorem wf_loseLight (s : State) (n : Nat) (lanes : BitVec 9) (lat16 : BitVec 24) :
    wf (loseLight s n lanes lat16) = wf s := by simp [loseLight]

@[simp] theorem keeps_execLightLoss (link : Fin 16) (lanes : BitVec 9) (lat16 : BitVec 24) (h : wf s) :
    Keeps (execLightLoss link lanes lat16 s) := by simp [execLightLoss, h]

@[simp] theorem wf_closeWindowOf (s : State) (n : Nat) (farOver : BitVec 9) (lat16 : BitVec 24) :
    wf (closeWindowOf s n farOver lat16) = wf s := by simp [closeWindowOf]

@[simp] theorem keeps_execLaneWindow (link : Fin 16) (farOver : BitVec 9) (lat16 : BitVec 24) (h : wf s) :
    Keeps (execLaneWindow link farOver lat16 s) := by simp [execLaneWindow, h]

/-! Link retry (R294). -/

@[simp] theorem wf_resendFlits (s : State) (n : Nat) : wf (resendFlits s n) = wf s := by simp [resendFlits]
@[simp] theorem wf_takeAck (s : State) (n : Nat) (ack : BitVec 12) (nak : Bool) : wf (takeAck s n ack nak) = wf s := by simp [takeAck]
@[simp] theorem keeps_execAckTimeout (link : Fin 16) (h : wf s) : Keeps (execAckTimeout link s) := by simp [execAckTimeout, h]

/-! Routing (R305, R306). -/

@[simp] theorem wf_hearCube (s : State) (pos : Nat) (cube : BitVec 16) : wf (hearCube s pos cube) = wf s := by simp [hearCube]

@[simp] theorem keeps_execLinkStateAnnounce (pos : Fin 3) (cube : BitVec 16) (h : wf s) :
    Keeps (execLinkStateAnnounce pos cube s) := by simp [execLinkStateAnnounce, h]

@[simp] theorem wf_routeHop (s : State) (m : RouteMsg) : wf (routeHop s m) = wf s := by
  unfold routeHop
  split <;> simp
  split <;> simp

@[simp] theorem keeps_execRouteHop (msg : RouteMsg) (h : wf s) : Keeps (execRouteHop msg s) := by simp [execRouteHop, h]

/-! TOPO (R302, R304). -/

@[simp] theorem wf_judgeConfig (s : State) : wf (judgeConfig s) = wf s := by simp [judgeConfig]
@[simp] theorem wf_writeSelf (s : State) (v : W32) : wf (writeSelf s v) = wf s := by simp [writeSelf]
@[simp] theorem keeps_execSelf (a : Access) (h : wf s) : Keeps (execSelf a s) := by simp [execSelf, h]

end Sys2Proof.Machine.Memory
end
section
/-! SUPPORT. Keeping the canonical form of memory (log 2): memory tiers (12). -/

namespace Sys2Proof.Machine.Memory

variable {s t : State}

/-! Rings (R320). Ring 0 to 15 is a berth's, 16 the host's. -/

@[simp] theorem wf_setRingHead (s : State) (ring v : Nat) : wf (setRingHead s ring v) = wf s := by simp [setRingHead]
@[simp] theorem wf_setRingTail (s : State) (ring v : Nat) : wf (setRingTail s ring v) = wf s := by simp [setRingTail]

/-! Granules (R313, R314). -/

@[simp] theorem wf_charge (s : State) (owner tier n : Nat) : wf (charge s owner tier n) = wf s := by simp [charge]
@[simp] theorem wf_uncharge (s : State) (owner tier n : Nat) : wf (uncharge s owner tier n) = wf s := by simp [uncharge]

/-! Completion. -/

@[simp] theorem wf_completeReq {r : TierReq} {code cause : Nat} (h : wf s) : wf (completeReq s r code cause) := by simp [completeReq, h]

@[simp] theorem wf_tierEvent (s : State) (bit code obj tile extent : Nat) :
    wf (tierEvent s bit code obj tile extent) = wf s := by simp [tierEvent]

/-! Order (R321). -/

@[simp] theorem wf_settleTier (h : wf s) : wf (settleTier s) := by
  refine wf_foldl_of (fun t r ht => ?_) h
  split
  · split <;> simp [ht]
  · exact ht

@[simp] theorem wf_takeRing {ring : Nat} (h : wf s) : wf (takeRing s ring) := by
  simp only [takeRing]
  exact wf_ite_of h (wf_iterate_of (fun _ t ht => by simp [ht]) h)

@[simp] theorem wf_writeRingTail {ring : Nat} {v : W32} (h : wf s) : wf (writeRingTail ring s v) := by simp [writeRingTail, h]
@[simp] theorem keeps_execTqTail (b : Fin 16) (a : Access) (h : wf s) : Keeps (execTqTail b a s) := by simp [execTqTail, h]
@[simp] theorem keeps_execTqDb (b : Fin 16) (a : Access) (h : wf s) : Keeps (execTqDb b a s) := by simp [execTqDb, h]
@[simp] theorem keeps_execHqTail (a : Access) (h : wf s) : Keeps (execHqTail a s) := by simp [execHqTail, h]
@[simp] theorem keeps_execHqDb (a : Access) (h : wf s) : Keeps (execHqDb a s) := by simp [execHqDb, h]

/-! The object table (R316). -/

@[simp] theorem wf_writeTierCtrl (s : State) (v : W32) : wf (writeTierCtrl s v) = wf s := by simp [writeTierCtrl]
@[simp] theorem keeps_execTierEn (a : Access) (h : wf s) : Keeps (execTierEn a s) := by simp [execTierEn, h]

@[simp] theorem keeps_execOtabReady (h : wf s) : Keeps (execOtabReady s) := by
  unfold execOtabReady
  split
  · rw [keeps_finish]
    exact wf_iterate_of (fun ring t ht => wf_takeRing ht) (by simp [h])
  · exact h

/-! Checks (R321, R322). -/

@[simp] theorem keeps_serve (ring : Fin 17) (pos : BitVec 16) (op : Nat) {effect : TierReq → ObjEntry → State → State} (h : wf s)
    (he : ∀ r e, wf (effect r e s)) :
    Keeps (serve ring pos op effect s) := by
  unfold serve
  split
  · exact h
  split
  · exact h
  simp only
  split
  · exact (keeps_finish _).2 (wf_settleTier (wf_completeReq h))
  · exact (keeps_finish _).2 (wf_settleTier (he _ _))

@[simp] theorem wf_activate (s : State) (r : TierReq) : wf (activate s r) = wf s := by simp [activate]
@[simp] theorem wf_zeroWrite {a n : Nat} (h : wf s) : wf (zeroWrite s a n) := by simp [zeroWrite, wf_zeroRange, h]

/-! ALLOC, FREE, PIN, UNPIN, RESTORE, SUPPLIED, SHARE, WAIT (R322). -/

@[simp] theorem wf_doAlloc {r : TierReq} {x1 : ObjEntry} (h : wf s) : wf (doAlloc r x1 s) := by
  unfold doAlloc
  split <;> simp [h]

@[simp] theorem keeps_execAlloc (ring : Fin 17) (pos : BitVec 16) (h : wf s) : Keeps (execAlloc ring pos s) := by simp [execAlloc, h]

@[simp] theorem keeps_execAllocDone (obj : BitVec 20) (h : wf s) : Keeps (execAllocDone obj s) := by
  unfold execAllocDone
  split
  · exact h
  split
  · exact h
  · exact (keeps_finish _).2 (wf_settleTier (wf_completeReq (by simp [h])))

@[simp] theorem wf_eraseFlash (s : State) (handle : Nat) : wf (eraseFlash s handle) = wf s := by simp [eraseFlash]
@[simp] theorem wf_releaseHome (s : State) (e : ObjEntry) : wf (releaseHome s e) = wf s := by simp [releaseHome]
@[simp] theorem wf_doFree {r : TierReq} {e : ObjEntry} (h : wf s) : wf (doFree r e s) := by simp [doFree, h]
@[simp] theorem keeps_execFree (ring : Fin 17) (pos : BitVec 16) (h : wf s) : Keeps (execFree ring pos s) := by simp [execFree, h]
@[simp] theorem wf_doPin {r : TierReq} {e : ObjEntry} (h : wf s) : wf (doPin r e s) := by simp [doPin, h]
@[simp] theorem keeps_execPin (ring : Fin 17) (pos : BitVec 16) (h : wf s) : Keeps (execPin ring pos s) := by simp [execPin, h]
@[simp] theorem wf_doUnpin {r : TierReq} {e : ObjEntry} (h : wf s) : wf (doUnpin r e s) := by simp [doUnpin, h]
@[simp] theorem keeps_execUnpin (ring : Fin 17) (pos : BitVec 16) (h : wf s) : Keeps (execUnpin ring pos s) := by simp [execUnpin, h]

@[simp] theorem wf_doRestore {r : TierReq} {e : ObjEntry} (h : wf s) : wf (doRestore r e s) := by
  unfold doRestore
  split <;> simp [h]

@[simp] theorem keeps_execRestore (ring : Fin 17) (pos : BitVec 16) (h : wf s) :
    Keeps (execRestore ring pos s) := by simp [execRestore, h]

@[simp] theorem wf_doSupplied {r : TierReq} {e : ObjEntry} (h : wf s) : wf (doSupplied r e s) := by simp [doSupplied, h]

@[simp] theorem keeps_execSupplied (ring : Fin 17) (pos : BitVec 16) (h : wf s) :
    Keeps (execSupplied ring pos s) := by simp [execSupplied, h]

@[simp] theorem wf_doShare {r : TierReq} {e : ObjEntry} (h : wf s) : wf (doShare r e s) := by simp [doShare, h]
@[simp] theorem keeps_execShare (ring : Fin 17) (pos : BitVec 16) (h : wf s) : Keeps (execShare ring pos s) := by simp [execShare, h]
@[simp] theorem wf_doWait (r : TierReq) (x1 : ObjEntry) (s : State) : wf (doWait r x1 s) = wf s := by simp [doWait]
@[simp] theorem keeps_execWait (ring : Fin 17) (pos : BitVec 16) (h : wf s) : Keeps (execWait ring pos s) := by simp [execWait, h]

/-! Moves (R323 to R326). -/

@[simp] theorem wf_doMove {r : TierReq} {e : ObjEntry} (h : wf s) : wf (doMove r e s) := by
  unfold doMove
  split <;> simp [h]
  split <;> simp [h]

@[simp] theorem keeps_execTierMove (ring : Fin 17) (pos : BitVec 16) (h : wf s) :
    Keeps (execTierMove ring pos s) := by simp [execTierMove, h]

@[simp] theorem wf_setMove (s : State) (m : TierMove) : wf (setMove s m) = wf s := by simp [setMove]
@[simp] theorem wf_setTile (s : State) (m : TierMove) (t : Nat) (x : TileState) : wf (setTile s m t x) = wf s := by simp [setTile]
@[simp] theorem wf_endMove (s : State) (m : TierMove) (keep : Bool) : wf (endMove s m keep) = wf s := by simp [endMove]

@[simp] theorem wf_failMove {m : TierMove} {code : Nat} (h : wf s) : wf (failMove s m code) := by
  simp only [failMove]
  split <;> simp [h]

@[simp] theorem wf_loseObject {m : TierMove} {code tile : Nat} (h : wf s) : wf (loseObject s m code tile) := by
  unfold loseObject
  extract_lets u e v w x y
  have hx : wf x := wf_foldl_of (fun t r ht => wf_completeReq ht) (by simp [w, v, u, h])
  simp [y, hx]

@[simp] theorem wf_sailTile {m : TierMove} {t : Nat} (h : wf s) : wf (sailTile s m t) := by
  simp only [sailTile]
  refine wf_ite_of (by simp [h]) (wf_ite_of (by simp [h]) ?_)
  rw [wf_setTile, wf_sailNew]
  split <;> simp [h]

@[simp] theorem keeps_execTileSail (obj : BitVec 20) (tile : Nat) (h : wf s) : Keeps (execTileSail obj tile s) := by
  unfold execTileSail
  split <;> simp [h]

@[simp] theorem wf_setProgress (s : State) (obj : Nat) : wf (setProgress s obj) = wf s := by
  unfold setProgress
  split <;> simp

@[simp] theorem wf_tileConfirmed (s : State) (obj tile : Nat) : wf (tileConfirmed s obj tile) = wf s := by
  unfold tileConfirmed
  split <;> simp

@[simp] theorem wf_tileExhausted {obj code : Nat} (h : wf s) : wf (tileExhausted s obj code) := by
  unfold tileExhausted
  split <;> simp [h]

@[simp] theorem wf_flipMove {m : TierMove} (h : wf s) : wf (flipMove s m) := by
  simp only [flipMove]
  split <;> simp [h]

@[simp] theorem keeps_execFlip (obj : BitVec 20) (h : wf s) : Keeps (execFlip obj s) := by
  unfold execFlip
  split <;> simp [h]

/-! Flash (R333 to R338). -/

@[simp] theorem keeps_execFlashRead (obj : BitVec 20) (tile : Nat) (retries : Fin 17) (good : Bool) (h : wf s) :
    Keeps (execFlashRead obj tile retries good s) := by
  unfold execFlashRead
  split <;> simp [h]

@[simp] theorem wf_programTile (s : State) (handle : Nat) (off : Nat) (l : List Byte) : wf (programTile s handle off l) = wf s := by
  induction l generalizing s off with
  | nil => rfl
  | cons b l ih => exact ih _ _

@[simp] theorem wf_programFailed (s : State) : wf (programFailed s) = wf s := by simp [programFailed]

@[simp] theorem keeps_execFlashProgram (obj : BitVec 20) (tile : Nat) (good : Bool) (h : wf s) :
    Keeps (execFlashProgram obj tile good s) := by
  unfold execFlashProgram
  split <;> simp [h]

@[simp] theorem wf_maintain (s : State) (wear starts : Bool) : wf (maintain s wear starts) = wf s := by simp [maintain]
@[simp] theorem keeps_execFtlMaint (wear starts : Bool) (h : wf s) : Keeps (execFtlMaint wear starts s) := by simp [execFtlMaint, h]
@[simp] theorem wf_writeFlashCtrl (s : State) (v : W32) : wf (writeFlashCtrl s v) = wf s := by simp [writeFlashCtrl]
@[simp] theorem keeps_execFlashEn (a : Access) (h : wf s) : Keeps (execFlashEn a s) := by simp [execFlashEn, h]

/-! Traffic generators (R330, R332). -/

@[simp] theorem wf_writeTest (k : Nat) (s : State) (v : W32) : wf (writeTest k s v) = wf s := by simp [writeTest]
@[simp] theorem keeps_execTest (k : Fin 32) (a : Access) (h : wf s) : Keeps (execTest k a s) := by simp [execTest, h]
@[simp] theorem wf_writeGmode (k ch : Nat) (s : State) (v : W32) : wf (writeGmode k ch s v) = wf s := by simp [writeGmode]
@[simp] theorem keeps_execGo (k ch : Fin 32) (a : Access) (h : wf s) : Keeps (execGo k ch a s) := by simp [execGo, h]

@[simp] theorem wf_genWrites {k ch : Nat} (h : wf s) : wf (genWrites s k ch) := by
  simp only [genWrites]
  refine wf_ite_of h (wf_foldl_of (fun t u ht => ?_) h)
  exact wf_ite_of (wf_memWrite ht) (wf_memWrite (by simp [ht]))

@[simp] theorem wf_endGenerator {k ch : Nat} {errors : W32} {first : BitVec 23} (h : wf s) :
    wf (endGenerator s k ch errors first) := by simp [endGenerator, h]

@[simp] theorem keeps_execGeneratorDone (k ch : Fin 32) (errors : BitVec 32) (first : BitVec 23) (h : wf s) :
    Keeps (execGeneratorDone k ch errors first s) := by simp [execGeneratorDone, h]

end Sys2Proof.Machine.Memory
end
section
/-! SUPPORT. Keeping the canonical form of memory (log 2): consignments at their landing chip and at their source (02 R53 to R66, 11 R292
to R294, R309). -/

namespace Sys2Proof.Machine.Memory

variable {s t : State}

/-! Outcomes. -/

@[simp] theorem wf_confirmLanding (s : State) (l : Landing) : wf (confirmLanding s l) = wf s := by
  unfold confirmLanding
  split <;> simp

@[simp] theorem wf_exhaustEnd {l : Landing} {code : Nat} (h : wf s) : wf (exhaustEnd s l code) := by
  unfold exhaustEnd
  split <;> simp [h]

@[simp] theorem wf_failLanding {l : Landing} (h : wf s) : wf (failLanding s l) := by simp [failLanding, h]

/-! The header (R55, R82; 09 R249, 10 R271, 12 R323, 15 R409). -/

@[simp] theorem wf_ferryUnexpected (s : State) (k : ConsKey) : wf (ferryUnexpected s k) = wf s := by simp [ferryUnexpected]
@[simp] theorem wf_collUnexpected (s : State) (k : ConsKey) : wf (collUnexpected s k) = wf s := by simp [collUnexpected]

@[simp] theorem wf_matchArrival (s : State) (h : ConsHdr) : wf (matchArrival s h).2.2 = wf s := by
  simp only [matchArrival]
  split
  · split
    · split <;> simp
    · simp
  all_goals split <;> simp

@[simp] theorem wf_freeSlots (s : State) (gone : Nat → Nat × Nat × ConsKey → Bool) : wf (freeSlots s gone) = wf s := by simp [freeSlots]

@[simp] theorem wf_bindSlot (s : State) (link chan cslot : Nat) (k : ConsKey) :
    wf (bindSlot s link chan cslot k) = wf s := by simp [bindSlot]

@[simp] theorem wf_takeHeader (s : State) (arr : Arrival) (cslot : Nat) (hdr sealBlk : List Byte) :
    wf (takeHeader s arr cslot hdr sealBlk) = wf s := by
  simp only [takeHeader]
  split
  · split
    · split <;> simp
    · simp
  · split
    · split
      · split <;> simp
      · simp
    · simp

@[simp] theorem keeps_execConsignmentHeader (arr : Arrival) (cslot : Fin 16) (hdr sealBlk : List Byte) (h : wf s) :
    Keeps (execConsignmentHeader arr cslot hdr sealBlk s) := by simp [execConsignmentHeader, h]

/-! Flits (11 R292 to R294). -/

@[simp] theorem wf_countLanes (s : State) (n : Nat) (h : FlitHdr) (good : Bool) (bytes : List Byte) :
    wf (countLanes s n h good bytes) = wf s := by simp [countLanes]

@[simp] theorem wf_landWords {l : Landing} {bytes : List Byte} (h : wf s) : wf (landWords s l bytes) := by
  unfold landWords
  split <;> simp [h]
  split <;> simp [h]

@[simp] theorem wf_acceptFlit {n : Nat} {h : FlitHdr} {bytes : List Byte} (hs : wf s) : wf (acceptFlit s n h bytes) := by
  unfold acceptFlit
  split <;> simp [hs]
  split <;> simp [hs]

@[simp] theorem wf_takeFlit {n : Nat} {bytes : List Byte} (h : wf s) : wf (takeFlit s n bytes) := by
  simp only [takeFlit]
  refine wf_ite_of (by simp [h]) ?_
  rw [wf_takeAck]
  exact wf_ite_of (wf_acceptFlit (by simp [h])) (by simp [h])

@[simp] theorem keeps_execFlitReceive (link : Fin 16) (bytes : List Byte) (h : wf s) :
    Keeps (execFlitReceive link bytes s) := by simp [execFlitReceive, h]

/-! The trailer (R57, R59, R62; 11 R309, R310; 14 R392). -/

@[simp] theorem wf_tagFail (s : State) (l : Landing) : wf (tagFail s l) = wf s := by simp [tagFail]
@[simp] theorem wf_checkLanding (s : State) (l : Landing) : wf (checkLanding s l) = wf s := by simp [checkLanding]

@[simp] theorem wf_takeTrailer {l : Landing} {crc : W32} {tag : BitVec 128} (h : wf s) : wf (takeTrailer s l crc tag) := by
  simp only [takeTrailer]
  refine wf_ite_of (by simp [h]) (wf_ite_of (by simp [h]) (wf_ite_of (by simp [h]) ?_))
  rw [wf_checkLanding]
  split
  · exact wf_ite_of (wf_memWrite (by simp [h])) (by simp [h])
  · simp [h]

@[simp] theorem keeps_execConsignmentTrailer (arr : Arrival) (key : ConsKey) (crc : BitVec 32) (tag : BitVec 128) (h : wf s) :
    Keeps (execConsignmentTrailer arr key crc tag s) := by
  unfold execConsignmentTrailer
  split <;> simp [h]

/-! Confirmation. -/

@[simp] theorem keeps_execConfirmed (key : ConsKey) (h : wf s) : Keeps (execConfirmed key s) := by
  unfold execConfirmed
  split <;> simp [h]

/-! At the source (R58, R62 to R65). -/

@[simp] theorem wf_released (s : State) (k : ConsKey) : wf (released s k) = wf s := by simp [released]

@[simp] theorem keeps_execConfirmNotice (key : ConsKey) (h : wf s) : Keeps (execConfirmNotice key s) := by
  unfold execConfirmNotice
  split <;> simp [h]

@[simp] theorem keeps_execExhaustedNotice (key : ConsKey) (h : wf s) : Keeps (execExhaustedNotice key s) := by
  unfold execExhaustedNotice
  split <;> simp [h]

@[simp] theorem wf_tileAbsorbed (s : State) (k : ConsKey) : wf (tileAbsorbed s k) = wf s := by
  unfold tileAbsorbed
  split <;> simp
  split <;> simp

@[simp] theorem keeps_execAbsorbedNotice (key : ConsKey) (h : wf s) : Keeps (execAbsorbedNotice key s) := by
  unfold execAbsorbedNotice
  split <;> simp [h]

@[simp] theorem wf_resail (s : State) (h : Held) (attempt : Nat) : wf (resail s h attempt) = wf s := by simp [resail]
@[simp] theorem wf_sourceLost {l : Landing} (h : wf s) : wf (sourceLost s l) := by simp [sourceLost, h]

@[simp] theorem keeps_execReplayRequest (key : ConsKey) (attempt : BitVec 8) (h : wf s) : Keeps (execReplayRequest key attempt s) := by
  unfold execReplayRequest
  split
  · exact h
  split
  · simp [h]
  · split <;> simp [h]

@[simp] theorem keeps_execSourceResetAnnounced (key : ConsKey) (h : wf s) : Keeps (execSourceResetAnnounced key s) := by
  unfold execSourceResetAnnounced
  split <;> simp [h]

/-! APPLY (11 R304). -/

@[simp] theorem wf_applyCmd (s : State) (v : W32) : wf (applyCmd s v) = wf s := by simp [applyCmd]
@[simp] theorem keeps_execApply (a : Access) (h : wf s) : Keeps (execApply a s) := by simp [execApply, h]

end Sys2Proof.Machine.Memory
end
section
/-! SUPPORT. Keeping the canonical form of memory (log 2): sketch indexes (13 R345 to R352, R368 to R370, R372). -/

namespace Sys2Proof.Machine.Memory

variable {s t : State}

/-! Events (R372). -/

@[simp] theorem wf_sketchEvent (s : State) (bit code : Nat) (cl ix : Option Nat) :
    wf (sketchEvent s bit code cl ix) = wf s := by simp [sketchEvent]

/-! Commands (R351, R368 to R370). -/

@[simp] theorem wf_refuseIndex (s : State) (ix cause : Nat) : wf (refuseIndex s ix cause) = wf s := by simp [refuseIndex]
@[simp] theorem wf_refuseBusy (s : State) (ix : Nat) : wf (refuseBusy s ix) = wf s := by simp [refuseBusy]
@[simp] theorem wf_writeIdxCmd (s : State) (v : W32) : wf (writeIdxCmd s v) = wf s := by simp [writeIdxCmd]
@[simp] theorem keeps_execIndexCreate (a : Access) (h : wf s) : Keeps (execIndexCreate a s) := by simp [execIndexCreate, h]
@[simp] theorem keeps_execMerge (a : Access) (h : wf s) : Keeps (execMerge a s) := by simp [execMerge, h]
@[simp] theorem keeps_execRetire (a : Access) (h : wf s) : Keeps (execRetire a s) := by simp [execRetire, h]
@[simp] theorem keeps_execDestroy (a : Access) (h : wf s) : Keeps (execDestroy a s) := by simp [execDestroy, h]

/-! The checks (R351, R368). -/

@[simp] theorem wf_createIndex {ix : Nat} (h : wf s) : wf (createIndex s ix) := by simp [createIndex, h]
@[simp] theorem wf_acceptMerge (s : State) (ix : Nat) : wf (acceptMerge s ix) = wf s := by simp [acceptMerge]
@[simp] theorem wf_endChecks {ix : Nat} (h : wf s) : wf (endChecks s ix) := by simp [endChecks, h]
@[simp] theorem keeps_execIndexCheckDone (ix : Fin 64) (h : wf s) : Keeps (execIndexCheckDone ix s) := by simp [execIndexCheckDone, h]

/-! Switch, retire, destroy. -/

@[simp] theorem keeps_execSwitched (ix : Fin 64) (h : wf s) : Keeps (execSwitched ix s) := by simp [execSwitched, h]

@[simp] theorem wf_retireIndex {ix : Nat} {x : Index} {g : IndexGen} (h : wf s) : wf (retireIndex s ix x g) := by
  unfold retireIndex
  extract_lets low gone u v
  have hu : wf u := wf_foldl_of (fun t q ht => by simp [ht]) h
  simp [v, hu]

@[simp] theorem keeps_execRetired (ix : Fin 64) (h : wf s) : Keeps (execRetired ix s) := by
  simp only [execRetired]
  split <;> simp [h]

@[simp] theorem wf_freeIndex (s : State) (ix : Nat) : wf (freeIndex s ix) = wf s := by simp [freeIndex]
@[simp] theorem keeps_execDestroyed (ix : Fin 64) (h : wf s) : Keeps (execDestroyed ix s) := by simp [execDestroyed, h]

end Sys2Proof.Machine.Memory
end
section
/-! SUPPORT. Keeping the canonical form of memory (log 2): sketch engines (13 R341 to R344, R353 to R367). -/

namespace Sys2Proof.Machine.Memory

variable {s t : State}

/-! Completion (R354). -/

@[simp] theorem wf_completeSketch {cl a code cause count : Nat} {short : Bool} (h : wf s) :
    wf (completeSketch s cl a code cause count short) := by simp [completeSketch, h]

@[simp] theorem wf_refuseSketch {cl a code cause ix : Nat} (h : wf s) :
    wf (refuseSketch s cl a code cause ix) := by simp [refuseSketch, h]

@[simp] theorem wf_endShares (s : State) (cl : Nat) : wf (endShares s cl) = wf s := by simp [endShares]
@[simp] theorem wf_dataError {cl a ix count : Nat} {at_ : Nat} (h : wf s) : wf (dataError s cl a ix count at_) := by simp [dataError, h]

/-! Taking a descriptor (R354, R357). -/

@[simp] theorem wf_overrun (s : State) (cl : Nat) : wf (overrun s cl) = wf s := by simp [overrun]

@[simp] theorem wf_beginWork (s : State) (cl a : Nat) (d : List Byte) (phase pos : Nat) :
    wf (beginWork s cl a d phase pos) = wf s := by simp [beginWork]

@[simp] theorem wf_reserveSide {cl a : Nat} {d : List Byte} {x : Index} {h : List Byte} (hs : wf s) :
    wf (reserveSide s cl a d x h) := by simp [reserveSide, hs]

@[simp] theorem wf_takeSketch {cl : Nat} (h : wf s) : wf (takeSketch s cl) := by
  simp only [takeSketch]
  refine wf_ite_of (by simp [h]) (wf_ite_of (by simp [h]) (wf_ite_of (by simp [h]) ?_))
  split <;> simp [h]

@[simp] theorem keeps_takeEvent (cl : Nat) (p : Nat → Bool) (h : wf s) : Keeps (takeEvent cl p s) := by simp [takeEvent, h]
@[simp] theorem keeps_execSearch (cl : Fin 64) (h : wf s) : Keeps (execSearch cl s) := by simp [execSearch, h]
@[simp] theorem keeps_execInsert (cl : Fin 64) (h : wf s) : Keeps (execInsert cl s) := by simp [execInsert, h]
@[simp] theorem keeps_execSketchDelete (cl : Fin 64) (h : wf s) : Keeps (execSketchDelete cl s) := by simp [execSketchDelete, h]

/-! Inserts and deletes complete (R359). -/

@[simp] theorem wf_endSideEntry {cl : Nat} {w : EngineWork} {x : Index} {g : IndexGen} (h : wf s) : wf (endSideEntry s cl w x g) := by
  unfold endSideEntry
  extract_lets d hd q a n slot t u ins sk full p v w x y
  have hu : wf u := (wf_countHbm ..).trans h
  have hv : wf v := wf_ite_of (wf_memWrite hu) hu
  have hw : wf w := wf_ite_of (wf_memWrite hv) hv
  have hx : wf x := wf_memWrite hw
  have hy : wf y := wf_ite_of (wf_memWrite hx) hx
  exact wf_ite_of (wf_dataError (wf_memWrite h)) (wf_completeSketch hy)

@[simp] theorem keeps_execSideEntryValid (cl : Fin 64) (h : wf s) : Keeps (execSideEntryValid cl s) := by
  unfold execSideEntryValid
  split <;> simp [h]
  split <;> simp [h]

/-! Snapshots (R358, R360). -/

@[simp] theorem wf_countReads (s : State) (l : List (Nat × Nat)) : wf (countReads s l) = wf s := by simp [countReads]

@[simp] theorem wf_takeSnapshot {cl : Nat} {w : EngineWork} {x : Index} (h : wf s) : wf (takeSnapshot s cl w x) := by
  simp only [takeSnapshot]
  split
  · simp [h]
  · split <;> simp [h]

@[simp] theorem keeps_execSnapshot (cl : Fin 64) (h : wf s) : Keeps (execSnapshot cl s) := by
  unfold execSnapshot
  split <;> simp [h]

/-! The search (R341, R361 to R366). -/

@[simp] theorem keeps_execShareRequest (leader helper : Fin 64) (h : wf s) : Keeps (execShareRequest leader helper s) := by
  unfold execShareRequest
  split <;> simp [h]

@[simp] theorem wf_endSearch {leader : Nat} {w : EngineWork} (h : wf s) : wf (endSearch s leader w) := by
  simp only [endSearch]
  split <;> simp [h]

@[simp] theorem wf_takeShare {leader me : Nat} {w : EngineWork} (h : wf s) : wf (takeShare s leader me w) := by
  simp only [takeShare]
  split <;> simp [h]

@[simp] theorem keeps_execShareResult (leader helper : Fin 64) (h : wf s) : Keeps (execShareResult leader helper s) := by
  unfold execShareResult
  split <;> simp [h]

/-! The owner is torn down (R367); a rebinding waits for the engine (R367). -/

@[simp] theorem wf_cancelOn {ix : Nat} (h : wf s) : wf (cancelOn s ix) := by
  refine wf_foldl_of (fun t e ht => ?_) h
  split <;> simp [ht]

@[simp] theorem wf_destroyOwned {b : Nat} (h : wf s) : wf (destroyOwned s b) := wf_foldl_of (fun t x ht => by simp [ht]) h
@[simp] theorem wf_writeSqCfg (cl : Nat) (func : Nat) (s : State) (v : W32) : wf (writeSqCfg cl func s v) = wf s := by simp [writeSqCfg]

end Sys2Proof.Machine.Memory
end
section
/-! SUPPORT. Keeping the canonical form of memory (log 2): core, cluster and partition resets (15 R410 to R413, R416). -/

namespace Sys2Proof.Machine.Memory

variable {s t : State}

/-! Traffic at the boundary (R411). -/

@[simp] theorem wf_loseSources (s : State) (p : Held → Bool) : wf (loseSources s p) = wf s := by simp [loseSources]
@[simp] theorem wf_absorbAt (s : State) (p : Nat → Bool) : wf (absorbAt s p) = wf s := by simp [absorbAt]

/-! The levels (R412). -/

@[simp] theorem wf_resetCore (s : State) (id : CoreId) : wf (resetCore s id) = wf s := by simp [resetCore]

@[simp] theorem wf_resetCluster (s : State) (cl : Nat) : wf (resetCluster s cl) = wf s := by
  simp only [resetCluster]
  split
  · simp
  · split <;> simp

@[simp] theorem wf_resetPartition (s : State) (n : Nat) : wf (resetPartition s n) = wf s := by simp [resetPartition]
@[simp] theorem wf_beginReset (s : State) (u : ResetUnit) : wf (beginReset s u) = wf s := by simp [beginReset]

@[simp] theorem wf_endReset (s : State) (u : ResetUnit) : wf (endReset s u) = wf s := by
  unfold endReset
  split <;> simp

@[simp] theorem keeps_execResetDone (unit : ResetUnit) (h : wf s) : Keeps (execResetDone unit s) := by simp [execResetDone, h]

/-! Commands (R397, R410, R413). -/

@[simp] theorem wf_writeResetCmd (cl func : Nat) (s : State) (v : W32) : wf (writeResetCmd cl func s v) = wf s := by
  unfold writeResetCmd
  split <;> simp
  split <;> simp

@[simp] theorem keeps_execCoreReset (cl : Fin 64) (a : Access) (h : wf s) : Keeps (execCoreReset cl a s) := by simp [execCoreReset, h]

@[simp] theorem keeps_execClusterReset (cl : Fin 64) (a : Access) (h : wf s) :
    Keeps (execClusterReset cl a s) := by simp [execClusterReset, h]

@[simp] theorem wf_writePreset (die : Fin 8) (func : Nat) (s : State) (v : W32) :
    wf (writePreset die func s v) = wf s := by simp [writePreset]

@[simp] theorem keeps_execPreset (die : Fin 8) (a : Access) (h : wf s) : Keeps (execPreset die a s) := by simp [execPreset, h]

end Sys2Proof.Machine.Memory
end
section
/-! SUPPORT. Keeping the canonical form of memory (log 2): berths (14 R373 to R380). -/

namespace Sys2Proof.Machine.Memory

variable {s t : State}

/-! Registers. -/

@[simp] theorem wf_updBerth (s : State) (b : Nat) (f : BerthRun → BerthRun) : wf (updBerth s b f) = wf s := by simp [updBerth]

/-! FORCE (R376). -/

@[simp] theorem wf_forceJob {b : Nat} {v : W32} (h : wf s) : wf (forceJob s b v) := by
  refine wf_foldl_of (fun t cl ht => ?_) (wf_foldl_of (fun t g ht => ?_) (wf_foldl_of (fun t f ht => ?_) h))
  · split <;> simp [ht]
  · exact wf_ite_of (wf_timeOut ht) ht
  · exact wf_ite_of (wf_startAbort ht) ht

/-! Commands (R375). -/

@[simp] theorem wf_refuseBerth (s : State) (b cause : Nat) : wf (refuseBerth s b cause) = wf s := by simp [refuseBerth]
@[simp] theorem wf_openBerth (s : State) (b : Nat) : wf (openBerth s b) = wf s := by simp [openBerth]
@[simp] theorem wf_writeBcmd {b : Nat} {v : W32} (h : wf s) : wf (writeBcmd b s v) := by simp [writeBcmd, h]
@[simp] theorem keeps_execBerthOpen (b : Fin 16) (a : Access) (h : wf s) : Keeps (execBerthOpen b a s) := by simp [execBerthOpen, h]
@[simp] theorem keeps_execBind (b : Fin 16) (a : Access) (h : wf s) : Keeps (execBind b a s) := by simp [execBind, h]
@[simp] theorem keeps_execUnbind (b : Fin 16) (a : Access) (h : wf s) : Keeps (execUnbind b a s) := by simp [execUnbind, h]
@[simp] theorem keeps_execTeardown (b : Fin 16) (a : Access) (h : wf s) : Keeps (execTeardown b a s) := by simp [execTeardown, h]

/-! The steps begin (R377 steps 1 and 2). -/

@[simp] theorem wf_beginRebind (s : State) (b : Nat) (v : W32) : wf (beginRebind s b v) = wf s := by
  refine (wf_foldl _ (fun _ _ => ?_)).trans (by simp)
  split <;> simp

@[simp] theorem keeps_execRebindStart (b : Fin 16) (h : wf s) : Keeps (execRebindStart b s) := by
  unfold execRebindStart
  split <;> simp [h]

/-! The steps end (R377 steps 2 to 6, R378, R379). -/

@[simp] theorem wf_clearLocks (s : State) (pages : List Nat) : wf (clearLocks s pages) = wf s := by simp [clearLocks]
@[simp] theorem wf_leaveCluster {b cl : Nat} (h : wf s) : wf (leaveCluster s b cl) := by simp [leaveCluster, h]
@[simp] theorem wf_loseRegion {b n : Nat} (h : wf s) : wf (loseRegion s b n) := by simp [loseRegion, wf_blurRange, h]
@[simp] theorem wf_leaveRegion {b n : Nat} (h : wf s) : wf (leaveRegion s b n) := by simp [leaveRegion, h]

@[simp] theorem wf_leaveObject {o : Nat} (h : wf s) : wf (leaveObject s o) := by
  unfold leaveObject
  extract_lets u e v w x
  have hu : wf u := by
    unfold u
    split <;> simp [h]
  have hv : wf v := wf_foldl_of (fun t r ht => by simp [ht]) hu
  have hw : wf w := (wf_releaseHome v e).trans hv
  have hx : wf x := by
    unfold x
    split
    · exact wf_ite_of (wf_blurRange _ _ _ hw) hw
    · exact hw
  exact (wf_setObj ..).trans hx

@[simp] theorem wf_leaveGroup {g : Nat} (h : wf s) : wf (leaveGroup s g) := by simp [leaveGroup, h]

@[simp] theorem wf_tearDown {b : Nat} (h : wf s) : wf (tearDown s b) := by
  unfold tearDown
  extract_lets pages s1 s2 s3 s4 s5 s6 s7 s8 s9
  have h1 : wf s1 := (wf_clearLocks ..).trans h
  have h2 : wf s2 := wf_foldl_of (fun t o ht => wf_leaveObject ht) h1
  have h3 : wf s3 := wf_destroyOwned h2
  have h4 : wf s4 := wf_foldl_of (fun t g ht => wf_leaveGroup ht) h3
  have h5 : wf s5 := wf_foldl_of (fun t _ ht => wf_leaveCluster ht) h4
  have h6 : wf s6 := wf_foldl_of (fun t n ht => wf_leaveRegion ht) h5
  simp [s9, s8, s7, h6]

@[simp] theorem wf_bindResource {b : Nat} {v : W32} (h : wf s) : wf (bindResource s b v) := by simp [bindResource, wf_blurRange, h]

@[simp] theorem wf_endRebind {b : Nat} {v : W32} {us : Nat} (h : wf s) : wf (endRebind s b v us) := by
  unfold endRebind
  split <;> simp [h]

@[simp] theorem keeps_execRebindDone (b : Fin 16) (us : BitVec 12) (h : wf s) : Keeps (execRebindDone b us s) := by
  unfold execRebindDone
  split <;> simp [h]

/-! Writes of the page's other registers. -/

@[simp] theorem wf_writeBcfg (b func : Nat) (s : State) (v : W32) : wf (writeBcfg b func s v) = wf s := by simp [writeBcfg]
@[simp] theorem wf_writeRegion (b n o func : Nat) (s : State) (v : W32) : wf (writeRegion b n o func s v) = wf s := by simp [writeRegion]
@[simp] theorem wf_writeRbase (b n func : Nat) (s : State) (v : W64) : wf (writeRbase b n func s v) = wf s := by simp [writeRbase]

end Sys2Proof.Machine.Memory
end
section
/-! SUPPORT. Keeping the canonical form of memory (log 2): the matrix array, the accumulator port and problem lists (03 R101 to R104; 05
R134 to R136; 06 R171 to R173; 08 R217 to R226). -/

namespace Sys2Proof.Machine.Memory

variable {s t : State}

/-! The array. -/

@[simp] theorem keeps_mmaExec (mn : String) (zero : Bool) (id : CoreId) (f : MmaF) (h : wf s) :
    Keeps (mmaExec mn zero id f s) := by simp [mmaExec, h]

@[simp] theorem keeps_execMma (core : CoreId) (f : MmaF) (h : wf s) : Keeps (execMma core f s) := by simp [execMma, h]
@[simp] theorem keeps_execMmaZ (core : CoreId) (f : MmaF) (h : wf s) : Keeps (execMmaZ core f s) := by simp [execMmaZ, h]

/-! The accumulator port. -/

@[simp] theorem keeps_execAread (core : CoreId) (f : RegF) (h : wf s) : Keeps (execAread core f s) := by simp [execAread, h]
@[simp] theorem keeps_execAwrite (core : CoreId) (f : RegF) (h : wf s) : Keeps (execAwrite core f s) := by simp [execAwrite, h]
@[simp] theorem keeps_execAzero (core : CoreId) (f : RegF) (h : wf s) : Keeps (execAzero core f s) := by simp [execAzero, h]

/-! Problem lists. -/

@[simp] theorem keeps_execPlist (core : CoreId) (f : RegF) (h : wf s) : Keeps (execPlist core f s) := by simp [execPlist, h]

@[simp] theorem wf_loadOperand (id : CoreId) (addr pitch : Nat) (o : Operand) (s : State) :
    wf (loadOperand id addr pitch o s) = wf s := by simp [loadOperand]

@[simp] theorem wf_storeTile {id : CoreId} {e : PEntry} (h : wf s) : wf (storeTile id e s) := wf_foldl_of (fun t r ht => by simp [ht]) h
@[simp] theorem wf_runEntry {id : CoreId} {e : PEntry} (h : wf s) : wf (runEntry id e s) := by simp [runEntry, h]
@[simp] theorem wf_nextEntry (id : CoreId) (p : PlistRun) (s : State) : wf (nextEntry id p s) = wf s := by simp [nextEntry]

@[simp] theorem keeps_plistEntry (id : CoreId) (p : PlistRun) (h : wf s) : Keeps (plistEntry id p s) := by
  simp only [plistEntry]
  split
  · simp [h]
  split
  · simp [h]
  split
  · simp [h]
  split
  · simp [h]
  split
  · simp [h]
  split
  · simp [h]
  split
  · simp [h]
  split
  · simp [h]
  split <;> simp [h]

@[simp] theorem keeps_execPlistEntry (core : CoreId) (h : wf s) : Keeps (execPlistEntry core s) := by
  unfold execPlistEntry
  split <;> simp
  split <;> simp [h]

end Sys2Proof.Machine.Memory
end
section
/-! SUPPORT. Keeping the canonical form of memory (log 2): row statistics and the soft maximum (07 R200 to R210, R489; 06 R176). -/

namespace Sys2Proof.Machine.Memory

variable {s t : State}

/-! Packed sB (06 R176). -/

@[simp] theorem keeps_rowExec (mn : String) (id : CoreId) (legal : Bool) (fault : State → Core → Option FaultRec) (touch : Core → Touch)
    (effect : State → Core → Core → Core × Nat) (h : wf s) : Keeps (rowExec mn id legal fault touch effect s) := by
  simp [rowExec, h]

/-! RSW and RSC. -/

@[simp] theorem keeps_execRsw (core : CoreId) (f : RegF) (h : wf s) : Keeps (execRsw core f s) := by simp [execRsw, h]
@[simp] theorem keeps_execRsc (core : CoreId) (f : RegF) (h : wf s) : Keeps (execRsc core f s) := by simp [execRsc, h]

/-! RSRD and RSCLR (R201, R206). -/

@[simp] theorem keeps_execRsrd (core : CoreId) (f : RegF) (h : wf s) : Keeps (execRsrd core f s) := by simp [execRsrd, h]
@[simp] theorem keeps_execRsclr (core : CoreId) (f : RegF) (h : wf s) : Keeps (execRsclr core f s) := by simp [execRsclr, h]

/-! The soft maximum (R207 to R209). -/

@[simp] theorem keeps_execSmx (core : CoreId) (f : RegF) (h : wf s) : Keeps (execSmx core f s) := by simp [execSmx, h]
@[simp] theorem keeps_execSmxf (core : CoreId) (f : RegF) (h : wf s) : Keeps (execSmxf core f s) := by simp [execSmxf, h]

end Sys2Proof.Machine.Memory
end
section
/-! SUPPORT. Keeping the canonical form of memory (log 2): scalar instructions. -/

namespace Sys2Proof.Machine.Memory

variable {s t : State}

/-! Forms. -/

@[simp] theorem keeps_scalarReg (mn : String) (op : W64 → W64 → W64) (id : CoreId) (f : RegF) (h : wf s) :
    Keeps (scalarReg mn op id f s) := by simp [scalarReg, h]

@[simp] theorem keeps_scalarImm (mn : String) (op : W64 → W64 → W64) (id : CoreId) (f : ImmF) (h : wf s) :
    Keeps (scalarImm mn op id f s) := by simp [scalarImm, h]

@[simp] theorem keeps_shiftImm (mn : String) (op : W64 → W64 → W64) (id : CoreId) (f : ImmF) (h : wf s) :
    Keeps (shiftImm mn op id f s) := by simp [shiftImm, h]

@[simp] theorem keeps_execAdd (core : CoreId) (f : RegF) (h : wf s) : Keeps (execAdd core f s) := by simp [execAdd, h]
@[simp] theorem keeps_execSub (core : CoreId) (f : RegF) (h : wf s) : Keeps (execSub core f s) := by simp [execSub, h]
@[simp] theorem keeps_execAnd (core : CoreId) (f : RegF) (h : wf s) : Keeps (execAnd core f s) := by simp [execAnd, h]
@[simp] theorem keeps_execOr (core : CoreId) (f : RegF) (h : wf s) : Keeps (execOr core f s) := by simp [execOr, h]
@[simp] theorem keeps_execXor (core : CoreId) (f : RegF) (h : wf s) : Keeps (execXor core f s) := by simp [execXor, h]
@[simp] theorem keeps_execShl (core : CoreId) (f : RegF) (h : wf s) : Keeps (execShl core f s) := by simp [execShl, h]
@[simp] theorem keeps_execShr (core : CoreId) (f : RegF) (h : wf s) : Keeps (execShr core f s) := by simp [execShr, h]
@[simp] theorem keeps_execSra (core : CoreId) (f : RegF) (h : wf s) : Keeps (execSra core f s) := by simp [execSra, h]
@[simp] theorem keeps_execSlt (core : CoreId) (f : RegF) (h : wf s) : Keeps (execSlt core f s) := by simp [execSlt, h]
@[simp] theorem keeps_execSltu (core : CoreId) (f : RegF) (h : wf s) : Keeps (execSltu core f s) := by simp [execSltu, h]
@[simp] theorem keeps_execMin (core : CoreId) (f : RegF) (h : wf s) : Keeps (execMin core f s) := by simp [execMin, h]
@[simp] theorem keeps_execMinu (core : CoreId) (f : RegF) (h : wf s) : Keeps (execMinu core f s) := by simp [execMinu, h]
@[simp] theorem keeps_execMax (core : CoreId) (f : RegF) (h : wf s) : Keeps (execMax core f s) := by simp [execMax, h]
@[simp] theorem keeps_execMaxu (core : CoreId) (f : RegF) (h : wf s) : Keeps (execMaxu core f s) := by simp [execMaxu, h]
@[simp] theorem keeps_execMul (core : CoreId) (f : RegF) (h : wf s) : Keeps (execMul core f s) := by simp [execMul, h]
@[simp] theorem keeps_execMulh (core : CoreId) (f : RegF) (h : wf s) : Keeps (execMulh core f s) := by simp [execMulh, h]
@[simp] theorem keeps_execMulhu (core : CoreId) (f : RegF) (h : wf s) : Keeps (execMulhu core f s) := by simp [execMulhu, h]
@[simp] theorem keeps_execDiv (core : CoreId) (f : RegF) (h : wf s) : Keeps (execDiv core f s) := by simp [execDiv, h]
@[simp] theorem keeps_execDivu (core : CoreId) (f : RegF) (h : wf s) : Keeps (execDivu core f s) := by simp [execDivu, h]
@[simp] theorem keeps_execRem (core : CoreId) (f : RegF) (h : wf s) : Keeps (execRem core f s) := by simp [execRem, h]
@[simp] theorem keeps_execRemu (core : CoreId) (f : RegF) (h : wf s) : Keeps (execRemu core f s) := by simp [execRemu, h]
@[simp] theorem keeps_execAddi (core : CoreId) (f : ImmF) (h : wf s) : Keeps (execAddi core f s) := by simp [execAddi, h]
@[simp] theorem keeps_execSubi (core : CoreId) (f : ImmF) (h : wf s) : Keeps (execSubi core f s) := by simp [execSubi, h]
@[simp] theorem keeps_execAndi (core : CoreId) (f : ImmF) (h : wf s) : Keeps (execAndi core f s) := by simp [execAndi, h]
@[simp] theorem keeps_execOri (core : CoreId) (f : ImmF) (h : wf s) : Keeps (execOri core f s) := by simp [execOri, h]
@[simp] theorem keeps_execXori (core : CoreId) (f : ImmF) (h : wf s) : Keeps (execXori core f s) := by simp [execXori, h]
@[simp] theorem keeps_execShli (core : CoreId) (f : ImmF) (h : wf s) : Keeps (execShli core f s) := by simp [execShli, h]
@[simp] theorem keeps_execShri (core : CoreId) (f : ImmF) (h : wf s) : Keeps (execShri core f s) := by simp [execShri, h]
@[simp] theorem keeps_execSrai (core : CoreId) (f : ImmF) (h : wf s) : Keeps (execSrai core f s) := by simp [execSrai, h]
@[simp] theorem keeps_execSlti (core : CoreId) (f : ImmF) (h : wf s) : Keeps (execSlti core f s) := by simp [execSlti, h]
@[simp] theorem keeps_execSltui (core : CoreId) (f : ImmF) (h : wf s) : Keeps (execSltui core f s) := by simp [execSltui, h]
@[simp] theorem keeps_execMini (core : CoreId) (f : ImmF) (h : wf s) : Keeps (execMini core f s) := by simp [execMini, h]
@[simp] theorem keeps_execMinui (core : CoreId) (f : ImmF) (h : wf s) : Keeps (execMinui core f s) := by simp [execMinui, h]
@[simp] theorem keeps_execMaxi (core : CoreId) (f : ImmF) (h : wf s) : Keeps (execMaxi core f s) := by simp [execMaxi, h]
@[simp] theorem keeps_execMaxui (core : CoreId) (f : ImmF) (h : wf s) : Keeps (execMaxui core f s) := by simp [execMaxui, h]
@[simp] theorem keeps_execSethi (core : CoreId) (f : ImmF) (h : wf s) : Keeps (execSethi core f s) := by simp [execSethi, h]

/-! Loads and stores. -/

@[simp] theorem keeps_scalarLoad (mn : String) (n : Nat) (signed : Bool) (id : CoreId) (f : ImmF) (h : wf s) :
    Keeps (scalarLoad mn n signed id f s) := by simp [scalarLoad, h]

@[simp] theorem keeps_execLd8 (core : CoreId) (f : ImmF) (h : wf s) : Keeps (execLd8 core f s) := by simp [execLd8, h]
@[simp] theorem keeps_execLd8u (core : CoreId) (f : ImmF) (h : wf s) : Keeps (execLd8u core f s) := by simp [execLd8u, h]
@[simp] theorem keeps_execLd16 (core : CoreId) (f : ImmF) (h : wf s) : Keeps (execLd16 core f s) := by simp [execLd16, h]
@[simp] theorem keeps_execLd16u (core : CoreId) (f : ImmF) (h : wf s) : Keeps (execLd16u core f s) := by simp [execLd16u, h]
@[simp] theorem keeps_execLd32 (core : CoreId) (f : ImmF) (h : wf s) : Keeps (execLd32 core f s) := by simp [execLd32, h]
@[simp] theorem keeps_execLd32u (core : CoreId) (f : ImmF) (h : wf s) : Keeps (execLd32u core f s) := by simp [execLd32u, h]
@[simp] theorem keeps_execLd64 (core : CoreId) (f : ImmF) (h : wf s) : Keeps (execLd64 core f s) := by simp [execLd64, h]

@[simp] theorem keeps_scalarStore (mn : String) (n : Nat) (id : CoreId) (f : ImmF) (h : wf s) :
    Keeps (scalarStore mn n id f s) := keeps_issue h (fun _ _ ht => wf_coreStore ht)

@[simp] theorem keeps_execSt8 (core : CoreId) (f : ImmF) (h : wf s) : Keeps (execSt8 core f s) := by simp [execSt8, h]
@[simp] theorem keeps_execSt16 (core : CoreId) (f : ImmF) (h : wf s) : Keeps (execSt16 core f s) := by simp [execSt16, h]
@[simp] theorem keeps_execSt32 (core : CoreId) (f : ImmF) (h : wf s) : Keeps (execSt32 core f s) := by simp [execSt32, h]
@[simp] theorem keeps_execSt64 (core : CoreId) (f : ImmF) (h : wf s) : Keeps (execSt64 core f s) := by simp [execSt64, h]

/-! Branches and jumps (06 R165). -/

@[simp] theorem keeps_branch (mn : String) (cond : W64 → W64 → Bool) (id : CoreId) (f : ImmF) (h : wf s) :
    Keeps (branch mn cond id f s) := by simp [branch, h]

@[simp] theorem keeps_execBeq (core : CoreId) (f : ImmF) (h : wf s) : Keeps (execBeq core f s) := by simp [execBeq, h]
@[simp] theorem keeps_execBne (core : CoreId) (f : ImmF) (h : wf s) : Keeps (execBne core f s) := by simp [execBne, h]
@[simp] theorem keeps_execBlt (core : CoreId) (f : ImmF) (h : wf s) : Keeps (execBlt core f s) := by simp [execBlt, h]
@[simp] theorem keeps_execBge (core : CoreId) (f : ImmF) (h : wf s) : Keeps (execBge core f s) := by simp [execBge, h]
@[simp] theorem keeps_execBltu (core : CoreId) (f : ImmF) (h : wf s) : Keeps (execBltu core f s) := by simp [execBltu, h]
@[simp] theorem keeps_execBgeu (core : CoreId) (f : ImmF) (h : wf s) : Keeps (execBgeu core f s) := by simp [execBgeu, h]
@[simp] theorem keeps_execJal (core : CoreId) (f : ImmF) (h : wf s) : Keeps (execJal core f s) := by simp [execJal, h]
@[simp] theorem keeps_execJalr (core : CoreId) (f : ImmF) (h : wf s) : Keeps (execJalr core f s) := by simp [execJalr, h]

end Sys2Proof.Machine.Memory
end
section
/-! SUPPORT. Keeping the canonical form of memory (log 2): vector loads and stores, in scratchpad and in operand slots, plain and block-
scaled (06 R167 to R170; 05 R123). -/

namespace Sys2Proof.Machine.Memory

variable {s t : State}

/-! Loads. -/

@[simp] theorem wf_vldBytes (f : VmemF) (c : Core) (t : State) : wf (vldBytes f c t).2.2 = wf t := by
  unfold vldBytes
  split <;> simp
  split <;> simp

@[simp] theorem wf_vldEffect (f : VmemF) (id : CoreId) (c : Core) (t : State) : wf (vldEffect f id c t) = wf t := by
  unfold vldEffect
  split <;> simp

@[simp] theorem keeps_execVld (core : CoreId) (f : VmemF) (h : wf s) : Keeps (execVld core f s) := by simp [execVld, h]

/-! Stores. -/

@[simp] theorem wf_vstMem {f : VmemF} {c : Core} (h : wf t) : wf (vstMem f c t) := by
  refine wf_foldl_of (fun t x ht => wf_ite_of (wf_coreStore ht) ht) (wf_ite_of (wf_coreStore h) ?_)
  exact wf_foldl_of (fun t x ht => wf_ite_of (wf_coreStore ht) ht) h

@[simp] theorem keeps_execVst (core : CoreId) (f : VmemF) (h : wf s) : Keeps (execVst core f s) := by
  refine keeps_issue h (fun c t ht => wf_ite_of ht (wf_ite_of ?_ (wf_vstMem ?_)))
  · simp [ht]
  · simp [ht]

end Sys2Proof.Machine.Memory
end
section
/-! SUPPORT. Keeping the canonical form of memory (log 2): one instruction of a core from its word in memory, as STEP issues it (19 R479).
-/

namespace Sys2Proof.Machine.Memory

variable {s t : State}

@[simp] theorem keeps_runCoreInstr (i : Instr) (h : wf s) : Keeps (runCoreInstr i s) := by
  unfold runCoreInstr
  split <;> simp [h]

@[simp] theorem keeps_runCoreWord (id : CoreId) (w : W64) (h : wf s) : Keeps (runCoreWord id w s) := by
  unfold runCoreWord
  split
  · exact keeps_runCoreInstr _ h
  · exact keeps_issue h (fun _ _ ht => ht)

end Sys2Proof.Machine.Memory
end
section
/-! SUPPORT. Keeping the canonical form of memory (log 2): field access (19 R475 to R479, R482). -/

namespace Sys2Proof.Machine.Memory

variable {s t : State}

/-! The challenge (R476). -/

@[simp] theorem wf_putWords (page : Nat) (off : Nat) (l : List W32) (s : State) : wf (putWords page off l s) = wf s := by
  induction l generalizing s off with
  | nil => rfl
  | cons w l ih => exact (ih _ _).trans (wf_wr ..)

@[simp] theorem wf_refuseDebug (s : State) (cause : Nat) : wf (refuseDebug s cause) = wf s := by simp [refuseDebug]
@[simp] theorem wf_makeChallenge (s : State) : wf (makeChallenge s) = wf s := by simp [makeChallenge]

/-! The response (R477). -/

@[simp] theorem wf_beginRespond (s : State) : wf (beginRespond s) = wf s := by simp [beginRespond]
@[simp] theorem wf_endRespond (s : State) : wf (endRespond s) = wf s := by simp [endRespond]
@[simp] theorem keeps_execOpened (h : wf s) : Keeps (execOpened s) := by simp [execOpened, h]

@[simp] theorem wf_writeDebugCmd (s : State) (v : W32) : wf (writeDebugCmd s v) = wf s := by
  unfold writeDebugCmd
  split <;> simp

@[simp] theorem keeps_execChallenge (a : Access) (h : wf s) : Keeps (execChallenge a s) := by simp [execChallenge, h]
@[simp] theorem keeps_execRespond (a : Access) (h : wf s) : Keeps (execRespond a s) := by simp [execRespond, h]
@[simp] theorem keeps_execClose (a : Access) (h : wf s) : Keeps (execClose a s) := by simp [execClose, h]
@[simp] theorem keeps_execDebugExpiry (h : wf s) : Keeps (execDebugExpiry s) := by simp [execDebugExpiry, h]

/-! Observation (R479). -/

@[simp] theorem wf_writeObsSel (s : State) (v : W32) : wf (writeObsSel s v) = wf s := by simp [writeObsSel]

/-! STEP (R479). -/

@[simp] theorem wf_fetchCore (s : State) (id : CoreId) : wf (fetchCore s id) = wf s := by
  unfold fetchCore
  split <;> simp

@[simp] theorem keeps_stepCore (id : CoreId) (h : wf s) : Keeps (stepCore id s) := by
  unfold stepCore
  extract_lets u
  have hu : Keeps (runCoreWord id (fetchedWord (u.core id)) u) := keeps_runCoreWord _ _ (by simp [u, h])
  revert hu
  cases runCoreWord id (fetchedWord (u.core id)) u with
  | next t =>
    intro (ht : wf t)
    simp [ht]
  | fault x => simp
  | refused x => simp

@[simp] theorem keeps_writeObs (func : Nat) (h : wf s) : Keeps (writeObs func s) := by simp [writeObs, h]

@[simp] theorem keeps_execObsStep (a : Access) (h : wf s) : Keeps (execObsStep a s) := by
  simp [execObsStep, h]
  split <;> simp [h]

end Sys2Proof.Machine.Memory
end
section
/-! SUPPORT. Keeping the canonical form of memory (log 2): the logbook (19 R467 to R474, R481). -/

namespace Sys2Proof.Machine.Memory

variable {s t : State}

/-! Events of the LOG page (R481). -/

@[simp] theorem wf_threshEdge (was : Bool) (s : State) : wf (threshEdge was s) = wf s := by simp [threshEdge]

/-! The write port (R469 to R471). -/

@[simp] theorem wf_storeEntry (s : State) (e : LogEntry) : wf (storeEntry s e) = wf s := by simp [storeEntry]

@[simp] theorem wf_storeNext (s : State) : wf (storeNext s) = wf s := by
  unfold storeNext
  split <;> simp

@[simp] theorem keeps_execLogStore (h : wf s) : Keeps (execLogStore s) := by simp [execLogStore, h]

/-! Draining (R472, R473). -/

@[simp] theorem wf_releaseTo (func : Nat) (s : State) (q : W32) : wf (releaseTo func s q) = wf s := by simp [releaseTo]
@[simp] theorem keeps_execRelease (a : Access) (h : wf s) : Keeps (execRelease a s) := by simp [execRelease, h]
@[simp] theorem wf_writeThresh (s : State) (v : W32) : wf (writeThresh s v) = wf s := by simp [writeThresh]
@[simp] theorem keeps_execThresh (a : Access) (h : wf s) : Keeps (execThresh a s) := by simp [execThresh, h]
@[simp] theorem wf_writeDmaCmd (func : Nat) (s : State) (v : W32) : wf (writeDmaCmd func s v) = wf s := by simp [writeDmaCmd]
@[simp] theorem keeps_execDmaStart (a : Access) (h : wf s) : Keeps (execDmaStart a s) := by simp [execDmaStart, h]
@[simp] theorem wf_endDma (s : State) (d : W32 × Nat × Bool) : wf (endDma s d) = wf s := by simp [endDma]

@[simp] theorem keeps_execDmaDone (h : wf s) : Keeps (execDmaDone s) := by
  unfold execDmaDone
  split <;> simp [h]

end Sys2Proof.Machine.Memory
end
section
/-! SUPPORT. Keeping the canonical form of memory (log 2): power states and heat (16). -/

namespace Sys2Proof.Machine.Memory

variable {s t : State}

/-! States (R417, R418). -/

@[simp] theorem wf_setCommanded (s : State) (n p : Nat) : wf (setCommanded s n p) = wf s := by simp [setCommanded]
@[simp] theorem wf_setCommandedMhz (s : State) (n mhz : Nat) : wf (setCommandedMhz s n mhz) = wf s := by simp [setCommandedMhz]

/-! Transitions (R420). -/

@[simp] theorem wf_powerDone (s : State) : wf (powerDone s) = wf s := by simp [powerDone]

@[simp] theorem wf_beginPower (s : State) (v : W32) : wf (beginPower s v) = wf s := by
  have hq (t : State) (l : List Nat) :
      wf (l.foldl (fun t n => if h : n < 8 then beginReset t (.partition ⟨n, h⟩) else t) t) = wf t :=
    wf_foldl t (fun t n => by split <;> simp)
  simp [beginPower, hq]

@[simp] theorem wf_partOff (s : State) (n : Nat) : wf (partOff s n) = wf s := by
  unfold partOff
  split <;> simp

@[simp] theorem wf_partOn {n : Nat} (h : wf s) : wf (partOn s n) := wf_foldl_of (fun t _ ht => wf_zeroRange t _ _ ht) h

@[simp] theorem wf_endPower {v : W32} (h : wf s) : wf (endPower s v) := by
  unfold endPower
  extract_lets u v states w x y
  have hv : wf v := wf_foldl_of (fun t n ht => wf_partOn ht) (by simp [u, h])
  simp [y, x, w, hv]

@[simp] theorem keeps_execTransitionDone (h : wf s) : Keeps (execTransitionDone s) := by
  unfold execTransitionDone
  split <;> simp [h]

/-! Commands (R419). -/

@[simp] theorem wf_refusePower (s : State) (cause : Nat) : wf (refusePower s cause) = wf s := by simp [refusePower]

@[simp] theorem wf_takePowerSlot (s : State) (v : W32) : wf (takePowerSlot s v) = wf s := by
  unfold takePowerSlot
  extract_lets t
  cases tideCase s t with
  | invalid => simp
  | range => simp
  | reached => simp only; split <;> simp
  | ahead => simp only; split <;> simp

@[simp] theorem wf_writePcmd (s : State) (v : W32) : wf (writePcmd s v) = wf s := by simp [writePcmd]
@[simp] theorem keeps_execModule (a : Access) (h : wf s) : Keeps (execModule a s) := by simp [execModule, h]
@[simp] theorem keeps_execPartition (a : Access) (h : wf s) : Keeps (execPartition a s) := by simp [execPartition, h]
@[simp] theorem keeps_execCeiling (a : Access) (h : wf s) : Keeps (execCeiling a s) := by simp [execCeiling, h]

/-! Scheduled actions (R421). -/

@[simp] theorem wf_actSlot (s : State) (i : Nat) (v : W32) (t : W64) : wf (actSlot s i v t) = wf s := by simp [actSlot]

@[simp] theorem keeps_execScheduledAction (slot : Fin 16) (h : wf s) : Keeps (execScheduledAction slot s) := by
  unfold execScheduledAction
  split <;> simp [h]

@[simp] theorem wf_writeSlotCancel (s : State) (v : W32) : wf (writeSlotCancel s v) = wf s := by simp [writeSlotCancel]
@[simp] theorem keeps_execSlotCancel (a : Access) (h : wf s) : Keeps (execSlotCancel a s) := by simp [execSlotCancel, h]

/-! Readings (R429). -/

@[simp] theorem wf_takeVin (s : State) (mv : Nat) : wf (takeVin s mv) = wf s := by simp [takeVin]
@[simp] theorem wf_takePin (s : State) (watts : Nat) : wf (takePin s watts) = wf s := by simp [takePin]
@[simp] theorem keeps_execInputRange (mv : BitVec 16) (h : wf s) : Keeps (execInputRange mv s) := by simp [execInputRange, h]

@[simp] theorem keeps_execPowerReading (mv watts : BitVec 16) (joules : BitVec 64) (h : wf s) :
    Keeps (execPowerReading mv watts joules s) := by simp [execPowerReading, h]

/-! Heat (R423 to R428). -/

@[simp] theorem wf_setHot (s : State) (k : Nat) (on : Bool) : wf (setHot s k on) = wf s := by simp [setHot]
@[simp] theorem wf_resumeStack (s : State) (k : Nat) : wf (resumeStack s k) = wf s := by simp [resumeStack]
@[simp] theorem wf_stackReading (s : State) (k : Nat) (t : Int) : wf (stackReading s k t) = wf s := by simp [stackReading]
@[simp] theorem wf_stopStack (s : State) (k : Nat) : wf (stopStack s k) = wf s := by simp [stopStack]
@[simp] theorem keeps_execStackStop (k : Fin 32) (h : wf s) : Keeps (execStackStop k s) := by simp [execStackStop, h]
@[simp] theorem wf_trip (s : State) : wf (trip s) = wf s := by simp [trip]
@[simp] theorem wf_junctionReading (s : State) (off : Nat) (t : Int) : wf (junctionReading s off t) = wf s := by simp [junctionReading]

@[simp] theorem wf_heatReading (s : State) (unit : HeatUnit) (t : Int) : wf (heatReading s unit t) = wf s := by
  unfold heatReading
  split <;> simp

@[simp] theorem keeps_execTempReading (unit : HeatUnit) (temp : BitVec 8) (h : wf s) :
    Keeps (execTempReading unit temp s) := by simp [execTempReading, h]

@[simp] theorem keeps_execThermtrip (unit : HeatUnit) (temp : BitVec 8) (h : wf s) :
    Keeps (execThermtrip unit temp s) := by simp [execThermtrip, h]

/-! Registers with limits of their own. -/

@[simp] theorem wf_writeHbmThresh (func : Nat) (s : State) (v : W32) : wf (writeHbmThresh func s v) = wf s := by simp [writeHbmThresh]
@[simp] theorem wf_writePace (s : State) (v : W32) : wf (writePace s v) = wf s := by simp [writePace]
@[simp] theorem wf_writeJwarn (s : State) (v : W32) : wf (writeJwarn s v) = wf s := by simp [writeJwarn]

end Sys2Proof.Machine.Memory
end
section
/-! SUPPORT. Keeping the canonical form of memory (log 2): owner sessions, key messages, SPDM over DOE, and failures of the random bit
generator and of IDE (14 R380 to R392). -/

namespace Sys2Proof.Machine.Memory

variable {s t : State}

/-! Sessions (R384 to R386). -/

@[simp] theorem wf_sessionFail (s : State) (b : Nat) : wf (sessionFail s b) = wf s := by simp [sessionFail]

@[simp] theorem wf_openSession (s : State) (b : Nat) (msg : List Byte) : wf (openSession s b msg) = wf s := by
  unfold openSession
  split <;> simp
  split <;> simp

@[simp] theorem keeps_execOpenSession (b : Fin 16) (msg : List Byte) (h : wf s) :
    Keeps (execOpenSession b msg s) := by simp [execOpenSession, h]

@[simp] theorem keeps_sessionMsg (b : Nat) (msg : List Byte) (km : Bool) {effect : State → State} (h : wf s) (he : wf (effect s)) :
    Keeps (sessionMsg b msg km effect s) := by simp [sessionMsg, h, he]

@[simp] theorem keeps_execLinkExport (b : Fin 16) (msg : List Byte) (h : wf s) :
    Keeps (execLinkExport b msg s) := by simp [execLinkExport, h]

@[simp] theorem wf_importKey (b : Nat) (msg : List Byte) (s : State) : wf (importKey b msg s) = wf s := by
  simp [importKey]
  split <;> simp

@[simp] theorem keeps_execLinkImport (b : Fin 16) (msg : List Byte) (h : wf s) :
    Keeps (execLinkImport b msg s) := by simp [execLinkImport, h]

@[simp] theorem keeps_execIdeKm (b : Fin 16) (msg : List Byte) (h : wf s) : Keeps (execIdeKm b msg s) := by simp [execIdeKm, h]
@[simp] theorem wf_lockPage (b page : Nat) (on : Bool) (s : State) : wf (lockPage b page on s) = wf s := by simp [lockPage]

@[simp] theorem keeps_execKeylock (b : Fin 16) (page : BitVec 14) (set : Bool) (h : wf s) :
    Keeps (execKeylock b page set s) := by simp [execKeylock, h]

/-! Failures. -/

@[simp] theorem keeps_execRngFail (h : wf s) : Keeps (execRngFail s) := by simp [execRngFail, h]

@[simp] theorem keeps_execIdeFail (func : Fin 17) (h : wf s) : Keeps (execIdeFail func s) := by
  unfold execIdeFail
  split <;> simp [h]
  split <;> simp [h]

/-! SPDM 1.3 over DOE (R388, R389). -/

@[simp] theorem wf_setDoe (s : State) (func n : Nat) : wf (setDoe s func n) = wf s := by simp [setDoe]

@[simp] theorem wf_respondSpdm (s : State) (func code : Nat) (body : List Byte) :
    wf (respondSpdm s func code body) = wf s := by simp [respondSpdm]

@[simp] theorem keeps_spdmRequest (func need : Nat) {effect : State → State} (h : wf s) (he : wf (effect s)) :
    Keeps (spdmRequest func need effect s) := by simp [spdmRequest, h, he]

@[simp] theorem keeps_execGetVersion (func : Fin 17) (msg : List Byte) (h : wf s) :
    Keeps (execGetVersion func msg s) := by simp [execGetVersion, h]

@[simp] theorem keeps_execGetCapabilities (func : Fin 17) (msg : List Byte) (h : wf s) :
    Keeps (execGetCapabilities func msg s) := by simp [execGetCapabilities, h]

@[simp] theorem keeps_execNegotiateAlgorithms (func : Fin 17) (msg : List Byte) (h : wf s) :
    Keeps (execNegotiateAlgorithms func msg s) := by simp [execNegotiateAlgorithms, h]

@[simp] theorem wf_withIdentity (func code : Nat) (body : State → List Byte) (s : State) :
    wf (withIdentity func code body s) = wf s := by simp [withIdentity]

@[simp] theorem keeps_execGetDigests (func : Fin 17) (msg : List Byte) (h : wf s) :
    Keeps (execGetDigests func msg s) := by simp [execGetDigests, h]

@[simp] theorem keeps_execGetCertificate (func : Fin 17) (msg : List Byte) (h : wf s) :
    Keeps (execGetCertificate func msg s) := by simp [execGetCertificate, h]

@[simp] theorem keeps_execSpdmChallenge (func : Fin 17) (msg : List Byte) (h : wf s) :
    Keeps (execSpdmChallenge func msg s) := by simp [execSpdmChallenge, h]

@[simp] theorem keeps_execGetMeasurements (func : Fin 17) (msg : List Byte) (h : wf s) :
    Keeps (execGetMeasurements func msg s) := by simp [execGetMeasurements, h]

@[simp] theorem keeps_execChunkSend (func : Fin 17) (msg : List Byte) (h : wf s) :
    Keeps (execChunkSend func msg s) := by simp [execChunkSend, h]

@[simp] theorem keeps_execChunkGet (func : Fin 17) (msg : List Byte) (h : wf s) :
    Keeps (execChunkGet func msg s) := by simp [execChunkGet, h]

@[simp] theorem wf_importHostKey (s : State) (msg : List Byte) : wf (importHostKey s msg) = wf s := by
  simp [importHostKey]
  split <;> simp

@[simp] theorem keeps_execVendorDefinedRequest (func : Fin 17) (msg : List Byte) (h : wf s) :
    Keeps (execVendorDefinedRequest func msg s) := by simp [execVendorDefinedRequest, h]

end Sys2Proof.Machine.Memory
end
section
/-! SUPPORT. Keeping the canonical form of memory (log 2): bring-up (15 R395 to R409), the chip reset (15 R410 to R414; 18 R462, R463),
PERST#, 48 V and PCIe's own resets. -/

namespace Sys2Proof.Machine.Memory

variable {s t : State}

@[simp] theorem wf_setStage (s : State) (n : Nat) : wf (setStage s n) = wf s := by simp [setStage]
@[simp] theorem wf_updBoot (s : State) (f : Boot → Boot) : wf (updBoot s f) = wf s := by simp [updBoot]
@[simp] theorem wf_bootEvent (s : State) (bit code : Nat) : wf (bootEvent s bit code) = wf s := by simp [bootEvent]

/-! Links for bring-up and relay (R396, R409). -/

@[simp] theorem wf_trainAll (s : State) : wf (trainAll s) = wf s := by simp [trainAll]
@[simp] theorem wf_relayPiece (link : Nat) (s : State) (j : Nat) : wf (relayPiece link s j) = wf s := by rw [relayPiece, wf_sailNew]
@[simp] theorem wf_relayTo (s : State) (links : List Nat) : wf (relayTo s links) = wf s := by simp [relayTo]
@[simp] theorem wf_writeRelayOut (s : State) (v : W32) : wf (writeRelayOut s v) = wf s := by simp [writeRelayOut]

/-! Verification (R399, R405). -/

@[simp] theorem wf_choosePath (s : State) (fast : Bool) : wf (choosePath s fast) = wf s := by simp [choosePath]
@[simp] theorem wf_imageVerified (s : State) : wf (imageVerified s) = wf s := by simp [imageVerified]

@[simp] theorem wf_endVerify (s : State) : wf (endVerify s) = wf s := by
  unfold endVerify
  split <;> simp

@[simp] theorem keeps_execVerifyDone (h : wf s) : Keeps (execVerifyDone s) := by simp [execVerifyDone, h]

@[simp] theorem wf_takeRelay (s : State) (bytes : List Byte) : wf (takeRelay s bytes) = wf s := by
  unfold takeRelay
  extract_lets u len v
  have hu : wf u = wf s := wf_ite_of rfl (wf_storeImage ..)
  have hv : wf v = wf s := (wf_choosePath ..).trans hu
  split
  · exact (wf_bootEvent ..).trans hv
  · exact (wf_imageVerified ..).trans hv

@[simp] theorem keeps_execRelayImage (link : Fin 16) (bytes : List Byte) (h : wf s) :
    Keeps (execRelayImage link bytes s) := by simp [execRelayImage, h]

/-! Self-test and spares (R402, R404, R405). -/

@[simp] theorem wf_useSpare (s : State) (cl spare j : Nat) : wf (useSpare s cl spare j) = wf s := by simp [useSpare]
@[simp] theorem wf_fenceCore (s : State) (id : CoreId) : wf (fenceCore s id) = wf s := by simp [fenceCore]

@[simp] theorem wf_coreFailed (s : State) (id : CoreId) : wf (coreFailed s id) = wf s := by
  simp only [coreFailed]
  split <;> simp

@[simp] theorem wf_useSpareBank (s : State) (cl : Nat) : wf (useSpareBank s cl) = wf s := by simp [useSpareBank]
@[simp] theorem wf_withholdBank (s : State) (cl bank : Nat) : wf (withholdBank s cl bank) = wf s := by simp [withholdBank]
@[simp] theorem wf_bankFailed (s : State) (cl bank : Nat) : wf (bankFailed s cl bank) = wf s := by simp [bankFailed]
@[simp] theorem wf_laneFailed (s : State) (link lane : Nat) : wf (laneFailed s link lane) = wf s := by simp [laneFailed]
@[simp] theorem wf_selfTest (s : State) (r : StageReport) : wf (selfTest s r) = wf s := by simp [selfTest]
@[simp] theorem wf_applyMap (s : State) (m : DefectMap) : wf (applyMap s m) = wf s := by simp [applyMap]
@[simp] theorem wf_zeroScratch (h : wf s) : wf (zeroScratch s) := wf_foldl_of (fun t _ ht => wf_zeroRange t _ _ ht) h

/-! HBM (R403). -/

@[simp] theorem wf_stackTested (s : State) (x : Nat × Nat × List Nat × Bool) : wf (stackTested s x) = wf s := by simp [stackTested]
@[simp] theorem wf_hbmTest {r : StageReport} (h : wf s) : wf (hbmTest s r) := by simp [hbmTest, wf_blurRange, h]

/-! Broadcast (R406 to R408). -/

@[simp] theorem wf_fencePhysical (s : State) (id : CoreId) : wf (fencePhysical s id) = wf s := by simp [fencePhysical]

@[simp] theorem wf_fenceLast (s : State) (id : CoreId) : wf (fenceLast s id) = wf s := by
  -- To unfold it in the goal itself sends the kernel into a deep recursion, so the goal is rewritten by the definition.
  have hdef : fenceLast = fenceLast := rfl
  conv at hdef => rhs; delta fenceLast
  rw [hdef]
  simp only
  split
  · rw [wf_coreFailed, wf_raise, wf_fencePhysical]
  · rw [wf_coreFailed, wf_fencePhysical]

@[simp] theorem wf_fenceSpare (s : State) (id : CoreId) : wf (fenceSpare s id) = wf s := by simp [fenceSpare]
@[simp] theorem wf_takeNacks (s : State) (missed : List (CoreId × BitVec 16)) : wf (takeNacks s missed) = wf s := by simp [takeNacks]

@[simp] theorem keeps_execNackList (missed : List (CoreId × BitVec 16)) (h : wf s) :
    Keeps (execNackList missed s) := by simp [execNackList, h]

/-! The steps (R396). -/

@[simp] theorem wf_endRom (s : State) (r : StageReport) : wf (endRom s r) = wf s := by simp [endRom]
@[simp] theorem wf_endPuf (s : State) (r : StageReport) : wf (endPuf s r) = wf s := by simp [endPuf]
@[simp] theorem wf_endSelftest {r : StageReport} (h : wf s) : wf (endSelftest s r) := by simp [endSelftest, h]
@[simp] theorem wf_endHbm {r : StageReport} (h : wf s) : wf (endHbm s r) := by simp [endHbm, h]
@[simp] theorem wf_endBroadcast (s : State) : wf (endBroadcast s) = wf s := by simp [endBroadcast]
@[simp] theorem wf_nowReady (s : State) : wf (nowReady s) = wf s := by simp [nowReady]

@[simp] theorem keeps_endStage (r : StageReport) (h : wf s) : Keeps (endStage s r) := by
  unfold endStage
  split <;> simp [h]

@[simp] theorem keeps_execStageDone (r : StageReport) (h : wf s) : Keeps (execStageDone r s) := by simp [execStageDone, h]

/-! The chip reset (R410 to R413) and power. -/

@[simp] theorem wf_chipReset (s : State) (phase : Phase) : wf (chipReset s phase) := by
  simp only [chipReset]
  rw [wf_threshEdge, wf_putBit, wf_foldl _ (by simp)]
  rfl

@[simp] theorem wf_powerOff (s : State) : wf (powerOff s) := rfl
@[simp] theorem keeps_execP48Removed (s : State) : Keeps (execP48Removed s) := by simp [execP48Removed]
@[simp] theorem keeps_execColdStart (strap : BitVec 2) (h : wf s) : Keeps (execColdStart strap s) := by simp [execColdStart, h]

@[simp] theorem keeps_execPerstAssert (h : wf s) : Keeps (execPerstAssert s) := by
  unfold execPerstAssert
  split <;> simp [h]

@[simp] theorem keeps_execPerstDeassert (strap : BitVec 2) (h : wf s) :
    Keeps (execPerstDeassert strap s) := by simp [execPerstDeassert, h]

/-! BOOT.CMD. -/

@[simp] theorem wf_verifyCmd (func : Nat) (s : State) (fast : Bool) : wf (verifyCmd func s fast) = wf s := by simp [verifyCmd]
@[simp] theorem wf_awaitRelayCmd (func : Nat) (s : State) (fast : Bool) : wf (awaitRelayCmd func s fast) = wf s := by simp [awaitRelayCmd]
@[simp] theorem wf_clearMapCmd (s : State) : wf (clearMapCmd s) = wf s := by simp [clearMapCmd]

@[simp] theorem wf_writeBootCmd {func : Nat} {v : W32} (h : wf s) : wf (writeBootCmd func s v) := by
  unfold writeBootCmd
  split <;> simp [h]

@[simp] theorem keeps_execVerify (a : Access) (h : wf s) : Keeps (execVerify a s) := by simp [execVerify, h]
@[simp] theorem keeps_execAwaitRelay (a : Access) (h : wf s) : Keeps (execAwaitRelay a s) := by simp [execAwaitRelay, h]
@[simp] theorem keeps_execChipReset (a : Access) (h : wf s) : Keeps (execChipReset a s) := by simp [execChipReset, h]
@[simp] theorem keeps_execClearMap (a : Access) (h : wf s) : Keeps (execClearMap a s) := by simp [execClearMap, h]

/-! PCIe's own resets (R414; 18 R463). -/

@[simp] theorem wf_resetFuncs (s : State) (p : Nat → Bool) : wf (resetFuncs s p) = wf s := by simp [resetFuncs]
@[simp] theorem wf_endStreams (s : State) (p : Nat → Bool) : wf (endStreams s p) = wf s := by simp [endStreams]
@[simp] theorem wf_linkLost (s : State) : wf (linkLost s) = wf s := by simp [linkLost]
@[simp] theorem keeps_execHotReset (h : wf s) : Keeps (execHotReset s) := by simp [execHotReset, h]
@[simp] theorem keeps_execPcieLinkDown (h : wf s) : Keeps (execPcieLinkDown s) := by simp [execPcieLinkDown, h]
@[simp] theorem keeps_execFlr (func : Fin 17) (h : wf s) : Keeps (execFlr func s) := by simp [execFlr, h]

end Sys2Proof.Machine.Memory
end
section
/-! SUPPORT. Keeping the canonical form of memory (log 2): the tide (01_tide). -/

namespace Sys2Proof.Machine.Memory

variable {s t : State}

/-! Registers of the page. -/

@[simp] theorem wf_setTide (s : State) (t : Tide) : wf (setTide s t) = wf s := by simp [setTide]
@[simp] theorem wf_updTide (s : State) (f : Tide → Tide) : wf (updTide s f) = wf s := by simp [updTide]
@[simp] theorem wf_tideEvent (s : State) (bit : Nat) : wf (tideEvent s bit) = wf s := by simp [tideEvent]
@[simp] theorem wf_tideNote (s : State) (bit : Nat) : wf (tideNote s bit) = wf s := by simp [tideNote]
@[simp] theorem wf_tideReject (s : State) : wf (tideReject s) = wf s := by simp [tideReject]
@[simp] theorem wf_setCorr (s : State) (c : Int) : wf (setCorr s c) = wf s := by simp [setCorr]

/-! Beacons (R31, R32). -/

@[simp] theorem wf_sendOn (s : State) (b : BeaconMsg) (skip : Option Nat) : wf (sendOn s b skip) = wf s := by simp [sendOn]

@[simp] theorem wf_floodNotice (s : State) (cancel : Bool) (skip : Option Nat) :
    wf (floodNotice s cancel skip) = wf s := by simp [floodNotice]

@[simp] theorem wf_sendBeacon (s : State) : wf (sendBeacon s) = wf s := by simp [sendBeacon]
@[simp] theorem keeps_execBeaconSend (h : wf s) : Keeps (execBeaconSend s) := by simp [execBeaconSend, h]

/-! The root (R24 to R30). -/

@[simp] theorem wf_beRoot (s : State) : wf (beRoot s) = wf s := by simp [beRoot]
@[simp] theorem wf_startTide (s : State) : wf (startTide s) = wf s := by simp [startTide]
@[simp] theorem wf_endAdapts (s : State) : wf (endAdapts s) = wf s := by simp [endAdapts]
@[simp] theorem wf_writeTideCtrl (s : State) (v : W32) : wf (writeTideCtrl s v) = wf s := by simp [writeTideCtrl]
@[simp] theorem keeps_execRun (a : Access) (h : wf s) : Keeps (execRun a s) := by simp [execRun, h]
@[simp] theorem keeps_execRoot (a : Access) (h : wf s) : Keeps (execRoot a s) := by simp [execRoot, h]
@[simp] theorem wf_loadInit (s : State) : wf (loadInit s) = wf s := by simp [loadInit]
@[simp] theorem keeps_execInitLoad (h : wf s) : Keeps (execInitLoad s) := by simp [execInitLoad, h]
@[simp] theorem wf_syncEdge (s : State) : wf (syncEdge s) = wf s := by simp [syncEdge]
@[simp] theorem keeps_execTideSync (h : wf s) : Keeps (execTideSync s) := by simp [execTideSync, h]
@[simp] theorem wf_loseRef (s : State) : wf (loseRef s) = wf s := by simp [loseRef]
@[simp] theorem keeps_execRefLoss (h : wf s) : Keeps (execRefLoss s) := by simp [execRefLoss, h]
@[simp] theorem keeps_execRootRefReturn (h : wf s) : Keeps (execRootRefReturn s) := by simp [execRootRefReturn, h]

/-! The counter (R19, R23). -/

@[simp] theorem wf_wrapTide (s : State) : wf (wrapTide s) = wf s := by simp [wrapTide]
@[simp] theorem keeps_execWrap (h : wf s) : Keeps (execWrap s) := by simp [execWrap, h]

/-! Discipline (R35 to R38). -/

@[simp] theorem wf_takeUpstream (s : State) (h : Heard) : wf (takeUpstream s h) = wf s := by simp [takeUpstream]
@[simp] theorem wf_hear (s : State) (link : Nat) (b : BeaconMsg) : wf (hear s link b) = wf s := by simp [hear]

@[simp] theorem keeps_execUpstreamChange (h : wf s) : Keeps (execUpstreamChange s) := by
  simp [execUpstreamChange, h]
  split <;> simp [h]

@[simp] theorem wf_enterLost (s : State) : wf (enterLost s) = wf s := by simp [enterLost]
@[simp] theorem wf_runLoop (s : State) (link : Nat) (b : BeaconMsg) : wf (runLoop s link b) = wf s := by simp [runLoop]

/-! Stands (R44 to R51). -/

@[simp] theorem wf_recordSeq (s : State) (q : BitVec 16) : wf (recordSeq s q) = wf s := by simp [recordSeq]
@[simp] theorem wf_stand (s : State) (count16 : Nat) : wf (stand s count16) = wf s := by simp [stand]
@[simp] theorem wf_standLate (s : State) (count16 : Nat) : wf (standLate s count16) = wf s := by simp [standLate]
@[simp] theorem wf_learnStand (s : State) (link : Nat) (b : BeaconMsg) : wf (learnStand s link b) = wf s := by simp [learnStand]
@[simp] theorem wf_learn (s : State) (link : Nat) (b : BeaconMsg) : wf (learn s link b) = wf s := by simp [learn]

@[simp] theorem wf_acquire (s : State) (link : Nat) (b : BeaconMsg) (proc16 : Nat) : wf (acquire s link b proc16) = wf s := by
  simp only [acquire]
  refine wf_ite_of (by simp only [wf_tideBecameValid, wf_stand, wf_put, wf_updTide, wf_recordSeq]) ?_
  rw [wf_tideBecameValid, wf_put]
  exact wf_ite_of (by simp only [wf_put, wf_updTide]) (by simp only [wf_updTide])

@[simp] theorem wf_rootConflict (s : State) (b : BeaconMsg) : wf (rootConflict s b) = wf s := by simp [rootConflict]

@[simp] theorem wf_discipline (s : State) (link : Nat) (b : BeaconMsg) (proc16 : Nat) : wf (discipline s link b proc16) = wf s := by
  simp [discipline]
  split <;> simp

@[simp] theorem wf_tideMessage (s : State) (link : Nat) (bytes : List Byte) (proc16 : Nat) :
    wf (tideMessage s link bytes proc16) = wf s := by
  unfold tideMessage
  split <;> simp

@[simp] theorem keeps_execBeacon (link : Fin 16) (bytes : List Byte) (proc16 : BitVec 32) (h : wf s) :
    Keeps (execBeacon link bytes proc16 s) := by simp [execBeacon, h]

@[simp] theorem keeps_execStandNotice (link : Fin 16) (bytes : List Byte) (h : wf s) :
    Keeps (execStandNotice link bytes s) := by simp [execStandNotice, h]

/-! Lock, holdover, loss (R38, R40, R41, R43). -/

@[simp] theorem wf_lock (s : State) : wf (lock s) = wf s := by simp [lock]
@[simp] theorem keeps_execLocked (h : wf s) : Keeps (execLocked s) := by simp [execLocked, h]
@[simp] theorem wf_enterHoldover (s : State) : wf (enterHoldover s) = wf s := by simp [enterHoldover]
@[simp] theorem keeps_execHoldover (h : wf s) : Keeps (execHoldover s) := by simp [execHoldover, h]
@[simp] theorem keeps_execLost (h : wf s) : Keeps (execLost s) := by simp [execLost, h]

/-! Stand commands of the root. -/

@[simp] theorem wf_scheduleStand (s : State) : wf (scheduleStand s) = wf s := by simp [scheduleStand]
@[simp] theorem wf_resumeStand (s : State) : wf (resumeStand s) = wf s := by simp [resumeStand]
@[simp] theorem wf_cancelStand (s : State) : wf (cancelStand s) = wf s := by simp [cancelStand]

@[simp] theorem wf_writeStandCmd (s : State) (v : W32) : wf (writeStandCmd s v) = wf s := by
  unfold writeStandCmd
  split <;> simp

@[simp] theorem keeps_execSchedule (a : Access) (h : wf s) : Keeps (execSchedule a s) := by simp [execSchedule, h]
@[simp] theorem keeps_execStandResume (a : Access) (h : wf s) : Keeps (execStandResume a s) := by simp [execStandResume, h]
@[simp] theorem keeps_execCancel (a : Access) (h : wf s) : Keeps (execCancel a s) := by simp [execCancel, h]

/-! A stand begins and ends. -/

@[simp] theorem wf_beginStand (s : State) : wf (beginStand s) = wf s := by simp [beginStand]
@[simp] theorem keeps_execStandBegin (h : wf s) : Keeps (execStandBegin s) := by simp [execStandBegin, h]
@[simp] theorem wf_endStand (s : State) : wf (endStand s) = wf s := by simp [endStand]
@[simp] theorem keeps_execStandEnd (h : wf s) : Keeps (execStandEnd s) := by simp [execStandEnd, h]
@[simp] theorem wf_writeLostLimit (s : State) (v : W32) : wf (writeLostLimit s v) = wf s := by simp [writeLostLimit]
@[simp] theorem wf_writeHoldMax (s : State) (v : W32) : wf (writeHoldMax s v) = wf s := by simp [writeHoldMax]

/-! One tide clock. -/

@[simp] theorem wf_tickCount (s : State) : wf (tickCount s) = wf s := by simp [tickCount]
@[simp] theorem wf_tickTide (s : State) : wf (tickTide s) = wf s := by simp [tickTide]

end Sys2Proof.Machine.Memory
end
section
/-! SUPPORT. Keeping the canonical form of memory (log 2): BAR0 and BAR4 (17_register_pages). -/

namespace Sys2Proof.Machine.Memory

variable {s t : State}

/-! Reading a register (R433). -/

@[simp] theorem wf_latchPair (s : State) (key : Nat) (hi : W32) : wf (latchPair s key hi) = wf s := by simp [latchPair]
@[simp] theorem wf_unlatchPair (s : State) (key : Nat) : wf (unlatchPair s key) = wf s := by simp [unlatchPair]
@[simp] theorem wf_holdPair (s : State) (key : Nat) (lo : W32) : wf (holdPair s key lo) = wf s := by simp [holdPair]
@[simp] theorem wf_unholdPair (s : State) (key : Nat) : wf (unholdPair s key) = wf s := by simp [unholdPair]

@[simp] theorem wf_answerPair (s : State) (func key : Nat) (hi : Bool) (value other : W32) :
    wf (answerPair s func key hi value other) = wf s := by
  simp [answerPair]
  split <;> simp

@[simp] theorem wf_readRefused (s : State) (func bar page off : Nat) :
    wf (readRefused s func bar page off) = wf s := by simp [readRefused]

@[simp] theorem wf_regRead (func page off : Nat) (s : State) : wf (regRead func page off s) = wf s := by
  unfold regRead
  split <;> simp

@[simp] theorem keeps_hostRead (func page off : Nat) (h : wf s) : Keeps (hostRead func page off s) := by simp [hostRead, h]

/-! Writing a register. -/

@[simp] theorem wf_dropLocks (old s : State) : wf (dropLocks old s) = wf s := by simp [dropLocks]

@[simp] theorem wf_pairEffect (k : PageKind) (n page lo mask func : Nat) (v : W64) (s : State) :
    wf (pairEffect k n page lo mask func v s) = wf s := by
  unfold pairEffect
  split <;> simp

@[simp] theorem wf_writeCqCtrl (g : Nat) (s : State) (v : W32) : wf (writeCqCtrl g s v) = wf s := by simp [writeCqCtrl]
@[simp] theorem wf_writeFtl (off mask : Nat) (s : State) (v : W32) : wf (writeFtl off mask s v) = wf s := by simp [writeFtl]

@[simp] theorem wf_blockWrite {k : PageKind} {n page off mask func : Nat} {v : W32} (h : wf s) :
    wf (blockWrite k n page off mask func s v) := by
  unfold blockWrite
  split <;> simp [h]
  split <;> simp [h]

/-! Events by the host (R438). -/

@[simp] theorem wf_forcedCode (k : PageKind) (bit : Nat) (s : State) : wf (forcedCode k bit s).2 = wf s := by
  unfold forcedCode
  split <;> simp

@[simp] theorem wf_forceBit (k : PageKind) (page bit : Nat) (s : State) : wf (forceBit k page bit s) = wf s := by simp [forceBit]
@[simp] theorem wf_forceEvt (k : PageKind) (page : Nat) (a : Access) (s : State) : wf (forceEvt k page a s) = wf s := by simp [forceEvt]

@[simp] theorem wf_regEffect {page off : Nat} {a : Access} {v : W32} (h : wf s) : wf (regEffect page off a s v) := by
  unfold regEffect
  split <;> simp [h]
  split <;> simp [h]

@[simp] theorem keeps_regWrite (page off : Nat) (a : Access) (h : wf s) : Keeps (regWrite page off a s) := by simp [regWrite, h]

/-! BAR4 (R444 to R448). -/

@[simp] theorem wf_bar4Read (func off : Nat) (s : State) : wf (bar4Read func off s) = wf s := by
  unfold bar4Read
  split <;> simp

@[simp] theorem wf_deliver (func vec : Nat) (s : State) : wf (deliver func vec s) = wf s := by simp [deliver]
@[simp] theorem wf_deliverAll (func : Nat) (s : State) : wf (deliverAll func s) = wf s := by simp [deliverAll]
@[simp] theorem wf_writeMsix (func off : Nat) (v : W32) (s : State) : wf (writeMsix func off v s) = wf s := by simp [writeMsix]
@[simp] theorem wf_rearmWord (func k : Nat) (v : W32) (s : State) : wf (rearmWord func k v s) = wf s := by simp [rearmWord]
@[simp] theorem wf_writeWinBase (func off : Nat) (v : W32) (s : State) : wf (writeWinBase func off v s) = wf s := by simp [writeWinBase]

theorem wf_bar4Effect {func off : Nat} {v : W32} {t : State} (h : wf s) (ht : bar4Effect func off v s = some t) : wf t := by
  unfold bar4Effect at ht
  split_ifs at ht <;> cases ht <;> simp [h]

@[simp] theorem keeps_bar4Write (off : Nat) (a : Access) (h : wf s) : Keeps (bar4Write off a s) := by
  unfold bar4Write
  extract_lets f
  split
  · simp [h]
  split
  · simp [h]
  split
  · simp [h]
  split
  · exact h
  split
  · simp [h]
  split
  · exact (keeps_finish _).2 (wf_bar4Effect h (by assumption))
  · simp [h]

/-! The commands. -/

@[simp] theorem keeps_execPairLoRead (func : Fin 17) (page : BitVec 14) (off : BitVec 12) (h : wf s) :
    Keeps (execPairLoRead func page off s) := by simp [execPairLoRead, h]

@[simp] theorem keeps_execPairHiRead (func : Fin 17) (page : BitVec 14) (off : BitVec 12) (h : wf s) :
    Keeps (execPairHiRead func page off s) := by simp [execPairHiRead, h]

@[simp] theorem keeps_execPairLoWrite (page : BitVec 14) (off : BitVec 12) (a : Access) (h : wf s) :
    Keeps (execPairLoWrite page off a s) := by simp [execPairLoWrite, h]

@[simp] theorem keeps_execPairHiWrite (page : BitVec 14) (off : BitVec 12) (a : Access) (h : wf s) :
    Keeps (execPairHiWrite page off a s) := by simp [execPairHiWrite, h]

@[simp] theorem keeps_execRegisterWrite (bar : Bar) (addr : BitVec 26) (a : Access) (h : wf s) :
    Keeps (execRegisterWrite bar addr a s) := by
  unfold execRegisterWrite
  split <;> simp [h]

@[simp] theorem keeps_execRegisterRead (bar : Bar) (addr : BitVec 26) (func : Fin 17) (h : wf s) :
    Keeps (execRegisterRead bar addr func s) := by
  unfold execRegisterRead
  split <;> simp [h]

@[simp] theorem keeps_execEvtClear (page : BitVec 14) (a : Access) (h : wf s) : Keeps (execEvtClear page a s) := by simp [execEvtClear, h]
@[simp] theorem keeps_execEvtSet (page : BitVec 14) (a : Access) (h : wf s) : Keeps (execEvtSet page a s) := by simp [execEvtSet, h]
@[simp] theorem keeps_execRearm (k : Fin 8) (a : Access) (h : wf s) : Keeps (execRearm k a s) := by simp [execRearm, h]

@[simp] theorem keeps_execMsixUnmask (func : Fin 17) (vector : Option (BitVec 8)) (h : wf s) : Keeps (execMsixUnmask func vector s) := by
  unfold execMsixUnmask
  split <;> simp [h]
  split <;> simp [h]

@[simp] theorem keeps_execRdWord (func : Fin 17) (h : wf s) : Keeps (execRdWord func s) := by simp [execRdWord, h]

end Sys2Proof.Machine.Memory
end
section
/-! SUPPORT. Keeping the canonical form of memory (log 2): the pins that carry their own commands. -/

namespace Sys2Proof.Machine.Memory

variable {s t : State}

/-! The test port. -/

@[simp] theorem wf_tapShift (ir : BitVec 5) (bits value : Nat) (s : State) : wf (tapShift ir bits value s) = wf s := by simp [tapShift]

@[simp] theorem keeps_tapVendor (ir : BitVec 5) {effect : State → State} (h : wf s) (he : wf (effect s)) :
    Keeps (tapVendor ir effect s) := by simp [tapVendor, h, he]

@[simp] theorem keeps_execTapReset (h : wf s) : Keeps (execTapReset s) := by simp [execTapReset, h]
@[simp] theorem keeps_execIdcode (h : wf s) : Keeps (execIdcode s) := by simp [execIdcode, h]
@[simp] theorem keeps_execBypass (h : wf s) : Keeps (execBypass s) := by simp [execBypass, h]
@[simp] theorem wf_samplePins (pins shiftIn : BitVec 10) (s : State) : wf (samplePins pins shiftIn s) = wf s := by simp [samplePins]

@[simp] theorem keeps_execSamplePreload (pins shiftIn : BitVec 10) (h : wf s) :
    Keeps (execSamplePreload pins shiftIn s) := by simp [execSamplePreload, h]

@[simp] theorem wf_drivePins (shiftIn : BitVec 10) (s : State) : wf (drivePins shiftIn s) = wf s := by simp [drivePins]
@[simp] theorem keeps_execExtest (shiftIn : BitVec 10) (h : wf s) : Keeps (execExtest shiftIn s) := by simp [execExtest, h]
@[simp] theorem wf_enterScan (s : State) : wf (enterScan s) = wf s := by simp [enterScan]
@[simp] theorem keeps_execScan (h : wf s) : Keeps (execScan s) := by simp [execScan, h]

@[simp] theorem wf_testDie {die : Nat} (h : wf s) : wf (testDie die s) := by
  unfold testDie
  extract_lets u
  have hu : wf u := wf_foldl_of (fun t _ ht => wf_blurRange t _ _ ht) h
  simp [hu]

@[simp] theorem keeps_execMbist (die : Fin 8) (h : wf s) : Keeps (execMbist die s) := by simp [execMbist, h]

/-! The I3C target. -/

@[simp] theorem keeps_i3cDirect (answer : List Byte) (h : wf s) : Keeps (i3cDirect answer s) := by simp [i3cDirect, h]
@[simp] theorem keeps_execEntdaa (addr : BitVec 7) (h : wf s) : Keeps (execEntdaa addr s) := by simp [execEntdaa, h]

@[simp] theorem keeps_execSetdasa (static dynamic : BitVec 7) (h : wf s) :
    Keeps (execSetdasa static dynamic s) := by simp [execSetdasa, h]

@[simp] theorem keeps_execRstdaa (h : wf s) : Keeps (execRstdaa s) := by simp [execRstdaa, h]
@[simp] theorem keeps_execGetpid (h : wf s) : Keeps (execGetpid s) := by simp [execGetpid, h]
@[simp] theorem keeps_execGetbcr (h : wf s) : Keeps (execGetbcr s) := by simp [execGetbcr, h]
@[simp] theorem keeps_execGetdcr (h : wf s) : Keeps (execGetdcr s) := by simp [execGetdcr, h]
@[simp] theorem keeps_execGetstatus (h : wf s) : Keeps (execGetstatus s) := by simp [execGetstatus, h]
@[simp] theorem keeps_execEnec (h : wf s) : Keeps (execEnec s) := by simp [execEnec, h]
@[simp] theorem keeps_execDisec (h : wf s) : Keeps (execDisec s) := by simp [execDisec, h]

@[simp] theorem keeps_execI3cWrite (bytes : List Byte) (h : wf s) : Keeps (execI3cWrite bytes s) := by
  unfold execI3cWrite
  split <;> simp [h]

@[simp] theorem keeps_execI3cRead (n : Nat) (h : wf s) : Keeps (execI3cRead n s) := by simp [execI3cRead, h]

end Sys2Proof.Machine.Memory
end
section
/-! SUPPORT. Keeping the canonical form of memory (log 2): the memory window BAR2 (17 R443). -/

namespace Sys2Proof.Machine.Memory

variable {s t : State}

@[simp] theorem wf_winRefused (s : State) (func off : Nat) (op : WinOp) : wf (winRefused s func off op) = wf s := by
  unfold winRefused
  split <;> simp

@[simp] theorem wf_winRead (s : State) (func a n : Nat) (see : Nat → Byte) : wf (winRead s func a n see) = wf s := by simp [winRead]

@[simp] theorem keeps_winMemory (func : Nat) (ide : Bool) (off a : Nat) (op : WinOp) (h : wf s) :
    Keeps (winMemory func ide off a op s) := by
  unfold winMemory
  split <;> simp [h]

@[simp] theorem keeps_winImage (func off : Nat) (op : WinOp) (h : wf s) : Keeps (winImage func off op s) := by
  unfold winImage
  split <;> simp [h]

@[simp] theorem keeps_execWindowAccess (func : Fin 17) (ide : Bool) (off : BitVec 36) (op : WinOp) (h : wf s) :
    Keeps (execWindowAccess func ide off op s) := by simp [execWindowAccess, h]

end Sys2Proof.Machine.Memory
end
section
/-! SUPPORT. Keeping the canonical form of memory (log 2): one tide clock of the machine while no command waits. -/

namespace Sys2Proof.Machine.Memory

variable {s t : State}

@[simp] theorem wf_countCycles (s : State) (id : CoreId) : wf (countCycles s id) = wf s := by simp [countCycles]
@[simp] theorem wf_countAll (s : State) : wf (countAll s) = wf s := by simp [countAll]
@[simp] theorem wf_tick (h : wf s) : wf (tick s) := by simp [tick, h]

end Sys2Proof.Machine.Memory
end
section
/-! SUPPORT. Every command, and the step. -/

namespace Sys2Proof.Machine.Memory

/-- No command breaks the form: each is one of the operations above. -/
theorem keeps_exec (i : Instr) {s : State} (h : wf s) : Keeps (exec i s) := by
  cases i <;> simp [exec, h]

theorem keeps_step {s : State} (h : wf s) : Keeps (step s) := by
  unfold step
  split
  · exact (keeps_finish _).2 (wf_tick h)
  · exact keeps_exec _ (by simp [h])

end Sys2Proof.Machine.Memory

namespace Sys2Proof.Claims
open Sys2Proof.Machine

/-- Settles O53: every command keeps the form, since each writes memory only by the operations of the byte store that keep it. -/
theorem stepKeepsMemoryCanonical : Obligations.StepKeepsMemoryCanonical := by
  intro s t h hstep
  have hk : Memory.Keeps (step s) := Memory.keeps_step h
  rw [hstep] at hk
  exact hk

end Sys2Proof.Claims
end

section
/-! SUPPORT. Core instruction words (06 R158 to R180): the fields of a layout lie side by side in the word, and each MAJOR has one
layout. -/

namespace Sys2Proof

variable {id : CoreId} {w : W64} {i : Instr}

/-! The fields of a word that is put together are read back. -/

section
variable (major : BitVec 6)

theorem major_encodeReg (minor : BitVec 8) (f : RegF) : wordField (encodeReg major minor f) 58 6 = major := by
  unfold wordField encodeReg
  simp (disch := decide) only [BitVec.extractLsb'_append_eq_of_le, Nat.reduceSub, BitVec.extractLsb'_eq_self]

theorem minor_encodeReg (minor : BitVec 8) (f : RegF) : wordField (encodeReg major minor f) 26 8 = minor := by
  unfold wordField encodeReg
  simp (disch := decide) only [BitVec.extractLsb'_append_eq_of_le, BitVec.extractLsb'_append_eq_of_add_le, Nat.reduceSub,
    BitVec.extractLsb'_eq_self]

theorem regFields_encodeReg (minor : BitVec 8) (f : RegF) : regFields (encodeReg major minor f) = f := by
  unfold regFields wordField encodeReg
  simp (disch := decide) only [BitVec.extractLsb'_append_eq_of_le, BitVec.extractLsb'_append_eq_of_add_le, Nat.reduceSub,
    BitVec.extractLsb'_eq_self]

theorem major_encodeImm (minor : BitVec 6) (f : ImmF) : wordField (encodeImm major minor f) 58 6 = major := by
  unfold wordField encodeImm
  simp (disch := decide) only [BitVec.extractLsb'_append_eq_of_le, Nat.reduceSub, BitVec.extractLsb'_eq_self]

theorem minor_encodeImm (minor : BitVec 6) (f : ImmF) : wordField (encodeImm major minor f) 34 6 = minor := by
  unfold wordField encodeImm
  simp (disch := decide) only [BitVec.extractLsb'_append_eq_of_le, BitVec.extractLsb'_append_eq_of_add_le, Nat.reduceSub,
    BitVec.extractLsb'_eq_self]

theorem immFields_encodeImm (minor : BitVec 6) (f : ImmF) : immFields (encodeImm major minor f) = f := by
  unfold immFields wordField encodeImm
  simp (disch := decide) only [BitVec.extractLsb'_append_eq_of_le, BitVec.extractLsb'_append_eq_of_add_le, Nat.reduceSub,
    BitVec.extractLsb'_eq_self]

theorem major_encodeVmem (f : VmemF) : wordField (encodeVmem major f) 58 6 = major := by
  unfold wordField encodeVmem
  simp (disch := decide) only [BitVec.extractLsb'_append_eq_of_le, Nat.reduceSub, BitVec.extractLsb'_eq_self]

theorem vmemFields_encodeVmem (f : VmemF) : vmemFields (encodeVmem major f) = f := by
  unfold vmemFields wordField encodeVmem
  simp (disch := decide) only [BitVec.extractLsb'_append_eq_of_le, BitVec.extractLsb'_append_eq_of_add_le, Nat.reduceSub,
    BitVec.extractLsb'_eq_self]

theorem major_encodeMma (f : MmaF) : wordField (encodeMma major f) 58 6 = major := by
  unfold wordField encodeMma
  simp (disch := decide) only [BitVec.extractLsb'_append_eq_of_le, Nat.reduceSub, BitVec.extractLsb'_eq_self]

theorem mmaFields_encodeMma (f : MmaF) : mmaFields (encodeMma major f) = f := by
  unfold mmaFields wordField encodeMma
  simp (disch := decide) only [BitVec.extractLsb'_append_eq_of_le, BitVec.extractLsb'_append_eq_of_add_le, Nat.reduceSub,
    BitVec.extractLsb'_eq_self]

theorem major_encodeMove (f : MoveF) : wordField (encodeMove major f) 58 6 = major := by
  unfold wordField encodeMove
  simp (disch := decide) only [BitVec.extractLsb'_append_eq_of_le, Nat.reduceSub, BitVec.extractLsb'_eq_self]

theorem moveFields_encodeMove (f : MoveF) : moveFields (encodeMove major f) = f := by
  unfold moveFields wordField encodeMove
  simp (disch := decide) only [BitVec.extractLsb'_append_eq_of_le, BitVec.extractLsb'_append_eq_of_add_le, Nat.reduceSub,
    BitVec.extractLsb'_eq_self]

end

/-! The fields of a word put together again are the word: they overlap nowhere and leave no bit out. -/

section
variable {major : BitVec 6}

theorem encodeReg_regFields {minor : BitVec 8} (hM : wordField w 58 6 = major) (hm : wordField w 26 8 = minor) :
    encodeReg major minor (regFields w) = w := by
  rw [← hM, ← hm]
  unfold encodeReg regFields wordField
  simp (disch := decide) only [BitVec.extractLsb'_append_extractLsb'_eq_extractLsb', BitVec.extractLsb'_eq_self]

theorem encodeImm_immFields {minor : BitVec 6} (hM : wordField w 58 6 = major) (hm : wordField w 34 6 = minor) :
    encodeImm major minor (immFields w) = w := by
  rw [← hM, ← hm]
  unfold encodeImm immFields wordField
  simp (disch := decide) only [BitVec.extractLsb'_append_extractLsb'_eq_extractLsb', BitVec.extractLsb'_eq_self]

theorem encodeVmem_vmemFields (hM : wordField w 58 6 = major) : encodeVmem major (vmemFields w) = w := by
  rw [← hM]
  unfold encodeVmem vmemFields wordField
  simp (disch := decide) only [BitVec.extractLsb'_append_extractLsb'_eq_extractLsb', BitVec.extractLsb'_eq_self]

theorem encodeMma_mmaFields (hM : wordField w 58 6 = major) : encodeMma major (mmaFields w) = w := by
  rw [← hM]
  unfold encodeMma mmaFields wordField
  simp (disch := decide) only [BitVec.extractLsb'_append_extractLsb'_eq_extractLsb', BitVec.extractLsb'_eq_self]

theorem encodeMove_moveFields (hM : wordField w 58 6 = major) : encodeMove major (moveFields w) = w := by
  rw [← hM]
  unfold encodeMove moveFields wordField
  simp (disch := decide) only [BitVec.extractLsb'_append_extractLsb'_eq_extractLsb', BitVec.extractLsb'_eq_self]

end


/-! The decoder layout by layout: what a MAJOR and MINOR spell with the fields of their layout. -/

/-- The MAJORs of the REG layout (06 R159). -/
def decodeReg (core : CoreId) (major : BitVec 6) (minor : BitVec 8) (f : RegF) : Option Instr :=
  match major.toNat with
  | 0x00 => decodeSalu core f minor.toNat
  | 0x10 => decodeVfp core f minor.toNat
  | 0x11 => decodeVint core f minor.toNat
  | 0x12 => decodeVcmp core f minor.toNat
  | 0x13 => decodeVred core f minor.toNat
  | 0x14 => decodeVcvt core f minor.toNat
  | 0x23 => decodeAcc core f minor.toNat
  | 0x24 => if minor.toNat = 0 then some (.plist core f) else none
  | 0x28 => if fnListed minor.toNat then some (.sfn core minor f) else none
  | 0x29 => if fnListed minor.toNat then some (.sfg core minor f) else none
  | 0x2A => decodeRstat core f minor.toNat
  | _ => none

/-- The MAJORs of the IMM layout (06 R160). -/
def decodeImm (core : CoreId) (major minor : BitVec 6) (f : ImmF) : Option Instr :=
  match major.toNat with
  | 0x01 => decodeSalui core f minor.toNat
  | 0x02 => if minor.toNat = 0 then some (.sethi core f) else none
  | 0x04 => decodeLd core f minor.toNat
  | 0x05 => decodeSt core f minor.toNat
  | 0x08 => decodeBr core f minor.toNat
  | 0x09 => if minor.toNat = 0 then some (.jal core f) else none
  | 0x0A => if minor.toNat = 0 then some (.jalr core f) else none
  | 0x31 => if minor.toNat = 0 then some (.mwait core f) else none
  | 0x38 => if minor.toNat = 0 then some (.badd core f) else none
  | 0x39 => if minor.toNat = 0 then some (.twait core f) else if minor.toNat = 1 then some (.rdtide core f) else none
  | 0x3A => if minor.toNat = 0 then some (.confirm core f) else none
  | 0x3C => decodeSys core f minor.toNat
  | 0x3D => decodeMon core f minor.toNat
  | _ => none

/-- The MAJORs whose layouts have no MINOR: VMEM, MMA and MOVE (06 R167, R171, R177). -/
def decodeLong (core : CoreId) (major : BitVec 6) (w : W64) : Option Instr :=
  match major.toNat with
  | 0x18 => some (.vld core (vmemFields w))
  | 0x19 => some (.vst core (vmemFields w))
  | 0x20 => some (.mma core (mmaFields w))
  | 0x21 => some (.mmaZ core (mmaFields w))
  | 0x30 => some (.move core (moveFields w))
  | _ => none

section
variable {major : BitVec 6}

theorem decodeCoreWord_of_reg {minor : BitVec 8} {f : RegF} (h : decodeReg id major minor f = some i) :
    decodeCoreWord id (encodeReg major minor f) = some i := by
  simp only [decodeCoreWord, major_encodeReg, minor_encodeReg, regFields_encodeReg]
  unfold decodeReg at h
  split at h
  case h_12 => cases h
  all_goals simp only [*]

theorem decodeCoreWord_of_imm {minor : BitVec 6} {f : ImmF} (h : decodeImm id major minor f = some i) :
    decodeCoreWord id (encodeImm major minor f) = some i := by
  simp only [decodeCoreWord, major_encodeImm, minor_encodeImm, immFields_encodeImm]
  unfold decodeImm at h
  split at h
  case h_14 => cases h
  all_goals simp only [*]

theorem decodeCoreWord_of_long (h : decodeLong id (wordField w 58 6) w = some i) : decodeCoreWord id w = some i := by
  simp only [decodeCoreWord]
  unfold decodeLong at h
  split at h
  case h_6 => cases h
  all_goals simp only [*]

/-- Each MAJOR has one layout. -/
theorem layout_of_decodeCoreWord (h : decodeCoreWord id w = some i) :
    decodeReg id (wordField w 58 6) (wordField w 26 8) (regFields w) = some i ∨
      decodeImm id (wordField w 58 6) (wordField w 34 6) (immFields w) = some i ∨
      decodeLong id (wordField w 58 6) w = some i := by
  simp only [decodeCoreWord] at h
  unfold decodeReg decodeImm decodeLong
  split at h
  all_goals simp_all only [true_or, or_true]

/-- The same MAJOR and MINOR give the same word. -/
theorem regWord_congr {M M' : BitVec 6} {m m' : BitVec 8} (hM : M'.toNat = M.toNat) (hm : m'.toNat = m.toNat) (f : RegF) :
    some (id, encodeReg M m f) = some (id, encodeReg M' m' f) := by rw [BitVec.eq_of_toNat_eq hM, BitVec.eq_of_toNat_eq hm]

theorem immWord_congr {M M' m m' : BitVec 6} (hM : M'.toNat = M.toNat) (hm : m'.toNat = m.toNat) (f : ImmF) :
    some (id, encodeImm M m f) = some (id, encodeImm M' m' f) := by rw [BitVec.eq_of_toNat_eq hM, BitVec.eq_of_toNat_eq hm]

theorem encodeCoreWord_of_reg {minor : BitVec 8} {f : RegF} (h : decodeReg id major minor f = some i) :
    encodeCoreWord i = some (id, encodeReg major minor f) := by
  unfold decodeReg decodeSalu decodeVfp decodeVint decodeVcmp decodeVred decodeVcvt decodeAcc decodeRstat at h
  split at h <;> rename_i hM
  case h_12 => cases h
  case h_9 | h_10 =>
    split at h
    case isTrue hl =>
      cases h
      rw [encodeCoreWord, if_pos hl]
      exact regWord_congr hM rfl f
    case isFalse => cases h
  all_goals
    split at h <;> rename_i hm <;> cases h
    all_goals exact regWord_congr hM hm f

theorem encodeCoreWord_of_imm {minor : BitVec 6} {f : ImmF} (h : decodeImm id major minor f = some i) :
    encodeCoreWord i = some (id, encodeImm major minor f) := by
  unfold decodeImm decodeSalui decodeLd decodeSt decodeBr decodeSys decodeMon at h
  split at h <;> rename_i hM
  case h_14 => cases h
  case h_10 =>
    split at h
    case isTrue hm =>
      cases h
      exact immWord_congr hM hm f
    case isFalse =>
      split at h <;> rename_i hm <;> cases h
      exact immWord_congr hM hm f
  all_goals
    split at h <;> rename_i hm <;> cases h
    all_goals exact immWord_congr hM hm f

theorem encodeCoreWord_of_long (h : decodeLong id (wordField w 58 6) w = some i) : encodeCoreWord i = some (id, w) := by
  unfold decodeLong at h
  split at h <;> rename_i hM <;> cases h
  case h_1 | h_2 => exact congrArg (fun x => some (id, x)) (encodeVmem_vmemFields (BitVec.eq_of_toNat_eq hM))
  case h_3 | h_4 => exact congrArg (fun x => some (id, x)) (encodeMma_mmaFields (BitVec.eq_of_toNat_eq hM))
  case h_5 => exact congrArg (fun x => some (id, x)) (encodeMove_moveFields (BitVec.eq_of_toNat_eq hM))

end

/-! Every instruction that has a word, and every word that has an instruction. -/

theorem decodeCoreWord_of_encodeCoreWord (h : encodeCoreWord i = some (id, w)) : decodeCoreWord id w = some i := by
  unfold encodeCoreWord at h
  split at h
  case h_137 => cases h
  case h_134 | h_135 =>
    split at h <;> rename_i hl <;> cases h
    exact decodeCoreWord_of_reg (if_pos hl)
  all_goals cases h
  case h_130 | h_131 =>
    apply decodeCoreWord_of_long
    rw [major_encodeVmem]
    simp [decodeLong, vmemFields_encodeVmem]
  case h_132 | h_133 =>
    apply decodeCoreWord_of_long
    rw [major_encodeMma]
    simp [decodeLong, mmaFields_encodeMma]
  case h_136 =>
    apply decodeCoreWord_of_long
    rw [major_encodeMove]
    simp [decodeLong, moveFields_encodeMove]
  -- the REG and IMM layouts, told apart by the word's own form
  all_goals first
    | with_reducible refine decodeCoreWord_of_reg ?_
    | with_reducible refine decodeCoreWord_of_imm ?_
  all_goals rfl

theorem encodeCoreWord_of_decodeCoreWord (h : decodeCoreWord id w = some i) : encodeCoreWord i = some (id, w) := by
  obtain h | h | h := layout_of_decodeCoreWord h
  · rw [encodeCoreWord_of_reg h, encodeReg_regFields rfl rfl]
  · rw [encodeCoreWord_of_imm h, encodeImm_immFields rfl rfl]
  · exact encodeCoreWord_of_long h

end Sys2Proof

open Sys2Proof

/-- Settles O56: each layout's fields are read back from the word that joins them, and joined again they are the word. -/
theorem coreWordsRoundTrip : Obligations.CoreWordsRoundTrip :=
  ⟨fun _ _ _ => decodeCoreWord_of_encodeCoreWord, fun _ _ _ => encodeCoreWord_of_decodeCoreWord⟩

/-- Settles O57: seven words are what their instructions encode to; MAJOR 0x03, MINOR 0x0E of MAJOR 0 and FN 0x02 of SFN are
reserved. -/
theorem coreWordsRead : Obligations.CoreWordsRead := fun id =>
  have read {w : W64} {i : Instr} (h : encodeCoreWord i = some (id, w)) : decodeCoreWord id w = some i :=
    decodeCoreWord_of_encodeCoreWord h
  ⟨read rfl, read rfl, read rfl, read rfl, read rfl, read rfl, read rfl, rfl, rfl, rfl⟩
end

section
/-! SUPPORT. An instruction that issues on shore and retires: what its effect begins from, and what is left to show of it (06 R162;
05 R124). -/

namespace Sys2Proof.Claims
open Sys2Proof.Machine

variable {s t : State} {id : CoreId} {i : Instr} {post : State → Prop} {may : Part → Prop}

/-- The state in which an issued instruction has its effect: its core has retired. -/
abbrev issued (s : State) (id : CoreId) : State := retire (updCore s id unwaiting) id

theorem issued_core (s : State) (id : CoreId) : (issued s id).core id = retired (s.core id) := retire_unwaiting_core s id

theorem issued_changes (s : State) (id : CoreId) : Changes s (issued s id) (also (coreParts id) nothing) :=
  changes_retire_updCore s id _

/-- Only RETIRED has changed among the register words. -/
theorem issued_rd {page off : Nat} (ho : off < 4096) (h : off ≠ 0x080 ∧ off ≠ 0x084) : (issued s id).rd page off = s.rd page off := by
  refine (issued_changes s id).rd_eq ho ?_
  simp only [also_iff, coreParts_iff, nothing_iff, reduceCtorEq, Part.reg.injEq, or_false, false_or]
  unfold regKey
  omega

/-- An instruction that touches no vector, slot, tile or row, and has neither fault nor wait, has its effect on the state in which it
has retired. -/
theorem issue_untouching {mn : String} {legal : Bool} {fault : State → Core → Option FaultRec}
    {block : State → Core → Option (Nat × List ConsKey)} {effect : Core → State → State} (hr : Ready s id) (hl : legal = true)
    (hx : fault s (s.core id) = none) (hk : block s (s.core id) = none) :
    issue mn id s legal fault noTouch block effect = finish (effect (s.core id) (issued s id)) := by
  obtain ⟨hid, hc, hf, hb⟩ := hr
  have hupd : updCore s id (fun c => { markSea (goSea c []) (noTouch c) with wait := 0, waitOn := [] }) = updCore s id unwaiting := by
    simp only [updCore, goSea_nil, noTouch, markSea_empty]
    rfl
  rw [issue_next hid hc hf hb hl hx (by simp [noTouch]) (scoreboardHolds_empty _ false) hk, hupd]
  rfl

/-- An instruction that is ready and legal, on shore, with neither fault nor wait, has its effect too, whatever it touches. -/
theorem issue_shore {mn : String} {legal : Bool} {fault : State → Core → Option FaultRec} {touch : Core → Touch}
    {block : State → Core → Option (Nat × List ConsKey)} {effect : Core → State → State}
    {sea : State → Core → List (ConsKey × Nat)}
    (hr : Ready s id) (hh : (s.core id).hold = []) (hl : legal = true) (hx : fault s (s.core id) = none)
    (hb : scoreboardHolds (s.core id) (touch (s.core id)) = false) (hk : block s (s.core id) = none) (hs : sea s (s.core id) = []) :
    issue mn id s legal fault touch block effect sea = finish (effect (s.core id) (issued s id)) := by
  obtain ⟨hid, hc, hf, hn⟩ := hr
  have hq : quayWaits (goSea (s.core id) (sea s (s.core id))) (touch (s.core id)) = false := by
    rw [hs, goSea_nil, quayWaits_shore hh]
  have hupd : updCore s id (fun c => { markSea (goSea c (sea s c)) (touch c) with wait := 0, waitOn := [] }) = updCore s id unwaiting := by
    simp only [updCore, hs, goSea_nil, markSea_shore hh]
    rfl
  rw [issue_next hid hc hf hn hl hx hq hb hk, hupd]
  rfl

/-- The effect of an instruction that retires: what it changes, that it leaves RETIRED alone, and what then holds. -/
theorem retires_effect (he : exec i s = finish t) (hc : Changes (issued s id) t (also (coreParts id) may))
    (hret : t.rd64 (corePage id) 0x080 = (issued s id).rd64 (corePage id) 0x080) (hp : post (signal t)) : Retires i id s may post :=
  completes_finish he (by simp) (((issued_changes s id).mono (fun _ h => h.imp_right False.elim)).trans hc)
    ⟨by rw [signal_rd64, hret, retire_unwaiting_retired], hp⟩

/-- An effect on the core alone is right once the core is. -/
theorem retires_updCore {g : Core → Core} (he : exec i s = finish (updCore (issued s id) id g))
    (hp : ∀ t, t.core id = g (retired (s.core id)) → post t) : Retires i id s nothing post := by
  refine retires_effect he ?_ rfl (hp _ ?_)
  · rw [changes_updCore (by simp)]
    exact Changes.refl _ _
  · rw [signal_core, updCore_core, issued_core]

/-- No effect but to retire. -/
theorem retires_issued (he : exec i s = finish (issued s id)) :
    Retires i id s nothing (fun t => t.core id = retired (s.core id)) :=
  retires_effect he (Changes.refl _ _) rfl ((signal_core ..).trans (issued_core s id))

end Sys2Proof.Claims
end

section
/-! SUPPORT. Scalar arithmetic (06 R164; 05 R133): the model's operations are those of the rows. -/

namespace Sys2Proof.Machine

variable (x y : W64)

theorem aluMin_eq : aluMin x y = if x.slt y then x else y := by
  rw [aluMin, BitVec.slt_eq_decide]
  by_cases h : x.toInt = y.toInt
  · simp [BitVec.eq_of_toInt_eq h]
  · simp [Int.lt_iff_le_and_ne, h]

theorem aluMax_eq : aluMax x y = if x.slt y then y else x := by
  rw [aluMax, BitVec.slt_eq_decide]
  by_cases h : x.toInt = y.toInt
  · simp [BitVec.eq_of_toInt_eq h]
  · simp [Int.lt_iff_le_and_ne, h]

theorem aluMinu_eq : aluMinu x y = if x.ult y then x else y := by
  rw [aluMinu, BitVec.ult_eq_decide]
  by_cases h : x.toNat = y.toNat
  · simp [BitVec.eq_of_toNat_eq h]
  · simp [Nat.lt_iff_le_and_ne, h]

theorem aluMaxu_eq : aluMaxu x y = if x.ult y then y else x := by
  rw [aluMaxu, BitVec.ult_eq_decide]
  by_cases h : x.toNat = y.toNat
  · simp [BitVec.eq_of_toNat_eq h]
  · simp [Nat.lt_iff_le_and_ne, h]

/-- The upper half of the signed product: the product of the extended operands, 64 bits down. -/
theorem aluMulh_eq : aluMulh x y = ((x.signExtend 128 * y.signExtend 128) >>> 64).setWidth 64 := by
  have hp : ((x.signExtend 128 * y.signExtend 128).toNat : Int) = x.toInt * y.toInt % 2 ^ 128 := by
    have h : x.signExtend 128 * y.signExtend 128 = BitVec.ofInt 128 (x.toInt * y.toInt) := by
      rw [BitVec.ofInt_mul]
      rfl
    rw [h, BitVec.toNat_ofInt]
    omega
  apply BitVec.eq_of_toNat_eq
  rw [aluMulh, BitVec.toNat_ofInt, BitVec.toNat_setWidth, BitVec.toNat_ushiftRight, Nat.shiftRight_eq_div_pow]
  omega

theorem aluMulhu_eq : aluMulhu x y = ((x.setWidth 128 * y.setWidth 128) >>> 64).setWidth 64 := by
  have hx := x.isLt
  have hy := y.isLt
  have hp : x.toNat * y.toNat < 2 ^ 64 * 2 ^ 64 := Nat.mul_lt_mul'' hx hy
  apply BitVec.eq_of_toNat_eq
  rw [aluMulhu, BitVec.toNat_ofNat, BitVec.toNat_setWidth, BitVec.toNat_ushiftRight, Nat.shiftRight_eq_div_pow, BitVec.toNat_mul,
    BitVec.toNat_setWidth_of_le (by decide), BitVec.toNat_setWidth_of_le (by decide)]
  omega

theorem aluDiv_eq : aluDiv x y = if y = 0 then -1 else x.sdiv y := by
  unfold aluDiv
  split
  · decide
  · apply BitVec.eq_of_toInt_eq
    rw [BitVec.toInt_ofInt, BitVec.toInt_sdiv]

theorem aluDivu_eq : aluDivu x y = if y = 0 then -1 else x / y := by
  unfold aluDivu
  split
  · decide
  · exact BitVec.eq_of_toNat_eq (by simp [Nat.mod_eq_of_lt (Nat.lt_of_le_of_lt (Nat.div_le_self ..) x.isLt)])

theorem aluRem_eq : aluRem x y = if y = 0 then x else x.srem y := by
  unfold aluRem
  split
  · rfl
  · rw [← BitVec.toInt_srem, BitVec.ofInt_toInt]

theorem aluRemu_eq : aluRemu x y = if y = 0 then x else x % y := by
  unfold aluRemu
  split
  · rfl
  · rw [← BitVec.toNat_umod, BitVec.ofNat_toNat, BitVec.setWidth_eq]

/-- An immediate below 64 is its own shift amount. -/
theorem toNat_sext32 {imm : BitVec 32} (h : imm.toNat < 2 ^ 31) : (sext32 imm).toNat = imm.toNat := by
  rw [sext32, BitVec.toNat_signExtend, BitVec.toNat_setWidth_of_le (by decide), if_neg, Nat.add_zero]
  simp [BitVec.msb_eq_decide]
  omega

theorem sethiValue_eq (imm : BitVec 32) : sethiValue x imm = (imm.signExtend 64).setWidth 32 ++ x.setWidth 32 := by
  have hlow : (imm.signExtend 64).setWidth 32 = imm := by
    ext k hk
    simp [BitVec.getElem_signExtend, hk, show k < 64 by omega]
  rw [sethiValue, hlow]
  generalize x.setWidth 32 = lo
  have hx := lo.isLt
  have hi := imm.isLt
  apply BitVec.eq_of_toNat_eq
  rw [ BitVec.toNat_append, ← Nat.shiftLeft_add_eq_or_of_lt hx, BitVec.toNat_add, BitVec.toNat_shiftLeft,
    BitVec.toNat_setWidth_of_le (by decide), BitVec.toNat_setWidth_of_le (by decide), Nat.shiftLeft_eq]
  omega

end Sys2Proof.Machine
end

section
/-! SUPPORT. The scalar instructions on registers and on immediates (06 R164): one lemma per form, and one line per operation. -/

namespace Sys2Proof.Claims
open Sys2Proof.Machine

variable {s : State} {id : CoreId} {i : Instr} {f : RegF} {g : ImmF} {mn : String} {op : W64 → W64 → W64} {v : W64}

theorem regScalarLegal_iff : regScalarLegal f = true ↔ ScalarWord f := by simp [regScalarLegal, isS, and_assoc]

theorem immScalarLegal_iff : immScalarLegal g = true ↔ ImmWord g := by simp [immScalarLegal, isS, and_assoc]

/-- A register form whose operation gives `v` puts it into sD. -/
theorem retires_scalarReg (he : exec i s = scalarReg mn op id f s) (hr : Ready s id) (hw : ScalarWord f)
    (hv : op ((s.core id).s f.a.toNat) ((s.core id).s f.b.toNat) = v) :
    Retires i id s nothing (fun t => t.core id = (retired (s.core id)).setS f.d.toNat v) := by
  refine retires_updCore (g := fun k => k.setS f.d.toNat v) ?_ (fun _ h => h)
  rw [he, scalarReg, issue_touchless hr (regScalarLegal_iff.2 hw) rfl, hv]
  rfl

/-- An immediate form that gives `v` puts it into sD. -/
theorem retires_immValue {legal : Bool} {val : Core → W64}
    (he : exec i s = issue mn id s legal noFault noTouch noBlock (fun c t => updCore t id (fun k => k.setS g.d.toNat (val c))))
    (hr : Ready s id) (hl : legal = true) (hv : val (s.core id) = v) :
    Retires i id s nothing (fun t => t.core id = (retired (s.core id)).setS g.d.toNat v) := by
  refine retires_updCore (g := fun k => k.setS g.d.toNat v) ?_ (fun _ h => h)
  rw [he, issue_touchless hr hl rfl, hv]
  rfl

theorem retires_scalarImm (he : exec i s = scalarImm mn op id g s) (hr : Ready s id) (hw : ImmWord g)
    (hv : op ((s.core id).s g.a.toNat) (g.imm.signExtend 64) = v) :
    Retires i id s nothing (fun t => t.core id = (retired (s.core id)).setS g.d.toNat v) :=
  retires_immValue (val := fun c => op (c.s g.a.toNat) (sext32 g.imm)) he hr (immScalarLegal_iff.2 hw) hv

/-- An immediate shift takes an amount below 64, which needs no reduction. -/
theorem retires_shiftImm (he : exec i s = shiftImm mn op id g s) (hi : g.imm.toNat < 64) (hr : Ready s id) (hw : ImmWord g)
    (hv : (g.imm.signExtend 64).toNat % 64 = (g.imm.signExtend 64).toNat →
      op ((s.core id).s g.a.toNat) (g.imm.signExtend 64) = v) :
    Retires i id s nothing (fun t => t.core id = (retired (s.core id)).setS g.d.toNat v) := by
  have hlt : (g.imm.signExtend 64).toNat = g.imm.toNat := toNat_sext32 (by omega)
  refine retires_immValue (val := fun c => op (c.s g.a.toNat) (sext32 g.imm)) he hr ?_ (hv (Nat.mod_eq_of_lt (by omega)))
  rw [immScalarLegal_iff.2 hw, Bool.true_and, decide_eq_true hi]

theorem scalarRegisterResults : claimScalarRegisterResults := by
  intro i id f op s hrow hr hw
  cases hrow with
  | add | sub | and | or | xor | shl | shr | sra | slt | sltu | mul => exact retires_scalarReg rfl hr hw rfl
  | min => exact retires_scalarReg rfl hr hw (aluMin_eq ..)
  | minu => exact retires_scalarReg rfl hr hw (aluMinu_eq ..)
  | max => exact retires_scalarReg rfl hr hw (aluMax_eq ..)
  | maxu => exact retires_scalarReg rfl hr hw (aluMaxu_eq ..)
  | mulh => exact retires_scalarReg rfl hr hw (aluMulh_eq ..)
  | mulhu => exact retires_scalarReg rfl hr hw (aluMulhu_eq ..)
  | div => exact retires_scalarReg rfl hr hw (aluDiv_eq ..)
  | divu => exact retires_scalarReg rfl hr hw (aluDivu_eq ..)
  | rem => exact retires_scalarReg rfl hr hw (aluRem_eq ..)
  | remu => exact retires_scalarReg rfl hr hw (aluRemu_eq ..)

theorem scalarImmediateResults : claimScalarImmediateResults := by
  intro i id g op s hrow hr hw
  cases hrow with
  | addi | subi | andi | ori | xori | slti | sltui => exact retires_scalarImm rfl hr hw rfl
  | shli _ _ hi => exact retires_shiftImm rfl hi hr hw (fun h => congrArg (_ <<< ·) h)
  | shri _ _ hi => exact retires_shiftImm rfl hi hr hw (fun h => congrArg (_ >>> ·) h)
  | srai _ _ hi => exact retires_shiftImm rfl hi hr hw (fun h => congrArg (BitVec.sshiftRight _) h)
  | mini => exact retires_scalarImm rfl hr hw (aluMin_eq ..)
  | minui => exact retires_scalarImm rfl hr hw (aluMinu_eq ..)
  | maxi => exact retires_scalarImm rfl hr hw (aluMax_eq ..)
  | maxui => exact retires_scalarImm rfl hr hw (aluMaxu_eq ..)
  | sethi => exact retires_immValue (val := fun c => sethiValue (c.s g.a.toNat) g.imm) rfl hr (immScalarLegal_iff.2 hw) (sethiValue_eq ..)

end Sys2Proof.Claims

open Sys2Proof Sys2Proof.Machine Sys2Proof.Claims

/-- Settles O1: each operation is its row's, and its result goes into sD of a core that has retired. -/
theorem scalarResults : Obligations.ScalarResults := ⟨scalarRegisterResults, scalarImmediateResults⟩
end

section
/-! SUPPORT. Branches and jumps (06 R165; 05 R124). -/

namespace Sys2Proof.Claims
open Sys2Proof.Machine

variable {s : State} {id : CoreId} {i : Instr} {f : ImmF} {mn : String} {cond : W64 → W64 → Bool} {b : Bool}

theorem storeLegal_iff : storeLegal f = true ↔ SourceWord f := by
  simp [storeLegal, isS, and_assoc, SourceWord]

theorem sle_eq_not_slt (x y : W64) : decide (y.toInt ≤ x.toInt) = !x.slt y := by simp [BitVec.slt_eq_decide, ← decide_not]

theorem ule_eq_not_ult (x y : W64) : decide (y.toNat ≤ x.toNat) = !x.ult y := by simp [BitVec.ult_eq_decide, ← decide_not]

/-- A branch is taken by the relation of its registers alone. -/
theorem retires_branch (he : exec i s = branch mn cond id f s) (hr : Ready s id) (hw : SourceWord f)
    (hc : cond ((s.core id).s f.a.toNat) ((s.core id).s f.b.toNat) = b) :
    Retires i id s nothing (fun t => t.core id = { retired (s.core id) with
      pc := if b then (s.core id).pc + f.imm.signExtend 64 * 8 else (s.core id).pc + 8 }) := by
  cases b with
  | true =>
    refine retires_updCore (g := fun k => { k with pc := branchTarget (s.core id).pc f.imm }) ?_ (fun _ h => h)
    rw [he, branch, issue_touchless hr (storeLegal_iff.2 hw) rfl]
    exact congrArg finish (if_pos hc)
  | false =>
    refine retires_issued ?_
    rw [he, branch, issue_touchless hr (storeLegal_iff.2 hw) rfl]
    exact congrArg finish (if_neg (ne_true_of_eq_false hc))

theorem branchResults : claimBranchResults := by
  intro i id f rel s hrow hr hw
  cases hrow with
  | beq => exact retires_branch (cond := fun x y => x == y) rfl hr hw rfl
  | bne => exact retires_branch (cond := fun x y => x != y) rfl hr hw rfl
  | blt => exact retires_branch (cond := fun x y => decide (x.toInt < y.toInt)) rfl hr hw rfl
  | bge => exact retires_branch (cond := fun x y => decide (y.toInt ≤ x.toInt)) rfl hr hw (sle_eq_not_slt ..)
  | bltu => exact retires_branch (cond := fun x y => decide (x.toNat < y.toNat)) rfl hr hw rfl
  | bgeu => exact retires_branch (cond := fun x y => decide (y.toNat ≤ x.toNat)) rfl hr hw (ule_eq_not_ult ..)

theorem jal_retires (hr : Ready s id) (hd : f.d.toNat < 32) (ha : f.a = 0) (hb : f.b = 0) (hv : f.rsv = 0) :
    Retires (.jal id f) id s nothing (fun t => t.core id = { (retired (s.core id)).setS f.d.toNat ((s.core id).pc + 8) with
      pc := (s.core id).pc + f.imm.signExtend 64 * 8 }) := by
  refine retires_updCore (g := fun k =>
    { k.setS f.d.toNat ((s.core id).pc + 8) with pc := branchTarget (s.core id).pc f.imm }) ?_ (fun _ h => h)
  show execJal id f s = _
  rw [execJal, issue_touchless hr (by simp [isS, hd, ha, hb, hv]) rfl]
  rfl

theorem jalr_retires (hr : Ready s id) (hw : ImmWord f) (hal : (address (s.core id) f).toNat % 8 = 0) :
    Retires (.jalr id f) id s nothing (fun t => t.core id = { (retired (s.core id)).setS f.d.toNat ((s.core id).pc + 8) with
      pc := address (s.core id) f }) := by
  refine retires_updCore (g := fun k =>
    { k.setS f.d.toNat ((s.core id).pc + 8) with pc := address (s.core id) f }) ?_ (fun _ h => h)
  show execJalr id f s = _
  rw [execJalr, issue_touchless hr (immScalarLegal_iff.2 hw) (if_neg (not_not.2 hal))]
  rfl

/-- A fault found at issue on shore is taken at PC. -/
theorem issue_faults {legal : Bool} {fault : State → Core → Option FaultRec} {touch : Core → Touch}
    {block : State → Core → Option (Nat × List ConsKey)} {effect : Core → State → State}
    {sea : State → Core → List (ConsKey × Nat)}
    {keep : State → Core → Bool} {r : FaultRec} (hr : Ready s id) (hh : (s.core id).hold = []) (hl : legal = true)
    (hx : fault s (s.core id) = some r) :
    issue mn id s legal fault touch block effect sea keep = .next (signal (takeFault s id (s.core id).pc r false)) := by
  obtain ⟨hid, hc, hf, hb⟩ := hr
  rw [issue_fault hid hc hf hb hl hx, faultAt, if_neg (by simp [Core.atSea, hh])]
  rfl

theorem jumpResults : claimJumpResults := by
  refine ⟨fun id f s => jal_retires, fun id f s => jalr_retires, fun id f s hr hw hh hal => ?_⟩
  show execJalr id f s = _
  rw [execJalr]
  exact issue_faults hr hh (immScalarLegal_iff.2 hw) (if_pos hal)

end Sys2Proof.Claims

open Sys2Proof Sys2Proof.Machine Sys2Proof.Claims

/-- Settles O3: a branch by its relation, a jump by its target, and a misaligned JALR by its fault. -/
theorem controlFlowResults : Obligations.ControlFlowResults := ⟨branchResults, jumpResults⟩
end

section
/-! SUPPORT. System instructions (06 R179; 05 R125, R131, R141, R143, R148). -/

namespace Sys2Proof.Claims
open Sys2Proof.Machine

variable {s : State} {id : CoreId} {f : ImmF}

theorem bareLegal_iff : (immOnly f false false false && f.imm == 0) = true ↔ BareWord f := by
  rw [Bool.and_eq_true, immOnly_iff, beq_iff_eq]
  simp [and_assoc, BareWord]

theorem drained_none (hm : (s.core id).moves = []) : drained s (s.core id) = none := by simp [drained, hm]

theorem flagsSettled_none (hm : (s.core id).moves = []) : flagsSettled s (s.core id) = none := by simp [flagsSettled, hm]

theorem confirm_retires (hr : Ready s id) (hh : (s.core id).hold = []) (hw : BareWord f) :
    Retires (.confirm id f) id s nothing (fun t => t.core id = retired (s.core id)) := by
  refine retires_issued ?_
  show execConfirm id f s = _
  rw [execConfirm, issue_shore hr hh (bareLegal_iff.2 hw) rfl (scoreboardHolds_empty _ true) rfl rfl]

theorem fence_retires (hr : Ready s id) (hm : (s.core id).moves = []) (hw : BareWord f) :
    Retires (.fence id f) id s nothing (fun t => t.core id = retired (s.core id)) := by
  refine retires_issued ?_
  show execFence id f s = _
  rw [execFence, issue_untouching hr (bareLegal_iff.2 hw) rfl (drained_none hm)]

theorem synci_retires (hr : Ready s id) (hm : (s.core id).moves = []) (hw : BareWord f) :
    Retires (.synci id f) id s nothing (fun t => t.core id = { retired (s.core id) with fetchq := [] }) := by
  refine retires_updCore (g := fun k => { k with fetchq := [] }) ?_ (fun _ h => h)
  show execSynci id f s = _
  rw [execSynci, issue_untouching hr (bareLegal_iff.2 hw) rfl (drained_none hm)]

theorem rdfl_retires (hr : Ready s id) (hh : (s.core id).hold = []) (hm : (s.core id).moves = [])
    (hl : (immOnly f true false false && f.imm == 0) = true) :
    Retires (.rdfl id f) id s nothing (fun t =>
      t.core id = (retired (s.core id)).setS f.d.toNat ((s.core id).aflags.setWidth 64)) := by
  refine retires_updCore (g := fun k => k.setS f.d.toNat (k.aflags.setWidth 64)) ?_ (fun _ h => h)
  show execRdfl id f s = _
  rw [execRdfl, issue_shore hr hh hl rfl (scoreboardHolds_empty _ true) (flagsSettled_none hm) rfl]

theorem wrfl_retires (hr : Ready s id) (hh : (s.core id).hold = []) (hm : (s.core id).moves = [])
    (hl : (immOnly f false true false && f.imm == 0) = true) :
    Retires (.wrfl id f) id s nothing (fun t =>
      t.core id = { retired (s.core id) with aflags := ((s.core id).s f.a.toNat).setWidth 32 &&& 0xFF }) := by
  refine retires_updCore (g := fun k => { k with aflags := ((s.core id).s f.a.toNat).setWidth 32 &&& aflagsMask }) ?_ (fun _ h => h)
  show execWrfl id f s = _
  rw [execWrfl, issue_shore hr hh hl rfl (scoreboardHolds_empty _ true) (flagsSettled_none hm) rfl]

theorem synchronisationResults : claimSynchronisationResults := by
  refine ⟨fun id f s => confirm_retires, fun id f s => fence_retires, fun id f s => synci_retires, ?_, ?_⟩
  · intro id f s hr hh hm hd ha hb hv hi
    exact rdfl_retires hr hh hm (by rw [Bool.and_eq_true, immOnly_iff, beq_iff_eq]; exact ⟨⟨hd, ha, hb, hv⟩, hi⟩)
  · intro id f s hr hh hm hd ha hb hv hi
    exact wrfl_retires hr hh hm (by rw [Bool.and_eq_true, immOnly_iff, beq_iff_eq]; exact ⟨⟨hd, ha, hb, hv⟩, hi⟩)

/-! R148: an event of the core's page. -/

section
variable {i : Instr} {t : State} {bit : Nat} {may : Part → Prop} {post : State → Prop}

/-- An effect that ends with an event of the core's page is right if what comes before the event is. -/
theorem retires_raise (he : exec i s = finish (raise t (corePage id) bit 0)) (hm : ∀ p, eventParts (corePage id) p → may p)
    (hc : Changes (issued s id) t (also (coreParts id) may))
    (hret : t.rd64 (corePage id) 0x080 = (issued s id).rd64 (corePage id) 0x080)
    (hp : post (signal (raise t (corePage id) bit 0))) : Retires i id s may post := by
  refine retires_effect he ?_ ?_ hp
  · exact (changes_raise (fun x hx => .inr (hm x (eventParts_of_mem hx))) (.inr (hm _ (by simp)))).2 hc
  · rw [← hret, State.rd64, State.rd64, rd_raise, rd_raise, rd_setEvt_other _ (by decide) (.inr (by decide)),
      rd_setEvt_other _ (by decide) (.inr (by decide))]

theorem signal_raise_core (t : State) (page bit : Nat) : (signal (raise t page bit 0)).core id = t.core id := by
  rw [signal_core]
  exact core_eq_of_changes (raise_changes t page bit 0) (by simp)

/-- The event is set in the page as it was before the instruction. -/
theorem eventSet_signal_raise (h : t.rd (corePage id) 0x010 = s.rd (corePage id) 0x010) :
    EventSet s (signal (raise t (corePage id) bit 0)) (corePage id) bit := by
  have hset := eventSet_raise t (corePage id) bit 0
  rw [EventSet, h] at hset
  rw [EventSet, signal_rd, hset]

end

theorem halt_retires (hr : Ready s id) (hh : (s.core id).hold = []) (hm : (s.core id).moves = []) (hw : BareWord f) :
    Retires (.halt id f) id s (eventParts (corePage id)) (fun t =>
      t.core id = { retired (s.core id) with state := .stopped } ∧ EventSet s t (corePage id) 0) := by
  refine retires_raise (t := updCore (issued s id) id (fun k => { k with state := .stopped })) (bit := 0) ?_ (fun _ h => h) ?_ rfl ⟨?_, ?_⟩
  · show execHalt id f s = _
    rw [execHalt, issue_shore hr hh (bareLegal_iff.2 hw) rfl (scoreboardHolds_empty _ true) (drained_none hm) rfl]
  · exact (changes_updCore (by simp)).2 (Changes.refl _ _)
  · rw [signal_raise_core, updCore_core, issued_core]
  · exact eventSet_signal_raise (issued_rd (by decide) (by decide))

theorem signal_retires (hr : Ready s id) (hh : (s.core id).hold = []) (hm : (s.core id).moves = [])
    (hl : (immOnly f false false false && f.imm.toNat < 2 ^ 16) = true) :
    Retires (.signal id f) id s (also (parts [.reg (regKey (corePage id) 0x070)]) (eventParts (corePage id))) (fun t =>
      t.core id = retired (s.core id) ∧ EventSet s t (corePage id) 3 ∧ t.rd (corePage id) 0x070 = f.imm) := by
  have hkey {o : Nat} (ho : o ≠ 0x070) : regKey (corePage id) o ≠ regKey (corePage id) 0x070 := regKey_ne ho
  refine retires_raise (t := (issued s id).wrN (corePage id) 0x070 f.imm.toNat) (bit := 3) ?_ (fun _ h => .inr h) ?_ ?_ ⟨?_, ?_, ?_⟩
  · show execSignal id f s = _
    rw [execSignal, issue_shore hr hh hl rfl (scoreboardHolds_empty _ true) (drained_none hm) rfl]
  · exact (changes_wrN (by simp)).2 (Changes.refl _ _)
  · exact rd64_wr_other _ _ (by decide) (by decide)
  · rw [signal_raise_core, core_wrN, issued_core]
  · exact eventSet_signal_raise ((rd_wr_other _ _ (hkey (by decide))).trans (issued_rd (by decide) (by decide)))
  · rw [signal_rd, rd_raise, rd_setEvt_other _ (by decide) (.inr (by decide)), rd_wrN_same, BitVec.ofNat_toNat, BitVec.setWidth_eq]

theorem haltAndSignal : claimHaltAndSignal := by
  refine ⟨fun id f s => halt_retires, fun id f s hr hh hm hd ha hb hv hi => signal_retires hr hh hm ?_⟩
  rw [Bool.and_eq_true, immOnly_iff, decide_eq_true_eq]
  exact ⟨⟨hd, ha, hb, hv⟩, hi⟩

end Sys2Proof.Claims

open Sys2Proof Sys2Proof.Machine Sys2Proof.Claims

/-- Settles O17: the synchronising instructions by what they wait for, HALT and SIGNAL by their event. -/
theorem systemResults : Obligations.SystemResults := ⟨synchronisationResults, haltAndSignal⟩
end

section
/-! SUPPORT. The monitor's instructions (05 R151; 06 R180). -/

namespace Sys2Proof.Claims
open Sys2Proof.Machine

variable {s : State} {id : CoreId} {f : ImmF} {i : Instr}

/-- In MONITOR a monitor instruction has its effect. -/
theorem monIssue_runs {mn : String} {legal : Bool} {effect : State → State} (hm : MonitorRuns s id) (hl : legal = true) :
    monIssue mn id legal effect s = finish (effect s) := by
  obtain ⟨hid, hrun, hp, hst⟩ := hm
  simp [monIssue, hid, hrun, hp, hst, hl]

/-- On a core that issues instructions a monitor instruction faults. -/
theorem monIssue_faults {mn : String} {legal : Bool} {effect : State → State} (hr : Ready s id) (hh : (s.core id).hold = [])
    (hl : legal = true) :
    monIssue mn id legal effect s = .next (signal (takeFault s id (s.core id).pc { code := 0x1005 } false)) := by
  have hst : (s.core id).state ≠ .monitor := by
    have hc := hr.2.1
    intro h
    simp [canIssue, h] at hc
  have hid := hr.1
  have hi := issue_faults (mn := mn) (fault := fun _ _ => some { code := 0x1005 }) (touch := noTouch) (block := noBlock)
    (effect := fun _ t => t) (sea := fun _ _ => []) (keep := fun _ _ => false) hr hh hl rfl
  rw [monIssue, hid, decide_eq_false hst, ← hi]
  rfl

theorem mret_runs {x : CoreState} (hm : MonitorRuns s id) (hw : BareWord f)
    (hx : coreStateOf (s.get ⟨corePage id, 0x00C, 0, 3⟩) = some x) :
    Completes (.mret id f) s (parts [.core id.toNat, .signals]) (fun t => t.core id = { s.core id with state := x }) := by
  have he : exec (.mret id f) s = finish (updCore s id (fun c => { c with state := x })) := by
    show execMret id f s = _
    rw [execMret, monIssue_runs hm (bareLegal_iff.2 hw), leaveMonitor, hx]
  refine completes_finish he (by simp) ?_ ?_
  · exact (changes_updCore (by simp)).2 (Changes.refl _ _)
  · rw [signal_core, updCore_core]

theorem mcsrLegal (hd : f.d.toNat < 32) (ha : f.a.toNat < 32) (hb : f.b.toNat ≤ 1) (hv : f.rsv = 0) :
    (isS f.d && isS f.a && f.b.toNat ≤ 1 && f.rsv == 0) = true := by simp [isS, hd, ha, hb, hv]

theorem toNat_sext32_of_lt (h : f.imm.toNat < 4096) : (sext32 f.imm).toNat = f.imm.toNat := toNat_sext32 (by omega)

theorem mcsr_reads (hm : MonitorRuns s id) (hd : f.d.toNat < 32) (ha : f.a.toNat < 32) (hb : f.b = 0) (hv : f.rsv = 0)
    (hlt : f.imm.toNat < 4096) (h4 : f.imm.toNat % 4 = 0) (hrow : (rowAt (corePage id) f.imm.toNat).isSome = true) :
    Completes (.mcsr id f) s (parts [.core id.toNat, .signals]) (fun t =>
      t.core id = (s.core id).setMon f.d.toNat ((coreWord s id f.imm.toNat).setWidth 64)) := by
  have he : exec (.mcsr id f) s =
      finish (updCore s id (fun c => c.setMon f.d.toNat ((coreWord s id f.imm.toNat).setWidth 64))) := by
    show execMcsr id f s = _
    rw [execMcsr, monIssue_runs hm (mcsrLegal hd ha (by simp [hb]) hv)]
    simp [monCsr, toNat_sext32_of_lt hlt, hlt, h4, hrow, hb]
  refine completes_finish he (by simp) ?_ ?_
  · exact (changes_updCore (by simp)).2 (Changes.refl _ _)
  · rw [signal_core, updCore_core]

/-- The cores' pages come after the 22 other kinds. -/
theorem pageAt_corePage (h : coreOk id = true) : pageAt (corePage id) = some (.core, id.toNat) := by
  have hid := id.isLt
  have hok : id.toNat % 64 < 48 := by simpa [coreOk] using h
  have below {lo hi : Nat} (h : hi ≤ 0x1000) : ¬ (decide (lo ≤ 0x1000 + id.toNat) && decide (0x1000 + id.toNat < hi)) = true := by
    simp
    omega
  rw [corePage, pgCore, pageAt]
  iterate 9 rw [if_neg (by omega)]
  iterate 2 rw [if_neg (below (by decide))]
  rw [if_neg (by omega)]
  iterate 3 rw [if_neg (below (by decide))]
  iterate 4 rw [if_neg (by omega)]
  iterate 3 rw [if_neg (below (by decide))]
  rw [if_pos (by simp; omega), Nat.add_sub_cancel_left, if_pos hok]

/-- AFLAGS is a register of the core's page. -/
theorem rowAt_aflags (h : coreOk id = true) : (rowAt (corePage id) 0x06C).isSome = true := by
  rw [rowAt_block (pageAt_corePage h) (by decide)]
  decide

theorem mcsr_aflags (hm : MonitorRuns s id) (hd : f.d.toNat < 32) (ha : f.a.toNat < 32) (hb : f.b = 1) (hv : f.rsv = 0)
    (hi : f.imm.toNat = 0x06C) :
    Completes (.mcsr id f) s (parts [.core id.toNat, .signals]) (fun t =>
      t.core id = { (s.core id).setMon f.d.toNat ((s.core id).aflags.setWidth 64) with
        aflags := ((s.core id).mon f.a.toNat).setWidth 32 &&& 0xFF }) := by
  have he : exec (.mcsr id f) s =
      finish (updCore (updCore s id (fun c => c.setMon f.d.toNat ((s.core id).aflags.setWidth 64))) id
        (fun c => { c with aflags := ((s.core id).mon f.a.toNat).setWidth 32 &&& aflagsMask })) := by
    show execMcsr id f s = _
    rw [execMcsr, monIssue_runs hm (mcsrLegal hd ha (by simp [hb]) hv)]
    simp [monCsr, toNat_sext32_of_lt (by omega : f.imm.toNat < 4096), hi, rowAt_aflags hm.1, hb, monWrite, coreWord]
  refine completes_finish he (by simp) ?_ ?_
  · rw [changes_updCore (by simp), changes_updCore (by simp)]
    exact Changes.refl _ _
  · rw [signal_core, updCore_core, updCore_core]
    rfl

/-- The two halves of a word are the word. -/
theorem half_append (v : W64) : half v true ++ half v false = v := by
  apply BitVec.eq_of_getLsbD_eq
  intro k hk
  simp only [half, if_true, if_false, Bool.false_eq_true]
  rw [BitVec.getLsbD_append]
  by_cases h : k < 32
  · simp [h]
  · simp [h, show k - 32 < 32 by omega, show 32 + (k - 32) = k by omega]

theorem logAdd_room {e : LogEntry} (h : queuedOf s e.source.toNat < 64) :
    logAdd s e = { s with log := { s.log with queue := s.log.queue ++ [e] } } := if_pos h

theorem source_corePage (id : CoreId) : (BitVec.ofNat 14 (corePage id)).toNat = corePage id := by
  have hid := id.isLt
  rw [BitVec.toNat_ofNat, Nat.mod_eq_of_lt (by simp only [corePage, pgCore]; omega)]

theorem mlog_records (hm : MonitorRuns s id) (hl : (immOnly f true true true && f.imm == 0) = true)
    (hq : queuedOf s (corePage id) < 64) :
    Completes (.mlog id f) s (parts [.log, .signals]) (fun t =>
      ∃ e, t.log = { s.log with queue := s.log.queue ++ [e] } ∧
        e.code = ((s.core id).mon f.a.toNat).setWidth 16 ∧ e.source = BitVec.ofNat 14 (corePage id) ∧ e.kind = 1 ∧
        e.tide = s.stamp ∧ e.d1 ++ e.d0 = (s.core id).mon f.b.toNat ∧ e.d3 ++ e.d2 = (s.core id).mon f.d.toNat) := by
  have he : exec (.mlog id f) s = finish (monLog id f s) := by
    show execMlog id f s = _
    rw [execMlog, monIssue_runs hm hl]
  refine completes_finish he (by simp) ((changes_logAdd (by simp)).2 (Changes.refl _ _)) ⟨logEntry s (corePage id) 1
    (((s.core id).mon f.a.toNat).toNat % 2 ^ 16) 0 false false (half ((s.core id).mon f.b.toNat) false,
      half ((s.core id).mon f.b.toNat) true, half ((s.core id).mon f.d.toNat) false, half ((s.core id).mon f.d.toNat) true),
     ?_, ?_, rfl, rfl, rfl, ?_, ?_⟩
  · rw [signal_log, monLog, logAdd_room (by rwa [logEntry, source_corePage])]
  · exact BitVec.eq_of_toNat_eq (by simp [logEntry])
  · exact half_append _
  · exact half_append _

theorem mtbl_moves (hm : MonitorRuns s id) (hl : (immOnly f false true false && f.imm.toNat < 64) = true) :
    Completes (.mtbl id f) s (parts [.core id.toNat, .signals]) (fun t =>
      (t.core id).sreg = (s.core id).sreg ∧ (t.core id).vreg = (s.core id).vreg ∧ (t.core id).aflags = (s.core id).aflags ∧
        (t.core id).state = .monitor) := by
  have he : exec (.mtbl id f) s = finish s := by
    show execMtbl id f s = _
    rw [execMtbl, monIssue_runs hm hl]
  refine completes_finish he (by simp) (Changes.refl _ _) ?_
  rw [signal_core]
  exact ⟨rfl, rfl, rfl, hm.2.2.2⟩

theorem monitorResults : claimMonitorResults := by
  refine ⟨fun id f x s => mret_runs, fun id f s => mcsr_reads, fun id f s => mcsr_aflags, ?_, ?_⟩
  · intro id f s hm hd ha hb hv hi hq
    exact mlog_records hm (by rw [Bool.and_eq_true, immOnly_iff, beq_iff_eq]; exact ⟨⟨hd, ha, hb, hv⟩, hi⟩) hq
  · intro id f s hm hd ha hb hv hi
    exact mtbl_moves hm (by rw [Bool.and_eq_true, immOnly_iff, decide_eq_true_eq]; exact ⟨⟨hd, ha, hb, hv⟩, by simp [hi]⟩)

theorem monitorWordFaults : claimMonitorWordFaults := by
  intro i id f s hi hr hh hw
  obtain rfl | rfl | rfl := hi
  · show execMret id f s = _
    rw [execMret]
    exact monIssue_faults hr hh (bareLegal_iff.2 hw)
  · show execMlog id f s = _
    rw [execMlog]
    refine monIssue_faults hr hh ?_
    obtain ⟨hd, ha, hb, hv, hi⟩ := hw
    simp [immOnly, isS, hd, ha, hb, hv, hi]
  · show execMtbl id f s = _
    rw [execMtbl]
    refine monIssue_faults hr hh ?_
    obtain ⟨hd, ha, hb, hv, hi⟩ := hw
    simp [immOnly, isS, hd, ha, hb, hv, hi]

end Sys2Proof.Claims

open Sys2Proof Sys2Proof.Machine Sys2Proof.Claims

/-- Settles O18: in MONITOR each instruction by its effect, on a running core by its fault. -/
theorem monitorInstructionResults : Obligations.MonitorInstructionResults := ⟨monitorResults, monitorWordFaults⟩
end

section
/-! SUPPORT. Memory as an instruction of a core meets it (05 R126; 12 R325, R328): the state it starts from, the counter of a stack, and a
write of correctable bytes. -/

namespace Sys2Proof.Claims
open Sys2Proof.Machine

variable {s t : State} {id : CoreId} {i : Instr} {a n off : Nat} {bs : List Byte} {may : Part → Prop} {post : State → Prop}

/-- Retiring touches cores and register words alone. -/
theorem issued_field {α : Type} (field : State → α) (hc : ∀ u j c, field (u.setCore j c) = field u)
    (hr : ∀ u p o v, field (u.wr p o v) = field u) : field (issued s id) = field s := by
  simp only [issued, retire]
  split <;> simp only [State.add64, State.wr64, hr, hc, updCore]

@[simp] theorem issued_byte : (issued s id).byte a = s.byte a :=
  issued_field (fun t => t.byte a) (fun _ _ _ => rfl) (fun _ _ _ _ => rfl)
@[simp] theorem issued_bytes : (issued s id).bytes a n = s.bytes a n :=
  issued_field (fun t => t.bytes a n) (fun _ _ _ => rfl) (fun _ _ _ _ => rfl)
@[simp] theorem ownChip_issued : ownChip (issued s id) a = ownChip s a :=
  issued_field (fun t => ownChip t a) (fun _ _ _ => rfl) (fun _ _ _ _ => rfl)
@[simp] theorem poisoned_issued : poisoned (issued s id) a n = poisoned s a n :=
  issued_field (fun t => poisoned t a n) (fun _ _ _ => rfl) (fun _ _ _ _ => rfl)
@[simp] theorem placeResetting_issued : placeResetting (issued s id) a = placeResetting s a :=
  issued_field (fun t => placeResetting t a) (fun _ _ _ => rfl) (fun _ _ _ _ => rfl)

/-- RETIRED is unchanged where its words may not change. -/
theorem retired_of_changes (h : Changes s t may) (hlo : ¬ may (.reg (regKey (corePage id) 0x080)))
    (hhi : ¬ may (.reg (regKey (corePage id) 0x084))) : t.rd64 (corePage id) 0x080 = s.rd64 (corePage id) 0x080 := by
  rw [State.rd64, State.rd64, h.rd_eq (by decide) hlo, h.rd_eq (by decide) hhi]

/-- The effect of an instruction that retires, when it changes but its core and parts that are not words of its page. -/
theorem retires_changes (he : exec i s = finish t) (hc : Changes (issued s id) t (also (parts [.core id.toNat]) may))
    (hm : ∀ o, ¬ may (.reg (regKey (corePage id) o))) (hp : post (signal t)) : Retires i id s may post := by
  refine retires_effect he (hc.mono fun p hq => hq.imp_left ?_) (retired_of_changes hc ?_ ?_) hp
  · simp only [parts_iff, List.mem_singleton, coreParts_iff]
    exact .inl
  · simpa using hm 0x080
  · simpa using hm 0x084

/-! The counters of a stack. -/

/-- A stack's page is no core's. -/
theorem not_stackCounter_core (ho : off + 4 < 4096) (o : Nat) : ¬ stackCounter a off (.reg (regKey (corePage id) o)) := by
  unfold stackCounter
  split
  · rename_i k _ hk
    have := stack_lt hk
    simp only [Part.reg.injEq, regKey, corePage, pgCore, pgHs]
    omega
  · exact not_false

theorem changes_countHbm (h : ∀ p, stackCounter a off p → may p) : Changes s (countHbm t a n off) may ↔ Changes s t may := by
  unfold countHbm
  split
  · rename_i k _ hk
    have hw (p : Part) (hp : p = .reg (regKey (pgHs k) off) ∨ p = .reg (regKey (pgHs k) (off + 4))) : may p :=
      h p (by simpa only [stackCounter, hk] using hp)
    exact changes_add64 (hw _ (.inl rfl)) (hw _ (.inr rfl))
  · rfl

@[simp] theorem countHbm_core : (countHbm s a n off).core id = s.core id := by
  unfold countHbm
  split <;> rfl

@[simp] theorem countHbm_poison : (countHbm s a n off).poison = s.poison := by
  unfold countHbm
  split <;> rfl

/-! Bytes stored. -/

@[simp] theorem storeBytes_core : (s.storeBytes a bs).core id = s.core id := by
  induction bs generalizing s a with
  | nil => rfl
  | cons b bs ih => exact ih (s := s.storeByte a b)

@[simp] theorem storeBytes_poison : (s.storeBytes a bs).poison = s.poison := by
  induction bs generalizing s a with
  | nil => rfl
  | cons b bs ih => exact ih (s := s.storeByte a b)

/-- A write that meets no uncorrectable unit stores its bytes and leaves every unit as it is. -/
theorem memWrite_clean (h : poisoned s a bs.length = false) :
    memWrite s a bs = dirtyTiles ((countHbm s a bs.length 0x060).storeBytes a bs) a bs.length := by
  have hno : ∀ u ∈ s.poison, (unitsOf a bs.length).contains u = false := by simpa [poisoned] using h
  have hbad (p : Nat → Bool) : s.poison.filter (fun u => (unitsOf a bs.length).contains u && p u) = [] :=
    List.filter_eq_nil_iff.2 (fun u hu => by simp only [hno u hu, Bool.false_and, Bool.false_eq_true, not_false_eq_true])
  have hall (p : Nat → Bool) : s.poison.filter (fun u => !((unitsOf a bs.length).contains u && p u)) = s.poison :=
    List.filter_eq_self.2 (fun u hu => by rw [hno u hu]; rfl)
  simp only [memWrite, hbad, List.isEmpty_nil, if_true, List.foldl_nil, storeBytes_poison, countHbm_poison, hall]
  congr 1
  generalize hx : (countHbm s a bs.length 0x060).storeBytes a bs = x
  have hp : s.poison = x.poison := by rw [← hx, storeBytes_poison, countHbm_poison]
  rw [hp]

/-- A read of a core from this chip's memory. -/
theorem coreRead_own (ho : ownChip s a = true) : coreRead s a n = (s.bytes (placeBits a) n, countHbm s (placeBits a) n 0x058) := by
  rw [coreRead, if_pos ho]
  rfl

/-- A read of a core from another chip goes out on the board and draws its value. -/
theorem coreRead_elsewhere (ho : ownChip s a = false) : ∃ bs u, coreRead s a n = (bs, u) ∧ Changes s u (parts [.fresh, .signals]) ∧
    Out.board (a / 2 ^ 48) (BitVec.ofNat 64 a) false (bytesLE n 0) ∈ u.out := by
  rw [coreRead, if_neg (by rw [ho]; decide)]
  exact ⟨_, _, rfl, by rw [changes_emit (by simp), changes_fresh (by simp)]; exact Changes.refl _ _, mem_out_emit ..⟩

/-- A store of a core into this chip's memory, not absorbed by a reset. -/
theorem coreStore_clean (ho : ownChip s a = true) (hz : placeResetting s (placeBits a) = false)
    (hp : poisoned s (placeBits a) bs.length = false) :
    coreStore s a bs = dirtyTiles ((countHbm s (placeBits a) bs.length 0x060).storeBytes (placeBits a) bs) (placeBits a) bs.length := by
  rw [coreStore, ho, hz]
  exact memWrite_clean hp

/-- What such a store may change. -/
abbrev storeParts (a n : Nat) : Part → Prop := also (bytesAt a n) (also (stackCounter a 0x060) (parts [.moves]))

theorem changes_stored (h : ∀ p, storeParts a bs.length p → may p) :
    Changes s (dirtyTiles ((countHbm t a bs.length 0x060).storeBytes a bs) a bs.length) may ↔ Changes s t may := by
  rw [dirtyTiles, changes_tierMoves (h _ (.inr (.inr (by simp)))), changes_storeBytes (fun k hk => h _ (.inl ⟨k, hk, rfl⟩)),
    changes_countHbm (fun p hp => h p (.inr (.inl hp)))]

theorem getD_bytesLE_nat (v : Nat) {k : Nat} (hk : k < n) : (bytesLE n v).getD k 0 = BitVec.ofNat 8 (v / 256 ^ k) := by
  induction n generalizing k v with
  | zero => omega
  | succ n ih =>
    cases k with
    | zero => simp [bytesLE]
    | succ k => rw [bytesLE, List.getD_cons_succ, ih _ (by omega), Nat.div_div_eq_div_mul, Nat.pow_succ, Nat.mul_comm 256]

/-- The k-th byte of a word's little-endian bytes. -/
theorem getD_bytesLE (v : W64) {k : Nat} (hk : k < n) : (bytesLE n v.toNat).getD k 0 = (v >>> (8 * k)).setWidth 8 := by
  rw [getD_bytesLE_nat _ hk]
  apply BitVec.eq_of_toNat_eq
  rw [BitVec.toNat_ofNat, BitVec.toNat_setWidth, BitVec.toNat_ushiftRight, Nat.shiftRight_eq_div_pow, Nat.pow_mul]

end Sys2Proof.Claims
end

section
/-! SUPPORT. Scalar loads and stores (06 R164; 05 R126, R127). -/

namespace Sys2Proof.Claims
open Sys2Proof.Machine

variable {s : State} {id : CoreId} {i : Instr} {f : ImmF} {mn : String} {n : Nat} {sg : Bool}

/-- The two's-complement value of a number's low bits is that of the word. -/
theorem signedOf_eq_toInt {w : Nat} (hw : 0 < w) (x : Nat) : signedOf w x = (BitVec.ofNat w x).toInt := by
  have h2 : 2 ^ w = 2 * 2 ^ (w - 1) := by rw [← Nat.pow_succ', Nat.succ_eq_add_one, Nat.sub_add_cancel hw]
  rw [signedOf, BitVec.toInt_eq_toNat_cond, BitVec.toNat_ofNat]
  by_cases h : x % 2 ^ w < 2 ^ (w - 1)
  · rw [if_pos h, if_pos (by omega)]
  · rw [if_neg h, if_neg (by omega)]
    simp

/-- What a load of n bytes makes of the number in them. -/
def loadValue (n : Nat) (sg : Bool) (x : Nat) : W64 := if sg then (BitVec.ofNat (8 * n) x).signExtend 64 else BitVec.ofNat 64 x

theorem loadValue_eq (hn : 0 < n) (x : Nat) :
    (if sg then BitVec.ofInt 64 (signedOf (8 * n) x) else BitVec.ofNat 64 x) = loadValue n sg x := by
  rw [loadValue, signedOf_eq_toInt (by omega)]
  rfl

theorem scalarAccessFault_none {a : Nat} {w : Bool} (ha : a % n = 0) (h : coreAccessFault s id a n w = none) :
    scalarAccessFault s id a n w = none := by
  rw [scalarAccessFault, if_neg (not_not.2 ha), h]
  rfl

theorem dataAddr_eq (c : Core) (f : ImmF) : dataAddr c f = (address c f).toNat := rfl

/-- A load that has no fault and no wait has its effect on the core that has retired. -/
theorem scalarLoad_issues (hr : Ready s id) (hw : ImmWord f) (ha : (address (s.core id) f).toNat % n = 0)
    (hfault : coreAccessFault s id (address (s.core id) f).toNat n false = none)
    (hwait : readWaits s (s.core id) (address (s.core id) f).toNat n = false)
    (hland : (ownChip s (address (s.core id) f).toNat && shoreBlocked s (placeBits (address (s.core id) f).toNat) n) = false)
    (hbad : (ownChip s (address (s.core id) f).toNat && poisoned s (placeBits (address (s.core id) f).toNat) n) = false) :
    scalarLoad mn n sg id f s = finish
      (updCore (coreRead (issued s id) (address (s.core id) f).toNat n).2 id (fun k => k.setS f.d.toNat
        (if sg then BitVec.ofInt 64 (signedOf (8 * n) (natLE (coreRead (issued s id) (address (s.core id) f).toNat n).1))
          else BitVec.ofNat 64 (natLE (coreRead (issued s id) (address (s.core id) f).toNat n).1)))) := by
  rw [scalarLoad, issue_untouching hr (immScalarLegal_iff.2 hw) (scalarAccessFault_none ha hfault)
    (by simp only [dataAddr_eq, hwait, hland]; rfl)]
  simp only [dataAddr_eq, ownChip_issued, poisoned_issued, hbad, Bool.false_eq_true, if_false]

theorem load_retires (he : exec i s = scalarLoad mn n sg id f s) (hn : 0 < n) (hr : Ready s id) (hw : ImmWord f)
    (h : ReadsNow s id (address (s.core id) f).toNat n) :
    Retires i id s (stackCounter (placeBits (address (s.core id) f).toNat) 0x058) (fun t =>
      t.core id = (retired (s.core id)).setS f.d.toNat
        (loadValue n sg (natLE (s.bytes (placeBits (address (s.core id) f).toNat) n)))) := by
  obtain ⟨ha, hown, hfault, hwait, hland, hbad⟩ := h
  rw [scalarLoad_issues hr hw ha hfault hwait (by rw [hland, Bool.and_false]) (by rw [hbad, Bool.and_false]),
    coreRead_own (ownChip_issued.trans hown), issued_bytes, loadValue_eq hn] at he
  refine retires_changes he ?_ (not_stackCounter_core (by decide)) ?_
  · rw [changes_updCore (.inl (by simp)), changes_countHbm (fun p hp => .inr hp)]
    exact Changes.refl _ _
  · rw [signal_core, updCore_core, countHbm_core, issued_core]

theorem load_elsewhere_retires (he : exec i s = scalarLoad mn n sg id f s) (hr : Ready s id) (hw : ImmWord f)
    (ha : (address (s.core id) f).toNat % n = 0) (hown : ownChip s (address (s.core id) f).toNat = false)
    (hfault : coreAccessFault s id (address (s.core id) f).toNat n false = none) :
    Retires i id s (parts [.fresh]) (fun t =>
      (∃ v, t.core id = (retired (s.core id)).setS f.d.toNat v) ∧
      Out.board ((address (s.core id) f).toNat / 2 ^ 48) (address (s.core id) f) false (bytesLE n 0) ∈ t.out) := by
  obtain ⟨bs, u, hread, hc, hout⟩ := coreRead_elsewhere (n := n) ((ownChip_issued (id := id)).trans hown)
  rw [scalarLoad_issues hr hw ha hfault (by rw [readWaits, hown]; rfl) (by rw [hown]; rfl) (by rw [hown]; rfl), hread] at he
  rw [BitVec.ofNat_toNat, BitVec.setWidth_eq] at hout
  refine retires_effect he ?_ ((updCore_rd64 ..).trans (retired_of_changes hc (by simp) (by simp))) ⟨?_, mem_out_signal hout⟩
  · rw [changes_updCore (.inl (by simp))]
    exact hc.mono (by simp)
  · rw [signal_core, updCore_core, core_eq_of_changes hc (by simp), issued_core]
    exact ⟨_, rfl⟩

theorem store_retires (he : exec i s = scalarStore mn n id f s) (hr : Ready s id) (hh : (s.core id).hold = []) (hw : SourceWord f)
    (h : WritesNow s id (address (s.core id) f).toNat n) :
    Retires i id s (storeParts (placeBits (address (s.core id) f).toNat) n) (fun t =>
      t.core id = retired (s.core id) ∧
      ∀ k, k < n → t.byte (placeBits (address (s.core id) f).toNat + k) = (((s.core id).s f.b.toNat) >>> (8 * k)).setWidth 8) := by
  obtain ⟨ha, hown, hfault, hwait, hreset, hbad⟩ := h
  have hlen : (bytesLE n ((s.core id).s f.b.toNat).toNat).length = n := length_bytesLE ..
  rw [scalarStore, issue_shore hr hh (storeLegal_iff.2 hw) (scalarAccessFault_none ha hfault) (scoreboardHolds_empty _ true)
    (by simp only [dataAddr_eq, hwait]; rfl) rfl, dataAddr_eq, coreStore_clean (ownChip_issued.trans hown)
    (placeResetting_issued.trans hreset) (by rw [poisoned_issued, hlen, hbad])] at he
  refine retires_changes he ?_ ?_ ⟨?_, fun k hk => ?_⟩
  · rw [changes_stored (by rw [hlen]; exact fun p hp => .inr hp)]
    exact Changes.refl _ _
  · intro o ho
    rcases ho with ⟨k, -, hk⟩ | ho | ho
    · cases hk
    · exact not_stackCounter_core (by decide) o ho
    · simp at ho
  · rw [signal_core]
    exact storeBytes_core.trans (countHbm_core.trans (issued_core s id))
  · rw [signal_byte]
    exact (byte_storeBytes_at _ _ _ _ (hlen.symm ▸ hk)).trans (getD_bytesLE _ hk)

theorem scalarLoadResults : claimScalarLoadResults := by
  constructor
  · intro i id f n sg s hrow hr hw h
    cases hrow with
    | ld8 | ld8u | ld16 | ld16u | ld32 | ld32u => exact load_retires rfl (by decide) hr hw h
    | ld64 => exact load_retires rfl (by decide) hr hw h
  · intro i id f n sg s hrow hr hw ha hown hfault
    cases hrow with
    | ld8 | ld8u | ld16 | ld16u | ld32 | ld32u | ld64 => exact load_elsewhere_retires rfl hr hw ha hown hfault

theorem scalarStoreResults : claimScalarStoreResults := by
  intro i id f n s hrow hr hh hw h
  cases hrow with
  | st8 | st16 | st32 | st64 => exact store_retires rfl hr hh hw h

end Sys2Proof.Claims

open Sys2Proof Sys2Proof.Machine Sys2Proof.Claims

/-- Settles O2: a load by the bytes it reads or by the board it goes out on, a store by the bytes it writes. -/
theorem scalarMemoryResults : Obligations.ScalarMemoryResults := ⟨scalarLoadResults, scalarStoreResults⟩
end

section
/-! SUPPORT. Instructions that write vector registers (06 R166; 03 R100): the lanes and the flags they leave on shore. -/

namespace Sys2Proof.Claims
open Sys2Proof.Machine

variable {s : State} {id : CoreId} {i : Instr} {f : RegF} {c : Core} {mn : String} {legal : Bool} {rd : List (BitVec 6)}

/-- On shore flags join AFLAGS. -/
theorem addFlags_shore (h : c.hold = []) (bad : Bool) (n : Nat) :
    addFlags c bad n = { c with aflags := c.aflags ||| BitVec.ofNat 32 n } := by
  simp [addFlags, Core.atSea, h]

/-- Vector registers alone meet no outstanding move and no refresh. -/
theorem scoreboardHolds_vectors (c : Core) (rd wr : List Nat) (x o : Bool) :
    scoreboardHolds c { rdV := rd, wrV := wr, toScalar := x, outside := o } = false := by
  simp [scoreboardHolds, anyBit]

/-- The flags of a list made lane by lane. -/
theorem joinFlags_map (l : List Nat) (g : Nat → Rounded) : joinFlags (l.map g) = l.foldl (fun a k => a ||| (g k).flags) 0 := by
  rw [joinFlags, List.foldl_map]

theorem joinFlags_vecLanes (c : Core) (f : RegF) (lane : Nat → Rounded) :
    BitVec.ofNat 32 (joinFlags (vecLanes c f lane)) = activeFlags c f.mask lane := by
  rw [vecLanes, joinFlags_map, activeFlags]
  congr 2
  funext a k
  show a ||| Rounded.flags (if active c f.mask k then lane k else _) = _
  split
  · rfl
  · split <;> exact Nat.or_zero a

theorem getD_wordsOfResults (g : Nat → Rounded) {n k : Nat} (h : k < n) :
    (wordsOfResults ((List.range n).map g)).getD k 0 = BitVec.ofNat 32 (g k).bits := by
  simp [wordsOfResults, List.getD_eq_getElem?_getD, h]

theorem newLanes_vecLanes (c : Core) (f : RegF) (lane : Nat → Rounded) :
    NewLanes c f lane (c.setVreg f.d.toNat (wordsOfResults (vecLanes c f lane))).vreg := by
  intro r k hk
  refine (lane_setVreg c f.d.toNat _ (by simp [wordsOfResults, vecLanes]) r k hk).trans ?_
  by_cases hr : r = f.d.toNat
  · rw [if_pos hr, if_pos hr, vecLanes, getD_wordsOfResults _ hk, hr]
    show BitVec.ofNat 32 (Rounded.bits (if active c f.mask k then lane k else _)) = _
    split
    · rfl
    · split
      · rfl
      · exact BitVec.ofNat_toNat ..
  · rw [if_neg hr, if_neg hr]

/-- New lanes by NewLanes and the flags of the active ones: what a lane-by-lane instruction leaves on shore. -/
abbrev LanesWritten (id : CoreId) (s : State) (f : RegF) (lane : Nat → Rounded) (t : State) : Prop :=
  ∃ v, NewLanes (s.core id) f lane v ∧
    t.core id = { retired (s.core id) with vreg := v, aflags := (s.core id).aflags ||| activeFlags (s.core id) f.mask lane }

/-- Writing the lanes of the core as it was at issue. -/
theorem retires_lanes {lane : Nat → Rounded} {bad : Bool} (hh : (s.core id).hold = [])
    (he : exec i s = finish (updCore (issued s id) id (fun k =>
      addFlags (k.setVreg f.d.toNat (wordsOfResults (vecLanes (s.core id) f lane))) bad (joinFlags (vecLanes (s.core id) f lane))))) :
    Retires i id s nothing (LanesWritten id s f lane) := by
  refine retires_updCore he (fun t ht => ⟨_, newLanes_vecLanes (s.core id) f lane, ?_⟩)
  rw [ht, addFlags_shore (c := (retired (s.core id)).setVreg ..) hh, joinFlags_vecLanes]
  rfl

/-- A vector instruction that rounds or moves lane by lane. -/
theorem vec_retires {lane : Core → Nat → Rounded} {want : Nat → Rounded} (he : exec i s = vecExec mn id f legal rd lane s)
    (hr : Ready s id) (hh : (s.core id).hold = []) (hl : legal = true) (hw : ∀ k, lane (s.core id) k = want k) :
    Retires i id s nothing (LanesWritten id s f want) := by
  rw [← funext hw]
  refine retires_lanes (bad := tainted (s.core id) (vecTouch f rd (s.core id))) hh ?_
  rw [he, vecExec, issue_shore hr hh hl rfl (scoreboardHolds_vectors ..) rfl rfl]

theorem laneFree_iff : laneFree f = true ↔ PlainLanes f := by simp [laneFree, and_assoc, PlainLanes]
theorem noRound_iff : noRound f = true ↔ NoRounding f := by simp [noRound, laneFree_iff, and_assoc]

end Sys2Proof.Claims
end

section
/-! SUPPORT. The vector instructions lane by lane (06 R166; 03 R97, R98, R105, R106). -/

namespace Sys2Proof.Claims
open Sys2Proof.Machine

/-- RDN is mode 2. -/
theorem zeroSign_eq (f : RegF) : zeroSign f = (rmOf f == rmRDN) := by
  rw [zeroSign, rmOf]
  generalize f.rm = r
  revert r
  decide

theorem iMax_eq (x y : W32) : iMax x y = if x.slt y then y else x := by
  rw [iMax, BitVec.slt_eq_decide]
  by_cases h : x.toInt = y.toInt
  · simp [BitVec.eq_of_toInt_eq h]
  · simp [Int.lt_iff_le_and_ne, h]

theorem iMin_eq (x y : W32) : iMin x y = if x.slt y then x else y := by
  rw [iMin, BitVec.slt_eq_decide]
  by_cases h : x.toInt = y.toInt
  · simp [BitVec.eq_of_toInt_eq h]
  · simp [Int.lt_iff_le_and_ne, h]

/-- An integer's sign and magnitude as an exact value. -/
theorem numOfInt_toInt (x : W32) : numOfInt x.toInt = .fin x.msb x.toInt.natAbs 0 := by rw [numOfInt, BitVec.msb_eq_toInt]

variable {s : State} {id : CoreId} {i : Instr} {f : RegF} {lane : Core → Nat → Rounded}

/-- FP32 on two registers. -/
theorem fpBinary_retires {mn : String} {op : Nat → Machine.Num → Machine.Num → Machine.Num} {want : Nat → Rounded}
    (he : exec i s = fpBinary mn op id f s) (h : PlainLanes f ∧ f.c = 0) (hr : Ready s id) (hh : (s.core id).hold = [])
    (hw : ∀ k, roundOnce f (op (rmOf f) (numA f (s.core id) k) (numB f (s.core id) k))
      [numA f (s.core id) k, numB f (s.core id) k] = want k) :
    Retires i id s nothing (LanesWritten id s f want) :=
  vec_retires (by rw [he, fpBinary]) hr hh (by simp [laneFree, h]) hw

/-- FP32 on three registers, rounded once. -/
theorem fpFused_retires {mn : String} {neg : Bool} {want : Nat → Rounded} (he : exec i s = fpFused mn neg id f s)
    (h : PlainLanes f) (hr : Ready s id) (hh : (s.core id).hold = [])
    (hw : ∀ k, roundOnce f (numFma (rmOf f) (if neg then numNeg (numA f (s.core id) k) else numA f (s.core id) k)
        (numB f (s.core id) k) (numC f (s.core id) k))
      [numA f (s.core id) k, numB f (s.core id) k, numC f (s.core id) k] = want k) :
    Retires i id s nothing (LanesWritten id s f want) :=
  vec_retires (by rw [he, fpFused]) hr hh (by simp [laneFree, h]) hw

/-- FP32 on a register and a scalar. -/
theorem fpScalar_retires {mn : String} {op : Nat → Machine.Num → Machine.Num → Machine.Num} {want : Nat → Rounded}
    (he : exec i s = fpScalar mn op id f s) (h : PlainLanes f ∧ f.b.toNat < 32 ∧ f.c = 0) (hr : Ready s id) (hh : (s.core id).hold = [])
    (hw : ∀ k, roundOnce f (op (rmOf f) (numA f (s.core id) k) (scalarB f (s.core id)))
      [numA f (s.core id) k, scalarB f (s.core id)] = want k) :
    Retires i id s nothing (LanesWritten id s f want) :=
  vec_retires (by rw [he, fpScalar]) hr hh (by simp [laneFree, isS, h]) hw

theorem fpPick_retires {mn : String} {op : Machine.Num → Machine.Num → Machine.Num} (he : exec i s = fpPick mn op id f s)
    (h : NoRounding f ∧ f.c = 0) (hr : Ready s id) (hh : (s.core id).hold = []) :
    Retires i id s nothing (LanesWritten id s f (fun k =>
      ⟨(toFp32 rmRNE false (op (numA f (s.core id) k) (numB f (s.core id) k))).bits, 0⟩)) :=
  vec_retires (by rw [he, fpPick]) hr hh (by simp [noRound, laneFree, h]) (fun _ => rfl)

theorem fpSign_retires {mn : String} {op : W32 → W32} {want : Nat → Rounded} (he : exec i s = fpSign mn op id f s)
    (h : NoRounding f ∧ f.b = 0 ∧ f.c = 0) (hr : Ready s id) (hh : (s.core id).hold = [])
    (hw : ∀ k, (if numA f (s.core id) k = .nan then ⟨0x7FC00000, 0⟩ else asIs (op (wordA f (s.core id) k))) = want k) :
    Retires i id s nothing (LanesWritten id s f want) :=
  vec_retires (by rw [he, fpSign]) hr hh (by simp [noRound, laneFree, h]) hw

theorem intBinary_retires {mn : String} {op : W32 → W32 → W32} {want : Nat → Rounded} (he : exec i s = intBinary mn op id f s)
    (h : NoRounding f ∧ f.c = 0) (hr : Ready s id) (hh : (s.core id).hold = [])
    (hw : ∀ k, asIs (op (wordA f (s.core id) k) (wordB f (s.core id) k)) = want k) :
    Retires i id s nothing (LanesWritten id s f want) :=
  vec_retires (by rw [he, intBinary]) hr hh (by simp [noRound, laneFree, h]) hw

theorem laneRow_retires (h : LaneRow i id f lane) (hr : Ready s id) (hh : (s.core id).hold = []) :
    Retires i id s nothing (LanesWritten id s f (lane (s.core id))) := by
  cases h with
  | vadd | vsub =>
    rename_i h
    exact fpBinary_retires rfl h hr hh (fun _ => by rw [zeroSign_eq]; rfl)
  | vmul =>
    rename_i h
    exact fpBinary_retires rfl h hr hh (fun _ => rfl)
  | vfma | vfnma =>
    rename_i h
    exact fpFused_retires rfl h hr hh (fun _ => by rw [zeroSign_eq]; rfl)
  | vmax | vmin =>
    rename_i h
    exact fpPick_retires rfl h hr hh
  | vabs _ _ h => exact fpSign_retires (show execVabs id f s = _ from rfl) h hr hh (fun _ => rfl)
  | vneg _ _ h => exact fpSign_retires (show execVneg id f s = _ from rfl) h hr hh (fun _ => rfl)
  | vmuls _ _ h => exact fpScalar_retires rfl h hr hh (fun _ => rfl)
  | vadds _ _ h => exact fpScalar_retires rfl h hr hh (fun _ => by rw [zeroSign_eq]; rfl)
  | viadd _ _ h => exact intBinary_retires (show execViadd id f s = _ from rfl) h hr hh (fun _ => rfl)
  | visub _ _ h => exact intBinary_retires (show execVisub id f s = _ from rfl) h hr hh (fun _ => rfl)
  | vimul _ _ h => exact intBinary_retires (show execVimul id f s = _ from rfl) h hr hh (fun _ => rfl)
  | vand _ _ h => exact intBinary_retires (show execVand id f s = _ from rfl) h hr hh (fun _ => rfl)
  | vor _ _ h => exact intBinary_retires (show execVor id f s = _ from rfl) h hr hh (fun _ => rfl)
  | vxor _ _ h => exact intBinary_retires (show execVxor id f s = _ from rfl) h hr hh (fun _ => rfl)
  | vshl _ _ h => exact intBinary_retires (show execVshl id f s = _ from rfl) h hr hh (fun _ => rfl)
  | vshr _ _ h => exact intBinary_retires (show execVshr id f s = _ from rfl) h hr hh (fun _ => rfl)
  | vsra _ _ h => exact intBinary_retires (show execVsra id f s = _ from rfl) h hr hh (fun _ => rfl)
  | vimax _ _ h => exact intBinary_retires rfl h hr hh (fun _ => congrArg asIs (iMax_eq ..))
  | vimin _ _ h => exact intBinary_retires rfl h hr hh (fun _ => congrArg asIs (iMin_eq ..))
  | vmov _ _ h => exact vec_retires (show execVmov id f s = _ from rfl) hr hh (by simp [noRound, laneFree, h]) (fun _ => rfl)
  | vsel _ _ h => exact vec_retires (show execVsel id f s = _ from rfl) hr hh (by simp [noRound, laneFree, is16, h]) (fun _ => rfl)
  | vmulx _ _ h => exact vec_retires (show execVmulx id f s = _ from rfl) hr hh (by simp [laneFree, isS, h]) (fun _ => rfl)
  | vbcast _ _ h => exact vec_retires (show execVbcast id f s = _ from rfl) hr hh (by simp [noRound, laneFree, isS, h]) (fun _ => rfl)
  | vidx _ _ h => exact vec_retires (show execVidx id f s = _ from rfl) hr hh (by simp [noRound, laneFree, h]) (fun _ => rfl)
  | f2i _ _ h => exact vec_retires (show execF2i id f s = _ from rfl) hr hh (by simp [laneFree, h]) (fun _ => rfl)
  | i2f _ _ h =>
    exact vec_retires (show execI2f id f s = _ from rfl) hr hh (by simp [laneFree, h])
      (fun _ => congrArg (toFp32 _ _) (numOfInt_toInt _))
  | qnt _ _ h => exact vec_retires (show execQnt id f s = _ from rfl) hr hh (by simp [h]) (fun _ => rfl)

end Sys2Proof.Claims

open Sys2Proof Sys2Proof.Machine Sys2Proof.Claims

/-- Settles O4: every vector instruction by the lane it computes. -/
theorem vectorLaneResults : Obligations.VectorLaneResults := fun _ _ _ _ _ => laneRow_retires
end

section
/-! SUPPORT. Special functions over the active lanes (06 R174, R175; 07 R181, R190, R199). -/

namespace Sys2Proof.Claims
open Sys2Proof.Machine

variable {s : State} {id : CoreId} {i : Instr} {fn : BitVec 8} {f : RegF}

/-- Retiring changes no owner of a cluster, -/
theorem coreOwner_issued : coreOwner (issued s id) id = coreOwner s id := by
  have hrd (b : Nat) : (issued s id).rd64 (pgBerth b) 0x040 = s.rd64 (pgBerth b) 0x040 := by
    rw [State.rd64, State.rd64, issued_rd (by decide) (by decide), issued_rd (by decide) (by decide)]
  simp only [coreOwner, clusterOwner, hrd]

/-- and no berth's functions. -/
theorem fnSlot_issued (b n : Nat) : fnSlot (issued s id) b n = fnSlot s b n :=
  issued_field (fun t => fnSlot t b n) (fun _ _ _ => rfl) (fun _ _ _ _ => rfl)

theorem sfLegal_iff : sfLegal fn f = true ↔ FunctionWord fn f := by
  simp [sfLegal, fnListedCode, builtIn, stdFn, slotFn, FunctionWord, and_assoc, or_assoc]

/-- A special function whose lane is the same once the instruction has retired. -/
theorem sf_retires {mn : String} {legal : Bool} {rd : List (BitVec 6)} {lane : State → Core → Nat → Rounded} {want : Nat → Rounded}
    (he : exec i s = sfExec mn id fn f legal rd lane s) (hr : Ready s id) (hh : (s.core id).hold = []) (hw : FunctionWord fn f)
    (hp : fnPresent s (coreOwner s id) fn.toNat f.fmt.toNat = true) (hl : legal = true)
    (hlane : ∀ k, lane (issued s id) (s.core id) k = want k) : Retires i id s nothing (LanesWritten id s f want) := by
  rw [← funext hlane]
  refine retires_lanes (bad := tainted (s.core id) (vecTouch f rd (s.core id))) hh ?_
  rw [he, sfExec, issue_shore hr hh (by rw [sfLegal_iff.2 hw, hl]; rfl) (if_pos hp) (scoreboardHolds_vectors ..) rfl rfl]

theorem sfn_retires (h : f.b = 0) (hr : Ready s id) (hh : (s.core id).hold = []) (hw : FunctionWord fn f)
    (hp : fnPresent s (coreOwner s id) fn.toNat f.fmt.toNat = true) :
    Retires (.sfn id fn f) id s nothing (LanesWritten id s f (fun k =>
      sfnLane s (coreOwner s id) fn.toNat f.fmt.toNat f.rm.toNat (f.sat == 1) (wordA f (s.core id) k))) := by
  refine sf_retires (show execSfn id fn f s = _ from rfl) hr hh hw hp (by simp [h]) (fun k => ?_)
  simp only [sfnLane, coreOwner_issued, fnSlot_issued]
  rfl

theorem sfg_retires (hr : Ready s id) (hh : (s.core id).hold = []) (hw : FunctionWord fn f)
    (hp : fnPresent s (coreOwner s id) fn.toNat f.fmt.toNat = true) :
    Retires (.sfg id fn f) id s nothing (LanesWritten id s f (fun k =>
      sfgLane s (coreOwner s id) fn.toNat f.fmt.toNat f.rm.toNat (f.sat == 1) (wordB f (s.core id) k) (wordA f (s.core id) k))) := by
  refine sf_retires (show execSfg id fn f s = _ from rfl) hr hh hw hp rfl (fun k => ?_)
  simp only [sfgLane, coreOwner_issued, fnSlot_issued]
  rfl

end Sys2Proof.Claims

open Sys2Proof Sys2Proof.Machine Sys2Proof.Claims

/-- Settles O8: SFN and SFG by the lanes they compute, from a berth's functions that retiring leaves alone. -/
theorem functionResults : Obligations.FunctionResults := by
  intro i id fn f lane s hrow hr hh hw hp
  cases hrow with
  | sfn _ _ _ h => exact sfn_retires h hr hh hw hp
  | sfg => exact sfg_retires hr hh hw hp
end

section
/-! SUPPORT. Comparisons and mask operations (06 R166; 03 R105): the bits they leave in a mask register. -/

namespace Sys2Proof.Claims
open Sys2Proof.Machine

/-- Powers of two chosen by a predicate, added up. -/
def sumBits (p : Nat → Bool) (n : Nat) : Nat := (List.range n).foldl (fun m k => if p k then m + 2 ^ k else m) 0

theorem sumBits_succ (p : Nat → Bool) (n : Nat) : sumBits p (n + 1) = if p n then sumBits p n + 2 ^ n else sumBits p n := by
  rw [sumBits, List.range_succ, List.foldl_append]
  rfl

theorem sumBits_lt (p : Nat → Bool) (n : Nat) : sumBits p n < 2 ^ n := by
  induction n with
  | zero => exact Nat.one_pos
  | succ n ih =>
    rw [sumBits_succ, Nat.pow_succ]
    split <;> omega

/-- The sum has the bits that were chosen. -/
theorem testBit_sumBits (p : Nat → Bool) {n k : Nat} (h : k < n) : (sumBits p n).testBit k = p k := by
  induction n with
  | zero => omega
  | succ n ih =>
    have hlt := sumBits_lt p n
    rw [sumBits_succ]
    by_cases hk : k = n
    · subst hk
      cases hp : p k with
      | true => rw [if_pos rfl, Nat.add_comm, Nat.testBit_two_pow_add_eq, Nat.testBit_lt_two_pow hlt, Bool.not_false]
      | false => rw [if_neg (by decide), Nat.testBit_lt_two_pow hlt]
    · have hlow : k < n := by omega
      split
      · rw [Nat.add_comm, Nat.testBit_two_pow_add_gt hlow, ih hlow]
      · exact ih hlow

theorem getLsbD_maskBits (c : Core) (f : RegF) (bit : Nat → Bool) {k : Nat} (h : k < 128) :
    (maskBits c f bit).getLsbD k = if active c f.mask k then bit k else (f.zm == 0 && (c.mask f.d.toNat).getLsbD k) := by
  rw [BitVec.getLsbD, maskBits, BitVec.toNat_ofNat, Nat.testBit_mod_two_pow, decide_eq_true h, Bool.true_and]
  exact testBit_sumBits (fun j => if active c f.mask j then bit j else (f.zm == 0 && (c.mask f.d.toNat).getLsbD j)) h

variable {s : State} {id : CoreId} {i : Instr} {f : RegF} {mn : String} {legal : Bool} {rd : List (BitVec 6)}

/-- Mask register D after a comparison or a mask operation. -/
abbrev MaskWritten (id : CoreId) (s : State) (f : RegF) (bit : Nat → Bool) (t : State) : Prop :=
  ∃ m : BitVec 128,
    (∀ k, k < 128 → m.getLsbD k =
      if active (s.core id) f.mask k then bit k else (f.zm == 0 && ((s.core id).mask f.d.toNat).getLsbD k)) ∧
    t.core id = (retired (s.core id)).setMask f.d.toNat m

/-- The word of an instruction that writes a mask register. -/
abbrev MaskWord (f : RegF) : Prop := NoRounding f ∧ f.d.toNat < 16 ∧ f.c = 0

theorem mask_retires {bit : Core → Nat → Bool} {want : Nat → Bool} (he : exec i s = maskExec mn id f legal rd bit s) (hr : Ready s id)
    (hh : (s.core id).hold = []) (hm : MaskWord f) (hl : legal = true) (hw : ∀ k, bit (s.core id) k = want k) :
    Retires i id s nothing (MaskWritten id s f want) := by
  obtain ⟨hn, hd, hc⟩ := hm
  rw [← funext hw]
  refine retires_updCore (g := fun k => k.setMask f.d.toNat (maskBits (s.core id) f (bit (s.core id)))) ?_
    (fun t ht => ⟨_, fun k hk => getLsbD_maskBits _ _ _ hk, ht⟩)
  rw [he, maskExec, issue_shore hr hh (by rw [hl, noRound_iff.2 hn, is16, decide_eq_true hd, hc]; rfl) rfl
    (scoreboardHolds_vectors ..) rfl rfl]

theorem fpCompare_retires {rel : Machine.Num → Machine.Num → Bool} (he : exec i s = fpCompare mn rel id f s) (hr : Ready s id)
    (hh : (s.core id).hold = [])
    (hm : MaskWord f) :
    Retires i id s nothing (MaskWritten id s f (fun k => rel (numA f (s.core id) k) (numB f (s.core id) k))) :=
  mask_retires (by rw [he, fpCompare]) hr hh hm rfl (fun _ => rfl)

theorem intCompare_retires {rel : W32 → W32 → Bool} {want : Nat → Bool} (he : exec i s = intCompare mn rel id f s) (hr : Ready s id)
    (hh : (s.core id).hold = []) (hm : MaskWord f) (hw : ∀ k, rel (wordA f (s.core id) k) (wordB f (s.core id) k) = want k) :
    Retires i id s nothing (MaskWritten id s f want) :=
  mask_retires (by rw [he, intCompare]) hr hh hm rfl hw

theorem maskBinary_retires {op : Bool → Bool → Bool} {want : Nat → Bool} (he : exec i s = maskBinary mn op id f s)
    (h : f.a.toNat < 16 ∧ f.b.toNat < 16) (hr : Ready s id) (hh : (s.core id).hold = []) (hm : MaskWord f)
    (hw : ∀ k, op (((s.core id).mask f.a.toNat).getLsbD k) (((s.core id).mask f.b.toNat).getLsbD k) = want k) :
    Retires i id s nothing (MaskWritten id s f want) :=
  mask_retires (by rw [he, maskBinary]) hr hh hm (by simp [is16, h]) hw

theorem maskRow_retires {bit : Core → Nat → Bool} (h : MaskRow i id f bit) (hr : Ready s id) (hh : (s.core id).hold = [])
    (hm : MaskWord f) :
    Retires i id s nothing (MaskWritten id s f (bit (s.core id))) := by
  cases h with
  | feq => exact fpCompare_retires (show execFeq id f s = _ from rfl) hr hh hm
  | fne => exact fpCompare_retires (rel := fun x y => !numEq x y) (show execFne id f s = _ from rfl) hr hh hm
  | flt => exact fpCompare_retires (show execFlt id f s = _ from rfl) hr hh hm
  | fle => exact fpCompare_retires (rel := fun x y => numLt x y || numEq x y) (show execFle id f s = _ from rfl) hr hh hm
  | ieq => exact intCompare_retires (show execIeq id f s = _ from rfl) hr hh hm (fun _ => rfl)
  | ine => exact intCompare_retires (show execIne id f s = _ from rfl) hr hh hm (fun _ => rfl)
  | ilt => exact intCompare_retires (show execIlt id f s = _ from rfl) hr hh hm (fun _ => rfl)
  | ile =>
    refine intCompare_retires (show execIle id f s = _ from rfl) hr hh hm (fun k => ?_)
    simp [BitVec.slt_eq_decide, ← decide_not]
  | iltu => exact intCompare_retires (show execIltu id f s = _ from rfl) hr hh hm (fun _ => rfl)
  | mand _ _ h => exact maskBinary_retires (show execMand id f s = _ from rfl) h hr hh hm (fun _ => BitVec.getLsbD_and.symm)
  | mor _ _ h => exact maskBinary_retires (show execMor id f s = _ from rfl) h hr hh hm (fun _ => BitVec.getLsbD_or.symm)
  | mxor _ _ h => exact maskBinary_retires (show execMxor id f s = _ from rfl) h hr hh hm (fun _ => BitVec.getLsbD_xor.symm)
  | mandn _ _ h => exact maskBinary_retires (show execMandn id f s = _ from rfl) h hr hh hm (fun _ => rfl)
  | mlen _ _ h => exact mask_retires (show execMlen id f s = _ from rfl) hr hh hm (by simp [isS, h]) (fun _ => rfl)

theorem vext_retires (hr : Ready s id) (hh : (s.core id).hold = []) (hn : NoRounding f) (hd : f.d.toNat < 32) (hb : f.b.toNat < 32)
    (hc : f.c = 0) (hm : f.mask = 0) (hz : f.zm = 0) :
    Retires (.vext id f) id s nothing (fun t =>
      t.core id = (retired (s.core id)).setS f.d.toNat ((wordA f (s.core id) (laneIndexB f (s.core id))).signExtend 64)) := by
  refine retires_updCore (g := fun k =>
    k.setS f.d.toNat ((wordA f (s.core id) (laneIndexB f (s.core id))).signExtend 64)) ?_ (fun _ h => h)
  show execVext id f s = _
  rw [execVext, issue_shore hr hh (by simp [noRound_iff.2 hn, isS, hd, hb, hc, hm, hz]) rfl (scoreboardHolds_vectors ..) rfl rfl]
  rfl

theorem maskResults : claimMaskResults :=
  ⟨fun _ _ _ _ _ hrow hr hh hn hd hc => maskRow_retires hrow hr hh ⟨hn, hd, hc⟩, fun _ _ _ => vext_retires⟩

end Sys2Proof.Claims
end

section
/-! SUPPORT. Reductions (03 R107; 06 R166): seven levels of neighbours combined are the root of the tree, with every flag on the way. -/

namespace Sys2Proof.Claims
open Sys2Proof.Machine

/-- Numbers joined by bitwise or. -/
def orUpTo (g : Nat → Nat) : Nat → Nat
  | 0 => 0
  | n + 1 => orUpTo g n ||| g n

theorem orUpTo_front (g : Nat → Nat) (n : Nat) : orUpTo g (n + 1) = g 0 ||| orUpTo (fun k => g (k + 1)) n := by
  induction n with
  | zero => simp [orUpTo]
  | succ n ih => rw [orUpTo, ih, orUpTo, Nat.or_assoc]

/-- Joining by pairs, with something more for each pair. -/
theorem orUpTo_pairs (a b : Nat → Nat) (n : Nat) :
    orUpTo (fun k => a k ||| b (2 * k) ||| b (2 * k + 1)) n = orUpTo a n ||| orUpTo b (2 * n) := by
  induction n with
  | zero => simp [orUpTo]
  | succ n ih =>
    rw [orUpTo, ih, orUpTo, show 2 * (n + 1) = 2 * n + 1 + 1 by omega, orUpTo, orUpTo]
    ac_rfl

/-- One level: neighbours combined, and their flags. -/
theorem pairUp_map (op : Nat → Nat → Rounded) (g : Nat → Nat) (n : Nat) :
    pairUp op ((List.range (2 * n)).map g) =
      ((List.range n).map (fun k => (op (g (2 * k)) (g (2 * k + 1))).bits), orUpTo (fun k => (op (g (2 * k)) (g (2 * k + 1))).flags) n) := by
  induction n generalizing g with
  | zero => rfl
  | succ n ih =>
    rw [show 2 * (n + 1) = 2 * n + 1 + 1 by omega, List.range_succ_eq_map, List.range_succ_eq_map]
    simp only [List.map_cons, List.map_map, pairUp]
    rw [show List.map (g ∘ Nat.succ ∘ Nat.succ) (List.range (2 * n)) = (List.range (2 * n)).map (fun k => g (k + 2)) from rfl,
      ih, orUpTo_front, List.range_succ_eq_map]
    simp only [List.map_cons, List.map_map]
    rfl

/-- n further levels over the nodes of level m: their root, and its flags once those of the nodes are joined. -/
theorem reduceTree_nodes (op : Nat → Nat → Rounded) (lane : Nat → Nat) (n m : Nat) :
    (reduceTree op n ((List.range (2 ^ n)).map (fun k => (treeNode op lane m k).bits))).bits = (treeNode op lane (m + n) 0).bits ∧
    orUpTo (fun k => (treeNode op lane m k).flags) (2 ^ n) |||
      (reduceTree op n ((List.range (2 ^ n)).map (fun k => (treeNode op lane m k).bits))).flags = (treeNode op lane (m + n) 0).flags := by
  induction n generalizing m with
  | zero => simp [reduceTree, orUpTo]
  | succ n ih =>
    obtain ⟨hbits, hflags⟩ := ih (m + 1)
    rw [Nat.pow_succ', reduceTree, pairUp_map, show m + (n + 1) = m + 1 + n by omega]
    refine ⟨hbits, ?_⟩
    rw [← hflags]
    show _ = orUpTo (fun k => (op (treeNode op lane m (2 * k)).bits (treeNode op lane m (2 * k + 1)).bits).flags
      ||| (treeNode op lane m (2 * k)).flags ||| (treeNode op lane m (2 * k + 1)).flags) (2 ^ n) ||| _
    rw [orUpTo_pairs (fun k => (op (treeNode op lane m (2 * k)).bits (treeNode op lane m (2 * k + 1)).bits).flags)
      (fun k => (treeNode op lane m k).flags)]
    exact (Nat.or_left_comm ..).trans (Nat.or_assoc ..).symm

/-- Level 0 has no flags of its own. -/
theorem reduceTree_lanes (op : Nat → Nat → Rounded) (lane : Nat → Nat) :
    reduceTree op 7 ((List.range 128).map lane) = treeNode op lane 7 0 := by
  have hzero (n : Nat) : orUpTo (fun _ => 0) n = 0 := by
    induction n with
    | zero => rfl
    | succ n ih => rw [orUpTo, ih]; rfl
  obtain ⟨hbits, hflags⟩ := reduceTree_nodes op lane 7 0
  have hlevel : (fun k => (treeNode op lane 0 k).flags) = fun _ => 0 := rfl
  rw [hlevel, hzero, Nat.zero_or] at hflags
  generalize hx : reduceTree op 7 ((List.range 128).map lane) = x
  have hx' : reduceTree op 7 ((List.range (2 ^ 7)).map (fun k => (treeNode op lane 0 k).bits)) = x := hx
  rw [hx'] at hbits hflags
  cases x
  simp only at hbits hflags
  rw [hbits, hflags]

variable {s : State} {id : CoreId} {i : Instr} {f : RegF} {mn : String} {legal : Bool} {idle : Nat} {op want : Nat → Nat → Rounded}

/-- The one lane of vD that a reduction writes, and its flags. -/
abbrev Reduced (id : CoreId) (s : State) (f : RegF) (idle : Nat) (op : Nat → Nat → Rounded) (t : State) : Prop :=
  ∃ v : Store W32,
    (∀ k, storeGet v k 0 =
      if k = 128 * f.d.toNat + (((s.core id).s f.b.toNat).toNat + f.lane.toNat) % 128
      then BitVec.ofNat 32 (treeNode op (reduceLane (s.core id) f idle) 7 0).bits else storeGet (s.core id).vreg k 0) ∧
    t.core id = { retired (s.core id) with
      vreg := v
      aflags := (s.core id).aflags ||| BitVec.ofNat 32 (treeNode op (reduceLane (s.core id) f idle) 7 0).flags }

/-- The word of a reduction. -/
abbrev ReduceWord (f : RegF) : Prop := f.fmt = 0 ∧ f.rsv = 0 ∧ f.zm = 0 ∧ f.b.toNat < 32 ∧ f.c = 0

theorem reduce_retires (he : exec i s = reduceExec mn id f legal idle op s) (hr : Ready s id) (hh : (s.core id).hold = [])
    (hw : ReduceWord f) (hl : legal = true) (hop : op = want) : Retires i id s nothing (Reduced id s f idle want) := by
  subst hop
  let j := (((s.core id).s f.b.toNat).toNat + f.lane.toNat) % 128
  let r := treeNode op (reduceLane (s.core id) f idle) 7 0
  refine retires_updCore (g := fun k => addFlags (k.setLane f.d.toNat j (BitVec.ofNat 32 r.bits))
      (tainted (s.core id) { rdV := [f.a.toNat, f.d.toNat], wrV := [f.d.toNat] }) r.flags) ?_
    (fun t ht => ⟨((retired (s.core id)).setLane f.d.toNat j (BitVec.ofNat 32 r.bits)).vreg, fun k => ?_, ?_⟩)
  · obtain ⟨hf, hv, hz, hb, hc⟩ := hw
    rw [he, reduceExec, issue_shore hr hh (by simp [hl, hf, hv, hz, isS, hb, hc]) rfl (scoreboardHolds_vectors ..) rfl rfl]
    simp only [r, ← reduceTree_lanes]
    rfl
  · split
    · rename_i hk
      rw [hk]
      exact storeGet_storePut_same ..
    · exact storeGet_storePut_other _ _ _ _ (by assumption)
  · rw [ht, addFlags_shore (c := (retired (s.core id)).setLane ..) hh]
    rfl

theorem reductionResults : claimReductionResults := by
  intro i id f idle op s hrow hr hh hf hv hz hb hc
  have hw : ReduceWord f := ⟨hf, hv, hz, hb, hc⟩
  cases hrow with
  | vrsum =>
    refine reduce_retires (show execVrsum id f s = _ from rfl) hr hh hw rfl ?_
    funext a b
    rw [zeroSign_eq]
    rfl
  | vrmax _ _ h => exact reduce_retires (show execVrmax id f s = _ from rfl) hr hh hw (by simp [h]) rfl
  | vrmin _ _ h => exact reduce_retires (show execVrmin id f s = _ from rfl) hr hh hw (by simp [h]) rfl
  | vrisum _ _ h => exact reduce_retires (show execVrisum id f s = _ from rfl) hr hh hw (by simp [h]) rfl

end Sys2Proof.Claims

open Sys2Proof Sys2Proof.Machine Sys2Proof.Claims

/-- Settles O5: a mask by its bits, a reduction by the root of its tree. -/
theorem maskAndReductionResults : Obligations.MaskAndReductionResults := ⟨maskResults, reductionResults⟩
end

section
/-! SUPPORT. Bytes of operand slots (06 R168, R177): what a slot holds after bytes, or equal rows of bytes, have been written to it. -/

namespace Sys2Proof.Machine

variable {c : Core} {b o k : Nat} {bs : List Byte}

/-- The core with other slots. -/
def Core.withSlots (c : Core) (x : Store Byte) : Core := { c with slots := x }

theorem setSlotBytes_eq (c : Core) (b o : Nat) (bs : List Byte) : c.setSlotBytes b o bs = c.withSlots (c.setSlotBytes b o bs).slots := by
  induction bs generalizing c o with
  | nil => rfl
  | cons v vs ih => exact ih (c.setSlotByte b o v) (o + 1)

/-- Slots elsewhere are as they were. -/
theorem slots_setSlotBytes_other (h : k < 32768 * b + o ∨ 32768 * b + o + bs.length ≤ k) :
    storeGet (c.setSlotBytes b o bs).slots k 0 = storeGet c.slots k 0 := by
  induction bs generalizing c o with
  | nil => rfl
  | cons v vs ih =>
    rw [List.length_cons] at h
    exact (ih (c := c.setSlotByte b o v) (o := o + 1) (by omega)).trans (storeGet_storePut_other (k := 32768 * b + o) _ _ _ _ (by omega))

/-- The bytes written are the bytes read. -/
theorem slots_setSlotBytes_at {j : Nat} (h : j < bs.length) :
    storeGet (c.setSlotBytes b o bs).slots (32768 * b + o + j) 0 = bs.getD j 0 := by
  induction bs generalizing c o j with
  | nil => simp at h
  | cons v vs ih =>
    cases j with
    | zero => exact (slots_setSlotBytes_other (c := c.setSlotByte b o v) (o := o + 1) (by omega)).trans (storeGet_storePut_same ..)
    | succ j =>
      have := ih (c := c.setSlotByte b o v) (o := o + 1) (j := j) (by simpa using h)
      rwa [show 32768 * b + (o + 1) + j = 32768 * b + o + (j + 1) by omega] at this

/-- n rows of w bytes each, one after the other. -/
def Core.setSlotRows (c : Core) (b o w : Nat) (row : Nat → List Byte) (n : Nat) : Core :=
  (List.range n).foldl (fun k r => k.setSlotBytes b (o + r * w) (row r)) c

theorem setSlotRows_succ (c : Core) (b o w : Nat) (row : Nat → List Byte) (n : Nat) :
    c.setSlotRows b o w row (n + 1) = (c.setSlotRows b o w row n).setSlotBytes b (o + n * w) (row n) := by
  rw [Core.setSlotRows, List.range_succ, List.foldl_append]
  rfl

theorem setSlotRows_eq (c : Core) (b o w : Nat) (row : Nat → List Byte) (n : Nat) :
    c.setSlotRows b o w row n = c.withSlots (c.setSlotRows b o w row n).slots := by
  induction n with
  | zero => rfl
  | succ n ih =>
    rw [setSlotRows_succ, setSlotBytes_eq, ih]
    rfl

variable {w n : Nat} {row : Nat → List Byte}

theorem slots_setSlotRows_other (hw : ∀ r, (row r).length = w) (h : k < 32768 * b + o ∨ 32768 * b + o + n * w ≤ k) :
    storeGet (c.setSlotRows b o w row n).slots k 0 = storeGet c.slots k 0 := by
  induction n with
  | zero => rfl
  | succ n ih =>
    rw [Nat.add_one_mul n w] at h
    rw [setSlotRows_succ, slots_setSlotBytes_other (by rw [hw]; omega), ih (by omega)]

theorem slots_setSlotRows_at (hw : ∀ r, (row r).length = w) {r j : Nat} (hr : r < n) (hj : j < w) :
    storeGet (c.setSlotRows b o w row n).slots (32768 * b + (o + r * w + j)) 0 = (row r).getD j 0 := by
  induction n with
  | zero => omega
  | succ n ih =>
    rw [setSlotRows_succ]
    by_cases h : r = n
    · subst h
      rw [← Nat.add_assoc]
      exact slots_setSlotBytes_at (by rw [hw]; exact hj)
    · have hle : (r + 1) * w ≤ n * w := Nat.mul_le_mul_right w (by omega)
      rw [Nat.add_one_mul r w] at hle
      rw [slots_setSlotBytes_other (by omega), ih (by omega)]

end Sys2Proof.Machine
end

section
/-! SUPPORT. The tile mover (06 R177, R178; 08 R213): a move begins, its rows are read, its rows are written. -/

namespace Sys2Proof.Claims
open Sys2Proof.Machine

variable {s t u : State} {id : CoreId} {i : Instr} {f : MoveF} {g : ImmF} {m : MoveJob} {n : Nat} {may : Part → Prop}

/-! MOVE and MWAIT. -/

@[simp] theorem landingsAt_issued (a n : Nat) : landingsAt (issued s id) a n = landingsAt s a n :=
  issued_field (fun t => landingsAt t a n) (fun _ _ _ => rfl) (fun _ _ _ _ => rfl)

theorem moveSrcPlaces_issued : moveSrcPlaces (issued s id) m = moveSrcPlaces s m := by simp only [moveSrcPlaces, ownChip_issued]

/-- A read that no landing touches adds nothing to the hold set, and is no read at sea. -/
theorem seaRead_shore {c : Core} {rs : List (Nat × Nat)} (h : ∀ r ∈ rs, landingsAt s r.1 r.2 = []) :
    (seaRead s c rs).getD [] = [] := by
  have hnone : (rs.map (fun r => landingsAt s r.1 r.2)).flatten = [] := by
    rw [List.flatten_eq_nil_iff, List.forall_mem_map]
    exact h
  rw [seaRead, hnone]
  split <;> rfl

theorem readsSea_shore {rs : List (Nat × Nat)} (h : ∀ r ∈ rs, landingsAt s r.1 r.2 = []) : readsSea s rs = false := by
  simpa [readsSea] using h

theorem moveSea_shore {c : Core} (h : ∀ r ∈ moveSrcPlaces s (moveJob f c), landingsAt s r.1 r.2 = []) : moveSea f s c = [] := by
  rw [moveSea]
  split
  · rfl
  · exact seaRead_shore h

theorem moveStart_empty {c : Core} (hm : moveEmpty (moveJob f c) = true) : moveStart f id c t = t := if_pos hm

/-- A move that reads nothing at sea joins the outstanding ones. -/
theorem moveStart_shore {c : Core} (hm : moveEmpty (moveJob f c) = false) (hs : readsSea t (moveSrcPlaces t (moveJob f c)) = false) :
    moveStart f id c t = updCore t id (fun k => { k with moves := k.moves ++ [{ moveJob f c with sea := k.atSea }] }) := by
  simp only [moveStart, hm, hs, Bool.and_false, Bool.false_eq_true, if_false]

theorem move_retires (hr : Ready s id) (hh : (s.core id).hold = []) (hl : moveLegal f = true) (hx : moveFault f id s (s.core id) = none)
    (hk : moveBlock f s (s.core id) = none) (hb : scoreboardHolds (s.core id) (moveTouch f (s.core id)) = false)
    (hp : ∀ r ∈ moveSrcPlaces s (moveJob f (s.core id)), landingsAt s r.1 r.2 = []) :
    Retires (.move id f) id s nothing (fun t => t.core id = { retired (s.core id) with
      moves := if moveEmpty (moveJob f (s.core id)) then (s.core id).moves else (s.core id).moves ++ [moveJob f (s.core id)] }) := by
  have he : exec (.move id f) s = finish (moveStart f id (s.core id) (issued s id)) := by
    show execMove id f s = _
    rw [execMove, issue_shore hr hh hl hx hb hk (moveSea_shore hp)]
  have hsea : readsSea (issued s id) (moveSrcPlaces (issued s id) (moveJob f (s.core id))) = false := by
    rw [moveSrcPlaces_issued]
    exact readsSea_shore (by simpa using hp)
  cases hm : moveEmpty (moveJob f (s.core id)) with
  | true => exact retires_issued (by rw [he, moveStart_empty hm])
  | false => exact retires_updCore (he.trans (congrArg finish (moveStart_shore hm hsea))) (fun t ht => ht)

theorem mwait_retires (hr : Ready s id) (hd : g.d = 0) (ha : g.a = 0) (hb : g.b = 0) (hv : g.rsv = 0) (hi : g.imm.toNat < 16)
    (hm : (s.core id).moves.length ≤ g.imm.toNat) :
    Retires (.mwait id g) id s nothing (fun t => t.core id = retired (s.core id)) := by
  refine retires_issued ?_
  show execMwait id g s = _
  rw [execMwait, issue_untouching hr (by simp [hd, ha, hb, hv, hi]) rfl (if_pos (by simp [hm]))]

end Sys2Proof.Claims
end

section
/-! SUPPORT. A series of stores of a core into this chip's memory, none of them absorbed or uncorrectable. -/

namespace Sys2Proof.Claims
open Sys2Proof.Machine

variable {s t : State} {id : CoreId} {a n : Nat} {may : Part → Prop} {x : Nat × List Byte} {l : List (Nat × List Byte)}

theorem ownChip_of_changes (h : Changes s t may) (hb : ¬ may .boot) : ownChip t a = ownChip s a := by
  have hboot : t.boot = s.boot := h .boot hb
  rw [ownChip, ownChip, hboot]

theorem placeResetting_of_changes (h : Changes s t may) (hb : ¬ may .boot) : placeResetting t a = placeResetting s a := by
  have hboot : t.boot = s.boot := h .boot hb
  simp only [placeResetting, hboot]

theorem poisoned_of_changes (h : Changes s t may) (hp : ¬ may .poison) : poisoned t a n = poisoned s a n := by
  have hpoison : t.poison = s.poison := h .poison hp
  rw [poisoned, poisoned, hpoison]

/-- A store that this chip takes whole. -/
abbrev StoreClean (s : State) (x : Nat × List Byte) : Prop :=
  ownChip s x.1 = true ∧ placeResetting s (placeBits x.1) = false ∧ poisoned s (placeBits x.1) x.2.length = false

theorem StoreClean.of_changes (hx : StoreClean s x) (h : Changes s t may) (hb : ¬ may .boot) (hp : ¬ may .poison) : StoreClean t x := by
  obtain ⟨hown, hreset, hpoison⟩ := hx
  exact ⟨(ownChip_of_changes h hb).trans hown, (placeResetting_of_changes h hb).trans hreset, (poisoned_of_changes h hp).trans hpoison⟩

theorem coreStore_changes (hx : StoreClean s x) (h : ∀ p, storeParts (placeBits x.1) x.2.length p → may p) :
    Changes s (coreStore s x.1 x.2) may := by
  obtain ⟨hown, hreset, hpoison⟩ := hx
  rw [coreStore_clean hown hreset hpoison, changes_stored h]
  exact Changes.refl _ _

theorem byte_coreStore_at (hx : StoreClean s x) {j : Nat} (hj : j < x.2.length) :
    (coreStore s x.1 x.2).byte (placeBits x.1 + j) = x.2.getD j 0 := by
  obtain ⟨hown, hreset, hpoison⟩ := hx
  rw [coreStore_clean hown hreset hpoison]
  exact byte_storeBytes_at _ _ _ _ hj

/-- The stores of a list, in order. -/
def storeAll (l : List (Nat × List Byte)) (s : State) : State := l.foldl (fun t x => coreStore t x.1 x.2) s

/-- What stores of a list may change. -/
abbrev storedParts (l : List (Nat × List Byte)) (p : Part) : Prop := ∃ x ∈ l, storeParts (placeBits x.1) x.2.length p

/-- A store may change bytes, words of a register page, and marks of tiles that are being moved. -/
theorem storeParts_cases {p : Part} (h : storeParts a n p) : (∃ k, k < n ∧ p = .byte (a + k)) ∨ (∃ k, p = .reg k) ∨ p = .moves := by
  rcases h with h | h | h
  · exact .inl h
  · refine .inr (.inl ?_)
    unfold stackCounter at h
    split at h
    · exact h.elim (fun e => ⟨_, e⟩) (fun e => ⟨_, e⟩)
    · exact h.elim
  · exact .inr (.inr (by simpa using h))

theorem storeParts_not_boot : ¬ storeParts a n .boot := fun h => by simpa using storeParts_cases h

theorem storeParts_not_poison : ¬ storeParts a n .poison := fun h => by simpa using storeParts_cases h

theorem storeAll_changes (hl : ∀ x ∈ l, StoreClean s x) : Changes s (storeAll l s) (storedParts l) := by
  induction l generalizing s with
  | nil => exact Changes.refl _ _
  | cons x l ih =>
    have hx := hl x (List.mem_cons_self ..)
    have h1 : Changes s (coreStore s x.1 x.2) (storeParts (placeBits x.1) x.2.length) := coreStore_changes hx (fun _ h => h)
    have h2 := ih (fun y hy => (hl y (List.mem_cons_of_mem _ hy)).of_changes h1 storeParts_not_boot storeParts_not_poison)
    exact (h1.mono fun p hp => ⟨x, List.mem_cons_self .., hp⟩).trans
      (h2.mono fun p ⟨y, hy, hp⟩ => ⟨y, List.mem_cons_of_mem _ hy, hp⟩)

/-- No byte of one is a byte of the other. -/
abbrev ApartStores (x y : Nat × List Byte) : Prop := ∀ j k, j < x.2.length → k < y.2.length → placeBits x.1 + j ≠ placeBits y.1 + k

theorem not_storedParts_byte (h : ∀ x ∈ l, ∀ k, k < x.2.length → a ≠ placeBits x.1 + k) : ¬ storedParts l (.byte a) := by
  rintro ⟨x, hx, hp⟩
  rcases storeParts_cases hp with ⟨k, hk, e⟩ | ⟨k, e⟩ | e
  · exact h x hx k hk (Part.byte.inj e)
  · cases e
  · cases e

/-- Stores apart from each other leave each its bytes. -/
theorem byte_storeAll_at (hl : ∀ x ∈ l, StoreClean s x) (hd : l.Pairwise ApartStores) (hx : x ∈ l) {j : Nat} (hj : j < x.2.length) :
    (storeAll l s).byte (placeBits x.1 + j) = x.2.getD j 0 := by
  induction l generalizing s with
  | nil => cases hx
  | cons y l ih =>
    obtain ⟨hfirst, hrest⟩ := List.pairwise_cons.1 hd
    have hy := hl y (List.mem_cons_self ..)
    have h1 : Changes s (coreStore s y.1 y.2) (storeParts (placeBits y.1) y.2.length) := coreStore_changes hy (fun _ h => h)
    have hclean : ∀ z ∈ l, StoreClean (coreStore s y.1 y.2) z := fun z hz =>
      (hl z (List.mem_cons_of_mem _ hz)).of_changes h1 storeParts_not_boot storeParts_not_poison
    rcases List.mem_cons.1 hx with rfl | hx
    · refine Eq.trans ?_ (byte_coreStore_at hy hj)
      exact storeAll_changes hclean (.byte _) (not_storedParts_byte (fun z hz k hk => hfirst z hz j k hj hk))
    · exact ih hclean hrest hx

/-- Stores change no core. -/
theorem storeAll_core (hl : ∀ x ∈ l, StoreClean s x) : (storeAll l s).core id = s.core id := by
  refine core_eq_of_changes (storeAll_changes hl) ?_
  rintro ⟨x, -, hp⟩
  simpa using storeParts_cases hp

end Sys2Proof.Claims
end

section
/-! SUPPORT. A move completes (06 R177; 08 R213): the rows it reads, and where they go. -/

namespace Sys2Proof.Claims
open Sys2Proof.Machine

variable {s t u : State} {id : CoreId} {m : MoveJob} {c : Core} {n r j : Nat}

/-! The rows that a move reads. -/

theorem stackTraffic_of_counter {a off : Nat} {p : Part} (ho : off = 0x058 ∨ off = 0x060) (h : stackCounter a off p) :
    stackTraffic p := by
  unfold stackCounter at h
  split at h
  · rename_i k _ _
    rcases h with rfl | rfl
    · exact ⟨k, off, by omega, rfl⟩
    · exact ⟨k, off + 4, by omega, rfl⟩
  · exact h.elim

theorem readBytes_le (m : MoveJob) : readBytes m ≤ moveRowBytes m := by
  unfold readBytes moveValidBytes
  split
  · exact Nat.zero_le _
  · split
    · exact Nat.le_refl _
    · exact Nat.min_le_right ..

/-- What a read of a row gives does not depend on what has been counted before. -/
theorem moveReadRow_of_changes (hown : m.sk = 0 → ownChip s (moveSrcRow m r) = true) (h : Changes s u stackTraffic) :
    (moveReadRow m c u r).1 = (moveReadRow m c s r).1 ∧ (moveReadRow m c u r).2.1 = (moveReadRow m c s r).2.1 ∧
      Changes u (moveReadRow m c u r).2.2 stackTraffic := by
  unfold moveReadRow
  split
  · rename_i hsk
    have ho := hown (BitVec.eq_of_toNat_eq hsk)
    have hbytes (a k : Nat) : u.bytes a k = s.bytes a k := by
      have hb (q : Nat) : u.byte q = s.byte q := h (.byte q) (by simp)
      simp only [State.bytes, hb]
    rw [coreRead_own ho, coreRead_own ((ownChip_of_changes h (by simp)).trans ho), hbytes]
    exact ⟨rfl, rfl, (changes_countHbm (fun p hp => stackTraffic_of_counter (.inl rfl) hp)).2 (Changes.refl _ _)⟩
  · exact ⟨rfl, rfl, Changes.refl _ _⟩
  · exact ⟨rfl, rfl, Changes.refl _ _⟩

/-- The first n rows read, in order. -/
def readUpTo (m : MoveJob) (c : Core) (s : State) (n : Nat) : List (List Byte) × Nat × State :=
  (List.range n).foldl (fun x r =>
    ((x.1 ++ [(moveReadRow m c x.2.2 r).1]), x.2.1 ||| (moveReadRow m c x.2.2 r).2.1, (moveReadRow m c x.2.2 r).2.2)) ([], 0, s)

theorem moveReadAll_eq (m : MoveJob) (c : Core) (s : State) : moveReadAll m c s = readUpTo m c s (readRows m) := rfl

theorem readUpTo_succ (m : MoveJob) (c : Core) (s : State) (n : Nat) :
    readUpTo m c s (n + 1) = ((readUpTo m c s n).1 ++ [(moveReadRow m c (readUpTo m c s n).2.2 n).1],
      (readUpTo m c s n).2.1 ||| (moveReadRow m c (readUpTo m c s n).2.2 n).2.1, (moveReadRow m c (readUpTo m c s n).2.2 n).2.2) := by
  rw [readUpTo, List.range_succ, List.foldl_append]
  rfl

/-- Every source row is what it reads as at first; only counters of stacks change; flags are those of an accumulator's elements. -/
theorem readUpTo_rows (hown : ∀ r, r < n → m.sk = 0 → ownChip s (moveSrcRow m r) = true) :
    (readUpTo m c s n).1 = (List.range n).map (fun r => (moveReadRow m c s r).1) ∧
      ((∀ r, r < n → (moveReadRow m c s r).2.1 = 0) → (readUpTo m c s n).2.1 = 0) ∧
      Changes s (readUpTo m c s n).2.2 stackTraffic := by
  induction n with
  | zero => exact ⟨rfl, fun _ => rfl, Changes.refl _ _⟩
  | succ n ih =>
    obtain ⟨hrows, hflags, hc⟩ := ih (fun r hr => hown r (by omega))
    obtain ⟨hrow, hflag, hc'⟩ := moveReadRow_of_changes (c := c) (hown n (by omega)) hc
    rw [readUpTo_succ]
    refine ⟨?_, fun h0 => ?_, hc.trans hc'⟩
    · rw [List.range_succ, List.map_append, hrows, hrow]
      rfl
    · show _ ||| _ = 0
      rw [hflags (fun r hr => h0 r (by omega)), hflag, h0 n (by omega)]
      rfl

theorem length_moveReadRow (hown : m.sk = 0 → ownChip s (moveSrcRow m r) = true) : (moveReadRow m c s r).1.length ≤ moveRowBytes m := by
  have hle := readBytes_le m
  unfold moveReadRow
  split
  · rename_i hsk
    rw [coreRead_own (hown (BitVec.eq_of_toNat_eq hsk))]
    simpa [State.bytes] using hle
  · simpa [Core.slotBytes] using hle
  · simp only [packElems, length_bytesLE, List.length_map, List.length_range]
    have h : readBytes m * 8 / fmtBits m.fmt.toNat * fmtBits m.fmt.toNat ≤ readBytes m * 8 := Nat.div_mul_le_self ..
    rw [ceilDiv]
    omega

/-- Of memory and of a slot the bytes are moved as they are, without a flag. -/
theorem moveReadRow_bytes (hown : m.sk = 0 → ownChip s (moveSrcRow m r) = true) (h2 : m.sk ≠ 2) (hle : m.sk.toNat ≤ 2) :
    (moveReadRow m c s r).2.1 = 0 ∧ (moveReadRow m c s r).1 = (List.range (readBytes m)).map (fun j =>
      if m.sk = 0 then s.byte (placeBits (moveSrcRow m r) + j)
      else c.slotByte (slotNo m.src) (slotOff m.src + r * moveRowBytes m + j)) := by
  unfold moveReadRow
  split
  · rename_i hsk
    have h0 : m.sk = 0 := BitVec.eq_of_toNat_eq hsk
    rw [coreRead_own (hown h0)]
    simp only [h0, if_true]
    exact ⟨trivial, rfl⟩
  · rename_i hsk
    have h1 : m.sk = 1 := BitVec.eq_of_toNat_eq hsk
    rw [h1]
    exact ⟨rfl, rfl⟩
  · rename_i hn0 hn1
    have h0 : m.sk.toNat ≠ 0 := hn0
    have h1 : m.sk.toNat ≠ 1 := hn1
    have h2' : m.sk.toNat ≠ 2 := fun h => h2 (BitVec.eq_of_toNat_eq h)
    omega

/-! The rows that a move writes. -/

theorem length_moveRowOut {rows : List (List Byte)} (h : (rows.getD r []).length ≤ moveRowBytes m) :
    (moveRowOut m rows r).length = moveRowBytes m := by
  simp only [moveRowOut, List.length_append, List.length_replicate]
  omega

/-- The rows read, for a move that is given the core as it was. -/
abbrev rowsRead (m : MoveJob) (c : Core) (s : State) : List (List Byte) :=
  (List.range (readRows m)).map (fun r => (moveReadRow m c s r).1)

theorem getD_rowsRead (m : MoveJob) (c : Core) (s : State) (r : Nat) :
    (rowsRead m c s).getD r [] = if r < readRows m then (moveReadRow m c s r).1 else [] := by
  by_cases h : r < readRows m <;> simp [List.getD_eq_getElem?_getD, h]

theorem length_rowOut (hown : ∀ r, r < readRows m → m.sk = 0 → ownChip s (moveSrcRow m r) = true) (r : Nat) :
    (moveRowOut m (rowsRead m c s) r).length = moveRowBytes m := by
  refine length_moveRowOut ?_
  rw [getD_rowsRead]
  split
  · rename_i hr
    exact length_moveReadRow (hown r hr)
  · exact Nat.zero_le _

/-- Valid bytes, then zeros (08 R213). -/
theorem getD_rowOut (hown : ∀ r, r < readRows m → m.sk = 0 → ownChip s (moveSrcRow m r) = true) (h2 : m.sk ≠ 2)
    (hle : m.sk.toNat ≤ 2) (hj : j < moveRowBytes m) : (moveRowOut m (rowsRead m c s) r).getD j 0 = moveByte s c m r j := by
  have hlen := readBytes_le m
  rw [moveRowOut, getD_rowsRead, moveByte]
  by_cases hr : r < readRows m
  · rw [if_pos hr, (moveReadRow_bytes (hown r hr) h2 hle).2]
    by_cases hb : j < readBytes m
    · rw [if_pos ⟨hr, hb⟩]
      simp [List.getD_eq_getElem?_getD, List.getElem?_append_left, hb]
    · rw [if_neg (fun h => hb h.2)]
      simp [List.getD_eq_getElem?_getD, List.getElem?_append_right, List.getElem?_replicate, Nat.le_of_not_lt hb]
      split <;> rfl
  · rw [if_neg hr, if_neg (fun h => hr h.1)]
    simp [List.getD_eq_getElem?_getD, hj]

/-! The whole move. -/

theorem foldl_updCore (l : List Nat) (g : Nat → Core → Core) (t : State) :
    (l.foldl (fun u r => updCore u id (g r)) t).core id = l.foldl (fun k r => g r k) (t.core id) ∧
      Changes t (l.foldl (fun u r => updCore u id (g r)) t) (parts [.core id.toNat]) := by
  induction l generalizing t with
  | nil => exact ⟨rfl, Changes.refl _ _⟩
  | cons r l ih =>
    obtain ⟨hcore, hc⟩ := ih (updCore t id (g r))
    rw [updCore_core] at hcore
    exact ⟨hcore, Changes.trans ((changes_updCore (by simp)).2 (Changes.refl _ _)) hc⟩

/-- Into a slot. -/
theorem moveWriteAll_slot (hdk : m.dk ≠ 0) (rows : List (List Byte)) (t : State) :
    (moveWriteAll m id rows t).core id =
        (t.core id).setSlotRows (slotNo m.dst) (slotOff m.dst) (moveRowBytes m) (moveRowOut m rows) (moveRows m) ∧
      Changes t (moveWriteAll m id rows t) (parts [.core id.toNat]) := by
  simp only [moveWriteAll, if_neg hdk]
  exact foldl_updCore (List.range (moveRows m))
    (fun r k => k.setSlotBytes (slotNo m.dst) (slotOff m.dst + r * moveRowBytes m) (moveRowOut m rows r)) t

/-- Into memory. -/
theorem moveWriteAll_mem (hdk : m.dk = 0) (rows : List (List Byte)) (t : State) :
    moveWriteAll m id rows t = storeAll ((List.range (moveRows m)).map (fun r => (moveDstRow m r, moveRowOut m rows r))) t := by
  simp only [moveWriteAll, if_pos hdk, storeAll, List.foldl_map]

/-- A move issued on shore, whose source is correctable: its rows are read, they are written, and their flags join AFLAGS. -/
theorem moveFinish_clean (hsea : m.sea = false) (hp : ∀ r ∈ moveSrcRanges m, poisoned s (placeBits r.1) r.2 = false) :
    moveFinish m n id s = updCore
      (moveWriteAll m id (readUpTo m (s.core id) (updCore s id (fun k => dropMove k n)) (readRows m)).1
        (readUpTo m (s.core id) (updCore s id (fun k => dropMove k n)) (readRows m)).2.2) id
      (fun k => addFlags k false (readUpTo m (s.core id) (updCore s id (fun k => dropMove k n)) (readRows m)).2.1) := by
  have hfind : (moveSrcRanges m).find? (fun r => ownChip (updCore s id (fun k => dropMove k n)) r.1 &&
      poisoned (updCore s id (fun k => dropMove k n)) (placeBits r.1) r.2) = none := by
    rw [List.find?_eq_none]
    intro r hr
    have h : poisoned (updCore s id (fun k => dropMove k n)) (placeBits r.1) r.2 = false := hp r hr
    simp [h]
  simp only [moveFinish, hfind, hsea, Bool.false_and, moveReadAll_eq]

theorem moveDone_eq (h : MoveEnds s id n m) {k : Fin 8} (hk : k.val = n) : exec (.moveDone id k) s = finish (moveFinish m n id s) := by
  obtain ⟨hok, hrun, hpart, -, -, hnth, hheld, -⟩ := h
  show execMoveDone id k s = _
  simp [execMoveDone, hok, hk, hnth, hrun, hpart, hheld]

/-- The source's rows, of a move that ends. -/
theorem own_of_moveEnds (h : MoveEnds s id n m) : ∀ r, r < readRows m → m.sk = 0 → ownChip s (moveSrcRow m r) = true := by
  obtain ⟨-, -, -, -, -, -, -, -, hsrc⟩ := h
  intro r hr h0
  exact (hsrc (moveSrcRow m r, readBytes m) (by simpa [moveSrcRanges, h0] using ⟨r, hr, rfl⟩)).1

theorem poison_of_moveEnds (h : MoveEnds s id n m) : ∀ r ∈ moveSrcRanges m, poisoned s (placeBits r.1) r.2 = false := by
  obtain ⟨-, -, -, -, -, -, -, -, hsrc⟩ := h
  exact fun r hr => (hsrc r hr).2.2

theorem dropMove_eq (c : Core) (n : Nat) : dropMove c n = { c with moves := c.moves.eraseIdx n } := by
  rw [List.eraseIdx_eq_take_drop_succ]
  rfl

end Sys2Proof.Claims
end

section
/-! SUPPORT. What a move leaves that completes: its core, the slot, memory. -/

namespace Sys2Proof.Claims
open Sys2Proof.Machine

variable {s : State} {id : CoreId} {m : MoveJob} {n : Nat}

/-- The rows that a completing move reads, their flags, and the state after the reads. -/
abbrev movedRows (s : State) (id : CoreId) (m : MoveJob) (n : Nat) : List (List Byte) × Nat × State :=
  readUpTo m (s.core id) (updCore s id (fun k => dropMove k n)) (readRows m)

/-- What was read is the source as it is, without a flag unless of a tile; the core has only dropped its move. -/
theorem movedRows_facts (h : MoveEnds s id n m) :
    (movedRows s id m n).1 = rowsRead m (s.core id) (updCore s id (fun k => dropMove k n)) ∧
      (m.sk ≠ 2 → (movedRows s id m n).2.1 = 0) ∧
      Changes s (movedRows s id m n).2.2 (also (coreParts id) stackTraffic) ∧
      (movedRows s id m n).2.2.core id = dropMove (s.core id) n := by
  have hown := own_of_moveEnds h
  obtain ⟨-, -, -, -, -, -, -, hle, -⟩ := h
  obtain ⟨hrows, hflags, hc⟩ :=
    readUpTo_rows (m := m) (c := s.core id) (s := updCore s id (fun k => dropMove k n)) (n := readRows m) hown
  refine ⟨hrows, fun h2 => ?_, ?_, ?_⟩
  · exact hflags (fun r hr => (moveReadRow_bytes (s := updCore s id (fun k => dropMove k n)) (hown r hr) h2 hle).1)
  · exact Changes.trans ((changes_updCore (by simp)).2 (Changes.refl _ _)) (hc.mono fun p hp => .inr hp)
  · rw [core_eq_of_changes hc (by simp), updCore_core]

/-- The bytes written are those of the source. -/
theorem getD_movedRows (h : MoveEnds s id n m) (h2 : m.sk ≠ 2) {r j : Nat} (hj : j < moveRowBytes m) :
    (moveRowOut m (movedRows s id m n).1 r).getD j 0 = moveByte s (s.core id) m r j := by
  rw [(movedRows_facts h).1]
  have hown := own_of_moveEnds h
  obtain ⟨-, -, -, -, -, -, -, hle, -⟩ := h
  exact getD_rowOut (s := updCore s id (fun k => dropMove k n)) hown h2 hle hj

theorem length_movedRows (h : MoveEnds s id n m) (r : Nat) : (moveRowOut m (movedRows s id m n).1 r).length = moveRowBytes m := by
  rw [(movedRows_facts h).1]
  have hown := own_of_moveEnds h
  exact length_rowOut (s := updCore s id (fun k => dropMove k n)) hown r

/-! Into a slot. -/

/-- The slots after a move into one. -/
abbrev movedSlots (s : State) (id : CoreId) (m : MoveJob) (n : Nat) : Store Byte :=
  ((dropMove (s.core id) n).setSlotRows (slotNo m.dst) (slotOff m.dst) (moveRowBytes m) (moveRowOut m (movedRows s id m n).1)
    (moveRows m)).slots

theorem dropMove_withSlots (c : Core) (n : Nat) (x : Store Byte) (fl : W32) :
    { (dropMove c n).withSlots x with aflags := ((dropMove c n).withSlots x).aflags ||| fl } =
      { c with moves := c.moves.eraseIdx n, slots := x, aflags := c.aflags ||| fl } := by
  rw [dropMove_eq]
  rfl

theorem moveFinish_slot (h : MoveEnds s id n m) (hdk : m.dk ≠ 0) :
    Changes s (moveFinish m n id s) (also (coreParts id) stackTraffic) ∧
      (moveFinish m n id s).core id = { s.core id with
        moves := (s.core id).moves.eraseIdx n, slots := movedSlots s id m n
        aflags := (s.core id).aflags ||| BitVec.ofNat 32 (movedRows s id m n).2.1 } := by
  obtain ⟨-, -, hc, hcore⟩ := movedRows_facts h
  obtain ⟨hcore', hc'⟩ := moveWriteAll_slot (id := id) hdk (movedRows s id m n).1 (movedRows s id m n).2.2
  rw [hcore, setSlotRows_eq] at hcore'
  have hpoison := poison_of_moveEnds h
  obtain ⟨-, -, -, hhold, hsea, -⟩ := h
  rw [moveFinish_clean hsea hpoison]
  constructor
  · refine (changes_updCore (by simp)).2 (hc.trans (hc'.mono fun p hp => ?_))
    rw [parts_iff, List.mem_singleton] at hp
    exact .inl (by simp [hp])
  · rw [updCore_core, hcore', addFlags_shore (show ((dropMove (s.core id) n).withSlots _).hold = [] from hhold)]
    exact dropMove_withSlots ..

/-! Into memory. -/

/-- The stores of a move into memory. -/
abbrev movedStores (s : State) (id : CoreId) (m : MoveJob) (n : Nat) : List (Nat × List Byte) :=
  (List.range (moveRows m)).map (fun r => (moveDstRow m r, moveRowOut m (movedRows s id m n).1 r))

/-- A destination that this chip takes. -/
abbrev DestClean (s : State) (m : MoveJob) : Prop :=
  ∀ r ∈ moveDstRanges m, ownChip s r.1 = true ∧ onePlace (placeBits r.1) r.2 = true ∧ placeResetting s (placeBits r.1) = false ∧
    poisoned s (placeBits r.1) r.2 = false

theorem movedStores_clean (h : MoveEnds s id n m) (hdk : m.dk = 0) (hd : DestClean s m) :
    ∀ x ∈ movedStores s id m n, StoreClean (movedRows s id m n).2.2 x := by
  obtain ⟨-, -, hc, -⟩ := movedRows_facts h
  intro x hx
  obtain ⟨r, hr, rfl⟩ := List.mem_map.1 hx
  obtain ⟨hown, -, hreset, hpoison⟩ := hd (moveDstRow m r, moveRowBytes m) (by
    rw [moveDstRanges, if_pos hdk]
    exact List.mem_map_of_mem hr)
  refine StoreClean.of_changes ⟨hown, hreset, ?_⟩ hc (by simp) (by simp)
  rw [length_movedRows h]
  exact hpoison

theorem storedParts_movedStores (h : MoveEnds s id n m) (hdk : m.dk = 0) {p : Part} (hp : storedParts (movedStores s id m n) p) :
    also stackTraffic (also (bytesOf (moveDstRanges m)) (parts [.moves])) p := by
  obtain ⟨x, hx, hp⟩ := hp
  obtain ⟨r, hr, rfl⟩ := List.mem_map.1 hx
  rw [length_movedRows h] at hp
  rcases hp with hp | hp | hp
  · refine .inr (.inl ⟨(moveDstRow m r, moveRowBytes m), ?_, hp⟩)
    rw [moveDstRanges, if_pos hdk]
    exact List.mem_map_of_mem hr
  · exact .inl (stackTraffic_of_counter (.inr rfl) hp)
  · exact .inr (.inr hp)

theorem moveFinish_mem (h : MoveEnds s id n m) (hdk : m.dk = 0) (hd : DestClean s m) :
    Changes s (moveFinish m n id s) (also (coreParts id) (also stackTraffic (also (bytesOf (moveDstRanges m)) (parts [.moves])))) ∧
      (moveFinish m n id s).core id = { s.core id with
        moves := (s.core id).moves.eraseIdx n, aflags := (s.core id).aflags ||| BitVec.ofNat 32 (movedRows s id m n).2.1 } ∧
      (∀ a, (moveFinish m n id s).byte a = (storeAll (movedStores s id m n) (movedRows s id m n).2.2).byte a) := by
  obtain ⟨-, -, hc, hcore⟩ := movedRows_facts h
  have hclean := movedStores_clean h hdk hd
  have hcore' := (storeAll_core (id := id) hclean).trans hcore
  have hc' := (storeAll_changes hclean).mono (fun p hp => storedParts_movedStores h hdk hp)
  have hpoison := poison_of_moveEnds h
  obtain ⟨-, -, -, hhold, hsea, -⟩ := h
  rw [moveFinish_clean hsea hpoison, moveWriteAll_mem hdk]
  refine ⟨?_, ?_, fun _ => rfl⟩
  · refine (changes_updCore (by simp)).2 (Changes.trans (hc.mono fun p hp => ?_) (hc'.mono fun p hp => .inr hp))
    exact hp.imp_right .inl
  · rw [updCore_core, hcore', addFlags_shore (show (dropMove (s.core id) n).hold = [] from hhold), dropMove_eq]

/-- Ranges that do not overlap share no address. -/
theorem ne_of_overlap_false {a b w j k : Nat} (h : overlap a w b w = false) (hj : j < w) (hk : k < w) : a + j ≠ b + k := by
  simp only [overlap, Bool.and_eq_false_iff, decide_eq_false_iff_not, bne_eq_false_iff_eq] at h
  omega

theorem movedStores_apart (h : MoveEnds s id n m)
    (ha : ∀ r r', r < moveRows m → r' < moveRows m → r ≠ r' →
      overlap (placeBits (moveDstRow m r)) (moveRowBytes m) (placeBits (moveDstRow m r')) (moveRowBytes m) = false) :
    (movedStores s id m n).Pairwise ApartStores := by
  rw [List.pairwise_map]
  refine List.Pairwise.imp_of_mem (R := fun r r' => r < r') ?_ List.pairwise_lt_range
  intro r r' hr hr' hlt j k hj hk
  rw [length_movedRows h] at hj hk
  exact ne_of_overlap_false (ha r r' (List.mem_range.1 hr) (List.mem_range.1 hr') (by omega)) hj hk

end Sys2Proof.Claims

open Sys2Proof Sys2Proof.Machine Sys2Proof.Claims

/-- Settles O12: a move's rows are read one by one from the state as it was and written as they were read, and the rows of a slot, or
of stores apart from each other, stay as they were written. -/
theorem moveResults : Obligations.MoveResults := by
  refine ⟨fun id f s hr hh hl hx hk hb hp => move_retires hr hh hl hx hk hb hp, fun id k m s h hdk hfit => ?_,
    fun id k m s h hdk hd => ?_, fun id f s hr hd ha hb hv hi hm => mwait_retires hr hd ha hb hv hi hm⟩
  · obtain ⟨hc, hcore⟩ := moveFinish_slot h (by simp [hdk])
    have hw := length_movedRows h
    refine completes_finish (moveDone_eq h rfl) (.inl (by simp)) hc ⟨_, _, (signal_core ..).trans hcore, ?_, fun h2 => ⟨?_, ?_⟩⟩
    · intro b o hb ho hout
      exact slots_setSlotRows_other (c := dropMove (s.core id) k.val) hw (by omega)
    · rw [(movedRows_facts h).2.1 h2]
      rfl
    · intro r j hr hj
      rw [slots_setSlotRows_at hw hr hj, getD_movedRows h h2 hj]
  · obtain ⟨hc, hcore, hbyte⟩ := moveFinish_mem h hdk hd
    refine completes_finish (moveDone_eq h rfl) (.inl (by simp)) hc ⟨_, (signal_core ..).trans hcore, fun h2 ha => ⟨?_, ?_⟩⟩
    · rw [(movedRows_facts h).2.1 h2]
      rfl
    · intro r j hr hj
      refine (((signal_byte ..).trans (hbyte _)).trans ?_).trans (getD_movedRows h h2 hj)
      exact byte_storeAll_at (movedStores_clean h hdk hd) (movedStores_apart h ha) (List.mem_map_of_mem (List.mem_range.2 hr))
        (by rw [length_movedRows h]; exact hj)
end

section
/-! SUPPORT. Vector loads (06 R167 to R170): the bytes they read, and the lanes those make. -/

namespace Sys2Proof.Claims
open Sys2Proof.Machine

variable {s : State} {id : CoreId} {f : VmemF} {c : Core}

/-! Where an access without a fault lies. -/

/-- A place address of scratchpad. -/
abbrev InScratch (a : Nat) : Prop := ∃ cl off, placeOf a = some (.scratch cl off)

theorem slotForm_of_ne (h : f.space ≠ 1) : vmSlotForm f = false := beq_eq_false_iff_ne.2 h

theorem slotForm_of_eq (h : f.space = 1) : vmSlotForm f = true := beq_iff_eq.2 h

theorem firstFault_none {x y : Option FaultRec} (h : firstFault [x, y] = none) : x = none ∧ y = none := by
  cases x with
  | none => exact ⟨rfl, h⟩
  | some r =>
    cases y with
    | none => exact absurd h (by simp [firstFault])
    | some q =>
      simp only [firstFault, List.foldl_cons, List.foldl_nil] at h
      split at h <;> cases h

/-- Elements and scales outside a slot lie in scratchpad, each whole in it. -/
theorem inScratch_of_vmFault {write : Bool} (hf : vmFault f write id s c = none) (hs : f.space ≠ 1) :
    ∀ r ∈ vmRanges f c, InScratch (placeBits r.1) ∧ coreAccessFault s id r.1 r.2 write = none := by
  have hslot := slotForm_of_ne hs
  have hpart (x n : Nat) (h : (if !(match placeOf (placeBits x) with
        | some (.scratch _ _) => true
        | _ => false) then some { code := 0x1002, addr := x : FaultRec }
      else (coreAccessFault s id x n write).map (fun e => { code := e, addr := x })) = none) :
      InScratch (placeBits x) ∧ coreAccessFault s id x n write = none := by
    cases hp : placeOf (placeBits x) with
    | none => simp [hp] at h
    | some p =>
      cases p with
      | scratch cl off =>
        refine ⟨⟨cl, off, hp⟩, ?_⟩
        simpa [hp] using h
      | hbm k off => simp [hp] at h
  simp only [vmFault, hslot, Bool.false_eq_true, if_false] at hf
  split at hf
  · cases hf
  · obtain ⟨helem, hscale⟩ := firstFault_none hf
    intro r hr
    simp only [vmRanges, hslot, Bool.false_eq_true, if_false, List.mem_cons] at hr
    rcases hr with rfl | hr
    · exact hpart _ _ helem
    · split at hr
      · rename_i hmx
        rw [if_pos hmx] at hscale
        rw [List.mem_singleton.1 hr]
        exact hpart _ _ hscale
      · cases hr

theorem countHbm_scratch {a n off : Nat} (h : InScratch a) : countHbm s a n off = s := by
  obtain ⟨cl, o, h⟩ := h
  simp only [countHbm, h]

theorem mem_vmRanges_base (hs : f.space ≠ 1) : (vmBase f c, vmBytes f) ∈ vmRanges f c := by simp [vmRanges, slotForm_of_ne hs]

theorem mem_vmRanges_scale (hs : f.space ≠ 1) (hm : vmMx f = true) : (vmScaleAt f c, vmScales f) ∈ vmRanges f c := by
  simp [vmRanges, slotForm_of_ne hs, hm]

/-- What holds of every range holds of every place. -/
theorem forall_vmPlaces {p : Nat × Nat → Prop} (h : ∀ r ∈ vmRanges f c, p (placeBits r.1, r.2)) : ∀ r ∈ vmPlaces f s c, p r := by
  intro r hr
  obtain ⟨q, hq, rfl⟩ := List.mem_map.1 hr
  exact h q (List.mem_filter.1 hq).1

/-! The bytes read. -/

theorem getD_slotBytes (c : Core) (b o : Nat) {n j : Nat} (h : j < n) : (c.slotBytes b o n).getD j 0 = c.slotByte b (o + j) := by
  simp [Core.slotBytes, List.getD_eq_getElem?_getD, h]

theorem getD_bytes (s : State) (a : Nat) {n j : Nat} (h : j < n) : (s.bytes a n).getD j 0 = s.byte (a + j) := by
  simp [State.bytes, List.getD_eq_getElem?_getD, h]

theorem coreRead_scratch {a n : Nat} (ho : ownChip s a = true) (h : InScratch (placeBits a)) :
    coreRead s a n = (s.bytes (placeBits a) n, s) := by
  rw [coreRead_own ho, countHbm_scratch h]

theorem vmScales_plain (hm : vmMx f = false) : vmScales f = 0 := by simp [vmScales, hm]

/-- A load reads the bytes of its row and of its scales, and changes nothing. -/
theorem vldBytes_eq (hown : ∀ r ∈ vmRanges f c, ownChip s r.1 = true)
    (hin : f.space ≠ 1 → ∀ r ∈ vmRanges f c, InScratch (placeBits r.1)) :
    vldBytes f c s = if f.space = 1 then
        (c.slotBytes f.slot.toNat (vmSlotByte f c) (vmBytes f), c.slotBytes f.slot.toNat (vmScaleAt f c) (vmScales f), s)
      else (s.bytes (placeBits (vmBase f c)) (vmBytes f), s.bytes (placeBits (vmScaleAt f c)) (vmScales f), s) := by
  by_cases hs : f.space = 1
  · rw [if_pos hs, vldBytes, if_pos (slotForm_of_eq hs)]
    cases hm : vmMx f with
    | true => rfl
    | false =>
      rw [vmScales_plain hm]
      rfl
  · have hbase := mem_vmRanges_base (f := f) (c := c) hs
    rw [if_neg hs, vldBytes, if_neg (by simp [slotForm_of_ne hs])]
    simp only [coreRead_scratch (hown _ hbase) (hin hs _ hbase)]
    cases hm : vmMx f with
    | true =>
      have hscale := mem_vmRanges_scale (f := f) (c := c) hs hm
      simp only [coreRead_scratch (hown _ hscale) (hin hs _ hscale), if_true]
    | false =>
      rw [vmScales_plain hm]
      rfl

/-! The lanes they make. -/

theorem vldLane_eq (f : VmemF) (es ss : List Byte) (k : Nat) :
    vldLane f es ss k = loadedLane f (fun j => es.getD j 0) (fun j => ss.getD j 0) k := by
  have hcode (n : Nat) (hn : n < 16) : vmCode f = n ↔ f.fmt = BitVec.ofNat 4 n := by
    rw [← BitVec.toNat_inj, BitVec.toNat_ofNat, Nat.mod_eq_of_lt hn]
    rfl
  simp only [vldLane, loadedLane, Bool.or_eq_true, decide_eq_true_eq, hcode 0 (by decide), hcode 8 (by decide), vmMx, beq_iff_eq]
  rfl

/-- A load's lanes on the core as it was at issue. -/
theorem loadedLanes_setVreg (c : Core) (f : VmemF) (es ss : List Byte) :
    LoadedLanes c f (fun j => es.getD j 0) (fun j => ss.getD j 0) (c.setVreg f.v.toNat (wordsOfResults (vldLanes f c es ss))).vreg := by
  intro r i hi
  refine (lane_setVreg c f.v.toNat _ (by simp [wordsOfResults, vldLanes]) r i hi).trans ?_
  by_cases hr : r = f.v.toNat
  · rw [if_pos hr, if_pos hr, vldLanes, getD_wordsOfResults _ hi, hr]
    show BitVec.ofNat 32 (Rounded.bits (if f.nm1.toNat + 1 ≤ i then _ else if active c f.mask i then _ else _)) = _
    split
    · rfl
    · split
      · rw [vldLane_eq]
      · exact BitVec.ofNat_toNat ..
  · rw [if_neg hr, if_neg hr]

/-- Lanes without a flag add none. -/
theorem foldl_or_range {n k : Nat} {g : Nat → Nat} (h : ∀ i, n ≤ i → g i = 0) :
    (List.range (n + k)).foldl (fun a i => a ||| g i) 0 = (List.range n).foldl (fun a i => a ||| g i) 0 := by
  rw [List.range_add, List.foldl_append, List.foldl_map]
  generalize (List.range n).foldl (fun a i => a ||| g i) 0 = x
  simp only [h _ (Nat.le_add_right n _), Nat.or_zero]
  exact List.foldl_fixed ..

theorem joinFlags_vldLanes (c : Core) (f : VmemF) (es ss : List Byte) :
    BitVec.ofNat 32 (joinFlags (vldLanes f c es ss)) = loadedFlags c f (fun j => es.getD j 0) (fun j => ss.getD j 0) := by
  have hn : 128 = vmCount f + (127 - f.nm1.toNat) := by
    unfold vmCount
    omega
  rw [vldLanes, joinFlags_map, loadedFlags]
  refine congrArg (BitVec.ofNat 32) ((congrArg (fun l => List.foldl _ 0 (List.range l)) hn).trans ?_)
  rw [foldl_or_range]
  · show List.foldl _ 0 (List.range (vmCount f)) = List.foldl _ 0 (List.range (vmCount f))
    refine List.foldl_ext _ _ _ fun a i hi => ?_
    have hi' : ¬ vmCount f ≤ i := Nat.not_le.2 (List.mem_range.1 hi)
    show a ||| Rounded.flags (if vmCount f ≤ i then _ else if active c f.mask i then _ else _) = _
    rw [if_neg hi', vldLane_eq]
    split
    · rfl
    · exact Nat.or_zero a
  · intro i hi
    rw [if_pos (show vmCount f ≤ i from hi)]

/-! The instruction. -/

/-- Bytes that no unconfirmed consignment touches add nothing to the hold set. -/
theorem seaRead_unblocked {rs : List (Nat × Nat)} (h : ∀ r ∈ rs, shoreBlocked s r.1 r.2 = false) : seaRead s c rs = some [] := by
  have hzone : rs.any (fun r => zoneUnlanded s r.1 r.2) = false := by
    rw [List.any_eq_false]
    intro r hr
    have := h r hr
    simp only [shoreBlocked, Bool.or_eq_false_iff] at this
    simp [this.1]
  have hland : (rs.map (fun r => landingsAt s r.1 r.2)).flatten = [] := by
    rw [List.flatten_eq_nil_iff, List.forall_mem_map]
    intro r hr
    have := h r hr
    simp only [shoreBlocked, Bool.or_eq_false_iff, Bool.not_eq_false'] at this
    exact List.isEmpty_iff.1 this.2
  simp [seaRead, hzone, hland]

theorem landingsAt_of_shore {a n : Nat} (h : shoreBlocked s a n = false) : landingsAt s a n = [] := by
  simp only [shoreBlocked, Bool.or_eq_false_iff, Bool.not_eq_false'] at h
  exact List.isEmpty_iff.1 h.2

/-- No outstanding move and no write of a tile or of a row: the scoreboard lets it through. -/
theorem scoreboardHolds_still {t : Touch} (hm : c.moves = []) (hh : c.hold = []) (ht : t.wrT = []) (hr : t.wrR = []) :
    scoreboardHolds c t = false := by
  simp [scoreboardHolds, hm, ht, hr, anyBit, Core.atSea, hh]

theorem vldEffect_shore {t : State} (hp : ∀ r ∈ vmPlaces f t c, poisoned t r.1 r.2 = false)
    (hl : ∀ r ∈ vmPlaces f t c, landingsAt t r.1 r.2 = []) :
    vldEffect f id c t = updCore (vldBytes f c t).2.2 id (fun k =>
      addFlags (k.setVreg f.v.toNat (wordsOfResults (vldLanes f c (vldBytes f c t).1 (vldBytes f c t).2.1)))
        (tainted c (vldTouch f c)) (joinFlags (vldLanes f c (vldBytes f c t).1 (vldBytes f c t).2.1))) := by
  have hfind : (vmPlaces f t c).find? (fun r => poisoned t r.1 r.2) = none :=
    List.find?_eq_none.2 fun r hr => by simp [hp r hr]
  simp only [vldEffect, hfind, readsSea_shore hl, Bool.false_eq_true, if_false, Bool.false_or]

theorem vectorLoadResults : claimVectorLoadResults := by
  intro id f s hr hh hm hl ⟨hfault, hnow⟩
  have hread : ∀ r ∈ vmRanges f (s.core id), readWaits s (s.core id) r.1 r.2 = false ∧ shoreBlocked s (placeBits r.1) r.2 = false :=
    fun r hr => (hnow r hr).2.2
  have hsea : seaRead s (s.core id) (vmPlaces f s (s.core id)) = some [] :=
    seaRead_unblocked (forall_vmPlaces fun r hr => (hread r hr).2)
  have hwait : (vmRanges f (s.core id)).any (fun r => readWaits s (s.core id) r.1 r.2) = false :=
    List.any_eq_false.2 fun r hr => by simp [(hread r hr).1]
  have hbytes := vldBytes_eq (s := issued s id) (f := f) (c := s.core id) (fun r hr => ownChip_issued.trans (hnow r hr).1)
    (fun hs r hr => (inScratch_of_vmFault hfault hs r hr).1)
  have he : exec (.vld id f) s = finish (vldEffect f id (s.core id) (issued s id)) := by
    show execVld id f s = _
    rw [execVld, issue_shore hr hh hl hfault (scoreboardHolds_still hm hh rfl rfl) (by simp [hwait, hsea]) (by simp [hsea])]
  rw [vldEffect_shore (forall_vmPlaces fun r hr => by simpa using (hnow r hr).2.1)
    (forall_vmPlaces fun r hr => by simpa using landingsAt_of_shore (hread r hr).2),
    show (vldBytes f (s.core id) (issued s id)).2.2 = issued s id by rw [hbytes]; split <;> rfl] at he
  refine retires_updCore he fun t ht => ⟨_, _, _, ?_, ?_, loadedLanes_setVreg (s.core id) f (vldBytes f (s.core id) (issued s id)).1
    (vldBytes f (s.core id) (issued s id)).2.1, ?_⟩
  · intro j hj
    rw [hbytes]
    split
    · exact getD_slotBytes _ _ _ hj
    · exact (getD_bytes _ _ hj).trans issued_byte
  · intro j hj
    rw [hbytes]
    split
    · exact getD_slotBytes _ _ _ hj
    · exact (getD_bytes _ _ hj).trans issued_byte
  · rw [ht, addFlags_shore (c := (retired (s.core id)).setVreg ..) hh, joinFlags_vldLanes]
    rfl

end Sys2Proof.Claims
end

section
/-! SUPPORT. The words that conversions give fit their formats (03 R86, R94, R97, R98). -/

namespace Sys2Proof.Machine

variable {f : FloatFmt} {m q : Nat}

theorem signBit_le (f : FloatFmt) (neg : Bool) : signBit f neg ≤ 2 ^ (f.eb + f.fb) := by
  unfold signBit
  split
  · exact Nat.le_refl _
  · exact Nat.zero_le _

/-- An exponent field and a fraction below the top fit the word. -/
theorem fields_lt (neg : Bool) {ex frac : Nat} (hex : ex < 2 ^ f.eb) (hfrac : frac < 2 ^ f.fb) :
    signBit f neg + ex * 2 ^ f.fb + frac < 2 ^ (f.eb + f.fb + 1) := by
  have hsign := signBit_le f neg
  have hmul : (ex + 1) * 2 ^ f.fb ≤ 2 ^ f.eb * 2 ^ f.fb := Nat.mul_le_mul_right _ hex
  rw [← Nat.pow_add, Nat.add_one_mul] at hmul
  rw [Nat.pow_succ]
  omega

theorem signBit_lt (f : FloatFmt) (neg : Bool) : signBit f neg < 2 ^ (f.eb + f.fb + 1) := by
  have hsign := signBit_le f neg
  have hpos : 0 < 2 ^ (f.eb + f.fb) := by positivity
  rw [Nat.pow_succ]
  omega

theorem infBits_lt (f : FloatFmt) (neg : Bool) : infBits f neg < 2 ^ (f.eb + f.fb + 1) :=
  fields_lt (ex := 2 ^ f.eb - 1) (frac := 0) neg (Nat.sub_lt (by positivity) (by decide)) (by positivity)

/-- A significand within its bits at an exponent within its range is a word of the format. -/
theorem packBits_lt (hc : f.Consistent) (neg : Bool) {m : Nat} {q : Int} (hm : m < 2 ^ (f.fb + 1)) (hq : q ≤ f.qmax) :
    packBits f neg m q < 2 ^ (f.eb + f.fb + 1) := by
  have hsign := signBit_le f neg
  by_cases h : m < 2 ^ f.fb
  · rw [packBits_subnormal neg h]
    have := fields_lt (f := f) (ex := 0) neg (by positivity) h
    omega
  · have hex : (q + (f.fb : Int) + (f.bias : Int)).toNat < 2 ^ f.eb := by
      have hpos : 0 < 2 ^ f.eb := by positivity
      rw [hc.qmax_eq] at hq
      omega
    rw [packBits, if_neg h]
    exact fields_lt neg hex (by rw [Nat.pow_succ] at hm; omega)

theorem mmax_lt (hc : f.Consistent) : f.mmax < 2 ^ (f.fb + 1) := by
  have hpos : 0 < 2 ^ (f.fb + 1) := by positivity
  rw [hc.mmax_eq]
  omega

theorem maxBits_lt (hc : f.Consistent) (neg : Bool) : maxBits f neg < 2 ^ (f.eb + f.fb + 1) :=
  packBits_lt hc neg (mmax_lt hc) (Int.le_refl _)

theorem overflowTo_lt (hc : f.Consistent) (hn : f.nanBits < 2 ^ (f.eb + f.fb + 1)) (rm : Nat) (sat neg : Bool) :
    (overflowTo f rm sat neg).bits < 2 ^ (f.eb + f.fb + 1) := by
  unfold overflowTo
  split
  · exact maxBits_lt hc neg
  · split
    · split
      · exact infBits_lt f neg
      · exact hn
    · exact maxBits_lt hc neg

/-- Rounding m / 2^sh adds at most one to its integer part. -/
theorem roundShift_le (rm : Nat) (neg : Bool) (n sh : Nat) : (roundShift rm neg n sh).1 ≤ n / 2 ^ sh + 1 := by
  simp only [roundShift]
  split
  · exact Nat.le_succ _
  · have hle (up : Bool) : (if up then n / 2 ^ sh + 1 else n / 2 ^ sh) ≤ n / 2 ^ sh + 1 := by split <;> omega
    exact hle _

/-- A value rounded at an exponent no less than its own has at most one bit more than the fraction, or is the power above. -/
theorem roundAt_le (rm : Nat) (neg : Bool) {m n : Nat} {e q : Int} (hq : (Nat.log2 m : Int) + e - n ≤ q) :
    (if q ≤ e then (m * 2 ^ (e - q).toNat, true) else roundShift rm neg m (q - e).toNat).1 ≤ 2 ^ (n + 1) := by
  have hm : m < 2 ^ (m.log2 + 1) := Nat.lt_log2_self
  split
  · calc m * 2 ^ (e - q).toNat ≤ 2 ^ (m.log2 + 1) * 2 ^ (e - q).toNat := Nat.mul_le_mul_right _ hm.le
      _ = 2 ^ (m.log2 + 1 + (e - q).toNat) := (Nat.pow_add ..).symm
      _ ≤ 2 ^ (n + 1) := Nat.pow_le_pow_right (by decide) (by omega)
  · refine (roundShift_le ..).trans (Nat.div_lt_of_lt_mul ?_)
    calc m < 2 ^ (m.log2 + 1) := hm
      _ ≤ 2 ^ ((q - e).toNat + (n + 1)) := Nat.pow_le_pow_right (by decide) (by omega)
      _ = 2 ^ (q - e).toNat * 2 ^ (n + 1) := Nat.pow_add ..

/-- A value is rounded at its own exponent or at the least one above it. -/
theorem le_quantum (f : FloatFmt) (q0 qmin : Int) : q0 ≤ if f.hasSub && decide (q0 < qmin) then qmin else q0 := by
  split
  · rename_i h
    simp only [Bool.and_eq_true, decide_eq_true_eq] at h
    omega
  · exact Int.le_refl _

theorem convertTo_lt (hc : f.Consistent) (hn : f.nanBits < 2 ^ (f.eb + f.fb + 1)) (rm : Nat) (sat : Bool) (x : Num) :
    (convertTo f rm sat x).bits < 2 ^ (f.eb + f.fb + 1) := by
  rw [convertTo.eq_def]
  split
  · split
    · exact hn
    · exact Nat.two_pow_pos _
  · split
    · exact infBits_lt ..
    · split
      · exact hn
      · exact maxBits_lt hc _
  · exact signBit_lt ..
  · rename_i neg m e _
    have hq := le_quantum f ((Nat.log2 m : Int) + e - (f.fb : Int)) (1 - (f.bias : Int) - (f.fb : Int))
    dsimp only
    generalize (if f.hasSub && decide ((Nat.log2 m : Int) + e - (f.fb : Int) < 1 - (f.bias : Int) - (f.fb : Int))
        then 1 - (f.bias : Int) - (f.fb : Int) else (Nat.log2 m : Int) + e - (f.fb : Int)) = q at hq ⊢
    have hr := roundAt_le rm neg hq
    generalize (if q ≤ e then (m * 2 ^ (e - q).toNat, true) else roundShift rm neg m (q - e).toNat) = r at hr ⊢
    have hmant : (if r.1 = 2 ^ (f.fb + 1) then 2 ^ f.fb else r.1) < 2 ^ (f.fb + 1) := by
      have hpow : 2 ^ (f.fb + 1) = 2 ^ f.fb * 2 := Nat.pow_succ ..
      have hpos : 0 < 2 ^ f.fb := by positivity
      split <;> omega
    generalize (if r.1 = 2 ^ (f.fb + 1) then 2 ^ f.fb else r.1) = mant at hmant ⊢
    generalize (if r.1 = 2 ^ (f.fb + 1) then q + 1 else q) = q'
    split
    · exact signBit_lt ..
    · split
      · exact overflowTo_lt hc hn ..
      · rename_i hover
        split
        · exact signBit_lt ..
        · refine packBits_lt hc neg hmant ?_
          simp only [Bool.or_eq_true, decide_eq_true_eq, not_or] at hover
          omega

theorem convertInt_lt {w : Nat} (hw : 0 < w) (rm : Nat) (x : Num) : (convertInt w rm x).bits < 2 ^ w := by
  have hhalf : 2 ^ w = 2 * 2 ^ (w - 1) := by rw [← Nat.pow_succ', Nat.succ_eq_add_one, Nat.sub_add_cancel hw]
  have hpos : 0 < 2 ^ (w - 1) := by positivity
  cases x with
  | nan => exact Nat.two_pow_pos w
  | inf neg =>
    show (if neg then 2 ^ (w - 1) else 2 ^ (w - 1) - 1) < 2 ^ w
    split <;> omega
  | fin neg m e =>
    simp only [convertInt]
    generalize (if 0 ≤ e then (m * 2 ^ e.toNat, true) else roundShift rm neg m (-e).toNat) = r
    generalize 2 ^ w = p at *
    cases neg with
    | true =>
      simp only [if_true]
      split
      · dsimp only
        omega
      · exact Nat.mod_lt _ (by omega)
    | false =>
      simp only [Bool.false_eq_true, if_false]
      split
      · dsimp only
        omega
      · dsimp only
        omega

theorem nanBits_lt {code : Nat} (h : floatFmt code = some f) : f.nanBits < 2 ^ (f.eb + f.fb + 1) := by
  unfold floatFmt at h
  split at h <;> cases h <;> decide

/-- A converted element fits its format. -/
theorem narrowTo_lt {code : Nat} (hcode : code < 12) (rm : Nat) (sat : Bool) (x : Num) :
    (narrowTo code rm sat x).bits < 2 ^ fmtBits code := by
  cases hf : floatFmt code with
  | some f =>
    rw [narrowTo_float hf, fmtBits_float hf]
    exact convertTo_lt (floatFmt_consistent hf) (nanBits_lt hf) rm sat x
  | none =>
    obtain ⟨hbits, hpos⟩ := fmtBits_int hcode hf
    rw [narrowTo_int hf, hbits]
    exact convertInt_lt hpos rm x

/-- So do the elements of a block. -/
theorem mxBlock_lt {code : Nat} (hcode : code < 12) (rm : Nat) (xs : List Num) :
    ∀ e ∈ (mxBlock code rm xs).2.1, e < 2 ^ fmtBits code := by
  intro e he
  unfold mxBlock at he
  split at he
  · obtain ⟨_, -, rfl⟩ := List.mem_map.1 he
    exact Nat.two_pow_pos _
  · split at he
    · obtain ⟨_, -, rfl⟩ := List.mem_map.1 he
      exact narrowTo_lt hcode ..
    · simp only [List.map_map] at he
      obtain ⟨_, -, rfl⟩ := List.mem_map.1 he
      exact narrowTo_lt hcode ..

theorem length_mxBlock (code rm : Nat) (xs : List Num) : (mxBlock code rm xs).2.1.length = xs.length := by
  unfold mxBlock
  split
  · exact List.length_map ..
  · split
    · exact List.length_map ..
    · simp only [List.length_map]

end Sys2Proof.Machine
end

section
/-! SUPPORT. Packed rows of elements (03 R90): which bit of which byte a bit of an element is, and the row that a vector store makes
over the old one. -/

namespace Sys2Proof.Machine

variable {w n k i : Nat}

theorem testBit_natLE (l : List Byte) (i : Nat) : (natLE l).testBit i = (l.getD (i / 8) 0).getLsbD (i % 8) := by
  induction l generalizing i with
  | nil => simp [natLE]
  | cons b bs ih =>
    rw [natLE, Nat.add_comm, show (256 : Nat) = 2 ^ 8 by decide, Nat.testBit_two_pow_mul_add _ b.isLt]
    by_cases h : i < 8
    · rw [if_pos h, Nat.div_eq_of_lt h, Nat.mod_eq_of_lt h]
      rfl
    · rw [if_neg h, ih, show i / 8 = (i - 8) / 8 + 1 by omega, show (i - 8) % 8 = i % 8 by omega]
      rfl

/-- Bit i of element k is a bit of the row's bytes. -/
theorem testBit_elemBits (code : Nat) (byteAt : Nat → Byte) (k i : Nat) : (elemBits code byteAt k).testBit i =
    (decide (i < fmtBits code) && (byteAt ((k * fmtBits code + i) / 8)).getLsbD ((k * fmtBits code + i) % 8)) := by
  rw [elemBits, testBit_bitsOf]
  by_cases hi : i < fmtBits code
  · generalize k * fmtBits code = lo
    rw [testBit_natLE, show (lo % 8 + i) % 8 = (lo + i) % 8 by omega, List.getD_eq_getElem?_getD, List.getElem?_map,
      List.getElem?_range (by omega)]
    rw [show (lo + i) / 8 = lo / 8 + (lo % 8 + i) / 8 by omega]
    rfl
  · simp [hi]

theorem elemBits_lt (code : Nat) (byteAt : Nat → Byte) (k : Nat) : elemBits code byteAt k < 2 ^ fmtBits code := bitsOf_lt ..

/-- The number whose k-th w-bit digit is g k. -/
def packed (w : Nat) (g : Nat → Nat) (n : Nat) : Nat := (List.range n).foldl (fun a k => a + g k * 2 ^ (w * k)) 0

theorem packed_succ (w : Nat) (g : Nat → Nat) (n : Nat) : packed w g (n + 1) = 2 ^ (w * n) * g n + packed w g n := by
  rw [packed, List.range_succ, List.foldl_append]
  exact (Nat.add_comm ..).trans (congrArg (· + _) (Nat.mul_comm ..))

variable {g : Nat → Nat}

theorem packed_lt (hg : ∀ k, k < n → g k < 2 ^ w) : packed w g n < 2 ^ (w * n) := by
  induction n with
  | zero => exact Nat.one_pos
  | succ n ih =>
    have hlow := ih (fun k hk => hg k (by omega))
    have hmul : 2 ^ (w * n) * (g n + 1) ≤ 2 ^ (w * n) * 2 ^ w := Nat.mul_le_mul_left _ (hg n (by omega))
    rw [packed_succ, Nat.mul_succ, Nat.pow_add]
    rw [Nat.mul_succ] at hmul
    omega

theorem testBit_packed (hg : ∀ k, k < n → g k < 2 ^ w) (hk : k < n) (hi : i < w) :
    (packed w g n).testBit (w * k + i) = (g k).testBit i := by
  induction n with
  | zero => omega
  | succ n ih =>
    have hg' : ∀ k, k < n → g k < 2 ^ w := fun k hk => hg k (by omega)
    rw [packed_succ, Nat.testBit_two_pow_mul_add _ (packed_lt hg')]
    by_cases h : k = n
    · subst h
      rw [if_neg (by omega), Nat.add_sub_cancel_left]
    · have hle : w * (k + 1) ≤ w * n := Nat.mul_le_mul_left _ (by omega)
      rw [Nat.mul_succ] at hle
      rw [if_pos (by omega), ih hg' (by omega)]

/-- Bit b of byte j of a number's little-endian bytes. -/
theorem getLsbD_bytesLE (v : Nat) {j b : Nat} (hj : j < n) (hb : b < 8) :
    ((bytesLE n v).getD j 0).getLsbD b = v.testBit (8 * j + b) := by
  rw [Claims.getD_bytesLE_nat v hj, BitVec.getLsbD_ofNat, show (256 : Nat) = 2 ^ 8 by decide, ← Nat.pow_mul, Nat.testBit_div_two_pow,
    decide_eq_true hb, Bool.true_and, Nat.add_comm]

/-- A row has room for its elements. -/
theorem mul_le_rowBytes (code n : Nat) : n * fmtBits code ≤ 8 * rowBytes code n := by
  unfold rowBytes
  split
  · rename_i h
    rw [h, roundUp]
    omega
  · rw [ceilDiv]
    omega

/-- A position in an element lies in a byte of the row. -/
theorem elem_byte_lt {code : Nat} (hk : k < n) (hi : i < fmtBits code) : (k * fmtBits code + i) / 8 < rowBytes code n := by
  have h := mul_le_rowBytes code n
  have hle : (k + 1) * fmtBits code ≤ n * fmtBits code := Nat.mul_le_mul_right _ hk
  rw [Nat.add_one_mul] at hle
  omega

end Sys2Proof.Machine
end

section
/-! SUPPORT. What a vector store makes of its lanes (06 R169, R170; 03 R94). -/

namespace Sys2Proof.Claims
open Sys2Proof.Machine

variable {f : VmemF} {c : Core} {k b : Nat}

/-- A list with its positions, position by position. -/
theorem zipIdx_eq_map_range {α : Type} (l : List α) (d : α) : l.zipIdx = (List.range l.length).map (fun k => (l.getD k d, k)) := by
  refine List.ext_getElem (by simp) fun k h1 h2 => ?_
  simp at h1
  simp [List.getD_eq_getElem?_getD, h1]

theorem length_flatten_range {α : Type} {m : Nat} {g : Nat → List α} (hg : ∀ b, (g b).length = m) (n : Nat) :
    ((List.range n).map g).flatten.length = n * m := by
  simp [List.length_flatten, Function.comp_def, hg]

/-- Element k of blocks of one length is element k mod m of block k / m. -/
theorem getD_flatten_range {α : Type} {m : Nat} {g : Nat → List α} (hg : ∀ b, (g b).length = m) {n : Nat} (hk : k < n * m) (d : α) :
    ((List.range n).map g).flatten.getD k d = (g (k / m)).getD (k % m) d := by
  induction n with
  | zero => omega
  | succ n ih =>
    have hlen := length_flatten_range hg n
    rw [List.range_succ, List.map_append, List.flatten_append]
    by_cases h : k < n * m
    · rw [List.getD_append _ _ _ _ (by omega), ih h]
    · have hm : k - n * m < m := by
        rw [Nat.add_one_mul] at hk
        omega
      have hdiv : k / m = n := Nat.div_eq_of_lt_le (by omega) hk
      have hmod : k % m = k - n * m := by
        rw [Nat.mod_eq_sub_mul_div, hdiv, Nat.mul_comm]
      rw [List.getD_append_right _ _ _ _ (by omega), hlen, hdiv, hmod]
      simp

/-- Lanes 32 b to 32 b + 31 of the register to be stored. -/
theorem block_lanes (c : Core) (f : VmemF) (hb : 32 * b + 32 ≤ vmCount f) :
    ((((List.range (vmCount f)).map (fun i => c.lane f.v.toNat i)).drop (32 * b)).take 32).map fp32 =
      (List.range 32).map (fun j => fp32 (c.lane f.v.toNat (32 * b + j))) := by
  refine List.ext_getElem (by simp; omega) fun j h1 h2 => ?_
  simp

/-- The blocks of a store with MX. -/
abbrev storedBlock (c : Core) (f : VmemF) (b : Nat) : Nat × List Nat × Nat :=
  mxBlock f.fmt.toNat f.rm.toNat ((List.range 32).map (fun j => fp32 (c.lane f.v.toNat (32 * b + j))))

theorem vstElems_mx (hm : vmMx f = true) : vstElems f c =
    (((List.range (vmScales f)).map (fun b => (storedBlock c f b).2.1.map (fun e => (⟨e, (storedBlock c f b).2.2⟩ : Rounded)))).flatten,
      (List.range (vmScales f)).map (storedScale c f)) := by
  have hblocks : (List.range (vmScales f)).map (fun b => mxBlock (vmCode f) f.rm.toNat
        (((((List.range (vmCount f)).map (fun i => c.lane f.v.toNat i)).drop (32 * b)).take 32).map fp32)) =
      (List.range (vmScales f)).map (storedBlock c f) := by
    refine List.map_congr_left fun b hb => ?_
    rw [List.mem_range, vmScales, if_pos hm] at hb
    rw [block_lanes c f (by omega)]
    rfl
  simp only [vstElems, if_pos hm, hblocks, List.map_map]
  rfl

theorem vstElems_plain (hm : vmMx f = false) : vstElems f c = ((List.range (vmCount f)).map (storedElem c f), []) := by
  have hcode (n : Nat) (hn : n < 16) : vmCode f = n ↔ f.fmt = BitVec.ofNat 4 n := by
    rw [← BitVec.toNat_inj, BitVec.toNat_ofNat, Nat.mod_eq_of_lt hn]
    rfl
  have hmx : ¬ f.mx = 1 := by simpa [vmMx] using hm
  simp only [vstElems, hm, Bool.false_eq_true, if_false, Bool.or_eq_true, decide_eq_true_eq, hcode 0 (by decide), hcode 8 (by decide)]
  split
  · rename_i h
    simp only [List.map_map]
    refine congrArg (·, _) (List.map_congr_left fun k _ => ?_)
    rw [storedElem, if_neg hmx, if_pos (show f.fmt = 0 ∨ f.fmt = 8 from h)]
    rfl
  · rename_i h
    simp only [List.map_map]
    refine congrArg (·, _) (List.map_congr_left fun k _ => ?_)
    rw [storedElem, if_neg hmx, if_neg (show ¬ (f.fmt = 0 ∨ f.fmt = 8) from h)]
    rfl

/-- With MX the count is a multiple of 32 (06 R170). -/
abbrev WholeBlocks (f : VmemF) : Prop := vmMx f = true → vmScales f * 32 = vmCount f

theorem wholeBlocks_of_legal (h : vmLegal f = true) : WholeBlocks f := by
  intro hm
  simp only [vmLegal, hm, if_true, Bool.and_eq_true, beq_iff_eq] at h
  rw [vmScales, if_pos hm]
  omega

theorem vstElems_fst (hw : WholeBlocks f) : (vstElems f c).1 = (List.range (vmCount f)).map (storedElem c f) := by
  cases hm : vmMx f with
  | false => rw [vstElems_plain hm]
  | true =>
    have hmx : f.mx = 1 := by simpa [vmMx] using hm
    have hlen (b : Nat) : ((storedBlock c f b).2.1.map (fun e => (⟨e, (storedBlock c f b).2.2⟩ : Rounded))).length = 32 := by
      rw [List.length_map, length_mxBlock, List.length_map, List.length_range]
    have hall := hw hm
    rw [vstElems_mx hm]
    refine List.ext_getElem (by simp only [length_flatten_range hlen, hall, List.length_map, List.length_range]) fun k h1 h2 => ?_
    have hk : k < vmScales f * 32 := by simpa [length_flatten_range hlen] using h1
    have hget := getD_flatten_range hlen hk ⟨0, 0⟩
    rw [List.getD_eq_getElem _ _ h1] at hget
    refine hget.trans ?_
    have h32 : k % 32 < (storedBlock c f (k / 32)).2.1.length := by
      rw [length_mxBlock, List.length_map, List.length_range]
      exact Nat.mod_lt _ (by decide)
    simp only [List.getElem_map, List.getElem_range, storedElem, if_pos hmx, List.getD_eq_getElem?_getD,
      List.getElem?_map, Nat.mul_comm (k / 32) 32]
    rw [List.getElem?_eq_getElem h32]
    rfl

theorem vstElems_snd : (vstElems f c).2 = (List.range (vmScales f)).map (storedScale c f) := by
  cases hm : vmMx f with
  | false => rw [vstElems_plain hm, vmScales_plain hm]; rfl
  | true => rw [vstElems_mx hm]

/-- A stored element fits its format (06 R169). -/
theorem storedElem_lt (hcode : f.fmt.toNat < 12) (k : Nat) : (storedElem c f k).bits < 2 ^ fmtBits f.fmt.toNat := by
  unfold storedElem
  split
  · dsimp only
    generalize hx : mxBlock _ _ _ = x
    rw [List.getD_eq_getElem?_getD]
    cases hg : x.2.1[k % 32]? with
    | none => exact Nat.two_pow_pos _
    | some e => exact mxBlock_lt hcode _ _ e (hx ▸ List.mem_of_getElem? hg)
  · split
    · rename_i h
      have h32 : fmtBits f.fmt.toNat = 32 := by rcases h with h | h <;> rw [h] <;> rfl
      rw [h32]
      exact BitVec.isLt _
    · exact narrowTo_lt hcode ..

/-- The flags of the elements stored. -/
theorem vstFlags_eq (hw : WholeBlocks f) : BitVec.ofNat 32 (vstFlags f c) = storedFlags c f := by
  rw [vstFlags, vstElems_fst hw, zipIdx_eq_map_range _ ⟨0, 0⟩, storedFlags, List.foldl_map, List.length_map, List.length_range]
  refine congrArg (BitVec.ofNat 32) (List.foldl_ext _ _ _ fun a k hk => ?_)
  have hk' := List.mem_range.1 hk
  simp [List.getD_eq_getElem?_getD, hk']
  rfl

/-! The row over the old one. -/

/-- The elements of the row that results. -/
abbrev newElem (c : Core) (f : VmemF) (old : Nat → Byte) (k : Nat) : Nat :=
  if active c f.mask k then (storedElem c f k).bits else elemBits f.fmt.toNat old k

theorem newElem_lt (hcode : f.fmt.toNat < 12) (old : Nat → Byte) (k : Nat) : newElem c f old k < 2 ^ fmtBits f.fmt.toNat := by
  unfold newElem
  split
  · exact storedElem_lt hcode k
  · exact elemBits_lt ..

theorem vstRow_eq (hw : WholeBlocks f) (old : List Byte) :
    vstRow f c old = bytesLE (vmBytes f) (packed (fmtBits f.fmt.toNat) (newElem c f (fun j => old.getD j 0)) (vmCount f)) := by
  rw [vstRow, vstElems_fst hw, zipIdx_eq_map_range _ ⟨0, 0⟩, packed, List.foldl_map, List.length_map, List.length_range]
  refine congrArg (bytesLE _) (List.foldl_ext _ _ _ fun a k hk => ?_)
  have hk' := List.mem_range.1 hk
  simp [List.getD_eq_getElem?_getD, hk']
  rfl

theorem length_vstRow (f : VmemF) (c : Core) (old : List Byte) : (vstRow f c old).length = vmBytes f := length_bytesLE ..

/-- A byte that a store leaves alone belongs to no active element. -/
theorem not_active_of_untouched {j i : Nat} (hk : k < vmCount f) (hi : i < fmtBits f.fmt.toNat) (hj : (k * fmtBits f.fmt.toNat + i) / 8 = j)
    (h : vstTouches f c j = false) : active c f.mask k = false := by
  simp only [vstTouches, Bool.or_eq_false_iff, List.any_eq_false, List.mem_range, Bool.and_eq_true, decide_eq_true_eq] at h
  have hnot := h.1 k hk
  have hw : fmtBits (vmCode f) = fmtBits f.fmt.toNat := rfl
  rw [hw] at hnot
  cases ha : active c f.mask k with
  | false => rfl
  | true =>
    refine absurd ⟨⟨ha, ?_⟩, ?_⟩ hnot
    · omega
    · omega

theorem vm_byte_lt {i : Nat} (hk : k < vmCount f) (hi : i < fmtBits f.fmt.toNat) : (k * fmtBits f.fmt.toNat + i) / 8 < vmBytes f :=
  elem_byte_lt hk hi

/-- Bytes written from the row, or left alone where no active element lies, make the row that the store is to leave. -/
theorem storedRow_of_bytes {old new : Nat → Byte} {l : List Byte} (hw : WholeBlocks f) (hcode : f.fmt.toNat < 12)
    (hold : ∀ j, j < vmBytes f → l.getD j 0 = old j)
    (hnew : ∀ j, j < vmBytes f → new j = (vstRow f c l).getD j 0 ∨ (vstTouches f c j = false ∧ new j = old j)) :
    StoredRow c f old new := by
  intro k hk
  have hk : k < vmCount f := Nat.lt_succ_of_le hk
  have hbound := newElem_lt (c := c) hcode old k
  have hold' (k i : Nat) (hk : k < vmCount f) (hi : i < fmtBits f.fmt.toNat) :
      (newElem c f (fun j => l.getD j 0) k).testBit i = (newElem c f old k).testBit i := by
    unfold newElem
    split
    · rfl
    · rw [testBit_elemBits, testBit_elemBits, hold _ (vm_byte_lt hk hi)]
  refine Nat.eq_of_testBit_eq fun i => ?_
  rw [testBit_elemBits]
  by_cases hi : i < fmtBits f.fmt.toNat
  · rw [decide_eq_true hi, Bool.true_and]
    have hj := vm_byte_lt hk hi
    rcases hnew _ hj with hrow | ⟨huntouched, hrow⟩
    · rw [hrow, vstRow_eq hw, getLsbD_bytesLE _ hj (Nat.mod_lt _ (by decide)), Nat.div_add_mod, Nat.mul_comm k,
        testBit_packed (fun k _ => newElem_lt hcode _ k) hk hi, hold' k i hk hi]
    · rw [hrow, not_active_of_untouched hk hi rfl huntouched, if_neg Bool.false_ne_true, testBit_elemBits,
        decide_eq_true hi, Bool.true_and]
  · rw [decide_eq_false hi, Bool.false_and]
    exact (Nat.testBit_lt_two_pow (hbound.trans_le (Nat.pow_le_pow_right (by decide) (Nat.not_lt.1 hi)))).symm

end Sys2Proof.Claims
end

section
/-! SUPPORT. Some bytes of a slot, one by one. -/

namespace Sys2Proof.Machine

variable {c : Core} {b o n j k : Nat} {p : Nat → Bool} {v : Nat → Byte}

/-- Of n bytes those that p picks. -/
def Core.setSlotSome (c : Core) (b o : Nat) (p : Nat → Bool) (v : Nat → Byte) (n : Nat) : Core :=
  (List.range n).foldl (fun k j => if p j then k.setSlotByte b (o + j) (v j) else k) c

theorem setSlotSome_succ : c.setSlotSome b o p v (n + 1) =
    if p n then (c.setSlotSome b o p v n).setSlotByte b (o + n) (v n) else c.setSlotSome b o p v n := by
  rw [Core.setSlotSome, List.range_succ, List.foldl_append]
  rfl

theorem setSlotSome_eq (c : Core) (b o : Nat) (p : Nat → Bool) (v : Nat → Byte) (n : Nat) :
    c.setSlotSome b o p v n = c.withSlots (c.setSlotSome b o p v n).slots := by
  induction n with
  | zero => rfl
  | succ n ih =>
    rw [setSlotSome_succ]
    split
    · rw [ih]
      rfl
    · exact ih

theorem slots_setSlotSome_other (h : k < 32768 * b + o ∨ 32768 * b + o + n ≤ k) :
    storeGet (c.setSlotSome b o p v n).slots k 0 = storeGet c.slots k 0 := by
  induction n with
  | zero => rfl
  | succ n ih =>
    rw [setSlotSome_succ]
    split
    · exact (storeGet_storePut_other (k := 32768 * b + (o + n)) _ _ _ _ (by omega)).trans (ih (by omega))
    · exact ih (by omega)

theorem slots_setSlotSome_at (h : j < n) : storeGet (c.setSlotSome b o p v n).slots (32768 * b + (o + j)) 0 =
    if p j then v j else storeGet c.slots (32768 * b + (o + j)) 0 := by
  induction n with
  | zero => omega
  | succ n ih =>
    rw [setSlotSome_succ]
    by_cases hj : j = n
    · subst hj
      have hbefore := slots_setSlotSome_other (c := c) (b := b) (o := o) (n := j) (p := p) (v := v) (k := 32768 * b + (o + j)) (by omega)
      split
      · exact storeGet_storePut_same ..
      · exact hbefore
    · have hlow := ih (by omega)
      split
      · rename_i hp
        exact (storeGet_storePut_other (k := 32768 * b + (o + n)) _ _ _ _ (by omega)).trans hlow
      · exact hlow

end Sys2Proof.Machine
end

section
/-! SUPPORT. Vector stores into a slot (06 R168 to R170). -/

namespace Sys2Proof.Claims
open Sys2Proof.Machine

variable {s : State} {id : CoreId} {f : VmemF} {c k : Core}

/-- Two rows of a slot with bytes in common cannot be when their ranges do not overlap. -/
theorem apart_of_overlap_false {a n b m j : Nat} (h : overlap a n b m = false) (hj : j < n) : a + j < b ∨ b + m ≤ a + j := by
  simp only [overlap, Bool.and_eq_false_iff, decide_eq_false_iff_not, bne_eq_false_iff_eq] at h
  omega

/-- The elements and the scales of an access do not meet. -/
abbrev ApartScales (f : VmemF) (a b : Nat) : Prop := f.mx = 1 → overlap a (vmBytes f) b (vmScales f) = false

theorem vmScales_eq_zero (h : ¬ f.mx = 1) : vmScales f = 0 := vmScales_plain (by simpa [vmMx] using h)

theorem elem_apart {a b j : Nat} (h : ApartScales f a b) (hj : j < vmBytes f) : a + j < b ∨ b + vmScales f ≤ a + j := by
  by_cases hm : f.mx = 1
  · exact apart_of_overlap_false (h hm) hj
  · rw [vmScales_eq_zero hm]
    omega

theorem scale_apart {a b j : Nat} (h : ApartScales f a b) (hj : j < vmScales f) : b + j < a ∨ a + vmBytes f ≤ b + j := by
  by_cases hm : f.mx = 1
  · have := h hm
    simp only [overlap, Bool.and_eq_false_iff, decide_eq_false_iff_not, bne_eq_false_iff_eq] at this
    omega
  · rw [vmScales_eq_zero hm] at hj
    omega

/-- The row that a store into the slot leaves. -/
abbrev slotRow (f : VmemF) (c : Core) : List Byte := vstRow f c (c.slotBytes f.slot.toNat (vmSlotByte f c) (vmBytes f))

theorem vstSlot_eq (f : VmemF) (c k : Core) : vstSlot f c k =
    (k.setSlotBytes f.slot.toNat (vmSlotByte f c) (slotRow f c)).setSlotSome f.slot.toNat (vmScaleAt f c) (vstBlockActive f c)
      (fun b => BitVec.ofNat 8 (storedScale c f b)) (vmScales f) := by
  rw [vstSlot, vstElems_snd, zipIdx_eq_map_range _ 0, List.foldl_map, List.length_map, List.length_range, Core.setSlotSome]
  refine List.foldl_ext _ _ _ fun a b hb => ?_
  have hb' := List.mem_range.1 hb
  simp [List.getD_eq_getElem?_getD, hb']

theorem vstSlot_withSlots (f : VmemF) (c k : Core) : vstSlot f c k = k.withSlots (vstSlot f c k).slots := by
  rw [vstSlot_eq, setSlotSome_eq, setSlotBytes_eq]
  rfl

/-- Outside its bytes a store into the slot changes nothing. -/
theorem vstSlot_other {x : Nat}
    (he : ¬(32768 * f.slot.toNat + vmSlotByte f c ≤ x ∧ x < 32768 * f.slot.toNat + vmSlotByte f c + vmBytes f))
    (hs : ¬(32768 * f.slot.toNat + vmScaleAt f c ≤ x ∧ x < 32768 * f.slot.toNat + vmScaleAt f c + vmScales f)) :
    storeGet (vstSlot f c k).slots x 0 = storeGet k.slots x 0 := by
  rw [vstSlot_eq, slots_setSlotSome_other (by omega), slots_setSlotBytes_other (by rw [length_vstRow]; omega)]

theorem vstSlot_elem {j : Nat} (ha : ApartScales f (vmSlotByte f c) (vmScaleAt f c)) (hj : j < vmBytes f) :
    (vstSlot f c k).slotByte f.slot.toNat (vmSlotByte f c + j) = (slotRow f c).getD j 0 := by
  have hout := elem_apart ha hj
  rw [vstSlot_eq]
  refine (slots_setSlotSome_other (k := 32768 * f.slot.toNat + (vmSlotByte f c + j)) (by omega)).trans ?_
  rw [← Nat.add_assoc]
  exact slots_setSlotBytes_at (by rw [length_vstRow]; exact hj)

theorem vstSlot_scale {b : Nat} (ha : ApartScales f (vmSlotByte f c) (vmScaleAt f c)) (hb : b < vmScales f) :
    (vstSlot f c k).slotByte f.slot.toNat (vmScaleAt f c + b) =
      if vstBlockActive f c b then BitVec.ofNat 8 (storedScale c f b) else k.slotByte f.slot.toNat (vmScaleAt f c + b) := by
  have hout := scale_apart ha hb
  rw [vstSlot_eq]
  refine (slots_setSlotSome_at hb).trans ?_
  split
  · rfl
  · exact slots_setSlotBytes_other (by rw [length_vstRow]; omega)

/-! The word. -/

theorem vstLegal_facts (h : vstLegal f = true) : WholeBlocks f ∧ f.fmt.toNat < 12 := by
  simp only [vstLegal, Bool.and_eq_true, decide_eq_true_eq] at h
  exact ⟨wholeBlocks_of_legal h.1.1, Nat.lt_succ_of_le h.1.2⟩

theorem vstAny_iff : vstAny f c = true ↔ someActive c f := by
  simp only [vstAny, List.any_eq_true, List.mem_range]
  exact ⟨fun ⟨k, hk, ha⟩ => ⟨k, Nat.le_of_lt_succ hk, ha⟩, fun ⟨k, hk, ha⟩ => ⟨k, Nat.lt_succ_of_le hk, ha⟩⟩

/-- The scales that a store is to leave, block by block. -/
theorem storedScales_of_bytes {old new : Nat → Byte} (h : ∀ b, b < vmScales f → new b =
    if vstBlockActive f c b then BitVec.ofNat 8 (storedScale c f b) else old b) : StoredScales c f old new := by
  intro hm b hb
  exact h b (by rw [vmScales, if_pos (by simp [vmMx, hm])]; exact hb)

/-- A store with an active lane has its effect. -/
theorem exec_vst (hr : Ready s id) (hh : (s.core id).hold = []) (hm : (s.core id).moves = []) (hl : vstLegal f = true)
    (hfault : vmFault f true id s (s.core id) = none) (hwait : ∀ r ∈ vmRanges f (s.core id), writeWaits s (s.core id) r.1 r.2 = false)
    (ha : someActive (s.core id) f) : exec (.vst id f) s = finish
      (let t := updCore (issued s id) id (fun k => addFlags k (tainted (s.core id) (vstTouch f (s.core id))) (vstFlags f (s.core id)))
       if vmSlotForm f then updCore t id (vstSlot f (s.core id)) else vstMem f (s.core id) t) := by
  have hwaits : (vmRanges f (s.core id)).any (fun r => writeWaits s (s.core id) r.1 r.2) = false :=
    List.any_eq_false.2 fun r hr => by simp [hwait r hr]
  show execVst id f s = _
  rw [execVst, issue_shore hr hh hl hfault (scoreboardHolds_still hm hh rfl rfl) (by simp [hwaits]) rfl, vstAny_iff.2 ha]
  rfl

/-- The core that has retired a store, but for the slot. -/
abbrev storedCore (c : Core) (f : VmemF) : Core := { retired c with aflags := c.aflags ||| storedFlags c f }

theorem addFlags_storedCore (hw : WholeBlocks f) (hh : c.hold = []) (bad : Bool) :
    addFlags (retired c) bad (vstFlags f c) = storedCore c f := by
  rw [addFlags_shore (c := retired c) hh, vstFlags_eq hw]
  rfl

theorem vst_inactive (hr : Ready s id) (hh : (s.core id).hold = []) (hm : (s.core id).moves = []) (hl : vstLegal f = true)
    (hfault : vmFault f true id s (s.core id) = none) (ha : ¬ someActive (s.core id) f) :
    Retires (.vst id f) id s nothing (fun t => t.core id = retired (s.core id)) := by
  have hany : vstAny f (s.core id) = false := Bool.eq_false_iff.2 (mt vstAny_iff.1 ha)
  refine retires_issued ?_
  show execVst id f s = _
  rw [execVst, issue_shore hr hh hl hfault (scoreboardHolds_still hm hh rfl rfl) (by simp [hany]) rfl, hany]
  rfl

theorem vst_slot (hr : Ready s id) (hh : (s.core id).hold = []) (hm : (s.core id).moves = []) (hl : vstLegal f = true)
    (hs : f.space = 1) (hfault : vmFault f true id s (s.core id) = none) (hact : someActive (s.core id) f)
    (ha : ApartScales f (vmSlotByte f (s.core id)) (vmScaleAt f (s.core id))) :
    Retires (.vst id f) id s nothing (fun t => ∃ x : Store Byte,
      t.core id = { retired (s.core id) with slots := x, aflags := (s.core id).aflags ||| storedFlags (s.core id) f } ∧
      StoredRow (s.core id) f (fun j => (s.core id).slotByte f.slot.toNat (vmSlotByte f (s.core id) + j))
        (fun j => (t.core id).slotByte f.slot.toNat (vmSlotByte f (s.core id) + j)) ∧
      StoredScales (s.core id) f (fun b => (s.core id).slotByte f.slot.toNat (vmScaleAt f (s.core id) + b))
        (fun b => (t.core id).slotByte f.slot.toNat (vmScaleAt f (s.core id) + b)) ∧
      ∀ k, ¬(32768 * f.slot.toNat + vmSlotByte f (s.core id) ≤ k ∧
          k < 32768 * f.slot.toNat + vmSlotByte f (s.core id) + vmBytes f) →
        ¬(32768 * f.slot.toNat + vmScaleAt f (s.core id) ≤ k ∧
          k < 32768 * f.slot.toNat + vmScaleAt f (s.core id) + vmScales f) →
        storeGet x k 0 = storeGet (s.core id).slots k 0) := by
  obtain ⟨hw, hcode⟩ := vstLegal_facts hl
  have hslot := slotForm_of_eq hs
  have he := exec_vst hr hh hm hl hfault (by simp [vmRanges, hslot]) hact
  rw [if_pos hslot] at he
  refine retires_effect he ?_ ((updCore_rd64 ..).trans (updCore_rd64 ..)) ?_
  · rw [changes_updCore (.inl (by simp)), changes_updCore (.inl (by simp))]
    exact Changes.refl _ _
  have ht : (signal (updCore (updCore (issued s id) id (fun k =>
      addFlags k (tainted (s.core id) (vstTouch f (s.core id))) (vstFlags f (s.core id)))) id (vstSlot f (s.core id)))).core id =
      vstSlot f (s.core id) (storedCore (s.core id) f) := by
    rw [signal_core, updCore_core, updCore_core, issued_core, addFlags_storedCore hw hh]
  refine ⟨(vstSlot f (s.core id) (storedCore (s.core id) f)).slots,
    ht.trans (vstSlot_withSlots f (s.core id) (storedCore (s.core id) f)), ?_, ?_,
    fun k hk hk' => (vstSlot_other hk hk' : storeGet (vstSlot f (s.core id) (storedCore (s.core id) f)).slots k 0 = _)⟩
  · refine storedRow_of_bytes hw hcode (fun j hj => getD_slotBytes _ _ _ hj) fun j hj => .inl ?_
    rw [ht]
    exact vstSlot_elem ha hj
  · refine storedScales_of_bytes fun b hb => ?_
    rw [ht]
    exact vstSlot_scale ha hb

end Sys2Proof.Claims
end

section
/-! SUPPORT. Stores into scratchpad, whole or some bytes of a range one by one (05 R126). -/

namespace Sys2Proof.Claims
open Sys2Proof.Machine

variable {s t : State} {id : CoreId} {a n j k : Nat} {x : Nat × List Byte} {p : Nat → Bool} {v : Nat → Byte} {bs : List Byte}

/-- n bytes from a lie whole in one scratchpad of this chip, which takes them. -/
structure TakesScratch (s : State) (a n : Nat) : Prop where
  own : ownChip s a = true
  scratch : InScratch (placeBits a)
  whole : onePlace (placeBits a) n = true
  takes : placeResetting s (placeBits a) = false
  correctable : poisoned s (placeBits a) n = false

theorem placeOf_scratch_iff {b cl off : Nat} : placeOf b = some (.scratch cl off) ↔
    b < 64 * 0x100000000 ∧ b % 0x100000000 < scratchSize ∧ cl = b / 0x100000000 ∧ off = b % 0x100000000 := by
  unfold placeOf
  split
  · split
    · simp only [Option.some.injEq, Place.scratch.injEq]
      omega
    · simp only [reduceCtorEq, false_iff]
      omega
  · split
    · simp only [Option.some.injEq, reduceCtorEq, false_iff]
      omega
    · simp only [reduceCtorEq, false_iff]
      omega

/-- Byte j of the range lies in the same scratchpad. -/
theorem TakesScratch.placeOf_add (h : TakesScratch s a n) (hj : j < n) :
    placeBits (a + j) = placeBits a + j ∧ ∃ cl off, placeOf (placeBits a) = some (.scratch cl off) ∧
      placeOf (placeBits a + j) = some (.scratch cl (off + j)) := by
  obtain ⟨cl, off, hp⟩ := h.scratch
  have hw := h.whole
  simp only [onePlace, hp, decide_eq_true_eq] at hw
  obtain ⟨hlt, hin, rfl, rfl⟩ := placeOf_scratch_iff.1 hp
  have hsize : scratchSize = 0xB000000 := rfl
  refine ⟨?_, _, _, hp, placeOf_scratch_iff.2 ?_⟩
  · unfold placeBits at *
    omega
  · omega

theorem TakesScratch.placeBits_add (h : TakesScratch s a n) (hj : j < n) : placeBits (a + j) = placeBits a + j := (h.placeOf_add hj).1

/-- The units of some bytes are among the units of all. -/
theorem poisoned_sub (h : poisoned s a n = false) (hk : j + k ≤ n) : poisoned s (a + j) k = false := by
  simp only [poisoned, List.any_eq_false, List.contains_iff_mem] at h ⊢
  refine fun u hu hmem => h u hu ?_
  unfold unitsOf at hmem ⊢
  split at hmem
  · cases hmem
  · obtain ⟨i, hi, rfl⟩ := List.mem_map.1 hmem
    have hi := List.mem_range.1 hi
    rw [if_neg (by omega), List.mem_map]
    exact ⟨(a + j) / 32 + i - a / 32, List.mem_range.2 (by omega), by omega⟩

/-- A store within a range. -/
abbrev StoreIn (a n : Nat) (x : Nat × List Byte) : Prop := ∃ j, x.1 = a + j ∧ j < n ∧ j + x.2.length ≤ n

theorem TakesScratch.clean (h : TakesScratch s a n) (hx : StoreIn a n x) : StoreClean s x := by
  obtain ⟨j, hxa, hj, hlen⟩ := hx
  obtain ⟨hbits, cl, off, hp, hp'⟩ := h.placeOf_add hj
  have hpow : (a + j) / 2 ^ 48 = a / 2 ^ 48 := by
    unfold placeBits at hbits
    omega
  refine ⟨?_, ?_, ?_⟩
  · rw [hxa]
    have := h.own
    unfold ownChip at this ⊢
    rwa [hpow]
  · rw [hxa, hbits]
    have := h.takes
    rw [← this]
    simp only [placeResetting, hp, hp']
    congr 1
    funext r
    cases r <;> rfl
  · rw [hxa, hbits]
    exact poisoned_sub h.correctable hlen

/-- What it may change: bytes of the range, and marks of tiles that are being moved. -/
theorem TakesScratch.storeParts (h : TakesScratch s a n) (hx : StoreIn a n x) {q : Part} (hq : storeParts (placeBits x.1) x.2.length q) :
    bytesAt (placeBits a) n q ∨ q = .moves := by
  obtain ⟨j, hxa, hj, hlen⟩ := hx
  obtain ⟨hbits, cl, off, -, hp⟩ := h.placeOf_add hj
  rw [hxa, hbits] at hq
  rcases hq with ⟨k, hk, rfl⟩ | hq | hq
  · exact .inl ⟨j + k, by omega, by rw [Nat.add_assoc]⟩
  · simp [stackCounter, hp] at hq
  · exact .inr (by simpa using hq)

theorem TakesScratch.issued (h : TakesScratch s a n) : TakesScratch (issued s id) a n :=
  ⟨ownChip_issued.trans h.own, h.scratch, h.whole, placeResetting_issued.trans h.takes, poisoned_issued.trans h.correctable⟩

/-! Bytes one by one. -/

/-- Those bytes of n that p picks, each a store. -/
abbrev byteStores (a n : Nat) (p : Nat → Bool) (v : Nat → Byte) : List (Nat × List Byte) :=
  ((List.range n).filter p).map (fun j => (a + j, [v j]))

theorem storeIn_byteStores : ∀ x ∈ byteStores a n p v, StoreIn a n x := by
  intro x hx
  obtain ⟨j, hj, rfl⟩ := List.mem_map.1 hx
  have hj := List.mem_range.1 (List.mem_filter.1 hj).1
  exact ⟨j, rfl, hj, hj⟩

theorem mem_byteStores (hj : j < n) (hp : p j = true) : (a + j, [v j]) ∈ byteStores a n p v :=
  List.mem_map_of_mem (List.mem_filter.2 ⟨List.mem_range.2 hj, hp⟩)

theorem byteStores_apart (h : TakesScratch s a n) : (byteStores a n p v).Pairwise ApartStores := by
  rw [List.pairwise_map]
  refine List.Pairwise.imp_of_mem (R := fun i j => i < j) ?_ (List.pairwise_lt_range.filter p)
  intro i j hi hj hlt x y hx hy
  have hi := List.mem_range.1 (List.mem_filter.1 hi).1
  have hj := List.mem_range.1 (List.mem_filter.1 hj).1
  simp only [List.length_singleton] at hx hy
  rw [h.placeBits_add hi, h.placeBits_add hj]
  omega

/-- Byte j is stored by itself or not at all. -/
theorem not_mem_byteStores (h : TakesScratch s a n) (hp : p j = false) :
    ∀ x ∈ byteStores a n p v, ∀ k, k < x.2.length → placeBits a + j ≠ placeBits x.1 + k := by
  intro x hx k hk
  obtain ⟨i, hi, rfl⟩ := List.mem_map.1 hx
  obtain ⟨hin, hpi⟩ := List.mem_filter.1 hi
  simp only [List.length_singleton] at hk
  rw [h.placeBits_add (List.mem_range.1 hin)]
  rintro e
  have hij : i = j := by omega
  rw [hij, hp] at hpi
  cases hpi

/-- Stores within ranges that do not meet are apart. -/
theorem apart_of_ranges {b m : Nat} {y : Nat × List Byte} (ha : TakesScratch s a n) (hb : TakesScratch s b m) (hx : StoreIn a n x)
    (hy : StoreIn b m y)
    (h : ∀ j, j < n → placeBits a + j < placeBits b ∨ placeBits b + m ≤ placeBits a + j) : ApartStores x y := by
  obtain ⟨i, hxa, hi, hil⟩ := hx
  obtain ⟨i', hyb, hi', hil'⟩ := hy
  intro j k hj hk
  rw [hxa, hyb, ha.placeBits_add hi, hb.placeBits_add hi']
  have := h (i + j) (by omega)
  omega

end Sys2Proof.Claims
end

section
/-! SUPPORT. Vector stores into scratchpad (06 R168 to R170). -/

namespace Sys2Proof.Claims
open Sys2Proof.Machine

variable {s t : State} {id : CoreId} {f : VmemF} {c : Core}

/-- The row that a store into scratchpad leaves. -/
abbrev memRow (f : VmemF) (c : Core) (s : State) : List Byte := vstRow f c (s.bytes (elemPlace c f) (vmBytes f))

/-- The stores of the elements: one when every lane is active, else byte by byte. -/
def elemStores (f : VmemF) (c : Core) (row : List Byte) : List (Nat × List Byte) :=
  if vstAll f c then [(vmBase f c, row)] else byteStores (vmBase f c) (vmBytes f) (vstTouches f c) (fun j => row.getD j 0)

/-- The stores of the scales. -/
abbrev scaleStores (f : VmemF) (c : Core) : List (Nat × List Byte) :=
  byteStores (vmScaleAt f c) (vmScales f) (vstBlockActive f c) (fun b => BitVec.ofNat 8 (storedScale c f b))

theorem vstMem_eq (ho : ownChip s (vmBase f c) = true) :
    vstMem f c s = storeAll (elemStores f c (memRow f c s) ++ scaleStores f c) s := by
  have hscales (t : State) : (vstElems f c).2.zipIdx.foldl (fun t x =>
      if vstBlockActive f c x.2 then coreStore t (vmScaleAt f c + x.2) [BitVec.ofNat 8 x.1] else t) t = storeAll (scaleStores f c) t := by
    rw [vstElems_snd, zipIdx_eq_map_range _ 0, List.foldl_map, List.length_map, List.length_range, storeAll, List.foldl_map,
      List.foldl_filter]
    refine List.foldl_ext _ _ _ fun u b hb => ?_
    have hb' := List.mem_range.1 hb
    simp [List.getD_eq_getElem?_getD, hb']
  have helems (row : List Byte) (hl : row.length = vmBytes f) : (if vstAll f c then coreStore s (vmBase f c) row
      else row.zipIdx.foldl (fun t x => if vstTouches f c x.2 then coreStore t (vmBase f c + x.2) [x.1] else t) s) =
      storeAll (elemStores f c row) s := by
    unfold elemStores
    split
    · rfl
    · rw [zipIdx_eq_map_range _ 0, List.foldl_map, hl, storeAll, List.foldl_map, List.foldl_filter]
  simp only [vstMem, ho, if_true, helems _ (length_vstRow ..), hscales]
  exact (List.foldl_append ..).symm

theorem storeIn_elemStores {row : List Byte} (hl : row.length = vmBytes f) (hpos : 0 < vmBytes f) :
    ∀ x ∈ elemStores f c row, StoreIn (vmBase f c) (vmBytes f) x := by
  unfold elemStores
  split
  · intro x hx
    rw [List.mem_singleton.1 hx]
    exact ⟨0, rfl, hpos, by rw [hl]; omega⟩
  · exact storeIn_byteStores

theorem elemStores_apart {row : List Byte} (h : TakesScratch s (vmBase f c) (vmBytes f)) : (elemStores f c row).Pairwise ApartStores := by
  unfold elemStores
  split
  · exact List.pairwise_singleton ..
  · exact byteStores_apart h

/-- The ranges of a store into scratchpad, which the chip takes. -/
structure TakesVst (s : State) (f : VmemF) (c : Core) : Prop where
  elems : TakesScratch s (vmBase f c) (vmBytes f)
  scales : f.mx = 1 → TakesScratch s (vmScaleAt f c) (vmScales f)
  apart : ApartScales f (elemPlace c f) (scalePlace c f)

theorem TakesVst.issued (h : TakesVst s f c) : TakesVst (issued s id) f c := ⟨h.elems.issued, fun hm => (h.scales hm).issued, h.apart⟩

theorem scaleStores_nil (h : ¬ f.mx = 1) : scaleStores f c = [] := by
  rw [scaleStores, vmScales_eq_zero h]
  rfl

/-- The stores of elements and scales. -/
abbrev vstStores (f : VmemF) (c : Core) (s : State) : List (Nat × List Byte) := elemStores f c (memRow f c s) ++ scaleStores f c

theorem vmBytes_pos (hcode : f.fmt.toNat < 12) : 0 < vmBytes f := by
  have hroom := mul_le_rowBytes f.fmt.toNat (vmCount f)
  have hbits : 0 < fmtBits f.fmt.toNat := by
    revert hcode
    generalize f.fmt.toNat = code
    revert code
    decide
  have hcount : 0 < vmCount f * fmtBits f.fmt.toNat := Nat.mul_pos (Nat.succ_pos _) hbits
  have h : 0 < rowBytes f.fmt.toNat (vmCount f) := by omega
  exact h

theorem TakesVst.clean (h : TakesVst s f c) (hcode : f.fmt.toNat < 12) : ∀ x ∈ vstStores f c t, StoreClean s x := by
  intro x hx
  rcases List.mem_append.1 hx with hx | hx
  · exact h.elems.clean (storeIn_elemStores (length_vstRow ..) (vmBytes_pos hcode) x hx)
  · by_cases hm : f.mx = 1
    · exact (h.scales hm).clean (storeIn_byteStores x hx)
    · rw [scaleStores_nil hm] at hx
      cases hx

theorem TakesVst.storedParts (h : TakesVst s f c) (hcode : f.fmt.toNat < 12) {q : Part} (hq : storedParts (vstStores f c t) q) :
    also (bytesAt (elemPlace c f) (vmBytes f)) (also (bytesAt (scalePlace c f) (vmScales f)) (parts [.moves])) q := by
  obtain ⟨x, hx, hq⟩ := hq
  rcases List.mem_append.1 hx with hx | hx
  · refine (h.elems.storeParts (storeIn_elemStores (length_vstRow ..) (vmBytes_pos hcode) x hx) hq).imp_right fun hm => .inr (by simp [hm])
  · by_cases hm : f.mx = 1
    · exact .inr (((h.scales hm).storeParts (storeIn_byteStores x hx) hq).imp_right fun hm => by simp [hm])
    · rw [scaleStores_nil hm] at hx
      cases hx

theorem TakesVst.apartStores (h : TakesVst s f c) (hcode : f.fmt.toNat < 12) : (vstStores f c t).Pairwise ApartStores := by
  by_cases hm : f.mx = 1
  · refine List.pairwise_append.2 ⟨elemStores_apart h.elems, byteStores_apart (h.scales hm), fun x hx y hy => ?_⟩
    exact apart_of_ranges h.elems (h.scales hm) (storeIn_elemStores (length_vstRow ..) (vmBytes_pos hcode) x hx)
      (storeIn_byteStores y hy) (fun j hj => elem_apart h.apart hj)
  · rw [vstStores, scaleStores_nil hm, List.append_nil]
    exact elemStores_apart h.elems

/-- Scales lie off the elements. -/
theorem TakesVst.scaleStores_other (h : TakesVst s f c) {j : Nat} (hj : j < vmBytes f) :
    ∀ x ∈ scaleStores f c, ∀ k, k < x.2.length → elemPlace c f + j ≠ placeBits x.1 + k := by
  intro x hx k hk
  by_cases hm : f.mx = 1
  · obtain ⟨i, hxa, hi, hil⟩ := storeIn_byteStores x hx
    rw [hxa, (h.scales hm).placeBits_add hi]
    have := elem_apart h.apart hj
    unfold scalePlace at this
    omega
  · rw [scaleStores_nil hm] at hx
    cases hx

theorem TakesVst.elemStores_other (h : TakesVst s f c) {row : List Byte} (hl : row.length = vmBytes f) {b : Nat} (hb : b < vmScales f) :
    ∀ x ∈ elemStores f c row, ∀ k, k < x.2.length → scalePlace c f + b ≠ placeBits x.1 + k := by
  intro x hx k hk
  have hout := scale_apart h.apart hb
  have hin (hpos : 0 < vmBytes f) : scalePlace c f + b ≠ placeBits x.1 + k := by
    obtain ⟨i, hxa, hi, hil⟩ := storeIn_elemStores hl hpos x hx
    rw [hxa, h.elems.placeBits_add hi]
    unfold elemPlace at hout
    omega
  by_cases hpos : 0 < vmBytes f
  · exact hin hpos
  · unfold elemStores at hx
    split at hx
    · rw [List.mem_singleton.1 hx, hl] at hk
      omega
    · obtain ⟨i, -, hi, -⟩ := storeIn_byteStores x hx
      omega

/-- Each byte of the row is stored from it, or lies in no active element and stays. -/
theorem TakesVst.elem_byte (h : TakesVst s f c) (hcode : f.fmt.toNat < 12) {j : Nat} (hj : j < vmBytes f) :
    (storeAll (vstStores f c t) s).byte (elemPlace c f + j) = (memRow f c t).getD j 0 ∨
      (vstTouches f c j = false ∧ (storeAll (vstStores f c t) s).byte (elemPlace c f + j) = s.byte (elemPlace c f + j)) := by
  have hclean := h.clean (t := t) hcode
  have hapart := h.apartStores (t := t) hcode
  have hbits : placeBits (vmBase f c + j) = elemPlace c f + j := h.elems.placeBits_add hj
  cases hall : vstAll f c with
  | true =>
    have hmem : (vmBase f c, memRow f c t) ∈ vstStores f c t := by simp [vstStores, elemStores, hall]
    exact .inl (byte_storeAll_at hclean hapart hmem (by rw [length_vstRow]; exact hj))
  | false =>
    have helems : elemStores f c (memRow f c t) =
        byteStores (vmBase f c) (vmBytes f) (vstTouches f c) (fun j => (memRow f c t).getD j 0) := by
      simp [elemStores, hall]
    cases ht : vstTouches f c j with
    | true =>
      have hmem : (vmBase f c + j, [(memRow f c t).getD j 0]) ∈ vstStores f c t := by
        rw [vstStores, helems]
        exact List.mem_append_left _ (mem_byteStores hj ht)
      have hbyte := byte_storeAll_at hclean hapart hmem (j := 0) (by simp)
      rw [hbits] at hbyte
      exact .inl hbyte
    | false =>
      refine .inr ⟨rfl, storeAll_changes hclean (.byte _) (not_storedParts_byte fun x hx k hk => ?_)⟩
      rcases List.mem_append.1 hx with hx | hx
      · rw [helems] at hx
        exact not_mem_byteStores h.elems ht x hx k hk
      · exact h.scaleStores_other hj x hx k hk

theorem TakesVst.scale_byte (h : TakesVst s f c) (hcode : f.fmt.toNat < 12) (hm : f.mx = 1) {b : Nat} (hb : b < vmScales f) :
    (storeAll (vstStores f c t) s).byte (scalePlace c f + b) =
      if vstBlockActive f c b then BitVec.ofNat 8 (storedScale c f b) else s.byte (scalePlace c f + b) := by
  have hclean := h.clean (t := t) hcode
  have hbits : placeBits (vmScaleAt f c + b) = scalePlace c f + b := (h.scales hm).placeBits_add hb
  cases ha : vstBlockActive f c b with
  | true =>
    have hmem : (vmScaleAt f c + b, [BitVec.ofNat 8 (storedScale c f b)]) ∈ vstStores f c t :=
      List.mem_append_right _ (mem_byteStores (v := fun b => BitVec.ofNat 8 (storedScale c f b)) hb ha)
    have hbyte := byte_storeAll_at hclean (h.apartStores hcode) hmem (j := 0) (by simp)
    rw [hbits] at hbyte
    exact hbyte
  | false =>
    refine storeAll_changes hclean (.byte _) (not_storedParts_byte fun x hx k hk => ?_)
    rcases List.mem_append.1 hx with hx | hx
    · exact h.elemStores_other (length_vstRow ..) hb x hx k hk
    · exact not_mem_byteStores (h.scales hm) ha x hx k hk

/-- An access without a fault lies in one place. -/
theorem onePlace_of_coreAccess {a n : Nat} {write : Bool} (h : coreAccessFault s id a n write = none) :
    onePlace (placeBits a) n = true := by
  have hacc : accessFault s (coreOwner s id) a n write = none := by
    unfold coreAccessFault at h
    split at h
    · cases h
    · assumption
  have hone : onePlace (placeBits a) (if n = 0 then 1 else n) = true := by
    cases hp : onePlace (placeBits a) (if n = 0 then 1 else n) with
    | true => rfl
    | false =>
      simp only [accessFault, hp] at hacc
      split at hacc <;> simp at hacc
  split at hone
  · rename_i h0
    rw [h0]
    unfold onePlace at hone ⊢
    split
    · simp_all
      omega
    · simp_all
      omega
    · simp_all
  · exact hone

/-- An access of scratchpad without a fault or a wait. -/
theorem takesVst_of_now (hs : f.space = 0) (hnow : VmNow f true s id)
    (ha : ApartScales f (elemPlace (s.core id) f) (scalePlace (s.core id) f)) : TakesVst s f (s.core id) := by
  obtain ⟨hfault, hnow⟩ := hnow
  have hne : f.space ≠ 1 := by
    rw [hs]
    decide
  have htakes (r : Nat × Nat) (hr : r ∈ vmRanges f (s.core id)) : TakesScratch s r.1 r.2 := by
    obtain ⟨hin, hacc⟩ := inScratch_of_vmFault hfault hne r hr
    obtain ⟨hown, hpoison, -, hreset⟩ := hnow r hr
    exact ⟨hown, hin, onePlace_of_coreAccess hacc, hreset, hpoison⟩
  exact ⟨htakes _ (mem_vmRanges_base hne), fun hm => htakes _ (mem_vmRanges_scale hne (by simp [vmMx, hm])), ha⟩

theorem vst_scratch (hr : Ready s id) (hh : (s.core id).hold = []) (hm : (s.core id).moves = []) (hl : vstLegal f = true)
    (hs : f.space = 0) (hnow : VmNow f true s id) (hact : someActive (s.core id) f)
    (ha : ApartScales f (elemPlace (s.core id) f) (scalePlace (s.core id) f)) :
    Retires (.vst id f) id s (also (bytesAt (elemPlace (s.core id) f) (vmBytes f))
        (also (bytesAt (scalePlace (s.core id) f) (vmScales f)) (parts [.moves]))) (fun t =>
      t.core id = storedCore (s.core id) f ∧
      StoredRow (s.core id) f (fun j => s.byte (elemPlace (s.core id) f + j)) (fun j => t.byte (elemPlace (s.core id) f + j)) ∧
      StoredScales (s.core id) f (fun b => s.byte (scalePlace (s.core id) f + b)) (fun b => t.byte (scalePlace (s.core id) f + b))) := by
  obtain ⟨hw, hcode⟩ := vstLegal_facts hl
  have hslot : vmSlotForm f = false := slotForm_of_ne (by rw [hs]; decide)
  have he := exec_vst hr hh hm hl hnow.1 (fun r hr => (hnow.2 r hr).2.2.1) hact
  rw [hslot, if_neg Bool.false_ne_true] at he
  have htakes := takesVst_of_now hs hnow ha
  generalize hu : updCore (issued s id) id (fun k =>
    addFlags k (tainted (s.core id) (vstTouch f (s.core id))) (vstFlags f (s.core id))) = u at he
  have hcore : u.core id = storedCore (s.core id) f := by
    rw [← hu, updCore_core, issued_core, addFlags_storedCore hw hh]
  have hbyte (b : Nat) : u.byte b = s.byte b := by
    rw [← hu]
    exact issued_byte
  have hu' : TakesVst u f (s.core id) := by
    obtain ⟨helems, hscales, hapart⟩ := htakes.issued (id := id)
    have hto {a n : Nat} (h : TakesScratch (issued s id) a n) : TakesScratch u a n := by
      rw [← hu]
      exact ⟨h.own, h.scratch, h.whole, h.takes, h.correctable⟩
    exact ⟨hto helems, fun hm => hto (hscales hm), hapart⟩
  have hc := (storeAll_changes (hu'.clean (t := u) hcode)).mono fun p hp => hu'.storedParts hcode hp
  rw [vstMem_eq hu'.elems.own] at he
  refine retires_changes he ?_ (by simp) ⟨?_, ?_, ?_⟩
  · refine Changes.trans ?_ (hc.mono fun p hp => .inr hp)
    rw [← hu, changes_updCore (.inl (by simp))]
    exact Changes.refl _ _
  · rw [signal_core, storeAll_core (hu'.clean hcode), hcore]
  · refine storedRow_of_bytes hw hcode (fun j hj => (getD_bytes u _ hj).trans (hbyte _)) fun j hj => ?_
    simp only [signal_byte, ← hbyte]
    exact hu'.elem_byte hcode hj
  · intro hmx
    refine storedScales_of_bytes (fun b hb => ?_) hmx
    simp only [signal_byte, ← hbyte]
    exact hu'.scale_byte hcode hmx hb

theorem vectorStoreResults : claimVectorStoreResults :=
  ⟨fun _ _ _ hr hh hm hl hs hnow hact ha => vst_scratch hr hh hm hl hs hnow hact ha,
    fun _ _ _ hr hh hm hl hs hfault hact ha => vst_slot hr hh hm hl hs hfault hact ha,
    fun _ _ _ hr hh hm hl hfault hact => vst_inactive hr hh hm hl hfault hact⟩

end Sys2Proof.Claims

open Sys2Proof Sys2Proof.Machine Sys2Proof.Claims

/-- Settles O6: a load by the bytes it reads, a store by the row of bytes that it packs, bit by bit, and by where each byte goes. -/
theorem vectorMemoryResults : Obligations.VectorMemoryResults := ⟨vectorLoadResults, vectorStoreResults⟩
end

section
/-! SUPPORT. Accumulator tiles on shore (02 R75; 06 R171, R173): what a tile holds after elements of it have been written. -/

namespace Sys2Proof.Machine

variable {c : Core} {t u r j row col : Nat} {v : W40}

/-- The core with other tiles. -/
def Core.withTiles (c : Core) (x : Store W40) : Core := { c with tiles := x }

/-- The tiles that a write of tile t on shore writes: both halves of its pair while speculation is in effect. -/
theorem mem_tileWr (h : c.hold = []) : u ∈ c.tileWr t ↔ u = t ∨ (c.specOn = true ∧ u = t + 6) := by
  unfold Core.tileWr
  cases hs : c.specOn <;> simp [Core.atSea, h]

theorem tileKey_inj (hj : j < 128) (hr : r < 128) (hcol : col < 128) (hrow : row < 128) :
    tileKey u row col = tileKey t r j ↔ u = t ∧ row = r ∧ col = j := by
  unfold tileKey
  omega

/-- The same element of several tiles. -/
theorem storeGet_putTiles (l : List Nat) (m : Store W40) (hj : j < 128) (hr : r < 128) (hcol : col < 128) (hrow : row < 128) :
    storeGet (l.foldl (fun m u => storePut m (tileKey u r j) v 0) m) (tileKey u row col) 0 =
      if u ∈ l ∧ row = r ∧ col = j then v else storeGet m (tileKey u row col) 0 := by
  induction l generalizing m with
  | nil => simp
  | cons x l ih =>
    rw [List.foldl_cons, ih]
    by_cases h : tileKey u row col = tileKey x r j
    · obtain ⟨rfl, rfl, rfl⟩ := (tileKey_inj hj hr hcol hrow).1 h
      simp
    · rw [storeGet_storePut_other _ _ _ _ h]
      rw [tileKey_inj hj hr hcol hrow] at h
      have hiff : (u ∈ x :: l ∧ row = r ∧ col = j) ↔ (u ∈ l ∧ row = r ∧ col = j) := by
        rw [List.mem_cons]
        tauto
      simp only [hiff]

theorem storeGet_setElem (h : c.hold = []) (hj : j < 128) (hr : r < 128) (hcol : col < 128) (hrow : row < 128) :
    storeGet (c.setElem t r j v).tiles (tileKey u row col) 0 =
      if (u = t ∨ (c.specOn = true ∧ u = t + 6)) ∧ row = r ∧ col = j then v else storeGet c.tiles (tileKey u row col) 0 := by
  refine (storeGet_putTiles _ _ hj hr hcol hrow).trans ?_
  simp only [mem_tileWr h]

/-- Elements of tile t, one after the other. -/
def Core.setElems (c : Core) (t : Nat) (value : Nat → Nat → W40) (l : List (Nat × Nat)) : Core :=
  l.foldl (fun k p => k.setElem t p.1 p.2 (value p.1 p.2)) c

variable {value : Nat → Nat → W40} {l : List (Nat × Nat)}

theorem setElems_eq (c : Core) (t : Nat) (value : Nat → Nat → W40) (l : List (Nat × Nat)) :
    c.setElems t value l = c.withTiles (c.setElems t value l).tiles := by
  induction l generalizing c with
  | nil => rfl
  | cons p l ih => exact ih (c.setElem t p.1 p.2 (value p.1 p.2))

/-- An element written holds its value, the others what they held. -/
theorem storeGet_setElems (h : c.hold = []) (hl : ∀ p ∈ l, p.1 < 128 ∧ p.2 < 128) (hcol : col < 128) (hrow : row < 128) :
    storeGet (c.setElems t value l).tiles (tileKey u row col) 0 =
      if (u = t ∨ (c.specOn = true ∧ u = t + 6)) ∧ (row, col) ∈ l then value row col
      else storeGet c.tiles (tileKey u row col) 0 := by
  induction l generalizing c with
  | nil => simp [Core.setElems]
  | cons p l ih =>
    obtain ⟨hp1, hp2⟩ := hl p (List.mem_cons_self ..)
    refine (ih (c := c.setElem t p.1 p.2 (value p.1 p.2)) h (fun q hq => hl q (List.mem_cons_of_mem _ hq))).trans ?_
    rw [storeGet_setElem h hp2 hp1 hcol hrow]
    show (if (u = t ∨ (c.specOn = true ∧ u = t + 6)) ∧ (row, col) ∈ l then _ else _) = _
    by_cases hu : u = t ∨ (c.specOn = true ∧ u = t + 6)
    · by_cases hin : (row, col) ∈ l
      · rw [if_pos ⟨hu, hin⟩, if_pos ⟨hu, List.mem_cons_of_mem _ hin⟩]
      · rw [if_neg (fun hh => hin hh.2)]
        by_cases hp : row = p.1 ∧ col = p.2
        · have hmem : (row, col) ∈ p :: l := List.mem_cons.2 (.inl (Prod.ext hp.1 hp.2))
          rw [if_pos ⟨hu, hp⟩, if_pos ⟨hu, hmem⟩, hp.1, hp.2]
        · have hmem : (row, col) ∉ p :: l := fun hh =>
            (List.mem_cons.1 hh).elim (fun e => hp ⟨congrArg Prod.fst e, congrArg Prod.snd e⟩) hin
          rw [if_neg (fun hh => hp hh.2), if_neg (fun hh => hmem hh.2)]
    · rw [if_neg (fun hh => hu hh.1), if_neg (fun hh => hu hh.1), if_neg (fun hh => hu hh.1)]

/-- Two things accumulated together are each accumulated by itself. -/
theorem foldl_pair {α β γ : Type} (g : β → α → β) (h : γ → α → γ) (l : List α) (b : β) (d : γ) :
    l.foldl (fun x a => (g x.1 a, h x.2 a)) (b, d) = (l.foldl g b, l.foldl h d) := by
  induction l generalizing b d with
  | nil => rfl
  | cons a l ih => exact ih (g b a) (h d a)

/-- Rows of equally many elements, in order. -/
def grid (m n : Nat) : List (Nat × Nat) := (List.range m).flatMap (fun r => (List.range n).map (fun j => (r, j)))

theorem mem_grid {m n : Nat} : (row, col) ∈ grid m n ↔ row < m ∧ col < n := by simp [grid]

/-- Row by row is over the grid. -/
theorem foldl_grid {β : Type} (g : β → Nat × Nat → β) (m n : Nat) (b : β) :
    (List.range m).foldl (fun x r => (List.range n).foldl (fun x j => g x (r, j)) x) b = (grid m n).foldl g b := by
  simp only [grid, List.foldl_flatMap, List.foldl_map]

end Sys2Proof.Machine
end

section
/-! SUPPORT. Products (06 R171, R172; 03 R101 to R104; 05 R135). -/

namespace Sys2Proof.Claims
open Sys2Proof.Machine

variable {s : State} {id : CoreId} {i : Instr} {c : Core} {f : MmaF} {zero : Bool}

/-- One slice: added exactly and rounded once, INVALID when a NaN arises. -/
theorem sliceStep_eq (acc : W40) (a b : Nat → Machine.Num) (lo n : Nat) :
    sliceStep acc ((List.range n).map (fun j => (a (lo + j), b (lo + j)))) =
      ⟨(toXf40 (sliceExact (xf40 acc) a b lo n)).bits, (toXf40 (sliceExact (xf40 acc) a b lo n)).flags |||
        (if sliceExact (xf40 acc) a b lo n = .nan ∧ xf40 acc ≠ .nan ∧ (∀ j, j < n → a (lo + j) ≠ .nan ∧ b (lo + j) ≠ .nan)
          then 1 else 0)⟩ := by
  have hexact : ((List.range n).map (fun j => (a (lo + j), b (lo + j)))).foldl (fun x p => numAdd false x (numMul p.1 p.2)) (xf40 acc) =
      sliceExact (xf40 acc) a b lo n := List.foldl_map ..
  have hnan : (xf40 acc :: (((List.range n).map (fun j => (a (lo + j), b (lo + j)))).map
      (fun p => [p.1, p.2])).flatten).contains .nan = false ↔
      xf40 acc ≠ .nan ∧ ∀ j, j < n → a (lo + j) ≠ .nan ∧ b (lo + j) ≠ .nan := by
    rw [Bool.eq_false_iff, ne_eq, List.contains_iff_mem]
    simp only [List.mem_cons, List.mem_flatten, List.mem_map, List.mem_range, not_or]
    constructor
    · rintro ⟨h0, h⟩
      refine ⟨Ne.symm h0, fun j hj => ⟨fun e => h ?_, fun e => h ?_⟩⟩
      · exact ⟨_, ⟨_, ⟨j, hj, rfl⟩, rfl⟩, by simp [e]⟩
      · exact ⟨_, ⟨_, ⟨j, hj, rfl⟩, rfl⟩, by simp [e]⟩
    · rintro ⟨h0, h⟩
      refine ⟨Ne.symm h0, ?_⟩
      rintro ⟨l, ⟨p, ⟨j, hj, rfl⟩, rfl⟩, hmem⟩
      obtain ⟨ha, hb⟩ := h j hj
      rcases List.mem_pair.1 hmem with e | e
      · exact ha e.symm
      · exact hb e.symm
  simp only [sliceStep, hexact, madeNan, Bool.and_eq_true, decide_eq_true_eq, Bool.not_eq_true', hnan]

theorem mmaElem_eq (a b : Nat → Machine.Num) (k slice : Nat) (acc : W40) :
    mmaElem a b k slice acc = afterSlices a b k slice acc (ceilDiv k slice) := by
  unfold mmaElem
  induction ceilDiv k slice with
  | zero => rfl
  | succ n ih =>
    rw [List.range_succ, List.foldl_append, ih]
    simp only [List.foldl_cons, List.foldl_nil, sliceStep_eq, afterSlices, Nat.or_assoc]

/-- An element of the array's work, as the model writes it. -/
abbrev arrayElem (c : Core) (f : MmaF) (zero : Bool) (r j : Nat) : Rounded :=
  mmaElem (opValue (fun i => c.slotByte f.ba.toNat i) (mmaA f) r) (opValue (fun i => c.slotByte f.bb.toNat i) (mmaB f) j) (depthK f)
    (sliceOf f) (if zero then 0 else c.elem f.tile.toNat r j)

theorem arrayElem_eq (c : Core) (f : MmaF) (zero : Bool) (r j : Nat) : arrayElem c f zero r j = product c f zero r j := by
  rw [arrayElem, mmaElem_eq]
  rfl

theorem opMxNan_eq (byte : Nat → Byte) (o : Operand) : opMxNan byte o = hasNanScale byte o.code o.rows o.k o.mx := by
  simp only [opMxNan, hasNanScale, opScale, opScales, Nat.mul_div_cancel_left _ (show 0 < 32 by decide)]

/-- MXNAN of either operand. -/
abbrev nanFlag (c : Core) (f : MmaF) : Nat :=
  if hasNanScale (c.slotByte f.ba.toNat) f.fmta.toNat (rowsM f) (depthK f) (f.mxa == 1)
    || hasNanScale (c.slotByte f.bb.toNat) f.fmtb.toNat (colsN f) (depthK f) (f.mxb == 1) then 128 else 0

/-- The tile after the product. -/
abbrev productTile (k c : Core) (f : MmaF) (zero : Bool) : Core :=
  k.setElems f.tile.toNat (fun r j => BitVec.ofNat 40 (product c f zero r j).bits) (grid (rowsM f) (colsN f))

/-- The values and the flags of the array's work, apart. -/
theorem mmaRun_eq (k c : Core) (f : MmaF) (zero : Bool) :
    mmaRun k c f.tile.toNat (mmaA f) (mmaB f) (sliceOf f) zero = (productTile k c f zero,
      (List.range (rowsM f)).foldl (fun a row => (List.range (colsN f)).foldl (fun a col =>
        a ||| (product c f zero row col).flags) a) (nanFlag c f)) := by
  have hraw : mmaRun k c f.tile.toNat (mmaA f) (mmaB f) (sliceOf f) zero =
      (List.range (rowsM f)).foldl (fun x r => (List.range (colsN f)).foldl (fun x j =>
          (x.1.setElem f.tile.toNat r j (BitVec.ofNat 40 (arrayElem c f zero r j).bits), x.2 ||| (arrayElem c f zero r j).flags)) x)
        (k, if opMxNan (c.slotByte f.ba.toNat) (mmaA f) || opMxNan (c.slotByte f.bb.toNat) (mmaB f) then afMxnan else 0) := rfl
  simp only [hraw, arrayElem_eq, opMxNan_eq]
  have hgrid := foldl_grid (fun (x : Core × Nat) p => (x.1.setElem f.tile.toNat p.1 p.2 (BitVec.ofNat 40 (product c f zero p.1 p.2).bits),
    x.2 ||| (product c f zero p.1 p.2).flags)) (rowsM f) (colsN f) (k, nanFlag c f)
  have hflags := foldl_grid (fun a p => a ||| (product c f zero p.1 p.2).flags) (rowsM f) (colsN f) (nanFlag c f)
  refine hgrid.trans ((foldl_pair
    (fun (k : Core) (p : Nat × Nat) => k.setElem f.tile.toNat p.1 p.2 (BitVec.ofNat 40 (product c f zero p.1 p.2).bits))
    (fun (a : Nat) (p : Nat × Nat) => a ||| (product c f zero p.1 p.2).flags) _ _ _).trans ?_)
  rw [hflags]
  rfl

theorem mmaFault_none (ht : f.tile.toNat < c.tileLimit) (ha : opBytes (mmaA f) ≤ 32768) (hb : opBytes (mmaB f) ≤ 32768) :
    mmaFault f s c = none := by
  have hsize : slotSize = 32768 := rfl
  have hbytes : (slotSize < opBytes (mmaA f) || slotSize < opBytes (mmaB f)) = false := by
    simp only [hsize, Bool.or_eq_false_iff, decide_eq_false_iff_not]
    omega
  rw [mmaFault, if_neg (by omega), if_neg (by rw [hbytes]; decide)]

/-- Settled, no instruction waits for a move or a refresh. -/
theorem scoreboardHolds_settled {t : Touch} (h : Settled c) : scoreboardHolds c t = false := by
  obtain ⟨hh, hm, hrt, hrr⟩ := h
  simp [scoreboardHolds, hm, hrt, hrr, anyBit, Core.atSea, hh]

/-- Tiles with new elements, when every element inside is among those written. -/
theorem newTile_setElems {t : Nat} {inside : Nat → Nat → Bool} {value : Nat → Nat → Nat} {l : List (Nat × Nat)} (h : c.hold = [])
    (hl : ∀ row col, (row, col) ∈ l ↔ inside row col = true ∧ row < 128 ∧ col < 128) :
    NewTile c t inside value (c.setElems t (fun r j => BitVec.ofNat 40 (value r j)) l).tiles := by
  intro u row col hrow hcol
  refine (storeGet_setElems h (fun p hp => ((hl p.1 p.2).1 hp).2) hcol hrow).trans ?_
  simp only [hl, hrow, hcol, and_true]

theorem product_retired (c : Core) (f : MmaF) (zero : Bool) : product (retired c) f zero = product c f zero := rfl

theorem mma_retires {mn : String} (he : exec i s = mmaExec mn zero id f s) (hr : Ready s id) (hs : Settled (s.core id))
    (hl : mmaLegal f = true) (ht : f.tile.toNat < (s.core id).tileLimit) (ha : opBytes (mmaA f) ≤ 32768)
    (hb : opBytes (mmaB f) ≤ 32768) :
    Retires i id s nothing (fun t =>
      ∃ x, NewTile (s.core id) f.tile.toNat (fun r j => decide (r < rowsM f ∧ j < colsN f))
          (fun r j => (product (s.core id) f zero r j).bits) x ∧
        t.core id = { retired (s.core id) with tiles := x, aflags := (s.core id).aflags ||| productFlags (s.core id) f zero }) := by
  have hh := hs.1
  rw [mmaExec, issue_shore hr hh hl (mmaFault_none ht ha hb) (scoreboardHolds_settled hs) rfl rfl] at he
  refine retires_updCore he fun t ht => ⟨(productTile (retired (s.core id)) (s.core id) f zero).tiles, ?_, ?_⟩
  · refine newTile_setElems (c := retired (s.core id)) hh fun row col => ?_
    rw [mem_grid, decide_eq_true_eq]
    have hm : rowsM f ≤ 128 := f.mm1.isLt
    have hn : colsN f ≤ 128 := f.nm1.isLt
    omega
  · have hrun := mmaRun_eq (retired (s.core id)) (retired (s.core id)) f zero
    simp only [productTile, product_retired] at hrun
    have hsea : (productTile (retired (s.core id)) (s.core id) f zero).hold = [] := by
      rw [productTile, setElems_eq]
      exact hh
    refine ht.trans ((congrArg (fun x => addFlags x.1 _ x.2) hrun).trans ((addFlags_shore hsea _ _).trans ?_))
    rw [productTile, setElems_eq]
    rfl

theorem matrixResults : claimMatrixResults := by
  intro i id f zero s hrow hr hs hl ht ha hb
  cases hrow with
  | mma => exact mma_retires (show execMma id f s = _ from rfl) hr hs hl ht ha hb
  | mmaZ => exact mma_retires (show execMmaZ id f s = _ from rfl) hr hs hl ht ha hb

end Sys2Proof.Claims
end

section
/-! SUPPORT. The accumulator port (06 R173; 05 R134). -/

namespace Sys2Proof.Claims
open Sys2Proof.Machine

variable {s : State} {id : CoreId} {f : RegF} {c : Core}

theorem accFault_none (h : f.c.toNat < c.tileLimit) : accFault f s c = none := if_neg (by omega)

/-- The lanes that AREAD makes of the tile of core k, the row being named by core c. -/
abbrev portLane (k c : Core) (f : RegF) (i : Nat) : Rounded := xfToFp32 (satOf f) (k.elem f.c.toNat (accPortRow f c) i)

theorem aread_retires (hr : Ready s id) (hs : Settled (s.core id)) (hw : PortWord f) (ht : f.c.toNat < (s.core id).tileLimit) :
    Retires (.aread id f) id s nothing (LanesWritten id s f (readLane (s.core id) f)) := by
  have hh := hs.1
  obtain ⟨ha, hc, hb, hrm, hfmt, hrsv⟩ := hw
  have he : exec (.aread id f) s = finish (updCore (issued s id) id (fun k => addFlags
      (k.setVreg f.d.toNat (wordsOfResults (vecLanes (s.core id) f (portLane k (s.core id) f))))
      (tainted (s.core id) (areadTouch f (s.core id))) (joinFlags (vecLanes (s.core id) f (portLane k (s.core id) f))))) := by
    show execAread id f s = _
    rw [execAread, issue_shore hr hh (by simp [isS, is16, ha, hc, hb, hrm, hfmt, hrsv]) (accFault_none ht)
      (scoreboardHolds_settled hs) rfl rfl]
  refine retires_updCore he fun t ht => ⟨_, newLanes_vecLanes (s.core id) f (readLane (s.core id) f), ?_⟩
  have hlane : portLane (retired (s.core id)) (s.core id) f = readLane (s.core id) f := rfl
  rw [ht, hlane, addFlags_shore (c := (retired (s.core id)).setVreg ..) hh, joinFlags_vecLanes]
  rfl

/-- The elements of a row that AWRITE writes. -/
abbrev portElems (c : Core) (f : RegF) : List (Nat × Nat) := ((List.range 128).filter (active c f.mask)).map (fun j => (portRow f c, j))

theorem mem_portElems {row col : Nat} : (row, col) ∈ portElems c f ↔
    (row == portRow f c && active c f.mask col) = true ∧ row < 128 ∧ col < 128 := by
  have hrow : portRow f c < 128 := Nat.mod_lt _ (by decide)
  simp only [List.mem_map, List.mem_filter, List.mem_range, Prod.mk.injEq, Bool.and_eq_true, beq_iff_eq]
  constructor
  · rintro ⟨j, ⟨hj, ha⟩, rfl, rfl⟩
    exact ⟨⟨rfl, ha⟩, hrow, hj⟩
  · rintro ⟨⟨rfl, ha⟩, -, hcol⟩
    exact ⟨col, ⟨hcol, ha⟩, rfl, rfl⟩

/-- The row and the flags that AWRITE makes, apart. -/
theorem awrite_fold (k c : Core) (f : RegF) :
    (List.range 128).foldl (fun (x : Core × Nat) i =>
        if active c f.mask i then
          (x.1.setElem f.c.toNat (portRow f c) i (BitVec.ofNat 40 (writeElem c f i).bits), x.2 ||| (writeElem c f i).flags)
        else x) (k, 0) =
      (k.setElems f.c.toNat (fun _ j => BitVec.ofNat 40 (writeElem c f j).bits) (portElems c f),
        (List.range 128).foldl (fun a i => if active c f.mask i then a ||| (writeElem c f i).flags else a) 0) := by
  have hpair := foldl_pair (fun (k : Core) i => k.setElem f.c.toNat (portRow f c) i (BitVec.ofNat 40 (writeElem c f i).bits))
    (fun (a : Nat) i => a ||| (writeElem c f i).flags) ((List.range 128).filter (active c f.mask)) k 0
  rw [List.foldl_filter, List.foldl_filter (f := fun (a : Nat) i => a ||| (writeElem c f i).flags)] at hpair
  refine hpair.trans ?_
  rw [Core.setElems, List.foldl_map]

theorem awrite_retires (hr : Ready s id) (hs : Settled (s.core id)) (hw : PortWord f) (hsat : f.sat = 0) (hzm : f.zm = 0)
    (ht : f.c.toNat < (s.core id).tileLimit) :
    Retires (.awrite id f) id s nothing (fun t =>
      ∃ x, NewTile (s.core id) f.c.toNat (fun r j => r == portRow f (s.core id) && active (s.core id) f.mask j)
          (fun _ j => (writeElem (s.core id) f j).bits) x ∧
        t.core id = { retired (s.core id) with
          tiles := x, aflags := (s.core id).aflags ||| activeFlags (s.core id) f.mask (writeElem (s.core id) f) }) := by
  have hh := hs.1
  obtain ⟨ha, hc, hb, hrm, hfmt, hrsv⟩ := hw
  have he : exec (.awrite id f) s = finish (updCore (issued s id) id (fun k => addFlags
      (k.setElems f.c.toNat (fun _ j => BitVec.ofNat 40 (writeElem (s.core id) f j).bits) (portElems (s.core id) f))
      (tainted (s.core id) (awriteTouch f (s.core id)))
      ((List.range 128).foldl (fun a i => if active (s.core id) f.mask i then a ||| (writeElem (s.core id) f i).flags else a) 0))) := by
    show execAwrite id f s = _
    rw [execAwrite, issue_shore hr hh (by simp [isS, is16, ha, hc, hb, hrm, hfmt, hrsv, hsat, hzm]) (accFault_none ht)
      (scoreboardHolds_settled hs) rfl rfl]
    refine congrArg (fun g => finish (updCore (issued s id) id g)) (funext fun k => ?_)
    exact congrArg (fun x : Core × Nat => addFlags x.1 _ x.2) (awrite_fold k (s.core id) f)
  refine retires_updCore he fun t ht => ⟨((retired (s.core id)).setElems f.c.toNat
    (fun _ j => BitVec.ofNat 40 (writeElem (s.core id) f j).bits) (portElems (s.core id) f)).tiles,
    newTile_setElems (c := retired (s.core id)) hh fun _ _ => mem_portElems, ?_⟩
  have hsea : ((retired (s.core id)).setElems f.c.toNat (fun _ j => BitVec.ofNat 40 (writeElem (s.core id) f j).bits)
      (portElems (s.core id) f)).hold = [] := by
    rw [setElems_eq]
    exact hh
  rw [ht, addFlags_shore hsea, setElems_eq]
  rfl

/-- Tiles dropped read +0, the others what they held. -/
theorem storeGet_dropTiles (l : List Nat) (m : Store W40) (k : Nat) :
    storeGet (l.foldl (fun m u => storeKeep (fun k => k / 16384 != u) m) m) k 0 = if k / 16384 ∈ l then 0 else storeGet m k 0 := by
  induction l generalizing m with
  | nil => simp
  | cons u l ih =>
    rw [List.foldl_cons, ih]
    by_cases h : k / 16384 = u
    · rw [storeGet_storeKeep_neg m _ 0 (by simp [h])]
      simp [h]
    · rw [storeGet_storeKeep_pos m _ 0 (by simp [h])]
      simp [h]

theorem newTile_zeroTile {t : Nat} (h : c.hold = []) : NewTile c t (fun _ _ => true) (fun _ _ => 0) (c.zeroTile t).tiles := by
  intro u row col hrow hcol
  have hkey : tileKey u row col / 16384 = u := by
    unfold tileKey
    omega
  refine (storeGet_dropTiles _ _ _).trans ?_
  simp only [hkey, mem_tileWr h, and_true]
  rfl

theorem azero_retires (hr : Ready s id) (hs : Settled (s.core id)) (hw : PortWord f) (hd : f.d = 0) (ha0 : f.a = 0) (hm : f.mask = 0)
    (hsat : f.sat = 0) (hzm : f.zm = 0) (hlane : f.lane = 0) (ht : f.c.toNat < (s.core id).tileLimit) :
    Retires (.azero id f) id s nothing (fun t =>
      ∃ x, NewTile (s.core id) f.c.toNat (fun _ _ => true) (fun _ _ => 0) x ∧ t.core id = { retired (s.core id) with tiles := x }) := by
  obtain ⟨-, hc, hb, hrm, hfmt, hrsv⟩ := hw
  have he : exec (.azero id f) s = finish (updCore (issued s id) id (fun k => k.zeroTile f.c.toNat)) := by
    show execAzero id f s = _
    rw [execAzero, issue_shore hr hs.1 (by simp [is16, ha0, hc, hb, hrm, hfmt, hrsv, hd, hm, hsat, hzm, hlane]) (accFault_none ht)
      (scoreboardHolds_settled hs) rfl rfl]
  exact retires_updCore he fun t ht => ⟨_, newTile_zeroTile (c := retired (s.core id)) hs.1, ht⟩

end Sys2Proof.Claims

open Sys2Proof Sys2Proof.Machine Sys2Proof.Claims

/-- Settles O7: a product slice by slice and element by element over the grid of the tile, the accumulator port row by row. -/
theorem matrixUnitResults : Obligations.MatrixUnitResults :=
  ⟨matrixResults, fun _ _ _ hr hs hw ht => aread_retires hr hs hw ht,
    fun _ _ _ hr hs hw hsat hzm ht => awrite_retires hr hs hw hsat hzm ht,
    fun _ _ _ hr hs hw hd ha hm hsat hzm hlane ht => azero_retires hr hs hw hd ha hm hsat hzm hlane ht⟩
end

section
/-! SUPPORT. Row-statistics blocks on shore (02 R75; 07 R200): what a block holds after rows of it have been written. -/

namespace Sys2Proof.Machine

variable {c : Core} {k u q r o : Nat}

/-- The core with other row statistics. -/
def Core.withRows (c : Core) (x : Store Byte) : Core := { c with rows := x }

/-- The blocks that a write of block k on shore writes: both halves of its pair while speculation is in effect. -/
theorem mem_rowWr (h : c.hold = []) : u ∈ c.rowWr k ↔ u = k ∨ (c.specOn = true ∧ u = k + 8) := by
  unfold Core.rowWr
  cases hs : c.specOn <;> simp [Core.atSea, h]

theorem rowKey_inj {p : Nat} (ho : o < 32) (hp : p < 32) (hr : r < 128) (hq : q < 128) :
    rowKey u r o = rowKey k q p ↔ u = k ∧ r = q ∧ o = p := by
  unfold rowKey
  omega

/-- Bytes written into a row from byte p on. -/
theorem storeGet_putRow (bs : List Byte) {p : Nat} (m : Store Byte) (hl : p + bs.length ≤ 32) (ho : o < 32) (hr : r < 128)
    (hq : q < 128) :
    storeGet (putRow m k q p bs) (rowKey u r o) 0 =
      if (u = k ∧ r = q) ∧ p ≤ o ∧ o < p + bs.length then bs.getD (o - p) 0 else storeGet m (rowKey u r o) 0 := by
  induction bs generalizing m p with
  | nil => rw [if_neg (by simp)]; rfl
  | cons b bs ih =>
    rw [List.length_cons] at hl
    rw [putRow, ih _ (by omega)]
    by_cases hk : rowKey u r o = rowKey k q p
    · obtain ⟨hu, hrq, rfl⟩ := (rowKey_inj ho (by omega) hr hq).1 hk
      rw [hk, storeGet_storePut_same, if_neg (by omega), if_pos ⟨⟨hu, hrq⟩, by simp⟩, Nat.sub_self, List.getD_cons_zero]
    · rw [storeGet_storePut_other _ _ _ _ hk]
      by_cases hin : (u = k ∧ r = q) ∧ p + 1 ≤ o ∧ o < p + 1 + bs.length
      · rw [if_pos hin, if_pos ⟨hin.1, by simp; omega⟩, show o - p = o - (p + 1) + 1 by omega, List.getD_cons_succ]
      · rw [rowKey_inj ho (by omega) hr hq] at hk
        rw [if_neg hin, if_neg (by simp; omega)]

@[simp] theorem length_rowToBytes (x : Row) : (rowToBytes x).length = 32 := by simp [rowToBytes]

/-- One row of several blocks. -/
theorem storeGet_putRows (l : List Nat) (m : Store Byte) (x : Row) (ho : o < 32) (hr : r < 128) (hq : q < 128) :
    storeGet (l.foldl (fun m u => putRow m u q 0 (rowToBytes x)) m) (rowKey u r o) 0 =
      if u ∈ l ∧ r = q then (rowToBytes x).getD o 0 else storeGet m (rowKey u r o) 0 := by
  induction l generalizing m with
  | nil => simp
  | cons w l ih =>
    rw [List.foldl_cons, ih, storeGet_putRow _ _ (by simp) ho hr hq]
    simp only [length_rowToBytes, Nat.zero_le, Nat.zero_add, ho, and_true, Nat.sub_zero, List.mem_cons]
    by_cases hl : u ∈ l ∧ r = q
    · rw [if_pos hl, if_pos ⟨.inr hl.1, hl.2⟩]
    · rw [if_neg hl]
      exact if_congr (by tauto) rfl rfl

theorem storeGet_setRow (h : c.hold = []) (x : Row) (ho : o < 32) (hr : r < 128) (hq : q < 128) :
    storeGet (c.setRow k q x).rows (rowKey u r o) 0 =
      if (u = k ∨ (c.specOn = true ∧ u = k + 8)) ∧ r = q then (rowToBytes x).getD o 0 else storeGet c.rows (rowKey u r o) 0 :=
  (storeGet_putRows _ _ x ho hr hq).trans (by simp only [mem_rowWr h])

/-- Rows of block k, one after the other. -/
def Core.setRows (c : Core) (k : Nat) (value : Nat → Row) (l : List Nat) : Core := l.foldl (fun x q => x.setRow k q (value q)) c

variable {value : Nat → Row} {l : List Nat}

theorem setRows_eq (c : Core) (k : Nat) (value : Nat → Row) (l : List Nat) :
    c.setRows k value l = c.withRows (c.setRows k value l).rows := by
  induction l generalizing c with
  | nil => rfl
  | cons q l ih => exact ih (c.setRow k q (value q))

/-- A row written holds its value, the others what they held. -/
theorem storeGet_setRows (h : c.hold = []) (hl : ∀ q ∈ l, q < 128) (ho : o < 32) (hr : r < 128) :
    storeGet (c.setRows k value l).rows (rowKey u r o) 0 =
      if (u = k ∨ (c.specOn = true ∧ u = k + 8)) ∧ r ∈ l then (rowToBytes (value r)).getD o 0
      else storeGet c.rows (rowKey u r o) 0 := by
  induction l generalizing c with
  | nil => simp [Core.setRows]
  | cons q l ih =>
    refine (ih (c := c.setRow k q (value q)) h (fun p hp => hl p (List.mem_cons_of_mem _ hp))).trans ?_
    rw [storeGet_setRow h (value q) ho hr (hl q (List.mem_cons_self ..))]
    show (if (u = k ∨ (c.specOn = true ∧ u = k + 8)) ∧ r ∈ l then _ else _) = _
    by_cases hin : (u = k ∨ (c.specOn = true ∧ u = k + 8)) ∧ r ∈ l
    · rw [if_pos hin, if_pos ⟨hin.1, List.mem_cons_of_mem _ hin.2⟩]
    · rw [if_neg hin]
      by_cases hq : (u = k ∨ (c.specOn = true ∧ u = k + 8)) ∧ r = q
      · rw [if_pos hq, if_pos ⟨hq.1, hq.2 ▸ List.mem_cons_self ..⟩, hq.2]
      · rw [if_neg hq, if_neg (by rw [List.mem_cons]; tauto)]

/-- Blocks dropped read zero, the others what they held. -/
theorem storeGet_dropBlocks {α : Type} (size : Nat) (l : List Nat) (m : Store α) (k : Nat) (d : α) :
    storeGet (l.foldl (fun m u => storeKeep (fun x => x / size != u) m) m) k d = if k / size ∈ l then d else storeGet m k d := by
  induction l generalizing m with
  | nil => simp
  | cons u l ih =>
    rw [List.foldl_cons, ih]
    by_cases h : k / size = u
    · rw [storeGet_storeKeep_neg m _ d (by simp [h])]
      simp [h]
    · rw [storeGet_storeKeep_pos m _ d (by simp [h])]
      simp [h]

end Sys2Proof.Machine
end

section
/-! SUPPORT. Row-statistics instructions (06 R176; 07 R200 to R206): what they share, and one lemma each. -/

namespace Sys2Proof.Claims
open Sys2Proof.Machine

variable {s : State} {id : CoreId} {i : Instr} {f : RegF} {c : Core} {k q : Nat} {mn : String} {legal : Bool}
  {fault : State → Core → Option FaultRec} {touch : Core → Touch} {effect : State → Core → Core → Core × Nat}
  {post : State → Prop} {inside : Nat → Bool} {bytes : Nat → List Byte} {y : Store Byte} {n : Nat} {d : Core}

/-! New rows. -/

theorem newRows_setRow (h : c.hold = []) (hq : q < 128) (x : Row) :
    NewRows c k (fun r => r == q) (fun _ => rowToBytes x) (c.setRow k q x).rows := by
  intro u r o hr ho
  simp only [storeGet_setRow h x ho hr hq, beq_iff_eq]

theorem newRows_setRows (h : c.hold = []) (value : Nat → Row) :
    NewRows c k (fun _ => true) (fun r => rowToBytes (value r)) (c.setRows k value (List.range 128)).rows := by
  intro u r o hr ho
  simp only [storeGet_setRows h (fun _ => List.mem_range.1) ho hr, List.mem_range, hr]

theorem newRows_zeroRows (h : c.hold = []) : NewRows c k (fun _ => true) (fun _ => []) (c.zeroRows k).rows := by
  intro u r o hr ho
  have hkey : rowKey u r o / 4096 = u := by
    unfold rowKey
    omega
  refine (storeGet_dropBlocks 4096 _ _ _ _).trans ?_
  simp only [hkey, mem_rowWr h, and_true]
  rfl

/-! The words and their faults. -/

/-- The further fields that no row-statistics instruction but RSRD and SMX uses are zero. -/
abbrev PlainRow (f : RegF) : Prop := f.rm = 0 ∧ f.sat = 0 ∧ f.lane = 0 ∧ f.fmt = 0

theorem rsPlain_of_rowWord (h : RowWord f) (hp : PlainRow f) : rsPlain f = true := by
  obtain ⟨hzm, hrsv, -⟩ := h
  obtain ⟨hrm, hsat, hlane, hfmt⟩ := hp
  simp [rsPlain, hzm, hrsv, hrm, hsat, hlane, hfmt]

theorem block_lt_of_rowWord (h : RowWord f) : f.c.toNat < 16 := by
  obtain ⟨-, -, hc⟩ := h
  exact hc

theorem blockFault_none {l : List Nat} (h : ∀ k ∈ l, k < c.rowLimit) : blockFault l c = none := by
  refine if_neg ?_
  simpa using h

theorem orElse_none {x y : Option FaultRec} (hx : x = none) (hy : y = none) : orElse x y = none := by rw [hx, hy]; rfl

theorem rowKind_good {bad : Bool} (h : bad = false) : rowKind bad = none := by simp [rowKind, h]

theorem rowIndex_lt (c : Core) (f : RegF) : rowIndex c f < 128 := Nat.mod_lt _ (by decide)

/-! How they retire. -/

/-- A row-statistics instruction leaves what it makes of the core that has retired, and its flags. -/
theorem row_retires (he : exec i s = rowExec mn id legal fault touch effect s) (hr : Ready s id) (hs : Settled (s.core id))
    (hl : legal = true) (hf : fault s (s.core id) = none)
    (hx : effect (issued s id) (s.core id) (retired (s.core id)) = (d, n)) (hd : d.hold = [])
    (hp : ∀ t, t.core id = { d with aflags := d.aflags ||| BitVec.ofNat 32 n } → post t) : Retires i id s nothing post := by
  rw [rowExec, issue_shore hr hs.1 hl hf (scoreboardHolds_settled hs) rfl rfl] at he
  refine retires_updCore he fun t ht => hp t ?_
  simp only [hx] at ht
  rw [ht, addFlags_shore hd]

/-- New rows by NewRows: what an instruction that writes rows alone leaves on shore. -/
abbrev RowsWritten (id : CoreId) (s : State) (k : Nat) (inside : Nat → Bool) (value : Nat → List Byte) (t : State) : Prop :=
  ∃ x, NewRows (s.core id) k inside value x ∧ t.core id = { retired (s.core id) with rows := x }

/-- One that writes rows alone. -/
theorem rows_retire (he : exec i s = rowExec mn id legal fault touch effect s) (hr : Ready s id) (hs : Settled (s.core id))
    (hl : legal = true) (hf : fault s (s.core id) = none)
    (hx : effect (issued s id) (s.core id) (retired (s.core id)) = ((retired (s.core id)).withRows y, 0))
    (hn : NewRows (s.core id) k inside bytes y) :
    Retires i id s nothing (RowsWritten id s k inside bytes) := by
  refine row_retires he hr hs hl hf hx hs.1 fun t ht => ⟨y, hn, ht.trans ?_⟩
  simp only [Core.withRows, BitVec.or_zero]

/-! RSW, RSC and RSCLR. -/

theorem rsw_retires (hr : Ready s id) (hs : Settled (s.core id)) (hw : RowWord f) (hp : PlainRow f) (hb : f.b.toNat < 32)
    (hd : f.d = 0) (hk : f.c.toNat < (s.core id).rowLimit)
    (hsoft : ((s.core id).row f.c.toNat (rowIndex (s.core id) f)).has rsSoftmax = false)
    (hcount : ((s.core id).row f.c.toNat (rowIndex (s.core id) f)).count + (rowLanes (s.core id) f).length ≤ 2 ^ 24) :
    Retires (.rsw id f) id s nothing (RowsWritten id s f.c.toNat (fun r => r == rowIndex (s.core id) f) (fun _ =>
      rowToBytes (welford ((s.core id).row f.c.toNat (rowIndex (s.core id) f))
        ((rowLanes (s.core id) f).map (wordA f (s.core id)))))) := by
  refine rows_retire (show execRsw id f s = _ from rfl) hr hs ?_ ?_ rfl
    (newRows_setRow (c := retired (s.core id)) hs.1 (rowIndex_lt _ _) _)
  · simp [isS, is16, hb, block_lt_of_rowWord hw, hd, rsPlain_of_rowWord hw hp]
  · exact orElse_none (blockFault_none (by simpa using hk)) (orElse_none (rowKind_good hsoft) (if_neg (Nat.not_lt.2 hcount)))

theorem rsc_retires (hr : Ready s id) (hs : Settled (s.core id)) (hw : RowWord f) (hp : PlainRow f) (ha : f.a.toNat < 16)
    (hb : f.b.toNat < 32) (hd : f.d = 0) (hm : f.mask = 0) (hk : f.c.toNat < (s.core id).rowLimit)
    (hka : f.a.toNat < (s.core id).rowLimit)
    (hsoft : ((s.core id).row f.c.toNat (rowIndex (s.core id) f)).has rsSoftmax = false)
    (hsofta : ((s.core id).row f.a.toNat (rowIndex (s.core id) f)).has rsSoftmax = false)
    (hcount : ((s.core id).row f.c.toNat (rowIndex (s.core id) f)).count +
      ((s.core id).row f.a.toNat (rowIndex (s.core id) f)).count ≤ 2 ^ 24) :
    Retires (.rsc id f) id s nothing (RowsWritten id s f.c.toNat (fun r => r == rowIndex (s.core id) f) (fun _ =>
      rowToBytes (chan ((s.core id).row f.c.toNat (rowIndex (s.core id) f)) ((s.core id).row f.a.toNat (rowIndex (s.core id) f))))) := by
  refine rows_retire (show execRsc id f s = _ from rfl) hr hs ?_ ?_ rfl
    (newRows_setRow (c := retired (s.core id)) hs.1 (rowIndex_lt _ _) _)
  · simp [isS, is16, ha, hb, block_lt_of_rowWord hw, hd, hm, rsPlain_of_rowWord hw hp]
  · exact orElse_none (blockFault_none (by simp [hk, hka]))
      (orElse_none (rowKind_good (Bool.or_eq_false_iff.2 ⟨hsoft, hsofta⟩)) (if_neg (Nat.not_lt.2 hcount)))

theorem rsclr_retires (hr : Ready s id) (hs : Settled (s.core id)) (hw : RowWord f) (hp : PlainRow f) (ha : f.a = 0) (hb : f.b = 0)
    (hd : f.d = 0) (hm : f.mask = 0) (hk : f.c.toNat < (s.core id).rowLimit) :
    Retires (.rsclr id f) id s nothing (RowsWritten id s f.c.toNat (fun _ => true) (fun _ => [])) := by
  refine rows_retire (show execRsclr id f s = _ from rfl) hr hs ?_ (blockFault_none (by simpa using hk)) rfl
    (newRows_zeroRows (c := retired (s.core id)) hs.1)
  simp [is16, block_lt_of_rowWord hw, ha, hb, hd, hm, rsPlain_of_rowWord hw hp]

/-! RSRD. -/

/-- Mask register 0 leaves every lane in. -/
theorem active_zero {j : Nat} (hj : j < 128) : active c 0 j = true := by
  show (BitVec.allOnes 128).getLsbD j = true
  rw [BitVec.getLsbD_allOnes, decide_eq_true hj]

/-- Unmasked, every lane is written. -/
theorem vecLanes_unmasked (hm : f.mask = 0) (lane : Nat → Rounded) : vecLanes c f lane = (List.range 128).map lane := by
  refine List.map_congr_left fun j hj => ?_
  have ha : active c f.mask j = true := hm ▸ active_zero (List.mem_range.1 hj)
  exact if_pos ha

theorem rsrd_retires (hr : Ready s id) (hs : Settled (s.core id)) (hw : RowWord f) (ha : f.a = 0) (hb : f.b = 0) (hm : f.mask = 0)
    (hrm : f.rm = 0) (hfmt : f.fmt = 0) (hq : f.lane.toNat ≤ 7) (hk : f.c.toNat < (s.core id).rowLimit) :
    Retires (.rsrd id f) id s nothing
      (LanesWritten id s f (fun r => rowQuantity ((s.core id).row f.c.toNat r) f.lane.toNat (f.sat == 1))) := by
  obtain ⟨hzm, hrsv, hc⟩ := hw
  have hlanes := vecLanes_unmasked (c := s.core id) hm (fun r => rowQuantity ((s.core id).row f.c.toNat r) f.lane.toNat (f.sat == 1))
  refine row_retires (show execRsrd id f s = _ from rfl) hr hs ?_ (blockFault_none (by simpa using hk)) rfl hs.1 fun t ht =>
    ⟨_, newLanes_vecLanes (s.core id) f _, ht.trans ?_⟩
  · simp [is16, hc, ha, hb, hm, hrm, hzm, hfmt, hrsv, hq]
  · rw [← joinFlags_vecLanes, hlanes]
    rfl

end Sys2Proof.Claims

open Sys2Proof Sys2Proof.Machine Sys2Proof.Claims

/-- Settles O10: RSW, RSC and RSCLR by the rows they write, RSRD as an unmasked instruction over the lanes of vD. -/
theorem rowStatisticsResults : Obligations.RowStatisticsResults :=
  ⟨fun _ _ _ hr hs hw hb hd hrm hsat hlane hfmt hk hsoft hcount =>
      rsw_retires hr hs hw ⟨hrm, hsat, hlane, hfmt⟩ hb hd hk hsoft hcount,
    fun _ _ _ hr hs hw ha hb hd hm hrm hsat hlane hfmt hk hka hsoft hsofta hcount =>
      rsc_retires hr hs hw ⟨hrm, hsat, hlane, hfmt⟩ ha hb hd hm hk hka hsoft hsofta hcount,
    fun _ _ _ hr hs hw ha hb hd hm hrm hsat hlane hfmt hk =>
      rsclr_retires hr hs hw ⟨hrm, hsat, hlane, hfmt⟩ ha hb hd hm hk,
    fun _ _ _ hr hs hw ha hb hm hrm hfmt hq hk => rsrd_retires hr hs hw ha hb hm hrm hfmt hq hk⟩
end

section
/-! SUPPORT. The soft maximum (07 R207 to R209). -/

namespace Sys2Proof.Claims
open Sys2Proof.Machine

variable {s : State} {id : CoreId} {f : RegF}

/-- An SMX makes a word for every lane of vD, +0 for those that are not in U. -/
theorem softStep_lanes (r : Row) (cls rm : Nat) (sat : Bool) (score : Nat → W32) (u : List Nat) :
    ∃ p : Nat → Rounded, (softStep r cls rm sat score u).lanes = wordsOfResults ((List.range 128).map p) ∧
      ∀ j, j ∉ u → (p j).bits = 0 := by
  simp only [softStep]
  split
  · refine ⟨fun j => if u.contains j then classLane cls (narrowTo cls rm sat .nan) else ⟨0, 0⟩, ?_, fun j hj => by simp [hj]⟩
    rw [wordsOfResults, List.map_map]
    refine List.map_congr_left fun j _ => ?_
    simp only [Function.comp_apply]
    split <;> rfl
  · dsimp only
    exact ⟨_, rfl, fun j hj => by simp [hj]⟩

theorem softOf_lanes (c : Core) (f : RegF) :
    ∃ p : Nat → Rounded, (softOf c f).lanes = wordsOfResults ((List.range 128).map p) ∧ ∀ j, j ∉ scoreLanes c f → (p j).bits = 0 :=
  softStep_lanes ..

theorem length_softOf_lanes (c : Core) (f : RegF) : (softOf c f).lanes.length = 128 := by
  obtain ⟨p, hp, -⟩ := softOf_lanes c f
  simp [hp, wordsOfResults]

theorem softOf_lane_outside {c : Core} {j : Nat} (hj : j < 128) (h : j ∉ scoreLanes c f) : (softOf c f).lanes.getD j 0 = 0 := by
  obtain ⟨p, hp, hzero⟩ := softOf_lanes c f
  rw [hp, getD_wordsOfResults _ hj, hzero j h]
  rfl

theorem smx_retires (hr : Ready s id) (hs : Settled (s.core id)) (hw : RowWord f) (hb : f.b.toNat < 32)
    (hcls : outClass f.fmt.toNat = true) (hlane : f.lane = 0) (hk : f.c.toNat < (s.core id).rowLimit)
    (hfn : fnPresent s (coreOwner s id) 0x10 f.fmt.toNat = true)
    (hstats : ((s.core id).row f.c.toNat (rowIndex (s.core id) f)).has rsStats = false)
    (hfin : ((s.core id).row f.c.toNat (rowIndex (s.core id) f)).has rsFinished = false) :
    Retires (.smx id f) id s nothing (fun t =>
      ∃ x v,
        NewRows (s.core id) f.c.toNat (fun r => r == rowIndex (s.core id) f)
          (fun _ => rowToBytes (softOf (s.core id) f).row) x ∧
        (∀ r j, j < 128 → storeGet v (128 * r + j) 0 =
          if r = f.d.toNat then (softOf (s.core id) f).lanes.getD j 0 else (s.core id).lane r j) ∧
        (∀ j, j < 128 → j ∉ scoreLanes (s.core id) f → (softOf (s.core id) f).lanes.getD j 0 = 0) ∧
        t.core id = { retired (s.core id) with
          rows := x, vreg := v, aflags := (s.core id).aflags ||| BitVec.ofNat 32 (softOf (s.core id) f).flags }) := by
  refine row_retires (show execSmx id f s = _ from rfl) hr hs ?_ ?_ rfl hs.1 fun t ht =>
    ⟨_, _, newRows_setRow (c := retired (s.core id)) hs.1 (rowIndex_lt _ _) _,
      fun r j hj => lane_setVreg (s.core id) f.d.toNat _ (length_softOf_lanes (s.core id) f).le r j hj,
      fun j hj h => softOf_lane_outside hj h, ht⟩
  · obtain ⟨hzm, hrsv, hc⟩ := hw
    simp [isS, is16, hb, hc, hcls, hzm, hlane, hrsv]
  · exact orElse_none (blockFault_none (by simpa using hk))
      (orElse_none (if_pos hfn) (rowKind_good (Bool.or_eq_false_iff.2 ⟨hstats, hfin⟩)))

theorem smxf_retires (hr : Ready s id) (hs : Settled (s.core id)) (hw : RowWord f) (hp : PlainRow f) (ha : f.a = 0) (hb : f.b = 0)
    (hd : f.d = 0) (hm : f.mask = 0) (hk : f.c.toNat < (s.core id).rowLimit) :
    Retires (.smxf id f) id s nothing (RowsWritten id s f.c.toNat (fun _ => true) (fun r =>
      rowToBytes (softFinish ((s.core id).row f.c.toNat r)))) := by
  refine rows_retire (show execSmxf id f s = _ from rfl) hr hs ?_ (blockFault_none (by simpa using hk)) ?_
    (newRows_setRows (c := retired (s.core id)) hs.1 _)
  · simp [is16, block_lt_of_rowWord hw, ha, hb, hd, hm, rsPlain_of_rowWord hw hp]
  · exact congrArg (·, 0) (setRows_eq (retired (s.core id)) f.c.toNat (fun r => softFinish ((s.core id).row f.c.toNat r)) (List.range 128))

end Sys2Proof.Claims

open Sys2Proof Sys2Proof.Machine Sys2Proof.Claims

/-- Settles O11: SMX by the row and the lanes of one step, SMXF row by row of the block. -/
theorem softMaximumResults : Obligations.SoftMaximumResults :=
  ⟨fun _ _ _ hr hs hw hb hcls hlane hk hfn hstats hfin => smx_retires hr hs hw hb hcls hlane hk hfn hstats hfin,
    fun _ _ _ hr hs hw ha hb hd hm hrm hsat hlane hfmt hk => smxf_retires hr hs hw ⟨hrm, hsat, hlane, hfmt⟩ ha hb hd hm hk⟩
end

section
/-! SUPPORT. The shared operations of a berth's function block (07 R198, R199): what each leaves in FN_STAT, the loaded bits and the
slots, and what it leaves alone. -/

namespace Sys2Proof.Claims
open Sys2Proof.Machine

variable {s t : State} {may : Part → Prop} {b code slot page off : Nat} {img : List Byte} {x : BerthRun}

theorem berth_eq_of_berths (h : t.berths = s.berths) (n : Nat) : t.berth n = s.berth n := by rw [State.berth, State.berth, h]

@[simp] theorem put_berth (s : State) (f : Fld) (v n : Nat) : (s.put f v).berth n = s.berth n :=
  berth_eq_of_berths (State.put_berths ..) n

@[simp] theorem signal_berth (s : State) (n : Nat) : (signal s).berth n = s.berth n := berth_eq_of_berths (signal_berths s) n

@[simp] theorem berth_setBerth_same (s : State) (n : Nat) (x : BerthRun) : (s.setBerth n x).berth n = x :=
  storeGet_storePut_same ..

/-- A field of a word that reads as before. -/
theorem get_eq_of_word {lo w : Nat} (h : t.rd page off = s.rd page off) : t.get ⟨page, off, lo, w⟩ = s.get ⟨page, off, lo, w⟩ :=
  get_eq_of_rd h

theorem bit_eq_of_word {lo w : Nat} (h : t.rd page off = s.rd page off) : t.bit ⟨page, off, lo, w⟩ = s.bit ⟨page, off, lo, w⟩ :=
  bit_eq_of_get (get_eq_of_word h)

/-! Results. -/

theorem fnResult_eq (s : State) (b code : Nat) : ∃ e, fnResult s b code = logAdd (s.put (fFnCode b) code) e := ⟨_, rfl⟩

theorem fnResult_rd (h : off ≠ 0x610) : (fnResult s b code).rd (pgBerth b) off = s.rd (pgBerth b) off := by
  obtain ⟨e, he⟩ := fnResult_eq s b code
  rw [he, logAdd_rd, rd_put_off _ _ h]

theorem fnResult_code : (fnResult s b code).get (fFnCode b) = code % 2 ^ 16 := by
  obtain ⟨e, he⟩ := fnResult_eq s b code
  rw [he, logAdd_get, get_put_same _ _ (by decide)]

theorem fnResult_busy : (fnResult s b code).bit (fFnBusy b) = s.bit (fFnBusy b) := by
  obtain ⟨e, he⟩ := fnResult_eq s b code
  rw [he, bit_eq_of_get (logAdd_get ..), bit_put_word _ _ (by decide)]

@[simp] theorem fnResult_berth (n : Nat) : (fnResult s b code).berth n = s.berth n := by
  obtain ⟨e, he⟩ := fnResult_eq s b code
  rw [he, berth_eq_of_berths (logAdd_berths ..), put_berth]

theorem changes_fnResult (h : may (.reg (regKey (pgBerth b) 0x610))) (hl : may .log) :
    Changes s (fnResult t b code) may ↔ Changes s t may := by
  obtain ⟨e, he⟩ := fnResult_eq t b code
  rw [he, changes_logAdd hl]
  exact changes_put h

/-! A slot. -/

/-- A slot with other contents, and FN_SPACE that shows it. -/
abbrev slotShown (s : State) (b slot : Nat) (img : List Byte) : State := showSpace (setSlot s b slot img) b

theorem showSpace_rd (h : off ≠ 0x620) : (showSpace s b).rd (pgBerth b) off = s.rd (pgBerth b) off := rd_put_other _ _ (regKey_ne h)

theorem slotShown_rd (h : off ≠ 0x618 ∧ off ≠ 0x61C ∧ off ≠ 0x620) : (slotShown s b slot img).rd (pgBerth b) off = s.rd (pgBerth b) off := by
  obtain ⟨hlo, hhi, hspace⟩ := h
  exact (showSpace_rd hspace).trans (rd_wr64_other _ _ hlo hhi)

@[simp] theorem showSpace_berth (n : Nat) : (showSpace s b).berth n = s.berth n := put_berth ..

theorem setSlot_berth : (setSlot s b slot img).berth b = { s.berth b with slots := storePut (s.berth b).slots slot img [] } := by
  rw [setSlot, berth_eq_of_berths (State.wr64_berths ..), berth_setBerth_same]

theorem slotShown_berth : (slotShown s b slot img).berth b = { s.berth b with slots := storePut (s.berth b).slots slot img [] } :=
  (showSpace_berth b).trans setSlot_berth

/-- A bit set, or cleared. -/
theorem getLsbD_setOrClear {w n : Nat} (v : BitVec w) (h : n < w) (c : Bool) :
    (if c then clearBitsOf v [n] else setBitsOf v [n]).getLsbD n = !c := by
  cases c
  · simp [setBitsOf, BitVec.getLsbD_ofNat, Nat.testBit_two_pow_self, h, -BitVec.ofNat_pow]
  · exact getLsbD_clearBitsOf_one v n

theorem slotShown_loaded (h : slot < 64) : ((slotShown s b slot img).rd64 (pgBerth b) 0x618).getLsbD slot = !img.isEmpty := by
  have hrd : (slotShown s b slot img).rd64 (pgBerth b) 0x618 = (setSlot s b slot img).rd64 (pgBerth b) 0x618 := by
    rw [State.rd64, State.rd64, showSpace_rd (by decide), showSpace_rd (by decide)]
  rw [hrd, setSlot, rd64_wr64_same, getLsbD_setOrClear _ h]

theorem changes_showSpace (h : may (.reg (regKey (pgBerth b) 0x620))) : Changes s (showSpace t b) may ↔ Changes s t may := changes_put h

theorem changes_slotShown (h : ∀ p, fnParts b p → may p) : Changes s (slotShown t b slot img) may ↔ Changes s t may := by
  rw [changes_showSpace (h _ (by simp)), setSlot, changes_wr64 (h _ (by simp)) (h _ (by simp)), changes_setBerth (h _ (by simp))]

/-- The space used is that of the slots and of the standard functions loaded. -/
theorem fnSpaceUsed_congr (hs : (t.berth b).slots = (s.berth b).slots) (hr : t.rd (pgBerth b) 0x614 = s.rd (pgBerth b) 0x614) :
    fnSpaceUsed t b = fnSpaceUsed s b := by
  have hbit (j : Nat) : t.bit ⟨pgBerth b, 0x614, j, 1⟩ = s.bit ⟨pgBerth b, 0x614, j, 1⟩ := bit_eq_of_get (get_eq_of_rd hr)
  simp only [fnSpaceUsed, hs, hbit]

/-- A slot whose contents have changed, and a command that has ended well. -/
abbrev SlotHolds (t : State) (b slot : Nat) (img : List Byte) (loaded : Bool) : Prop :=
  storeGet (t.berth b).slots slot [] = img ∧ t.get (fFnCode b) = 0 ∧ t.bit (fFnBusy b) = false ∧
    (t.rd64 (pgBerth b) 0x618).getLsbD slot = loaded ∧ (t.berth b).fnJob = none

theorem slotHolds_result (hslot : slot < 64) (hbusy : s.bit (fFnBusy b) = false) (hjob : (s.berth b).fnJob = none) :
    SlotHolds (signal (fnResult (slotShown s b slot img) b 0)) b slot img (!img.isEmpty) := by
  refine ⟨?_, (signal_get ..).trans fnResult_code, ?_, ?_, ?_⟩
  · rw [signal_berth, fnResult_berth, slotShown_berth]
    exact storeGet_storePut_same ..
  · rw [signal_bit, fnResult_busy, bit_eq_of_word (slotShown_rd (by decide)), hbusy]
  · rw [signal_rd64, ← slotShown_loaded (s := s) (b := b) hslot, State.rd64, State.rd64, fnResult_rd (by decide), fnResult_rd (by decide)]
  · rw [signal_berth, fnResult_berth, slotShown_berth]
    exact hjob

end Sys2Proof.Claims
end

section
/-! SUPPORT. The commands of the function block (07 R196 to R199) and a host's write of a bollard (08 R231). -/

namespace Sys2Proof.Claims
open Sys2Proof.Machine

variable {s t : State} {may : Part → Prop} {post : State → Prop} {i : Instr} {a : Access} {b : Fin 16} {v : W32} {fn page off : Nat}
  {img : List Byte}

/-! They begin, or are refused. -/

/-- LOAD, UNLOAD or LOAD_STD, as the host writes it to FN_CMD. -/
abbrev FnCommand (i : Instr) (b : Fin 16) (a : Access) : Prop := i = .fnLoad b a ∨ i = .fnUnload b a ∨ i = .fnLoadStd b a

theorem exec_fnCommand (h : FnCommand i b a) : exec i s = hostWrite (pgBerth b.val) 0x60C a (writeFnCmd b.val) s := by
  rcases h with rfl | rfl | rfl <;> rfl

theorem writeFnCmd_begins (h0 : v.toNat % 4 ≠ 0) (hb : s.bit (fFnBusy b.val) = false) (hc : berthCoresBusy s b.val = false) :
    writeFnCmd b.val s v = (s.put (fFnBusy b.val) 1).setBerth b.val { s.berth b.val with fnJob := some v } := by
  rw [writeFnCmd, if_neg h0, if_neg (by simp [hb, hc])]

theorem writeFnCmd_refused (h0 : v.toNat % 4 ≠ 0) (hb : s.bit (fFnBusy b.val) = true ∨ berthCoresBusy s b.val = true) :
    writeFnCmd b.val s v = fnResult s b.val 0xC003 := by
  rw [writeFnCmd, if_neg h0, if_pos (by simpa using hb)]

theorem completes_fnBegins (hi : FnCommand i b a) (h : HostTakes s (pgBerth b.val) 0x60C a) (h0 : a.data.toNat % 4 ≠ 0)
    (hb : s.bit (fFnBusy b.val) = false) (hc : berthCoresBusy s b.val = false) :
    Completes i s (also (words (pgBerth b.val) [0x610]) (parts [.berth b.val])) (fun t =>
      t.bit (fFnBusy b.val) = true ∧ t.berth b.val = { s.berth b.val with fnJob := some a.data }) := by
  refine completes_taken (exec_fnCommand hi) h (writeFnCmd_begins h0 hb hc) (by simp) ?_ ⟨?_, ?_⟩
  · rw [changes_setBerth (by simp), changes_put (by simp)]
    exact Changes.refl _ _
  · exact (signal_bit ..).trans (bit_putBit_same s true (by decide))
  · rw [signal_berth, berth_setBerth_same]

theorem completes_fnBusy (hi : FnCommand i b a) (h : HostTakes s (pgBerth b.val) 0x60C a) (h0 : a.data.toNat % 4 ≠ 0)
    (hb : s.bit (fFnBusy b.val) = true ∨ berthCoresBusy s b.val = true) :
    Completes i s (also (words (pgBerth b.val) [0x610]) (parts [.log])) (fun t =>
      t.get (fFnCode b.val) = 0xC003 ∧ t.berth b.val = s.berth b.val) := by
  refine completes_taken (exec_fnCommand hi) h (writeFnCmd_refused h0 hb) (by simp) ?_ ⟨?_, ?_⟩
  · rw [changes_fnResult (by simp) (by simp)]
    exact Changes.refl _ _
  · exact (signal_get ..).trans fnResult_code
  · rw [signal_berth, fnResult_berth]

/-! They end. -/

/-- The state in which a command that ends is carried out: the block is no longer busy with it. -/
def fnEnded (s : State) (b : Nat) : State := (s.put (fFnBusy b) 0).setBerth b { s.berth b with fnJob := none }

theorem fnEnded_rd (h : off < 4096 ∧ off ≠ 0x610) (n b : Nat) : (fnEnded s b).rd (pgBerth n) off = s.rd (pgBerth n) off := by
  have hk : regKey (pgBerth n) off ≠ regKey (pgBerth b) 0x610 := by
    unfold regKey
    omega
  exact rd_put_other s _ hk

theorem fnEnded_busy (b : Nat) : (fnEnded s b).bit (fFnBusy b) = false := bit_putBit_same s false (by decide)

theorem fnEnded_berth (b : Nat) : (fnEnded s b).berth b = { s.berth b with fnJob := none } := berth_setBerth_same ..

theorem changes_fnEnded (h : ∀ p, fnParts b p → may p) : Changes s (fnEnded t b) may ↔ Changes s t may := by
  rw [fnEnded, changes_setBerth (h _ (by simp)), changes_put (h _ (by simp))]

theorem exec_fnDone (h : FnDue s b.val v) : exec (.fnDone b) s = finish (fnRun (fnEnded s b.val) b.val v) := by
  obtain ⟨hjob, hrun, hblock⟩ := h
  show execFnDone b s = _
  simp only [execFnDone, hjob, hrun, hblock, Bool.not_true, Bool.or_self, Bool.false_eq_true, if_false]
  rfl

/-- A command that is due completes by what it does once the block is no longer busy. -/
theorem completes_fnDone {u : State} (h : FnDue s b.val v) (hu : fnRun (fnEnded s b.val) b.val v = u) (hm : may .signals)
    (hc : Changes s u may) (hp : post (signal u)) : Completes (.fnDone b) s may post :=
  completes_finish ((exec_fnDone h).trans (congrArg finish hu)) hm hc hp

/-- What is carried out: the operation in FN_CMD [1:0], on the function in [14:8]. -/
theorem fnRun_load {b : Nat} (h1 : v.toNat % 4 = 1) (h2 : fn = v.toNat / 256 % 128) : fnRun s b v = fnLoadRun s b fn := by
  rw [h2]
  simp only [fnRun, h1]
  rfl

theorem fnRun_unload {b : Nat} (h1 : v.toNat % 4 = 2) (h2 : fn = v.toNat / 256 % 128) : fnRun s b v = fnUnloadRun s b fn := by
  rw [h2]
  simp only [fnRun, h1]
  rfl

theorem fnRun_std {b : Nat} (h1 : v.toNat % 4 = 3) : fnRun s b v = fnStdRun s b := by simp only [fnRun, h1]

/-- A slot function's slot. -/
theorem slot_lt (h : slotFn fn = true) : fn - 0x40 < 64 := by
  simp only [slotFn, Bool.and_eq_true, decide_eq_true_eq] at h
  omega

theorem completes_unloaded (h : FnDue s b.val v) (h1 : v.toNat % 4 = 2) (h2 : fn = v.toNat / 256 % 128) (h3 : slotFn fn = true) :
    Completes (.fnDone b) s (fnParts b.val) (fun t => SlotHolds t b.val (fn - 0x40) [] false) := by
  have hrun : fnRun (fnEnded s b.val) b.val v = fnResult (slotShown (fnEnded s b.val) b.val (fn - 0x40) []) b.val 0 := by
    rw [fnRun_unload h1 h2, fnUnloadRun, if_pos h3]
  refine completes_fnDone h hrun (by simp) ?_ (slotHolds_result (slot_lt h3) (fnEnded_busy _) (by rw [fnEnded_berth]))
  rw [changes_fnResult (by simp) (by simp), changes_slotShown (fun _ h => h), changes_fnEnded (fun _ h => h)]
  exact Changes.refl _ _

/-! LOAD: what its checks see is what they saw before the block was free (R199). -/

/-- Whether memory belongs to a berth is said by the berths' cluster and region words and by the objects. -/
theorem inRegions_congr {owner n : Nat} {w : Bool} (ho : owner < 16)
    (hrd : ∀ b off, off < 0x200 → t.rd (pgBerth b) off = s.rd (pgBerth b) off) (hobj : t.objects = s.objects) :
    inRegions t owner n w = inRegions s owner n w := by
  have hcluster (cl : Nat) : clusterOwner t cl = clusterOwner s cl := by
    simp only [clusterOwner, State.rd64, hrd _ 0x040 (by decide), hrd _ 0x044 (by decide)]
  have hdirect : inDirectRegion t owner n = inDirectRegion s owner n := by
    refine Bool.eq_iff_iff.2 ?_
    simp only [inDirectRegion, List.any_eq_true, List.mem_range]
    refine exists_congr fun k => and_congr_right fun hk => ?_
    have hbits : t.rd (pgBerth owner) (0x10C + 16 * k) = s.rd (pgBerth owner) (0x10C + 16 * k) := hrd _ _ (by omega)
    have hlen : t.rd (pgBerth owner) (0x108 + 16 * k) = s.rd (pgBerth owner) (0x108 + 16 * k) := hrd _ _ (by omega)
    simp only [regionBound, regionBase, regionLen, regionTier, State.bit, State.get, State.rdN, State.rd64, hbits, hlen,
      hrd owner (0x100 + 16 * k) (by omega), hrd owner (0x100 + 16 * k + 4) (by omega)]
  simp only [inRegions, ho, if_true, hcluster, hdirect, inOwnHome, inSharedHome, hobj]

theorem imageInBerth_fnEnded (n k : Nat) : imageInBerth (fnEnded s b.val) b.val n k = imageInBerth s b.val n k := by
  have hregion (x : Nat) (w : Bool) : inRegions (fnEnded s b.val) b.val x w = inRegions s b.val x w :=
    inRegions_congr b.isLt (fun _ _ ho => fnEnded_rd (by omega) _ _) rfl
  simp only [imageInBerth, rangeInRegions, hregion]
  rfl

/-- A berth's page is no stack's. -/
theorem countHbm_rd {x n : Nat} (ho : off < 4096) : (countHbm s x n 0x058).rd (pgBerth b.val) off = s.rd (pgBerth b.val) off := by
  rcases countHbm_cases s x n 0x058 with h | ⟨k, -, h⟩ <;> rw [h]
  refine rd_wr64_apart s _ ⟨?_, ?_⟩ <;> unfold regKey pgBerth pgHs <;> omega

theorem countHbm_berth {x n m : Nat} : (countHbm s x n off).berth m = s.berth m :=
  (memOnly_countHbm s x n off).field_eq (fun u => u.berth m) (fun _ _ _ _ _ => rfl)

theorem changes_stackRead {x n : Nat} (h : ∀ p, stackReads p → may p) : Changes s (countHbm t x n 0x058) may ↔ Changes s t may := by
  rcases countHbm_cases t x n 0x058 with e | ⟨k, hk, e⟩ <;> rw [e]
  exact changes_add64 (h _ ⟨k, hk, .inl rfl⟩) (h _ ⟨k, hk, .inr rfl⟩)

/-- A good image is as long as its header at least. -/
theorem isEmpty_of_imageGood (h : imageGood img = true) : img.isEmpty = false := by
  cases img with
  | nil => exact absurd h (by decide)
  | cons => rfl

/-- The state in which the image of a LOAD has been read. -/
abbrev imageRead (s : State) (b : Nat) : State :=
  countHbm (fnEnded s b) (placeBits (s.rd64 (pgBerth b) 0x600).toNat) (s.rdN (pgBerth b) 0x608) 0x058

theorem fnLoadRun_good (h3 : slotFn fn = true)
    (h4 : imageInBerth s b.val (s.rd64 (pgBerth b.val) 0x600).toNat (s.rdN (pgBerth b.val) 0x608) = true)
    (h5 : poisoned s (placeBits (s.rd64 (pgBerth b.val) 0x600).toNat) (s.rdN (pgBerth b.val) 0x608) = false)
    (h6 : img = s.bytes (placeBits (s.rd64 (pgBerth b.val) 0x600).toNat) (s.rdN (pgBerth b.val) 0x608))
    (h7 : imageGood img = true) (h8 : fnSpaceUsed (setSlot s b.val (fn - 0x40) img) b.val ≤ 4096) :
    fnLoadRun (fnEnded s b.val) b.val fn = fnResult (slotShown (imageRead s b.val) b.val (fn - 0x40) img) b.val 0 := by
  have haddr : (fnEnded s b.val).rd64 (pgBerth b.val) 0x600 = s.rd64 (pgBerth b.val) 0x600 := by
    rw [State.rd64, State.rd64, fnEnded_rd (by decide), fnEnded_rd (by decide)]
  have hlen : (fnEnded s b.val).rdN (pgBerth b.val) 0x608 = s.rdN (pgBerth b.val) 0x608 := by
    rw [State.rdN, State.rdN, fnEnded_rd (by decide)]
  have hpoison (x n : Nat) : poisoned (fnEnded s b.val) x n = poisoned s x n := rfl
  have hbytes (x n : Nat) : (fnEnded s b.val).bytes x n = s.bytes x n := rfl
  have hspace : ¬ 4096 < fnSpaceUsed (slotShown (imageRead s b.val) b.val (fn - 0x40) img) b.val := by
    rw [fnSpaceUsed_congr (s := setSlot s b.val (fn - 0x40) img)]
    · exact Nat.not_lt.2 h8
    · rw [slotShown_berth, setSlot_berth, countHbm_berth, fnEnded_berth]
    · rw [slotShown_rd (by decide), countHbm_rd (by decide), fnEnded_rd (by decide)]
      exact (rd_wr64_other _ _ (by decide) (by decide)).symm
  simp only [fnLoadRun, haddr, hlen, h3, imageInBerth_fnEnded, h4, hpoison, h5, memRead, hbytes, ← h6, h7, if_neg hspace, Bool.not_true,
    Bool.or_self, Bool.false_eq_true, if_false]

theorem completes_loaded (h : FnDue s b.val v) (h1 : v.toNat % 4 = 1) (h2 : fn = v.toNat / 256 % 128) (h3 : slotFn fn = true)
    (h4 : imageInBerth s b.val (s.rd64 (pgBerth b.val) 0x600).toNat (s.rdN (pgBerth b.val) 0x608) = true)
    (h5 : poisoned s (placeBits (s.rd64 (pgBerth b.val) 0x600).toNat) (s.rdN (pgBerth b.val) 0x608) = false)
    (h6 : img = s.bytes (placeBits (s.rd64 (pgBerth b.val) 0x600).toNat) (s.rdN (pgBerth b.val) 0x608))
    (h7 : imageGood img = true) (h8 : fnSpaceUsed (setSlot s b.val (fn - 0x40) img) b.val ≤ 4096) :
    Completes (.fnDone b) s (also (fnParts b.val) stackReads) (fun t => SlotHolds t b.val (fn - 0x40) img true) := by
  refine completes_fnDone h ((fnRun_load h1 h2).trans (fnLoadRun_good h3 h4 h5 h6 h7 h8)) (by simp) ?_ ?_
  · rw [changes_fnResult (by simp) (by simp), changes_slotShown (fun _ h => .inl h), changes_stackRead (fun _ h => .inr h),
      changes_fnEnded (fun _ h => .inl h)]
    exact Changes.refl _ _
  · have hbusy : (imageRead s b.val).bit (fFnBusy b.val) = false :=
      (bit_eq_of_word (countHbm_rd (by decide))).trans (fnEnded_busy _)
    have hslot := slotHolds_result (img := img) (slot_lt h3) hbusy (by rw [countHbm_berth, fnEnded_berth])
    rwa [isEmpty_of_imageGood h7] at hslot

/-! LOAD_STD. -/

/-- All seven standard functions marked as loaded. -/
abbrev stdLoaded (s : State) (b : Nat) : State := s.put ⟨pgBerth b, 0x614, 0, 7⟩ 0x7F

theorem fnStdRun_eq : fnStdRun (fnEnded s b.val) b.val =
    if fnSpaceUsed (stdLoaded s b.val) b.val ≤ 4096 then fnResult (showSpace (stdLoaded (fnEnded s b.val) b.val) b.val) b.val 0
    else fnResult (fnEnded s b.val) b.val 0xC004 := by
  have hspace : fnSpaceUsed (showSpace (stdLoaded (fnEnded s b.val) b.val) b.val) b.val = fnSpaceUsed (stdLoaded s b.val) b.val := by
    refine fnSpaceUsed_congr (by rw [showSpace_berth, put_berth, put_berth, fnEnded_berth]) ?_
    rw [showSpace_rd (by decide), stdLoaded, stdLoaded, State.put, State.put, rd_wrN_same, rd_wrN_same, State.rdN, State.rdN,
      fnEnded_rd (off := 0x614) (by decide)]
  simp only [fnStdRun, hspace, ← Nat.not_le, ite_not]

theorem completes_standard {fits : Bool} (h : FnDue s b.val v) (h1 : v.toNat % 4 = 3)
    (h2 : fits = decide (fnSpaceUsed (stdLoaded s b.val) b.val ≤ 4096)) :
    Completes (.fnDone b) s (fnParts b.val) (fun t =>
      t.get ⟨pgBerth b.val, 0x614, 0, 7⟩ = (if fits then 0x7F else s.get ⟨pgBerth b.val, 0x614, 0, 7⟩) ∧
        t.get (fFnCode b.val) = (if fits then 0 else 0xC004) ∧ t.bit (fFnBusy b.val) = false ∧
        (t.berth b.val).slots = (s.berth b.val).slots) := by
  have hrun : fnRun (fnEnded s b.val) b.val v = _ := (fnRun_std h1).trans fnStdRun_eq
  cases fits with
  | true =>
    rw [if_pos (of_decide_eq_true h2.symm)] at hrun
    refine completes_fnDone h hrun (by simp) ?_ ⟨?_, (signal_get ..).trans fnResult_code, ?_, ?_⟩
    · rw [changes_fnResult (by simp) (by simp), changes_showSpace (by simp), changes_put (by simp), changes_fnEnded (fun _ h => h)]
      exact Changes.refl _ _
    · rw [signal_get, get_eq_of_word (fnResult_rd (by decide)), get_eq_of_word (showSpace_rd (by decide)), get_put_same _ _ (by decide)]
      rfl
    · rw [signal_bit, fnResult_busy, bit_eq_of_word (showSpace_rd (by decide)),
        bit_eq_of_word (rd_put_off _ _ (by decide)), fnEnded_busy]
    · rw [signal_berth, fnResult_berth, showSpace_berth, put_berth, fnEnded_berth]
  | false =>
    rw [if_neg (of_decide_eq_false h2.symm)] at hrun
    refine completes_fnDone h hrun (by simp) ?_ ⟨?_, (signal_get ..).trans fnResult_code, ?_, ?_⟩
    · rw [changes_fnResult (by simp) (by simp), changes_fnEnded (fun _ h => h)]
      exact Changes.refl _ _
    · rw [signal_get, get_eq_of_word (fnResult_rd (by decide)), get_eq_of_word (fnEnded_rd (by decide) _ _)]
      rfl
    · rw [signal_bit, fnResult_busy, fnEnded_busy]
    · rw [signal_berth, fnResult_berth, fnEnded_berth]

/-! Bollards. -/

theorem completes_bollard {cl n : Fin 64} (h : HostTakes s (pgCl cl.val) (0x800 + 4 * n.val) a) :
    Completes (.bollard cl n a) s (words (pgCl cl.val) [0x800 + 4 * n.val]) (fun t => bollardValue t cl.val n.val = a.data) := by
  refine completes_taken (show execBollard cl n a s = _ from rfl) h rfl (.inl rfl) ?_ ((signal_rd ..).trans (rd_wr_same ..))
  exact (changes_wr (.inr ⟨_, List.mem_singleton_self _, rfl⟩)).2 (Changes.refl _ _)

end Sys2Proof.Claims

open Sys2Proof Sys2Proof.Machine Sys2Proof.Claims

/-- Settles O25: each row by the lemma of its command. -/
theorem functionBlockResults : Obligations.FunctionBlockResults := by
  intro s i may post hrow
  cases hrow with
  | begins _ b a op hi h h1 h2 h3 =>
    rcases hi with ⟨rfl, rfl⟩ | ⟨rfl, rfl⟩ | ⟨rfl, rfl⟩
    · exact completes_fnBegins (.inl rfl) h (by omega) h2 h3
    · exact completes_fnBegins (.inr (.inl rfl)) h (by omega) h2 h3
    · exact completes_fnBegins (.inr (.inr rfl)) h (by omega) h2 h3
  | busy _ b a hi h h1 h2 => exact completes_fnBusy hi h h1 h2
  | loaded b v fn img h h1 h2 h3 h4 h5 h6 h7 h8 => exact completes_loaded h h1 h2 h3 h4 h5 h6 h7 h8
  | unloaded b v fn h h1 h2 h3 => exact completes_unloaded h h1 h2 h3
  | standard b v fits h h1 h2 => exact completes_standard h h1 h2
  | bollard cl n a h => exact completes_bollard h
end

section
/-! SUPPORT. BADD (08 R227 to R229): what one addition makes of the bollard and of the core's claim, apart from sD. -/

namespace Sys2Proof.Claims
open Sys2Proof.Machine

variable {s t : State} {id : CoreId} {f : ImmF} {b off o : Nat} {v n : W32}

/-- The state once core `id` has added `n` to bollard b of its cluster and, for a nonzero `n`, its claim is recorded. -/
def bollardAdded (t : State) (id : CoreId) (b : Nat) (n : W32) : State :=
  let u := t.wr (pgCl (coreCluster id)) (0x800 + 4 * b) (bollard t (coreCluster id) b + n)
  if n = 0 then u else recordClaim u id b (bollard t (coreCluster id) b)

/-- A cluster's words are no core's. -/
theorem clusterKey_ne_coreKey (ho : off < 4096) (hq : o < 4096) : regKey (pgCl (coreCluster id)) off ≠ regKey (corePage id) o := by
  rw [ne_eq, regKey_inj ho hq]
  simp only [pgCl, coreCluster, corePage, pgCore]
  omega

theorem coreKey_wr_bollard (hb : b < 64) (ho : o < 4096) :
    (t.wr (pgCl (coreCluster id)) (0x800 + 4 * b) v).rd (corePage id) o = t.rd (corePage id) o :=
  rd_wr_other _ _ (clusterKey_ne_coreKey (by omega) ho).symm

/-! The record of a claim (R229). -/

theorem recordClaim_bollard (hb : b < 64) : bollard (recordClaim t id b v) (coreCluster id) b = bollard t (coreCluster id) b := by
  have hne {o : Nat} (ho : o < 4096) := clusterKey_ne_coreKey (id := id) (off := 0x800 + 4 * b) (by omega) ho
  exact (rd_wr64_apart _ _ ⟨hne (by decide), hne (by decide)⟩).trans (rd_wr_other _ _ (hne (by omega)))

theorem recordClaim_last (hb : b < 64) : (recordClaim t id b v).rd (corePage id) (0x800 + 4 * b) = v :=
  (rd_wr64_other _ _ (by omega) (by omega)).trans (rd_wr_same ..)

theorem recordClaim_valid (hb : b < 64) :
    (recordClaim t id b v).rd64 (corePage id) 0x900 = t.rd64 (corePage id) 0x900 ||| BitVec.ofNat 64 (2 ^ b) := by
  rw [recordClaim, rd64_wr64_same, rd64_wr_other _ _ (by omega) (by omega)]

/-! The addition (R227) and its claim. -/

theorem bollardAdded_bollard (hb : b < 64) :
    bollard (bollardAdded t id b n) (coreCluster id) b = bollard t (coreCluster id) b + n := by
  unfold bollardAdded
  split
  · exact rd_wr_same ..
  · exact (recordClaim_bollard hb).trans (rd_wr_same ..)

theorem bollardAdded_last (hb : b < 64) : (bollardAdded t id b n).rd (corePage id) (0x800 + 4 * b) =
    if n = 0 then t.rd (corePage id) (0x800 + 4 * b) else bollard t (coreCluster id) b := by
  unfold bollardAdded
  split
  · exact coreKey_wr_bollard hb (by omega)
  · exact recordClaim_last hb

theorem bollardAdded_valid (hb : b < 64) : (bollardAdded t id b n).rd64 (corePage id) 0x900 =
    if n = 0 then t.rd64 (corePage id) 0x900 else t.rd64 (corePage id) 0x900 ||| BitVec.ofNat 64 (2 ^ b) := by
  have hmask {v : W32} : (t.wr (pgCl (coreCluster id)) (0x800 + 4 * b) v).rd64 (corePage id) 0x900 = t.rd64 (corePage id) 0x900 := by
    rw [State.rd64, State.rd64, coreKey_wr_bollard hb (by decide), coreKey_wr_bollard hb (by decide)]
  unfold bollardAdded
  split
  · exact hmask
  · rw [recordClaim_valid hb, hmask]

theorem bollardAdded_core : (bollardAdded t id b n).core id = t.core id := by
  unfold bollardAdded
  split <;> rfl

theorem changes_bollardAdded (t : State) (id : CoreId) (b : Nat) (n : W32) : Changes t (bollardAdded t id b n) (bollardParts id b) := by
  have hadd : Changes t (t.wr (pgCl (coreCluster id)) (0x800 + 4 * b) (bollard t (coreCluster id) b + n)) (bollardParts id b) :=
    (changes_wr (by simp)).2 (Changes.refl _ _)
  unfold bollardAdded
  split
  · exact hadd
  · rwa [recordClaim, changes_wr64 (by simp) (by simp), changes_wr (by simp)]

/-- RETIRED is no word of a claim. -/
theorem bollardAdded_rd64_retired (hb : b < 64) :
    (bollardAdded t id b n).rd64 (corePage id) 0x080 = t.rd64 (corePage id) 0x080 := by
  have hout {o : Nat} (ho : o < 0x800) : ¬ bollardParts id b (.reg (regKey (corePage id) o)) := by
    have hcl := clusterKey_ne_coreKey (id := id) (off := 0x800 + 4 * b) (o := o) (by omega) (by omega)
    simp only [List.mem_cons, Part.reg.injEq, List.not_mem_nil, or_false, not_or]
    exact ⟨hcl.symm, regKey_ne (by omega), regKey_ne (by omega), regKey_ne (by omega)⟩
  exact retired_of_changes (changes_bollardAdded t id b n) (hout (by decide)) (hout (by decide))

/-! The instruction. -/

/-- BADD on shore with no move outstanding adds to the bollard once it has retired, and sD takes the value before. -/
theorem exec_badd (hr : Ready s id) (hh : (s.core id).hold = []) (hm : (s.core id).moves = [])
    (hl : (immOnly f true false true && f.imm.toNat < 64) = true) :
    exec (.badd id f) s = finish (updCore (bollardAdded (issued s id) id f.imm.toNat (((s.core id).s f.b.toNat).setWidth 32)) id
      (fun k => k.setS f.d.toNat ((bollard (issued s id) (coreCluster id) f.imm.toNat).setWidth 64))) := by
  show execBadd id f s = _
  rw [execBadd, issue_shore hr hh hl rfl (scoreboardHolds_empty _ true) (by simp [hm]) rfl]
  rfl

/-- Retiring changes no word of a bollard or of a claim. -/
theorem issued_bollard (hb : b < 64) : bollard (issued s id) (coreCluster id) b = bollard s (coreCluster id) b :=
  issued_rd (by omega) (by omega)

theorem issued_valid : (issued s id).rd64 (corePage id) 0x900 = s.rd64 (corePage id) 0x900 := by
  rw [State.rd64, State.rd64, issued_rd (by decide) (by decide), issued_rd (by decide) (by decide)]

end Sys2Proof.Claims

open Sys2Proof Sys2Proof.Machine Sys2Proof.Claims

/-- Settles O14: the addition to the bollard after BADD has retired, its claim by whether the amount is zero. -/
theorem bollardAddResults : Obligations.BollardAddResults := by
  intro id f s hr hh hm hd ha hsb hv hb
  have hl : (immOnly f true false true && f.imm.toNat < 64) = true := by
    rw [Bool.and_eq_true, immOnly_iff, decide_eq_true_eq]
    exact ⟨⟨hd, ha, hsb, hv⟩, hb⟩
  refine retires_effect (exec_badd hr hh hm hl) ?_ (bollardAdded_rd64_retired hb) ⟨?_, ?_, ?_⟩
  · rw [changes_updCore (by simp)]
    exact (changes_bollardAdded _ _ _ _).mono fun _ h => .inr h
  · rw [signal_core, updCore_core, bollardAdded_core, issued_core, issued_bollard hb]
  · rw [bollard, signal_rd]
    exact (bollardAdded_bollard hb).trans (congrArg (· + _) (issued_bollard hb))
  · rw [signal_rd, signal_rd64, updCore_rd, updCore_rd64, bollardAdded_last hb, bollardAdded_valid hb,
      issued_rd (by omega) (by omega), issued_valid, issued_bollard hb]
    split <;> exact ⟨rfl, rfl⟩
end

section
/-! SUPPORT. Validation (09 R244): the entries are judged in order, and the first that fails ends it. -/

namespace Sys2Proof.Machine

/-- The entry of least index with a cause, and that cause. -/
def firstFailing (cause : Nat → Option Nat) (n : Nat) : Option (Nat × Nat) :=
  (List.range n).findSome? (fun k => (cause k).map (fun c => (k, c)))

variable {cause : Nat → Option Nat} {n k c : Nat}

theorem firstFailing_succ : firstFailing cause (n + 1) = (firstFailing cause n).or ((cause n).map (fun c => (n, c))) := by
  simp [firstFailing, List.range_succ, List.findSome?_append]

theorem firstFailing_eq_none_iff : firstFailing cause n = none ↔ ∀ k, k < n → cause k = none := by simp [firstFailing]

theorem firstFailing_eq_some_iff :
    firstFailing cause n = some (k, c) ↔ k < n ∧ cause k = some c ∧ ∀ j, j < k → cause j = none := by
  induction n with
  | zero => simp [firstFailing]
  | succ n ih =>
    rw [firstFailing_succ]
    cases hf : firstFailing cause n with
    | none =>
      have hnone := firstFailing_eq_none_iff.1 hf
      rw [Option.none_or, Option.map_eq_some_iff]
      constructor
      · rintro ⟨d, hd, he⟩
        cases he
        exact ⟨Nat.lt_succ_self _, hd, hnone⟩
      · rintro ⟨hk, hc, -⟩
        have hn : ¬ k < n := fun hlt => by simp [hnone k hlt] at hc
        obtain rfl : k = n := by omega
        exact ⟨c, hc, rfl⟩
    | some x =>
      rw [Option.some_or, ← hf, ih]
      refine ⟨fun ⟨hk, h⟩ => ⟨by omega, h⟩, fun ⟨hk, hc, hbefore⟩ => ⟨?_, hc, hbefore⟩⟩
      have hn : k ≠ n := fun he => by simp [firstFailing_eq_none_iff.2 (he ▸ hbefore)] at hf
      omega

/-- A fold that keeps its first result searches for it. -/
theorem foldl_eq_findSome {α β : Type} {step : Option β → α → Option β} {g : α → Option β} (hs : ∀ x i, step (some x) i = some x)
    (hn : ∀ i, step none i = g i) (l : List α) : l.foldl step none = l.findSome? g := by
  induction l with
  | nil => rfl
  | cons i l ih =>
    rw [List.foldl_cons, hn, List.findSome?_cons]
    cases g i with
    | none => exact ih
    | some x => exact List.foldl_fixed' (hs x) l

theorem validate_eq_firstFailing (s : State) (f n : Nat) : validate s f n 0 = firstFailing (entryCause s f n 0) n := by
  refine (foldl_eq_findSome (fun _ _ => rfl) (fun _ => rfl) _).trans ?_
  simp [firstFailing]

end Sys2Proof.Machine

open Sys2Proof Sys2Proof.Machine

/-- Settles O27: validation searches the entries in order for the first that fails. -/
theorem validationNamesTheFirstFailure : Obligations.ValidationNamesTheFirstFailure := by
  intro s f n
  rw [validate_eq_firstFailing]
  exact ⟨firstFailing_eq_none_iff, fun _ _ => firstFailing_eq_some_iff⟩
end

section
/-! SUPPORT. Ferries (09 R242, R243): what their shared operations leave alone, and what follows of itself. -/

namespace Sys2Proof.Claims
open Sys2Proof.Machine

variable {s t u : State} {may : Part → Prop} {f g k off page : Nat} {h : FerryRun → FerryRun}

/-! The run of a ferry. -/

theorem ferry_eq_of_ferries (h : t.ferries = s.ferries) (n : Nat) : t.ferry n = s.ferry n := by rw [State.ferry, State.ferry, h]

@[simp] theorem signal_ferry (s : State) (n : Nat) : (signal s).ferry n = s.ferry n := ferry_eq_of_ferries (signal_ferries s) n

@[simp] theorem ferry_setFerry_same (s : State) (n : Nat) (x : FerryRun) : (s.setFerry n x).ferry n = x := storeGet_storePut_same ..

@[simp] theorem ferry_updFerry (s : State) (f : Nat) (h : FerryRun → FerryRun) : (updFerry s f h).ferry f = h (s.ferry f) :=
  ferry_setFerry_same ..

@[simp] theorem changes_updFerry (hm : may (.ferry f)) : Changes s (updFerry t f h) may ↔ Changes s t may := changes_setFerry hm

theorem RegsOnly.ferry_eq (hr : RegsOnly s t) (n : Nat) : t.ferry n = s.ferry n := hr.field_eq (fun u => u.ferry n) (fun _ _ _ _ => rfl)

theorem RegsOnly.updFerry (hr : RegsOnly s t) (hf : t.ferry f = s.ferry f) : RegsOnly (updFerry s f h) (updFerry t f h) := by
  obtain ⟨r, l, b, rfl⟩ := hr
  exact ⟨r, l, b, rfl⟩

theorem regsOnly_put (s : State) (f : Fld) (v : Nat) : RegsOnly s (s.put f v) := ⟨_, _, _, rfl⟩

/-! What follows of itself (R242, R243). -/

/-- A ferry in the middle of an iteration stays as it is. -/
theorem ferrySettle_underway (hu : Underway s f) : ferrySettle s f = s := by
  obtain ⟨hstate, hover, hended⟩ := hu
  simp [ferrySettle, hstate, hover, hended]

/-- An armed ferry waits for its first tide. -/
theorem ferrySettle_armed (hs : ferryState s f = 1) (hl : schedLen s f ≠ 0) (hr : reachedNow s (rawDepart s f 0) = false) :
    ferrySettle s f = s := by
  simp [ferrySettle, hs, hl, hr]

/-- The last iteration is over. -/
def ranOut (r : FerryRun) : FerryRun := { r with ended := true }

/-- A running ferry whose last iteration is over is DONE once everything is completed. -/
theorem ferrySettle_over (hs : ferryState s f = 2) (ho : iterOver s f = true) (hi : ¬ ferryIter s f < s.get (fFerryRepeat f))
    (hd : allDone (updFerry s f ranOut) f = true) :
    ferrySettle s f = raise ((updFerry s f ranOut).put (fFerryState f) 3) (pgFerry f) 0 0 := by
  have hended : (ranOut (s.ferry f)).ended = true := rfl
  have hrun : (updFerry s f fun r => { r with ended := true }) = updFerry s f ranOut := rfl
  simp [ferrySettle, hs, ho, hi, hrun, hended, hd]

/-- What follows changes registers and the logbook, and of the ferry's run that it is over. -/
theorem ferrySettle_cases (s : State) (f : Nat) : RegsOnly s (ferrySettle s f) ∨ RegsOnly (updFerry s f ranOut) (ferrySettle s f) := by
  unfold ferrySettle
  extract_lets u v w
  have hu : RegsOnly s u := by
    simp only [u]
    split
    · exact regsOnly_put ..
    · exact RegsOnly.refl s
  have hv : RegsOnly s v := by
    simp only [v]
    split
    · exact hu.trans ((regsOnly_put ..).trans (regsOnly_raise ..))
    · exact hu
  have hw : RegsOnly s w ∨ RegsOnly (updFerry s f ranOut) w := by
    simp only [w]
    split
    · split
      · exact .inl (hv.trans (regsOnly_put ..))
      · exact .inr (hv.updFerry (hv.ferry_eq f))
    · exact .inl hv
  have hdone {x : State} (hx : RegsOnly x w) : RegsOnly x (raise (w.put (fFerryState f) 3) (pgFerry f) 0 0) :=
    hx.trans ((regsOnly_put ..).trans (regsOnly_raise ..))
  split
  · exact .inl hv
  · split
    · exact hw.imp hdone hdone
    · exact hw

/-- Every field but registers, the logbook and the runs of ferries stays. -/
theorem ferrySettle_field {α : Type} (field : State → α) (hr : ∀ u r l b, field { u with regs := r, log := l, fullBlocks := b } = field u)
    (hf : ∀ u x, field { u with ferries := x } = field u) : field (ferrySettle s f) = field s := by
  rcases ferrySettle_cases s f with hc | hc
  · exact hc.field_eq field hr
  · exact (hc.field_eq field hr).trans (hf _ _)

/-- What a ferry has done stays done. -/
theorem ferrySettle_run {α : Type} (field : FerryRun → α) (hf : ∀ r, field (ranOut r) = field r) :
    field ((ferrySettle s f).ferry f) = field (s.ferry f) := by
  rcases ferrySettle_cases s f with hc | hc <;> rw [hc.ferry_eq f]
  rw [ferry_updFerry, hf]

theorem ferrySettle_out (s : State) (f : Nat) : (ferrySettle s f).out = s.out :=
  ferrySettle_field State.out (fun _ _ _ _ => rfl) (fun _ _ => rfl)

/-! Words of a page. -/

/-- A word that changes with words and an event of a page is one of these words or of the event's. -/
theorem word_of_wordsAndEvent {q : Nat} {offs : List Nat} (hp : wordsAndEvent page offs (.reg (regKey q off))) (ho : off < 4096)
    (hoffs : ∀ o ∈ offs, o < 4096) : q = page ∧ off ∈ [0x010, 0x01C, 0x020, 0x024] ++ offs := by
  rcases hp with (hs | ⟨o, hm, hkey⟩) | he
  · cases hs
  · obtain ⟨rfl, rfl⟩ := (regKey_inj ho (hoffs o hm)).1 (Part.reg.inj hkey)
    exact ⟨rfl, List.mem_append_right _ hm⟩
  · simp only [List.mem_cons, Part.reg.injEq, reduceCtorEq, List.not_mem_nil, or_false] at he
    simp only [List.mem_append, List.mem_cons, List.not_mem_nil, or_false]
    unfold regKey at he
    omega

/-! Words of a ferry's page. -/

/-- A ferry's status word and its run. -/
abbrev statusParts (f : Nat) : Part → Prop := also (words (pgFerry f) [0x00C]) (parts [.ferry f])

theorem oneFerry_le_ferryProgress (hf : f < 8) (p : Part) (hp : oneFerry f p) : ferryProgress p :=
  ⟨f, hf, hp.imp_left List.eq_of_mem_singleton⟩

/-- Every word but the status word reads as before. -/
theorem rd_of_status (hc : Changes s t (statusParts f)) (ho : off < 4096) (hk : page ≠ pgFerry f ∨ off ≠ 0x00C) :
    t.rd page off = s.rd page off := by
  refine hc.rd_eq ho fun hm => ?_
  simp only [also_iff, words_iff, List.mem_singleton, exists_eq_left, reduceCtorEq, Part.reg.injEq, false_or, or_false] at hm
  obtain ⟨rfl, rfl⟩ := (regKey_inj ho (by decide)).1 hm
  exact hk.elim (absurd rfl) (absurd rfl)

/-- So does the schedule (R238). -/
theorem rawEntry_of_status (hc : Changes s t (statusParts f)) (g k : Nat) : rawEntry t g k = rawEntry s g k := by
  have hword {off : Nat} (ho : off < 4096) (hne : off ≠ 0x00C) (page : Nat) : t.rd page off = s.rd page off := rd_of_status hc ho (.inr hne)
  have hbytes (a n : Nat) : t.bytes a n = s.bytes a n := List.map_congr_left fun i _ => hc (.byte (a + i)) (by simp)
  have hslip : slipBytes t g k = slipBytes s g k := by
    refine congrArg List.flatten (List.map_congr_left fun w hw => ?_)
    have hlt := List.mem_range.1 hw
    rw [State.rdN, State.rdN, hword (by unfold slipOff; omega) (by unfold slipOff; omega)]
  have hhbm : ferryHbm t g = ferryHbm s g := bit_eq_of_word (hword (by decide) (by decide) _)
  have hbase : schedBase t g = schedBase s g := by
    rw [schedBase, schedBase, State.rd64, State.rd64, hword (by decide) (by decide), hword (by decide) (by decide)]
  rw [rawEntry, rawEntry, entryBytes, entryBytes, hhbm, hbase, hbytes, hslip]

theorem rawDepart_of_status (hc : Changes s t (statusParts f)) (g k : Nat) : rawDepart t g k = rawDepart s g k := by
  simp only [rawDepart, rawEntry_of_status hc]

theorem schedLen_of_status (hc : Changes s t (statusParts f)) (g : Nat) : schedLen t g = schedLen s g :=
  get_eq_of_word (rd_of_status hc (by decide) (.inr (by decide)))

theorem entryAt_of_status (hc : Changes s t (statusParts f)) (g i k : Nat) : Machine.entryAt t g i k = Machine.entryAt s g i k := by
  have hword {off : Nat} (ho : off < 4096) (hne : off ≠ 0x00C) (page : Nat) : t.rd page off = s.rd page off := rd_of_status hc ho (.inr hne)
  have hperiod : t.rd64 (pgFerry g) 0x058 = s.rd64 (pgFerry g) 0x058 := by
    rw [State.rd64, State.rd64, hword (by decide) (by decide), hword (by decide) (by decide)]
  simp only [Machine.entryAt, rawEntry_of_status hc, rawDepart_of_status hc, hperiod, hword (off := 0x060) (by decide) (by decide),
    hword (off := 0x064) (by decide) (by decide)]

/-- Nor does it matter to the tide. -/
theorem reachedNow_of_status (hc : Changes s t (statusParts f)) (target : W64) : reachedNow t target = reachedNow s target := by
  have hstatus : t.rd pgTide 0x00C = s.rd pgTide 0x00C := rd_of_status hc (by decide) (.inl (by unfold pgFerry pgTide; omega))
  have hvalid : t.tideValid = s.tideValid := bit_eq_of_word hstatus
  have hstate : tideState t = tideState s := get_eq_of_word hstatus
  have hnow : t.tide = s.tide := hc .tide (by simp)
  rw [reachedNow, reachedNow, tideRuns, tideRuns, hvalid, hstate, State.now, State.now, hnow]

end Sys2Proof.Claims
end

section
/-! SUPPORT. A ferry is armed, appended to, validated (09 R244, R259). -/

namespace Sys2Proof.Claims
open Sys2Proof.Machine

variable {s t u : State} {may : Part → Prop} {f : Fin 8} {a : Access} {k c : Nat}

@[simp] theorem put_ferry (s : State) (x : Fld) (v n : Nat) : (s.put x v).ferry n = s.ferry n := (regsOnly_put s x v).ferry_eq n
@[simp] theorem raise_ferry (s : State) (page bit code n : Nat) : (raise s page bit code).ferry n = s.ferry n :=
  (regsOnly_raise ..).ferry_eq n

/-! Refused (R244). -/

/-- The refusal names the entry and the cause. -/
theorem refuseFerry_word {s : State} {f : Nat} (hk : k < 2 ^ 20) (hc : c < 16) : (refuseFerry s f k c).rdN (pgFerry f) 0x078 = k + c * 2 ^ 24 := by
  rw [State.rdN, refuseFerry, rd_raise, rd_setEvt_other _ (by decide) (.inr (by decide)), ← State.rdN, rdN_wrN_same _ _ _ (by omega)]
  omega

theorem refuseFerry_event {s : State} {f : Nat} : EventSet s (refuseFerry s f k c) (pgFerry f) 4 :=
  (eventSet_raise ..).trans (congrArg (· ||| _) (rd_wr_other _ _ (regKey_ne (by decide))))

theorem refuseFerry_get {s : State} {f off lo w : Nat} (ho : off < 4096) (h : off ∉ [0x010, 0x01C, 0x020, 0x024, 0x078]) :
    (refuseFerry s f k c).get ⟨pgFerry f, off, lo, w⟩ = s.get ⟨pgFerry f, off, lo, w⟩ := by
  simp only [List.mem_cons, List.not_mem_nil, or_false, not_or] at h
  obtain ⟨h1, h2, h3, h4, h5⟩ := h
  exact (raise_get _ ⟨ho, .inr (by simp [h1, h2, h3, h4])⟩).trans (get_wrN_off s h5)

theorem changes_refuseFerry {f : Nat} (hw : may (.reg (regKey (pgFerry f) 0x078))) (he : ∀ p, eventParts (pgFerry f) p → may p) :
    Changes s (refuseFerry t f k c) may ↔ Changes s t may := by
  rw [refuseFerry, changes_raise (fun _ hx => he _ (eventParts_of_mem hx)) (he _ (by simp)), changes_wrN hw]

/-! ARM. -/

/-- The counters are back at their reset values. -/
def countersReset (s : State) (f : Nat) : State :=
  [0x074, 0x07C, 0x080, 0x084, 0x088, 0x08C, 0x090].foldl (fun t o => t.wr (pgFerry f) o (regReset (pgFerry f) o)) s

/-- Validation of an ARM is in progress. -/
def armBegun (s : State) (f : Nat) : State :=
  ((countersReset s f).setFerry f
    { FerryRun.reset with validating := 1, verdict := validate (countersReset s f) f (schedLen (countersReset s f) f) 0 }).put (fFerryBusy f) 1

theorem armFerry_idle {s : State} {f : Nat} (h : ferryIdle s f = true) : armFerry s f = armBegun s f := by
  rw [armFerry, h]
  rfl

theorem armFerry_busy {s : State} {f : Nat} (h : ferryIdle s f = false) : armFerry s f = refuseFerry s f 0 15 := by
  rw [armFerry, h]
  rfl

theorem countersReset_rd_status (s : State) (f : Nat) : (countersReset s f).rd (pgFerry f) 0x00C = s.rd (pgFerry f) 0x00C := by
  simp [countersReset, rd_wr_other]

theorem countersReset_rd_iter (s : State) (f : Nat) : (countersReset s f).rd (pgFerry f) 0x074 = regReset (pgFerry f) 0x074 := by
  simp [countersReset, rd_wr_other]

theorem countersReset_iter (s : State) (f : Fin 8) : ferryIter (countersReset s f) f = 0 := by
  have hreset : ∀ f : Fin 8, bitsOf (regReset (pgFerry f.val) 0x074).toNat 0 16 = 0 := by decide
  rw [ferryIter, State.get, State.rdN, countersReset_rd_iter]
  exact hreset f

theorem writeFerryCmd_arm {s : State} {f : Nat} {v : W32} (h : v.toNat % 8 = 1) : writeFerryCmd f s v = armFerry s f := by
  simp only [writeFerryCmd, h]

theorem completes_arm (h : HostTakes s (pgFerry f.val) 0x06C a) (h1 : a.data.toNat % 8 = 1) (h2 : ferryIdle s f.val = true) :
    Completes (.arm f a) s
      (also (words (pgFerry f.val) [0x00C, 0x074, 0x07C, 0x080, 0x084, 0x088, 0x08C, 0x090]) (parts [.ferry f.val])) (fun t =>
      t.bit (fFerryBusy f.val) = true ∧ (t.ferry f.val).validating = 1 ∧ (t.ferry f.val).sailed = [] ∧ (t.ferry f.val).opened = [] ∧
        (t.ferry f.val).done = [] ∧ ferryIter t f.val = 0 ∧ ferryState t f.val = ferryState s f.val) := by
  have hrun : (signal (armBegun s f)).ferry f.val = _ := (signal_ferry ..).trans ((put_ferry ..).trans (ferry_setFerry_same ..))
  refine completes_taken (show execArm f a s = _ from rfl) h ((writeFerryCmd_arm h1).trans (armFerry_idle h2)) (by simp) ?_
    ⟨?_, ?_, ?_, ?_, ?_, ?_, ?_⟩
  · simp [armBegun, countersReset]
  · exact (signal_bit ..).trans (bit_putBit_same _ true (by decide))
  · rw [hrun]
  · rw [hrun]; rfl
  · rw [hrun]; rfl
  · rw [hrun]; rfl
  · rw [← countersReset_iter s f]
    exact (signal_get ..).trans (get_eq_of_word (rd_put_off _ _ (by decide)))
  · exact (signal_get ..).trans ((get_put_word _ _ (by decide)).trans (get_eq_of_word (countersReset_rd_status s f)))

theorem completes_armRefused (h : HostTakes s (pgFerry f.val) 0x06C a) (h1 : a.data.toNat % 8 = 1) (h2 : ferryIdle s f.val = false) :
    Completes (.arm f a) s (wordsAndEvent (pgFerry f.val) [0x078]) (fun t =>
      t.rdN (pgFerry f.val) 0x078 = 15 * 2 ^ 24 ∧ EventSet s t (pgFerry f.val) 4) := by
  refine completes_taken (show execArm f a s = _ from rfl) h ((writeFerryCmd_arm h1).trans (armFerry_busy h2)) (by simp) ?_
    ⟨(signal_rdN ..).trans ((refuseFerry_word (by decide) (by decide)).trans (Nat.zero_add _)), (signal_rd ..).trans refuseFerry_event⟩
  rw [changes_refuseFerry (by simp) (fun _ hp => .inr hp)]
  exact Changes.refl _ _

/-! APPEND (R259). -/

theorem completes_append (h : HostTakes s (pgFerry f.val) 0x06C a) (h1 : a.data.toNat % 8 = 4)
    (h2 : ferryState s f.val = 1 ∨ ferryState s f.val = 2) (h3 : s.bit (fFerryOpen f.val) = true) (h4 : ferryHbm s f.val = true)
    (h5 : s.bit (fFerryBusy f.val) = false) :
    Completes (.append f a) s (statusParts f.val) (fun t =>
      t.bit (fFerryBusy f.val) = true ∧ (t.ferry f.val).validating = 2 ∧ ferryState t f.val = ferryState s f.val ∧
        (t.ferry f.val).verdict = validate s f.val (s.get ⟨pgFerry f.val, 0x068, 0, 21⟩) (schedLen s f.val)) := by
  have hcmd : writeFerryCmd f.val s a.data = (updFerry s f.val fun r =>
      { r with validating := 2, verdict := validate s f.val (s.get ⟨pgFerry f.val, 0x068, 0, 21⟩) (schedLen s f.val) }).put (fFerryBusy f.val) 1 := by
    have hstate : (ferryState s f.val ≠ 1 && ferryState s f.val ≠ 2) = false := by rcases h2 with h2 | h2 <;> simp [h2]
    simp only [writeFerryCmd, h1, appendFerry, hstate, h3, h4, h5]
    rfl
  refine completes_taken (show execAppend f a s = _ from rfl) h hcmd (by simp) (by simp) ⟨?_, ?_, ?_, ?_⟩
  · exact (signal_bit ..).trans (bit_putBit_same _ true (by decide))
  · rw [signal_ferry, put_ferry, ferry_updFerry]
  · exact (signal_get ..).trans (get_put_word _ _ (by decide))
  · rw [signal_ferry, put_ferry, ferry_updFerry]

/-! Validation ends. -/

/-- The state in which a verdict takes effect. -/
def validationOver (s : State) (f : Nat) : State := (updFerry s f (fun r => { r with validating := 0, verdict := none })).put (fFerryBusy f) 0

theorem validationOver_changes (s : State) (f : Nat) : Changes s (validationOver s f) (statusParts f) := by simp [validationOver]

theorem validationOver_idle (s : State) (f : Nat) : (validationOver s f).bit (fFerryBusy f) = false := bit_putBit_same _ false (by decide)

theorem validationOver_state (s : State) (f : Nat) : ferryState (validationOver s f) f = ferryState s f := get_put_word _ _ (by decide)

/-- The ferry enters a state that the verdict gives it. -/
def judged (s : State) (f n : Nat) : State := (validationOver s f).put (fFerryState f) n

theorem judged_changes (s : State) (f n : Nat) : Changes s (judged s f n) (statusParts f) :=
  (changes_put (by simp)).2 (validationOver_changes s f)

theorem judged_state {s : State} {f n : Nat} (hn : n < 8) : ferryState (judged s f n) f = n :=
  (get_put_same _ _ (by decide)).trans (Nat.mod_eq_of_lt hn)

theorem judged_idle (s : State) (f n : Nat) : (judged s f n).bit (fFerryBusy f) = false :=
  (bit_put_word _ _ (by decide)).trans (validationOver_idle s f)

theorem exec_validationDone (h : (s.ferry f.val).validating ≠ 0) : exec (.validationDone f) s = finish (endValidation s f.val) := if_neg h

theorem completes_armed (h : (s.ferry f.val).validating = 1) (h1 : (s.ferry f.val).verdict = none) (h2 : schedLen s f.val ≠ 0)
    (h3 : reachedNow s (rawDepart s f.val 0) = false) :
    Completes (.validationDone f) s (statusParts f.val) (fun t => ferryState t f.val = 1 ∧ t.bit (fFerryBusy f.val) = false) := by
  have hc := judged_changes s f.val 1
  have hend : endValidation s f.val = judged s f.val 1 := by
    have hsettle : ferrySettle (judged s f.val 1) f.val = judged s f.val 1 :=
      ferrySettle_armed (judged_state (by decide)) (by rwa [schedLen_of_status hc])
        (by rwa [reachedNow_of_status hc, rawDepart_of_status hc])
    rw [← hsettle]
    simp only [endValidation, h, h1]
    rfl
  refine completes_finish ((exec_validationDone (by simp [h])).trans (congrArg finish hend)) (by simp) hc ⟨?_, ?_⟩
  · exact (signal_get ..).trans (judged_state (by decide))
  · exact (signal_bit ..).trans (judged_idle ..)

theorem completes_ferryRefused (h : (s.ferry f.val).validating = 1) (h1 : (s.ferry f.val).verdict = some (k, c)) (h2 : k < 2 ^ 20)
    (h3 : c < 16) :
    Completes (.validationDone f) s (also (wordsAndEvent (pgFerry f.val) [0x00C, 0x078]) (parts [.ferry f.val])) (fun t =>
      ferryState t f.val = 5 ∧ t.bit (fFerryBusy f.val) = false ∧ t.rdN (pgFerry f.val) 0x078 = k + c * 2 ^ 24 ∧
        EventSet s t (pgFerry f.val) 4) := by
  have hc := judged_changes s f.val 5
  have hend : endValidation s f.val = refuseFerry (judged s f.val 5) f.val k c := by
    simp only [endValidation, h, h1]
    rfl
  refine completes_finish ((exec_validationDone (by simp [h])).trans (congrArg finish hend)) (by simp) ?_ ⟨?_, ?_, ?_, ?_⟩
  · rw [changes_refuseFerry (by simp) (fun _ hp => .inl (.inr hp))]
    exact hc.mono fun _ hp => hp.imp_left fun hw => .inl (words_mono (by simp) hw)
  · exact (signal_get ..).trans ((refuseFerry_get (by decide) (by decide)).trans (judged_state (by decide)))
  · exact (signal_bit ..).trans ((bit_eq_of_get (refuseFerry_get (by decide) (by decide))).trans (judged_idle ..))
  · exact (signal_rdN ..).trans (refuseFerry_word h2 h3)
  · rw [EventSet, signal_rd, refuseFerry_event, rd_of_status hc (by decide) (.inr (by decide))]

theorem completes_appended (h : (s.ferry f.val).validating = 2) (h1 : (s.ferry f.val).verdict = none) :
    Completes (.validationDone f) s (also (words (pgFerry f.val) [0x00C, 0x048]) (parts [.ferry f.val])) (fun t =>
      schedLen t f.val = s.get ⟨pgFerry f.val, 0x068, 0, 21⟩ ∧ t.bit (fFerryBusy f.val) = false ∧
        ferryState t f.val = ferryState s f.val) := by
  have hc := validationOver_changes s f.val
  have htail : (validationOver s f.val).get ⟨pgFerry f.val, 0x068, 0, 21⟩ = s.get ⟨pgFerry f.val, 0x068, 0, 21⟩ :=
    get_eq_of_word (rd_of_status hc (by decide) (.inr (by decide)))
  have hend : endValidation s f.val = (validationOver s f.val).put ⟨pgFerry f.val, 0x048, 0, 21⟩ (s.get ⟨pgFerry f.val, 0x068, 0, 21⟩) := by
    rw [← htail]
    simp only [endValidation, h, h1]
    rfl
  have hstatus := rd_put_off (validationOver s f.val) (page := pgFerry f.val) (off := 0x048) (lo := 0) (w := 21) (o := 0x00C)
    (s.get ⟨pgFerry f.val, 0x068, 0, 21⟩) (by decide)
  refine completes_finish ((exec_validationDone (by simp [h])).trans (congrArg finish hend)) (by simp) ?_ ⟨?_, ?_, ?_⟩
  · exact (changes_put (by simp)).2 (hc.mono fun _ hp => hp.imp_left (words_mono (by simp)))
  · exact (signal_get ..).trans ((get_put_same _ _ (by decide)).trans (Nat.mod_eq_of_lt (get_lt ..)))
  · exact (signal_bit ..).trans ((bit_eq_of_word hstatus).trans (validationOver_idle ..))
  · exact (signal_get ..).trans ((get_eq_of_word hstatus).trans (validationOver_state ..))

end Sys2Proof.Claims
end

section
/-! SUPPORT. What holds a request back, and its end (09 R257; 10 R287). -/

namespace Sys2Proof.Claims
open Sys2Proof.Machine

variable {s t u : State} {may : Part → Prop} {gone : Nat × Option W64 → Bool}

theorem iterate_succ (n : Nat) (g : Nat → State → State) (s : State) : iterate (n + 1) g s = g n (iterate n g s) := by
  simp [iterate, List.range_succ]

/-- Operations that leave a state as it is leave it so one after the other. -/
theorem iterate_fixed {n : Nat} {g : Nat → State → State} (h : ∀ x, x < n → g x s = s) : iterate n g s = s := by
  induction n with
  | zero => rfl
  | succ n ih => rw [iterate_succ, ih fun x hx => h x (by omega), h n (Nat.lt_succ_self n)]

/-- What a berth waits for, without what is gone. -/
def waitsDropped (gone : Nat × Option W64 → Bool) (s : State) (b : Nat) : State :=
  s.setBerth b { s.berth b with waits := dropWaits gone (s.berth b).waits }

/-- The berths from 0 to n − 1 have dropped what is gone, the others wait as before. -/
theorem iterate_waitsDropped_berth (gone : Nat × Option W64 → Bool) (s : State) (n b : Nat) :
    (iterate n (fun b t => waitsDropped gone t b) s).berth b =
      if b < n then { s.berth b with waits := dropWaits gone (s.berth b).waits } else s.berth b := by
  induction n with
  | zero => rfl
  | succ n ih =>
    rw [iterate_succ]
    by_cases hb : b = n
    · subst hb
      rw [waitsDropped, berth_setBerth_same, ih, if_neg (Nat.lt_irrefl b), if_pos (Nat.lt_succ_self b)]
    · have hother : (waitsDropped gone (iterate n (fun b t => waitsDropped gone t b) s) n).berth b = _ := storeGet_storePut_other _ _ _ _ hb
      rw [hother]
      refine ih.trans (if_congr ?_ rfl rfl)
      omega

theorem iterate_waitsDropped_changes (gone : Nat × Option W64 → Bool) (s : State) :
    Changes s (iterate 16 (fun b t => waitsDropped gone t b) s) (fun p => ∃ b, b < 16 ∧ p = .berth b) :=
  (changes_iterate fun b hb _ => (changes_setBerth ⟨b, hb, rfl⟩).2 (Changes.refl _ _)).2 (Changes.refl _ _)

/-- With no APPLY deferred only the berths' waits are settled. -/
theorem settleWaits_eq (h : s.applyWaits = none) : settleWaits s gone = iterate 16 (fun b t => waitsDropped gone t b) s := by
  obtain ⟨-, -, hroutes⟩ : _ ∧ _ ∧ _ := iterate_waitsDropped_changes gone s .routes (by simp)
  unfold settleWaits
  extract_lets u
  have hu : u.applyWaits = none := hroutes.trans h
  rw [hu]
  rfl

theorem settleWaits_berth (h : s.applyWaits = none) {b : Nat} (hb : b < 16) :
    (settleWaits s gone).berth b = { s.berth b with waits := dropWaits gone (s.berth b).waits } := by
  rw [settleWaits_eq h, iterate_waitsDropped_berth, if_pos hb]

theorem settleWaits_changes (h : s.applyWaits = none) : Changes s (settleWaits s gone) (fun p => ∃ b, b < 16 ∧ p = .berth b) := by
  rw [settleWaits_eq h]
  exact iterate_waitsDropped_changes gone s

/-- With nothing deferred nothing takes place. -/
theorem settleAll_changes (h : NothingDeferred s) : Changes s (settleAll s) nothing := by
  obtain ⟨happly, hwaits, hdelete⟩ := h
  have hgroups : iterate 64 (fun g t => settleDelete t g) s = s := iterate_fixed fun g hg => by simp [settleDelete, hdelete g hg]
  intro p hp
  rw [settleAll, hgroups]
  by_cases hb : ∃ b, b < 16 ∧ p = .berth b
  · obtain ⟨b, hb, rfl⟩ := hb
    show (settleWaits s (waitOver s)).berth b = s.berth b
    have hsame : dropWaits (waitOver s) (s.berth b).waits = (s.berth b).waits := by rw [hwaits b hb]; rfl
    rw [settleWaits_berth happly hb, hsame]
  · exact settleWaits_changes happly p hb

end Sys2Proof.Claims
end

section
/-! SUPPORT. The entries of a running ferry (09 R240 to R243, R248, R257): zones open, marks pass, the schedule ends. -/

namespace Sys2Proof.Claims
open Sys2Proof.Machine

variable {s t u : State} {may : Part → Prop} {f : Fin 8} {k i : Nat}

/-- Entry k of a running ferry is of this kind, and its turn has come in iteration i: the oldest in which the list does not have it. -/
abbrev Due (s : State) (f k kind i : Nat) (l : List (Nat × Nat)) : Prop :=
  Underway s f ∧ k < schedLen s f ∧ (rawEntry s f k).kind = kind ∧ oldestLeft s f k l = some i

/-- What acting on an entry changes: the ferry's run, and what follows of it. -/
theorem acted_changes (s : State) (f : Fin 8) (h : FerryRun → FerryRun) :
    Changes s (ferrySettle (updFerry s f.val h) f.val) ferryProgress :=
  Changes.trans ((changes_updFerry ⟨f.val, f.isLt, .inl rfl⟩).2 (Changes.refl _ _))
    ((ferrySettle_changes _ _).mono (oneFerry_le_ferryProgress f.isLt))

/-! ZONE_OPEN (R248). -/

theorem tryOpen_due {s : State} {f : Nat} (hd : Due s f k skLand i (s.ferry f).opened) (h6 : reachedNow s (Machine.entryAt s f i k).depart = true)
    (h7 : (Machine.entryAt s f i k).gateEn = false ∨
      gateReached s (clusterOf (Machine.entryAt s f i k).addr) (Machine.entryAt s f i k).gate (Machine.entryAt s f i k).gateVal = true) :
    tryOpen s f k = ferrySettle (updFerry s f (fun r => { r with opened := r.opened ++ [(i, k)] })) f := by
  obtain ⟨hu, hk, hkind, hold⟩ := hd
  have hgate : (!(Machine.entryAt s f i k).gateEn ||
      gateReached s (clusterOf (Machine.entryAt s f i k).addr) (Machine.entryAt s f i k).gate (Machine.entryAt s f i k).gateVal) = true := by
    simpa only [Bool.or_eq_true, Bool.not_eq_true'] using h7
  simp [tryOpen, ferrySettle_underway hu, hu.1, Nat.not_le.2 hk, hkind, hold, h6, hgate]

theorem completes_zoneOpen {e : Sched} (h : running s = true) (h1 : Underway s f.val) (h2 : k < schedLen s f.val)
    (h3 : (rawEntry s f.val k).kind = 2) (h4 : oldestLeft s f.val k (s.ferry f.val).opened = some i) (h5 : e = Machine.entryAt s f.val i k)
    (h6 : reachedNow s e.depart = true) (h7 : e.gateEn = false ∨ gateReached s (clusterOf e.addr) e.gate e.gateVal = true) :
    Completes (.zoneOpen f k) s (also ferryProgress (parts [.signals])) (fun t => (i, k) ∈ (t.ferry f.val).opened) := by
  subst h5
  refine completes_due rfl h (tryOpen_due ⟨h1, h2, h3, h4⟩ h6 h7) (.inr (by simp)) ((acted_changes s f _).mono fun _ hp => .inl hp) ?_
  rw [signal_ferry, ferrySettle_run FerryRun.opened (fun _ => rfl), ferry_updFerry]
  simp

/-! MARK and END (R242, R243, R257). -/

/-- The ferry once an entry has been passed, with what follows. -/
abbrev passed (s : State) (f i k : Nat) : State := ferrySettle (updFerry s f (fun r => { r with done := r.done ++ [(i, k)] })) f

theorem passed_done {s : State} {f : Nat} : (i, k) ∈ ((passed s f i k).ferry f).done := by
  rw [ferrySettle_run FerryRun.done (fun _ => rfl), ferry_updFerry]
  simp

theorem tryPass_due {s : State} {f kind : Nat} (hd : Due s f k kind i (s.ferry f).done) (h5 : reachedNow s (Machine.entryAt s f i k).depart = true) :
    tryPass s f k kind = if kind = skMark then settleWaits (passed s f i k) (fun w => w.1 == f) else settleAll (passed s f i k) := by
  obtain ⟨hu, hk, hkind, hold⟩ := hd
  simp [tryPass, ferrySettle_underway hu, hu.1, Nat.not_le.2 hk, hkind, hold, h5]

theorem completes_mark (h : running s = true) (h1 : Underway s f.val) (h2 : k < schedLen s f.val) (h3 : (rawEntry s f.val k).kind = 0)
    (h4 : oldestLeft s f.val k (s.ferry f.val).done = some i) (h5 : reachedNow s (Machine.entryAt s f.val i k).depart = true)
    (h6 : s.applyWaits = none) :
    Completes (.mark f k) s (also ferryProgress (fun p => p = .signals ∨ ∃ b, b < 16 ∧ p = .berth b)) (fun t =>
      (i, k) ∈ (t.ferry f.val).done ∧ ∀ b, b < 16 → (t.berth b).waits = (s.berth b).waits.filter (fun w => !(w.1 == f.val))) := by
  have happly : (passed s f.val i k).applyWaits = none := by
    rw [← h6]
    exact ferrySettle_field State.applyWaits (fun _ _ _ _ => rfl) (fun _ _ => rfl)
  have hwaits := settleWaits_changes (gone := fun w => w.1 == f.val) happly
  refine completes_due rfl h ((tryPass_due ⟨h1, h2, h3, h4⟩ h5).trans (if_pos rfl)) (.inr (.inl rfl)) ?_ ⟨?_, fun b hb => ?_⟩
  · exact ((acted_changes s f _).mono fun _ hp => .inl hp).trans (hwaits.mono fun _ hp => .inr (.inr hp))
  · have hferry : (settleWaits (passed s f.val i k) (fun w => w.1 == f.val)).ferry f.val = _ := hwaits (.ferry f.val) (by simp)
    rw [signal_ferry, hferry]
    exact passed_done
  · have hberth : (passed s f.val i k).berth b = s.berth b :=
      ferrySettle_field (fun u => u.berth b) (fun _ _ _ _ => rfl) (fun _ _ => rfl)
    rw [signal_berth, settleWaits_berth happly hb, hberth]
    rfl

/-- The state in which the END has been passed and the last iteration is over. -/
def endReached (s : State) (f k : Nat) : State := updFerry (updFerry s f (fun r => { r with done := r.done ++ [(0, k)] })) f ranOut

theorem endReached_ferry (s : State) (f k : Nat) :
    (endReached s f k).ferry f = ranOut { s.ferry f with done := (s.ferry f).done ++ [(0, k)] } := by
  rw [endReached, ferry_updFerry, ferry_updFerry]

theorem endReached_changes (s : State) (f k : Nat) : Changes s (endReached s f k) (statusParts f) := by simp [endReached]

theorem endReached_rd (s : State) (f k page off : Nat) : (endReached s f k).rd page off = s.rd page off := rfl

/-- What was completed before the END is completed. -/
theorem entryDone_endReached {s : State} {f j k : Nat} (h : entryDone s f 0 j = true) : entryDone (endReached s f k) f 0 j = true := by
  unfold entryDone at h ⊢
  rw [entryAt_of_status (endReached_changes s f k), endReached_ferry]
  by_cases hk : (Machine.entryAt s f 0 j).kind = skSail
  · rwa [if_pos hk] at h ⊢
  · rw [if_neg hk, List.contains_iff_mem] at h ⊢
    exact List.mem_append_left _ h

/-- … and so is the END. -/
theorem entryDone_end {s : State} {f k : Nat} (h3 : (rawEntry s f k).kind = 3) : entryDone (endReached s f k) f 0 k = true := by
  have hkind : (Machine.entryAt (endReached s f k) f 0 k).kind = 3 := by rwa [entryAt_of_status (endReached_changes s f k)]
  simp [entryDone, hkind, endReached_ferry, ranOut]

/-- With its END passed and all other entries completed, the ferry is DONE (R243). -/
theorem passed_end {s : State} {f k : Nat} (hu : Underway s f) (h2 : schedLen s f = k + 1) (h3 : (rawEntry s f k).kind = 3)
    (h6 : s.get (fFerryRepeat f) = 0) (h7 : ferryIter s f = 0) (h8 : ∀ j, j < k → entryDone s f 0 j = true) :
    passed s f 0 k = raise ((endReached s f k).put (fFerryState f) 3) (pgFerry f) 0 0 := by
  have hfields (h : FerryRun → FerryRun) : schedLen (updFerry s f h) f = k + 1 ∧ ferryIter (updFerry s f h) f = 0 ∧
      (updFerry s f h).get (fFerryRepeat f) = 0 ∧ (rawEntry (updFerry s f h) f k).kind = 3 := ⟨h2, h7, h6, h3⟩
  refine ferrySettle_over hu.1 ?_ ?_ ?_
  · obtain ⟨hlen, hiter, -, hkind⟩ := hfields fun r => { r with done := r.done ++ [(0, k)] }
    simp [iterOver, hlen, hiter, entryTaken, hkind]
  · exact fun hlt => by rw [(hfields _).2.1, (hfields _).2.2.1] at hlt; exact absurd hlt (Nat.lt_irrefl 0)
  · have hlen : schedLen (endReached s f k) f = k + 1 := h2
    have hrepeat : (endReached s f k).get (fFerryRepeat f) = 0 := h6
    show allDone (endReached s f k) f = true
    rw [allDone, hrepeat, hlen]
    simp only [Nat.zero_add, List.range_one, List.all_cons, List.all_nil, Bool.and_true, List.all_eq_true, List.mem_range]
    intro j hj
    by_cases hjk : j = k
    · rw [hjk]
      exact entryDone_end h3
    · exact entryDone_endReached (h8 j (by omega))

theorem completes_endEntry (h : running s = true) (h1 : Underway s f.val) (h2 : schedLen s f.val = k + 1)
    (h3 : (rawEntry s f.val k).kind = 3) (h4 : oldestLeft s f.val k (s.ferry f.val).done = some 0)
    (h5 : reachedNow s (Machine.entryAt s f.val 0 k).depart = true) (h6 : s.get (fFerryRepeat f.val) = 0) (h7 : ferryIter s f.val = 0)
    (h8 : ∀ j, j < k → entryDone s f.val 0 j = true) (h9 : NothingDeferred s) :
    Completes (.endEntry f k) s (also (wordsAndEvent (pgFerry f.val) [0x00C]) (parts [.ferry f.val])) (fun t =>
      ferryState t f.val = 3 ∧ EventSet s t (pgFerry f.val) 0 ∧ (0, k) ∈ (t.ferry f.val).done) := by
  have hpass := passed_end h1 h2 h3 h6 h7 h8
  have hchanges : Changes s (passed s f.val 0 k) (also (wordsAndEvent (pgFerry f.val) [0x00C]) (parts [.ferry f.val])) := by
    rw [hpass, changes_raise (fun _ hx => .inl (.inr (eventParts_of_mem hx))) (by simp), changes_put (by simp)]
    exact (endReached_changes s f.val k).mono fun _ hp => hp.imp_left .inl
  have hsettled : Changes (passed s f.val 0 k) (settleAll (passed s f.val 0 k)) nothing := by
    obtain ⟨happly, hwaits, hdelete⟩ := h9
    obtain ⟨-, -, hroutes⟩ : _ ∧ _ ∧ _ := hchanges .routes (by simp)
    refine settleAll_changes ⟨hroutes.trans happly, fun b hb => ?_, fun g hg => ?_⟩
    · rw [(hchanges (.berth b) (by simp) : _ = _), hwaits b hb]
    · rw [(hchanges (.group g) (by simp) : _ = _), hdelete g hg]
  have hrd {off : Nat} (ho : off < 4096) : (settleAll (passed s f.val 0 k)).rd (pgFerry f.val) off = (passed s f.val 0 k).rd (pgFerry f.val) off :=
    hsettled.rd_eq ho (by simp)
  refine completes_due rfl h ((tryPass_due ⟨h1, by omega, h3, h4⟩ h5).trans (if_neg (by decide))) (by simp)
    (hchanges.trans (hsettled.mono fun _ hp => hp.elim)) ⟨?_, ?_, ?_⟩
  · rw [ferryState, signal_get]
    refine (get_eq_of_word (hrd (by decide))).trans ?_
    rw [hpass]
    exact (raise_get (f := fFerryState f.val) _ ⟨(by decide : 0x00C < 4096), .inr (by simp)⟩).trans (get_put_same _ _ (by decide))
  · rw [EventSet, signal_rd]
    refine (hrd (by decide)).trans ?_
    rw [hpass, eventSet_raise, rd_put_off _ _ (by decide), endReached_rd]
  · have hferry : (settleAll (passed s f.val 0 k)).ferry f.val = _ := hsettled (.ferry f.val) (by simp)
    rw [signal_ferry, hferry]
    exact passed_done

end Sys2Proof.Claims
end

section
/-! SUPPORT. A SAIL sails (09 R239, R240; 02 R54, R58): the counter of the stack it reads, the consignment it makes, and what goes out. -/

namespace Sys2Proof.Claims
open Sys2Proof.Machine

variable {s t u : State} {may : Part → Prop} {f : Fin 8} {k i p : Nat} {e : Sched}

/-! Bytes read. -/

theorem countHbm_changes (s : State) (a n : Nat) : Changes s (countHbm s a n 0x058) stackReads :=
  (changes_stackRead fun _ hp => hp).2 (Changes.refl _ _)

/-- The counter is a stack's. -/
theorem rd_countHbm {a n page off : Nat} (ho : off < 4096) (hp : page < 0x200 ∨ 0x220 ≤ page) :
    (countHbm s a n 0x058).rd page off = s.rd page off := by
  refine (countHbm_changes s a n).rd_eq ho ?_
  rintro ⟨k, hk, hkey⟩
  simp only [Part.reg.injEq, regKey_inj ho (show 0x058 < 4096 by decide), regKey_inj ho (show 0x05C < 4096 by decide), pgHs] at hkey
  omega

/-- So the header is the same before and after the read. -/
theorem ferryHeader_countHbm (s : State) (a n f : Nat) (e : Sched) : ferryHeader (countHbm s a n 0x058) f e = ferryHeader s f e := by
  have hgroup : ferryGroup (countHbm s a n 0x058) f = ferryGroup s f :=
    get_eq_of_word (rd_countHbm (by decide) (.inr (by unfold pgFerry; omega)))
  have hg : ferryGroup s f < 64 := get_lt ..
  have hpage : pgGtab (ferryGroup s f) < 0x200 ∨ 0x220 ≤ pgGtab (ferryGroup s f) := .inl (by unfold pgGtab; omega)
  have howner : ferryOwner (countHbm s a n 0x058) f = ferryOwner s f := by
    have hkeel : (countHbm s a n 0x058).bit (fGroupKeel (ferryGroup s f)) = s.bit (fGroupKeel (ferryGroup s f)) :=
      bit_eq_of_word (rd_countHbm (by unfold gOff; omega) hpage)
    have hberth : groupOwner (countHbm s a n 0x058) (ferryGroup s f) = groupOwner s (ferryGroup s f) := by
      rw [groupOwner, groupOwner, State.rdN, State.rdN, rd_countHbm (by unfold gOff; omega) hpage]
    simp only [ferryOwner, hgroup, hkeel, hberth]
  have hnode : nodeId (countHbm s a n 0x058) = nodeId s :=
    nodeId_congr ((memOnly_countHbm ..).field_eq State.boot (fun _ _ _ _ _ => rfl)) (get_eq_of_word (rd_countHbm (by decide) (.inl (by decide))))
  simp only [ferryHeader, hgroup, howner, hnode]

/-! A new consignment. -/

/-- What the port holds of a consignment that sails for the first time. -/
def newHeld (port : Nat) (hdr payload : List Byte) (addr len : Nat) (stamp : W64) : Held :=
  { key := keyOf (hdrOf hdr), hdr := hdr, port := port, attempt := 0, crc := consCrc hdr payload, stamp := stamp, addr := addr, len := len }

/-- With a good header, and a count of the link's key left to seal with, it sails (R54). -/
theorem sailNew_good {hdr payload : List Byte} {addr len : Nat} {stamp : W64} (hg : hdrGood hdr = true)
    (hc : storeGet s.sealCtr (linkKeyOf s (hdrOf hdr).berth) 0 + 1 < 2 ^ 64) :
    (sailNew s p hdr payload addr len stamp).2 =
      sendAttempt { s with held := s.held ++ [newHeld p hdr payload addr len stamp] } (newHeld p hdr payload addr len stamp) := by
  have hleft : decide (2 ^ 64 ≤ storeGet s.sealCtr (linkKeyOf s (hdrOf hdr).berth) 0 + 1) = false := decide_eq_false (Nat.not_le.2 hc)
  simp only [sailNew, hg, hleft, Bool.not_true, Bool.and_false, Bool.or_self, Bool.false_eq_true, if_false, newHeld]

/-! The SAIL. -/

/-- The consignment of an entry. -/
def entryHeld (s : State) (f p : Nat) (e : Sched) : Held :=
  newHeld p (hdrBytes (ferryHeader s f e)) (s.bytes (placeBits e.addr) (e.len * 4096)) (placeBits e.addr) (e.len * 4096) s.now

/-- The state in which its source has been read and the consignment is held. -/
def entryLoaded (s : State) (f p : Nat) (e : Sched) : State :=
  { countHbm s (placeBits e.addr) (e.len * 4096) 0x058 with held := s.held ++ [entryHeld s f p e] }

theorem sailEntry_eq {s : State} {f : Nat} (h5 : e = Machine.entryAt s f i k) (h11 : poisoned s (placeBits e.addr) (e.len * 4096) = false)
    (h12 : hdrGood (hdrBytes (ferryHeader s f e)) = true)
    (h13 : storeGet s.sealCtr (linkKeyOf s (hdrOf (hdrBytes (ferryHeader s f e))).berth) 0 + 1 < 2 ^ 64) :
    sailEntry s f i k p =
      ferrySettle (updFerry (sendAttempt (entryLoaded s f p e) (entryHeld s f p e)) f (fun r => { r with sailed := r.sailed ++ [(i, k)] })) f := by
  subst h5
  generalize he : Machine.entryAt s f i k = e at *
  have hread := memOnly_countHbm s (placeBits e.addr) (e.len * 4096) 0x058
  have hpoison : poisoned (countHbm s (placeBits e.addr) (e.len * 4096) 0x058) (placeBits e.addr) (e.len * 4096) = false := by
    rw [← h11, poisoned, poisoned, countHbm_poison]
  have hseal : (countHbm s (placeBits e.addr) (e.len * 4096) 0x058).sealCtr = s.sealCtr := hread.field_eq State.sealCtr (fun _ _ _ _ _ => rfl)
  have hkey (b : Nat) : linkKeyOf (countHbm s (placeBits e.addr) (e.len * 4096) 0x058) b = linkKeyOf s b :=
    hread.field_eq (fun u => linkKeyOf u b) (fun _ _ _ _ _ => rfl)
  have hnow : (countHbm s (placeBits e.addr) (e.len * 4096) 0x058).now = s.now := hread.field_eq State.now (fun _ _ _ _ _ => rfl)
  have hheld : (countHbm s (placeBits e.addr) (e.len * 4096) 0x058).held = s.held := hread.field_eq State.held (fun _ _ _ _ _ => rfl)
  simp only [sailEntry, he, memRead, hpoison, Bool.false_eq_true, if_false, hnow]
  show ferrySettle (updFerry (sailNew _ p (hdrBytes (ferryHeader (countHbm s _ _ 0x058) f e)) _ _ _ _).2 f _) f = _
  rw [ferryHeader_countHbm, sailNew_good h12 (by rwa [hseal, hkey]), hheld]
  rfl

theorem trySail_due {s : State} {f : Nat} (hd : Due s f k skSail i (s.ferry f).sailed) (h5 : e = Machine.entryAt s f i k)
    (h6 : reachedNow s e.depart = true) (h7 : sailTurn s f i k = true) (h8 : chainOf s f k = none)
    (h9 : placeStopped s (placeBits e.addr) = false) (h10 : sailPort s e = some p) : trySail s f k = sailEntry s f i k p := by
  subst h5
  obtain ⟨hu, hk, hkind, hold⟩ := hd
  simp [trySail, ferrySettle_underway hu, hu.1, Nat.not_le.2 hk, hkind, hold, h6, h7, h8, h9, h10]

theorem completes_sail (h : running s = true) (h1 : Underway s f.val) (h2 : k < schedLen s f.val)
    (h3 : (rawEntry s f.val k).kind = 1) (h4 : oldestLeft s f.val k (s.ferry f.val).sailed = some i) (h5 : e = Machine.entryAt s f.val i k)
    (h6 : reachedNow s e.depart = true) (h7 : sailTurn s f.val i k = true) (h8 : chainOf s f.val k = none)
    (h9 : placeStopped s (placeBits e.addr) = false) (h10 : sailPort s e = some p)
    (h11 : poisoned s (placeBits e.addr) (e.len * 4096) = false) (h12 : hdrGood (hdrBytes (ferryHeader s f.val e)) = true)
    (h13 : storeGet s.sealCtr (linkKeyOf s (hdrOf (hdrBytes (ferryHeader s f.val e))).berth) 0 + 1 < 2 ^ 64) :
    Completes (.sail f k) s (also (also (also ferryProgress stackReads) (also someLinks flitsSent)) (parts [.held, .seals, .signals])) (fun t =>
      (i, k) ∈ (t.ferry f.val).sailed ∧
      (∃ x ∈ t.held, x.hdr = hdrBytes (ferryHeader s f.val e) ∧ x.attempt = 0 ∧ x.port = p ∧ x.stamp = s.now ∧
        x.addr = placeBits e.addr ∧ x.len = e.len * 4096) ∧
      ∃ blk, Out.sail p (withAttempt (hdrBytes (ferryHeader s f.val e)) 0) blk
        (consCrc (hdrBytes (ferryHeader s f.val e)) (s.bytes (placeBits e.addr) (e.len * 4096))) ∈ t.out) := by
  have hsent := sendAttempt_changes (entryLoaded s f.val p e) (entryHeld s f.val p e)
  refine completes_due rfl h ((trySail_due ⟨h1, h2, h3, h4⟩ h5 h6 h7 h8 h9 h10).trans (sailEntry_eq h5 h11 h12 h13)) (.inr (by simp)) ?_
    ⟨?_, ⟨entryHeld s f.val p e, ?_, rfl, rfl, rfl, rfl, rfl, rfl⟩, ?_⟩
  · refine Changes.trans (t := entryLoaded s f.val p e) ?_ (Changes.trans (hsent.mono ?_) ((acted_changes _ f _).mono fun _ hp => .inl (.inl (.inl hp))))
    · exact (changes_held (.inr (by simp))).2 ((countHbm_changes s _ _).mono fun _ hp => .inl (.inl (.inr hp)))
    · rintro q (hq | hq)
      · exact .inl (.inr hq)
      · exact .inr (List.mem_cons_of_mem _ hq)
  · rw [signal_ferry, ferrySettle_run FerryRun.sailed (fun _ => rfl), ferry_updFerry]
    simp
  · rw [signal_held, ferrySettle_field State.held (fun _ _ _ _ => rfl) (fun _ _ => rfl)]
    have hheld : (sendAttempt (entryLoaded s f.val p e) (entryHeld s f.val p e)).held = _ := hsent .held (by simp)
    show _ ∈ (sendAttempt (entryLoaded s f.val p e) (entryHeld s f.val p e)).held
    rw [hheld]
    exact List.mem_append_right _ (List.mem_singleton_self _)
  · obtain ⟨blk, hblk⟩ := sendAttempt_sails (entryLoaded s f.val p e) (entryHeld s f.val p e)
    refine ⟨blk, mem_out_signal ?_⟩
    rw [ferrySettle_out]
    exact hblk

end Sys2Proof.Claims
end

section
/-! SUPPORT. Keel aborts (09 R253, R256; 10 R285) where no landing, no collective and no core is concerned: the group's ferries abort one
after the other, and its members have been told. -/

namespace Sys2Proof.Claims
open Sys2Proof.Machine

variable {s t u : State} {may : Part → Prop} {f g n k i off : Nat}

/-! One ferry. -/

/-- No landing is in progress, and no core is at sea or waits for a consignment. -/
abbrev NoneConcerned (s : State) : Prop := s.landing = [] ∧ CoresAlone s

theorem NoneConcerned.of_regsOnly (h : NoneConcerned s) (hr : RegsOnly s t) : NoneConcerned t := by
  obtain ⟨hl, hc⟩ := h
  exact ⟨hr.landing_eq.trans hl, by rwa [CoresAlone, hr.cores_eq]⟩

/-- An exhausted consignment reaches no core. -/
theorem coresExhaust_alone (h : CoresAlone s) (key : ConsKey) (port code : Nat) : coresExhaust s key port code = s := by
  refine coresExhaust_of_unwanted ⟨fun x hx => ?_, fun x hx => ?_⟩ port code <;> obtain ⟨hhold, hredo, hwait⟩ := h x hx
  · rw [hhold, List.any_nil]
  · rw [hredo, hwait]
    exact ⟨rfl, rfl⟩

/-- The ferry's sailings stop: ABORTED, and no validation in progress. -/
def ferryStopped (s : State) (f : Nat) : State := (s.put (fFerryState f) 4).put (fFerryBusy f) 0

theorem abortFerry_active (h : NoneConcerned s) (hs : ferryState s f = 1 ∨ ferryState s f = 2) :
    abortFerry s f = raise (ferryStopped s f) (pgFerry f) 3 0x6001 := by
  obtain ⟨hl, hc⟩ := h
  have hactive : (ferryState s f ≠ 1 && ferryState s f ≠ 2) = false := by rcases hs with hs | hs <;> simp [hs]
  simp only [abortFerry, hactive, hl, Bool.false_eq_true, if_false, List.filter_nil, List.foldl_nil]
  rw [List.foldl_fixed' fun _ => coresExhaust_alone hc _ _ _]
  rfl

theorem abortFerry_inactive (hs : ¬ (ferryState s f = 1 ∨ ferryState s f = 2)) : abortFerry s f = s := if_pos (by simpa using hs)

/-- What an abort changes of a ferry. -/
abbrev ferryAbortParts (f : Nat) : Part → Prop := wordsAndEvent (pgFerry f) [0x00C]

theorem abortFerry_regsOnly (h : NoneConcerned s) (f : Nat) : RegsOnly s (abortFerry s f) := by
  by_cases hs : ferryState s f = 1 ∨ ferryState s f = 2
  · rw [abortFerry_active h hs]
    exact (regsOnly_put ..).trans ((regsOnly_put ..).trans (regsOnly_raise ..))
  · rw [abortFerry_inactive hs]
    exact RegsOnly.refl s

theorem abortFerry_changes (h : NoneConcerned s) (f : Nat) : Changes s (abortFerry s f) (ferryAbortParts f) := by
  by_cases hs : ferryState s f = 1 ∨ ferryState s f = 2
  · rw [abortFerry_active h hs, changes_raise (fun _ hx => .inr (eventParts_of_mem hx)) (by simp)]
    simp [ferryStopped]
  · rw [abortFerry_inactive hs]
    exact Changes.refl _ _

/-- The ferry is ABORTED, and has said so. -/
abbrev FerryAborted (s t : State) (f : Nat) : Prop := ferryState t f = 4 ∧ EventSet s t (pgFerry f) 3

theorem abortFerry_aborted (h : NoneConcerned s) (hs : ferryState s f = 1 ∨ ferryState s f = 2) : FerryAborted s (abortFerry s f) f := by
  rw [abortFerry_active h hs]
  constructor
  · refine (raise_get (f := fFerryState f) _ ⟨(by decide : 0x00C < 4096), .inr (by simp)⟩).trans ?_
    exact (get_put_word _ _ (by decide)).trans (get_put_same _ _ (by decide))
  · rw [EventSet, eventSet_raise, ferryStopped, rd_put_off _ _ (by decide), rd_put_off _ _ (by decide)]

/-! The ferries of a group. -/

/-- A ferry of the group aborts. -/
def abortMember (g : Nat) (s : State) (f : Nat) : State := if ferryGroup s f = g then abortFerry s f else s

theorem abortMember_regsOnly (h : NoneConcerned s) (g f : Nat) : RegsOnly s (abortMember g s f) := by
  unfold abortMember
  split
  · exact abortFerry_regsOnly h f
  · exact RegsOnly.refl s

theorem abortMember_changes (h : NoneConcerned s) (g f : Nat) : Changes s (abortMember g s f) (ferryAbortParts f) := by
  unfold abortMember
  split
  · exact abortFerry_changes h f
  · exact Changes.refl _ _

theorem abortFerries_eq (s : State) (g : Nat) : abortFerries s g = (List.range 8).foldl (abortMember g) s := rfl

/-- Ferries that abort one after the other change registers, and each only its own words. -/
theorem abortMembers_regsOnly (h : NoneConcerned s) (g : Nat) (l : List Nat) : RegsOnly s (l.foldl (abortMember g) s) := by
  induction l generalizing s with
  | nil => exact RegsOnly.refl s
  | cons f l ih =>
    have hf := abortMember_regsOnly h g f
    exact hf.trans (ih (h.of_regsOnly hf))

theorem abortMembers_changes (h : NoneConcerned s) (g : Nat) (l : List Nat) :
    Changes s (l.foldl (abortMember g) s) (fun p => ∃ f ∈ l, ferryAbortParts f p) := by
  induction l generalizing s with
  | nil => exact Changes.refl _ _
  | cons f l ih =>
    have hrest := ih (h.of_regsOnly (abortMember_regsOnly h g f))
    refine Changes.trans ((abortMember_changes h g f).mono fun p hp => ⟨f, List.mem_cons_self, hp⟩) (hrest.mono ?_)
    rintro p ⟨j, hj, hp⟩
    exact ⟨j, List.mem_cons_of_mem _ hj, hp⟩

/-- Every other page reads as before. -/
theorem abortMembers_rd (h : NoneConcerned s) {l : List Nat} {page : Nat} (hp : ∀ f ∈ l, page ≠ pgFerry f) (ho : off < 4096) :
    (l.foldl (abortMember g) s).rd page off = s.rd page off := by
  refine (abortMembers_changes h g l).rd_eq ho ?_
  rintro ⟨f, hf, hm⟩
  exact hp f hf (word_of_wordsAndEvent hm ho (by simp)).1

theorem pgFerry_inj {f j : Nat} (h : pgFerry f = pgFerry j) : f = j := by
  unfold pgFerry at h
  omega

/-- Every running or armed ferry of the group has aborted. -/
theorem abortFerries_aborted (h : NoneConcerned s) (hf : f < 8) (hg : ferryGroup s f = g) (hs : ferryState s f = 1 ∨ ferryState s f = 2) :
    FerryAborted s (abortFerries s g) f := by
  obtain ⟨before, after, hsplit⟩ := List.append_of_mem (List.mem_range.2 hf)
  have hnodup : (before ++ f :: after).Nodup := hsplit ▸ List.nodup_range
  obtain ⟨hbefore, hafter⟩ : f ∉ before ∧ f ∉ after := by
    have hmid := List.nodup_middle.1 hnodup
    simpa [not_or] using (List.nodup_cons.1 hmid).1
  have hu := abortMembers_regsOnly h g before
  have hun := h.of_regsOnly hu
  have hword {off : Nat} (ho : off < 4096) : (before.foldl (abortMember g) s).rd (pgFerry f) off = s.rd (pgFerry f) off :=
    abortMembers_rd h (fun j hj he => hbefore (pgFerry_inj he ▸ hj)) ho
  have hmember : abortMember g (before.foldl (abortMember g) s) f = abortFerry (before.foldl (abortMember g) s) f :=
    if_pos ((get_eq_of_word (hword (by decide))).trans hg)
  have hactive : ferryState (before.foldl (abortMember g) s) f = ferryState s f := get_eq_of_word (hword (by decide))
  obtain ⟨hstate, hevent⟩ := abortFerry_aborted hun (by rwa [hactive])
  have hvn := hun.of_regsOnly (abortFerry_regsOnly hun f)
  have hrest {off : Nat} (ho : off < 4096) := abortMembers_rd (g := g) (page := pgFerry f) hvn (fun j hj he => hafter (pgFerry_inj he ▸ hj)) ho
  rw [abortFerries_eq, hsplit, List.foldl_append, List.foldl_cons, hmember]
  refine ⟨(get_eq_of_word (hrest (by decide))).trans hstate, ?_⟩
  rw [EventSet, hrest (by decide), hevent, hword (by decide)]

/-! The group. -/

/-- An event of a group notes the group, if it loads ERRCODE, and is raised. -/
theorem groupEvent_eq (s : State) (g bit code : Nat) :
    groupEvent s g bit code = raise s (pgGtab g) bit code ∨
      groupEvent s g bit code = raise (s.wrN (pgGtab g) 0x240 (g % 8)) (pgGtab g) bit code := by
  simp only [groupEvent]
  split
  · exact .inr rfl
  · exact .inl rfl

theorem groupEvent_changes (s : State) (g bit code : Nat) : Changes s (groupEvent s g bit code) (wordsAndEvent (pgGtab g) [0x240]) := by
  have hraise (u : State) : Changes u (raise u (pgGtab g) bit code) (wordsAndEvent (pgGtab g) [0x240]) :=
    (raise_changes u (pgGtab g) bit code).mono fun _ hp => .inr hp
  rcases groupEvent_eq s g bit code with he | he <;> rw [he]
  · exact hraise s
  · exact Changes.trans ((changes_wrN (by simp)).2 (Changes.refl _ _)) (hraise _)

theorem groupEvent_regsOnly (s : State) (g bit code : Nat) : RegsOnly s (groupEvent s g bit code) := by
  rcases groupEvent_eq s g bit code with he | he <;> rw [he]
  · exact regsOnly_raise ..
  · exact (RegsOnly.wrN ..).trans (regsOnly_raise ..)

theorem eventSet_groupEvent (s : State) (g bit code : Nat) : EventSet s (groupEvent s g bit code) (pgGtab g) bit := by
  rcases groupEvent_eq s g bit code with he | he <;> rw [he]
  · exact eventSet_raise ..
  · exact (eventSet_raise ..).trans (congrArg (· ||| _) (rd_wr_other s _ (regKey_ne (by decide))))

/-- The group runs no collective. -/
def withoutColl (r : GroupRun) : GroupRun := { r with coll := none, early := [] }

/-- The group has aborted, its ferries not yet. -/
def groupAborted (s : State) (g : Nat) : State := groupEvent ((updGroup s g withoutColl).put (fGroupState g) 5) g 3 0x6001

theorem groupAborted_regsOnly (s : State) (g : Nat) : RegsOnly (updGroup s g withoutColl) (groupAborted s g) :=
  (regsOnly_put ..).trans (groupEvent_regsOnly ..)

theorem groupAborted_changes (s : State) (g : Nat) :
    Changes s (groupAborted s g) (also (parts [.group g]) (wordsAndEvent (pgGtab g) [gOff g 0x20, 0x240])) := by
  refine Changes.trans ?_ ((groupEvent_changes _ _ _ _).mono fun _ hp => .inr (hp.imp_left (words_mono (by simp))))
  rw [changes_put (by simp), updGroup, changes_setGroup (by simp)]
  exact Changes.refl _ _

theorem groupOffs_lt (g : Nat) : ∀ o ∈ [gOff g 0x20, 0x240], o < 4096 := by
  simp only [List.mem_cons, List.not_mem_nil, or_false, forall_eq_or_imp, forall_eq]
  unfold gOff
  omega

/-- Every page but that of the group reads as before. -/
theorem groupAborted_rd {page : Nat} (ho : off < 4096) (hp : page ≠ pgGtab g) : (groupAborted s g).rd page off = s.rd page off := by
  refine (groupAborted_changes s g).rd_eq ho fun hm => hp ?_
  exact (word_of_wordsAndEvent (hm.resolve_left (by simp)) ho (groupOffs_lt g)).1

theorem groupAborted_state (s : State) (g : Nat) : groupState (groupAborted s g) g = 5 := by
  have hput : ((updGroup s g withoutColl).put (fGroupState g) 5).get (fGroupState g) = 5 := get_put_same _ _ (by decide)
  have hoff : gOff g 0x20 < 4096 := groupOffs_lt g _ (by simp)
  refine (get_eq_of_changes (groupEvent_changes _ g 3 0x6001) hoff fun hm => ?_).trans hput
  have hmem := (word_of_wordsAndEvent hm hoff (by simp)).2
  simp only [List.mem_append, List.mem_cons, List.not_mem_nil, or_false] at hmem
  unfold gOff at hmem
  omega

theorem groupAborted_event (s : State) (g : Nat) : EventSet s (groupAborted s g) (pgGtab g) 3 := by
  rw [EventSet, groupAborted, eventSet_groupEvent, rd_put_off _ _ (by unfold gOff; omega)]
  rfl

/-! The whole keel abort. -/

/-- The other members have been told. -/
def membersTold (s : State) (g : Nat) : State := { s with out := s.out ++ (others s g).map (Out.abortNotice g) }

theorem foldl_emit {α : Type} (notice : α → Out) (l : List α) (s : State) :
    l.foldl (fun t m => t.emit (notice m)) s = { s with out := s.out ++ l.map notice } := by
  induction l generalizing s with
  | nil => simp
  | cons m l ih =>
    rw [List.foldl_cons, ih]
    simp [State.emit]

/-- The group and its ferries have aborted. -/
def keelAborted (s : State) (g : Nat) : State := abortFerries (groupAborted (membersTold s g) g) g

theorem startAbort_eq (h : AbortsPlainly s g) : startAbort s g = settleAll (keelAborted s g) := by
  obtain ⟨hstate, hcoll, hlanding, -, -⟩ := h
  have hactive : (groupState (membersTold s g) g ≠ 2 && groupState (membersTold s g) g ≠ 3) = false := by
    have hsame : groupState (membersTold s g) g = groupState s g := rfl
    rcases hstate with hs | hs <;> simp [hsame, hs]
  have hl : (membersTold s g).landing = [] := hlanding
  have hc : ((membersTold s g).group g).coll = none := hcoll
  rw [startAbort, foldl_emit, ← membersTold]
  simp only [abortGroup, hactive, hl, hc, Bool.false_eq_true, if_false, List.filter_nil, List.foldl_nil]
  rfl

theorem groupAborted_noneConcerned (h : AbortsPlainly s g) : NoneConcerned (groupAborted (membersTold s g) g) := by
  obtain ⟨-, -, hlanding, halone, -⟩ := h
  have hn : NoneConcerned (updGroup (membersTold s g) g withoutColl) := ⟨hlanding, halone⟩
  exact hn.of_regsOnly (groupAborted_regsOnly ..)

/-- Apart from the group's run only registers and the logbook differ from the state in which the members have been told. -/
theorem keelAborted_regsOnly (h : AbortsPlainly s g) : RegsOnly (updGroup (membersTold s g) g withoutColl) (keelAborted s g) :=
  (groupAborted_regsOnly ..).trans (abortMembers_regsOnly (groupAborted_noneConcerned h) g _)

theorem keelAborted_changes (h : AbortsPlainly s g) : Changes s (keelAborted s g) (abortParts g) := by
  have htold : Changes s (membersTold s g) (abortParts g) := (changes_out (.inr (.inl (by simp)))).2 (Changes.refl _ _)
  refine htold.trans (((groupAborted_changes _ g).mono ?_).trans ((abortMembers_changes (groupAborted_noneConcerned h) g _).mono ?_))
  · rintro p (hp | hp)
    · exact .inl (List.mem_singleton.1 hp)
    · exact .inr (.inl hp)
  · rintro p ⟨f, hf, hp⟩
    exact .inr (.inr ⟨f, List.mem_range.1 hf, hp⟩)

/-- An abort of a keel group lets nothing deferred take place where nothing is. -/
theorem keelAborted_nothingDeferred (h : AbortsPlainly s g) : NothingDeferred (keelAborted s g) := by
  have hr := keelAborted_regsOnly h
  obtain ⟨-, -, -, -, happly, hwaits, hdelete⟩ := h
  refine ⟨(hr.field_eq State.applyWaits (fun _ _ _ _ => rfl)).trans happly, fun b hb => ?_, fun j hj => ?_⟩
  · rw [hr.field_eq (fun u => u.berth b) (fun _ _ _ _ => rfl)]
    exact hwaits b hb
  · rw [hr.field_eq (fun u => u.group j) (fun _ _ _ _ => rfl)]
    by_cases hjg : j = g
    · subst hjg
      have hgroup : (updGroup (membersTold s j) j withoutColl).group j = withoutColl (s.group j) := storeGet_storePut_same ..
      rw [hgroup]
      exact hdelete j hj
    · have hother : (updGroup (membersTold s g) g withoutColl).group j = s.group j := storeGet_storePut_other _ _ _ _ hjg
      rw [hother]
      exact hdelete j hj

/-- A keel abort from `s` has taken place in `t`: the group and its armed and running ferries have aborted, and every other member has
been told. -/
structure KeelAborted (s t : State) (g : Nat) : Prop where
  group : groupState t g = 5
  event : EventSet s t (pgGtab g) 3
  told : AbortTold s t g
  ferries : ∀ f, f < 8 → ferryGroup s f = g → ferryState s f = 1 ∨ ferryState s f = 2 → FerryAborted s t f

/-- What registers and outputs say stays said. -/
theorem KeelAborted.of_same (h : KeelAborted s t g) (hrd : ∀ page off, off < 4096 → u.rd page off = t.rd page off)
    (hout : ∀ o ∈ t.out, o ∈ u.out) : KeelAborted s u g where
  group := (get_eq_of_word (hrd _ _ (by unfold gOff; omega))).trans h.group
  event := (hrd _ _ (by decide)).trans h.event
  told := fun m hm => hout _ (h.told m hm)
  ferries := fun f hf hg hs =>
    ⟨(get_eq_of_word (hrd _ _ (by decide))).trans (h.ferries f hf hg hs).1, (hrd _ _ (by decide)).trans (h.ferries f hf hg hs).2⟩

/-- A group's page is no ferry's. -/
theorem pgGtab_ne_pgFerry (hg : g < 64) (f : Nat) : pgFerry f ≠ pgGtab g := by
  unfold pgFerry pgGtab
  omega

theorem keelAborted_aborted (hg : g < 64) (h : AbortsPlainly s g) : KeelAborted s (keelAborted s g) g := by
  have hn := groupAborted_noneConcerned h
  have hgroup {off : Nat} (ho : off < 4096) : (keelAborted s g).rd (pgGtab g) off = (groupAborted (membersTold s g) g).rd (pgGtab g) off :=
    abortMembers_rd hn (fun f _ => (pgGtab_ne_pgFerry hg f).symm) ho
  have hferry {off : Nat} (ho : off < 4096) (f : Nat) : (groupAborted (membersTold s g) g).rd (pgFerry f) off = s.rd (pgFerry f) off :=
    groupAborted_rd ho (pgGtab_ne_pgFerry hg f)
  refine ⟨?_, ?_, fun m hm => ?_, fun f hf hfg hs => ?_⟩
  · exact (get_eq_of_word (hgroup (by unfold gOff; omega))).trans (groupAborted_state ..)
  · exact (hgroup (by decide)).trans (groupAborted_event (membersTold s g) g)
  · rw [(keelAborted_regsOnly h).out_eq]
    exact List.mem_append_right _ (List.mem_map_of_mem hm)
  · have hstate : ferryState (groupAborted (membersTold s g) g) f = ferryState s f := get_eq_of_word (hferry (by decide) f)
    have hkeel : ferryGroup (groupAborted (membersTold s g) g) f = g := (get_eq_of_word (hferry (by decide) f)).trans hfg
    obtain ⟨haborted, hevent⟩ := abortFerries_aborted hn hf hkeel (by rwa [hstate])
    exact ⟨haborted, hevent.trans (congrArg (· ||| _) (hferry (by decide) f))⟩

theorem startAbort_changes (h : AbortsPlainly s g) : Changes s (startAbort s g) (abortParts g) := by
  rw [startAbort_eq h]
  exact (keelAborted_changes h).trans ((settleAll_changes (keelAborted_nothingDeferred h)).mono fun _ hp => hp.elim)

theorem startAbort_aborted (hg : g < 64) (h : AbortsPlainly s g) : KeelAborted s (startAbort s g) g := by
  have hsettled := settleAll_changes (keelAborted_nothingDeferred h)
  obtain ⟨-, -, -, hout⟩ : _ ∧ _ ∧ _ ∧ _ := hsettled .signals id
  rw [startAbort_eq h]
  exact (keelAborted_aborted hg h).of_same (fun _ _ ho => hsettled.rd_eq ho id) (fun o ho => by rwa [hout])

theorem KeelAborted.signal (h : KeelAborted s t g) : KeelAborted s (signal t) g :=
  h.of_same (fun _ _ _ => signal_rd ..) fun _ ho => mem_out_signal ho

end Sys2Proof.Claims
end

section
/-! SUPPORT. ABORT and an overdue LAND (09 R253, R256), and the rows of a ferry's commands. -/

namespace Sys2Proof.Claims
open Sys2Proof.Machine

variable {s t u : State} {f : Fin 8} {a : Access} {g k i : Nat}

theorem ferryGroup_lt (s : State) (f : Nat) : ferryGroup s f < 64 := get_lt ..

theorem completes_abort (h : HostTakes s (pgFerry f.val) 0x06C a) (h1 : a.data.toNat % 8 = 2)
    (h2 : ferryState s f.val = 1 ∨ ferryState s f.val = 2) (h3 : AbortsPlainly s (ferryGroup s f.val)) :
    Completes (.abort f a) s (abortParts (ferryGroup s f.val)) (fun t =>
      ferryState t f.val = 4 ∧ groupState t (ferryGroup s f.val) = 5 ∧ EventSet s t (pgFerry f.val) 3 ∧
        EventSet s t (pgGtab (ferryGroup s f.val)) 3 ∧ AbortTold s t (ferryGroup s f.val)) := by
  have hcmd : writeFerryCmd f.val s a.data = startAbort s (ferryGroup s f.val) := by
    have hactive : ¬ (ferryState s f.val ≠ 1 && ferryState s f.val ≠ 2) = true := by rcases h2 with h2 | h2 <;> simp [h2]
    simp only [writeFerryCmd, h1, abortCmd, if_neg hactive]
  have habort := (startAbort_aborted (ferryGroup_lt s f.val) h3).signal
  obtain ⟨hstate, hevent⟩ := habort.ferries f.val f.isLt rfl h2
  exact completes_taken (show execAbort f a s = _ from rfl) h hcmd (.inr (.inl (by simp))) (startAbort_changes h3)
    ⟨hstate, habort.group, hevent, habort.event, habort.told⟩

/-! An overdue LAND (R253). -/

/-- The LAND is named in the ferry's page, and an event reports it. -/
def overdueReported (s : State) (f i k : Nat) : State :=
  raiseWith ((s.wr (pgFerry f) 0x094 (Machine.entryAt s f i k).seq).wrN (pgFerry f) 0x098 (Machine.entryAt s f i k).peer.toNat) (pgFerry f) 2 0x6102
    ((Machine.entryAt s f i k).seq, (Machine.entryAt s f i k).peer.setWidth 32, 0, 0)

theorem ferryOverdue_eq (s : State) (f i k : Nat) :
    ferryOverdue s f i k = startAbort (overdueReported s f i k) (ferryGroup (overdueReported s f i k) f) := rfl

/-- A LAND is overdue of a running ferry only. -/
theorem running_of_overdueIter {f : Nat} (h : overdueIter s f k = some i) : ferryState s f = 2 := by
  by_contra hne
  simp [overdueIter, hne] at h

theorem overdueReported_regsOnly (s : State) (f i k : Nat) : RegsOnly s (overdueReported s f i k) := by
  have hwords : RegsOnly s ((s.wr (pgFerry f) 0x094 (Machine.entryAt s f i k).seq).wrN (pgFerry f) 0x098 (Machine.entryAt s f i k).peer.toNat) :=
    ⟨_, _, _, rfl⟩
  exact hwords.trans (regsOnly_raiseWith ..)

theorem overdueReported_changes (s : State) (f i k : Nat) : Changes s (overdueReported s f i k) (wordsAndEvent (pgFerry f) [0x094, 0x098]) := by
  rw [overdueReported, changes_raiseWith (fun _ hx => .inr (eventParts_of_mem hx)) (by simp)]
  simp

/-- Every word but those of the report reads as before. -/
theorem overdueReported_rd {f page off : Nat} (ho : off < 4096)
    (h : page ≠ pgFerry f ∨ off ∉ [0x010, 0x01C, 0x020, 0x024, 0x094, 0x098]) : (overdueReported s f i k).rd page off = s.rd page off := by
  refine (overdueReported_changes s f i k).rd_eq ho fun hm => ?_
  obtain ⟨hpage, hoff⟩ := word_of_wordsAndEvent hm ho (by simp)
  exact h.elim (absurd hpage) (absurd hoff)

theorem overdueReported_seq (s : State) (f i k : Nat) : (overdueReported s f i k).rd (pgFerry f) 0x094 = (Machine.entryAt s f i k).seq := by
  rw [overdueReported, rd_raiseWith, rd_setEvt_other _ (by decide) (.inr (by decide))]
  exact (rd_wr_other _ _ (regKey_ne (by decide))).trans (rd_wr_same ..)

theorem overdueReported_peer (s : State) (f i k : Nat) :
    (overdueReported s f i k).rdN (pgFerry f) 0x098 = (Machine.entryAt s f i k).peer.toNat := by
  have hpeer : (Machine.entryAt s f i k).peer.toNat < 2 ^ 16 := (Machine.entryAt s f i k).peer.isLt
  rw [State.rdN, overdueReported, rd_raiseWith, rd_setEvt_other _ (by decide) (.inr (by decide)), ← State.rdN, rdN_wrN_same _ _ _ (by omega)]

theorem overdueReported_event (s : State) (f i k : Nat) : EventSet s (overdueReported s f i k) (pgFerry f) 2 :=
  (eventSet_raiseWith ..).trans
    (congrArg (· ||| _) ((rd_wr_other _ _ (regKey_ne (by decide))).trans (rd_wr_other _ _ (regKey_ne (by decide)))))

/-- The report changes nothing that the abort of the group depends on. -/
theorem overdueReported_abortsPlainly {f : Nat} (hg : g < 64) (h : AbortsPlainly s g) : AbortsPlainly (overdueReported s f i k) g := by
  obtain ⟨hstate, hcoll, hlanding, halone, happly, hwaits, hdelete⟩ := h
  have hr := overdueReported_regsOnly s f i k
  have hgroup (j : Nat) : (overdueReported s f i k).group j = s.group j := hr.field_eq (fun u => u.group j) (fun _ _ _ _ => rfl)
  have hberth (b : Nat) : (overdueReported s f i k).berth b = s.berth b := hr.field_eq (fun u => u.berth b) (fun _ _ _ _ => rfl)
  have hsame : groupState (overdueReported s f i k) g = groupState s g :=
    get_eq_of_word (overdueReported_rd (by unfold gOff; omega) (.inl (pgGtab_ne_pgFerry hg f).symm))
  obtain ⟨hl, hc⟩ := NoneConcerned.of_regsOnly ⟨hlanding, halone⟩ hr
  exact ⟨by rwa [hsame], by rwa [hgroup], hl, hc, (hr.field_eq State.applyWaits (fun _ _ _ _ => rfl)).trans happly,
    fun b hb => by rw [hberth]; exact hwaits b hb, fun j hj => by rw [hgroup]; exact hdelete j hj⟩

theorem overdueReported_others (s : State) (f i k g : Nat) : others (overdueReported s f i k) g = others s g := by
  have hr := overdueReported_regsOnly s f i k
  have hnode : nodeId (overdueReported s f i k) = nodeId s :=
    nodeId_congr (hr.field_eq State.boot (fun _ _ _ _ => rfl)) (get_eq_of_word (overdueReported_rd (by decide) (.inr (by decide))))
  have hgroup : (overdueReported s f i k).group g = s.group g := hr.field_eq (fun u => u.group g) (fun _ _ _ _ => rfl)
  rw [others, others, hnode, hgroup]

/-- A keel abort leaves the words that name the LAND. -/
theorem startAbort_rd_ferry {f off : Nat} (hg : g < 64) (h : AbortsPlainly s g) (ho : off < 4096)
    (hoff : off ∉ [0x010, 0x01C, 0x020, 0x024, 0x00C]) : (startAbort s g).rd (pgFerry f) off = s.rd (pgFerry f) off := by
  refine (startAbort_changes h).rd_eq ho fun hm => ?_
  rcases hm with hm | hm | ⟨j, -, hm⟩
  · cases hm
  · exact pgGtab_ne_pgFerry hg f (word_of_wordsAndEvent hm ho (groupOffs_lt g)).1
  · exact hoff (word_of_wordsAndEvent hm ho (by simp)).2

theorem completes_overdue (h : overdueIter s f.val k = some i) (h1 : AbortsPlainly s (ferryGroup s f.val)) :
    Completes (.ferryOverdue f k) s (also (abortParts (ferryGroup s f.val)) (words (pgFerry f.val) [0x094, 0x098])) (fun t =>
      t.rd (pgFerry f.val) 0x094 = (Machine.entryAt s f.val i k).seq ∧
        t.rdN (pgFerry f.val) 0x098 = (Machine.entryAt s f.val i k).peer.toNat ∧ ferryState t f.val = 4 ∧
        EventsSet s t (pgFerry f.val) 0xC ∧ AbortTold s t (ferryGroup s f.val)) := by
  have hword {off : Nat} (ho : off < 4096) (hn : off ∉ [0x010, 0x01C, 0x020, 0x024, 0x094, 0x098]) :
      (overdueReported s f.val i k).rd (pgFerry f.val) off = s.rd (pgFerry f.val) off := overdueReported_rd ho (.inr hn)
  have hg : ferryGroup (overdueReported s f.val i k) f.val = ferryGroup s f.val := get_eq_of_word (hword (by decide) (by decide))
  have hplain := overdueReported_abortsPlainly (f := f.val) (i := i) (k := k) (ferryGroup_lt s f.val) h1
  have he : exec (.ferryOverdue f k) s = finish (startAbort (overdueReported s f.val i k) (ferryGroup s f.val)) := by
    rw [← hg, ← ferryOverdue_eq]
    show execFerryOverdue f k s = _
    rw [execFerryOverdue, h]
  have habort := (startAbort_aborted (ferryGroup_lt s f.val) hplain).signal
  have hactive : ferryState (overdueReported s f.val i k) f.val = 2 :=
    (get_eq_of_word (hword (by decide) (by decide))).trans (running_of_overdueIter h)
  obtain ⟨hstate, hevent⟩ := habort.ferries f.val f.isLt hg (.inr hactive)
  have hkept {off : Nat} (ho : off < 4096) (hoff : off ∉ [0x010, 0x01C, 0x020, 0x024, 0x00C]) :
      (signal (startAbort (overdueReported s f.val i k) (ferryGroup s f.val))).rd (pgFerry f.val) off =
        (overdueReported s f.val i k).rd (pgFerry f.val) off :=
    (signal_rd ..).trans (startAbort_rd_ferry (ferryGroup_lt s f.val) hplain ho hoff)
  refine completes_finish he (.inr (by simp)) ?_ ⟨?_, ?_, hstate, ?_, ?_⟩
  · refine ((overdueReported_changes s f.val i k).mono ?_).trans ((startAbort_changes hplain).mono fun _ hp => .inl hp)
    rintro p (hp | hp)
    · exact .inr hp
    · exact .inl (.inr (.inr ⟨f.val, f.isLt, .inr hp⟩))
  · rw [hkept (by decide) (by decide), overdueReported_seq]
  · rw [State.rdN, hkept (by decide) (by decide), ← State.rdN, overdueReported_peer]
  · rw [EventsSet, hevent, overdueReported_event, BitVec.or_assoc]
    rfl
  · intro m hm
    exact habort.told m (by rwa [overdueReported_others])

end Sys2Proof.Claims

open Sys2Proof Sys2Proof.Machine Sys2Proof.Claims

/-- Settles O26: each row by the lemma of its command. -/
theorem ferryResults : Obligations.FerryResults := by
  intro s i may post hrow
  cases hrow with
  | arm f a h h1 h2 => exact completes_arm h h1 h2
  | armRefused f a h h1 h2 => exact completes_armRefused h h1 h2
  | append f a h h1 h2 h3 h4 h5 => exact completes_append h h1 h2 h3 h4 h5
  | armed f h h1 h2 h3 => exact completes_armed h h1 h2 h3
  | refused f k c h h1 h2 h3 => exact completes_ferryRefused h h1 h2 h3
  | appended f h h1 => exact completes_appended h h1
  | sail f k i p e h h1 h2 h3 h4 h5 h6 h7 h8 h9 h10 h11 h12 h13 =>
    exact completes_sail h h1 h2 h3 h4 h5 h6 h7 h8 h9 h10 h11 h12 h13
  | zoneOpen f k i e h h1 h2 h3 h4 h5 h6 h7 => exact completes_zoneOpen h h1 h2 h3 h4 h5 h6 h7
  | mark f k i h h1 h2 h3 h4 h5 h6 => exact completes_mark h h1 h2 h3 h4 h5 h6
  | endEntry f k h h1 h2 h3 h4 h5 h6 h7 h8 h9 => exact completes_endEntry h h1 h2 h3 h4 h5 h6 h7 h8 h9
  | abort f a h h1 h2 h3 => exact completes_abort h h1 h2 h3
  | overdue f k i h h1 => exact completes_overdue h h1
end

section
/-! SUPPORT. The ring's ranks agree (10 R279): plans with the same chunks find the same step for a transfer, and what a rank sends to the
next one in a step is what that one receives in it. -/

namespace Sys2Proof.Claims
open Sys2Proof.Machine

variable {x : CollCtx} {m n t k q : Nat} {p : Piece}

/-! The step of a transfer. -/

/-- A transfer belongs to the same step of all plans whose steps have the same chunks. -/
theorem locate_map {f : Nat → CollStep} {l : List Nat} {j i : Nat} {st : CollStep} (hl : locate (l.map f) j t = some (k, st, i)) :
    ∃ n ∈ l, st = f n ∧
      ∀ h : Nat → CollStep, (∀ n, (h n).chunks = (f n).chunks) → locate (l.map h) j t = some (k, h n, i) := by
  induction l generalizing j t with
  | nil => cases hl
  | cons n l ih =>
    simp only [List.map_cons, locate] at hl
    split at hl
    · rename_i hlt
      obtain ⟨rfl, rfl, rfl⟩ : j = k ∧ f n = st ∧ t = i := by simpa using hl
      exact ⟨n, List.mem_cons_self, rfl, fun h hc => if_pos (by rwa [hc])⟩
    · rename_i hge
      obtain ⟨n', hn, hst, hloc⟩ := ih hl
      refine ⟨n', List.mem_cons_of_mem _ hn, hst, fun h hc => ?_⟩
      rw [List.map_cons, locate, hc, if_neg hge]
      exact hloc h hc

/-- What a transfer sends is a chunk of what its step sends, and its step is the same at every rank. -/
theorem sendOf_stepsTo {f : Nat → CollStep} (hs : sendOf x (stepsTo m f) t = some (k, q, p)) :
    ∃ n i whole, n ≤ m ∧ (f n).send = some (q, whole) ∧ p = chunkOf x whole i ∧ p.len ≠ 0 ∧
      ∀ h : Nat → CollStep, (∀ n, (h n).chunks = (f n).chunks) → locate (stepsTo m h) 0 t = some (k, h n, i) := by
  unfold sendOf at hs
  split at hs
  · rename_i k' st i hloc
    obtain ⟨n, hn, rfl, hall⟩ := locate_map hloc
    split at hs
    · rename_i q' whole hsend
      simp only at hs
      split at hs
      · cases hs
      · rename_i hlen
        obtain ⟨rfl, rfl, rfl⟩ : k' = k ∧ q' = q ∧ chunkOf x whole i = p := by simpa using hs
        exact ⟨n + 1, i, whole, List.mem_range.1 hn, hsend, rfl, hlen, fun h hc => hall (fun k => h (k + 1)) fun k => hc (k + 1)⟩
    · cases hs
  · cases hs

/-! One step. -/

/-- Rank `q`, whose step is `st`, receives from `x`'s rank the piece `p` that it sends: as long, and at the same offset where the buffers
correspond. -/
def Receives (x : CollCtx) (q : Nat) (st : CollStep) (p : Piece) : Prop :=
  q < x.G ∧ ∃ p' w, st.recv = some (x.r, p', w) ∧ p'.len = p.len ∧
    (x.op = opAllReduce ∨ x.op = opAllGather ∨ x.op = opBroadcast → p'.off = p.off)

/-- Ranks that agree on their steps agree on the transfers of them. -/
theorem recvOf_of_receives {f : CollCtx → Nat → CollStep} (hp : ∀ r, ringPlan { x with r := r } = stepsTo m (f { x with r := r }))
    (hc : ∀ n, (f { x with r := q } n).chunks = (f x n).chunks)
    (hf : ∀ n p, n ≤ m → (f x n).send = some (q, p) → Receives x q (f { x with r := q } n) p)
    (hs : sendOf x (ringPlan x) t = some (k, q, p)) :
    q < x.G ∧ ∃ p' w, recvOf { x with r := q } (ringPlan { x with r := q }) t = some (k, x.r, p', w) ∧ p'.len = p.len ∧
      (x.op = opAllReduce ∨ x.op = opAllGather ∨ x.op = opBroadcast → p'.off = p.off) := by
  rw [show ringPlan x = _ from hp x.r] at hs
  obtain ⟨n, i, whole, hm, hsend, rfl, hlen, hloc⟩ := sendOf_stepsTo hs
  obtain ⟨hq, p', w, hrecv, hl, ho⟩ := hf n whole hm hsend
  have hchunk : (chunkOf { x with r := q } p' i).len = (chunkOf x whole i).len := by simp only [chunkOf, hl]
  refine ⟨hq, chunkOf { x with r := q } p' i, workChunk { x with r := q } i w, ?_, hchunk, fun hop => ?_⟩
  · rw [hp q]
    simp only [recvOf, hloc _ hc, hrecv, hchunk, if_neg hlen]
  · simp only [chunkOf, ho hop]

/-! The algorithms. -/

/-- The rank before the next one is this one. -/
theorem previous_of_next (hr : x.r < x.G) : ((x.r + 1) % x.G + x.G - 1) % x.G = x.r := by
  rw [Nat.add_sub_assoc (by omega), Nat.mod_add_mod, show x.r + 1 + (x.G - 1) = x.r + x.G by omega, Nat.add_mod_right, Nat.mod_eq_of_lt hr]

/-- A segment counted from the next rank is the one after it counted from this rank. -/
theorem segPiece_next {b c : Buf} {j d : Nat} (h : d + 1 = j) :
    (segPiece { x with r := q } b ((x.r + 1) % x.G + d)).off = (segPiece x c (x.r + j)).off := by
  subst h
  show ((x.r + 1) % x.G + d) % x.G * x.seg = (x.r + (d + 1)) % x.G * x.seg
  rw [Nat.mod_add_mod, Nat.add_assoc, Nat.add_comm 1]

theorem receives_ringAllReduce (hG : 2 ≤ x.G) (hr : x.r < x.G) (hn : n ≤ 2 * x.G - 2) (hs : (ringAllReduce x n).send = some (q, p)) :
    Receives x q (ringAllReduce { x with r := q } n) p := by
  obtain ⟨rfl, rfl⟩ : (x.r + 1) % x.G = q ∧ _ = p := by simpa [ringAllReduce] using hs
  refine ⟨Nat.mod_lt _ (by omega), _, _, congrArg some (Prod.ext (previous_of_next hr) rfl), rfl, fun _ => ?_⟩
  simp only [Nat.add_sub_assoc (show 1 ≤ 2 * x.G by omega), Nat.add_sub_assoc (show n ≤ 2 * x.G by omega),
    Nat.add_sub_assoc (show n ≤ 2 * x.G - 1 by omega)]
  exact segPiece_next (by omega)

theorem receives_ringReduceScatter (hr : x.r < x.G) (hop : x.op = opReduceScatter) (hs : (ringReduceScatter x n).send = some (q, p)) :
    Receives x q (ringReduceScatter { x with r := q } n) p := by
  obtain ⟨rfl, rfl⟩ : (x.r + 1) % x.G = q ∧ _ = p := by simpa [ringReduceScatter] using hs
  refine ⟨Nat.mod_lt _ (by omega), _, _, congrArg some (Prod.ext (previous_of_next hr) rfl), ?_, fun h => by simp [hop] at h⟩
  split <;> rfl

theorem receives_ringAllGather (hr : x.r < x.G) (hn : n ≤ x.G - 1) (hs : (ringAllGather x n).send = some (q, p)) :
    Receives x q (ringAllGather { x with r := q } n) p := by
  obtain ⟨rfl, rfl⟩ : (x.r + 1) % x.G = q ∧ _ = p := by simpa [ringAllGather] using hs
  refine ⟨Nat.mod_lt _ (by omega), _, _, congrArg some (Prod.ext (previous_of_next hr) rfl), rfl, fun _ => ?_⟩
  simp only [Nat.add_assoc x.r, Nat.add_sub_assoc (show n ≤ x.G + 1 by omega), Nat.add_sub_assoc (show n ≤ x.G by omega)]
  exact segPiece_next (by omega)

theorem receives_ringBroadcast (hr : x.r < x.G) (hroot : x.root < x.G) (hn : n ≤ x.G - 1)
    (hs : (ringBroadcast x n).send = some (q, p)) : Receives x q (ringBroadcast { x with r := q } n) p := by
  obtain ⟨hp, rfl, rfl⟩ : (x.r + x.G - x.root) % x.G + 1 = n ∧ (x.r + 1) % x.G = q ∧ _ = p := by simpa [ringBroadcast] using hs
  have hnext : ((x.r + 1) % x.G + x.G - x.root) % x.G = n := by
    rw [Nat.add_sub_assoc (by omega), Nat.mod_add_mod, ← Nat.mod_eq_of_lt (show n < x.G by omega), ← hp, Nat.mod_add_mod]
    congr 1
    omega
  exact ⟨Nat.mod_lt _ (by omega), _, _, (if_pos hnext).trans (congrArg some (Prod.ext (previous_of_next hr) rfl)), rfl, fun _ => rfl⟩

theorem receives_allToAllStep (hr : x.r < x.G) (hop : x.op = opAllToAll) (hn : n ≤ x.G - 1) (hs : (allToAllStep x n).send = some (q, p)) :
    Receives x q (allToAllStep { x with r := q } n) p := by
  obtain ⟨rfl, rfl⟩ : (x.r + n) % x.G = q ∧ _ = p := by simpa [allToAllStep] using hs
  have hsender : ((x.r + n) % x.G + x.G - n) % x.G = x.r := by
    rw [Nat.add_sub_assoc (by omega), Nat.mod_add_mod, show x.r + n + (x.G - n) = x.r + x.G by omega, Nat.add_mod_right, Nat.mod_eq_of_lt hr]
  exact ⟨Nat.mod_lt _ (by omega), _, _, congrArg some (Prod.ext hsender rfl), rfl, fun h => by simp [hop] at h⟩

end Sys2Proof.Claims

open Sys2Proof Sys2Proof.Machine Sys2Proof.Claims

/-- Settles O30: each algorithm's ranks agree step by step, and so transfer by transfer. -/
theorem ringRanksAgree : Obligations.RingRanksAgree := by
  intro x n k q p hG hr hroot hop hs
  obtain hx | hx | hx | hx | hx : x.op = 0 ∨ x.op = 1 ∨ x.op = 2 ∨ x.op = 3 ∨ x.op = 4 := by omega
  · exact recvOf_of_receives (m := 2 * x.G - 2) (fun r => by simp only [ringPlan, hx]) (fun _ => rfl)
      (fun _ _ hn => receives_ringAllReduce hG hr hn) hs
  · exact recvOf_of_receives (m := x.G - 1) (fun r => by simp only [ringPlan, hx]) (fun _ => rfl)
      (fun _ _ _ => receives_ringReduceScatter hr hx) hs
  · exact recvOf_of_receives (m := x.G - 1) (fun r => by simp only [ringPlan, hx]) (fun _ => rfl)
      (fun _ _ hn => receives_ringAllGather hr hn) hs
  · exact recvOf_of_receives (m := x.G - 1) (fun r => by simp only [ringPlan, hx]) (fun _ => rfl)
      (fun _ _ hn => receives_ringBroadcast hr hroot hn) hs
  · exact recvOf_of_receives (m := x.G - 1) (fun r => by simp only [ringPlan, hx]) (fun _ => rfl)
      (fun _ _ hn => receives_allToAllStep hr hx hn) hs
end

section
/-! SUPPORT. Groups (10 R263 to R267): the run and the entry of a group, and the operations that their commands share. -/

namespace Sys2Proof.Claims
open Sys2Proof.Machine

variable {s t u : State} {may : Part → Prop} {g o c : Nat}

/-! The run of a group. -/

theorem group_eq_of_groups (h : t.groups = s.groups) (n : Nat) : t.group n = s.group n := by rw [State.group, State.group, h]

@[simp] theorem signal_group (s : State) (n : Nat) : (signal s).group n = s.group n := group_eq_of_groups (signal_groups s) n

@[simp] theorem group_setGroup_same (s : State) (n : Nat) (x : GroupRun) : (s.setGroup n x).group n = x := storeGet_storePut_same ..

@[simp] theorem group_updGroup (s : State) (g : Nat) (f : GroupRun → GroupRun) : (updGroup s g f).group g = f (s.group g) :=
  group_setGroup_same ..

@[simp] theorem changes_updGroup {f : GroupRun → GroupRun} (h : may (.group g)) : Changes s (updGroup t g f) may ↔ Changes s t may :=
  changes_setGroup h

theorem RegsOnly.group_eq (h : RegsOnly s t) (n : Nat) : t.group n = s.group n := h.field_eq (fun u => u.group n) (fun _ _ _ _ => rfl)

@[simp] theorem put_group (s : State) (f : Fld) (v n : Nat) : (s.put f v).group n = s.group n := (regsOnly_put s f v).group_eq n

/-! The entry of a group. -/

@[simp] theorem gOff_eq_iff (g a b : Nat) : gOff g a = gOff g b ↔ a = b := by
  unfold gOff
  omega

/-- Entries lie after the event words of their page, and before EVT_GROUP. -/
theorem gOff_range (h : o < 0x40) : 0x40 ≤ gOff g o ∧ gOff g o < 0x240 := by
  unfold gOff
  omega

theorem gOff_lt (h : o < 0x40) : gOff g o < 4096 := Nat.lt_trans (gOff_range h).2 (by decide)

/-- No word of the entry is one that an event of the group changes. -/
theorem gOff_notMem_event (h : o < 0x40) : gOff g o ∉ [0x010, 0x01C, 0x020, 0x024, 0x240] := by
  have hrange := gOff_range (g := g) h
  simp only [List.mem_cons, List.not_mem_nil, or_false]
  omega

theorem groupEvent_rd (s : State) {page off bit code : Nat} (ho : off < 4096)
    (h : page ≠ pgGtab g ∨ off ∉ [0x010, 0x01C, 0x020, 0x024, 0x240]) : (groupEvent s g bit code).rd page off = s.rd page off := by
  refine (groupEvent_changes s g bit code).rd_eq ho fun hm => ?_
  obtain ⟨hpage, hoff⟩ := word_of_wordsAndEvent hm ho (by simp)
  exact h.elim (absurd hpage) (absurd hoff)

/-- An event leaves the entry. -/
theorem groupEvent_entry (s : State) {bit code : Nat} (h : o < 0x40) :
    (groupEvent s g bit code).rd (pgGtab g) (gOff g o) = s.rd (pgGtab g) (gOff g o) :=
  groupEvent_rd s (gOff_lt h) (.inr (gOff_notMem_event h))

theorem changes_groupEvent {bit code : Nat} (h : ∀ p, wordsAndEvent (pgGtab g) [0x240] p → may p) :
    Changes s (groupEvent t g bit code) may ↔ Changes s t may := Changes.step_iff ((groupEvent_changes t g bit code).mono h)

@[simp] theorem groupEvent_group (s : State) (g bit code n : Nat) : (groupEvent s g bit code).group n = s.group n :=
  (groupEvent_regsOnly ..).group_eq n

theorem bit_of_eventSet {page bit : Nat} (h : EventSet s t page bit) (hb : bit < 32) : (t.rd page 0x010).getLsbD bit = true := by
  rw [h, BitVec.getLsbD_or, BitVec.getLsbD_ofNat, Nat.testBit_two_pow_self]
  simp [hb]

/-- What may change with an event of the group may change with its entry. -/
theorem groupParts_of_event {offs : List Nat} (p : Part) (h : wordsAndEvent (pgGtab g) [0x240] p) : groupParts g offs p :=
  .inl (h.imp_left (words_mono (by simp)))

/-- A word of the entry that may not change reads as before. -/
theorem entry_of_groupParts {offs : List Nat} (hc : Changes s t (groupParts g offs)) (h : o < 0x40) (ho : o ∉ offs)
    (hoffs : ∀ x ∈ offs, x < 0x40) : t.rd (pgGtab g) (gOff g o) = s.rd (pgGtab g) (gOff g o) := by
  refine hc.rd_eq (gOff_lt h) fun hm => gOff_notMem_event (g := g) h ?_
  have hlt : ∀ x ∈ 0x240 :: offs.map (gOff g), x < 4096 := by simpa using fun x hx => gOff_lt (hoffs x hx)
  have hmem := (word_of_wordsAndEvent (hm.resolve_right (by simp)) (gOff_lt h) hlt).2
  simpa [ho] using hmem

/-! Staging granules (12 R314). -/

theorem changes_chargeTier0 {b n : Nat} (h : may (.reg (regKey (pgBerth b) 0x64C))) : Changes s (chargeTier0 t b n) may ↔ Changes s t may := by
  unfold chargeTier0
  split
  · exact changes_wrN h
  · rfl

theorem changes_releaseTier0 {b n : Nat} (h : may (.reg (regKey (pgBerth b) 0x64C))) :
    Changes s (releaseTier0 t b n) may ↔ Changes s t may := by
  unfold releaseTier0
  split
  · exact changes_wrN h
  · rfl

/-- A word that is no berth's reads as before. -/
theorem releaseTier0_rd {b n page off : Nat} (ho : off < 4096) (hp : 0x030 ≤ page) : (releaseTier0 s b n).rd page off = s.rd page off := by
  unfold releaseTier0
  split
  · exact rd_wr_other _ _ (by simp only [ne_eq, regKey_inj ho (show 0x64C < 4096 by decide), pgBerth]; omega)
  · rfl

/-- The group is gone, and its staging granules are released. -/
def released (s : State) (g : Nat) : State := (releaseTier0 s (groupOwner s g) (s.group g).charged).setGroup g GroupRun.reset

theorem released_changes (s : State) (g : Nat) : Changes s (released s g) (also (parts [.group g]) (chargeOf s g)) := by
  rw [released, changes_setGroup (by simp), changes_releaseTier0 (by simp)]
  exact Changes.refl _ _

theorem released_group (s : State) (g : Nat) : (released s g).group g = GroupRun.reset := group_setGroup_same ..

theorem released_rd {page off : Nat} (ho : off < 4096) (hp : 0x030 ≤ page) : (released s g).rd page off = s.rd page off :=
  releaseTier0_rd ho hp

theorem pgGtab_ge (g : Nat) : 0x030 ≤ pgGtab g := by
  unfold pgGtab
  omega

/-! REFUSED (R264, R266). -/

theorem refuseGroup_eq (s : State) (g c : Nat) :
    refuseGroup s g c = groupEvent (((released s g).put (fGroupState g) 7).put (fGroupCause g) c) g 1 0x6203 := rfl

theorem refuseGroup_changes (s : State) (g c : Nat) : Changes s (refuseGroup s g c) (also (groupParts g [0x20]) (chargeOf s g)) := by
  rw [refuseGroup_eq, changes_groupEvent fun p hp => .inl (groupParts_of_event p hp), changes_put (by simp), changes_put (by simp)]
  exact (released_changes s g).mono fun _ hp => hp.imp_left .inr

theorem refuseGroup_state (s : State) (g c : Nat) : groupState (refuseGroup s g c) g = 7 :=
  (get_eq_of_word (groupEvent_entry _ (by decide))).trans ((get_put_word _ _ (by decide)).trans (get_put_same _ _ (by decide)))

theorem refuseGroup_cause (hc : c < 16) : (refuseGroup s g c).get (fGroupCause g) = c :=
  (get_eq_of_word (groupEvent_entry _ (by decide))).trans ((get_put_same _ _ (by decide)).trans (Nat.mod_eq_of_lt hc))

theorem refuseGroup_group (s : State) (g c : Nat) : (refuseGroup s g c).group g = GroupRun.reset := by
  rw [refuseGroup_eq, groupEvent_group, put_group, put_group, released_group]

theorem refuseGroup_event (s : State) (g c : Nat) : EventSet s (refuseGroup s g c) (pgGtab g) 1 := by
  have hoff : 0x010 ≠ gOff g 0x20 := by have := gOff_range (g := g) (o := 0x20) (by decide); omega
  rw [refuseGroup_eq, EventSet, eventSet_groupEvent, rd_put_off _ _ hoff, rd_put_off _ _ hoff, released_rd (by decide) (pgGtab_ge g)]

/-! FALLBACK (R266). -/

/-- The group takes the fall-back: it is forced, or a member lacks a neighbour. -/
def fallsBack (s : State) (g : Nat) : Bool := groupCfg s g 17 1 == 1 || (s.group g).notices.any (fun x => !x.2.2)

/-- FALLBACK is set as the notices say; its begin is an event, and its begin and its end are entries of the logbook. -/
theorem setFallback_cases (s : State) (g : Nat) :
    setFallback s g = s.putBit (fGroupFall g) (fallsBack s g) ∨
      ∃ e, setFallback s g = logAdd (s.putBit (fGroupFall g) (fallsBack s g)) e ∨
        setFallback s g = logAdd (groupEvent (s.putBit (fGroupFall g) (fallsBack s g)) g 5 0x6207) e := by
  simp only [setFallback]
  rw [← fallsBack]
  split
  · exact .inr ⟨_, .inr rfl⟩
  · split
    · exact .inr ⟨_, .inl rfl⟩
    · exact .inl rfl

theorem setFallback_changes (s : State) (g : Nat) :
    Changes (s.putBit (fGroupFall g) (fallsBack s g)) (setFallback s g) (wordsAndEvent (pgGtab g) [0x240]) := by
  rcases setFallback_cases s g with he | ⟨e, he | he⟩ <;> rw [he]
  · exact Changes.refl _ _
  · exact (changes_logAdd (.inr (by simp))).2 (Changes.refl _ _)
  · exact (changes_logAdd (.inr (by simp))).2 (groupEvent_changes _ g 5 0x6207)

theorem setFallback_regsOnly (s : State) (g : Nat) : RegsOnly s (setFallback s g) := by
  have hput : RegsOnly s (s.putBit (fGroupFall g) (fallsBack s g)) := regsOnly_put ..
  rcases setFallback_cases s g with he | ⟨e, he | he⟩ <;> rw [he]
  · exact hput
  · exact hput.trans (regsOnly_logAdd ..)
  · exact hput.trans ((groupEvent_regsOnly ..).trans (regsOnly_logAdd ..))

theorem setFallback_entry (h : o < 0x40) :
    (setFallback s g).rd (pgGtab g) (gOff g o) = (s.putBit (fGroupFall g) (fallsBack s g)).rd (pgGtab g) (gOff g o) := by
  refine (setFallback_changes s g).rd_eq (gOff_lt h) fun hm => gOff_notMem_event (g := g) h ?_
  simpa using (word_of_wordsAndEvent hm (gOff_lt h) (by simp)).2

/-! READY (R266). -/

/-- Every member's notice has come: none is kept. -/
def noticesOver (r : GroupRun) : GroupRun := { r with notices := [], reforming := false, reformAt := none, removal := [] }

/-- The group is READY. -/
def groupReady (s : State) (g : Nat) : State := groupEvent (updGroup ((setFallback s g).put (fGroupState g) 2) g noticesOver) g 0 0

theorem groupReady_changes (s : State) (g : Nat) : Changes s (groupReady s g) (groupParts g [0x20]) := by
  rw [groupReady, changes_groupEvent groupParts_of_event, changes_updGroup (by simp), changes_put (by simp)]
  exact Changes.trans ((changes_putBit (by simp)).2 (Changes.refl _ _)) ((setFallback_changes s g).mono groupParts_of_event)

theorem groupReady_entry (h : o < 0x40) :
    (groupReady s g).rd (pgGtab g) (gOff g o) = ((setFallback s g).put (fGroupState g) 2).rd (pgGtab g) (gOff g o) :=
  groupEvent_entry _ h

theorem groupReady_state (s : State) (g : Nat) : groupState (groupReady s g) g = 2 := by
  rw [groupState, get_eq_of_word (groupReady_entry (by decide))]
  exact get_put_same _ _ (by decide)

theorem groupReady_fall (s : State) (g : Nat) : (groupReady s g).bit (fGroupFall g) = fallsBack s g := by
  rw [bit_eq_of_word (groupReady_entry (by decide)), bit_put_word _ _ (by decide), bit_eq_of_word (setFallback_entry (by decide))]
  exact bit_putBit_same _ _ (by decide)

theorem groupReady_event (s : State) (g : Nat) : ((groupReady s g).rd (pgGtab g) 0x010).getLsbD 0 = true :=
  bit_of_eventSet (eventSet_groupEvent ..) (by decide)

theorem groupReady_group (s : State) (g : Nat) : (groupReady s g).group g = noticesOver (s.group g) := by
  rw [groupReady, groupEvent_group, group_updGroup]
  exact congrArg noticesOver ((setFallback_regsOnly s g).group_eq g)

/-! Notices (R265, R266). -/

/-- The group waits for its members' notices. -/
abbrev Waiting (s : State) (g : Nat) : Prop := groupState s g = 1 ∨ groupState s g = 4 ∧ (s.group g).reforming = true

/-- Every notice that has come has this group's digest. -/
abbrev DigestsAgree (s : State) (g : Nat) : Prop := ∀ x ∈ (s.group g).notices, x.2.1 = groupDigest s g

theorem waiting_test (h : Waiting s g) : (!(groupState s g == 1 || (groupState s g == 4 && (s.group g).reforming))) = false := by
  rcases h with h | ⟨h, hr⟩ <;> simp [*]

theorem digests_test (h : DigestsAgree s g) : (s.group g).notices.any (fun x => x.2.1 != groupDigest s g) = false := by
  simpa using h

/-- With a notice missing the group goes on waiting. -/
theorem noticesCheck_missing (hw : Waiting s g) (hd : DigestsAgree s g)
    (hm : ∃ m ∈ (s.group g).members, ∀ x ∈ (s.group g).notices, x.1 ≠ m) : noticesCheck s g = s := by
  have hall : (s.group g).members.all (fun m => (s.group g).notices.any (fun x => x.1 == m)) = false := by
    obtain ⟨m, hmem, hno⟩ := hm
    refine List.all_eq_false.2 ⟨m, hmem, fun hany => ?_⟩
    obtain ⟨x, hx, he⟩ := List.any_eq_true.1 hany
    exact hno x hx (beq_iff_eq.1 he)
  simp only [noticesCheck, waiting_test hw, digests_test hd, hall, Bool.false_eq_true, if_false]

/-- With all of them it is READY. -/
theorem noticesCheck_complete (hw : Waiting s g) (hd : DigestsAgree s g)
    (hm : ∀ m ∈ (s.group g).members, ∃ x ∈ (s.group g).notices, x.1 = m) : noticesCheck s g = groupReady s g := by
  have hall : (s.group g).members.all (fun m => (s.group g).notices.any (fun x => x.1 == m)) = true := by simpa using hm
  simp only [noticesCheck, waiting_test hw, digests_test hd, hall, Bool.false_eq_true, if_false, if_true]
  rfl

/-- With another digest among them it is REFUSED. -/
theorem noticesCheck_differs (hw : Waiting s g) (hd : ∃ x ∈ (s.group g).notices, x.2.1 ≠ groupDigest s g) :
    noticesCheck s g = refuseGroup s g 6 := by
  have hany : (s.group g).notices.any (fun x => x.2.1 != groupDigest s g) = true := by simpa using hd
  simp only [noticesCheck, waiting_test hw, hany, Bool.false_eq_true, if_false, if_true]

end Sys2Proof.Claims
end

section
/-! SUPPORT. Groups are refused and deleted, and their notices come in (10 R264 to R267, R287). -/

namespace Sys2Proof.Claims
open Sys2Proof.Machine

variable {s t u : State} {g : Fin 64} {a : Access} {m : BitVec 16} {dg : W32} {ring : Bool}

/-! CREATE refused (R264). -/

theorem createCause_lt (s : State) (g : Nat) : createCause s g < 16 := by
  simp only [createCause]
  repeat' split
  all_goals decide

theorem completes_createRefused (h : HostTakes s (pgGtab g.val) (gOff g.val 0x1C) a) (h1 : a.data.toNat % 4 = 1)
    (h2 : groupState s g.val = 0 ∨ groupState s g.val = 7) (h3 : createCause s g.val ≠ 0) :
    Completes (.create g a) s (also (groupParts g.val [0x20]) (chargeOf s g.val)) (fun t =>
      groupState t g.val = 7 ∧ t.get (fGroupCause g.val) = createCause s g.val ∧ (t.group g.val).members = [] ∧
        EventSet s t (pgGtab g.val) 1) := by
  have hcmd : writeGcmd g.val s a.data = refuseGroup s g.val (createCause s g.val) := by
    have hfree : (groupState s g.val ≠ 0 && groupState s g.val ≠ 7) = false := by rcases h2 with h2 | h2 <;> simp [h2]
    simp only [writeGcmd, h1, createGroup, hfree, Bool.false_eq_true, if_false]
    exact if_pos h3
  refine completes_taken (show execCreate g a s = _ from rfl) h hcmd (by simp) (refuseGroup_changes _ _ _) ⟨?_, ?_, ?_, ?_⟩
  · exact (signal_get ..).trans (refuseGroup_state ..)
  · exact (signal_get ..).trans (refuseGroup_cause (createCause_lt ..))
  · rw [signal_group, refuseGroup_group]
    rfl
  · exact (signal_rd ..).trans (refuseGroup_event ..)

/-! DELETE (R267, R287). -/

/-- The entry reads as free. -/
def entryCleared (s : State) (g : Nat) : State :=
  (((s.wr (pgGtab g) (gOff g 0x20) 0).wr (pgGtab g) (gOff g 0x24) 0).wr (pgGtab g) (gOff g 0x28) 0).wr (pgGtab g) (gOff g 0x2C) 0

/-- The logbook as the end of a fall-back leaves it. -/
def fallEnded (s : State) (g : Nat) : State := if s.bit (fGroupFall g) then fallEntry s g true else s

theorem fallEnded_changes (s : State) (g : Nat) : Changes s (fallEnded s g) (parts [.log]) := by
  unfold fallEnded
  split
  · exact (changes_logAdd (by simp)).2 (Changes.refl _ _)
  · exact Changes.refl _ _

/-- With an empty queue the entry is freed at once. -/
theorem deleteGroup_empty {g : Nat} (h : (qTail s g + 2 ^ 17 - qHead s g) % 2 ^ 17 = 0) :
    deleteGroup s g = entryCleared (released (fallEnded s g) g) g := by
  simp only [deleteGroup, h]
  rfl

theorem completes_delete (h : HostTakes s (pgGtab g.val) (gOff g.val 0x1C) a) (h1 : a.data.toNat % 4 = 2)
    (h2 : groupState s g.val ≠ 0) (h3 : groupState s g.val ≠ 3) (h4 : groupState s g.val ≠ 4)
    (h5 : (qTail s g.val + 2 ^ 17 - qHead s g.val) % 2 ^ 17 = 0) :
    Completes (.delete g a) s (also (also (groupParts g.val [0x20, 0x24, 0x28, 0x2C]) (chargeOf s g.val)) (parts [.log])) (fun t =>
      groupState t g.val = 0 ∧ (t.group g.val).members = [] ∧ groupCount t g.val = 0) := by
  have hcmd : writeGcmd g.val s a.data = entryCleared (released (fallEnded s g.val) g.val) g.val := by
    simp only [writeGcmd, h1, deleteCmd, h2, h3, h4, deleteGroup_empty h5, decide_false, Bool.or_self, Bool.false_eq_true, if_false]
  have hlog := fallEnded_changes s g.val
  have howner : groupOwner (fallEnded s g.val) g.val = groupOwner s g.val :=
    congrArg BitVec.toNat (hlog.rd_eq (gOff_lt (by decide)) (by simp))
  have hreleased : Changes (fallEnded s g.val) (released (fallEnded s g.val) g.val) (also (parts [.group g.val]) (chargeOf s g.val)) := by
    have hc := released_changes (fallEnded s g.val) g.val
    rwa [chargeOf, howner] at hc
  refine completes_taken (show execDelete g a s = _ from rfl) h hcmd (by simp) ?_ ⟨?_, ?_, ?_⟩
  · rw [entryCleared, changes_wr (by simp), changes_wr (by simp), changes_wr (by simp), changes_wr (by simp)]
    refine Changes.trans (hlog.mono fun _ hp => .inr hp) (hreleased.mono ?_)
    rintro p (hp | hp)
    · exact .inl (.inl (.inr hp))
    · exact .inl (.inr hp)
  · have hword : (entryCleared (released (fallEnded s g.val) g.val) g.val).rd (pgGtab g.val) (gOff g.val 0x20) = 0 := by
      simp [entryCleared, rd_wr_other]
    simp [groupState, State.get, State.rdN, hword, bitsOf]
  · rw [signal_group]
    have hgone : (entryCleared (released (fallEnded s g.val) g.val) g.val).group g.val = GroupRun.reset := released_group ..
    rw [hgone]
    rfl
  · have hword : (entryCleared (released (fallEnded s g.val) g.val) g.val).rd (pgGtab g.val) (gOff g.val 0x24) = 0 := by
      simp [entryCleared, rd_wr_other]
    rw [groupCount, signal_rdN, State.rdN, hword]
    rfl

theorem completes_deleteWaits (h : HostTakes s (pgGtab g.val) (gOff g.val 0x1C) a) (h1 : a.data.toNat % 4 = 2)
    (h2 : groupState s g.val = 3 ∨ groupState s g.val = 4) :
    Completes (.delete g a) s (parts [.group g.val, .signals]) (fun t =>
      t.group g.val = { s.group g.val with deleting := true, deleteMark := nextMark s g.val }) := by
  have hcmd : writeGcmd g.val s a.data = updGroup s g.val (fun r => { r with deleting := true, deleteMark := nextMark s g.val }) := by
    rcases h2 with h2 | h2 <;> simp [writeGcmd, h1, deleteCmd, h2]
  refine completes_taken (show execDelete g a s = _ from rfl) h hcmd (by simp) ((changes_updGroup (by simp)).2 (Changes.refl _ _)) ?_
  rw [signal_group, group_updGroup]

/-! Notices (R265, R266). -/

/-- A member's notice is recorded. -/
def noticed (s : State) (g : Nat) (m : BitVec 16) (dg : W32) (ring : Bool) : State :=
  updGroup s g (fun r => { r with notices := r.notices.filter (fun x => x.1 != m) ++ [(m, dg, ring)] })

theorem noticed_group (s : State) (g : Nat) (m : BitVec 16) (dg : W32) (ring : Bool) :
    (noticed s g m dg ring).group g = { s.group g with notices := (s.group g).notices.filter (fun x => x.1 != m) ++ [(m, dg, ring)] } :=
  group_updGroup ..

theorem noticed_changes (s : State) (g : Nat) (m : BitVec 16) (dg : W32) (ring : Bool) :
    Changes s (noticed s g m dg ring) (parts [.group g]) := (changes_updGroup (by simp)).2 (Changes.refl _ _)

/-- The digest is of members and registers alone. -/
theorem groupDigest_congr {g : Nat} (hr : t.regs = s.regs) (hm : (t.group g).members = (s.group g).members) :
    groupDigest t g = groupDigest s g := by
  have hrd := rd_eq_of_regs hr
  simp only [groupDigest, hm, groupCount, groupCfg, groupDepth, State.get, State.rdN, hrd]

theorem noticed_digest (s : State) (g : Nat) (m : BitVec 16) (dg : W32) (ring : Bool) :
    groupDigest (noticed s g m dg ring) g = groupDigest s g := groupDigest_congr rfl (by rw [noticed_group])

theorem mem_noticed {x : BitVec 16 × W32 × Bool} :
    x ∈ ((noticed s g.val m dg ring).group g.val).notices ↔ x ∈ (s.group g.val).notices ∧ x.1 ≠ m ∨ x = (m, dg, ring) := by
  rw [noticed_group]
  simp

theorem exec_creationNotice (h : groupState s g.val = 1) (h1 : m ∈ (s.group g.val).members) :
    exec (.creationNotice g m dg ring) s = finish (noticesCheck (noticed s g.val m dg ring) g.val) := by
  have htest : ((groupState s g.val = 1 || groupState s g.val = 4) && (s.group g.val).members.contains m) = true := by simp [h, h1]
  show execCreationNotice g m dg ring s = _
  simp only [execCreationNotice, htest, if_true]
  rfl

theorem noticed_agree (h2 : DigestsAgree s g.val) (h3 : dg = groupDigest s g.val) : DigestsAgree (noticed s g.val m dg ring) g.val := by
  intro x hx
  rw [noticed_digest]
  rcases mem_noticed.1 hx with ⟨hold, -⟩ | rfl
  · exact h2 x hold
  · exact h3

theorem completes_notice (h : groupState s g.val = 1) (h1 : m ∈ (s.group g.val).members) (h2 : DigestsAgree s g.val)
    (h3 : dg = groupDigest s g.val) (h4 : ∃ k ∈ (s.group g.val).members, k ≠ m ∧ ∀ x ∈ (s.group g.val).notices, x.1 ≠ k) :
    Completes (.creationNotice g m dg ring) s (parts [.group g.val, .signals]) (fun t =>
      t.group g.val = { s.group g.val with
        notices := (s.group g.val).notices.filter (fun x => x.1 != m) ++ [(m, dg, ring)] } ∧ groupState t g.val = 1) := by
  have hmissing : noticesCheck (noticed s g.val m dg ring) g.val = noticed s g.val m dg ring := by
    obtain ⟨k, hk, hkm, hno⟩ := h4
    refine noticesCheck_missing (.inl h) (noticed_agree h2 h3) ⟨k, by rwa [noticed_group], fun x hx => ?_⟩
    rcases mem_noticed.1 hx with ⟨hold, -⟩ | rfl
    · exact hno x hold
    · exact hkm.symm
  refine completes_finish ((exec_creationNotice h h1).trans (congrArg finish hmissing)) (by simp)
    ((noticed_changes s g.val m dg ring).mono fun _ hp => by simpa using .inl (List.mem_singleton.1 hp)) ⟨?_, (signal_get ..).trans h⟩
  rw [signal_group, noticed_group]

theorem completes_ready (h : groupState s g.val = 1) (h1 : m ∈ (s.group g.val).members) (h2 : DigestsAgree s g.val)
    (h3 : dg = groupDigest s g.val) (h4 : ∀ k ∈ (s.group g.val).members, k ≠ m → ∃ x ∈ (s.group g.val).notices, x.1 = k) :
    Completes (.creationNotice g m dg ring) s (groupParts g.val [0x20]) (fun t =>
      groupState t g.val = 2 ∧ (t.rd (pgGtab g.val) 0x010).getLsbD 0 = true ∧ (t.group g.val).notices = [] ∧
        t.bit (fGroupFall g.val) = (groupCfg s g.val 17 1 == 1 || !ring ||
          (s.group g.val).notices.any (fun x => x.1 != m && !x.2.2))) := by
  have hready : noticesCheck (noticed s g.val m dg ring) g.val = groupReady (noticed s g.val m dg ring) g.val := by
    refine noticesCheck_complete (.inl h) (noticed_agree h2 h3) fun k hk => ?_
    rw [noticed_group] at hk
    by_cases hkm : k = m
    · exact ⟨_, mem_noticed.2 (.inr rfl), hkm.symm⟩
    · obtain ⟨x, hx, hxk⟩ := h4 k hk hkm
      exact ⟨x, mem_noticed.2 (.inl ⟨hx, by rwa [hxk]⟩), hxk⟩
  have hfall : fallsBack (noticed s g.val m dg ring) g.val =
      (groupCfg s g.val 17 1 == 1 || !ring || (s.group g.val).notices.any (fun x => x.1 != m && !x.2.2)) := by
    have hcfg : groupCfg (noticed s g.val m dg ring) g.val 17 1 = groupCfg s g.val 17 1 := rfl
    rw [fallsBack, hcfg, noticed_group]
    simp only [List.any_append, List.any_filter, List.any_cons, List.any_nil, Bool.or_false]
    ac_rfl
  refine completes_finish ((exec_creationNotice h h1).trans (congrArg finish hready)) (by simp) ?_ ⟨?_, ?_, ?_, ?_⟩
  · exact ((noticed_changes s g.val m dg ring).mono fun _ hp => .inr hp).trans (groupReady_changes _ _)
  · exact (signal_get ..).trans (groupReady_state ..)
  · rw [signal_rd]
    exact groupReady_event ..
  · rw [signal_group, groupReady_group]
    rfl
  · rw [signal_bit, groupReady_fall, hfall]

theorem completes_digestDiffers (h : groupState s g.val = 1) (h1 : m ∈ (s.group g.val).members) (h2 : dg ≠ groupDigest s g.val) :
    Completes (.creationNotice g m dg ring) s (also (groupParts g.val [0x20]) (chargeOf s g.val)) (fun t =>
      groupState t g.val = 7 ∧ t.get (fGroupCause g.val) = 6 ∧ EventSet s t (pgGtab g.val) 1) := by
  have hrefused : noticesCheck (noticed s g.val m dg ring) g.val = refuseGroup (noticed s g.val m dg ring) g.val 6 :=
    noticesCheck_differs (.inl h) ⟨_, mem_noticed.2 (.inr rfl), by rwa [noticed_digest]⟩
  refine completes_finish ((exec_creationNotice h h1).trans (congrArg finish hrefused)) (by simp) ?_ ⟨?_, ?_, ?_⟩
  · exact ((noticed_changes s g.val m dg ring).mono fun _ hp => .inl (.inr hp)).trans (refuseGroup_changes _ _ _)
  · exact (signal_get ..).trans (refuseGroup_state ..)
  · exact (signal_get ..).trans (refuseGroup_cause (by decide))
  · exact (signal_rd ..).trans (refuseGroup_event ..)

end Sys2Proof.Claims
end

section
/-! SUPPORT. CREATE (10 R264 to R266): the members are read and told, and a group of this chip alone is READY at once. -/

namespace Sys2Proof.Claims
open Sys2Proof.Machine

variable {s t u : State} {a : Access} {g : Nat}

/-! Notices sent (R265). -/

/-- This chip's own notice is counted. -/
def ownNoticed (s : State) (g : Nat) : State :=
  updGroup s g (fun r => { r with
    notices := r.notices.filter (fun x => x.1.toNat != nodeId s) ++ [(BitVec.ofNat 16 (nodeId s), groupDigest s g, ringReady s g)] })

/-- Every other member is sent the notice. -/
theorem sendNotices_eq (s : State) (g : Nat) :
    sendNotices s g = { ownNoticed s g with
      out := s.out ++ (others s g).map (fun m => Out.creationNotice g m (groupDigest s g) (ringReady s g)) } := by
  have hothers : others (ownNoticed s g) g = others s g := by
    have hnode : nodeId (ownNoticed s g) = nodeId s := rfl
    rw [others, others, hnode, ownNoticed, group_updGroup]
  rw [← hothers]
  exact foldl_emit _ _ (ownNoticed s g)

theorem sendNotices_group (s : State) (g : Nat) :
    (sendNotices s g).group g = { s.group g with
      notices := (s.group g).notices.filter (fun x => x.1.toNat != nodeId s) ++
        [(BitVec.ofNat 16 (nodeId s), groupDigest s g, ringReady s g)] } := by
  rw [sendNotices_eq]
  show (ownNoticed s g).group g = _
  rw [ownNoticed, group_updGroup]

theorem sendNotices_regs (s : State) (g : Nat) : (sendNotices s g).regs = s.regs := by
  rw [sendNotices_eq]
  rfl

theorem sendNotices_rd (s : State) (g page off : Nat) : (sendNotices s g).rd page off = s.rd page off :=
  rd_eq_of_regs (sendNotices_regs s g) page off

theorem sendNotices_ports (s : State) (g : Nat) : (sendNotices s g).ports = s.ports := by
  rw [sendNotices_eq]
  rfl

theorem sendNotices_boot (s : State) (g : Nat) : (sendNotices s g).boot = s.boot := by
  rw [sendNotices_eq]
  rfl

theorem sendNotices_changes (s : State) (g : Nat) : Changes s (sendNotices s g) (parts [.group g, .signals]) := by
  rw [sendNotices_eq, changes_out (by simp), ownNoticed, changes_updGroup (by simp)]
  exact Changes.refl _ _

theorem sendNotices_told {m : BitVec 16} (hm : m ∈ others s g) :
    Out.creationNotice g m (groupDigest s g) (ringReady s g) ∈ (sendNotices s g).out := by
  rw [sendNotices_eq]
  exact List.mem_append_right _ (List.mem_map_of_mem hm)

/-- The other members are those of the list but this chip. -/
theorem others_congr (hn : nodeId t = nodeId s) (hm : (t.group g).members = (s.group g).members) : others t g = others s g := by
  rw [others, others, hn, hm]

/-- Which port reaches a node is a matter of registers and ports alone. -/
theorem portTo_congr (hr : t.regs = s.regs) (hp : t.ports = s.ports) (node : Nat) : portTo t node = portTo s node := by
  have hrd := rd_eq_of_regs hr
  simp only [portTo, portMembers, portOf, farNode, linkRole, trained, linkState, State.get, State.rdN, hrd, hp]

theorem ringReady_congr (hr : t.regs = s.regs) (hp : t.ports = s.ports) (hm : (t.group g).members = (s.group g).members) :
    ringReady t g = ringReady s g := by
  have hcount : groupCount t g = groupCount s g := congrArg BitVec.toNat (rd_eq_of_regs hr ..)
  have hrank : t.get (fGroupRank g) = s.get (fGroupRank g) := get_eq_of_rd (rd_eq_of_regs hr ..)
  have hmember (r : Nat) : memberAt t g r = memberAt s g r := by rw [memberAt, memberAt, hm]
  simp only [ringReady, hcount, hrank, hmember, portTo_congr hr hp]

/-- Until then only this chip's own notice has come. -/
theorem sendNotices_onlyOwn (h : (s.group g).notices = []) {x : BitVec 16 × W32 × Bool}
    (hx : x ∈ ((sendNotices s g).group g).notices) : x = (BitVec.ofNat 16 (nodeId s), groupDigest s g, ringReady s g) := by
  rw [sendNotices_group, h] at hx
  simpa using hx

theorem sendNotices_agree (h : (s.group g).notices = []) : DigestsAgree (sendNotices s g) g := by
  intro x hx
  rw [sendNotices_onlyOwn h hx, groupDigest_congr (sendNotices_regs s g) (by rw [sendNotices_group])]

/-- With another member the group waits for its notice. -/
theorem noticesCheck_sent (hw : Waiting (sendNotices s g) g) (h : (s.group g).notices = [])
    (hm : ∃ m ∈ (s.group g).members, m.toNat ≠ nodeId s) : noticesCheck (sendNotices s g) g = sendNotices s g := by
  obtain ⟨m, hmem, hother⟩ := hm
  refine noticesCheck_missing hw (sendNotices_agree h) ⟨m, by rwa [sendNotices_group], fun x hx he => hother ?_⟩
  rw [sendNotices_onlyOwn h hx] at he
  rw [← he, BitVec.toNat_ofNat, Nat.mod_eq_of_lt (nodeId_lt s)]

/-! What CREATE has checked (R264). -/

/-- With no failing cause the members fit, this chip is one of them, none is there twice, and the entry is the host's or a berth's. -/
theorem createCause_none (h : createCause s g = 0) :
    (memberWords s g).length ≤ 49152 ∧ (∀ w ∈ memberWords s g, w < 65536) ∧
      ((memberWords s g).filter (fun w => w == nodeId s)).length = 1 := by
  simp only [createCause] at h
  split at h
  · cases h
  rename_i hcfg
  split at h
  · cases h
  split at h
  · cases h
  rename_i harray
  split at h
  · cases h
  rename_i hself
  simp only [Bool.or_eq_true, decide_eq_true_eq, not_or, Nat.not_lt] at hcfg
  obtain ⟨⟨⟨⟨⟨⟨-, hn⟩, -⟩, -⟩, -⟩, -⟩, -⟩ := hcfg
  simp only [Bool.or_eq_true, Bool.not_eq_true', List.any_eq_true, decide_eq_true_eq, not_or, not_exists, not_and, Nat.not_le] at harray
  simp only [Bool.or_eq_true, decide_eq_true_eq, not_or, not_not] at hself
  exact ⟨by rw [memberWords, List.length_map, List.length_range]; exact hn, harray.2, hself.1⟩

/-! The rank of this chip. -/

theorem nth_eq_getElem? {α : Type} (l : List α) (i : Nat) : nth l i = l[i]? := by
  induction l generalizing i with
  | nil => rfl
  | cons x l ih =>
    cases i with
    | zero => rfl
    | succ i => exact ih i

/-- A chip among the members is at its rank. -/
theorem rankIn_of_mem {ms : List (BitVec 16)} (h : ∃ m ∈ ms, m.toNat = nodeId s) :
    rankIn s ms < ms.length ∧ (nth ms (rankIn s ms)).getD 0 = BitVec.ofNat 16 (nodeId s) := by
  obtain ⟨m, hm, hnode⟩ := h
  obtain ⟨i, hi, hmi⟩ := List.getElem_of_mem hm
  have hpair : (m, i) ∈ ms.zipIdx := by
    rw [List.mem_zipIdx_iff_getElem?, ← hmi]
    exact List.getElem?_eq_getElem hi
  cases hf : ms.zipIdx.find? (fun x => x.1.toNat == nodeId s) with
  | none => exact absurd (beq_iff_eq.2 hnode) (List.find?_eq_none.1 hf _ hpair)
  | some x =>
    have hrank : rankIn s ms = x.2 := by rw [rankIn, hf]; rfl
    have hx : ms[x.2]? = some x.1 := List.mem_zipIdx_iff_getElem?.1 (List.mem_of_find?_eq_some hf)
    have hself : x.1.toNat = nodeId s := by simpa using List.find?_some hf
    rw [hrank, nth_eq_getElem?, hx, ← hself]
    exact ⟨(List.getElem?_eq_some_iff.1 hx).1, by simp⟩

/-! The group formed (R265). -/

/-- The members as CREATE reads them. -/
abbrev readMembers (s : State) (g : Nat) : List (BitVec 16) := (memberWords s g).map (BitVec.ofNat 16)

/-- The members are read, the staging granules charged, and COUNT, NEXT_SEQ and EPOCH begin. -/
def groupCharged (s : State) (g : Nat) : State :=
  (((((chargeTier0 s (groupOwner s g) (stageGranules s g)).setGroup g
    { GroupRun.reset with members := readMembers s g, charged := stageGranules s g }).wrN (pgGtab g) (gOff g 0x24) (readMembers s g).length).wr
      (pgGtab g) (gOff g 0x28) 0).wr (pgGtab g) (gOff g 0x2C) 0)

/-- … and the entry is CREATING, with this chip's rank. -/
def groupFormed (s : State) (g : Nat) : State :=
  (groupCharged s g).wrN (pgGtab g) (gOff g 0x20) (1 + rankIn (groupCharged s g) (readMembers s g) * 2 ^ 8)

theorem createGroup_eq (h2 : groupState s g = 0 ∨ groupState s g = 7) (h3 : createCause s g = 0) :
    createGroup s g = noticesCheck (sendNotices (groupFormed s g) g) g := by
  have hfree : (groupState s g ≠ 0 && groupState s g ≠ 7) = false := by rcases h2 with h2 | h2 <;> simp [h2]
  simp only [createGroup, hfree, h3, Bool.false_eq_true, if_false]
  rfl

theorem groupCharged_changes (s : State) (g : Nat) :
    Changes s (groupCharged s g) (also (groupParts g [0x20, 0x24, 0x28, 0x2C]) (chargeOf s g)) := by
  rw [groupCharged, changes_wr (by simp), changes_wr (by simp), changes_wrN (by simp), changes_setGroup (by simp),
    changes_chargeTier0 (by simp)]
  exact Changes.refl _ _

theorem groupFormed_changes (s : State) (g : Nat) :
    Changes s (groupFormed s g) (also (groupParts g [0x20, 0x24, 0x28, 0x2C]) (chargeOf s g)) :=
  (changes_wrN (by simp)).2 (groupCharged_changes s g)

theorem groupFormed_group (s : State) (g : Nat) :
    (groupFormed s g).group g = { GroupRun.reset with members := readMembers s g, charged := stageGranules s g } := group_setGroup_same ..

/-- Where a group's entry and its berth's charge may change, this chip's node id may not. -/
theorem nodeId_of_groupParts {offs : List Nat} (hc : Changes s t (also (groupParts g offs) (chargeOf s g))) (hoffs : ∀ x ∈ offs, x < 0x40) :
    nodeId t = nodeId s := by
  refine nodeId_congr (hc .boot (by simp)) (get_eq_of_word (hc.rd_eq (by decide) ?_))
  have hlt : ∀ x ∈ 0x240 :: offs.map (gOff g), x < 4096 := by simpa using fun x hx => gOff_lt (hoffs x hx)
  have hpage : pgTopo ≠ pgGtab g := by unfold pgGtab pgTopo; omega
  rintro ((hm | hm) | hm)
  · exact hpage (word_of_wordsAndEvent hm (by decide) hlt).1
  · simp at hm
  · obtain ⟨-, hoff⟩ := (regKey_inj (by decide) (by decide)).1 (Part.reg.inj (List.mem_singleton.1 hm))
    exact absurd hoff (by decide)

theorem groupCharged_nodeId (s : State) (g : Nat) : nodeId (groupCharged s g) = nodeId s :=
  nodeId_of_groupParts (groupCharged_changes s g) (by decide)

theorem groupFormed_nodeId (s : State) (g : Nat) : nodeId (groupFormed s g) = nodeId s :=
  nodeId_of_groupParts (groupFormed_changes s g) (by decide)

/-- This chip is one of the members that CREATE accepts. -/
theorem own_mem_readMembers (h : createCause s g = 0) : ∃ m ∈ readMembers s g, m.toNat = nodeId s := by
  obtain ⟨-, -, hself⟩ := createCause_none h
  obtain ⟨w, hw⟩ := List.exists_mem_of_length_pos (show 0 < ((memberWords s g).filter (fun w => w == nodeId s)).length by omega)
  obtain ⟨hmem, he⟩ := List.mem_filter.1 hw
  obtain rfl : w = nodeId s := beq_iff_eq.1 he
  exact ⟨BitVec.ofNat 16 (nodeId s), List.mem_map_of_mem hmem, by rw [BitVec.toNat_ofNat, Nat.mod_eq_of_lt (nodeId_lt s)]⟩

/-- Of two or more members some are others. -/
theorem other_mem_readMembers (h : createCause s g = 0) (h4 : 2 ≤ (memberWords s g).length) : ∃ m ∈ readMembers s g, m.toNat ≠ nodeId s := by
  obtain ⟨-, hfit, hself⟩ := createCause_none h
  by_contra hall
  have hown : ∀ w ∈ memberWords s g, (w == nodeId s) = true := by
    intro w hw
    by_contra hne
    refine hall ⟨BitVec.ofNat 16 w, List.mem_map_of_mem hw, ?_⟩
    rw [BitVec.toNat_ofNat, Nat.mod_eq_of_lt (hfit w hw)]
    simpa using hne
  rw [List.filter_eq_self.2 hown] at hself
  omega

/-- Its rank fits its field, and is where it stands in the list. -/
theorem groupFormed_rankIn (h : createCause s g = 0) :
    rankIn (groupCharged s g) (readMembers s g) < 2 ^ 16 ∧
      (nth (readMembers s g) (rankIn (groupCharged s g) (readMembers s g))).getD 0 = BitVec.ofNat 16 (nodeId s) := by
  obtain ⟨hn, -, -⟩ := createCause_none h
  have hown := own_mem_readMembers h
  rw [← groupCharged_nodeId s g] at hown
  obtain ⟨hlt, hmember⟩ := rankIn_of_mem hown
  rw [List.length_map] at hlt
  rw [groupCharged_nodeId] at hmember
  exact ⟨by omega, hmember⟩

theorem groupFormed_status (h : createCause s g = 0) :
    (groupFormed s g).rdN (pgGtab g) (gOff g 0x20) = 1 + rankIn (groupCharged s g) (readMembers s g) * 2 ^ 8 := by
  have hrank := (groupFormed_rankIn h).1
  exact rdN_wrN_same _ _ _ (by omega)

theorem groupFormed_state (h : createCause s g = 0) : groupState (groupFormed s g) g = 1 := by
  rw [groupState, State.get, groupFormed_status h]
  show (1 + rankIn (groupCharged s g) (readMembers s g) * 2 ^ 8) / 2 ^ 0 % 2 ^ 3 = 1
  omega

theorem groupFormed_rank (h : createCause s g = 0) :
    (groupFormed s g).get (fGroupRank g) = rankIn (groupCharged s g) (readMembers s g) := by
  have hrank := (groupFormed_rankIn h).1
  rw [State.get, groupFormed_status h]
  show (1 + rankIn (groupCharged s g) (readMembers s g) * 2 ^ 8) / 2 ^ 8 % 2 ^ 16 = _
  omega

theorem groupFormed_count (h : createCause s g = 0) : groupCount (groupFormed s g) g = (memberWords s g).length := by
  obtain ⟨hn, -, -⟩ := createCause_none h
  have hword : (groupFormed s g).rd (pgGtab g) (gOff g 0x24) = BitVec.ofNat 32 (readMembers s g).length := by
    simp [groupFormed, groupCharged, rd_wr_other, State.wrN]
  rw [groupCount, State.rdN, hword, List.length_map, BitVec.toNat_ofNat, Nat.mod_eq_of_lt (by omega)]

theorem groupFormed_nextSeq (s : State) (g : Nat) : nextSeq (groupFormed s g) g = 0 := by
  simp [nextSeq, groupFormed, groupCharged, rd_wr_other, State.wrN]

/-! The rows. -/

variable {g : Fin 64}

theorem exec_create (h1 : a.data.toNat % 4 = 1) (h2 : groupState s g.val = 0 ∨ groupState s g.val = 7) (h3 : createCause s g.val = 0) :
    writeGcmd g.val s a.data = noticesCheck (sendNotices (groupFormed s g.val) g.val) g.val := by
  simp only [writeGcmd, h1, createGroup_eq h2 h3]

theorem completes_create (h : HostTakes s (pgGtab g.val) (gOff g.val 0x1C) a) (h1 : a.data.toNat % 4 = 1)
    (h2 : groupState s g.val = 0 ∨ groupState s g.val = 7) (h3 : createCause s g.val = 0) (h4 : 2 ≤ (memberWords s g.val).length) :
    Completes (.create g a) s (also (groupParts g.val [0x20, 0x24, 0x28, 0x2C]) (chargeOf s g.val)) (fun t =>
      groupState t g.val = 1 ∧ (t.group g.val).members = (memberWords s g.val).map (BitVec.ofNat 16) ∧
        groupCount t g.val = (memberWords s g.val).length ∧ nextSeq t g.val = 0 ∧
        memberAt t g.val (t.get (fGroupRank g.val)) = BitVec.ofNat 16 (nodeId s) ∧
        ∀ m ∈ others t g.val, Out.creationNotice g.val m (groupDigest t g.val) (ringReady t g.val) ∈ t.out) := by
  have hnone : ((groupFormed s g.val).group g.val).notices = [] := by rw [groupFormed_group]; rfl
  have hmembers : ((groupFormed s g.val).group g.val).members = readMembers s g.val := by rw [groupFormed_group]
  have hregs : (signal (sendNotices (groupFormed s g.val) g.val)).regs = (groupFormed s g.val).regs :=
    (signal_regs _).trans (sendNotices_regs ..)
  have hrd := rd_eq_of_regs hregs
  have hkept : ((signal (sendNotices (groupFormed s g.val) g.val)).group g.val).members = ((groupFormed s g.val).group g.val).members := by
    rw [signal_group, sendNotices_group]
  have hstate : groupState (sendNotices (groupFormed s g.val) g.val) g.val = 1 :=
    (get_eq_of_word (sendNotices_rd ..)).trans (groupFormed_state h3)
  have hwaits : noticesCheck (sendNotices (groupFormed s g.val) g.val) g.val = sendNotices (groupFormed s g.val) g.val := by
    refine noticesCheck_sent (.inl hstate) hnone ?_
    rw [groupFormed_nodeId, hmembers]
    exact other_mem_readMembers h3 h4
  refine completes_taken (show execCreate g a s = _ from rfl) h ((exec_create h1 h2 h3).trans hwaits) (by simp) ?_ ⟨?_, ?_, ?_, ?_, ?_, ?_⟩
  · exact (groupFormed_changes s g.val).trans ((sendNotices_changes _ _).mono fun p hp => by
      simp only [List.mem_cons, List.not_mem_nil, or_false] at hp
      rcases hp with rfl | rfl <;> simp)
  · exact (signal_get ..).trans hstate
  · exact hkept.trans hmembers
  · exact (congrArg BitVec.toNat (hrd ..)).trans (groupFormed_count h3)
  · exact (hrd ..).trans (groupFormed_nextSeq ..)
  · rw [get_eq_of_rd (hrd ..), groupFormed_rank h3, memberAt, hkept, hmembers]
    exact (groupFormed_rankIn h3).2
  · intro m hm
    have hports : (signal (sendNotices (groupFormed s g.val) g.val)).ports = (groupFormed s g.val).ports :=
      (signal_ports _).trans (sendNotices_ports ..)
    have hnode : nodeId (signal (sendNotices (groupFormed s g.val) g.val)) = nodeId (groupFormed s g.val) :=
      nodeId_congr ((signal_boot _).trans (sendNotices_boot ..)) (get_eq_of_rd (hrd ..))
    rw [others_congr hnode hkept] at hm
    rw [groupDigest_congr hregs hkept, ringReady_congr hregs hports hkept]
    exact mem_out_signal (sendNotices_told hm)

theorem readMembers_alone {g : Nat} (h : createCause s g = 0) (h4 : (memberWords s g).length = 1) :
    readMembers s g = [BitVec.ofNat 16 (nodeId s)] := by
  obtain ⟨m, hm, hnode⟩ := own_mem_readMembers h
  obtain ⟨k, hk⟩ := List.length_eq_one_iff.1 (show (readMembers s g).length = 1 by rw [List.length_map, h4])
  rw [hk, List.mem_singleton] at hm
  rw [hk, ← hm, ← hnode, BitVec.ofNat_toNat, BitVec.setWidth_eq]

theorem completes_createAlone (h : HostTakes s (pgGtab g.val) (gOff g.val 0x1C) a) (h1 : a.data.toNat % 4 = 1)
    (h2 : groupState s g.val = 0 ∨ groupState s g.val = 7) (h3 : createCause s g.val = 0) (h4 : (memberWords s g.val).length = 1) :
    Completes (.create g a) s (also (groupParts g.val [0x20, 0x24, 0x28, 0x2C]) (chargeOf s g.val)) (fun t =>
      groupState t g.val = 2 ∧ (t.rd (pgGtab g.val) 0x010).getLsbD 0 = true ∧ groupCount t g.val = 1 ∧ nextSeq t g.val = 0 ∧
        (t.group g.val).members = [BitVec.ofNat 16 (nodeId s)]) := by
  have hnone : ((groupFormed s g.val).group g.val).notices = [] := by rw [groupFormed_group]; rfl
  have hmembers : ((sendNotices (groupFormed s g.val) g.val).group g.val).members = [BitVec.ofNat 16 (nodeId s)] := by
    rw [sendNotices_group, groupFormed_group]
    exact readMembers_alone h3 h4
  have hstate : groupState (sendNotices (groupFormed s g.val) g.val) g.val = 1 :=
    (get_eq_of_word (sendNotices_rd ..)).trans (groupFormed_state h3)
  have hready : noticesCheck (sendNotices (groupFormed s g.val) g.val) g.val = groupReady (sendNotices (groupFormed s g.val) g.val) g.val := by
    refine noticesCheck_complete (.inl hstate) (sendNotices_agree hnone) fun m hm => ?_
    rw [hmembers, List.mem_singleton] at hm
    rw [sendNotices_group, groupFormed_nodeId]
    exact ⟨_, List.mem_append_right _ (List.mem_singleton_self _), hm.symm⟩
  have hentry {o : Nat} (ho : o < 0x40) (hne : o ≠ 0x20) :
      (signal (groupReady (sendNotices (groupFormed s g.val) g.val) g.val)).rd (pgGtab g.val) (gOff g.val o) =
        (groupFormed s g.val).rd (pgGtab g.val) (gOff g.val o) :=
    (signal_rd ..).trans ((entry_of_groupParts (groupReady_changes _ _) ho (by simpa using hne) (by decide)).trans (sendNotices_rd ..))
  refine completes_taken (show execCreate g a s = _ from rfl) h ((exec_create h1 h2 h3).trans hready) (by simp) ?_ ⟨?_, ?_, ?_, ?_, ?_⟩
  · refine (groupFormed_changes s g.val).trans (((sendNotices_changes _ _).mono ?_).trans ((groupReady_changes _ _).mono ?_))
    · intro p hp
      simp only [List.mem_cons, List.not_mem_nil, or_false] at hp
      rcases hp with rfl | rfl <;> simp
    · rintro p ((hp | hp) | hp)
      · exact .inl (.inl (.inl (words_mono (by simp) hp)))
      · exact .inl (.inl (.inr hp))
      · exact .inl (.inr hp)
  · exact (signal_get ..).trans (groupReady_state ..)
  · rw [signal_rd]
    exact groupReady_event ..
  · exact (congrArg BitVec.toNat (hentry (by decide) (by decide))).trans ((groupFormed_count h3).trans h4)
  · exact (hentry (by decide) (by decide)).trans (groupFormed_nextSeq ..)
  · rw [signal_group, groupReady_group]
    exact hmembers

end Sys2Proof.Claims
end

section
/-! SUPPORT. Writes of memory that may meet uncorrectable units (12 R325, R328). -/

namespace Sys2Proof.Claims
open Sys2Proof.Machine

variable {s t : State} {may : Part → Prop} {a n : Nat} {bs : List Byte}

/-- The merge read of an uncorrectable unit is counted and reported by its stack. -/
theorem uncorrectable_changes (s : State) (a b n : Nat) : Changes s (uncorrectable s a) (writesAt b n) := by
  unfold uncorrectable
  split
  · rename_i k off hk
    have hstack (p : Part) (hp : wordsAndEvent (pgHs k) [0x044, 0x060, 0x064] p) : writesAt b n p := .inr (.inr (.inr ⟨k, stack_lt hk, hp⟩))
    rw [changes_raise (fun _ hx => hstack _ (.inr (eventParts_of_mem hx))) (hstack _ (by simp)), changes_incSat (hstack _ (by simp))]
    exact Changes.refl _ _
  · exact Changes.refl _ _

theorem countHbm_writes (s : State) (a n b m : Nat) : Changes s (countHbm s a n 0x060) (writesAt b m) := by
  rcases countHbm_cases s a n 0x060 with he | ⟨k, hk, he⟩ <;> rw [he]
  · exact Changes.refl _ _
  · have hstack (o : Nat) (ho : o ∈ [0x044, 0x060, 0x064]) : writesAt b m (.reg (regKey (pgHs k) o)) :=
      .inr (.inr (.inr ⟨k, hk, .inl (.inr ⟨o, ho, rfl⟩)⟩))
    exact (changes_add64 (hstack _ (by simp)) (hstack _ (by simp))).2 (Changes.refl _ _)

/-- Whatever units it meets, a write changes its bytes, units, tiles and counters, and nothing else. -/
theorem memWrite_writes (s : State) (a : Nat) (bs : List Byte) : Changes s (memWrite s a bs) (writesAt a bs.length) := by
  simp only [memWrite]
  rw [changes_foldl_mem fun u _ t => uncorrectable_changes t (32 * u) a bs.length, dirtyTiles, changes_tierMoves (.inr (.inr (.inl rfl))),
    changes_poison (.inr (.inl rfl))]
  refine (countHbm_writes s a bs.length a bs.length).trans ?_
  split
  · exact (changes_storeBytes fun i hi => .inl ⟨i, hi, rfl⟩).2 (Changes.refl _ _)
  · refine (changes_foldl_mem fun x hx t => ?_).2 (Changes.refl _ _)
    have hlt : x.2 < bs.length := by simpa using (List.mem_zipIdx hx).2.1
    split
    · exact Changes.refl _ _
    · exact (changes_storeByte (.inl ⟨x.2, hlt, rfl⟩)).2 (Changes.refl _ _)

/-- Every register word but the stacks' reads as before a write of memory. -/
theorem rd_of_writesAt (hc : Changes s t (writesAt a n)) {page off : Nat} (ho : off < 4096) (hp : page < 0x200 ∨ 0x220 ≤ page) :
    t.rd page off = s.rd page off := by
  refine hc.rd_eq ho ?_
  rintro (⟨i, -, hm⟩ | hm | hm | ⟨k, hk, hm⟩)
  · cases hm
  · cases hm
  · cases hm
  · have hpage := (word_of_wordsAndEvent hm ho (by simp)).1
    unfold pgHs at hpage
    omega

end Sys2Proof.Claims
end

section
/-! SUPPORT. The queue of a group (10 R268, R270, R285; 17 R445): its tail, and descriptors that complete at once. -/

namespace Sys2Proof.Claims
open Sys2Proof.Machine

variable {s t : State} {a : Access} {g : Fin 64} {c : Nat}

/-! TAIL (R268). -/

theorem writeCqTail_within {v : W32} (h : (v.toNat % 2 ^ 17 + 2 ^ 17 - qHead s g.val) % 2 ^ 17 ≤ qSize s g.val) :
    writeCqTail g.val s v = s.wrN (pgCq g.val) 0x050 (v.toNat % 2 ^ 17) := if_neg (Nat.not_lt.2 h)

theorem qTail_written (s : State) (g v : Nat) : qTail (signal (s.wrN (pgCq g) 0x050 (v % 2 ^ 17))) g = v % 2 ^ 17 :=
  (signal_rdN ..).trans (rdN_wrN_same _ _ _ (by omega))

theorem completes_tail (h : HostTakes s (pgCq g.val) 0x050 a)
    (h1 : (a.data.toNat % 2 ^ 17 + 2 ^ 17 - qHead s g.val) % 2 ^ 17 ≤ qSize s g.val) :
    Completes (.tail g a) s (words (pgCq g.val) [0x050]) (fun t => qTail t g.val = a.data.toNat % 2 ^ 17) :=
  completes_taken (show execTail g a s = _ from rfl) h (writeCqTail_within h1) (by simp) (by simp) (qTail_written ..)

theorem completes_tailPast (h : HostTakes s (pgCq g.val) 0x050 a)
    (h1 : qSize s g.val < (a.data.toNat % 2 ^ 17 + 2 ^ 17 - qHead s g.val) % 2 ^ 17) :
    Completes (.tail g a) s (wordsAndEvent (pgCq g.val) []) (fun t => EventSet s t (pgCq g.val) 2) :=
  completes_taken (show execTail g a s = _ from rfl) h (show writeCqTail g.val s a.data = _ from if_pos h1) (by simp)
    ((raise_changes s (pgCq g.val) 2 0x6202).mono fun _ hp => .inr hp) ((signal_rd ..).trans (eventSet_raise ..))

/-- A doorbell that is taken has the effect of the write that it stands for. -/
theorem doorbellWrite_taken {page off : Nat} {effect : State → W32 → State} (h : DoorbellTaken s page a) :
    doorbellWrite page off a effect s = finish (effect s a.data) := by
  obtain ⟨hup, hopen, hbe, hfunc, hlock⟩ := h
  have hown : (decide (a.func.val ≠ 0) && (vfBerth s a.func.val == none || vfBerth s a.func.val != some (pageOwner s page))) = false := by
    rcases hfunc with hf | hf <;> simp [hf]
  have hstream : (pageLocked s page && !onOwnersStream s page a) = false := by
    cases hl : pageLocked s page with
    | false => rfl
    | true => rw [hlock hl]; rfl
  simp only [doorbellWrite, hup, hopen, hbe, hstream, ne_eq, not_true, decide_false, Bool.not_true, Bool.or_self, Bool.false_eq_true, if_false,
    Bool.false_or, Bool.or_false]
  exact if_neg (by rw [hown]; decide)

theorem completes_doorbell (h : DoorbellTaken s (pgCq g.val) a)
    (h1 : (a.data.toNat % 2 ^ 17 + 2 ^ 17 - qHead s g.val) % 2 ^ 17 ≤ qSize s g.val) :
    Completes (.cqDb g a) s (words (pgCq g.val) [0x050]) (fun t => qTail t g.val = a.data.toNat % 2 ^ 17) :=
  completes_finish ((show execCqDb g a s = _ from doorbellWrite_taken h).trans (congrArg finish (writeCqTail_within h1))) (by simp) (by simp)
    (qTail_written ..)

/-! A descriptor completes (R270, R278). -/

/-- The descriptor's STATUS is in memory. -/
def statusStored (s : State) (addr st : Nat) : State := if onePlace addr 64 then memWrite s (addr + 56) (bytesLE 4 st) else s

/-- HEAD moves on; NEXT_SEQ too, but where SEQ was the cause. -/
def headMoved (s : State) (g cause : Nat) : State :=
  let u := s.wrN (pgCq g) 0x04C ((qHead s g + 1) % 2 ^ 17)
  if cause = 2 then u else u.wr (pgGtab g) (gOff g 0x28) (nextSeq u g + 1)

/-- All of a completion but its event. -/
def descCompleted (s : State) (g addr : Nat) (d : CollDesc) (code cause : Nat) : State :=
  ((headMoved (statusStored s addr (code + 2 ^ 16 + 0 * 2 ^ 16 + cause * 2 ^ 20)) g cause).wr (pgCq g) 0x064 d.seq).wrN (pgCq g) 0x068
    (code + cause * 2 ^ 16)

theorem completeDesc_refused (s : State) (g addr : Nat) (d : CollDesc) (c : Nat) :
    completeDesc s g addr d 0x6202 c 0 = cqEvent (descCompleted s g addr d 0x6202 c) g 2 0x6202 := rfl

theorem completeDesc_aborted (s : State) (g addr : Nat) (d : CollDesc) :
    completeDesc s g addr d 0x6001 0 0 = cqEvent (descCompleted s g addr d 0x6001 0) g 5 0x6001 := rfl

theorem statusStored_changes (s : State) (addr st : Nat) : Changes s (statusStored s addr st) (writesAt (addr + 56) 4) := by
  unfold statusStored
  split
  · exact memWrite_writes s (addr + 56) (bytesLE 4 st)
  · exact Changes.refl _ _

/-- The queue's page is not the entry's. -/
theorem pgCq_ne_pgGtab (g : Fin 64) : pgCq g.val ≠ pgGtab g.val := by
  have hg := g.isLt
  unfold pgCq pgGtab
  omega

theorem rd_statusStored_cq {addr st off : Nat} (ho : off < 4096) : (statusStored s addr st).rd (pgCq g.val) off = s.rd (pgCq g.val) off :=
  rd_of_writesAt (statusStored_changes s addr st) ho (.inl (by unfold pgCq; omega))

theorem rd_statusStored_gtab {addr st off : Nat} (ho : off < 4096) :
    (statusStored s addr st).rd (pgGtab g.val) off = s.rd (pgGtab g.val) off :=
  rd_of_writesAt (statusStored_changes s addr st) ho (.inl (by unfold pgGtab; omega))

/-- A word of the entry is none of the queue's. -/
theorem rd_wr_cq_entry {off o : Nat} {v : W32} (h : o < 0x40) (ho : off < 4096) :
    (s.wr (pgCq g.val) off v).rd (pgGtab g.val) (gOff g.val o) = s.rd (pgGtab g.val) (gOff g.val o) :=
  rd_wr_other _ _ fun hk => pgCq_ne_pgGtab g ((regKey_inj (gOff_lt h) ho).1 hk).1.symm

theorem rd_wr_entry_cq {off o : Nat} {v : W32} (h : o < 0x40) (ho : off < 4096) :
    (s.wr (pgGtab g.val) (gOff g.val o) v).rd (pgCq g.val) off = s.rd (pgCq g.val) off :=
  rd_wr_other _ _ fun hk => pgCq_ne_pgGtab g ((regKey_inj ho (gOff_lt h)).1 hk).1

theorem headMoved_head (s : State) (g : Fin 64) (c : Nat) : qHead (headMoved s g.val c) g.val = (qHead s g.val + 1) % 2 ^ 17 := by
  have hword : (headMoved s g.val c).rd (pgCq g.val) 0x04C = (s.wrN (pgCq g.val) 0x04C ((qHead s g.val + 1) % 2 ^ 17)).rd (pgCq g.val) 0x04C := by
    simp only [headMoved]
    split
    · rfl
    · exact rd_wr_entry_cq (by decide) (by decide)
  exact (congrArg BitVec.toNat hword).trans (rdN_wrN_same _ _ _ (by omega))

theorem headMoved_nextSeq (s : State) (g : Fin 64) (c : Nat) :
    nextSeq (headMoved s g.val c) g.val = if c = 2 then nextSeq s g.val else nextSeq s g.val + 1 := by
  have hsame (v : W32) : nextSeq (s.wr (pgCq g.val) 0x04C v) g.val = nextSeq s g.val := rd_wr_cq_entry (by decide) (by decide)
  simp only [headMoved]
  split
  · exact hsame _
  · exact (rd_wr_same ..).trans (congrArg (· + 1) (hsame _))

/-- The other words of the queue's page stay. -/
theorem headMoved_rd {off : Nat} (ho : off < 4096) (hne : off ≠ 0x04C) : (headMoved s g.val c).rd (pgCq g.val) off = s.rd (pgCq g.val) off := by
  have hsame (v : W32) : (s.wr (pgCq g.val) 0x04C v).rd (pgCq g.val) off = s.rd (pgCq g.val) off := rd_wr_other _ _ (regKey_ne hne)
  simp only [headMoved]
  split
  · exact hsame _
  · exact (rd_wr_entry_cq (by decide) ho).trans (hsame _)

theorem headMoved_changes (s : State) (g c : Nat) :
    Changes s (headMoved s g c) (also (words (pgCq g) [0x04C]) (words (pgGtab g) [gOff g 0x28])) := by
  simp only [headMoved]
  split <;> simp

/-- What the completion of the descriptor at `addr` changes. -/
abbrev completionAt (g addr : Nat) : Part → Prop :=
  also (also (wordsAndEvent (pgCq g) [0x04C, 0x064, 0x068]) (words (pgGtab g) [gOff g 0x28])) (writesAt (addr + 56) 4)

theorem descCompleted_changes (s : State) (g addr : Nat) (d : CollDesc) (code cause : Nat) :
    Changes s (descCompleted s g addr d code cause) (completionAt g addr) := by
  rw [descCompleted, changes_wrN (by simp), changes_wr (by simp)]
  refine ((statusStored_changes s addr _).mono fun _ hp => .inr hp).trans ((headMoved_changes _ g cause).mono ?_)
  rintro p (hp | hp)
  · exact .inl (.inl (.inl (words_mono (by simp) hp)))
  · exact .inl (.inr hp)

theorem descCompleted_head (s : State) (g : Fin 64) (addr : Nat) (d : CollDesc) (code cause : Nat) :
    qHead (descCompleted s g.val addr d code cause) g.val = (qHead s g.val + 1) % 2 ^ 17 := by
  have hword (u : State) (v w : W32) : ((u.wr (pgCq g.val) 0x064 v).wr (pgCq g.val) 0x068 w).rd (pgCq g.val) 0x04C = u.rd (pgCq g.val) 0x04C :=
    (rd_wr_other _ _ (regKey_ne (by decide))).trans (rd_wr_other _ _ (regKey_ne (by decide)))
  have hstored (st : Nat) : qHead (statusStored s addr st) g.val = qHead s g.val := congrArg BitVec.toNat (rd_statusStored_cq (by decide))
  refine (congrArg BitVec.toNat (hword ..)).trans ((headMoved_head ..).trans ?_)
  rw [hstored]

theorem descCompleted_nextSeq (s : State) (g : Fin 64) (addr : Nat) (d : CollDesc) (code cause : Nat) :
    nextSeq (descCompleted s g.val addr d code cause) g.val = if cause = 2 then nextSeq s g.val else nextSeq s g.val + 1 := by
  have hword (u : State) (v w : W32) : nextSeq ((u.wr (pgCq g.val) 0x064 v).wr (pgCq g.val) 0x068 w) g.val = nextSeq u g.val :=
    (rd_wr_cq_entry (by decide) (by decide)).trans (rd_wr_cq_entry (by decide) (by decide))
  have hstored (st : Nat) : nextSeq (statusStored s addr st) g.val = nextSeq s g.val := rd_statusStored_gtab (gOff_lt (by decide))
  refine (hword ..).trans ((headMoved_nextSeq ..).trans ?_)
  rw [hstored]

theorem descCompleted_lastSeq (s : State) (g addr : Nat) (d : CollDesc) (code cause : Nat) :
    (descCompleted s g addr d code cause).rd (pgCq g) 0x064 = d.seq :=
  (rd_wr_other _ _ (regKey_ne (by decide))).trans (rd_wr_same ..)

theorem descCompleted_lastCode (s : State) (g addr : Nat) (d : CollDesc) {code cause : Nat} (h : code + cause * 2 ^ 16 < 2 ^ 32) :
    (descCompleted s g addr d code cause).rdN (pgCq g) 0x068 = code + cause * 2 ^ 16 := rdN_wrN_same _ _ _ h

theorem descCompleted_evt (s : State) (g : Fin 64) (addr : Nat) (d : CollDesc) (code cause : Nat) :
    (descCompleted s g.val addr d code cause).rd (pgCq g.val) 0x010 = s.rd (pgCq g.val) 0x010 :=
  (rd_wr_other _ _ (regKey_ne (by decide))).trans ((rd_wr_other _ _ (regKey_ne (by decide))).trans
    ((headMoved_rd (by decide) (by decide)).trans (rd_statusStored_cq (by decide))))

/-- An event of the queue leaves every other word of its page, and other pages. -/
theorem cqEvent_rd {page off bit code : Nat} (ho : off < 4096) (h : page ≠ pgCq g.val ∨ off ∉ [0x010, 0x01C, 0x020, 0x024]) :
    (cqEvent s g.val bit code).rd page off = s.rd page off := (rd_raise ..).trans (rd_setEvt_other s ho h)

/-- A descriptor at HEAD completes at once with a code and a cause, and an event of the queue. -/
theorem completes_descDone {bit code cause : Nat} (he : exec (.descriptorTake g) s =
      finish (cqEvent (descCompleted s g.val (descAddr s g.val) (headDesc s g.val) code cause) g.val bit code))
    (hcode : code + cause * 2 ^ 16 < 2 ^ 32) :
    Completes (.descriptorTake g) s (completionParts s g.val) (fun t =>
      qHead t g.val = (qHead s g.val + 1) % 2 ^ 17 ∧ EventSet s t (pgCq g.val) bit ∧ t.rd (pgCq g.val) 0x064 = (headDesc s g.val).seq ∧
        t.rdN (pgCq g.val) 0x068 = code + cause * 2 ^ 16 ∧ nextSeq t g.val = if cause = 2 then nextSeq s g.val else nextSeq s g.val + 1) := by
  have hcq {off : Nat} (ho : off < 4096) (hn : off ∉ [0x010, 0x01C, 0x020, 0x024]) (u : State) :
      (signal (cqEvent u g.val bit code)).rd (pgCq g.val) off = u.rd (pgCq g.val) off := (signal_rd ..).trans (cqEvent_rd ho (.inr hn))
  refine completes_finish he (by simp) ?_ ⟨?_, ?_, ?_, ?_, ?_⟩
  · exact (descCompleted_changes s g.val _ _ code cause).trans ((raise_changes _ (pgCq g.val) bit code).mono fun _ hp => .inl (.inl (.inr hp)))
  · exact (congrArg BitVec.toNat (hcq (by decide) (by decide) _)).trans (descCompleted_head ..)
  · rw [EventSet, signal_rd, cqEvent, eventSet_raise, descCompleted_evt]
  · exact (hcq (by decide) (by decide) _).trans (descCompleted_lastSeq ..)
  · exact (congrArg BitVec.toNat (hcq (by decide) (by decide) _)).trans (descCompleted_lastCode _ _ _ _ hcode)
  · exact ((signal_rd ..).trans (cqEvent_rd (gOff_lt (by decide)) (.inl (pgCq_ne_pgGtab g).symm))).trans (descCompleted_nextSeq ..)

theorem descCause_lt (s : State) (g : Nat) (d : CollDesc) : descCause s g d < 8 := by
  simp only [descCause]
  repeat' split
  all_goals decide

theorem completes_descRefused (h : takeDue s g.val = true) (h1 : groupState s g.val ≠ 5) (h2 : groupState s g.val ≠ 6)
    (h3 : descCause s g.val (headDesc s g.val) = c) (h4 : c ≠ 0) :
    Completes (.descriptorTake g) s (completionParts s g.val) (fun t =>
      qHead t g.val = (qHead s g.val + 1) % 2 ^ 17 ∧ EventSet s t (pgCq g.val) 2 ∧ t.rd (pgCq g.val) 0x064 = (headDesc s g.val).seq ∧
        t.rdN (pgCq g.val) 0x068 = 0x6202 + c * 65536 ∧
        nextSeq t g.val = (if c = 2 then nextSeq s g.val else nextSeq s g.val + 1)) := by
  have hlt := descCause_lt s g.val (headDesc s g.val)
  have htake : takeDesc s g.val = completeDesc s g.val (descAddr s g.val) (headDesc s g.val) 0x6202 c 0 := by
    subst h3
    simp only [takeDesc, h1, h2, if_false]
    exact if_pos h4
  refine completes_descDone (((if_pos h).trans (congrArg finish htake)).trans (congrArg finish (completeDesc_refused ..))) ?_
  omega

theorem completes_afterAbort (h : takeDue s g.val = true) (h1 : groupState s g.val = 5) :
    Completes (.descriptorTake g) s (completionParts s g.val) (fun t =>
      qHead t g.val = (qHead s g.val + 1) % 2 ^ 17 ∧ EventSet s t (pgCq g.val) 5 ∧ t.rdN (pgCq g.val) 0x068 = 0x6001) := by
  have htake : takeDesc s g.val = completeDesc s g.val (descAddr s g.val) (headDesc s g.val) 0x6001 0 0 := if_pos h1
  obtain ⟨t, he, ⟨hhead, hevent, -, hlast, -⟩, hc⟩ :=
    completes_descDone (((if_pos h).trans (congrArg finish htake)).trans (congrArg finish (completeDesc_aborted ..))) (by decide)
  exact ⟨t, he, ⟨hhead, hevent, hlast⟩, hc⟩

end Sys2Proof.Claims
end

section
/-! SUPPORT. The collective in progress (10 R270 to R278): what its plan depends on, transfers that are not complete, and credits. -/

namespace Sys2Proof.Claims
open Sys2Proof.Machine

variable {s t u : State} {may : Part → Prop} {g n : Nat} {d : CollDesc} {c : Coll}

/-! The plan (R279, R281). -/

/-- The words of a group's entry that its plans depend on read the same. -/
structure SameShape (s t : State) (g : Nat) : Prop where
  config : t.rd (pgGtab g) (gOff g 0x08) = s.rd (pgGtab g) (gOff g 0x08)
  threshold : t.rd (pgGtab g) (gOff g 0x18) = s.rd (pgGtab g) (gOff g 0x18)
  count : t.rd (pgGtab g) (gOff g 0x24) = s.rd (pgGtab g) (gOff g 0x24)
  rank : t.get (fGroupRank g) = s.get (fGroupRank g)
  fall : t.get (fGroupFall g) = s.get (fGroupFall g)

theorem SameShape.of_entry (h : ∀ o, o < 0x40 → t.rd (pgGtab g) (gOff g o) = s.rd (pgGtab g) (gOff g o)) : SameShape s t g :=
  ⟨h _ (by decide), h _ (by decide), h _ (by decide), get_eq_of_word (h _ (by decide)), get_eq_of_word (h _ (by decide))⟩

theorem SameShape.ctx_eq (h : SameShape s t g) (d : CollDesc) : collCtx t g d = collCtx s g d := by
  have hcount : groupCount t g = groupCount s g := congrArg BitVec.toNat h.count
  have hchunk : groupChunk t g = groupChunk s g := congrArg (2 ^ ·) (get_eq_of_word h.config)
  simp only [collCtx, hcount, hchunk, h.rank]

theorem SameShape.plan_eq (h : SameShape s t g) (d : CollDesc) : collPlan t g d = collPlan s g d := by
  have hfall : t.bit (fGroupFall g) = s.bit (fGroupFall g) := bit_eq_of_get h.fall
  have hthreshold : t.rdN (pgGtab g) (gOff g 0x18) = s.rdN (pgGtab g) (gOff g 0x18) := congrArg BitVec.toNat h.threshold
  simp only [collPlan, h.ctx_eq, hfall, hthreshold]

theorem SameShape.depth_eq (h : SameShape s t g) : groupDepth t g = groupDepth s g := get_eq_of_word h.config

/-! Transfers of a plan. -/

theorem foldl_chunks (plan : List CollStep) (n : Nat) : plan.foldl (fun n st => n + st.chunks) n = n + transferCount plan := by
  unfold transferCount
  induction plan generalizing n with
  | nil => rfl
  | cons st plan ih =>
    rw [List.foldl_cons, List.foldl_cons, ih, ih (0 + st.chunks)]
    omega

/-- A transfer that is found is one of the plan's. -/
theorem lt_of_locate {plan : List CollStep} {k n : Nat} {x : Nat × CollStep × Nat} (h : locate plan k n = some x) : n < transferCount plan := by
  induction plan generalizing k n with
  | nil => cases h
  | cons st plan ih =>
    have hcount : transferCount (st :: plan) = st.chunks + transferCount plan := by
      rw [← foldl_chunks plan st.chunks, transferCount, List.foldl_cons, Nat.zero_add]
    rw [locate] at h
    split at h
    · omega
    · have := ih h
      omega

theorem lt_of_recvOf {x : CollCtx} {plan : List CollStep} {y : Nat × Nat × Piece × RecvWork} (h : recvOf x plan n = some y) :
    n < transferCount plan := by
  unfold recvOf at h
  split at h
  · exact lt_of_locate (by assumption)
  · cases h

/-- A collective with a transfer that is not complete does not complete. -/
theorem tryComplete_pending (hc : (s.group g).coll = some c) (hn : n < transferCount (collPlan s g (collDesc c.desc)))
    (hd : transferDone (collCtx s g (collDesc c.desc)) (collPlan s g (collDesc c.desc)) c n = false) : tryComplete s g = s := by
  have hall : (List.range (transferCount (collPlan s g (collDesc c.desc)))).all
      (transferDone (collCtx s g (collDesc c.desc)) (collPlan s g (collDesc c.desc)) c) = false :=
    List.all_eq_false.2 ⟨n, List.mem_range.2 hn, by simp [hd]⟩
  simp only [tryComplete, hc, hall, Bool.not_false, Bool.or_true, if_true]

/-! Credits (R276). -/

/-- The credit that a transfer's sender is granted. -/
def creditFor (s : State) (g : Nat) (d : CollDesc) (n : Nat) : List Out :=
  match recvOf (collCtx s g d) (collPlan s g d) n with
  | some (_, q, _, _) => [.credit g (memberAt s g q) n]
  | none => []

theorem grantCredit_eq (s : State) (g : Nat) (d : CollDesc) (n : Nat) :
    grantCredit s g d n = { s with out := s.out ++ creditFor s g d n } := by
  cases h : recvOf (collCtx s g d) (collPlan s g d) n with
  | none => simp only [grantCredit, creditFor, h, List.append_nil]
  | some y => simp only [grantCredit, creditFor, h, State.emit]

/-- Credits granted one after the other are sent out and change nothing else. -/
theorem grantCredits_eq (s : State) (g : Nat) (d : CollDesc) (l : List Nat) :
    l.foldl (fun t n => grantCredit t g d n) s = { s with out := s.out ++ l.flatMap (creditFor s g d) } := by
  induction l generalizing s with
  | nil => simp
  | cons n l ih =>
    have hsame : creditFor { s with out := s.out ++ creditFor s g d n } g d = creditFor s g d := rfl
    rw [List.foldl_cons, grantCredit_eq, ih, hsame, List.flatMap_cons]
    simp only [List.append_assoc]

end Sys2Proof.Claims
end

section
/-! SUPPORT. A good descriptor is taken (10 R270, R276). -/

namespace Sys2Proof.Claims
open Sys2Proof.Machine

variable {s t : State} {g : Fin 64}

/-- The collective as it begins. -/
def collBegun (s : State) (g : Nat) : Coll :=
  { desc := s.bytes (descAddr s g) 64, addr := descAddr s g, launched := [], sentOk := [], landedOk := [], written := [],
    credit := (s.group g).early, heldOnce := false, late := false, nonfinite := false, stopped := false, begun := false, work := [] }

/-- The group is ACTIVE with it, and CUR is 0. -/
def collEntered (s : State) (g : Nat) : State :=
  ((updGroup s g (fun r => { r with coll := some (collBegun s g), early := [] })).put (fGroupState g) 3).wrN (pgCq g) 0x054 0

/-- The first transfer of each staging slot. -/
def firstTransfers (depth : Nat) (rs : List Nat) : List Nat :=
  rs.filter (fun t => !rs.any (fun u => decide (u < t) && u % depth == t % depth))

/-- Transfers below the depth come first in their slots. -/
theorem mem_firstTransfers {depth n : Nat} {rs : List Nat} (hn : n < depth) (hm : n ∈ rs) : n ∈ firstTransfers depth rs := by
  refine List.mem_filter.2 ⟨hm, ?_⟩
  rw [Bool.not_eq_true', List.any_eq_false]
  intro u _ hu
  simp only [Bool.and_eq_true, decide_eq_true_eq, beq_iff_eq] at hu
  obtain ⟨hlt, hslot⟩ := hu
  rw [Nat.mod_eq_of_lt hn, Nat.mod_eq_of_lt (Nat.lt_trans hlt hn)] at hslot
  omega

theorem startColl_eq (s : State) (g : Nat) :
    startColl s g (s.bytes (descAddr s g) 64) =
      tryComplete ((firstTransfers (groupDepth (collEntered s g) g) (recvs (collCtx s g (headDesc s g)) (collPlan s g (headDesc s g)))).foldl
        (fun t n => grantCredit t g (headDesc s g) n) (collEntered s g)) g := rfl

theorem collEntered_changes (s : State) (g : Nat) :
    Changes s (collEntered s g) (also (groupParts g [0x20]) (words (pgCq g) [0x054])) := by
  simp [collEntered]

theorem collEntered_group (s : State) (g : Nat) :
    (collEntered s g).group g = { s.group g with coll := some (collBegun s g), early := [] } := by
  have hgroup : (collEntered s g).group g = (updGroup s g (fun r => { r with coll := some (collBegun s g), early := [] })).group g := rfl
  rw [hgroup, group_updGroup]

theorem collEntered_coll (s : State) (g : Nat) : ((collEntered s g).group g).coll = some (collBegun s g) := by
  rw [collEntered_group]

/-- The word of the entry's state is that of the group ACTIVE. -/
theorem collEntered_status (s : State) (g : Fin 64) :
    (collEntered s g.val).rd (pgGtab g.val) (gOff g.val 0x20) = (s.put (fGroupState g.val) 3).rd (pgGtab g.val) (gOff g.val 0x20) :=
  rd_wr_cq_entry (by decide) (by decide)

theorem collEntered_entry {o : Nat} (h : o < 0x40) (ho : o ≠ 0x20) :
    (collEntered s g.val).rd (pgGtab g.val) (gOff g.val o) = s.rd (pgGtab g.val) (gOff g.val o) :=
  (rd_wr_cq_entry h (by decide)).trans (rd_put_off _ _ (by simpa using ho))

theorem collEntered_shape (s : State) (g : Fin 64) : SameShape s (collEntered s g.val) g.val where
  config := collEntered_entry (by decide) (by decide)
  threshold := collEntered_entry (by decide) (by decide)
  count := collEntered_entry (by decide) (by decide)
  rank := (get_eq_of_word (collEntered_status s g)).trans (get_put_word _ _ (by decide))
  fall := (get_eq_of_word (collEntered_status s g)).trans (get_put_word _ _ (by decide))

/-- A transfer that this rank sends or receives is not complete at the beginning. -/
theorem transferDone_begun {x : CollCtx} {plan : List CollStep} {n : Nat}
    (h : (sendOf x plan n).isSome = true ∨ (recvOf x plan n).isSome = true) : transferDone x plan (collBegun s g.val) n = false := by
  rcases h with h | h
  · obtain ⟨⟨k, q, p⟩, hs⟩ := Option.isSome_iff_exists.1 h
    simp [transferDone, sentDone, hs, collBegun]
  · obtain ⟨y, hr⟩ := Option.isSome_iff_exists.1 h
    simp [transferDone, hr, collBegun]

theorem completes_taken_desc (h : takeDue s g.val = true) (h1 : groupState s g.val = 2) (h2 : descCause s g.val (headDesc s g.val) = 0)
    (h3 : ∃ n, n < transferCount (collPlan s g.val (headDesc s g.val)) ∧
      ((sendOf (collCtx s g.val (headDesc s g.val)) (collPlan s g.val (headDesc s g.val)) n).isSome = true ∨
        (recvOf (collCtx s g.val (headDesc s g.val)) (collPlan s g.val (headDesc s g.val)) n).isSome = true)) :
    Completes (.descriptorTake g) s (also (groupParts g.val [0x20]) (words (pgCq g.val) [0x054])) (fun t =>
      groupState t g.val = 3 ∧ t.rd (pgCq g.val) 0x054 = 0 ∧ qHead t g.val = qHead s g.val ∧
        (∃ c, (t.group g.val).coll = some c ∧ c.desc = s.bytes (descAddr s g.val) 64 ∧ c.launched = [] ∧ c.written = [] ∧
          c.credit = (s.group g.val).early) ∧
        ∀ n k q p w, n < groupDepth s g.val →
          recvOf (collCtx s g.val (headDesc s g.val)) (collPlan s g.val (headDesc s g.val)) n = some (k, q, p, w) →
          Out.credit g.val (memberAt s g.val q) n ∈ t.out) := by
  have hshape := collEntered_shape s g
  have hcoll := collEntered_coll s g.val
  generalize hrs : recvs (collCtx s g.val (headDesc s g.val)) (collPlan s g.val (headDesc s g.val)) = rs
  have hstart : startColl s g.val (s.bytes (descAddr s g.val) 64) =
      { collEntered s g.val with out := (collEntered s g.val).out ++
        (firstTransfers (groupDepth s g.val) rs).flatMap (creditFor (collEntered s g.val) g.val (headDesc s g.val)) } := by
    obtain ⟨n, hn, hmine⟩ := h3
    rw [startColl_eq, hrs, grantCredits_eq, hshape.depth_eq]
    refine tryComplete_pending (c := collBegun s g.val) (n := n) hcoll ?_ ?_
    · show n < transferCount (collPlan (collEntered s g.val) g.val (headDesc s g.val))
      rwa [hshape.plan_eq]
    · show transferDone (collCtx (collEntered s g.val) g.val (headDesc s g.val)) (collPlan (collEntered s g.val) g.val (headDesc s g.val)) _ n = false
      rw [hshape.plan_eq, hshape.ctx_eq]
      exact transferDone_begun hmine
  have htake : takeDesc s g.val = startColl s g.val (s.bytes (descAddr s g.val) 64) := by
    have hcause : descCause s g.val (collDesc (s.bytes (descAddr s g.val) 64)) = 0 := h2
    simp [takeDesc, h1, hcause]
  have hrd (page off : Nat) : (signal (startColl s g.val (s.bytes (descAddr s g.val) 64))).rd page off = (collEntered s g.val).rd page off := by
    rw [signal_rd, hstart]
    rfl
  refine completes_finish ((if_pos h).trans (congrArg finish htake)) (by simp) ?_ ⟨?_, ?_, ?_, ⟨collBegun s g.val, ?_, rfl, rfl, rfl, rfl⟩, ?_⟩
  · rw [hstart, changes_out (by simp)]
    exact collEntered_changes _ _
  · exact (get_eq_of_word (hrd ..)).trans ((get_eq_of_word (collEntered_status s g)).trans (get_put_same _ _ (by decide)))
  · exact (hrd ..).trans (rd_wr_same ..)
  · exact congrArg BitVec.toNat ((hrd ..).trans ((rd_wr_other _ _ (regKey_ne (by decide))).trans
      (rd_wr_entry_cq (s := updGroup s g.val _) (by decide) (by decide))))
  · rw [signal_group, hstart]
    exact hcoll
  · intro n k q p w hn hr
    have hmem : n ∈ firstTransfers (groupDepth s g.val) rs := by
      refine mem_firstTransfers hn ?_
      rw [← hrs]
      exact List.mem_filter.2 ⟨List.mem_range.2 (lt_of_recvOf hr), by rw [hr]; rfl⟩
    have hmember : memberAt (collEntered s g.val) g.val q = memberAt s g.val q := by
      rw [memberAt, memberAt, collEntered_group]
    have hcredit : Out.credit g.val (memberAt s g.val q) n ∈ creditFor (collEntered s g.val) g.val (headDesc s g.val) n := by
      rw [creditFor, hshape.ctx_eq, hshape.plan_eq, hr, ← hmember]
      exact List.mem_singleton_self _
    refine mem_out_signal ?_
    rw [hstart]
    exact List.mem_append_right _ (List.mem_flatMap.2 ⟨n, hmem, hcredit⟩)

end Sys2Proof.Claims

open Sys2Proof Sys2Proof.Machine Sys2Proof.Claims

/-- Settles O28: each row by the lemma of its command. -/
theorem groupResults : Obligations.GroupResults := by
  intro s i may post hrow
  cases hrow with
  | create g a h h1 h2 h3 h4 => exact completes_create h h1 h2 h3 h4
  | createAlone g a h h1 h2 h3 h4 => exact completes_createAlone h h1 h2 h3 h4
  | createRefused g a h h1 h2 h3 => exact completes_createRefused h h1 h2 h3
  | delete g a h h1 h2 h3 h4 h5 => exact completes_delete h h1 h2 h3 h4 h5
  | deleteWaits g a h h1 h2 => exact completes_deleteWaits h h1 h2
  | notice g m dg ring h h1 h2 h3 h4 => exact completes_notice h h1 h2 h3 h4
  | ready g m dg ring h h1 h2 h3 h4 => exact completes_ready h h1 h2 h3 h4
  | digestDiffers g m dg ring h h1 h2 => exact completes_digestDiffers h h1 h2
  | tail g a h h1 => exact completes_tail h h1
  | tailPast g a h h1 => exact completes_tailPast h h1
  | doorbell g a h h1 => exact completes_doorbell h h1
  | taken g h h1 h2 h3 => exact completes_taken_desc h h1 h2 h3
  | descRefused g c h h1 h2 h3 h4 => exact completes_descRefused h h1 h2 h3 h4
  | afterAbort g h h1 => exact completes_afterAbort h h1
end

section
/-! SUPPORT. Credits, timeouts and the notices of a re-form and of an abort (10 R276, R282 to R285). -/

namespace Sys2Proof.Claims
open Sys2Proof.Machine

variable {s t : State} {may : Part → Prop} {g : Fin 64} {n : Nat} {c : Coll} {m : BitVec 16}

theorem updColl_coll (h : (s.group g.val).coll = some c) (f : Coll → Coll) :
    (updColl s g.val f).group g.val = { s.group g.val with coll := some (f c) } := by
  rw [updColl, group_updGroup, h]
  rfl

/-! Credits (R276). -/

theorem completes_credit (h : groupState s g.val = 3) (h1 : (s.group g.val).coll = some c)
    (h2 : (sendOf (collCtx s g.val (collDesc c.desc)) (collPlan s g.val (collDesc c.desc)) n).isSome = true) (h3 : n ∉ c.credit) :
    Completes (.credit g n) s (parts [.group g.val, .signals]) (fun t =>
      t.group g.val = { s.group g.val with coll := some { c with credit := c.credit ++ [n] } }) := by
  have hcmd : takeCredit s g.val n = updColl s g.val (fun c => { c with credit := c.credit ++ [n] }) := by
    simp [takeCredit, h1, h2, h3]
  refine completes_due (show execCredit g n s = _ from rfl) (by simp [h]) hcmd (by simp) ((changes_updGroup (by simp)).2 (Changes.refl _ _)) ?_
  rw [signal_group, updColl_coll h1]

theorem completes_earlyCredit (h : groupState s g.val = 2 ∨ groupState s g.val = 3) (h1 : (s.group g.val).coll = none) :
    Completes (.credit g n) s (parts [.group g.val, .signals]) (fun t =>
      t.group g.val = { s.group g.val with early := (s.group g.val).early ++ [n] }) := by
  have hcmd : takeCredit s g.val n = updGroup s g.val (fun r => { r with early := r.early ++ [n] }) := by simp only [takeCredit, h1]
  refine completes_due (show execCredit g n s = _ from rfl) (by simpa using h) hcmd (by simp)
    ((changes_updGroup (by simp)).2 (Changes.refl _ _)) ?_
  rw [signal_group, group_updGroup]

/-! Timeouts and re-form notices (R282, R283). -/

/-- What the first re-form notice makes of the group's run. -/
def reformRun (seq : W32) (m : BitVec 16) (at_ : W64) (r : GroupRun) : GroupRun :=
  { r with reformAt := some at_, removal := [m], reformSeq := seq, notices := [], coll := r.coll.map (fun c => { c with stopped := true }) }

/-- The group begins to re-form. -/
def reformBegun (s : State) (g : Nat) (seq : W32) (m : BitVec 16) (at_ : W64) : State :=
  (updGroup s g (reformRun seq m at_)).put (fGroupState g) 4

theorem takeReform_first {seq : W32} {at_ : W64} (h : groupState s g.val ≠ 4) :
    takeReform s g.val seq m at_ = reformBegun s g.val seq m at_ := by
  have hfirst : (groupState s g.val != 4) = true := by simpa using h
  cases hat : (s.group g.val).reformAt <;> simp only [takeReform, hfirst, hat, if_true] <;> rfl

theorem reformBegun_changes (s : State) (g : Nat) (seq : W32) (m : BitVec 16) (at_ : W64) :
    Changes s (reformBegun s g seq m at_) (also (words (pgGtab g) [gOff g 0x20]) (parts [.group g])) := by
  rw [reformBegun, changes_put (by simp), changes_updGroup (by simp)]
  exact Changes.refl _ _

theorem reformBegun_state (s : State) (g : Nat) (seq : W32) (m : BitVec 16) (at_ : W64) :
    groupState (reformBegun s g seq m at_) g = 4 := get_put_same _ _ (by decide)

theorem reformBegun_group (s : State) (g : Nat) (seq : W32) (m : BitVec 16) (at_ : W64) :
    (reformBegun s g seq m at_).group g = reformRun seq m at_ (s.group g) := by rw [reformBegun, put_group, group_updGroup]

/-- Only a group that runs a collective has a suspect. -/
theorem suspectOf_active (h : suspectOf s g.val n = some m) : groupState s g.val = 3 ∧ ∃ c, (s.group g.val).coll = some c := by
  unfold suspectOf at h
  split at h
  · cases h
  · rename_i c hc
    refine ⟨?_, c, hc⟩
    by_contra hne
    simp [hne] at h

/-- The others have been told of the suspect. -/
def suspectTold (s : State) (g : Nat) (seq : W32) (m : BitVec 16) (at_ : W64) : State :=
  { s with out := s.out ++ (others s g).map (fun k => Out.reformNotice g k seq m at_) }

theorem completes_timeout (h : suspectOf s g.val n = some m) (h1 : s.bit (fGroupKeel g.val) = false) :
    Completes (.collTimeout g n) s (also (words (pgGtab g.val) [gOff g.val 0x20]) (parts [.group g.val])) (fun t =>
      groupState t g.val = 4 ∧ (t.group g.val).reformAt = some (s.now + 131072) ∧ (t.group g.val).removal = [m] ∧
        (∃ c, (t.group g.val).coll = some c ∧ c.stopped = true) ∧
        ∃ seq, ∀ k ∈ others s g.val, Out.reformNotice g.val k seq m (s.now + 131072) ∈ t.out) := by
  obtain ⟨hstate, c, hc⟩ := suspectOf_active h
  obtain ⟨seq, hseq⟩ : ∃ seq, seq = (collDesc c.desc).seq := ⟨_, rfl⟩
  have hcmd : timeOut s g.val m = reformBegun (suspectTold s g.val seq m (s.now + 131072)) g.val seq m (s.now + 131072) := by
    have hfirst : groupState (suspectTold s g.val seq m (s.now + 131072)) g.val ≠ 4 := by
      show groupState s g.val ≠ 4
      omega
    rw [← takeReform_first hfirst]
    simp only [timeOut, h1, hc, Option.elim_some, ← hseq, Bool.false_eq_true, if_false, foldl_emit]
    rfl
  have he : exec (.collTimeout g n) s = finish (timeOut s g.val m) := by
    show execCollTimeout g n s = _
    simp only [execCollTimeout, h]
  have hrun : ((suspectTold s g.val seq m (s.now + 131072)).group g.val) = s.group g.val := rfl
  refine completes_finish (he.trans (congrArg finish hcmd)) (by simp) ?_ ⟨?_, ?_, ?_, ⟨{ c with stopped := true }, ?_, rfl⟩, seq, fun k hk => ?_⟩
  · exact Changes.trans ((changes_out (by simp)).2 (Changes.refl _ _)) (reformBegun_changes _ _ _ _ _)
  · exact (signal_get ..).trans (reformBegun_state ..)
  · rw [signal_group, reformBegun_group]
    rfl
  · rw [signal_group, reformBegun_group]
    rfl
  · rw [signal_group, reformBegun_group, hrun, reformRun, hc]
    rfl
  · refine mem_out_signal ?_
    have hout : (reformBegun (suspectTold s g.val seq m (s.now + 131072)) g.val seq m (s.now + 131072)).out =
        (suspectTold s g.val seq m (s.now + 131072)).out := rfl
    rw [hout]
    exact List.mem_append_right _ (List.mem_map_of_mem hk)

theorem completes_reformNotice {seq : W32} {at_ : W64} (h : groupState s g.val = 2 ∨ groupState s g.val = 3)
    (h1 : s.bit (fGroupKeel g.val) = false) (h2 : (s.group g.val).reforming = false) :
    Completes (.reformNotice g seq m at_) s (also (words (pgGtab g.val) [gOff g.val 0x20]) (parts [.group g.val])) (fun t =>
      groupState t g.val = 4 ∧ (t.group g.val).removal = [m] ∧ (t.group g.val).reformSeq = seq ∧
        (t.group g.val).reformAt = some at_ ∧ (t.group g.val).members = (s.group g.val).members) := by
  have hdue : ((groupState s g.val = 2 || groupState s g.val = 3 || groupState s g.val = 4) && !s.bit (fGroupKeel g.val) &&
      !(s.group g.val).reforming) = true := by rcases h with h | h <;> simp [h, h1, h2]
  have hrun : (signal (reformBegun s g.val seq m at_)).group g.val = reformRun seq m at_ (s.group g.val) := by
    rw [signal_group, reformBegun_group]
  refine completes_due (show execReformNotice g seq m at_ s = _ from rfl) hdue (takeReform_first (by omega)) (by simp)
    (reformBegun_changes _ _ _ _ _) ⟨(signal_get ..).trans (reformBegun_state ..), ?_⟩
  rw [hrun]
  exact ⟨rfl, rfl, rfl, rfl⟩

/-! What is deferred (09 R257, 10 R287). -/

/-- Where nothing is deferred, nothing is after a change that leaves the requests that wait and this group's DELETE. -/
theorem NothingDeferred.of_changes {g : Nat} (h : NothingDeferred s) (hc : Changes s t may) (hr : ¬ may .routes) (hb : ∀ b, ¬ may (.berth b))
    (hg : ∀ j, j ≠ g → ¬ may (.group j)) (hd : (t.group g).deleting = (s.group g).deleting) : NothingDeferred t := by
  obtain ⟨happly, hwaits, hdelete⟩ := h
  obtain ⟨-, -, hsame⟩ : _ ∧ _ ∧ _ := hc .routes hr
  refine ⟨hsame.trans happly, fun b hbt => ?_, fun j hj => ?_⟩
  · have hberth : t.berth b = s.berth b := hc (.berth b) (hb b)
    rw [hberth]
    exact hwaits b hbt
  · by_cases hjg : j = g
    · subst hjg
      exact hd.trans (hdelete j hj)
    · have hgroup : t.group j = s.group j := hc (.group j) (hg j hjg)
      rw [hgroup]
      exact hdelete j hj

/-! Keel abort notices (R285). -/

/-- The group and its ferries have aborted, with no one told. -/
def groupKeelAborted (s : State) (g : Nat) : State := abortFerries (groupAborted s g) g

theorem abortGroup_eq {g : Nat} (h : AbortsPlainly s g) : abortGroup s g = settleAll (groupKeelAborted s g) := by
  obtain ⟨hstate, hcoll, hlanding, -, -⟩ := h
  have hactive : (groupState s g ≠ 2 && groupState s g ≠ 3) = false := by rcases hstate with hs | hs <;> simp [hs]
  simp only [abortGroup, hactive, hlanding, hcoll, Bool.false_eq_true, if_false, List.filter_nil, List.foldl_nil]
  rfl

theorem noneConcerned_of_plain {g : Nat} (h : AbortsPlainly s g) : NoneConcerned (groupAborted s g) := by
  obtain ⟨-, -, hlanding, halone, -⟩ := h
  have hn : NoneConcerned (updGroup s g withoutColl) := ⟨hlanding, halone⟩
  exact hn.of_regsOnly (groupAborted_regsOnly ..)

theorem groupKeelAborted_changes {g : Nat} (h : AbortsPlainly s g) : Changes s (groupKeelAborted s g) (abortParts g) := by
  refine ((groupAborted_changes s g).mono ?_).trans ((abortMembers_changes (noneConcerned_of_plain h) g _).mono ?_)
  · rintro p (hp | hp)
    · exact .inl (List.mem_singleton.1 hp)
    · exact .inr (.inl hp)
  · rintro p ⟨f, hf, hp⟩
    exact .inr (.inr ⟨f, List.mem_range.1 hf, hp⟩)

theorem groupKeelAborted_group {g : Nat} (h : AbortsPlainly s g) : (groupKeelAborted s g).group g = withoutColl (s.group g) := by
  have hr := (groupAborted_regsOnly s g).trans (abortMembers_regsOnly (noneConcerned_of_plain h) g (List.range 8))
  exact (hr.group_eq g).trans (group_updGroup ..)

theorem groupKeelAborted_settled {g : Nat} (h : AbortsPlainly s g) :
    Changes (groupKeelAborted s g) (settleAll (groupKeelAborted s g)) nothing := by
  obtain ⟨-, -, -, -, hnothing⟩ := id h
  refine settleAll_changes (hnothing.of_changes (g := g) (groupKeelAborted_changes h) (by simp) (by simp) ?_ ?_)
  · intro j hj
    simpa using hj
  · rw [groupKeelAborted_group h]
    rfl

theorem completes_abortNotice (h : s.bit (fGroupKeel g.val) = true) (h1 : AbortsPlainly s g.val) :
    Completes (.abortNotice g) s (abortParts g.val) (fun t =>
      groupState t g.val = 5 ∧ EventSet s t (pgGtab g.val) 3 ∧
        ∀ f, f < 8 → ferryGroup s f = g.val → (ferryState s f = 1 ∨ ferryState s f = 2) →
          ferryState t f = 4 ∧ EventSet s t (pgFerry f) 3) := by
  have hdue : (s.bit (fGroupKeel g.val) && (groupState s g.val = 2 || groupState s g.val = 3)) = true := by
    obtain ⟨hstate, -⟩ := h1
    rcases hstate with hs | hs <;> simp [h, hs]
  have hn := noneConcerned_of_plain h1
  have hsettled := groupKeelAborted_settled h1
  have hrd {page off : Nat} (ho : off < 4096) :
      (signal (settleAll (groupKeelAborted s g.val))).rd page off = (groupKeelAborted s g.val).rd page off :=
    (signal_rd ..).trans (hsettled.rd_eq ho id)
  have hgroup {off : Nat} (ho : off < 4096) : (groupKeelAborted s g.val).rd (pgGtab g.val) off = (groupAborted s g.val).rd (pgGtab g.val) off :=
    abortMembers_rd hn (fun f _ => (pgGtab_ne_pgFerry g.isLt f).symm) ho
  have hferry {off : Nat} (ho : off < 4096) (f : Nat) : (groupAborted s g.val).rd (pgFerry f) off = s.rd (pgFerry f) off :=
    groupAborted_rd ho (pgGtab_ne_pgFerry g.isLt f)
  refine completes_due (show execAbortNotice g s = _ from rfl) hdue (abortGroup_eq h1) (.inr (.inl (by simp))) ?_ ⟨?_, ?_, fun f hf hfg hs => ?_⟩
  · exact (groupKeelAborted_changes h1).trans (hsettled.mono fun _ hp => hp.elim)
  · exact (get_eq_of_word ((hrd (gOff_lt (by decide))).trans (hgroup (gOff_lt (by decide))))).trans (groupAborted_state ..)
  · exact ((hrd (by decide)).trans (hgroup (by decide))).trans (groupAborted_event s g.val)
  · have hstate : ferryState (groupAborted s g.val) f = ferryState s f := get_eq_of_word (hferry (by decide) f)
    have hmember : ferryGroup (groupAborted s g.val) f = g.val := (get_eq_of_word (hferry (by decide) f)).trans hfg
    obtain ⟨haborted, hevent⟩ := abortFerries_aborted hn hf hmember (by rwa [hstate])
    refine ⟨(get_eq_of_word (hrd (by decide))).trans haborted, ((hrd (by decide)).trans hevent).trans ?_⟩
    rw [hferry (by decide) f]

end Sys2Proof.Claims
end

section
/-! SUPPORT. A group re-forms at its tide (10 R284): a suspected member is expelled, the others go on with a new member array. -/

namespace Sys2Proof.Claims
open Sys2Proof.Machine

variable {s t : State} {g : Nat}

/-- NEXT_SEQ goes past the collective that the notice named, where it is behind. -/
def seqMoved (s : State) (g : Nat) : State :=
  if ((s.group g).reformSeq + 1 - nextSeq s g).toNat < 2 ^ 31 then s.wr (pgGtab g) (gOff g 0x28) ((s.group g).reformSeq + 1) else s

theorem seqMoved_changes (s : State) (g : Nat) : Changes s (seqMoved s g) (words (pgGtab g) [gOff g 0x28]) := by
  unfold seqMoved
  split <;> simp

theorem seqMoved_group (s : State) (g : Nat) : (seqMoved s g).group g = s.group g := seqMoved_changes s g (.group g) (by simp)

/-- Every other word reads as before. -/
theorem seqMoved_rd {page off : Nat} (ho : off < 4096) (h : off ≠ gOff g 0x28) : (seqMoved s g).rd page off = s.rd page off := by
  unfold seqMoved
  split
  · exact rd_wr_other _ _ fun hk => h ((regKey_inj ho (gOff_lt (by decide))).1 hk).2
  · rfl

theorem seqMoved_nodeId (s : State) (g : Nat) : nodeId (seqMoved s g) = nodeId s := by
  have hoff : 0x040 ≠ gOff g 0x28 := by unfold gOff; omega
  exact nodeId_congr (seqMoved_changes s g .boot (by simp)) (get_eq_of_word (seqMoved_rd (by decide) hoff))

/-- An entry's words lie apart from the event word. -/
theorem evt_ne_gOff {o : Nat} (h : o < 0x40) : 0x010 ≠ gOff g o := by
  have := gOff_range (g := g) h
  omega

/-! Expelled. -/

/-- The re-form is over for the group's run. -/
def expelledRun (r : GroupRun) : GroupRun := { r with reformAt := none, removal := [], notices := [] }

def groupExpelled (s : State) (g : Nat) : State :=
  groupEvent ((updGroup (seqMoved s g) g expelledRun).put (fGroupState g) 6) g 4 0x6205

theorem groupExpelled_changes (s : State) (g : Nat) : Changes s (groupExpelled s g) (groupParts g [0x20, 0x28]) := by
  rw [groupExpelled, changes_groupEvent groupParts_of_event, changes_put (by simp), changes_updGroup (by simp)]
  exact (seqMoved_changes s g).mono fun _ hp => .inl (.inl (words_mono (by simp) hp))

theorem groupExpelled_state (s : State) (g : Nat) : groupState (groupExpelled s g) g = 6 :=
  (get_eq_of_word (groupEvent_entry _ (by decide))).trans (get_put_same _ _ (by decide))

theorem groupExpelled_event (s : State) (g : Nat) : EventSet s (groupExpelled s g) (pgGtab g) 4 := by
  rw [EventSet, groupExpelled, eventSet_groupEvent, rd_put_off _ _ (evt_ne_gOff (by decide))]
  exact congrArg (· ||| _) (seqMoved_rd (by decide) (evt_ne_gOff (by decide)))

theorem groupExpelled_group (s : State) (g : Nat) : (groupExpelled s g).group g = expelledRun (s.group g) := by
  rw [groupExpelled, groupEvent_group, put_group, group_updGroup, seqMoved_group]

/-! The entry of the new members. -/

/-- COUNT, RANK and EPOCH are those of the new members. -/
def entryReformed (s : State) (g : Nat) (ms : List (BitVec 16)) : State :=
  ((s.wrN (pgGtab g) (gOff g 0x24) ms.length).put (fGroupRank g) (rankIn s ms)).incSat (pgGtab g) (gOff g 0x2C)

/-- The group goes on with them, and waits for their notices. -/
def regrouped (s : State) (g : Nat) (ms : List (BitVec 16)) : State :=
  groupEvent (updGroup (entryReformed s g ms) g (fun r => { r with members := ms, reforming := true })) g 2 0x6002

variable {ms : List (BitVec 16)}

theorem regrouped_changes (s : State) (g : Nat) (ms : List (BitVec 16)) : Changes s (regrouped s g ms) (groupParts g [0x20, 0x24, 0x2C]) := by
  rw [regrouped, changes_groupEvent groupParts_of_event, changes_updGroup (by simp), entryReformed, changes_incSat (by simp),
    changes_put (by simp), changes_wrN (by simp)]
  exact Changes.refl _ _

theorem entryReformed_group (s : State) (g : Nat) (ms : List (BitVec 16)) : (entryReformed s g ms).group g = s.group g := by
  have hincr (u : State) : (u.incSat (pgGtab g) (gOff g 0x2C)).group g = u.group g := rfl
  have hcount (u : State) (v : Nat) : (u.wrN (pgGtab g) (gOff g 0x24) v).group g = u.group g := rfl
  rw [entryReformed, hincr, put_group, hcount]

theorem regrouped_group (s : State) (g : Nat) (ms : List (BitVec 16)) :
    (regrouped s g ms).group g = { s.group g with members := ms, reforming := true } := by
  rw [regrouped, groupEvent_group, group_updGroup, entryReformed_group]

theorem rd_updGroup (s : State) (g : Nat) (f : GroupRun → GroupRun) (page off : Nat) : (updGroup s g f).rd page off = s.rd page off := rfl

/-- The run and the event leave the entry's words. -/
theorem regrouped_entry {o : Nat} (s : State) (ms : List (BitVec 16)) (h : o < 0x40) :
    (regrouped s g ms).rd (pgGtab g) (gOff g o) = (entryReformed s g ms).rd (pgGtab g) (gOff g o) := by
  rw [regrouped, groupEvent_entry _ h, rd_updGroup]

theorem regrouped_state (s : State) (g : Nat) (ms : List (BitVec 16)) : groupState (regrouped s g ms) g = groupState s g := by
  have hincr (u : State) : (u.incSat (pgGtab g) (gOff g 0x2C)).rd (pgGtab g) (gOff g 0x20) = u.rd (pgGtab g) (gOff g 0x20) :=
    rd_wr_other _ _ (regKey_ne (by simp))
  have hcount (u : State) (v : Nat) : (u.wrN (pgGtab g) (gOff g 0x24) v).rd (pgGtab g) (gOff g 0x20) = u.rd (pgGtab g) (gOff g 0x20) :=
    rd_wr_other _ _ (regKey_ne (by simp))
  rw [groupState, get_eq_of_word (regrouped_entry s ms (by decide)), entryReformed, get_eq_of_word (hincr _), get_put_word _ _ (by decide),
    get_eq_of_word (hcount ..), groupState]

theorem regrouped_count (s : State) (g : Nat) (h : ms.length < 2 ^ 32) : groupCount (regrouped s g ms) g = ms.length := by
  have hincr (u : State) : (u.incSat (pgGtab g) (gOff g 0x2C)).rd (pgGtab g) (gOff g 0x24) = u.rd (pgGtab g) (gOff g 0x24) :=
    rd_wr_other _ _ (regKey_ne (by simp))
  have hput (u : State) (v : Nat) : (u.put (fGroupRank g) v).rd (pgGtab g) (gOff g 0x24) = u.rd (pgGtab g) (gOff g 0x24) :=
    rd_put_off _ _ (by simp)
  rw [groupCount, State.rdN, regrouped_entry s ms (by decide), entryReformed, hincr, hput]
  exact rdN_wrN_same _ _ _ h

theorem regrouped_epoch (s : State) (g : Nat) (ms : List (BitVec 16)) :
    (regrouped s g ms).rdN (pgGtab g) (gOff g 0x2C) = min (s.rdN (pgGtab g) (gOff g 0x2C) + 1) (2 ^ 32 - 1) := by
  have hput (u : State) (v : Nat) : (u.put (fGroupRank g) v).rd (pgGtab g) (gOff g 0x2C) = u.rd (pgGtab g) (gOff g 0x2C) :=
    rd_put_off _ _ (by simp)
  have hcount (u : State) (v : Nat) : (u.wrN (pgGtab g) (gOff g 0x24) v).rd (pgGtab g) (gOff g 0x2C) = u.rd (pgGtab g) (gOff g 0x2C) :=
    rd_wr_other _ _ (regKey_ne (by simp))
  rw [State.rdN, regrouped_entry s ms (by decide), entryReformed, ← State.rdN, rdN_incSat_same, State.rdN, hput, hcount, State.rdN]

theorem regrouped_event (s : State) (g : Nat) (ms : List (BitVec 16)) : EventSet s (regrouped s g ms) (pgGtab g) 2 := by
  have hoff {o : Nat} (ho : o < 0x40) : 0x010 ≠ gOff g o := evt_ne_gOff ho
  have hword : (entryReformed s g ms).rd (pgGtab g) 0x010 = s.rd (pgGtab g) 0x010 :=
    (rd_wr_other _ _ (regKey_ne (hoff (by decide)))).trans ((rd_put_off _ _ (hoff (by decide))).trans
      (rd_wr_other _ _ (regKey_ne (hoff (by decide)))))
  rw [EventSet, regrouped, eventSet_groupEvent, rd_updGroup, hword]

/-! Re-formed. -/

/-- The members that are not suspected. -/
abbrev remaining (s : State) (g : Nat) : List (BitVec 16) := (s.group g).members.filter (fun m => !(s.group g).removal.contains m)

/-- Where the member array is. -/
abbrev arrayAddr (s : State) (g : Nat) : Nat := placeBits (s.rd64 (pgGtab g) (gOff g 0x00)).toNat

/-- The new member array is in memory. -/
def arrayWritten (s : State) (g : Nat) : State :=
  memWrite (seqMoved s g) (arrayAddr (seqMoved s g) g) (memberBytes (remaining s g))

/-- The group re-formed from `s`. -/
def groupReformed (s : State) (g : Nat) : State := regrouped (arrayWritten s g) g (remaining s g)

theorem reformGroup_eq (h1 : (s.group g).coll = none) :
    reformGroup s g = if (s.group g).removal.any (fun m => m.toNat == nodeId (seqMoved s g)) then settleAll (groupExpelled s g)
      else settleAll (noticesCheck (sendNotices (groupReformed s g) g) g) := by
  simp only [reformGroup, h1]
  rfl

theorem reformGroup_expelled (h1 : (s.group g).coll = none) (h2 : ∃ m ∈ (s.group g).removal, m.toNat = nodeId s) :
    reformGroup s g = settleAll (groupExpelled s g) := by
  rw [reformGroup_eq h1, seqMoved_nodeId, if_pos (by simpa using h2)]

theorem reformGroup_goes_on (h1 : (s.group g).coll = none) (h2 : ∀ m ∈ (s.group g).removal, m.toNat ≠ nodeId s) :
    reformGroup s g = settleAll (noticesCheck (sendNotices (groupReformed s g) g) g) := by
  rw [reformGroup_eq h1, seqMoved_nodeId, if_neg (by simpa using h2)]

theorem length_memberBytes (ms : List (BitVec 16)) : (memberBytes ms).length = 4 * ms.length := by
  simp [memberBytes, List.length_flatten, Function.comp_def, Nat.mul_comm]

theorem seqMoved_arrayAddr (s : State) (g : Nat) : arrayAddr (seqMoved s g) g = arrayAddr s g := by
  have hlow : (seqMoved s g).rd (pgGtab g) (gOff g 0x00) = s.rd (pgGtab g) (gOff g 0x00) := seqMoved_rd (gOff_lt (by decide)) (by simp)
  have hhigh : (seqMoved s g).rd (pgGtab g) (gOff g 0x00 + 4) = s.rd (pgGtab g) (gOff g 0x00 + 4) :=
    seqMoved_rd (gOff_lt (o := 0x04) (by decide)) (by unfold gOff; omega)
  rw [arrayAddr, arrayAddr, State.rd64, State.rd64, hlow, hhigh]

/-- A write of fewer bytes changes no more. -/
theorem writesAt_mono {a n m : Nat} (h : n ≤ m) {p : Part} (hp : writesAt a n p) : writesAt a m p := by
  rcases hp with ⟨k, hk, he⟩ | hp
  · exact .inl ⟨k, by omega, he⟩
  · exact .inr hp

/-- What re-forming changes. -/
abbrev reformParts (s : State) (g : Nat) : Part → Prop :=
  also (groupParts g [0x20, 0x24, 0x28, 0x2C]) (writesAt (arrayAddr s g) (4 * (s.group g).members.length))

theorem arrayWritten_changes (s : State) (g : Nat) :
    Changes (seqMoved s g) (arrayWritten s g) (writesAt (arrayAddr s g) (4 * (s.group g).members.length)) := by
  have hlen : (memberBytes (remaining s g)).length ≤ 4 * (s.group g).members.length := by
    rw [length_memberBytes]
    exact Nat.mul_le_mul_left 4 (List.length_filter_le ..)
  rw [arrayWritten, seqMoved_arrayAddr]
  exact Changes.mono (memWrite_writes _ _ _) fun _ => writesAt_mono hlen

theorem groupReformed_changes (s : State) (g : Nat) : Changes s (groupReformed s g) (reformParts s g) := by
  refine ((seqMoved_changes s g).mono fun _ hp => .inl (.inl (.inl (words_mono (by simp) hp)))).trans
    (((arrayWritten_changes s g).mono fun _ hp => .inr hp).trans ((regrouped_changes _ g _).mono ?_))
  rintro p ((hp | hp) | hp)
  · exact .inl (.inl (.inl (words_mono (by simp) hp)))
  · exact .inl (.inl (.inr hp))
  · exact .inl (.inr hp)

theorem arrayWritten_group (s : State) (g : Nat) : (arrayWritten s g).group g = s.group g := by
  have harray : (arrayWritten s g).group g = (seqMoved s g).group g := arrayWritten_changes s g (.group g) (by simp)
  rw [harray, seqMoved_group]

theorem groupReformed_group (s : State) (g : Nat) :
    (groupReformed s g).group g = { s.group g with members := remaining s g, reforming := true } := by
  rw [groupReformed, regrouped_group, arrayWritten_group]

variable {g : Fin 64}

/-- The page's words but NEXT_SEQ are as they were when the member array has been written. -/
theorem arrayWritten_rd {off : Nat} (ho : off < 4096) (h : off ≠ gOff g.val 0x28) :
    (arrayWritten s g.val).rd (pgGtab g.val) off = s.rd (pgGtab g.val) off :=
  (rd_of_writesAt (arrayWritten_changes s g.val) ho (.inl (by unfold pgGtab; omega))).trans (seqMoved_rd ho h)

theorem groupReformed_state (s : State) (g : Fin 64) : groupState (groupReformed s g.val) g.val = groupState s g.val := by
  rw [groupReformed, regrouped_state]
  exact get_eq_of_word (arrayWritten_rd (gOff_lt (by decide)) (by simp))

theorem groupReformed_epoch (s : State) (g : Fin 64) :
    (groupReformed s g.val).rdN (pgGtab g.val) (gOff g.val 0x2C) = min (s.rdN (pgGtab g.val) (gOff g.val 0x2C) + 1) (2 ^ 32 - 1) := by
  rw [groupReformed, regrouped_epoch, State.rdN, arrayWritten_rd (gOff_lt (by decide)) (by simp), State.rdN]

theorem groupReformed_event (s : State) (g : Fin 64) : EventSet s (groupReformed s g.val) (pgGtab g.val) 2 := by
  rw [EventSet, groupReformed, regrouped_event, arrayWritten_rd (by decide) (evt_ne_gOff (by decide))]

theorem groupReformed_nodeId (s : State) (g : Fin 64) : nodeId (groupReformed s g.val) = nodeId s := by
  have hc := groupReformed_changes s g.val
  refine nodeId_congr (hc .boot (by simp)) (get_eq_of_word (hc.rd_eq (by decide) ?_))
  have hlt : ∀ o ∈ 0x240 :: [0x20, 0x24, 0x28, 0x2C].map (gOff g.val), o < 4096 := by
    simpa using ⟨gOff_lt (by decide), gOff_lt (by decide), gOff_lt (by decide), gOff_lt (by decide)⟩
  have hpage : pgTopo ≠ pgGtab g.val := by unfold pgGtab pgTopo; omega
  rintro ((hm | hm) | ⟨k, -, hm⟩ | hm | hm | ⟨k, hk, hm⟩)
  · exact hpage (word_of_wordsAndEvent hm (by decide) hlt).1
  · simp at hm
  · cases hm
  · cases hm
  · cases hm
  · have hstack := (word_of_wordsAndEvent hm (by decide) (by simp)).1
    unfold pgHs pgTopo at hstack
    omega

/-! The rows. -/

theorem reform_state (h : reformDue s g.val = true) : groupState s g.val = 4 := by
  simp only [reformDue, Bool.and_eq_true, beq_iff_eq] at h
  obtain ⟨⟨hstate, -⟩, -⟩ := h
  exact hstate

theorem completes_expelled (h : reformDue s g.val = true) (h1 : (s.group g.val).coll = none)
    (h2 : ∃ m ∈ (s.group g.val).removal, m.toNat = nodeId s) (h6 : NothingDeferred s) :
    Completes (.reform g) s (groupParts g.val [0x20, 0x28]) (fun t =>
      groupState t g.val = 6 ∧ EventSet s t (pgGtab g.val) 4 ∧ (t.group g.val).members = (s.group g.val).members) := by
  have hc := groupExpelled_changes s g.val
  have hsettled : Changes (groupExpelled s g.val) (settleAll (groupExpelled s g.val)) nothing := by
    refine settleAll_changes (h6.of_changes (g := g.val) hc (by simp) (by simp) (fun j hj => by simpa using hj) ?_)
    rw [groupExpelled_group]
    rfl
  have hrd {off : Nat} (ho : off < 4096) :
      (signal (settleAll (groupExpelled s g.val))).rd (pgGtab g.val) off = (groupExpelled s g.val).rd (pgGtab g.val) off :=
    (signal_rd ..).trans (hsettled.rd_eq ho id)
  have hgroup : (settleAll (groupExpelled s g.val)).group g.val = (groupExpelled s g.val).group g.val := hsettled (.group g.val) id
  refine completes_due (show execReform g s = _ from rfl) h (reformGroup_expelled h1 h2) (by simp)
    (hc.trans (hsettled.mono fun _ hp => hp.elim)) ⟨?_, ?_, ?_⟩
  · exact (get_eq_of_word (hrd (gOff_lt (by decide)))).trans (groupExpelled_state ..)
  · exact (hrd (by decide)).trans (groupExpelled_event ..)
  · rw [signal_group, hgroup, groupExpelled_group]
    rfl

/-- The re-formed group has sent its notices. -/
abbrev reformSent (s : State) (g : Nat) : State := sendNotices (groupReformed s g) g

theorem reformSent_waits (h : groupState s g.val = 4) (h3 : (s.group g.val).notices = [])
    (h4 : ∃ m ∈ (s.group g.val).members, m ∉ (s.group g.val).removal ∧ m.toNat ≠ nodeId s) :
    noticesCheck (reformSent s g.val) g.val = reformSent s g.val := by
  have hrun := groupReformed_group s g.val
  have hstate : groupState (reformSent s g.val) g.val = 4 := by
    rw [groupState, get_eq_of_word (sendNotices_rd ..), ← groupState, groupReformed_state, h]
  refine noticesCheck_sent (.inr ⟨hstate, ?_⟩) (by rw [hrun]; exact h3) ?_
  · rw [sendNotices_group, hrun]
  · obtain ⟨m, hm, hkept, hother⟩ := h4
    rw [hrun, groupReformed_nodeId]
    exact ⟨m, List.mem_filter.2 ⟨hm, by simpa using hkept⟩, hother⟩

theorem reformSent_changes (s : State) (g : Nat) : Changes s (reformSent s g) (reformParts s g) := by
  refine (groupReformed_changes s g).trans ((sendNotices_changes _ g).mono fun p hp => ?_)
  simp only [List.mem_cons, List.not_mem_nil, or_false] at hp
  rcases hp with rfl | rfl <;> simp

theorem reformSent_run (s : State) (g : Nat) :
    ((reformSent s g).group g).members = remaining s g ∧ ((reformSent s g).group g).reforming = true ∧
      ((reformSent s g).group g).deleting = (s.group g).deleting := by
  rw [sendNotices_group, groupReformed_group]
  exact ⟨rfl, rfl, rfl⟩

theorem completes_reform (h : reformDue s g.val = true) (h1 : (s.group g.val).coll = none)
    (h2 : ∀ m ∈ (s.group g.val).removal, m.toNat ≠ nodeId s) (h3 : (s.group g.val).notices = [])
    (h4 : ∃ m ∈ (s.group g.val).members, m ∉ (s.group g.val).removal ∧ m.toNat ≠ nodeId s) (h6 : NothingDeferred s)
    (h7 : (s.group g.val).members.length < 2 ^ 32) :
    Completes (.reform g) s (reformParts s g.val) (fun t =>
      (t.group g.val).members = (s.group g.val).members.filter (fun m => !(s.group g.val).removal.contains m) ∧
        groupCount t g.val = (t.group g.val).members.length ∧ (t.group g.val).reforming = true ∧ groupState t g.val = 4 ∧
        t.rdN (pgGtab g.val) (gOff g.val 0x2C) = min (s.rdN (pgGtab g.val) (gOff g.val 0x2C) + 1) (2 ^ 32 - 1) ∧
        EventSet s t (pgGtab g.val) 2 ∧
        ∀ m ∈ others t g.val, ∃ dg ring, Out.creationNotice g.val m dg ring ∈ t.out) := by
  have hc := reformSent_changes s g.val
  obtain ⟨hremaining, hreforming, hdeleting⟩ := reformSent_run s g.val
  have hsettled : Changes (reformSent s g.val) (settleAll (reformSent s g.val)) nothing := by
    exact settleAll_changes (h6.of_changes (g := g.val) hc (by simp) (by simp) (fun j hj => by simpa using hj) hdeleting)
  have hrd {page off : Nat} (ho : off < 4096) :
      (signal (settleAll (reformSent s g.val))).rd page off = (groupReformed s g.val).rd page off :=
    (signal_rd ..).trans ((hsettled.rd_eq ho id).trans (sendNotices_rd ..))
  have hgroup : (signal (settleAll (reformSent s g.val))).group g.val = (reformSent s g.val).group g.val :=
    (signal_group ..).trans (hsettled (.group g.val) id)
  have hmembers : ((signal (settleAll (reformSent s g.val))).group g.val).members = remaining s g.val := by rw [hgroup, hremaining]
  have hcmd : reformGroup s g.val = settleAll (reformSent s g.val) :=
    (reformGroup_goes_on h1 h2).trans (congrArg settleAll (reformSent_waits (reform_state h) h3 h4))
  refine completes_due (show execReform g s = _ from rfl) h hcmd (by simp)
    (hc.trans (hsettled.mono fun _ hp => hp.elim)) ⟨hmembers, ?_, ?_, ?_, ?_, ?_, ?_⟩
  · rw [hmembers]
    exact (congrArg BitVec.toNat (hrd (gOff_lt (by decide)))).trans
      (regrouped_count _ g.val (Nat.lt_of_le_of_lt (List.length_filter_le ..) h7))
  · rw [hgroup, hreforming]
  · exact (get_eq_of_word (hrd (gOff_lt (by decide)))).trans ((groupReformed_state s g).trans (reform_state h))
  · exact (congrArg BitVec.toNat (hrd (gOff_lt (by decide)))).trans (groupReformed_epoch s g)
  · exact (hrd (by decide)).trans (groupReformed_event s g)
  · intro m hm
    obtain ⟨-, -, -, hout⟩ : _ ∧ _ ∧ _ ∧ _ := hsettled .signals id
    have hboot : (signal (settleAll (reformSent s g.val))).boot = (groupReformed s g.val).boot := by
      have hsame : (settleAll (reformSent s g.val)).boot = (reformSent s g.val).boot := hsettled .boot id
      rw [signal_boot, hsame, sendNotices_boot]
    have hnode : nodeId (signal (settleAll (reformSent s g.val))) = nodeId (groupReformed s g.val) :=
      nodeId_congr hboot (get_eq_of_word (hrd (by decide)))
    have hkept : ((signal (settleAll (reformSent s g.val))).group g.val).members = ((groupReformed s g.val).group g.val).members := by
      rw [hmembers, groupReformed_group]
    rw [others_congr hnode hkept] at hm
    have hsent := sendNotices_told hm
    rw [← hout] at hsent
    exact ⟨_, _, mem_out_signal hsent⟩

end Sys2Proof.Claims
end

section
/-! SUPPORT. A transfer launches (10 R274 to R276): its parts sail one after the other. -/

namespace Sys2Proof.Claims
open Sys2Proof.Machine

variable {s t u : State} {g n dest port : Nat} {d : CollDesc} {p : Piece} {bs : List Byte} {c : Coll}

/-! Flits and seals. -/

/-- What flits do not touch is as before. -/
theorem countFlits_field {α : Type} (f : State → α) (hadd : ∀ u page off n, f (State.add64 u page off n) = f u)
    (hlink : ∀ u n x, f (State.setLink u n x) = f u) (s : State) (port len : Nat) : f (countFlits s port len) = f s := by
  have hsend (u : State) (link n : Nat) : f (sendFlits u link n) = f u := by
    rw [sendFlits]
    exact (hlink ..).trans (hadd ..)
  have hall (k : Nat × Nat → Nat) (l : List (Nat × Nat)) (u : State) : f (l.foldl (fun t x => sendFlits t x.1 (k x)) u) = f u := by
    induction l generalizing u with
    | nil => rfl
    | cons x l ih => rw [List.foldl_cons, ih, hsend]
  exact hall ..

theorem countFlits_out (s : State) (port len : Nat) : (countFlits s port len).out = s.out :=
  countFlits_field State.out (fun _ _ _ _ => rfl) (fun _ _ _ => rfl) s port len

theorem countFlits_seals (s : State) (port len : Nat) : (countFlits s port len).sealCtr = s.sealCtr :=
  countFlits_field State.sealCtr (fun _ _ _ _ => rfl) (fun _ _ _ => rfl) s port len

/-- What has gone out stays so. -/
theorem sendAttempt_out {h : Held} {o : Out} (ho : o ∈ s.out) : o ∈ (sendAttempt s h).out := by
  simp only [sendAttempt, State.emit]
  split
  · exact List.mem_append_left _ (by rwa [countFlits_out])
  · split
    · exact List.mem_append_left _ (by rwa [countFlits_out])
    · exact List.mem_append_left _ ho

theorem seal_step (m : Store Nat) (j k : Nat) : storeGet (storePut m j (storeGet m j 0 + 1) 0) k 0 ≤ storeGet m k 0 + 1 := by
  by_cases hk : k = j
  · subst hk
    rw [storeGet_storePut_same]
  · rw [storeGet_storePut_other _ _ _ _ hk]
    omega

/-- An attempt counts each key up by one at most. -/
theorem sendAttempt_seals (s : State) (h : Held) (k : Nat) : storeGet (sendAttempt s h).sealCtr k 0 ≤ storeGet s.sealCtr k 0 + 1 := by
  simp only [sendAttempt, State.emit]
  split
  · rw [countFlits_seals]
    exact Nat.le_add_right _ _
  · split
    · rw [countFlits_seals]
      exact seal_step ..
    · exact Nat.le_add_right _ _

/-! One part. -/

/-- The berth that a part's header names. -/
theorem chunkHeader_berth (s : State) (g : Nat) (d : CollDesc) (n dest : Nat) (p : Piece) (y : Nat × Nat × Nat) :
    (hdrOf (hdrBytes (chunkHeader s g d n dest p y))).berth = groupOwner s g % 256 := by
  simp (disch := decide) only [hdrOf, hdrBytes, chunkHeader, List.append_assoc, fieldLE_skip, fieldLE_first, Nat.reduceSub, Nat.reducePow]

/-- What the port holds of part `y` of a transfer. -/
def partHeld (s : State) (g : Nat) (d : CollDesc) (n port dest : Nat) (p : Piece) (bs : List Byte) (y : Nat × Nat × Nat) : Held :=
  newHeld port (hdrBytes (chunkHeader s g d n dest p y)) ((bs.drop y.2.1).take y.2.2) (((pieceAddr d p).map (fun a => a + y.2.1)).getD 0)
    (if ((pieceAddr d p).map (fun a => a + y.2.1)).isSome then y.2.2 else 0) s.now

/-- Part `y` sails. -/
def sailPart (g : Nat) (d : CollDesc) (n port dest : Nat) (p : Piece) (bs : List Byte) (s : State) (y : Nat × Nat × Nat) : State :=
  (sailNew s port (hdrBytes (chunkHeader s g d n dest p y)) ((bs.drop y.2.1).take y.2.2)
    (((pieceAddr d p).map (fun a => a + y.2.1)).getD 0) (if ((pieceAddr d p).map (fun a => a + y.2.1)).isSome then y.2.2 else 0) s.now).2

theorem launchTransfer_eq (s : State) (g : Nat) (d : CollDesc) (n port : Nat) (dest : BitVec 16) (p : Piece) :
    launchTransfer s g d n port dest p = (partsOf p.len).foldl (sailPart g d n port dest.toNat p (pieceBytes s g d p)) s := rfl

/-- What the sailing of parts changes. -/
abbrev sailParts : Part → Prop := also (also someLinks flitsSent) (parts [.held, .seals, .signals])

/-- Words of other pages than the links' read as before. -/
theorem rd_of_sailed (hc : Changes s t sailParts) {page off : Nat} (ho : off < 4096) (hp : page < 0x040 ∨ 0x050 ≤ page) :
    t.rd page off = s.rd page off := by
  refine hc.rd_eq ho ?_
  have hne {m o : Nat} (hm : m < 16) (ho' : o < 4096) : regKey page off ≠ regKey (pgLnk m) o := by
    rw [ne_eq, regKey_inj ho ho', pgLnk]
    omega
  rintro ((⟨m, -, he⟩ | ⟨m, hm, he | he⟩) | he)
  · cases he
  · exact hne hm (by decide) (Part.reg.inj he)
  · exact hne hm (by decide) (Part.reg.inj he)
  · simp at he

/-- The group's entry, this chip's node id and the link keys are not of the parts that change: headers stay as they are. -/
theorem chunkHeader_sailed (hc : Changes s t sailParts) (hg : g < 64) (y : Nat × Nat × Nat) :
    chunkHeader t g d n dest p y = chunkHeader s g d n dest p y := by
  have hpage : pgGtab g < 0x040 ∨ 0x050 ≤ pgGtab g := .inr (by unfold pgGtab; omega)
  have howner : groupOwner t g = groupOwner s g := congrArg BitVec.toNat (rd_of_sailed hc (gOff_lt (by decide)) hpage)
  have hstage : groupStage t g = groupStage s g := by
    rw [groupStage, groupStage, State.rd64, State.rd64, rd_of_sailed hc (gOff_lt (by decide)) hpage,
      rd_of_sailed hc (by unfold gOff; omega) hpage]
  have hnode : nodeId t = nodeId s := nodeId_congr (hc .boot (by simp)) (get_eq_of_word (rd_of_sailed hc (by decide) (.inr (by decide))))
  simp only [chunkHeader, collKey, howner, hstage, hnode]

theorem linkKeyOf_sailed (hc : Changes s t sailParts) (b : Nat) : linkKeyOf t b = linkKeyOf s b := by
  have hberth : t.berth b = s.berth b := hc (.berth b) (by simp)
  have hkeys : t.hostKey = s.hostKey ∧ t.drawn = s.drawn := hc .keys (by simp)
  obtain ⟨hhost, -⟩ := hkeys
  rw [linkKeyOf, linkKeyOf, hberth, hhost]

/-- A part that the port accepts is held there and goes out. -/
structure PartSailed (g : Nat) (d : CollDesc) (n port dest : Nat) (p : Piece) (bs : List Byte) (s t : State) (y : Nat × Nat × Nat) : Prop where
  held : ∃ x ∈ t.held, x.hdr = hdrBytes (chunkHeader s g d n dest p y) ∧ x.attempt = 0 ∧ x.port = port ∧
    x.crc = consCrc x.hdr ((bs.drop y.2.1).take y.2.2)
  out : ∃ blk crc, Out.sail port (withAttempt (hdrBytes (chunkHeader s g d n dest p y)) 0) blk crc ∈ t.out

/-- What is held stays held, and what has gone out stays so. -/
structure Grows (s t : State) : Prop where
  held : ∀ x ∈ s.held, x ∈ t.held
  out : ∀ o ∈ s.out, o ∈ t.out

theorem PartSailed.grows {y : Nat × Nat × Nat} (h : PartSailed g d n port dest p bs s t y) (hg : Grows t u) :
    PartSailed g d n port dest p bs s u y := by
  obtain ⟨⟨x, hx, hfields⟩, ⟨blk, crc, ho⟩⟩ := h
  exact ⟨⟨x, hg.held x hx, hfields⟩, ⟨blk, crc, hg.out _ ho⟩⟩

/-- The counter of the key that seals the group's parts. -/
abbrev sealsUsed (s : State) (g : Nat) : Nat := storeGet s.sealCtr (linkKeyOf s (groupOwner s g % 256)) 0

section part
variable {y : Nat × Nat × Nat}

theorem sailPart_eq (hg : hdrGood (hdrBytes (chunkHeader s g d n dest p y)) = true) (hc : sealsUsed s g + 1 < 2 ^ 64) :
    sailPart g d n port dest p bs s y =
      sendAttempt { s with held := s.held ++ [partHeld s g d n port dest p bs y] } (partHeld s g d n port dest p bs y) :=
  sailNew_good hg (by rwa [chunkHeader_berth])

theorem sailPart_changes (hg : hdrGood (hdrBytes (chunkHeader s g d n dest p y)) = true) (hc : sealsUsed s g + 1 < 2 ^ 64) :
    Changes s (sailPart g d n port dest p bs s y) sailParts := by
  rw [sailPart_eq hg hc]
  refine Changes.trans ((changes_held (by simp)).2 (Changes.refl _ _)) ((sendAttempt_changes _ _).mono ?_)
  rintro q (hq | hq)
  · exact .inl hq
  · exact .inr (List.mem_cons_of_mem _ hq)

theorem sailPart_held (hg : hdrGood (hdrBytes (chunkHeader s g d n dest p y)) = true) (hc : sealsUsed s g + 1 < 2 ^ 64) :
    (sailPart g d n port dest p bs s y).held = s.held ++ [partHeld s g d n port dest p bs y] := by
  rw [sailPart_eq hg hc]
  exact sendAttempt_changes _ _ .held (by simp)

theorem sailPart_grows (hg : hdrGood (hdrBytes (chunkHeader s g d n dest p y)) = true) (hc : sealsUsed s g + 1 < 2 ^ 64) :
    Grows s (sailPart g d n port dest p bs s y) where
  held := fun x hx => by
    rw [sailPart_held hg hc]
    exact List.mem_append_left _ hx
  out := fun o ho => by
    rw [sailPart_eq hg hc]
    exact sendAttempt_out ho

theorem sailPart_sailed (hg : hdrGood (hdrBytes (chunkHeader s g d n dest p y)) = true) (hc : sealsUsed s g + 1 < 2 ^ 64) :
    PartSailed g d n port dest p bs s (sailPart g d n port dest p bs s y) y where
  held := by
    refine ⟨partHeld s g d n port dest p bs y, ?_, rfl, rfl, rfl, rfl⟩
    rw [sailPart_held hg hc]
    exact List.mem_append_right _ (List.mem_singleton_self _)
  out := by
    rw [sailPart_eq hg hc]
    obtain ⟨blk, hblk⟩ := sendAttempt_sails { s with held := s.held ++ [partHeld s g d n port dest p bs y] } (partHeld s g d n port dest p bs y)
    exact ⟨blk, _, hblk⟩

theorem sailPart_seals (hg : hdrGood (hdrBytes (chunkHeader s g d n dest p y)) = true) (hc : sealsUsed s g + 1 < 2 ^ 64) (k : Nat) :
    storeGet (sailPart g d n port dest p bs s y).sealCtr k 0 ≤ storeGet s.sealCtr k 0 + 1 := by
  rw [sailPart_eq hg hc]
  exact sendAttempt_seals ..

end part

/-! All of them. -/

theorem sealsUsed_sailed (hc : Changes s t sailParts) (hg : g < 64) :
    sealsUsed t g = storeGet t.sealCtr (linkKeyOf s (groupOwner s g % 256)) 0 := by
  have howner : groupOwner t g = groupOwner s g :=
    congrArg BitVec.toNat (rd_of_sailed hc (gOff_lt (by decide)) (.inr (by unfold pgGtab; omega)))
  rw [sealsUsed, linkKeyOf_sailed hc, howner]

theorem sailParts_sailed (hg : g < 64) (l : List (Nat × Nat × Nat)) (s : State)
    (hgood : ∀ y ∈ l, hdrGood (hdrBytes (chunkHeader s g d n dest p y)) = true) (hc : sealsUsed s g + l.length < 2 ^ 64) :
    Changes s (l.foldl (sailPart g d n port dest p bs) s) sailParts ∧ Grows s (l.foldl (sailPart g d n port dest p bs) s) ∧
      ∀ y ∈ l, PartSailed g d n port dest p bs s (l.foldl (sailPart g d n port dest p bs) s) y := by
  induction l generalizing s with
  | nil => exact ⟨Changes.refl _ _, ⟨fun _ hx => hx, fun _ ho => ho⟩, fun y hy => absurd hy (by simp)⟩
  | cons y l ih =>
    rw [List.length_cons] at hc
    have hy := hgood y List.mem_cons_self
    have hleft : sealsUsed s g + 1 < 2 ^ 64 := by omega
    have hchanged := sailPart_changes (port := port) (bs := bs) hy hleft
    have hgrown := sailPart_grows (port := port) (bs := bs) hy hleft
    have hused : sealsUsed (sailPart g d n port dest p bs s y) g ≤ sealsUsed s g + 1 := by
      rw [sealsUsed_sailed hchanged hg]
      exact sailPart_seals hy hleft _
    obtain ⟨hrest, hgrows, hsailed⟩ := ih (sailPart g d n port dest p bs s y)
      (fun z hz => by rw [chunkHeader_sailed hchanged hg]; exact hgood z (List.mem_cons_of_mem _ hz)) (by omega)
    rw [List.foldl_cons]
    refine ⟨hchanged.trans hrest, ⟨fun x hx => hgrows.held x (hgrown.held x hx), fun o ho => hgrows.out o (hgrown.out o ho)⟩, fun z hz => ?_⟩
    rcases List.mem_cons.1 hz with rfl | hz
    · exact (sailPart_sailed hy hleft).grows hgrows
    · obtain ⟨hheld, hout⟩ := hsailed z hz
      rw [chunkHeader_sailed hchanged hg] at hheld hout
      exact ⟨hheld, hout⟩

/-! The launch. -/

/-- The transfer is noted as launched. -/
def launchNoted (s : State) (g n : Nat) : State := updColl s g (fun c => { c with launched := c.launched ++ [n] })

theorem pieceBytes_launchNoted (s : State) (g n : Nat) (d : CollDesc) (p : Piece) :
    pieceBytes (launchNoted s g n) g d p = pieceBytes s g d p := by
  have hbytes (a k : Nat) : (launchNoted s g n).bytes a k = s.bytes a k := rfl
  have hwork : ((launchNoted s g n).group g).coll.elim [] (fun c => c.work) = (s.group g).coll.elim [] (fun c => c.work) := by
    rw [launchNoted, updColl, group_updGroup]
    cases (s.group g).coll <;> rfl
  simp only [pieceBytes, hbytes, hwork]

section launch
variable {g : Fin 64} {k q : Nat}

theorem tryLaunch_eq (h1 : (s.group g.val).coll = some c) (h2 : d = collDesc c.desc) (h3 : c.stopped = false) (h4 : c.begun = true)
    (h5 : sendOf (collCtx s g.val d) (collPlan s g.val d) n = some (k, q, p)) (h6 : n ∉ c.launched) (h7 : n ∈ c.credit)
    (h8 : reachedNow s (launchTide d n) = true) (h9 : s.now = launchTide d n) (h10 : collGate s g.val d = true)
    (h11 : dataReady (collCtx s g.val d) (collPlan s g.val d) c k p = true)
    (h12 : collPort s g.val d (memberAt s g.val q).toNat = some port) :
    tryLaunch s g.val n = launchTransfer (launchNoted s g.val n) g.val d n port (memberAt s g.val q) p := by
  subst h2
  have hbegun : beginColl s g.val c = s := by simp only [beginColl, h4, Bool.true_or, if_true]
  have hheld : (s.now != launchTide (collDesc c.desc) n) = false := by simp [h9]
  have hready : (c.launched.contains n || !reachedNow s (launchTide (collDesc c.desc) n) || !collGate s g.val (collDesc c.desc) || !c.begun ||
      !dataReady (collCtx s g.val (collDesc c.desc)) (collPlan s g.val (collDesc c.desc)) c k p || !c.credit.contains n) = false := by
    simp [h4, h6, h7, h8, h10, h11]
  simp only [tryLaunch, h1, h3, hbegun, h5, hready, h12, hheld, Bool.false_and, Bool.false_eq_true, if_false]
  rfl

theorem completes_launch (h : groupState s g.val = 3) (h1 : (s.group g.val).coll = some c) (h2 : d = collDesc c.desc)
    (h3 : c.stopped = false) (h4 : c.begun = true) (h5 : sendOf (collCtx s g.val d) (collPlan s g.val d) n = some (k, q, p))
    (h6 : n ∉ c.launched) (h7 : n ∈ c.credit) (h8 : reachedNow s (launchTide d n) = true) (h9 : s.now = launchTide d n)
    (h10 : collGate s g.val d = true) (h11 : dataReady (collCtx s g.val d) (collPlan s g.val d) c k p = true)
    (h12 : collPort s g.val d (memberAt s g.val q).toNat = some port)
    (h13 : ∀ y ∈ partsOf p.len, hdrGood (hdrBytes (chunkHeader s g.val d n (memberAt s g.val q).toNat p y)) = true)
    (h14 : storeGet s.sealCtr (linkKeyOf s (groupOwner s g.val % 256)) 0 + (partsOf p.len).length < 2 ^ 64) :
    Completes (.transferLaunch g n) s (also (also someLinks flitsSent) (parts [.group g.val, .held, .seals, .signals])) (fun t =>
      (t.group g.val).coll = some { c with launched := c.launched ++ [n] } ∧
      ∀ y ∈ partsOf p.len,
        (∃ x ∈ t.held, x.hdr = hdrBytes (chunkHeader s g.val d n (memberAt s g.val q).toNat p y) ∧ x.attempt = 0 ∧ x.port = port ∧
          x.crc = consCrc x.hdr (((pieceBytes s g.val d p).drop y.2.1).take y.2.2)) ∧
        ∃ blk crc, Out.sail port (withAttempt (hdrBytes (chunkHeader s g.val d n (memberAt s g.val q).toNat p y)) 0) blk crc ∈ t.out) := by
  generalize hdest : (memberAt s g.val q).toNat = dest at *
  obtain ⟨hsails, -, hsailed⟩ := sailParts_sailed (dest := dest) (d := d) (n := n) (p := p) (port := port) (bs := pieceBytes s g.val d p)
    g.isLt (partsOf p.len) (launchNoted s g.val n) h13 h14
  have hcmd : tryLaunch s g.val n =
      (partsOf p.len).foldl (sailPart g.val d n port dest p (pieceBytes s g.val d p)) (launchNoted s g.val n) := by
    rw [tryLaunch_eq h1 h2 h3 h4 h5 h6 h7 h8 h9 h10 h11 (by rwa [hdest]), launchTransfer_eq, pieceBytes_launchNoted, hdest]
  refine completes_finish ((if_pos h).trans (congrArg finish hcmd)) (by simp) ?_ ⟨?_, fun y hy => ?_⟩
  · have hnoted : Changes s (launchNoted s g.val n) (also (also someLinks flitsSent) (parts [.group g.val, .held, .seals, .signals])) :=
      (changes_updGroup (by simp)).2 (Changes.refl _ _)
    refine hnoted.trans (hsails.mono ?_)
    rintro x (hx | hx)
    · exact .inl hx
    · exact .inr (List.mem_cons_of_mem _ hx)
  · have hgroup : _ = (launchNoted s g.val n).group g.val := hsails (.group g.val) (by simp)
    rw [signal_group, hgroup, launchNoted, updColl_coll h1]
  · obtain ⟨hheld, ⟨blk, crc, hout⟩⟩ := hsailed y hy
    rw [signal_held]
    exact ⟨hheld, blk, crc, mem_out_signal hout⟩

end launch

end Sys2Proof.Claims
end

section
/-! SUPPORT. The engine writes a chunk (10 R272, R273, R276), and the rows of a collective's commands. -/

namespace Sys2Proof.Claims
open Sys2Proof.Machine

variable {s t u : State} {g : Fin 64} {n m k q : Nat} {d : CollDesc} {p : Piece} {w : RecvWork} {c : Coll} {bs : List Byte} {a : Nat}

/-- A write that meets no uncorrectable unit stores its bytes. -/
theorem byte_memWrite_clean (h : s.poison = []) {j : Nat} (hj : j < bs.length) : (memWrite s a bs).byte (a + j) = bs.getD j 0 := by
  have hclean : poisoned s a bs.length = false := by rw [poisoned, h, List.any_nil]
  rw [memWrite_clean hclean]
  exact byte_storeBytes_at _ _ _ _ hj

/-- NONFINITE is noted where a reduction's result has such an element. -/
def nonfiniteNoted (s : State) (g : Nat) (d : CollDesc) (bs : List Byte) : State :=
  if reduces d && anyNonfinite d.fmt bs then updColl s g (fun c => { c with nonfinite := true }) else s

theorem nonfiniteNoted_changes (s : State) (g : Nat) (d : CollDesc) (bs : List Byte) :
    Changes s (nonfiniteNoted s g d bs) (parts [.group g]) := by
  unfold nonfiniteNoted
  split
  · exact (changes_updGroup (by simp)).2 (Changes.refl _ _)
  · exact Changes.refl _ _

theorem nonfiniteNoted_coll (h : (s.group g.val).coll = some c) (d : CollDesc) (bs : List Byte) :
    ∃ b, ((nonfiniteNoted s g.val d bs).group g.val).coll = some { c with nonfinite := b } := by
  unfold nonfiniteNoted
  split
  · exact ⟨true, by rw [updColl_coll h]⟩
  · exact ⟨c.nonfinite, h⟩

/-- The chunk's bytes are in memory, and it is noted as written. -/
def chunkStored (s : State) (g : Nat) (d : CollDesc) (n a : Nat) (bs : List Byte) : State :=
  updColl (memWrite (nonfiniteNoted s g d bs) a bs) g (fun c => { c with written := c.written ++ [n] })

theorem chunkStored_changes (s : State) (g : Nat) (d : CollDesc) (n a : Nat) (bs : List Byte) :
    Changes s (chunkStored s g d n a bs) (also (writesAt a bs.length) (parts [.group g, .signals])) := by
  rw [chunkStored, updColl, changes_updGroup (by simp)]
  exact ((nonfiniteNoted_changes s g d bs).mono fun _ hp => .inr (by rw [List.mem_singleton.1 hp]; exact List.mem_cons_self)).trans
    (Changes.mono (memWrite_writes _ _ _) fun _ hp => .inl hp)

theorem chunkStored_coll (h : (s.group g.val).coll = some c) (d : CollDesc) (n a : Nat) (bs : List Byte) :
    ∃ b, ((chunkStored s g.val d n a bs).group g.val).coll = some { c with nonfinite := b, written := c.written ++ [n] } := by
  obtain ⟨b, hb⟩ := nonfiniteNoted_coll h d bs
  have hkept : (memWrite (nonfiniteNoted s g.val d bs) a bs).group g.val = (nonfiniteNoted s g.val d bs).group g.val :=
    memWrite_writes _ _ _ (.group g.val) (by simp)
  rw [← hkept] at hb
  exact ⟨b, by rw [chunkStored, updColl_coll hb]⟩

theorem chunkStored_byte (h : s.poison = []) (g : Nat) (d : CollDesc) (n a : Nat) {bs : List Byte} {j : Nat} (hj : j < bs.length) :
    (chunkStored s g d n a bs).byte (a + j) = bs.getD j 0 := by
  have hpoison : (nonfiniteNoted s g d bs).poison = s.poison := nonfiniteNoted_changes s g d bs .poison (by simp)
  exact byte_memWrite_clean (hpoison.trans h) hj

/-- The group's plan is as before. -/
theorem chunkStored_shape (s : State) (g : Fin 64) (d : CollDesc) (n a : Nat) (bs : List Byte) :
    SameShape s (chunkStored s g.val d n a bs) g.val := by
  refine SameShape.of_entry fun o ho => ?_
  have hpage : pgGtab g.val < 0x200 ∨ 0x220 ≤ pgGtab g.val := .inl (by unfold pgGtab; omega)
  have hwritten := rd_of_writesAt (memWrite_writes (nonfiniteNoted s g.val d bs) a bs) (gOff_lt (g := g.val) ho) hpage
  have hnoted : (nonfiniteNoted s g.val d bs).rd (pgGtab g.val) (gOff g.val o) = s.rd (pgGtab g.val) (gOff g.val o) :=
    (nonfiniteNoted_changes s g.val d bs).rd_eq (gOff_lt ho) (by simp)
  rw [chunkStored, updColl, rd_updGroup, hwritten, hnoted]

/-- A chunk that is written does not complete another transfer. -/
theorem transferDone_written {x : CollCtx} {plan : List CollStep} {b : Bool} (h : m ≠ n) :
    transferDone x plan { c with nonfinite := b, written := c.written ++ [n] } m = transferDone x plan c m := by
  simp [transferDone, sentDone, h]

/-- The transfer that takes the slot of transfer n next gets its credit, if there is one (R276). -/
def creditNext (s : State) (g : Nat) (d : CollDesc) (rs : List Nat) (n : Nat) : State :=
  match rs.find? (fun v => decide (n < v) && v % groupDepth s g == n % groupDepth s g) with
  | some v => grantCredit s g d v
  | none => s

theorem creditNext_eq (s : State) (g : Nat) (d : CollDesc) (rs : List Nat) (n : Nat) :
    ∃ l, creditNext s g d rs n = { s with out := s.out ++ l } := by
  unfold creditNext
  split
  · exact ⟨_, grantCredit_eq ..⟩
  · exact ⟨[], by rw [List.append_nil]⟩

theorem writeChunk_credited (h2 : d = collDesc c.desc) (h4 : recvOf (collCtx s g.val d) (collPlan s g.val d) n = some (k, q, p, w)) :
    writeChunk s g.val c n = tryComplete (creditNext (updColl (writePiece s g.val d (collCtx s g.val d) p (chunkResult s g.val d n p w)) g.val
      (fun c => { c with written := c.written ++ [n] })) g.val d (recvs (collCtx s g.val d) (collPlan s g.val d)) n) g.val := by
  subst h2
  simp only [writeChunk, h4]
  cases w <;> rfl

/-- The result lies apart from what is read at SRC. -/
theorem writePiece_apart {x : CollCtx} (h5 : p.buf = .dst) (h6 : bs.length = p.len)
    (h7 : overlap (placeBits d.dst + p.off) p.len (placeBits d.src) (srcBytes x) = false) :
    writePiece s g.val d x p bs = memWrite (nonfiniteNoted s g.val d bs) (placeBits d.dst + p.off) bs := by
  simp only [writePiece, h5, writeDst, h6, h7, Bool.false_eq_true, if_false, nonfiniteNoted]

/-- With another transfer left, the chunk is stored, the credit goes out, and nothing else follows. -/
theorem writeChunk_eq (h1 : (s.group g.val).coll = some c) (h2 : d = collDesc c.desc)
    (h4 : recvOf (collCtx s g.val d) (collPlan s g.val d) n = some (k, q, p, w)) (h5 : p.buf = .dst)
    (h6 : (chunkResult s g.val d n p w).length = p.len)
    (h7 : overlap (placeBits d.dst + p.off) p.len (placeBits d.src) (srcBytes (collCtx s g.val d)) = false)
    (h9 : ∃ m, m ≠ n ∧ m < transferCount (collPlan s g.val d) ∧
      transferDone (collCtx s g.val d) (collPlan s g.val d) c m = false) :
    ∃ l, writeChunk s g.val c n = { chunkStored s g.val d n (placeBits d.dst + p.off) (chunkResult s g.val d n p w) with
      out := (chunkStored s g.val d n (placeBits d.dst + p.off) (chunkResult s g.val d n p w)).out ++ l } := by
  have hshape := chunkStored_shape s g d n (placeBits d.dst + p.off) (chunkResult s g.val d n p w)
  obtain ⟨b, hcoll⟩ := chunkStored_coll h1 d n (placeBits d.dst + p.off) (chunkResult s g.val d n p w)
  have hwrite := writeChunk_credited h2 h4
  rw [writePiece_apart h5 h6 h7, ← chunkStored] at hwrite
  generalize chunkStored s g.val d n (placeBits d.dst + p.off) (chunkResult s g.val d n p w) = u at hshape hcoll hwrite
  obtain ⟨l, hl⟩ := creditNext_eq u g.val d (recvs (collCtx s g.val d) (collPlan s g.val d)) n
  rw [hl] at hwrite
  refine ⟨l, hwrite.trans ?_⟩
  obtain ⟨m, hne, hlt, hdone⟩ := h9
  subst h2
  have hplan : collPlan { u with out := u.out ++ l } g.val (collDesc c.desc) = collPlan s g.val (collDesc c.desc) := hshape.plan_eq _
  have hctx : collCtx { u with out := u.out ++ l } g.val (collDesc c.desc) = collCtx s g.val (collDesc c.desc) := hshape.ctx_eq _
  refine tryComplete_pending (c := { c with nonfinite := b, written := c.written ++ [n] }) (n := m) hcoll ?_ ?_
  · rwa [hplan]
  · rw [hplan, hctx, transferDone_written hne, hdone]

theorem completes_written (h : groupState s g.val = 3) (h1 : (s.group g.val).coll = some c) (h2 : d = collDesc c.desc)
    (h3 : writable s g.val c n = true) (h4 : recvOf (collCtx s g.val d) (collPlan s g.val d) n = some (k, q, p, w)) (h5 : p.buf = .dst)
    (h6 : (chunkResult s g.val d n p w).length = p.len)
    (h7 : overlap (placeBits d.dst + p.off) p.len (placeBits d.src) (srcBytes (collCtx s g.val d)) = false) (h8 : s.poison = [])
    (h9 : ∃ m, m ≠ n ∧ m < transferCount (collPlan s g.val d) ∧
      transferDone (collCtx s g.val d) (collPlan s g.val d) c m = false) :
    Completes (.chunkWritten g n) s (also (writesAt (placeBits d.dst + p.off) p.len) (parts [.group g.val, .signals])) (fun t =>
      (∃ c', (t.group g.val).coll = some c' ∧ c'.written = c.written ++ [n] ∧ c'.launched = c.launched ∧ c'.credit = c.credit) ∧
      ∀ j, j < p.len → t.byte (placeBits d.dst + p.off + j) = (chunkResult s g.val d n p w).getD j 0) := by
  obtain ⟨l, hwrite⟩ := writeChunk_eq h1 h2 h4 h5 h6 h7 h9
  obtain ⟨b, hcoll⟩ := chunkStored_coll h1 d n (placeBits d.dst + p.off) (chunkResult s g.val d n p w)
  have hchanges := chunkStored_changes s g.val d n (placeBits d.dst + p.off) (chunkResult s g.val d n p w)
  have hbyte (j : Nat) (hj : j < p.len) := chunkStored_byte h8 g.val d n (placeBits d.dst + p.off)
    (by rwa [h6] : j < (chunkResult s g.val d n p w).length)
  rw [h6] at hchanges
  have he : exec (.chunkWritten g n) s = finish (writeChunk s g.val c n) := by
    show execChunkWritten g n s = _
    simp [execChunkWritten, h1, h, h3]
  generalize chunkStored s g.val d n (placeBits d.dst + p.off) (chunkResult s g.val d n p w) = u at hwrite hcoll hchanges hbyte
  refine completes_finish (he.trans (congrArg finish hwrite)) (.inr (by simp)) ((changes_out (.inr (by simp))).2 hchanges)
    ⟨⟨{ c with nonfinite := b, written := c.written ++ [n] }, ?_, rfl, rfl, rfl⟩, fun j hj => ?_⟩
  · rw [signal_group]
    exact hcoll
  · rw [signal_byte]
    exact hbyte j hj

end Sys2Proof.Claims

open Sys2Proof Sys2Proof.Machine Sys2Proof.Claims

/-- Settles O29: each row by the lemma of its command. -/
theorem collectiveResults : Obligations.CollectiveResults := by
  intro s i may post hrow
  cases hrow with
  | launch g n k q port p c d h h1 h2 h3 h4 h5 h6 h7 h8 h9 h10 h11 h12 h13 h14 =>
    exact completes_launch h h1 h2 h3 h4 h5 h6 h7 h8 h9 h10 h11 h12 h13 h14
  | credit g n c h h1 h2 h3 => exact completes_credit h h1 h2 h3
  | early g n h h1 => exact completes_earlyCredit h h1
  | written g n k q p w c d h h1 h2 h3 h4 h5 h6 h7 h8 h9 => exact completes_written h h1 h2 h3 h4 h5 h6 h7 h8 h9
  | timeout g n m h h1 => exact completes_timeout h h1
  | reformNotice g seq m at_ h h1 h2 => exact completes_reformNotice h h1 h2
  | reform g h h1 h2 h3 h4 h5 h6 h7 => exact completes_reform h h1 h2 h3 h4 h6 h7
  | expelled g h h1 h2 h6 => exact completes_expelled h h1 h2 h6
  | abortNotice g h h1 => exact completes_abortNotice h h1
end
